-- ==== Sys2Proof/Word.lean ====
section
/-!
DEFINITION. The word types of the machine and their plainest arithmetic.
-/

namespace Sys2Proof

/-- A 64-bit register (10_state.md R53). -/
abbrev Word := BitVec 64

/-- A byte of memory (00_scope.md R22). -/
abbrev Byte := BitVec 8

/-- A floating-point register: sign, 17-bit exponent, 64-bit significand (10_state.md R59). -/
abbrev FReg := BitVec 82

/-- A 41-bit instruction slot (30_encoding.md R450). -/
abbrev Slot := BitVec 41

/-- A 128-bit bundle (30_encoding.md R453). -/
abbrev Bundle := BitVec 128

end Sys2Proof
end

