-- ==== Sys2Proof/Syntax.lean ====
section
/-!
DEFINITION. The syntax of the Itanium 9300 instruction set: one operand structure per field layout of
spec/opcode_table.json, one constructor of `Instr` per row of the table (row numbers start at 0).
A field keeps the name the row gives it; a field the row splits over several bit ranges is held joined,
most significant range first (30_encoding.md R460).
-/

namespace Sys2Proof

/-- Operands of formats A1, A9, I5, I7, M38. -/
structure OpA1 where
  r3 : BitVec 7
  r2 : BitVec 7
  r1 : BitVec 7
  qp : BitVec 6
deriving DecidableEq, Repr

/-- Operands of formats A2, A10. -/
structure OpA2 where
  ct2d : BitVec 2
  r3 : BitVec 7
  r2 : BitVec 7
  r1 : BitVec 7
  qp : BitVec 6
deriving DecidableEq, Repr

/-- Operands of format A3. -/
structure OpA3 where
  imm8 : BitVec 8
  r3 : BitVec 7
  r1 : BitVec 7
  qp : BitVec 6
deriving DecidableEq, Repr

/-- Operands of format A4. -/
structure OpA4 where
  imm14 : BitVec 14
  r3 : BitVec 7
  r1 : BitVec 7
  qp : BitVec 6
deriving DecidableEq, Repr

/-- Operands of format A5. -/
structure OpA5 where
  imm22 : BitVec 22
  r3 : BitVec 2
  r1 : BitVec 7
  qp : BitVec 6
deriving DecidableEq, Repr

/-- Operands of format A6. -/
structure OpA6 where
  p2 : BitVec 6
  r3 : BitVec 7
  r2 : BitVec 7
  p1 : BitVec 6
  qp : BitVec 6
deriving DecidableEq, Repr

/-- Operands of formats A7, I17. -/
structure OpA7 where
  p2 : BitVec 6
  r3 : BitVec 7
  p1 : BitVec 6
  qp : BitVec 6
deriving DecidableEq, Repr

/-- Operands of format A8. -/
structure OpA8 where
  imm8 : BitVec 8
  p2 : BitVec 6
  r3 : BitVec 7
  p1 : BitVec 6
  qp : BitVec 6
deriving DecidableEq, Repr

/-- Operands of format I10. -/
structure OpI10 where
  count6d : BitVec 6
  r3 : BitVec 7
  r2 : BitVec 7
  r1 : BitVec 7
  qp : BitVec 6
deriving DecidableEq, Repr

/-- Operands of format I11. -/
structure OpI11 where
  len6d : BitVec 6
  r3 : BitVec 7
  pos6b : BitVec 6
  r1 : BitVec 7
  qp : BitVec 6
deriving DecidableEq, Repr

/-- Operands of format I12. -/
structure OpI12 where
  len6d : BitVec 6
  cpos6c : BitVec 6
  r2 : BitVec 7
  r1 : BitVec 7
  qp : BitVec 6
deriving DecidableEq, Repr

/-- Operands of format I13. -/
structure OpI13 where
  imm8 : BitVec 8
  len6d : BitVec 6
  cpos6c : BitVec 6
  r1 : BitVec 7
  qp : BitVec 6
deriving DecidableEq, Repr

/-- Operands of format I14. -/
structure OpI14 where
  imm1 : BitVec 1
  len6d : BitVec 6
  r3 : BitVec 7
  cpos6b : BitVec 6
  r1 : BitVec 7
  qp : BitVec 6
deriving DecidableEq, Repr

/-- Operands of format I15. -/
structure OpI15 where
  cpos6d : BitVec 6
  len4d : BitVec 4
  r3 : BitVec 7
  r2 : BitVec 7
  r1 : BitVec 7
  qp : BitVec 6
deriving DecidableEq, Repr

/-- Operands of format I16. -/
structure OpI16 where
  p2 : BitVec 6
  r3 : BitVec 7
  pos6b : BitVec 6
  p1 : BitVec 6
  qp : BitVec 6
deriving DecidableEq, Repr

/-- Operands of formats B9, F15, F16, I18, I19, M37, M48. -/
structure OpI19 where
  imm21 : BitVec 21
  qp : BitVec 6
deriving DecidableEq, Repr

/-- Operands of formats I20, M20. -/
structure OpI20 where
  target25 : BitVec 21
  r2 : BitVec 7
  qp : BitVec 6
deriving DecidableEq, Repr

/-- Operands of format I21. -/
structure OpI21 where
  r2 : BitVec 7
  b1 : BitVec 3
  timm9c : BitVec 9
  ih : BitVec 1
  wh : BitVec 2
  qp : BitVec 6
deriving DecidableEq, Repr

/-- Operands of format I22. -/
structure OpI22 where
  b2 : BitVec 3
  r1 : BitVec 7
  qp : BitVec 6
deriving DecidableEq, Repr

/-- Operands of format I23. -/
structure OpI23 where
  mask17 : BitVec 16
  r2 : BitVec 7
  qp : BitVec 6
deriving DecidableEq, Repr

/-- Operands of format I24. -/
structure OpI24 where
  imm44 : BitVec 28
  qp : BitVec 6
deriving DecidableEq, Repr

/-- Operands of formats I25, M26, M36. -/
structure OpI25 where
  r1 : BitVec 7
  qp : BitVec 6
deriving DecidableEq, Repr

/-- Operands of formats I26, M29. -/
structure OpI26 where
  ar3 : BitVec 7
  r2 : BitVec 7
  qp : BitVec 6
deriving DecidableEq, Repr

/-- Operands of formats I27, M30. -/
structure OpI27 where
  ar3 : BitVec 7
  imm8 : BitVec 8
  qp : BitVec 6
deriving DecidableEq, Repr

/-- Operands of formats I28, M31. -/
structure OpI28 where
  ar3 : BitVec 7
  r1 : BitVec 7
  qp : BitVec 6
deriving DecidableEq, Repr

/-- Operands of formats I29, M43, M46. -/
structure OpI29 where
  r3 : BitVec 7
  r1 : BitVec 7
  qp : BitVec 6
deriving DecidableEq, Repr

/-- Operands of format M1. -/
structure OpM1 where
  hint : BitVec 2
  r3 : BitVec 7
  r1 : BitVec 7
  qp : BitVec 6
deriving DecidableEq, Repr

/-- Operands of formats M2, M16. -/
structure OpM2 where
  hint : BitVec 2
  r3 : BitVec 7
  r2 : BitVec 7
  r1 : BitVec 7
  qp : BitVec 6
deriving DecidableEq, Repr

/-- Operands of format M3. -/
structure OpM3 where
  hint : BitVec 2
  imm9 : BitVec 9
  r3 : BitVec 7
  r1 : BitVec 7
  qp : BitVec 6
deriving DecidableEq, Repr

/-- Operands of formats M4, M14. -/
structure OpM4 where
  hint : BitVec 2
  r3 : BitVec 7
  r2 : BitVec 7
  qp : BitVec 6
deriving DecidableEq, Repr

/-- Operands of format M5. -/
structure OpM5 where
  hint : BitVec 2
  imm9 : BitVec 9
  r3 : BitVec 7
  r2 : BitVec 7
  qp : BitVec 6
deriving DecidableEq, Repr

/-- Operands of format M6. -/
structure OpM6 where
  hint : BitVec 2
  r3 : BitVec 7
  f1 : BitVec 7
  qp : BitVec 6
deriving DecidableEq, Repr

/-- Operands of format M7. -/
structure OpM7 where
  hint : BitVec 2
  r3 : BitVec 7
  r2 : BitVec 7
  f1 : BitVec 7
  qp : BitVec 6
deriving DecidableEq, Repr

/-- Operands of format M8. -/
structure OpM8 where
  hint : BitVec 2
  imm9 : BitVec 9
  r3 : BitVec 7
  f1 : BitVec 7
  qp : BitVec 6
deriving DecidableEq, Repr

/-- Operands of format M9. -/
structure OpM9 where
  hint : BitVec 2
  r3 : BitVec 7
  f2 : BitVec 7
  qp : BitVec 6
deriving DecidableEq, Repr

/-- Operands of format M10. -/
structure OpM10 where
  hint : BitVec 2
  imm9 : BitVec 9
  r3 : BitVec 7
  f2 : BitVec 7
  qp : BitVec 6
deriving DecidableEq, Repr

/-- Operands of formats M11, M12. -/
structure OpM11 where
  hint : BitVec 2
  r3 : BitVec 7
  f2 : BitVec 7
  f1 : BitVec 7
  qp : BitVec 6
deriving DecidableEq, Repr

/-- Operands of format M13. -/
structure OpM13 where
  hint : BitVec 2
  r3 : BitVec 7
  qp : BitVec 6
deriving DecidableEq, Repr

/-- Operands of format M15. -/
structure OpM15 where
  hint : BitVec 2
  imm9 : BitVec 9
  r3 : BitVec 7
  qp : BitVec 6
deriving DecidableEq, Repr

/-- Operands of format M17. -/
structure OpM17 where
  hint : BitVec 2
  r3 : BitVec 7
  s : BitVec 1
  i2b : BitVec 2
  r1 : BitVec 7
  qp : BitVec 6
deriving DecidableEq, Repr

/-- Operands of format M18. -/
structure OpM18 where
  r2 : BitVec 7
  f1 : BitVec 7
  qp : BitVec 6
deriving DecidableEq, Repr

/-- Operands of format M19. -/
structure OpM19 where
  f2 : BitVec 7
  r1 : BitVec 7
  qp : BitVec 6
deriving DecidableEq, Repr

/-- Operands of format M21. -/
structure OpM21 where
  target25 : BitVec 21
  f2 : BitVec 7
  qp : BitVec 6
deriving DecidableEq, Repr

/-- Operands of format M22. -/
structure OpM22 where
  target25 : BitVec 21
  r1 : BitVec 7
  qp : BitVec 6
deriving DecidableEq, Repr

/-- Operands of format M23. -/
structure OpM23 where
  target25 : BitVec 21
  f1 : BitVec 7
  qp : BitVec 6
deriving DecidableEq, Repr

/-- Operands of formats B8, M24, M25. -/
structure OpM24 where
  qp : BitVec 6
deriving DecidableEq, Repr

/-- Operands of format M27. -/
structure OpM27 where
  f1 : BitVec 7
  qp : BitVec 6
deriving DecidableEq, Repr

/-- Operands of format M44. -/
structure OpM44 where
  imm24 : BitVec 24
  qp : BitVec 6
deriving DecidableEq, Repr

/-- Operands of formats M42, M45. -/
structure OpM42 where
  r3 : BitVec 7
  r2 : BitVec 7
  qp : BitVec 6
deriving DecidableEq, Repr

/-- Operands of formats M28, M47. -/
structure OpM47 where
  r3 : BitVec 7
  qp : BitVec 6
deriving DecidableEq, Repr

/-- Operands of formats M35, M41. -/
structure OpM41 where
  r2 : BitVec 7
  qp : BitVec 6
deriving DecidableEq, Repr

/-- Operands of format M39. -/
structure OpM39 where
  r3 : BitVec 7
  i2b : BitVec 2
  r1 : BitVec 7
  qp : BitVec 6
deriving DecidableEq, Repr

/-- Operands of format M40. -/
structure OpM40 where
  r3 : BitVec 7
  i2b : BitVec 2
  qp : BitVec 6
deriving DecidableEq, Repr

/-- Operands of format M33. -/
structure OpM33 where
  cr3 : BitVec 7
  r1 : BitVec 7
  qp : BitVec 6
deriving DecidableEq, Repr

/-- Operands of format M32. -/
structure OpM32 where
  cr3 : BitVec 7
  r2 : BitVec 7
  qp : BitVec 6
deriving DecidableEq, Repr

/-- Operands of format M34. -/
structure OpM34 where
  sor : BitVec 4
  sol : BitVec 7
  sof : BitVec 7
  r1 : BitVec 7
  qp : BitVec 6
deriving DecidableEq, Repr

/-- Operands of formats B1, B2. -/
structure OpB1 where
  target25 : BitVec 21
  d : BitVec 1
  wh : BitVec 2
  p : BitVec 1
  qp : BitVec 6
deriving DecidableEq, Repr

/-- Operands of format B3. -/
structure OpB3 where
  target25 : BitVec 21
  d : BitVec 1
  wh : BitVec 2
  p : BitVec 1
  b1 : BitVec 3
  qp : BitVec 6
deriving DecidableEq, Repr

/-- Operands of format B4. -/
structure OpB4 where
  d : BitVec 1
  wh : BitVec 2
  b2 : BitVec 3
  p : BitVec 1
  qp : BitVec 6
deriving DecidableEq, Repr

/-- Operands of format B5. -/
structure OpB5 where
  d : BitVec 1
  wh : BitVec 3
  b2 : BitVec 3
  p : BitVec 1
  b1 : BitVec 3
  qp : BitVec 6
deriving DecidableEq, Repr

/-- Operands of format F1. -/
structure OpF1 where
  sf : BitVec 2
  f4 : BitVec 7
  f3 : BitVec 7
  f2 : BitVec 7
  f1 : BitVec 7
  qp : BitVec 6
deriving DecidableEq, Repr

/-- Operands of format F2. -/
structure OpF2 where
  x2 : BitVec 2
  f4 : BitVec 7
  f3 : BitVec 7
  f2 : BitVec 7
  f1 : BitVec 7
  qp : BitVec 6
deriving DecidableEq, Repr

/-- Operands of format F3. -/
structure OpF3 where
  f4 : BitVec 7
  f3 : BitVec 7
  f2 : BitVec 7
  f1 : BitVec 7
  qp : BitVec 6
deriving DecidableEq, Repr

/-- Operands of format F4. -/
structure OpF4 where
  rb : BitVec 1
  sf : BitVec 2
  ra : BitVec 1
  p2 : BitVec 6
  f3 : BitVec 7
  f2 : BitVec 7
  ta : BitVec 1
  p1 : BitVec 6
  qp : BitVec 6
deriving DecidableEq, Repr

/-- Operands of format F5. -/
structure OpF5 where
  p2 : BitVec 6
  f2 : BitVec 7
  ta : BitVec 1
  p1 : BitVec 6
  qp : BitVec 6
deriving DecidableEq, Repr

/-- Operands of format F6. -/
structure OpF6 where
  sf : BitVec 2
  p2 : BitVec 6
  f3 : BitVec 7
  f2 : BitVec 7
  f1 : BitVec 7
  qp : BitVec 6
deriving DecidableEq, Repr

/-- Operands of format F7. -/
structure OpF7 where
  sf : BitVec 2
  p2 : BitVec 6
  f3 : BitVec 7
  f1 : BitVec 7
  qp : BitVec 6
deriving DecidableEq, Repr

/-- Operands of format F8. -/
structure OpF8 where
  sf : BitVec 2
  f3 : BitVec 7
  f2 : BitVec 7
  f1 : BitVec 7
  qp : BitVec 6
deriving DecidableEq, Repr

/-- Operands of format F9. -/
structure OpF9 where
  f3 : BitVec 7
  f2 : BitVec 7
  f1 : BitVec 7
  qp : BitVec 6
deriving DecidableEq, Repr

/-- Operands of format F10. -/
structure OpF10 where
  sf : BitVec 2
  f2 : BitVec 7
  f1 : BitVec 7
  qp : BitVec 6
deriving DecidableEq, Repr

/-- Operands of format F11. -/
structure OpF11 where
  f2 : BitVec 7
  f1 : BitVec 7
  qp : BitVec 6
deriving DecidableEq, Repr

/-- Operands of format F12. -/
structure OpF12 where
  sf : BitVec 2
  omask7c : BitVec 7
  amask7b : BitVec 7
  qp : BitVec 6
deriving DecidableEq, Repr

/-- Operands of format F13. -/
structure OpF13 where
  sf : BitVec 2
  qp : BitVec 6
deriving DecidableEq, Repr

/-- Operands of format F14. -/
structure OpF14 where
  sf : BitVec 2
  target25 : BitVec 21
  qp : BitVec 6
deriving DecidableEq, Repr

/-- Operands of formats X1, X5; `imm41` is the L slot of the MLX bundle (30 R451). -/
structure OpX1 where
  imm41 : BitVec 41
  imm21 : BitVec 21
  qp : BitVec 6
deriving DecidableEq, Repr

/-- Operands of format X2; `imm41` is the L slot of the MLX bundle (30 R451). -/
structure OpX2 where
  imm41 : BitVec 41
  i : BitVec 1
  imm9d : BitVec 9
  imm5c : BitVec 5
  ic : BitVec 1
  imm7b : BitVec 7
  r1 : BitVec 7
  qp : BitVec 6
deriving DecidableEq, Repr

/-- Operands of format X3; `imm41` is the L slot of the MLX bundle (30 R451). -/
structure OpX3 where
  imm41 : BitVec 41
  i : BitVec 1
  d : BitVec 1
  wh : BitVec 2
  imm20b : BitVec 20
  p : BitVec 1
  qp : BitVec 6
deriving DecidableEq, Repr

/-- Operands of format X4; `imm41` is the L slot of the MLX bundle (30 R451). -/
structure OpX4 where
  imm41 : BitVec 41
  i : BitVec 1
  d : BitVec 1
  wh : BitVec 2
  imm20b : BitVec 20
  p : BitVec 1
  b1 : BitVec 3
  qp : BitVec 6
deriving DecidableEq, Repr

/-- Element width of the parallel shifts (41 R534): two bytes or four bytes. -/
inductive ShiftSize where
  | two
  | four
deriving DecidableEq, Repr

/-- The operations that row 125 (format I2, no encoding given) names together (41 R532). -/
inductive I2Op where
  | mix1l | mix1r | mix2l | mix2r | mix4l | mix4r
  | pack2sss | pack2uss | pack4sss
  | unpack1h | unpack1l | unpack2h | unpack2l | unpack4h | unpack4l
  | pmin1u | pmax1u | pmin2 | pmax2 | psad1
deriving DecidableEq, Repr

/-- The byte permutations of `mux1` (41 R533). -/
inductive MbType where
  | rev | mix | shuf | alt | brcst
deriving DecidableEq, Repr

/-- Row 123, format I1: `pmpyshr2`, `pmpyshr2.u r1 = r2, r3, count2` (41 R531); `count2` is one of 0, 7, 15, 16. -/
structure OpPmpyshr where
  unsigned : Bool
  count2 : BitVec 5
  r3 : BitVec 7
  r2 : BitVec 7
  r1 : BitVec 7
  qp : BitVec 6
deriving DecidableEq, Repr

/-- Row 124, format I2: `pmpy2.r`, `pmpy2.l r1 = r2, r3` (41 R531). -/
structure OpPmpy where
  left : Bool
  r3 : BitVec 7
  r2 : BitVec 7
  r1 : BitVec 7
  qp : BitVec 6
deriving DecidableEq, Repr

/-- Row 125, format I2 (41 R532). -/
structure OpI2 where
  op : I2Op
  r3 : BitVec 7
  r2 : BitVec 7
  r1 : BitVec 7
  qp : BitVec 6
deriving DecidableEq, Repr

/-- Row 126, format I3: `mux1 r1 = r2, mbtype4` (41 R533). -/
structure OpMux1 where
  mbtype : MbType
  r2 : BitVec 7
  r1 : BitVec 7
  qp : BitVec 6
deriving DecidableEq, Repr

/-- Row 127, format I4: `mux2 r1 = r2, mhtype8` (41 R533). -/
structure OpMux2 where
  mhtype : BitVec 8
  r2 : BitVec 7
  r1 : BitVec 7
  qp : BitVec 6
deriving DecidableEq, Repr

/-- Row 128, format I5: `pshr2`, `pshr4`, `.u r1 = r3, r2` (41 R534). -/
structure OpPshVar where
  size : ShiftSize
  unsigned : Bool
  r3 : BitVec 7
  r2 : BitVec 7
  r1 : BitVec 7
  qp : BitVec 6
deriving DecidableEq, Repr

/-- Row 129, format I6: `pshr2`, `pshr4`, `.u r1 = r3, count5` (41 R534). -/
structure OpPshrFix where
  size : ShiftSize
  unsigned : Bool
  count5 : BitVec 5
  r3 : BitVec 7
  r1 : BitVec 7
  qp : BitVec 6
deriving DecidableEq, Repr

/-- Row 130, format I7: `pshl2`, `pshl4 r1 = r2, r3` (41 R534). -/
structure OpPshlVar where
  size : ShiftSize
  r3 : BitVec 7
  r2 : BitVec 7
  r1 : BitVec 7
  qp : BitVec 6
deriving DecidableEq, Repr

/-- Row 131, format I8: `pshl2`, `pshl4 r1 = r2, count5` (41 R534). -/
structure OpPshlFix where
  size : ShiftSize
  count5 : BitVec 5
  r2 : BitVec 7
  r1 : BitVec 7
  qp : BitVec 6
deriving DecidableEq, Repr

/-- Row 132, format I9: `popcnt r1 = r3` (41 R535). -/
structure OpPopcnt where
  r3 : BitVec 7
  r1 : BitVec 7
  qp : BitVec 6
deriving DecidableEq, Repr

/-- The instruction set: one constructor per row of spec/opcode_table.json, in the table's order. -/
inductive Instr where
  | add (o : OpA1)
  | addR1R2R31 (o : OpA1)
  | sub (o : OpA1)
  | subR1R2R31 (o : OpA1)
  | addp4 (o : OpA1)
  | and (o : OpA1)
  | andcm (o : OpA1)
  | or (o : OpA1)
  | xor (o : OpA1)
  | shladd (o : OpA2)
  | shladdp4 (o : OpA2)
  | subR1Imm8R3 (o : OpA3)
  | andR1Imm8R3 (o : OpA3)
  | andcmR1Imm8R3 (o : OpA3)
  | orR1Imm8R3 (o : OpA3)
  | xorR1Imm8R3 (o : OpA3)
  | adds (o : OpA4)
  | addp4R1Imm14R3 (o : OpA4)
  | addl (o : OpA5)
  | cmpLtP1P2R2R3 (o : OpA6)
  | cmpGtAndP1P2R0R3 (o : OpA7)
  | cmp4LtP1P2R2R3 (o : OpA6)
  | cmp4GtAndP1P2R0R3 (o : OpA7)
  | cmpLtP1P2Imm8R3 (o : OpA8)
  | cmp4LtP1P2Imm8R3 (o : OpA8)
  | cmpLtUncP1P2R2R3 (o : OpA6)
  | cmpLeAndP1P2R0R3 (o : OpA7)
  | cmp4LtUncP1P2R2R3 (o : OpA6)
  | cmp4LeAndP1P2R0R3 (o : OpA7)
  | cmpLtUncP1P2Imm8R3 (o : OpA8)
  | cmp4LtUncP1P2Imm8R3 (o : OpA8)
  | cmpEqAndP1P2R2R3 (o : OpA6)
  | cmpGeAndP1P2R0R3 (o : OpA7)
  | cmp4EqAndP1P2R2R3 (o : OpA6)
  | cmp4GeAndP1P2R0R3 (o : OpA7)
  | cmpEqAndP1P2Imm8R3 (o : OpA8)
  | cmp4EqAndP1P2Imm8R3 (o : OpA8)
  | cmpNeAndP1P2R2R3 (o : OpA6)
  | cmpLtAndP1P2R0R3 (o : OpA7)
  | cmp4NeAndP1P2R2R3 (o : OpA6)
  | cmp4LtAndP1P2R0R3 (o : OpA7)
  | cmpNeAndP1P2Imm8R3 (o : OpA8)
  | cmp4NeAndP1P2Imm8R3 (o : OpA8)
  | cmpLtuP1P2R2R3 (o : OpA6)
  | cmpGtOrP1P2R0R3 (o : OpA7)
  | cmp4LtuP1P2R2R3 (o : OpA6)
  | cmp4GtOrP1P2R0R3 (o : OpA7)
  | cmpLtuP1P2Imm8R3 (o : OpA8)
  | cmp4LtuP1P2Imm8R3 (o : OpA8)
  | cmpLtuUncP1P2R2R3 (o : OpA6)
  | cmpLeOrP1P2R0R3 (o : OpA7)
  | cmp4LtuUncP1P2R2R3 (o : OpA6)
  | cmp4LeOrP1P2R0R3 (o : OpA7)
  | cmpLtuUncP1P2Imm8R3 (o : OpA8)
  | cmp4LtuUncP1P2Imm8R3 (o : OpA8)
  | cmpEqOrP1P2R2R3 (o : OpA6)
  | cmpGeOrP1P2R0R3 (o : OpA7)
  | cmp4EqOrP1P2R2R3 (o : OpA6)
  | cmp4GeOrP1P2R0R3 (o : OpA7)
  | cmpEqOrP1P2Imm8R3 (o : OpA8)
  | cmp4EqOrP1P2Imm8R3 (o : OpA8)
  | cmpNeOrP1P2R2R3 (o : OpA6)
  | cmpLtOrP1P2R0R3 (o : OpA7)
  | cmp4NeOrP1P2R2R3 (o : OpA6)
  | cmp4LtOrP1P2R0R3 (o : OpA7)
  | cmpNeOrP1P2Imm8R3 (o : OpA8)
  | cmp4NeOrP1P2Imm8R3 (o : OpA8)
  | cmpEqP1P2R2R3 (o : OpA6)
  | cmpGtOrAndcmP1P2R0R3 (o : OpA7)
  | cmp4EqP1P2R2R3 (o : OpA6)
  | cmp4GtOrAndcmP1P2R0R3 (o : OpA7)
  | cmpEqP1P2Imm8R3 (o : OpA8)
  | cmp4EqP1P2Imm8R3 (o : OpA8)
  | cmpEqUncP1P2R2R3 (o : OpA6)
  | cmpLeOrAndcmP1P2R0R3 (o : OpA7)
  | cmp4EqUncP1P2R2R3 (o : OpA6)
  | cmp4LeOrAndcmP1P2R0R3 (o : OpA7)
  | cmpEqUncP1P2Imm8R3 (o : OpA8)
  | cmp4EqUncP1P2Imm8R3 (o : OpA8)
  | cmpEqOrAndcmP1P2R2R3 (o : OpA6)
  | cmpGeOrAndcmP1P2R0R3 (o : OpA7)
  | cmp4EqOrAndcmP1P2R2R3 (o : OpA6)
  | cmp4GeOrAndcmP1P2R0R3 (o : OpA7)
  | cmpEqOrAndcmP1P2Imm8R3 (o : OpA8)
  | cmp4EqOrAndcmP1P2Imm8R3 (o : OpA8)
  | cmpNeOrAndcmP1P2R2R3 (o : OpA6)
  | cmpLtOrAndcmP1P2R0R3 (o : OpA7)
  | cmp4NeOrAndcmP1P2R2R3 (o : OpA6)
  | cmp4LtOrAndcmP1P2R0R3 (o : OpA7)
  | cmpNeOrAndcmP1P2Imm8R3 (o : OpA8)
  | cmp4NeOrAndcmP1P2Imm8R3 (o : OpA8)
  | padd1 (o : OpA1)
  | padd1Sss (o : OpA1)
  | padd1Uuu (o : OpA1)
  | padd1Uus (o : OpA1)
  | padd2 (o : OpA1)
  | padd2Sss (o : OpA1)
  | padd2Uuu (o : OpA1)
  | padd2Uus (o : OpA1)
  | padd4 (o : OpA1)
  | psub1 (o : OpA1)
  | psub1Sss (o : OpA1)
  | psub1Uuu (o : OpA1)
  | psub1Uus (o : OpA1)
  | psub2 (o : OpA1)
  | psub2Sss (o : OpA1)
  | psub2Uuu (o : OpA1)
  | psub2Uus (o : OpA1)
  | psub4 (o : OpA1)
  | pavg1 (o : OpA1)
  | pavg1Raz (o : OpA1)
  | pavgsub1 (o : OpA1)
  | pavg2 (o : OpA1)
  | pavg2Raz (o : OpA1)
  | pavgsub2 (o : OpA1)
  | pcmp1Eq (o : OpA1)
  | pcmp1Gt (o : OpA1)
  | pcmp2Eq (o : OpA1)
  | pcmp2Gt (o : OpA1)
  | pcmp4Eq (o : OpA1)
  | pcmp4Gt (o : OpA1)
  | pshladd2 (o : OpA2)
  | pshradd2 (o : OpA2)
  | pmpyshr2 (o : OpPmpyshr)
  | pmpy2 (o : OpPmpy)
  | mixPack (o : OpI2)
  | mux1 (o : OpMux1)
  | mux2 (o : OpMux2)
  | pshrVar (o : OpPshVar)
  | pshrFix (o : OpPshrFix)
  | pshlVar (o : OpPshlVar)
  | pshlFix (o : OpPshlFix)
  | popcnt (o : OpPopcnt)
  | shr (o : OpA1)
  | shrU (o : OpA1)
  | shl (o : OpA1)
  | shrp (o : OpI10)
  | extr (o : OpI11)
  | extrU (o : OpI11)
  | depZ (o : OpI12)
  | depZR1Imm8 (o : OpI13)
  | depR1Imm1R3 (o : OpI14)
  | dep (o : OpI15)
  | tbitZ (o : OpI16)
  | tnatZ (o : OpA7)
  | tbitZUnc (o : OpI16)
  | tnatZUnc (o : OpA7)
  | tbitZAnd (o : OpI16)
  | tnatZAnd (o : OpA7)
  | tbitNzAnd (o : OpI16)
  | tnatNzAnd (o : OpA7)
  | tbitZOr (o : OpI16)
  | tnatZOr (o : OpA7)
  | tbitNzOr (o : OpI16)
  | tnatNzOr (o : OpA7)
  | tbitZOrAndcm (o : OpI16)
  | tnatZOrAndcm (o : OpA7)
  | tbitNzOrAndcm (o : OpI16)
  | tnatNzOrAndcm (o : OpA7)
  | breakI (o : OpI19)
  | nopI (o : OpI19)
  | hintI (o : OpI19)
  | chkSI (o : OpI20)
  | movB1R2 (o : OpI21)
  | movR1B2 (o : OpI22)
  | movPrR2Mask17 (o : OpI23)
  | movPrRotImm44 (o : OpI24)
  | movR1Ip (o : OpI25)
  | movR1Pr (o : OpI25)
  | movIAr3R2 (o : OpI26)
  | movIAr3Imm8 (o : OpI27)
  | movIR1Ar3 (o : OpI28)
  | zxt1 (o : OpI29)
  | zxt2 (o : OpI29)
  | zxt4 (o : OpI29)
  | sxt1 (o : OpI29)
  | sxt2 (o : OpI29)
  | sxt4 (o : OpI29)
  | czx1L (o : OpI29)
  | czx2L (o : OpI29)
  | czx1R (o : OpI29)
  | czx2R (o : OpI29)
  | ld1R1R3 (o : OpM1)
  | ld1R1R3R2 (o : OpM2)
  | ld1R1R3Imm9 (o : OpM3)
  | ld2R1R3 (o : OpM1)
  | ld2R1R3R2 (o : OpM2)
  | ld2R1R3Imm9 (o : OpM3)
  | ld4R1R3 (o : OpM1)
  | ld4R1R3R2 (o : OpM2)
  | ld4R1R3Imm9 (o : OpM3)
  | ld8R1R3 (o : OpM1)
  | ld8R1R3R2 (o : OpM2)
  | ld8R1R3Imm9 (o : OpM3)
  | ld1SR1R3 (o : OpM1)
  | ld1SR1R3R2 (o : OpM2)
  | ld1SR1R3Imm9 (o : OpM3)
  | ld2SR1R3 (o : OpM1)
  | ld2SR1R3R2 (o : OpM2)
  | ld2SR1R3Imm9 (o : OpM3)
  | ld4SR1R3 (o : OpM1)
  | ld4SR1R3R2 (o : OpM2)
  | ld4SR1R3Imm9 (o : OpM3)
  | ld8SR1R3 (o : OpM1)
  | ld8SR1R3R2 (o : OpM2)
  | ld8SR1R3Imm9 (o : OpM3)
  | ld1AR1R3 (o : OpM1)
  | ld1AR1R3R2 (o : OpM2)
  | ld1AR1R3Imm9 (o : OpM3)
  | ld2AR1R3 (o : OpM1)
  | ld2AR1R3R2 (o : OpM2)
  | ld2AR1R3Imm9 (o : OpM3)
  | ld4AR1R3 (o : OpM1)
  | ld4AR1R3R2 (o : OpM2)
  | ld4AR1R3Imm9 (o : OpM3)
  | ld8AR1R3 (o : OpM1)
  | ld8AR1R3R2 (o : OpM2)
  | ld8AR1R3Imm9 (o : OpM3)
  | ld1SaR1R3 (o : OpM1)
  | ld1SaR1R3R2 (o : OpM2)
  | ld1SaR1R3Imm9 (o : OpM3)
  | ld2SaR1R3 (o : OpM1)
  | ld2SaR1R3R2 (o : OpM2)
  | ld2SaR1R3Imm9 (o : OpM3)
  | ld4SaR1R3 (o : OpM1)
  | ld4SaR1R3R2 (o : OpM2)
  | ld4SaR1R3Imm9 (o : OpM3)
  | ld8SaR1R3 (o : OpM1)
  | ld8SaR1R3R2 (o : OpM2)
  | ld8SaR1R3Imm9 (o : OpM3)
  | ld1BiasR1R3 (o : OpM1)
  | ld1BiasR1R3R2 (o : OpM2)
  | ld1BiasR1R3Imm9 (o : OpM3)
  | ld2BiasR1R3 (o : OpM1)
  | ld2BiasR1R3R2 (o : OpM2)
  | ld2BiasR1R3Imm9 (o : OpM3)
  | ld4BiasR1R3 (o : OpM1)
  | ld4BiasR1R3R2 (o : OpM2)
  | ld4BiasR1R3Imm9 (o : OpM3)
  | ld8BiasR1R3 (o : OpM1)
  | ld8BiasR1R3R2 (o : OpM2)
  | ld8BiasR1R3Imm9 (o : OpM3)
  | ld1AcqR1R3 (o : OpM1)
  | ld1AcqR1R3R2 (o : OpM2)
  | ld1AcqR1R3Imm9 (o : OpM3)
  | ld2AcqR1R3 (o : OpM1)
  | ld2AcqR1R3R2 (o : OpM2)
  | ld2AcqR1R3Imm9 (o : OpM3)
  | ld4AcqR1R3 (o : OpM1)
  | ld4AcqR1R3R2 (o : OpM2)
  | ld4AcqR1R3Imm9 (o : OpM3)
  | ld8AcqR1R3 (o : OpM1)
  | ld8AcqR1R3R2 (o : OpM2)
  | ld8AcqR1R3Imm9 (o : OpM3)
  | ld1CClrR1R3 (o : OpM1)
  | ld1CClrR1R3R2 (o : OpM2)
  | ld1CClrR1R3Imm9 (o : OpM3)
  | ld2CClrR1R3 (o : OpM1)
  | ld2CClrR1R3R2 (o : OpM2)
  | ld2CClrR1R3Imm9 (o : OpM3)
  | ld4CClrR1R3 (o : OpM1)
  | ld4CClrR1R3R2 (o : OpM2)
  | ld4CClrR1R3Imm9 (o : OpM3)
  | ld8CClrR1R3 (o : OpM1)
  | ld8CClrR1R3R2 (o : OpM2)
  | ld8CClrR1R3Imm9 (o : OpM3)
  | ld1CNcR1R3 (o : OpM1)
  | ld1CNcR1R3R2 (o : OpM2)
  | ld1CNcR1R3Imm9 (o : OpM3)
  | ld2CNcR1R3 (o : OpM1)
  | ld2CNcR1R3R2 (o : OpM2)
  | ld2CNcR1R3Imm9 (o : OpM3)
  | ld4CNcR1R3 (o : OpM1)
  | ld4CNcR1R3R2 (o : OpM2)
  | ld4CNcR1R3Imm9 (o : OpM3)
  | ld8CNcR1R3 (o : OpM1)
  | ld8CNcR1R3R2 (o : OpM2)
  | ld8CNcR1R3Imm9 (o : OpM3)
  | ld1CClrAcqR1R3 (o : OpM1)
  | ld1CClrAcqR1R3R2 (o : OpM2)
  | ld1CClrAcqR1R3Imm9 (o : OpM3)
  | ld2CClrAcqR1R3 (o : OpM1)
  | ld2CClrAcqR1R3R2 (o : OpM2)
  | ld2CClrAcqR1R3Imm9 (o : OpM3)
  | ld4CClrAcqR1R3 (o : OpM1)
  | ld4CClrAcqR1R3R2 (o : OpM2)
  | ld4CClrAcqR1R3Imm9 (o : OpM3)
  | ld8CClrAcqR1R3 (o : OpM1)
  | ld8CClrAcqR1R3R2 (o : OpM2)
  | ld8CClrAcqR1R3Imm9 (o : OpM3)
  | ld8FillR1R3 (o : OpM1)
  | ld8FillR1R3R2 (o : OpM2)
  | ld8FillR1R3Imm9 (o : OpM3)
  | ld16R1ArCsdR3 (o : OpM1)
  | ld16AcqR1ArCsdR3 (o : OpM1)
  | st1R3R2 (o : OpM4)
  | st1R3R2Imm9 (o : OpM5)
  | st2R3R2 (o : OpM4)
  | st2R3R2Imm9 (o : OpM5)
  | st4R3R2 (o : OpM4)
  | st4R3R2Imm9 (o : OpM5)
  | st8R3R2 (o : OpM4)
  | st8R3R2Imm9 (o : OpM5)
  | st1RelR3R2 (o : OpM4)
  | st1RelR3R2Imm9 (o : OpM5)
  | st2RelR3R2 (o : OpM4)
  | st2RelR3R2Imm9 (o : OpM5)
  | st4RelR3R2 (o : OpM4)
  | st4RelR3R2Imm9 (o : OpM5)
  | st8RelR3R2 (o : OpM4)
  | st8RelR3R2Imm9 (o : OpM5)
  | st8SpillR3R2 (o : OpM4)
  | st8SpillR3R2Imm9 (o : OpM5)
  | st16R3R2ArCsd (o : OpM4)
  | st16RelR3R2ArCsd (o : OpM4)
  | ldfeF1R3 (o : OpM6)
  | ldfeF1R3R2 (o : OpM7)
  | ldfeF1R3Imm9 (o : OpM8)
  | ldf8F1R3 (o : OpM6)
  | ldf8F1R3R2 (o : OpM7)
  | ldf8F1R3Imm9 (o : OpM8)
  | ldfsF1R3 (o : OpM6)
  | ldfsF1R3R2 (o : OpM7)
  | ldfsF1R3Imm9 (o : OpM8)
  | ldfdF1R3 (o : OpM6)
  | ldfdF1R3R2 (o : OpM7)
  | ldfdF1R3Imm9 (o : OpM8)
  | ldfeSF1R3 (o : OpM6)
  | ldfeSF1R3R2 (o : OpM7)
  | ldfeSF1R3Imm9 (o : OpM8)
  | ldf8SF1R3 (o : OpM6)
  | ldf8SF1R3R2 (o : OpM7)
  | ldf8SF1R3Imm9 (o : OpM8)
  | ldfsSF1R3 (o : OpM6)
  | ldfsSF1R3R2 (o : OpM7)
  | ldfsSF1R3Imm9 (o : OpM8)
  | ldfdSF1R3 (o : OpM6)
  | ldfdSF1R3R2 (o : OpM7)
  | ldfdSF1R3Imm9 (o : OpM8)
  | ldfeAF1R3 (o : OpM6)
  | ldfeAF1R3R2 (o : OpM7)
  | ldfeAF1R3Imm9 (o : OpM8)
  | ldf8AF1R3 (o : OpM6)
  | ldf8AF1R3R2 (o : OpM7)
  | ldf8AF1R3Imm9 (o : OpM8)
  | ldfsAF1R3 (o : OpM6)
  | ldfsAF1R3R2 (o : OpM7)
  | ldfsAF1R3Imm9 (o : OpM8)
  | ldfdAF1R3 (o : OpM6)
  | ldfdAF1R3R2 (o : OpM7)
  | ldfdAF1R3Imm9 (o : OpM8)
  | ldfeSaF1R3 (o : OpM6)
  | ldfeSaF1R3R2 (o : OpM7)
  | ldfeSaF1R3Imm9 (o : OpM8)
  | ldf8SaF1R3 (o : OpM6)
  | ldf8SaF1R3R2 (o : OpM7)
  | ldf8SaF1R3Imm9 (o : OpM8)
  | ldfsSaF1R3 (o : OpM6)
  | ldfsSaF1R3R2 (o : OpM7)
  | ldfsSaF1R3Imm9 (o : OpM8)
  | ldfdSaF1R3 (o : OpM6)
  | ldfdSaF1R3R2 (o : OpM7)
  | ldfdSaF1R3Imm9 (o : OpM8)
  | ldfeCClrF1R3 (o : OpM6)
  | ldfeCClrF1R3R2 (o : OpM7)
  | ldfeCClrF1R3Imm9 (o : OpM8)
  | ldf8CClrF1R3 (o : OpM6)
  | ldf8CClrF1R3R2 (o : OpM7)
  | ldf8CClrF1R3Imm9 (o : OpM8)
  | ldfsCClrF1R3 (o : OpM6)
  | ldfsCClrF1R3R2 (o : OpM7)
  | ldfsCClrF1R3Imm9 (o : OpM8)
  | ldfdCClrF1R3 (o : OpM6)
  | ldfdCClrF1R3R2 (o : OpM7)
  | ldfdCClrF1R3Imm9 (o : OpM8)
  | ldfeCNcF1R3 (o : OpM6)
  | ldfeCNcF1R3R2 (o : OpM7)
  | ldfeCNcF1R3Imm9 (o : OpM8)
  | ldf8CNcF1R3 (o : OpM6)
  | ldf8CNcF1R3R2 (o : OpM7)
  | ldf8CNcF1R3Imm9 (o : OpM8)
  | ldfsCNcF1R3 (o : OpM6)
  | ldfsCNcF1R3R2 (o : OpM7)
  | ldfsCNcF1R3Imm9 (o : OpM8)
  | ldfdCNcF1R3 (o : OpM6)
  | ldfdCNcF1R3R2 (o : OpM7)
  | ldfdCNcF1R3Imm9 (o : OpM8)
  | ldfFillF1R3 (o : OpM6)
  | ldfFillF1R3R2 (o : OpM7)
  | ldfFillF1R3Imm9 (o : OpM8)
  | stfeR3F2 (o : OpM9)
  | stfeR3F2Imm9 (o : OpM10)
  | stf8R3F2 (o : OpM9)
  | stf8R3F2Imm9 (o : OpM10)
  | stfsR3F2 (o : OpM9)
  | stfsR3F2Imm9 (o : OpM10)
  | stfdR3F2 (o : OpM9)
  | stfdR3F2Imm9 (o : OpM10)
  | stfSpillR3F2 (o : OpM9)
  | stfSpillR3F2Imm9 (o : OpM10)
  | ldfp8F1F2R3 (o : OpM11)
  | ldfp8F1F2R316 (o : OpM11)
  | ldfpsF1F2R3 (o : OpM11)
  | ldfpsF1F2R38 (o : OpM11)
  | ldfpdF1F2R3 (o : OpM11)
  | ldfpdF1F2R316 (o : OpM11)
  | ldfp8SF1F2R3 (o : OpM11)
  | ldfp8SF1F2R316 (o : OpM11)
  | ldfpsSF1F2R3 (o : OpM11)
  | ldfpsSF1F2R38 (o : OpM11)
  | ldfpdSF1F2R3 (o : OpM11)
  | ldfpdSF1F2R316 (o : OpM11)
  | ldfp8AF1F2R3 (o : OpM11)
  | ldfp8AF1F2R316 (o : OpM11)
  | ldfpsAF1F2R3 (o : OpM11)
  | ldfpsAF1F2R38 (o : OpM11)
  | ldfpdAF1F2R3 (o : OpM11)
  | ldfpdAF1F2R316 (o : OpM11)
  | ldfp8SaF1F2R3 (o : OpM11)
  | ldfp8SaF1F2R316 (o : OpM11)
  | ldfpsSaF1F2R3 (o : OpM11)
  | ldfpsSaF1F2R38 (o : OpM11)
  | ldfpdSaF1F2R3 (o : OpM11)
  | ldfpdSaF1F2R316 (o : OpM11)
  | ldfp8CClrF1F2R3 (o : OpM11)
  | ldfp8CClrF1F2R316 (o : OpM11)
  | ldfpsCClrF1F2R3 (o : OpM11)
  | ldfpsCClrF1F2R38 (o : OpM11)
  | ldfpdCClrF1F2R3 (o : OpM11)
  | ldfpdCClrF1F2R316 (o : OpM11)
  | ldfp8CNcF1F2R3 (o : OpM11)
  | ldfp8CNcF1F2R316 (o : OpM11)
  | ldfpsCNcF1F2R3 (o : OpM11)
  | ldfpsCNcF1F2R38 (o : OpM11)
  | ldfpdCNcF1F2R3 (o : OpM11)
  | ldfpdCNcF1F2R316 (o : OpM11)
  | lfetchR3 (o : OpM13)
  | lfetchR3R2 (o : OpM4)
  | lfetchR3Imm9 (o : OpM15)
  | lfetchExclR3 (o : OpM13)
  | lfetchExclR3R2 (o : OpM4)
  | lfetchExclR3Imm9 (o : OpM15)
  | lfetchFaultR3 (o : OpM13)
  | lfetchFaultR3R2 (o : OpM4)
  | lfetchFaultR3Imm9 (o : OpM15)
  | lfetchFaultExclR3 (o : OpM13)
  | lfetchFaultExclR3R2 (o : OpM4)
  | lfetchFaultExclR3Imm9 (o : OpM15)
  | cmpxchg1Acq (o : OpM2)
  | cmpxchg1Rel (o : OpM2)
  | xchg1 (o : OpM2)
  | cmpxchg2Acq (o : OpM2)
  | cmpxchg2Rel (o : OpM2)
  | xchg2 (o : OpM2)
  | cmpxchg4Acq (o : OpM2)
  | cmpxchg4Rel (o : OpM2)
  | xchg4 (o : OpM2)
  | cmpxchg8Acq (o : OpM2)
  | cmpxchg8Rel (o : OpM2)
  | xchg8 (o : OpM2)
  | cmp8xchg16Acq (o : OpM2)
  | cmp8xchg16Rel (o : OpM2)
  | fetchadd4Acq (o : OpM17)
  | fetchadd8Acq (o : OpM17)
  | fetchadd4Rel (o : OpM17)
  | fetchadd8Rel (o : OpM17)
  | setfSig (o : OpM18)
  | getfSig (o : OpM19)
  | setfExp (o : OpM18)
  | getfExp (o : OpM19)
  | setfS (o : OpM18)
  | getfS (o : OpM19)
  | setfD (o : OpM18)
  | getfD (o : OpM19)
  | chkSMR2 (o : OpI20)
  | chkSF2 (o : OpM21)
  | chkANcR1 (o : OpM22)
  | chkAClrR1 (o : OpM22)
  | chkANcF1 (o : OpM23)
  | chkAClrF1 (o : OpM23)
  | breakM (o : OpI19)
  | invala (o : OpM24)
  | fwb (o : OpM24)
  | srlzD (o : OpM24)
  | nopM (o : OpI19)
  | hintM (o : OpI19)
  | srlzI (o : OpM24)
  | invalaER1 (o : OpI25)
  | mf (o : OpM24)
  | invalaEF1 (o : OpM27)
  | mfA (o : OpM24)
  | syncI (o : OpM24)
  | sum (o : OpM44)
  | rum (o : OpM44)
  | ssm (o : OpM44)
  | rsm (o : OpM44)
  | movMAr3Imm8 (o : OpI27)
  | loadrs (o : OpM24)
  | flushrs (o : OpM24)
  | movRrR3R2 (o : OpM42)
  | movR1RrR3 (o : OpI29)
  | movDbrR3R2 (o : OpM42)
  | movR1DbrR3 (o : OpI29)
  | movIbrR3R2 (o : OpM42)
  | movR1IbrR3 (o : OpI29)
  | movPkrR3R2 (o : OpM42)
  | movR1PkrR3 (o : OpI29)
  | movPmcR3R2 (o : OpM42)
  | movR1PmcR3 (o : OpI29)
  | movPmdR3R2 (o : OpM42)
  | movR1PmdR3 (o : OpI29)
  | movR1CpuidR3 (o : OpI29)
  | ptcLR3R2 (o : OpM42)
  | ptcGR3R2 (o : OpM42)
  | ptcGaR3R2 (o : OpM42)
  | ptrDR3R2 (o : OpM42)
  | ptrIR3R2 (o : OpM42)
  | ptcER3 (o : OpM47)
  | itrDDtrR3R2 (o : OpM42)
  | itrIItrR3R2 (o : OpM42)
  | itcDR2 (o : OpM41)
  | itcIR2 (o : OpM41)
  | probeRR1R3Imm2 (o : OpM39)
  | probeWR1R3Imm2 (o : OpM39)
  | probeRR1R3R2 (o : OpA1)
  | probeWR1R3R2 (o : OpA1)
  | probeRwFaultR3Imm2 (o : OpM40)
  | probeRFaultR3Imm2 (o : OpM40)
  | probeWFaultR3Imm2 (o : OpM40)
  | thash (o : OpI29)
  | ttag (o : OpI29)
  | tpa (o : OpI29)
  | tak (o : OpI29)
  | movR1PsrUm (o : OpI25)
  | movMR1Ar3 (o : OpI28)
  | movR1Cr3 (o : OpM33)
  | movR1Psr (o : OpI25)
  | movPsrUmR2 (o : OpM41)
  | movMAr3R2 (o : OpI26)
  | movCr3R2 (o : OpM32)
  | movPsrLR2 (o : OpM41)
  | fcR3 (o : OpM47)
  | fcIR3 (o : OpM47)
  | allocR1ArPfsILOR (o : OpM34)
  | brCondTarget25 (o : OpB1)
  | brWexitTarget25 (o : OpB1)
  | brWtopTarget25 (o : OpB1)
  | brCloopTarget25 (o : OpB1)
  | brCexitTarget25 (o : OpB1)
  | brCtopTarget25 (o : OpB1)
  | brCallB1Target25 (o : OpB3)
  | brCondB2 (o : OpB4)
  | brIaB2 (o : OpB4)
  | brRetB2 (o : OpB4)
  | brCallB1B2 (o : OpB5)
  | brpTarget25Tag13
  | brpB2Tag13
  | brpRetB2Tag13
  | cover
  | clrrrb
  | clrrrbPr
  | rfi
  | bsw0
  | bsw1
  | epc
  | vmsw0 (o : OpM24)
  | vmsw1 (o : OpM24)
  | breakB (o : OpI19)
  | nopB (o : OpI19)
  | hintB (o : OpI19)
  | fma (o : OpF1)
  | fmaS (o : OpF1)
  | fmaD (o : OpF1)
  | fpma (o : OpF1)
  | fms (o : OpF1)
  | fmsS (o : OpF1)
  | fmsD (o : OpF1)
  | fpms (o : OpF1)
  | fnma (o : OpF1)
  | fnmaS (o : OpF1)
  | fnmaD (o : OpF1)
  | fpnma (o : OpF1)
  | xma (o : OpF2)
  | fselect (o : OpF3)
  | fcmp (o : OpF4)
  | fclassM (o : OpF5)
  | frcpa (o : OpF6)
  | fprcpa (o : OpF6)
  | frsqrta (o : OpF7)
  | fprsqrta (o : OpF7)
  | fmin (o : OpF8)
  | fmax (o : OpF8)
  | famin (o : OpF8)
  | famax (o : OpF8)
  | fpmin (o : OpF8)
  | fpmax (o : OpF8)
  | fpamin (o : OpF8)
  | fpamax (o : OpF8)
  | fpcmpFrelCode0 (o : OpF8)
  | fpcmpFrelCode1 (o : OpF8)
  | fpcmpFrelCode2 (o : OpF8)
  | fpcmpFrelCode3 (o : OpF8)
  | fpcmpFrelCode4 (o : OpF8)
  | fpcmpFrelCode5 (o : OpF8)
  | fpcmpFrelCode6 (o : OpF8)
  | fpcmpFrelCode7 (o : OpF8)
  | fmergeS (o : OpF9)
  | fmergeNs (o : OpF9)
  | fmergeSe (o : OpF9)
  | fmixLr (o : OpF9)
  | fmixR (o : OpF9)
  | fmixL (o : OpF9)
  | fsxtR (o : OpF9)
  | fsxtL (o : OpF9)
  | fpack (o : OpF9)
  | fswap (o : OpF9)
  | fswapNl (o : OpF9)
  | fswapNr (o : OpF9)
  | fand (o : OpF9)
  | fandcm (o : OpF9)
  | fOr (o : OpF9)
  | fxor (o : OpF9)
  | fpmergeS (o : OpF9)
  | fpmergeNs (o : OpF9)
  | fpmergeSe (o : OpF9)
  | fcvtFx (o : OpF10)
  | fpcvtFx (o : OpF10)
  | fcvtFxu (o : OpF10)
  | fpcvtFxu (o : OpF10)
  | fcvtFxTrunc (o : OpF10)
  | fpcvtFxTrunc (o : OpF10)
  | fcvtFxuTrunc (o : OpF10)
  | fpcvtFxuTrunc (o : OpF10)
  | fcvtXf (o : OpF11)
  | fsetc (o : OpF12)
  | fclrf (o : OpF13)
  | fchkf (o : OpF14)
  | breakF (o : OpI19)
  | nopF (o : OpI19)
  | hintF (o : OpI19)
  | breakX (o : OpX1)
  | nopX (o : OpX1)
  | hintX (o : OpX1)
  | movl (o : OpX2)
  | brlCondTarget64 (o : OpX3)
  | brlCallB1Target64 (o : OpX4)
deriving DecidableEq, Repr

end Sys2Proof
end

