-- ==== Sys2Proof/WellFormed.lean ====
section
/-!
DEFINITION. Which terms of `Instr` are instructions. Every value of every encoded field is one, since the rules of
files 40 to 43 give the field a meaning at each value (an illegal value is an exception the machine takes, not an
ill-formed term). The one operand that a term can hold and no instruction can is the shift count of `pmpyshr2`.
-/

namespace Sys2Proof

/-- 41 R531: the count of `pmpyshr2` is 0, 7, 15 or 16. -/
def OpPmpyshr.wellFormed (o : OpPmpyshr) : Bool :=
  o.count2 == 0#5 || o.count2 == 7#5 || o.count2 == 15#5 || o.count2 == 16#5

/-- The terms that are instructions. -/
def Instr.wellFormed (i : Instr) : Bool :=
  match i with
  | .pmpyshr2 o => o.wellFormed
  | _ => true

end Sys2Proof
end

