-- ==== Sys2Proof/Decode.lean ====
section
/-!
DEFINITION. Decoding and encoding. A bundle is 128 bits, little endian in memory: template 4:0, slots 45:5, 86:46 and
127:87 (30_encoding.md R453). A slot is decoded by the rows of spec/opcode_table.json of its unit (30 R458): the row
whose match equals the slot under the row's mask; a bit that no mask and no field of the row covers is ignored, but for
the bits that a format says are zero (formats M24 and M25, 42 R599; format B8, 43 R669): they are in the row's mask, so
that a slot with one of them set is no instruction and raises Illegal Operation (30 R458; notes/assumptions/21.md). The A
rows belong to the M and the I unit (30 R454).

The file is a noncomputable section for one reason: Lean's compiler builds no value of an inductive type with more than
244 constructors. The kernel evaluates every definition here.
-/

noncomputable section

namespace Sys2Proof

/-! ## Bit fields of a slot -/

/-- Bits `lo + n - 1` to `lo` of a slot. -/
def slotField (w : Slot) (lo n : Nat) : BitVec n := (w >>> lo).setWidth n

/-- The slot that holds bits `from + len - 1` to `from` of `x` at bit `lo` and 0 elsewhere. -/
def slotPut {n : Nat} (x : BitVec n) (fromBit len lo : Nat) : Slot :=
  (((x >>> fromBit).setWidth len).setWidth 41) <<< lo

/-! ## The operand layouts -/

/-- The fields of a slot with the layout of `OpA1`. -/
def OpA1.dec (w : Slot) : OpA1 where
  r3 := slotField w 20 7
  r2 := slotField w 13 7
  r1 := slotField w 6 7
  qp := slotField w 0 6

/-- The slot bits that hold the fields of `OpA1`. -/
def OpA1.enc (o : OpA1) : Slot :=
  slotPut o.r3 0 7 20 ||| slotPut o.r2 0 7 13 ||| slotPut o.r1 0 7 6 ||| slotPut o.qp 0 6 0

/-- The fields of a slot with the layout of `OpA2`. -/
def OpA2.dec (w : Slot) : OpA2 where
  ct2d := slotField w 27 2
  r3 := slotField w 20 7
  r2 := slotField w 13 7
  r1 := slotField w 6 7
  qp := slotField w 0 6

/-- The slot bits that hold the fields of `OpA2`. -/
def OpA2.enc (o : OpA2) : Slot :=
  slotPut o.ct2d 0 2 27 ||| slotPut o.r3 0 7 20 ||| slotPut o.r2 0 7 13 ||| slotPut o.r1 0 7 6 ||| slotPut o.qp 0 6 0

/-- The fields of a slot with the layout of `OpA3`. -/
def OpA3.dec (w : Slot) : OpA3 where
  imm8 := slotField w 36 1 ++ slotField w 13 7
  r3 := slotField w 20 7
  r1 := slotField w 6 7
  qp := slotField w 0 6

/-- The slot bits that hold the fields of `OpA3`. -/
def OpA3.enc (o : OpA3) : Slot :=
  slotPut o.imm8 7 1 36 ||| slotPut o.imm8 0 7 13 ||| slotPut o.r3 0 7 20 ||| slotPut o.r1 0 7 6 ||| slotPut o.qp 0 6 0

/-- The fields of a slot with the layout of `OpA4`. -/
def OpA4.dec (w : Slot) : OpA4 where
  imm14 := slotField w 36 1 ++ slotField w 27 6 ++ slotField w 13 7
  r3 := slotField w 20 7
  r1 := slotField w 6 7
  qp := slotField w 0 6

/-- The slot bits that hold the fields of `OpA4`. -/
def OpA4.enc (o : OpA4) : Slot :=
  slotPut o.imm14 13 1 36 ||| slotPut o.imm14 7 6 27 ||| slotPut o.imm14 0 7 13 ||| slotPut o.r3 0 7 20 ||| slotPut o.r1 0 7 6 ||| slotPut o.qp 0 6 0

/-- The fields of a slot with the layout of `OpA5`. -/
def OpA5.dec (w : Slot) : OpA5 where
  imm22 := slotField w 36 1 ++ slotField w 22 5 ++ slotField w 27 9 ++ slotField w 13 7
  r3 := slotField w 20 2
  r1 := slotField w 6 7
  qp := slotField w 0 6

/-- The slot bits that hold the fields of `OpA5`. -/
def OpA5.enc (o : OpA5) : Slot :=
  slotPut o.imm22 21 1 36 ||| slotPut o.imm22 16 5 22 ||| slotPut o.imm22 7 9 27 ||| slotPut o.imm22 0 7 13 ||| slotPut o.r3 0 2 20 ||| slotPut o.r1 0 7 6 ||| slotPut o.qp 0 6 0

/-- The fields of a slot with the layout of `OpA6`. -/
def OpA6.dec (w : Slot) : OpA6 where
  p2 := slotField w 27 6
  r3 := slotField w 20 7
  r2 := slotField w 13 7
  p1 := slotField w 6 6
  qp := slotField w 0 6

/-- The slot bits that hold the fields of `OpA6`. -/
def OpA6.enc (o : OpA6) : Slot :=
  slotPut o.p2 0 6 27 ||| slotPut o.r3 0 7 20 ||| slotPut o.r2 0 7 13 ||| slotPut o.p1 0 6 6 ||| slotPut o.qp 0 6 0

/-- The fields of a slot with the layout of `OpA7`. -/
def OpA7.dec (w : Slot) : OpA7 where
  p2 := slotField w 27 6
  r3 := slotField w 20 7
  p1 := slotField w 6 6
  qp := slotField w 0 6

/-- The slot bits that hold the fields of `OpA7`. -/
def OpA7.enc (o : OpA7) : Slot :=
  slotPut o.p2 0 6 27 ||| slotPut o.r3 0 7 20 ||| slotPut o.p1 0 6 6 ||| slotPut o.qp 0 6 0

/-- The fields of a slot with the layout of `OpA8`. -/
def OpA8.dec (w : Slot) : OpA8 where
  imm8 := slotField w 36 1 ++ slotField w 13 7
  p2 := slotField w 27 6
  r3 := slotField w 20 7
  p1 := slotField w 6 6
  qp := slotField w 0 6

/-- The slot bits that hold the fields of `OpA8`. -/
def OpA8.enc (o : OpA8) : Slot :=
  slotPut o.imm8 7 1 36 ||| slotPut o.imm8 0 7 13 ||| slotPut o.p2 0 6 27 ||| slotPut o.r3 0 7 20 ||| slotPut o.p1 0 6 6 ||| slotPut o.qp 0 6 0

/-- The fields of a slot with the layout of `OpI10`. -/
def OpI10.dec (w : Slot) : OpI10 where
  count6d := slotField w 27 6
  r3 := slotField w 20 7
  r2 := slotField w 13 7
  r1 := slotField w 6 7
  qp := slotField w 0 6

/-- The slot bits that hold the fields of `OpI10`. -/
def OpI10.enc (o : OpI10) : Slot :=
  slotPut o.count6d 0 6 27 ||| slotPut o.r3 0 7 20 ||| slotPut o.r2 0 7 13 ||| slotPut o.r1 0 7 6 ||| slotPut o.qp 0 6 0

/-- The fields of a slot with the layout of `OpI11`. -/
def OpI11.dec (w : Slot) : OpI11 where
  len6d := slotField w 27 6
  r3 := slotField w 20 7
  pos6b := slotField w 14 6
  r1 := slotField w 6 7
  qp := slotField w 0 6

/-- The slot bits that hold the fields of `OpI11`. -/
def OpI11.enc (o : OpI11) : Slot :=
  slotPut o.len6d 0 6 27 ||| slotPut o.r3 0 7 20 ||| slotPut o.pos6b 0 6 14 ||| slotPut o.r1 0 7 6 ||| slotPut o.qp 0 6 0

/-- The fields of a slot with the layout of `OpI12`. -/
def OpI12.dec (w : Slot) : OpI12 where
  len6d := slotField w 27 6
  cpos6c := slotField w 20 6
  r2 := slotField w 13 7
  r1 := slotField w 6 7
  qp := slotField w 0 6

/-- The slot bits that hold the fields of `OpI12`. -/
def OpI12.enc (o : OpI12) : Slot :=
  slotPut o.len6d 0 6 27 ||| slotPut o.cpos6c 0 6 20 ||| slotPut o.r2 0 7 13 ||| slotPut o.r1 0 7 6 ||| slotPut o.qp 0 6 0

/-- The fields of a slot with the layout of `OpI13`. -/
def OpI13.dec (w : Slot) : OpI13 where
  imm8 := slotField w 36 1 ++ slotField w 13 7
  len6d := slotField w 27 6
  cpos6c := slotField w 20 6
  r1 := slotField w 6 7
  qp := slotField w 0 6

/-- The slot bits that hold the fields of `OpI13`. -/
def OpI13.enc (o : OpI13) : Slot :=
  slotPut o.imm8 7 1 36 ||| slotPut o.imm8 0 7 13 ||| slotPut o.len6d 0 6 27 ||| slotPut o.cpos6c 0 6 20 ||| slotPut o.r1 0 7 6 ||| slotPut o.qp 0 6 0

/-- The fields of a slot with the layout of `OpI14`. -/
def OpI14.dec (w : Slot) : OpI14 where
  imm1 := slotField w 36 1
  len6d := slotField w 27 6
  r3 := slotField w 20 7
  cpos6b := slotField w 14 6
  r1 := slotField w 6 7
  qp := slotField w 0 6

/-- The slot bits that hold the fields of `OpI14`. -/
def OpI14.enc (o : OpI14) : Slot :=
  slotPut o.imm1 0 1 36 ||| slotPut o.len6d 0 6 27 ||| slotPut o.r3 0 7 20 ||| slotPut o.cpos6b 0 6 14 ||| slotPut o.r1 0 7 6 ||| slotPut o.qp 0 6 0

/-- The fields of a slot with the layout of `OpI15`. -/
def OpI15.dec (w : Slot) : OpI15 where
  cpos6d := slotField w 31 6
  len4d := slotField w 27 4
  r3 := slotField w 20 7
  r2 := slotField w 13 7
  r1 := slotField w 6 7
  qp := slotField w 0 6

/-- The slot bits that hold the fields of `OpI15`. -/
def OpI15.enc (o : OpI15) : Slot :=
  slotPut o.cpos6d 0 6 31 ||| slotPut o.len4d 0 4 27 ||| slotPut o.r3 0 7 20 ||| slotPut o.r2 0 7 13 ||| slotPut o.r1 0 7 6 ||| slotPut o.qp 0 6 0

/-- The fields of a slot with the layout of `OpI16`. -/
def OpI16.dec (w : Slot) : OpI16 where
  p2 := slotField w 27 6
  r3 := slotField w 20 7
  pos6b := slotField w 14 6
  p1 := slotField w 6 6
  qp := slotField w 0 6

/-- The slot bits that hold the fields of `OpI16`. -/
def OpI16.enc (o : OpI16) : Slot :=
  slotPut o.p2 0 6 27 ||| slotPut o.r3 0 7 20 ||| slotPut o.pos6b 0 6 14 ||| slotPut o.p1 0 6 6 ||| slotPut o.qp 0 6 0

/-- The fields of a slot with the layout of `OpI19`. -/
def OpI19.dec (w : Slot) : OpI19 where
  imm21 := slotField w 36 1 ++ slotField w 6 20
  qp := slotField w 0 6

/-- The slot bits that hold the fields of `OpI19`. -/
def OpI19.enc (o : OpI19) : Slot :=
  slotPut o.imm21 20 1 36 ||| slotPut o.imm21 0 20 6 ||| slotPut o.qp 0 6 0

/-- The fields of a slot with the layout of `OpI20`. -/
def OpI20.dec (w : Slot) : OpI20 where
  target25 := slotField w 36 1 ++ slotField w 20 13 ++ slotField w 6 7
  r2 := slotField w 13 7
  qp := slotField w 0 6

/-- The slot bits that hold the fields of `OpI20`. -/
def OpI20.enc (o : OpI20) : Slot :=
  slotPut o.target25 20 1 36 ||| slotPut o.target25 7 13 20 ||| slotPut o.target25 0 7 6 ||| slotPut o.r2 0 7 13 ||| slotPut o.qp 0 6 0

/-- The fields of a slot with the layout of `OpI21`. -/
def OpI21.dec (w : Slot) : OpI21 where
  r2 := slotField w 13 7
  b1 := slotField w 6 3
  timm9c := slotField w 24 9
  ih := slotField w 23 1
  wh := slotField w 20 2
  qp := slotField w 0 6

/-- The slot bits that hold the fields of `OpI21`. -/
def OpI21.enc (o : OpI21) : Slot :=
  slotPut o.r2 0 7 13 ||| slotPut o.b1 0 3 6 ||| slotPut o.timm9c 0 9 24 ||| slotPut o.ih 0 1 23 ||| slotPut o.wh 0 2 20 ||| slotPut o.qp 0 6 0

/-- The fields of a slot with the layout of `OpI22`. -/
def OpI22.dec (w : Slot) : OpI22 where
  b2 := slotField w 13 3
  r1 := slotField w 6 7
  qp := slotField w 0 6

/-- The slot bits that hold the fields of `OpI22`. -/
def OpI22.enc (o : OpI22) : Slot :=
  slotPut o.b2 0 3 13 ||| slotPut o.r1 0 7 6 ||| slotPut o.qp 0 6 0

/-- The fields of a slot with the layout of `OpI23`. -/
def OpI23.dec (w : Slot) : OpI23 where
  mask17 := slotField w 36 1 ++ slotField w 24 8 ++ slotField w 6 7
  r2 := slotField w 13 7
  qp := slotField w 0 6

/-- The slot bits that hold the fields of `OpI23`. -/
def OpI23.enc (o : OpI23) : Slot :=
  slotPut o.mask17 15 1 36 ||| slotPut o.mask17 7 8 24 ||| slotPut o.mask17 0 7 6 ||| slotPut o.r2 0 7 13 ||| slotPut o.qp 0 6 0

/-- The fields of a slot with the layout of `OpI24`. -/
def OpI24.dec (w : Slot) : OpI24 where
  imm44 := slotField w 36 1 ++ slotField w 6 27
  qp := slotField w 0 6

/-- The slot bits that hold the fields of `OpI24`. -/
def OpI24.enc (o : OpI24) : Slot :=
  slotPut o.imm44 27 1 36 ||| slotPut o.imm44 0 27 6 ||| slotPut o.qp 0 6 0

/-- The fields of a slot with the layout of `OpI25`. -/
def OpI25.dec (w : Slot) : OpI25 where
  r1 := slotField w 6 7
  qp := slotField w 0 6

/-- The slot bits that hold the fields of `OpI25`. -/
def OpI25.enc (o : OpI25) : Slot :=
  slotPut o.r1 0 7 6 ||| slotPut o.qp 0 6 0

/-- The fields of a slot with the layout of `OpI26`. -/
def OpI26.dec (w : Slot) : OpI26 where
  ar3 := slotField w 20 7
  r2 := slotField w 13 7
  qp := slotField w 0 6

/-- The slot bits that hold the fields of `OpI26`. -/
def OpI26.enc (o : OpI26) : Slot :=
  slotPut o.ar3 0 7 20 ||| slotPut o.r2 0 7 13 ||| slotPut o.qp 0 6 0

/-- The fields of a slot with the layout of `OpI27`. -/
def OpI27.dec (w : Slot) : OpI27 where
  ar3 := slotField w 20 7
  imm8 := slotField w 36 1 ++ slotField w 13 7
  qp := slotField w 0 6

/-- The slot bits that hold the fields of `OpI27`. -/
def OpI27.enc (o : OpI27) : Slot :=
  slotPut o.ar3 0 7 20 ||| slotPut o.imm8 7 1 36 ||| slotPut o.imm8 0 7 13 ||| slotPut o.qp 0 6 0

/-- The fields of a slot with the layout of `OpI28`. -/
def OpI28.dec (w : Slot) : OpI28 where
  ar3 := slotField w 20 7
  r1 := slotField w 6 7
  qp := slotField w 0 6

/-- The slot bits that hold the fields of `OpI28`. -/
def OpI28.enc (o : OpI28) : Slot :=
  slotPut o.ar3 0 7 20 ||| slotPut o.r1 0 7 6 ||| slotPut o.qp 0 6 0

/-- The fields of a slot with the layout of `OpI29`. -/
def OpI29.dec (w : Slot) : OpI29 where
  r3 := slotField w 20 7
  r1 := slotField w 6 7
  qp := slotField w 0 6

/-- The slot bits that hold the fields of `OpI29`. -/
def OpI29.enc (o : OpI29) : Slot :=
  slotPut o.r3 0 7 20 ||| slotPut o.r1 0 7 6 ||| slotPut o.qp 0 6 0

/-- The fields of a slot with the layout of `OpM1`. -/
def OpM1.dec (w : Slot) : OpM1 where
  hint := slotField w 28 2
  r3 := slotField w 20 7
  r1 := slotField w 6 7
  qp := slotField w 0 6

/-- The slot bits that hold the fields of `OpM1`. -/
def OpM1.enc (o : OpM1) : Slot :=
  slotPut o.hint 0 2 28 ||| slotPut o.r3 0 7 20 ||| slotPut o.r1 0 7 6 ||| slotPut o.qp 0 6 0

/-- The fields of a slot with the layout of `OpM2`. -/
def OpM2.dec (w : Slot) : OpM2 where
  hint := slotField w 28 2
  r3 := slotField w 20 7
  r2 := slotField w 13 7
  r1 := slotField w 6 7
  qp := slotField w 0 6

/-- The slot bits that hold the fields of `OpM2`. -/
def OpM2.enc (o : OpM2) : Slot :=
  slotPut o.hint 0 2 28 ||| slotPut o.r3 0 7 20 ||| slotPut o.r2 0 7 13 ||| slotPut o.r1 0 7 6 ||| slotPut o.qp 0 6 0

/-- The fields of a slot with the layout of `OpM3`. -/
def OpM3.dec (w : Slot) : OpM3 where
  hint := slotField w 28 2
  imm9 := slotField w 36 1 ++ slotField w 27 1 ++ slotField w 13 7
  r3 := slotField w 20 7
  r1 := slotField w 6 7
  qp := slotField w 0 6

/-- The slot bits that hold the fields of `OpM3`. -/
def OpM3.enc (o : OpM3) : Slot :=
  slotPut o.hint 0 2 28 ||| slotPut o.imm9 8 1 36 ||| slotPut o.imm9 7 1 27 ||| slotPut o.imm9 0 7 13 ||| slotPut o.r3 0 7 20 ||| slotPut o.r1 0 7 6 ||| slotPut o.qp 0 6 0

/-- The fields of a slot with the layout of `OpM4`. -/
def OpM4.dec (w : Slot) : OpM4 where
  hint := slotField w 28 2
  r3 := slotField w 20 7
  r2 := slotField w 13 7
  qp := slotField w 0 6

/-- The slot bits that hold the fields of `OpM4`. -/
def OpM4.enc (o : OpM4) : Slot :=
  slotPut o.hint 0 2 28 ||| slotPut o.r3 0 7 20 ||| slotPut o.r2 0 7 13 ||| slotPut o.qp 0 6 0

/-- The fields of a slot with the layout of `OpM5`. -/
def OpM5.dec (w : Slot) : OpM5 where
  hint := slotField w 28 2
  imm9 := slotField w 36 1 ++ slotField w 27 1 ++ slotField w 6 7
  r3 := slotField w 20 7
  r2 := slotField w 13 7
  qp := slotField w 0 6

/-- The slot bits that hold the fields of `OpM5`. -/
def OpM5.enc (o : OpM5) : Slot :=
  slotPut o.hint 0 2 28 ||| slotPut o.imm9 8 1 36 ||| slotPut o.imm9 7 1 27 ||| slotPut o.imm9 0 7 6 ||| slotPut o.r3 0 7 20 ||| slotPut o.r2 0 7 13 ||| slotPut o.qp 0 6 0

/-- The fields of a slot with the layout of `OpM6`. -/
def OpM6.dec (w : Slot) : OpM6 where
  hint := slotField w 28 2
  r3 := slotField w 20 7
  f1 := slotField w 6 7
  qp := slotField w 0 6

/-- The slot bits that hold the fields of `OpM6`. -/
def OpM6.enc (o : OpM6) : Slot :=
  slotPut o.hint 0 2 28 ||| slotPut o.r3 0 7 20 ||| slotPut o.f1 0 7 6 ||| slotPut o.qp 0 6 0

/-- The fields of a slot with the layout of `OpM7`. -/
def OpM7.dec (w : Slot) : OpM7 where
  hint := slotField w 28 2
  r3 := slotField w 20 7
  r2 := slotField w 13 7
  f1 := slotField w 6 7
  qp := slotField w 0 6

/-- The slot bits that hold the fields of `OpM7`. -/
def OpM7.enc (o : OpM7) : Slot :=
  slotPut o.hint 0 2 28 ||| slotPut o.r3 0 7 20 ||| slotPut o.r2 0 7 13 ||| slotPut o.f1 0 7 6 ||| slotPut o.qp 0 6 0

/-- The fields of a slot with the layout of `OpM8`. -/
def OpM8.dec (w : Slot) : OpM8 where
  hint := slotField w 28 2
  imm9 := slotField w 36 1 ++ slotField w 27 1 ++ slotField w 13 7
  r3 := slotField w 20 7
  f1 := slotField w 6 7
  qp := slotField w 0 6

/-- The slot bits that hold the fields of `OpM8`. -/
def OpM8.enc (o : OpM8) : Slot :=
  slotPut o.hint 0 2 28 ||| slotPut o.imm9 8 1 36 ||| slotPut o.imm9 7 1 27 ||| slotPut o.imm9 0 7 13 ||| slotPut o.r3 0 7 20 ||| slotPut o.f1 0 7 6 ||| slotPut o.qp 0 6 0

/-- The fields of a slot with the layout of `OpM9`. -/
def OpM9.dec (w : Slot) : OpM9 where
  hint := slotField w 28 2
  r3 := slotField w 20 7
  f2 := slotField w 13 7
  qp := slotField w 0 6

/-- The slot bits that hold the fields of `OpM9`. -/
def OpM9.enc (o : OpM9) : Slot :=
  slotPut o.hint 0 2 28 ||| slotPut o.r3 0 7 20 ||| slotPut o.f2 0 7 13 ||| slotPut o.qp 0 6 0

/-- The fields of a slot with the layout of `OpM10`. -/
def OpM10.dec (w : Slot) : OpM10 where
  hint := slotField w 28 2
  imm9 := slotField w 36 1 ++ slotField w 27 1 ++ slotField w 6 7
  r3 := slotField w 20 7
  f2 := slotField w 13 7
  qp := slotField w 0 6

/-- The slot bits that hold the fields of `OpM10`. -/
def OpM10.enc (o : OpM10) : Slot :=
  slotPut o.hint 0 2 28 ||| slotPut o.imm9 8 1 36 ||| slotPut o.imm9 7 1 27 ||| slotPut o.imm9 0 7 6 ||| slotPut o.r3 0 7 20 ||| slotPut o.f2 0 7 13 ||| slotPut o.qp 0 6 0

/-- The fields of a slot with the layout of `OpM11`. -/
def OpM11.dec (w : Slot) : OpM11 where
  hint := slotField w 28 2
  r3 := slotField w 20 7
  f2 := slotField w 13 7
  f1 := slotField w 6 7
  qp := slotField w 0 6

/-- The slot bits that hold the fields of `OpM11`. -/
def OpM11.enc (o : OpM11) : Slot :=
  slotPut o.hint 0 2 28 ||| slotPut o.r3 0 7 20 ||| slotPut o.f2 0 7 13 ||| slotPut o.f1 0 7 6 ||| slotPut o.qp 0 6 0

/-- The fields of a slot with the layout of `OpM13`. -/
def OpM13.dec (w : Slot) : OpM13 where
  hint := slotField w 28 2
  r3 := slotField w 20 7
  qp := slotField w 0 6

/-- The slot bits that hold the fields of `OpM13`. -/
def OpM13.enc (o : OpM13) : Slot :=
  slotPut o.hint 0 2 28 ||| slotPut o.r3 0 7 20 ||| slotPut o.qp 0 6 0

/-- The fields of a slot with the layout of `OpM15`. -/
def OpM15.dec (w : Slot) : OpM15 where
  hint := slotField w 28 2
  imm9 := slotField w 36 1 ++ slotField w 27 1 ++ slotField w 13 7
  r3 := slotField w 20 7
  qp := slotField w 0 6

/-- The slot bits that hold the fields of `OpM15`. -/
def OpM15.enc (o : OpM15) : Slot :=
  slotPut o.hint 0 2 28 ||| slotPut o.imm9 8 1 36 ||| slotPut o.imm9 7 1 27 ||| slotPut o.imm9 0 7 13 ||| slotPut o.r3 0 7 20 ||| slotPut o.qp 0 6 0

/-- The fields of a slot with the layout of `OpM17`. -/
def OpM17.dec (w : Slot) : OpM17 where
  hint := slotField w 28 2
  r3 := slotField w 20 7
  s := slotField w 15 1
  i2b := slotField w 13 2
  r1 := slotField w 6 7
  qp := slotField w 0 6

/-- The slot bits that hold the fields of `OpM17`. -/
def OpM17.enc (o : OpM17) : Slot :=
  slotPut o.hint 0 2 28 ||| slotPut o.r3 0 7 20 ||| slotPut o.s 0 1 15 ||| slotPut o.i2b 0 2 13 ||| slotPut o.r1 0 7 6 ||| slotPut o.qp 0 6 0

/-- The fields of a slot with the layout of `OpM18`. -/
def OpM18.dec (w : Slot) : OpM18 where
  r2 := slotField w 13 7
  f1 := slotField w 6 7
  qp := slotField w 0 6

/-- The slot bits that hold the fields of `OpM18`. -/
def OpM18.enc (o : OpM18) : Slot :=
  slotPut o.r2 0 7 13 ||| slotPut o.f1 0 7 6 ||| slotPut o.qp 0 6 0

/-- The fields of a slot with the layout of `OpM19`. -/
def OpM19.dec (w : Slot) : OpM19 where
  f2 := slotField w 13 7
  r1 := slotField w 6 7
  qp := slotField w 0 6

/-- The slot bits that hold the fields of `OpM19`. -/
def OpM19.enc (o : OpM19) : Slot :=
  slotPut o.f2 0 7 13 ||| slotPut o.r1 0 7 6 ||| slotPut o.qp 0 6 0

/-- The fields of a slot with the layout of `OpM21`. -/
def OpM21.dec (w : Slot) : OpM21 where
  target25 := slotField w 36 1 ++ slotField w 20 13 ++ slotField w 6 7
  f2 := slotField w 13 7
  qp := slotField w 0 6

/-- The slot bits that hold the fields of `OpM21`. -/
def OpM21.enc (o : OpM21) : Slot :=
  slotPut o.target25 20 1 36 ||| slotPut o.target25 7 13 20 ||| slotPut o.target25 0 7 6 ||| slotPut o.f2 0 7 13 ||| slotPut o.qp 0 6 0

/-- The fields of a slot with the layout of `OpM22`. -/
def OpM22.dec (w : Slot) : OpM22 where
  target25 := slotField w 36 1 ++ slotField w 13 20
  r1 := slotField w 6 7
  qp := slotField w 0 6

/-- The slot bits that hold the fields of `OpM22`. -/
def OpM22.enc (o : OpM22) : Slot :=
  slotPut o.target25 20 1 36 ||| slotPut o.target25 0 20 13 ||| slotPut o.r1 0 7 6 ||| slotPut o.qp 0 6 0

/-- The fields of a slot with the layout of `OpM23`. -/
def OpM23.dec (w : Slot) : OpM23 where
  target25 := slotField w 36 1 ++ slotField w 13 20
  f1 := slotField w 6 7
  qp := slotField w 0 6

/-- The slot bits that hold the fields of `OpM23`. -/
def OpM23.enc (o : OpM23) : Slot :=
  slotPut o.target25 20 1 36 ||| slotPut o.target25 0 20 13 ||| slotPut o.f1 0 7 6 ||| slotPut o.qp 0 6 0

/-- The fields of a slot with the layout of `OpM24`. -/
def OpM24.dec (w : Slot) : OpM24 where
  qp := slotField w 0 6

/-- The slot bits that hold the fields of `OpM24`. -/
def OpM24.enc (o : OpM24) : Slot :=
  slotPut o.qp 0 6 0

/-- The fields of a slot with the layout of `OpM27`. -/
def OpM27.dec (w : Slot) : OpM27 where
  f1 := slotField w 6 7
  qp := slotField w 0 6

/-- The slot bits that hold the fields of `OpM27`. -/
def OpM27.enc (o : OpM27) : Slot :=
  slotPut o.f1 0 7 6 ||| slotPut o.qp 0 6 0

/-- The fields of a slot with the layout of `OpM44`. -/
def OpM44.dec (w : Slot) : OpM44 where
  imm24 := slotField w 36 1 ++ slotField w 31 2 ++ slotField w 6 21
  qp := slotField w 0 6

/-- The slot bits that hold the fields of `OpM44`. -/
def OpM44.enc (o : OpM44) : Slot :=
  slotPut o.imm24 23 1 36 ||| slotPut o.imm24 21 2 31 ||| slotPut o.imm24 0 21 6 ||| slotPut o.qp 0 6 0

/-- The fields of a slot with the layout of `OpM42`. -/
def OpM42.dec (w : Slot) : OpM42 where
  r3 := slotField w 20 7
  r2 := slotField w 13 7
  qp := slotField w 0 6

/-- The slot bits that hold the fields of `OpM42`. -/
def OpM42.enc (o : OpM42) : Slot :=
  slotPut o.r3 0 7 20 ||| slotPut o.r2 0 7 13 ||| slotPut o.qp 0 6 0

/-- The fields of a slot with the layout of `OpM47`. -/
def OpM47.dec (w : Slot) : OpM47 where
  r3 := slotField w 20 7
  qp := slotField w 0 6

/-- The slot bits that hold the fields of `OpM47`. -/
def OpM47.enc (o : OpM47) : Slot :=
  slotPut o.r3 0 7 20 ||| slotPut o.qp 0 6 0

/-- The fields of a slot with the layout of `OpM41`. -/
def OpM41.dec (w : Slot) : OpM41 where
  r2 := slotField w 13 7
  qp := slotField w 0 6

/-- The slot bits that hold the fields of `OpM41`. -/
def OpM41.enc (o : OpM41) : Slot :=
  slotPut o.r2 0 7 13 ||| slotPut o.qp 0 6 0

/-- The fields of a slot with the layout of `OpM39`. -/
def OpM39.dec (w : Slot) : OpM39 where
  r3 := slotField w 20 7
  i2b := slotField w 13 2
  r1 := slotField w 6 7
  qp := slotField w 0 6

/-- The slot bits that hold the fields of `OpM39`. -/
def OpM39.enc (o : OpM39) : Slot :=
  slotPut o.r3 0 7 20 ||| slotPut o.i2b 0 2 13 ||| slotPut o.r1 0 7 6 ||| slotPut o.qp 0 6 0

/-- The fields of a slot with the layout of `OpM40`. -/
def OpM40.dec (w : Slot) : OpM40 where
  r3 := slotField w 20 7
  i2b := slotField w 13 2
  qp := slotField w 0 6

/-- The slot bits that hold the fields of `OpM40`. -/
def OpM40.enc (o : OpM40) : Slot :=
  slotPut o.r3 0 7 20 ||| slotPut o.i2b 0 2 13 ||| slotPut o.qp 0 6 0

/-- The fields of a slot with the layout of `OpM33`. -/
def OpM33.dec (w : Slot) : OpM33 where
  cr3 := slotField w 20 7
  r1 := slotField w 6 7
  qp := slotField w 0 6

/-- The slot bits that hold the fields of `OpM33`. -/
def OpM33.enc (o : OpM33) : Slot :=
  slotPut o.cr3 0 7 20 ||| slotPut o.r1 0 7 6 ||| slotPut o.qp 0 6 0

/-- The fields of a slot with the layout of `OpM32`. -/
def OpM32.dec (w : Slot) : OpM32 where
  cr3 := slotField w 20 7
  r2 := slotField w 13 7
  qp := slotField w 0 6

/-- The slot bits that hold the fields of `OpM32`. -/
def OpM32.enc (o : OpM32) : Slot :=
  slotPut o.cr3 0 7 20 ||| slotPut o.r2 0 7 13 ||| slotPut o.qp 0 6 0

/-- The fields of a slot with the layout of `OpM34`. -/
def OpM34.dec (w : Slot) : OpM34 where
  sor := slotField w 27 4
  sol := slotField w 20 7
  sof := slotField w 13 7
  r1 := slotField w 6 7
  qp := slotField w 0 6

/-- The slot bits that hold the fields of `OpM34`. -/
def OpM34.enc (o : OpM34) : Slot :=
  slotPut o.sor 0 4 27 ||| slotPut o.sol 0 7 20 ||| slotPut o.sof 0 7 13 ||| slotPut o.r1 0 7 6 ||| slotPut o.qp 0 6 0

/-- The fields of a slot with the layout of `OpB1`. -/
def OpB1.dec (w : Slot) : OpB1 where
  target25 := slotField w 36 1 ++ slotField w 13 20
  d := slotField w 35 1
  wh := slotField w 33 2
  p := slotField w 12 1
  qp := slotField w 0 6

/-- The slot bits that hold the fields of `OpB1`. -/
def OpB1.enc (o : OpB1) : Slot :=
  slotPut o.target25 20 1 36 ||| slotPut o.target25 0 20 13 ||| slotPut o.d 0 1 35 ||| slotPut o.wh 0 2 33 ||| slotPut o.p 0 1 12 ||| slotPut o.qp 0 6 0

/-- The fields of a slot with the layout of `OpB3`. -/
def OpB3.dec (w : Slot) : OpB3 where
  target25 := slotField w 36 1 ++ slotField w 13 20
  d := slotField w 35 1
  wh := slotField w 33 2
  p := slotField w 12 1
  b1 := slotField w 6 3
  qp := slotField w 0 6

/-- The slot bits that hold the fields of `OpB3`. -/
def OpB3.enc (o : OpB3) : Slot :=
  slotPut o.target25 20 1 36 ||| slotPut o.target25 0 20 13 ||| slotPut o.d 0 1 35 ||| slotPut o.wh 0 2 33 ||| slotPut o.p 0 1 12 ||| slotPut o.b1 0 3 6 ||| slotPut o.qp 0 6 0

/-- The fields of a slot with the layout of `OpB4`. -/
def OpB4.dec (w : Slot) : OpB4 where
  d := slotField w 35 1
  wh := slotField w 33 2
  b2 := slotField w 13 3
  p := slotField w 12 1
  qp := slotField w 0 6

/-- The slot bits that hold the fields of `OpB4`. -/
def OpB4.enc (o : OpB4) : Slot :=
  slotPut o.d 0 1 35 ||| slotPut o.wh 0 2 33 ||| slotPut o.b2 0 3 13 ||| slotPut o.p 0 1 12 ||| slotPut o.qp 0 6 0

/-- The fields of a slot with the layout of `OpB5`. -/
def OpB5.dec (w : Slot) : OpB5 where
  d := slotField w 35 1
  wh := slotField w 32 3
  b2 := slotField w 13 3
  p := slotField w 12 1
  b1 := slotField w 6 3
  qp := slotField w 0 6

/-- The slot bits that hold the fields of `OpB5`. -/
def OpB5.enc (o : OpB5) : Slot :=
  slotPut o.d 0 1 35 ||| slotPut o.wh 0 3 32 ||| slotPut o.b2 0 3 13 ||| slotPut o.p 0 1 12 ||| slotPut o.b1 0 3 6 ||| slotPut o.qp 0 6 0

/-- The fields of a slot with the layout of `OpF1`. -/
def OpF1.dec (w : Slot) : OpF1 where
  sf := slotField w 34 2
  f4 := slotField w 27 7
  f3 := slotField w 20 7
  f2 := slotField w 13 7
  f1 := slotField w 6 7
  qp := slotField w 0 6

/-- The slot bits that hold the fields of `OpF1`. -/
def OpF1.enc (o : OpF1) : Slot :=
  slotPut o.sf 0 2 34 ||| slotPut o.f4 0 7 27 ||| slotPut o.f3 0 7 20 ||| slotPut o.f2 0 7 13 ||| slotPut o.f1 0 7 6 ||| slotPut o.qp 0 6 0

/-- The fields of a slot with the layout of `OpF2`. -/
def OpF2.dec (w : Slot) : OpF2 where
  x2 := slotField w 34 2
  f4 := slotField w 27 7
  f3 := slotField w 20 7
  f2 := slotField w 13 7
  f1 := slotField w 6 7
  qp := slotField w 0 6

/-- The slot bits that hold the fields of `OpF2`. -/
def OpF2.enc (o : OpF2) : Slot :=
  slotPut o.x2 0 2 34 ||| slotPut o.f4 0 7 27 ||| slotPut o.f3 0 7 20 ||| slotPut o.f2 0 7 13 ||| slotPut o.f1 0 7 6 ||| slotPut o.qp 0 6 0

/-- The fields of a slot with the layout of `OpF3`. -/
def OpF3.dec (w : Slot) : OpF3 where
  f4 := slotField w 27 7
  f3 := slotField w 20 7
  f2 := slotField w 13 7
  f1 := slotField w 6 7
  qp := slotField w 0 6

/-- The slot bits that hold the fields of `OpF3`. -/
def OpF3.enc (o : OpF3) : Slot :=
  slotPut o.f4 0 7 27 ||| slotPut o.f3 0 7 20 ||| slotPut o.f2 0 7 13 ||| slotPut o.f1 0 7 6 ||| slotPut o.qp 0 6 0

/-- The fields of a slot with the layout of `OpF4`. -/
def OpF4.dec (w : Slot) : OpF4 where
  rb := slotField w 36 1
  sf := slotField w 34 2
  ra := slotField w 33 1
  p2 := slotField w 27 6
  f3 := slotField w 20 7
  f2 := slotField w 13 7
  ta := slotField w 12 1
  p1 := slotField w 6 6
  qp := slotField w 0 6

/-- The slot bits that hold the fields of `OpF4`. -/
def OpF4.enc (o : OpF4) : Slot :=
  slotPut o.rb 0 1 36 ||| slotPut o.sf 0 2 34 ||| slotPut o.ra 0 1 33 ||| slotPut o.p2 0 6 27 ||| slotPut o.f3 0 7 20 ||| slotPut o.f2 0 7 13 ||| slotPut o.ta 0 1 12 ||| slotPut o.p1 0 6 6 ||| slotPut o.qp 0 6 0

/-- The fields of a slot with the layout of `OpF5`. -/
def OpF5.dec (w : Slot) : OpF5 where
  p2 := slotField w 27 6
  f2 := slotField w 13 7
  ta := slotField w 12 1
  p1 := slotField w 6 6
  qp := slotField w 0 6

/-- The slot bits that hold the fields of `OpF5`. -/
def OpF5.enc (o : OpF5) : Slot :=
  slotPut o.p2 0 6 27 ||| slotPut o.f2 0 7 13 ||| slotPut o.ta 0 1 12 ||| slotPut o.p1 0 6 6 ||| slotPut o.qp 0 6 0

/-- The fields of a slot with the layout of `OpF6`. -/
def OpF6.dec (w : Slot) : OpF6 where
  sf := slotField w 34 2
  p2 := slotField w 27 6
  f3 := slotField w 20 7
  f2 := slotField w 13 7
  f1 := slotField w 6 7
  qp := slotField w 0 6

/-- The slot bits that hold the fields of `OpF6`. -/
def OpF6.enc (o : OpF6) : Slot :=
  slotPut o.sf 0 2 34 ||| slotPut o.p2 0 6 27 ||| slotPut o.f3 0 7 20 ||| slotPut o.f2 0 7 13 ||| slotPut o.f1 0 7 6 ||| slotPut o.qp 0 6 0

/-- The fields of a slot with the layout of `OpF7`. -/
def OpF7.dec (w : Slot) : OpF7 where
  sf := slotField w 34 2
  p2 := slotField w 27 6
  f3 := slotField w 20 7
  f1 := slotField w 6 7
  qp := slotField w 0 6

/-- The slot bits that hold the fields of `OpF7`. -/
def OpF7.enc (o : OpF7) : Slot :=
  slotPut o.sf 0 2 34 ||| slotPut o.p2 0 6 27 ||| slotPut o.f3 0 7 20 ||| slotPut o.f1 0 7 6 ||| slotPut o.qp 0 6 0

/-- The fields of a slot with the layout of `OpF8`. -/
def OpF8.dec (w : Slot) : OpF8 where
  sf := slotField w 34 2
  f3 := slotField w 20 7
  f2 := slotField w 13 7
  f1 := slotField w 6 7
  qp := slotField w 0 6

/-- The slot bits that hold the fields of `OpF8`. -/
def OpF8.enc (o : OpF8) : Slot :=
  slotPut o.sf 0 2 34 ||| slotPut o.f3 0 7 20 ||| slotPut o.f2 0 7 13 ||| slotPut o.f1 0 7 6 ||| slotPut o.qp 0 6 0

/-- The fields of a slot with the layout of `OpF9`. -/
def OpF9.dec (w : Slot) : OpF9 where
  f3 := slotField w 20 7
  f2 := slotField w 13 7
  f1 := slotField w 6 7
  qp := slotField w 0 6

/-- The slot bits that hold the fields of `OpF9`. -/
def OpF9.enc (o : OpF9) : Slot :=
  slotPut o.f3 0 7 20 ||| slotPut o.f2 0 7 13 ||| slotPut o.f1 0 7 6 ||| slotPut o.qp 0 6 0

/-- The fields of a slot with the layout of `OpF10`. -/
def OpF10.dec (w : Slot) : OpF10 where
  sf := slotField w 34 2
  f2 := slotField w 13 7
  f1 := slotField w 6 7
  qp := slotField w 0 6

/-- The slot bits that hold the fields of `OpF10`. -/
def OpF10.enc (o : OpF10) : Slot :=
  slotPut o.sf 0 2 34 ||| slotPut o.f2 0 7 13 ||| slotPut o.f1 0 7 6 ||| slotPut o.qp 0 6 0

/-- The fields of a slot with the layout of `OpF11`. -/
def OpF11.dec (w : Slot) : OpF11 where
  f2 := slotField w 13 7
  f1 := slotField w 6 7
  qp := slotField w 0 6

/-- The slot bits that hold the fields of `OpF11`. -/
def OpF11.enc (o : OpF11) : Slot :=
  slotPut o.f2 0 7 13 ||| slotPut o.f1 0 7 6 ||| slotPut o.qp 0 6 0

/-- The fields of a slot with the layout of `OpF12`. -/
def OpF12.dec (w : Slot) : OpF12 where
  sf := slotField w 34 2
  omask7c := slotField w 20 7
  amask7b := slotField w 13 7
  qp := slotField w 0 6

/-- The slot bits that hold the fields of `OpF12`. -/
def OpF12.enc (o : OpF12) : Slot :=
  slotPut o.sf 0 2 34 ||| slotPut o.omask7c 0 7 20 ||| slotPut o.amask7b 0 7 13 ||| slotPut o.qp 0 6 0

/-- The fields of a slot with the layout of `OpF13`. -/
def OpF13.dec (w : Slot) : OpF13 where
  sf := slotField w 34 2
  qp := slotField w 0 6

/-- The slot bits that hold the fields of `OpF13`. -/
def OpF13.enc (o : OpF13) : Slot :=
  slotPut o.sf 0 2 34 ||| slotPut o.qp 0 6 0

/-- The fields of a slot with the layout of `OpF14`. -/
def OpF14.dec (w : Slot) : OpF14 where
  sf := slotField w 34 2
  target25 := slotField w 36 1 ++ slotField w 6 20
  qp := slotField w 0 6

/-- The slot bits that hold the fields of `OpF14`. -/
def OpF14.enc (o : OpF14) : Slot :=
  slotPut o.sf 0 2 34 ||| slotPut o.target25 20 1 36 ||| slotPut o.target25 0 20 6 ||| slotPut o.qp 0 6 0

/-- The fields of a slot with the layout of `OpX1`. -/
def OpX1.dec (w : Slot) (l : Slot) : OpX1 where
  imm41 := l
  imm21 := slotField w 36 1 ++ slotField w 6 20
  qp := slotField w 0 6

/-- The slot bits that hold the fields of `OpX1`. -/
def OpX1.enc (o : OpX1) : Slot :=
  slotPut o.imm21 20 1 36 ||| slotPut o.imm21 0 20 6 ||| slotPut o.qp 0 6 0

/-- The fields of a slot with the layout of `OpX2`. -/
def OpX2.dec (w : Slot) (l : Slot) : OpX2 where
  imm41 := l
  i := slotField w 36 1
  imm9d := slotField w 27 9
  imm5c := slotField w 22 5
  ic := slotField w 21 1
  imm7b := slotField w 13 7
  r1 := slotField w 6 7
  qp := slotField w 0 6

/-- The slot bits that hold the fields of `OpX2`. -/
def OpX2.enc (o : OpX2) : Slot :=
  slotPut o.i 0 1 36 ||| slotPut o.imm9d 0 9 27 ||| slotPut o.imm5c 0 5 22 ||| slotPut o.ic 0 1 21 ||| slotPut o.imm7b 0 7 13 ||| slotPut o.r1 0 7 6 ||| slotPut o.qp 0 6 0

/-- The fields of a slot with the layout of `OpX3`. -/
def OpX3.dec (w : Slot) (l : Slot) : OpX3 where
  imm41 := l
  i := slotField w 36 1
  d := slotField w 35 1
  wh := slotField w 33 2
  imm20b := slotField w 13 20
  p := slotField w 12 1
  qp := slotField w 0 6

/-- The slot bits that hold the fields of `OpX3`. -/
def OpX3.enc (o : OpX3) : Slot :=
  slotPut o.i 0 1 36 ||| slotPut o.d 0 1 35 ||| slotPut o.wh 0 2 33 ||| slotPut o.imm20b 0 20 13 ||| slotPut o.p 0 1 12 ||| slotPut o.qp 0 6 0

/-- The fields of a slot with the layout of `OpX4`. -/
def OpX4.dec (w : Slot) (l : Slot) : OpX4 where
  imm41 := l
  i := slotField w 36 1
  d := slotField w 35 1
  wh := slotField w 33 2
  imm20b := slotField w 13 20
  p := slotField w 12 1
  b1 := slotField w 6 3
  qp := slotField w 0 6

/-- The slot bits that hold the fields of `OpX4`. -/
def OpX4.enc (o : OpX4) : Slot :=
  slotPut o.i 0 1 36 ||| slotPut o.d 0 1 35 ||| slotPut o.wh 0 2 33 ||| slotPut o.imm20b 0 20 13 ||| slotPut o.p 0 1 12 ||| slotPut o.b1 0 3 6 ||| slotPut o.qp 0 6 0

/-! ## The opcode table -/

/-- The unit of an instruction or of a slot (30 R451, R454); `a` is the type of the ALU instructions that run on M and I. -/
inductive ExecUnit where
  | a | i | m | b | f | l | x
deriving DecidableEq, Repr

/-- One row of the opcode table: the mask and match of the slot, the bits that the row's `fields` list and those that
any field of the row covers (both used to tell a table word's unit only), and the instruction it makes of a slot and,
in an MLX bundle, of the L slot. -/
structure Row where
  mask : Slot
  value : Slot
  listed : Slot
  covered : Slot
  make : Slot → Slot → Instr

/-- 30 R458: the slot matches the row. -/
def Row.hits (r : Row) (w : Slot) : Bool := (w &&& r.mask) == r.value

/-- Rows 0 to 59 of the table. -/
def rowsA0 : List Row :=
  [ ⟨0x1fff8000000#41, 0x10000000000#41, 0x7ffffff#41, 0x7ffffff#41, fun w _ => .add (.dec w)⟩,
    ⟨0x1fff8000000#41, 0x10008000000#41, 0x7ffffff#41, 0x7ffffff#41, fun w _ => .addR1R2R31 (.dec w)⟩,
    ⟨0x1fff8000000#41, 0x10028000000#41, 0x7ffffff#41, 0x7ffffff#41, fun w _ => .sub (.dec w)⟩,
    ⟨0x1fff8000000#41, 0x10020000000#41, 0x7ffffff#41, 0x7ffffff#41, fun w _ => .subR1R2R31 (.dec w)⟩,
    ⟨0x1fff8000000#41, 0x10040000000#41, 0x7ffffff#41, 0x7ffffff#41, fun w _ => .addp4 (.dec w)⟩,
    ⟨0x1fff8000000#41, 0x10060000000#41, 0x7ffffff#41, 0x7ffffff#41, fun w _ => .and (.dec w)⟩,
    ⟨0x1fff8000000#41, 0x10068000000#41, 0x7ffffff#41, 0x7ffffff#41, fun w _ => .andcm (.dec w)⟩,
    ⟨0x1fff8000000#41, 0x10070000000#41, 0x7ffffff#41, 0x7ffffff#41, fun w _ => .or (.dec w)⟩,
    ⟨0x1fff8000000#41, 0x10078000000#41, 0x7ffffff#41, 0x7ffffff#41, fun w _ => .xor (.dec w)⟩,
    ⟨0x1ffe0000000#41, 0x10080000000#41, 0x1fffffff#41, 0x1fffffff#41, fun w _ => .shladd (.dec w)⟩,
    ⟨0x1ffe0000000#41, 0x100c0000000#41, 0x1fffffff#41, 0x1fffffff#41, fun w _ => .shladdp4 (.dec w)⟩,
    ⟨0x1eff8000000#41, 0x10128000000#41, 0x7f01fff#41, 0x1007ffffff#41, fun w _ => .subR1Imm8R3 (.dec w)⟩,
    ⟨0x1eff8000000#41, 0x10160000000#41, 0x7f01fff#41, 0x1007ffffff#41, fun w _ => .andR1Imm8R3 (.dec w)⟩,
    ⟨0x1eff8000000#41, 0x10168000000#41, 0x7f01fff#41, 0x1007ffffff#41, fun w _ => .andcmR1Imm8R3 (.dec w)⟩,
    ⟨0x1eff8000000#41, 0x10170000000#41, 0x7f01fff#41, 0x1007ffffff#41, fun w _ => .orR1Imm8R3 (.dec w)⟩,
    ⟨0x1eff8000000#41, 0x10178000000#41, 0x7f01fff#41, 0x1007ffffff#41, fun w _ => .xorR1Imm8R3 (.dec w)⟩,
    ⟨0x1ee00000000#41, 0x10800000000#41, 0x7f01fff#41, 0x11ffffffff#41, fun w _ => .adds (.dec w)⟩,
    ⟨0x1ee00000000#41, 0x10c00000000#41, 0x7f01fff#41, 0x11ffffffff#41, fun w _ => .addp4R1Imm14R3 (.dec w)⟩,
    ⟨0x1e000000000#41, 0x12000000000#41, 0x301fff#41, 0x1fffffffff#41, fun w _ => .addl (.dec w)⟩,
    ⟨0x1fe00001000#41, 0x18000000000#41, 0x0#41, 0x1ffffefff#41, fun w _ => .cmpLtP1P2R2R3 (.dec w)⟩,
    ⟨0x1fe000ff000#41, 0x19000000000#41, 0x0#41, 0x1fff00fff#41, fun w _ => .cmpGtAndP1P2R0R3 (.dec w)⟩,
    ⟨0x1fe00001000#41, 0x18400000000#41, 0x0#41, 0x1ffffefff#41, fun w _ => .cmp4LtP1P2R2R3 (.dec w)⟩,
    ⟨0x1fe000ff000#41, 0x19400000000#41, 0x0#41, 0x1fff00fff#41, fun w _ => .cmp4GtAndP1P2R0R3 (.dec w)⟩,
    ⟨0x1ee00001000#41, 0x18800000000#41, 0x0#41, 0x11ffffefff#41, fun w _ => .cmpLtP1P2Imm8R3 (.dec w)⟩,
    ⟨0x1ee00001000#41, 0x18c00000000#41, 0x0#41, 0x11ffffefff#41, fun w _ => .cmp4LtP1P2Imm8R3 (.dec w)⟩,
    ⟨0x1fe00001000#41, 0x18000001000#41, 0x0#41, 0x1ffffefff#41, fun w _ => .cmpLtUncP1P2R2R3 (.dec w)⟩,
    ⟨0x1fe000ff000#41, 0x19000001000#41, 0x0#41, 0x1fff00fff#41, fun w _ => .cmpLeAndP1P2R0R3 (.dec w)⟩,
    ⟨0x1fe00001000#41, 0x18400001000#41, 0x0#41, 0x1ffffefff#41, fun w _ => .cmp4LtUncP1P2R2R3 (.dec w)⟩,
    ⟨0x1fe000ff000#41, 0x19400001000#41, 0x0#41, 0x1fff00fff#41, fun w _ => .cmp4LeAndP1P2R0R3 (.dec w)⟩,
    ⟨0x1ee00001000#41, 0x18800001000#41, 0x0#41, 0x11ffffefff#41, fun w _ => .cmpLtUncP1P2Imm8R3 (.dec w)⟩,
    ⟨0x1ee00001000#41, 0x18c00001000#41, 0x0#41, 0x11ffffefff#41, fun w _ => .cmp4LtUncP1P2Imm8R3 (.dec w)⟩,
    ⟨0x1fe00001000#41, 0x18200000000#41, 0x0#41, 0x1ffffefff#41, fun w _ => .cmpEqAndP1P2R2R3 (.dec w)⟩,
    ⟨0x1fe000ff000#41, 0x19200000000#41, 0x0#41, 0x1fff00fff#41, fun w _ => .cmpGeAndP1P2R0R3 (.dec w)⟩,
    ⟨0x1fe00001000#41, 0x18600000000#41, 0x0#41, 0x1ffffefff#41, fun w _ => .cmp4EqAndP1P2R2R3 (.dec w)⟩,
    ⟨0x1fe000ff000#41, 0x19600000000#41, 0x0#41, 0x1fff00fff#41, fun w _ => .cmp4GeAndP1P2R0R3 (.dec w)⟩,
    ⟨0x1ee00001000#41, 0x18a00000000#41, 0x0#41, 0x11ffffefff#41, fun w _ => .cmpEqAndP1P2Imm8R3 (.dec w)⟩,
    ⟨0x1ee00001000#41, 0x18e00000000#41, 0x0#41, 0x11ffffefff#41, fun w _ => .cmp4EqAndP1P2Imm8R3 (.dec w)⟩,
    ⟨0x1fe00001000#41, 0x18200001000#41, 0x0#41, 0x1ffffefff#41, fun w _ => .cmpNeAndP1P2R2R3 (.dec w)⟩,
    ⟨0x1fe000ff000#41, 0x19200001000#41, 0x0#41, 0x1fff00fff#41, fun w _ => .cmpLtAndP1P2R0R3 (.dec w)⟩,
    ⟨0x1fe00001000#41, 0x18600001000#41, 0x0#41, 0x1ffffefff#41, fun w _ => .cmp4NeAndP1P2R2R3 (.dec w)⟩,
    ⟨0x1fe000ff000#41, 0x19600001000#41, 0x0#41, 0x1fff00fff#41, fun w _ => .cmp4LtAndP1P2R0R3 (.dec w)⟩,
    ⟨0x1ee00001000#41, 0x18a00001000#41, 0x0#41, 0x11ffffefff#41, fun w _ => .cmpNeAndP1P2Imm8R3 (.dec w)⟩,
    ⟨0x1ee00001000#41, 0x18e00001000#41, 0x0#41, 0x11ffffefff#41, fun w _ => .cmp4NeAndP1P2Imm8R3 (.dec w)⟩,
    ⟨0x1fe00001000#41, 0x1a000000000#41, 0x0#41, 0x1ffffefff#41, fun w _ => .cmpLtuP1P2R2R3 (.dec w)⟩,
    ⟨0x1fe000ff000#41, 0x1b000000000#41, 0x0#41, 0x1fff00fff#41, fun w _ => .cmpGtOrP1P2R0R3 (.dec w)⟩,
    ⟨0x1fe00001000#41, 0x1a400000000#41, 0x0#41, 0x1ffffefff#41, fun w _ => .cmp4LtuP1P2R2R3 (.dec w)⟩,
    ⟨0x1fe000ff000#41, 0x1b400000000#41, 0x0#41, 0x1fff00fff#41, fun w _ => .cmp4GtOrP1P2R0R3 (.dec w)⟩,
    ⟨0x1ee00001000#41, 0x1a800000000#41, 0x0#41, 0x11ffffefff#41, fun w _ => .cmpLtuP1P2Imm8R3 (.dec w)⟩,
    ⟨0x1ee00001000#41, 0x1ac00000000#41, 0x0#41, 0x11ffffefff#41, fun w _ => .cmp4LtuP1P2Imm8R3 (.dec w)⟩,
    ⟨0x1fe00001000#41, 0x1a000001000#41, 0x0#41, 0x1ffffefff#41, fun w _ => .cmpLtuUncP1P2R2R3 (.dec w)⟩,
    ⟨0x1fe000ff000#41, 0x1b000001000#41, 0x0#41, 0x1fff00fff#41, fun w _ => .cmpLeOrP1P2R0R3 (.dec w)⟩,
    ⟨0x1fe00001000#41, 0x1a400001000#41, 0x0#41, 0x1ffffefff#41, fun w _ => .cmp4LtuUncP1P2R2R3 (.dec w)⟩,
    ⟨0x1fe000ff000#41, 0x1b400001000#41, 0x0#41, 0x1fff00fff#41, fun w _ => .cmp4LeOrP1P2R0R3 (.dec w)⟩,
    ⟨0x1ee00001000#41, 0x1a800001000#41, 0x0#41, 0x11ffffefff#41, fun w _ => .cmpLtuUncP1P2Imm8R3 (.dec w)⟩,
    ⟨0x1ee00001000#41, 0x1ac00001000#41, 0x0#41, 0x11ffffefff#41, fun w _ => .cmp4LtuUncP1P2Imm8R3 (.dec w)⟩,
    ⟨0x1fe00001000#41, 0x1a200000000#41, 0x0#41, 0x1ffffefff#41, fun w _ => .cmpEqOrP1P2R2R3 (.dec w)⟩,
    ⟨0x1fe000ff000#41, 0x1b200000000#41, 0x0#41, 0x1fff00fff#41, fun w _ => .cmpGeOrP1P2R0R3 (.dec w)⟩,
    ⟨0x1fe00001000#41, 0x1a600000000#41, 0x0#41, 0x1ffffefff#41, fun w _ => .cmp4EqOrP1P2R2R3 (.dec w)⟩,
    ⟨0x1fe000ff000#41, 0x1b600000000#41, 0x0#41, 0x1fff00fff#41, fun w _ => .cmp4GeOrP1P2R0R3 (.dec w)⟩,
    ⟨0x1ee00001000#41, 0x1aa00000000#41, 0x0#41, 0x11ffffefff#41, fun w _ => .cmpEqOrP1P2Imm8R3 (.dec w)⟩ ]

/-- Rows 60 to 119 of the table. -/
def rowsA1 : List Row :=
  [ ⟨0x1ee00001000#41, 0x1ae00000000#41, 0x0#41, 0x11ffffefff#41, fun w _ => .cmp4EqOrP1P2Imm8R3 (.dec w)⟩,
    ⟨0x1fe00001000#41, 0x1a200001000#41, 0x0#41, 0x1ffffefff#41, fun w _ => .cmpNeOrP1P2R2R3 (.dec w)⟩,
    ⟨0x1fe000ff000#41, 0x1b200001000#41, 0x0#41, 0x1fff00fff#41, fun w _ => .cmpLtOrP1P2R0R3 (.dec w)⟩,
    ⟨0x1fe00001000#41, 0x1a600001000#41, 0x0#41, 0x1ffffefff#41, fun w _ => .cmp4NeOrP1P2R2R3 (.dec w)⟩,
    ⟨0x1fe000ff000#41, 0x1b600001000#41, 0x0#41, 0x1fff00fff#41, fun w _ => .cmp4LtOrP1P2R0R3 (.dec w)⟩,
    ⟨0x1ee00001000#41, 0x1aa00001000#41, 0x0#41, 0x11ffffefff#41, fun w _ => .cmpNeOrP1P2Imm8R3 (.dec w)⟩,
    ⟨0x1ee00001000#41, 0x1ae00001000#41, 0x0#41, 0x11ffffefff#41, fun w _ => .cmp4NeOrP1P2Imm8R3 (.dec w)⟩,
    ⟨0x1fe00001000#41, 0x1c000000000#41, 0x0#41, 0x1ffffefff#41, fun w _ => .cmpEqP1P2R2R3 (.dec w)⟩,
    ⟨0x1fe000ff000#41, 0x1d000000000#41, 0x0#41, 0x1fff00fff#41, fun w _ => .cmpGtOrAndcmP1P2R0R3 (.dec w)⟩,
    ⟨0x1fe00001000#41, 0x1c400000000#41, 0x0#41, 0x1ffffefff#41, fun w _ => .cmp4EqP1P2R2R3 (.dec w)⟩,
    ⟨0x1fe000ff000#41, 0x1d400000000#41, 0x0#41, 0x1fff00fff#41, fun w _ => .cmp4GtOrAndcmP1P2R0R3 (.dec w)⟩,
    ⟨0x1ee00001000#41, 0x1c800000000#41, 0x0#41, 0x11ffffefff#41, fun w _ => .cmpEqP1P2Imm8R3 (.dec w)⟩,
    ⟨0x1ee00001000#41, 0x1cc00000000#41, 0x0#41, 0x11ffffefff#41, fun w _ => .cmp4EqP1P2Imm8R3 (.dec w)⟩,
    ⟨0x1fe00001000#41, 0x1c000001000#41, 0x0#41, 0x1ffffefff#41, fun w _ => .cmpEqUncP1P2R2R3 (.dec w)⟩,
    ⟨0x1fe000ff000#41, 0x1d000001000#41, 0x0#41, 0x1fff00fff#41, fun w _ => .cmpLeOrAndcmP1P2R0R3 (.dec w)⟩,
    ⟨0x1fe00001000#41, 0x1c400001000#41, 0x0#41, 0x1ffffefff#41, fun w _ => .cmp4EqUncP1P2R2R3 (.dec w)⟩,
    ⟨0x1fe000ff000#41, 0x1d400001000#41, 0x0#41, 0x1fff00fff#41, fun w _ => .cmp4LeOrAndcmP1P2R0R3 (.dec w)⟩,
    ⟨0x1ee00001000#41, 0x1c800001000#41, 0x0#41, 0x11ffffefff#41, fun w _ => .cmpEqUncP1P2Imm8R3 (.dec w)⟩,
    ⟨0x1ee00001000#41, 0x1cc00001000#41, 0x0#41, 0x11ffffefff#41, fun w _ => .cmp4EqUncP1P2Imm8R3 (.dec w)⟩,
    ⟨0x1fe00001000#41, 0x1c200000000#41, 0x0#41, 0x1ffffefff#41, fun w _ => .cmpEqOrAndcmP1P2R2R3 (.dec w)⟩,
    ⟨0x1fe000ff000#41, 0x1d200000000#41, 0x0#41, 0x1fff00fff#41, fun w _ => .cmpGeOrAndcmP1P2R0R3 (.dec w)⟩,
    ⟨0x1fe00001000#41, 0x1c600000000#41, 0x0#41, 0x1ffffefff#41, fun w _ => .cmp4EqOrAndcmP1P2R2R3 (.dec w)⟩,
    ⟨0x1fe000ff000#41, 0x1d600000000#41, 0x0#41, 0x1fff00fff#41, fun w _ => .cmp4GeOrAndcmP1P2R0R3 (.dec w)⟩,
    ⟨0x1ee00001000#41, 0x1ca00000000#41, 0x0#41, 0x11ffffefff#41, fun w _ => .cmpEqOrAndcmP1P2Imm8R3 (.dec w)⟩,
    ⟨0x1ee00001000#41, 0x1ce00000000#41, 0x0#41, 0x11ffffefff#41, fun w _ => .cmp4EqOrAndcmP1P2Imm8R3 (.dec w)⟩,
    ⟨0x1fe00001000#41, 0x1c200001000#41, 0x0#41, 0x1ffffefff#41, fun w _ => .cmpNeOrAndcmP1P2R2R3 (.dec w)⟩,
    ⟨0x1fe000ff000#41, 0x1d200001000#41, 0x0#41, 0x1fff00fff#41, fun w _ => .cmpLtOrAndcmP1P2R0R3 (.dec w)⟩,
    ⟨0x1fe00001000#41, 0x1c600001000#41, 0x0#41, 0x1ffffefff#41, fun w _ => .cmp4NeOrAndcmP1P2R2R3 (.dec w)⟩,
    ⟨0x1fe000ff000#41, 0x1d600001000#41, 0x0#41, 0x1fff00fff#41, fun w _ => .cmp4LtOrAndcmP1P2R0R3 (.dec w)⟩,
    ⟨0x1ee00001000#41, 0x1ca00001000#41, 0x0#41, 0x11ffffefff#41, fun w _ => .cmpNeOrAndcmP1P2Imm8R3 (.dec w)⟩,
    ⟨0x1ee00001000#41, 0x1ce00001000#41, 0x0#41, 0x11ffffefff#41, fun w _ => .cmp4NeOrAndcmP1P2Imm8R3 (.dec w)⟩,
    ⟨0x1fff8000000#41, 0x10400000000#41, 0x7ffffff#41, 0x7ffffff#41, fun w _ => .padd1 (.dec w)⟩,
    ⟨0x1fff8000000#41, 0x10408000000#41, 0x7ffffff#41, 0x7ffffff#41, fun w _ => .padd1Sss (.dec w)⟩,
    ⟨0x1fff8000000#41, 0x10410000000#41, 0x7ffffff#41, 0x7ffffff#41, fun w _ => .padd1Uuu (.dec w)⟩,
    ⟨0x1fff8000000#41, 0x10418000000#41, 0x7ffffff#41, 0x7ffffff#41, fun w _ => .padd1Uus (.dec w)⟩,
    ⟨0x1fff8000000#41, 0x10600000000#41, 0x7ffffff#41, 0x7ffffff#41, fun w _ => .padd2 (.dec w)⟩,
    ⟨0x1fff8000000#41, 0x10608000000#41, 0x7ffffff#41, 0x7ffffff#41, fun w _ => .padd2Sss (.dec w)⟩,
    ⟨0x1fff8000000#41, 0x10610000000#41, 0x7ffffff#41, 0x7ffffff#41, fun w _ => .padd2Uuu (.dec w)⟩,
    ⟨0x1fff8000000#41, 0x10618000000#41, 0x7ffffff#41, 0x7ffffff#41, fun w _ => .padd2Uus (.dec w)⟩,
    ⟨0x1fff8000000#41, 0x11400000000#41, 0x7ffffff#41, 0x7ffffff#41, fun w _ => .padd4 (.dec w)⟩,
    ⟨0x1fff8000000#41, 0x10420000000#41, 0x7ffffff#41, 0x7ffffff#41, fun w _ => .psub1 (.dec w)⟩,
    ⟨0x1fff8000000#41, 0x10428000000#41, 0x7ffffff#41, 0x7ffffff#41, fun w _ => .psub1Sss (.dec w)⟩,
    ⟨0x1fff8000000#41, 0x10430000000#41, 0x7ffffff#41, 0x7ffffff#41, fun w _ => .psub1Uuu (.dec w)⟩,
    ⟨0x1fff8000000#41, 0x10438000000#41, 0x7ffffff#41, 0x7ffffff#41, fun w _ => .psub1Uus (.dec w)⟩,
    ⟨0x1fff8000000#41, 0x10620000000#41, 0x7ffffff#41, 0x7ffffff#41, fun w _ => .psub2 (.dec w)⟩,
    ⟨0x1fff8000000#41, 0x10628000000#41, 0x7ffffff#41, 0x7ffffff#41, fun w _ => .psub2Sss (.dec w)⟩,
    ⟨0x1fff8000000#41, 0x10630000000#41, 0x7ffffff#41, 0x7ffffff#41, fun w _ => .psub2Uuu (.dec w)⟩,
    ⟨0x1fff8000000#41, 0x10638000000#41, 0x7ffffff#41, 0x7ffffff#41, fun w _ => .psub2Uus (.dec w)⟩,
    ⟨0x1fff8000000#41, 0x11420000000#41, 0x7ffffff#41, 0x7ffffff#41, fun w _ => .psub4 (.dec w)⟩,
    ⟨0x1fff8000000#41, 0x10450000000#41, 0x7ffffff#41, 0x7ffffff#41, fun w _ => .pavg1 (.dec w)⟩,
    ⟨0x1fff8000000#41, 0x10458000000#41, 0x7ffffff#41, 0x7ffffff#41, fun w _ => .pavg1Raz (.dec w)⟩,
    ⟨0x1fff8000000#41, 0x10470000000#41, 0x7ffffff#41, 0x7ffffff#41, fun w _ => .pavgsub1 (.dec w)⟩,
    ⟨0x1fff8000000#41, 0x10650000000#41, 0x7ffffff#41, 0x7ffffff#41, fun w _ => .pavg2 (.dec w)⟩,
    ⟨0x1fff8000000#41, 0x10658000000#41, 0x7ffffff#41, 0x7ffffff#41, fun w _ => .pavg2Raz (.dec w)⟩,
    ⟨0x1fff8000000#41, 0x10670000000#41, 0x7ffffff#41, 0x7ffffff#41, fun w _ => .pavgsub2 (.dec w)⟩,
    ⟨0x1fff8000000#41, 0x10520000000#41, 0x7ffffff#41, 0x7ffffff#41, fun w _ => .pcmp1Eq (.dec w)⟩,
    ⟨0x1fff8000000#41, 0x10528000000#41, 0x7ffffff#41, 0x7ffffff#41, fun w _ => .pcmp1Gt (.dec w)⟩,
    ⟨0x1fff8000000#41, 0x10720000000#41, 0x7ffffff#41, 0x7ffffff#41, fun w _ => .pcmp2Eq (.dec w)⟩,
    ⟨0x1fff8000000#41, 0x10728000000#41, 0x7ffffff#41, 0x7ffffff#41, fun w _ => .pcmp2Gt (.dec w)⟩,
    ⟨0x1fff8000000#41, 0x11520000000#41, 0x7ffffff#41, 0x7ffffff#41, fun w _ => .pcmp4Eq (.dec w)⟩ ]

/-- Rows 120 to 122 of the table. -/
def rowsA2 : List Row :=
  [ ⟨0x1fff8000000#41, 0x11528000000#41, 0x7ffffff#41, 0x7ffffff#41, fun w _ => .pcmp4Gt (.dec w)⟩,
    ⟨0x1ffe0000000#41, 0x10680000000#41, 0x1fffffff#41, 0x1fffffff#41, fun w _ => .pshladd2 (.dec w)⟩,
    ⟨0x1ffe0000000#41, 0x106c0000000#41, 0x1fffffff#41, 0x1fffffff#41, fun w _ => .pshradd2 (.dec w)⟩ ]

/-- The rows of the A formats. -/
def rowsA : List Row := rowsA0 ++ rowsA1 ++ rowsA2

/-- Rows 133 to 181 of the table. -/
def rowsI0 : List Row :=
  [ ⟨0x1fff0000000#41, 0x0f220000000#41, 0x7ffffff#41, 0x7ffffff#41, fun w _ => .shr (.dec w)⟩,
    ⟨0x1fff0000000#41, 0x0f200000000#41, 0x7ffffff#41, 0x7ffffff#41, fun w _ => .shrU (.dec w)⟩,
    ⟨0x1fff0000000#41, 0x0f240000000#41, 0x7ffffff#41, 0x7ffffff#41, fun w _ => .shl (.dec w)⟩,
    ⟨0x1ee00000000#41, 0x0ac00000000#41, 0x0#41, 0x1ffffffff#41, fun w _ => .shrp (.dec w)⟩,
    ⟨0x1ee00002000#41, 0x0a400002000#41, 0x0#41, 0x1ffffdfff#41, fun w _ => .extr (.dec w)⟩,
    ⟨0x1ee00002000#41, 0x0a400000000#41, 0x0#41, 0x1ffffdfff#41, fun w _ => .extrU (.dec w)⟩,
    ⟨0x1ee04000000#41, 0x0a600000000#41, 0x0#41, 0x1fbffffff#41, fun w _ => .depZ (.dec w)⟩,
    ⟨0x1ee04000000#41, 0x0a604000000#41, 0x0#41, 0x11fbffffff#41, fun w _ => .depZR1Imm8 (.dec w)⟩,
    ⟨0x1ee00002000#41, 0x0ae00000000#41, 0x0#41, 0x11ffffdfff#41, fun w _ => .depR1Imm1R3 (.dec w)⟩,
    ⟨0x1e000000000#41, 0x08000000000#41, 0x0#41, 0x1fffffffff#41, fun w _ => .dep (.dec w)⟩,
    ⟨0x1fe00003000#41, 0x0a000000000#41, 0x0#41, 0x1ffffcfff#41, fun w _ => .tbitZ (.dec w)⟩,
    ⟨0x1fe00003000#41, 0x0a000002000#41, 0x0#41, 0x1fff00fff#41, fun w _ => .tnatZ (.dec w)⟩,
    ⟨0x1fe00003000#41, 0x0a000001000#41, 0x0#41, 0x1ffffcfff#41, fun w _ => .tbitZUnc (.dec w)⟩,
    ⟨0x1fe00003000#41, 0x0a000003000#41, 0x0#41, 0x1fff00fff#41, fun w _ => .tnatZUnc (.dec w)⟩,
    ⟨0x1fe00003000#41, 0x0b000000000#41, 0x0#41, 0x1ffffcfff#41, fun w _ => .tbitZAnd (.dec w)⟩,
    ⟨0x1fe00003000#41, 0x0b000002000#41, 0x0#41, 0x1fff00fff#41, fun w _ => .tnatZAnd (.dec w)⟩,
    ⟨0x1fe00003000#41, 0x0b000001000#41, 0x0#41, 0x1ffffcfff#41, fun w _ => .tbitNzAnd (.dec w)⟩,
    ⟨0x1fe00003000#41, 0x0b000003000#41, 0x0#41, 0x1fff00fff#41, fun w _ => .tnatNzAnd (.dec w)⟩,
    ⟨0x1fe00003000#41, 0x0a200000000#41, 0x0#41, 0x1ffffcfff#41, fun w _ => .tbitZOr (.dec w)⟩,
    ⟨0x1fe00003000#41, 0x0a200002000#41, 0x0#41, 0x1fff00fff#41, fun w _ => .tnatZOr (.dec w)⟩,
    ⟨0x1fe00003000#41, 0x0a200001000#41, 0x0#41, 0x1ffffcfff#41, fun w _ => .tbitNzOr (.dec w)⟩,
    ⟨0x1fe00003000#41, 0x0a200003000#41, 0x0#41, 0x1fff00fff#41, fun w _ => .tnatNzOr (.dec w)⟩,
    ⟨0x1fe00003000#41, 0x0b200000000#41, 0x0#41, 0x1ffffcfff#41, fun w _ => .tbitZOrAndcm (.dec w)⟩,
    ⟨0x1fe00003000#41, 0x0b200002000#41, 0x0#41, 0x1fff00fff#41, fun w _ => .tnatZOrAndcm (.dec w)⟩,
    ⟨0x1fe00003000#41, 0x0b200001000#41, 0x0#41, 0x1ffffcfff#41, fun w _ => .tbitNzOrAndcm (.dec w)⟩,
    ⟨0x1fe00003000#41, 0x0b200003000#41, 0x0#41, 0x1fff00fff#41, fun w _ => .tnatNzOrAndcm (.dec w)⟩,
    ⟨0x1eff8000000#41, 0x00000000000#41, 0x3f#41, 0x1003ffffff#41, fun w _ => .breakI (.dec w)⟩,
    ⟨0x1effc000000#41, 0x00008000000#41, 0x3f#41, 0x1003ffffff#41, fun w _ => .nopI (.dec w)⟩,
    ⟨0x1effc000000#41, 0x0000c000000#41, 0x3f#41, 0x1003ffffff#41, fun w _ => .hintI (.dec w)⟩,
    ⟨0x1ee00000000#41, 0x00200000000#41, 0xfe03f#41, 0x11ffffffff#41, fun w _ => .chkSI (.dec w)⟩,
    ⟨0x1ee00000000#41, 0x00e00000000#41, 0x0#41, 0x1ffbfe1ff#41, fun w _ => .movB1R2 (.dec w)⟩,
    ⟨0x1eff8000000#41, 0x00188000000#41, 0xffff#41, 0xffff#41, fun w _ => .movR1B2 (.dec w)⟩,
    ⟨0x1ee00000000#41, 0x00600000000#41, 0xfe03f#41, 0x10ff0fffff#41, fun w _ => .movPrR2Mask17 (.dec w)⟩,
    ⟨0x1ee00000000#41, 0x00400000000#41, 0x3f#41, 0x11ffffffff#41, fun w _ => .movPrRotImm44 (.dec w)⟩,
    ⟨0x1eff8000000#41, 0x00180000000#41, 0x1fff#41, 0x1fff#41, fun w _ => .movR1Ip (.dec w)⟩,
    ⟨0x1eff8000000#41, 0x00198000000#41, 0x1fff#41, 0x1fff#41, fun w _ => .movR1Pr (.dec w)⟩,
    ⟨0x1eff8000000#41, 0x00150000000#41, 0x7ffe03f#41, 0x7ffe03f#41, fun w _ => .movIAr3R2 (.dec w)⟩,
    ⟨0x1eff8000000#41, 0x00050000000#41, 0x7f0003f#41, 0x1007ffe03f#41, fun w _ => .movIAr3Imm8 (.dec w)⟩,
    ⟨0x1eff8000000#41, 0x00190000000#41, 0x7f01fff#41, 0x7f01fff#41, fun w _ => .movIR1Ar3 (.dec w)⟩,
    ⟨0x1eff8000000#41, 0x00080000000#41, 0x7f01fff#41, 0x7f01fff#41, fun w _ => .zxt1 (.dec w)⟩,
    ⟨0x1eff8000000#41, 0x00088000000#41, 0x7f01fff#41, 0x7f01fff#41, fun w _ => .zxt2 (.dec w)⟩,
    ⟨0x1eff8000000#41, 0x00090000000#41, 0x7f01fff#41, 0x7f01fff#41, fun w _ => .zxt4 (.dec w)⟩,
    ⟨0x1eff8000000#41, 0x000a0000000#41, 0x7f01fff#41, 0x7f01fff#41, fun w _ => .sxt1 (.dec w)⟩,
    ⟨0x1eff8000000#41, 0x000a8000000#41, 0x7f01fff#41, 0x7f01fff#41, fun w _ => .sxt2 (.dec w)⟩,
    ⟨0x1eff8000000#41, 0x000b0000000#41, 0x7f01fff#41, 0x7f01fff#41, fun w _ => .sxt4 (.dec w)⟩,
    ⟨0x1eff8000000#41, 0x000c0000000#41, 0x7f01fff#41, 0x7f01fff#41, fun w _ => .czx1L (.dec w)⟩,
    ⟨0x1eff8000000#41, 0x000c8000000#41, 0x7f01fff#41, 0x7f01fff#41, fun w _ => .czx2L (.dec w)⟩,
    ⟨0x1eff8000000#41, 0x000e0000000#41, 0x7f01fff#41, 0x7f01fff#41, fun w _ => .czx1R (.dec w)⟩,
    ⟨0x1eff8000000#41, 0x000e8000000#41, 0x7f01fff#41, 0x7f01fff#41, fun w _ => .czx2R (.dec w)⟩ ]

/-- The rows of the I formats. -/
def rowsI : List Row := rowsI0

/-- Rows 182 to 241 of the table. -/
def rowsM0 : List Row :=
  [ ⟨0x1ffc8000000#41, 0x08000000000#41, 0x37f01fff#41, 0x37f01fff#41, fun w _ => .ld1R1R3 (.dec w)⟩,
    ⟨0x1ffc8000000#41, 0x09000000000#41, 0x37ffffff#41, 0x37ffffff#41, fun w _ => .ld1R1R3R2 (.dec w)⟩,
    ⟨0x1efc0000000#41, 0x0a000000000#41, 0x37f01fff#41, 0x103fffffff#41, fun w _ => .ld1R1R3Imm9 (.dec w)⟩,
    ⟨0x1ffc8000000#41, 0x08040000000#41, 0x37f01fff#41, 0x37f01fff#41, fun w _ => .ld2R1R3 (.dec w)⟩,
    ⟨0x1ffc8000000#41, 0x09040000000#41, 0x37ffffff#41, 0x37ffffff#41, fun w _ => .ld2R1R3R2 (.dec w)⟩,
    ⟨0x1efc0000000#41, 0x0a040000000#41, 0x37f01fff#41, 0x103fffffff#41, fun w _ => .ld2R1R3Imm9 (.dec w)⟩,
    ⟨0x1ffc8000000#41, 0x08080000000#41, 0x37f01fff#41, 0x37f01fff#41, fun w _ => .ld4R1R3 (.dec w)⟩,
    ⟨0x1ffc8000000#41, 0x09080000000#41, 0x37ffffff#41, 0x37ffffff#41, fun w _ => .ld4R1R3R2 (.dec w)⟩,
    ⟨0x1efc0000000#41, 0x0a080000000#41, 0x37f01fff#41, 0x103fffffff#41, fun w _ => .ld4R1R3Imm9 (.dec w)⟩,
    ⟨0x1ffc8000000#41, 0x080c0000000#41, 0x37f01fff#41, 0x37f01fff#41, fun w _ => .ld8R1R3 (.dec w)⟩,
    ⟨0x1ffc8000000#41, 0x090c0000000#41, 0x37ffffff#41, 0x37ffffff#41, fun w _ => .ld8R1R3R2 (.dec w)⟩,
    ⟨0x1efc0000000#41, 0x0a0c0000000#41, 0x37f01fff#41, 0x103fffffff#41, fun w _ => .ld8R1R3Imm9 (.dec w)⟩,
    ⟨0x1ffc8000000#41, 0x08100000000#41, 0x37f01fff#41, 0x37f01fff#41, fun w _ => .ld1SR1R3 (.dec w)⟩,
    ⟨0x1ffc8000000#41, 0x09100000000#41, 0x37ffffff#41, 0x37ffffff#41, fun w _ => .ld1SR1R3R2 (.dec w)⟩,
    ⟨0x1efc0000000#41, 0x0a100000000#41, 0x37f01fff#41, 0x103fffffff#41, fun w _ => .ld1SR1R3Imm9 (.dec w)⟩,
    ⟨0x1ffc8000000#41, 0x08140000000#41, 0x37f01fff#41, 0x37f01fff#41, fun w _ => .ld2SR1R3 (.dec w)⟩,
    ⟨0x1ffc8000000#41, 0x09140000000#41, 0x37ffffff#41, 0x37ffffff#41, fun w _ => .ld2SR1R3R2 (.dec w)⟩,
    ⟨0x1efc0000000#41, 0x0a140000000#41, 0x37f01fff#41, 0x103fffffff#41, fun w _ => .ld2SR1R3Imm9 (.dec w)⟩,
    ⟨0x1ffc8000000#41, 0x08180000000#41, 0x37f01fff#41, 0x37f01fff#41, fun w _ => .ld4SR1R3 (.dec w)⟩,
    ⟨0x1ffc8000000#41, 0x09180000000#41, 0x37ffffff#41, 0x37ffffff#41, fun w _ => .ld4SR1R3R2 (.dec w)⟩,
    ⟨0x1efc0000000#41, 0x0a180000000#41, 0x37f01fff#41, 0x103fffffff#41, fun w _ => .ld4SR1R3Imm9 (.dec w)⟩,
    ⟨0x1ffc8000000#41, 0x081c0000000#41, 0x37f01fff#41, 0x37f01fff#41, fun w _ => .ld8SR1R3 (.dec w)⟩,
    ⟨0x1ffc8000000#41, 0x091c0000000#41, 0x37ffffff#41, 0x37ffffff#41, fun w _ => .ld8SR1R3R2 (.dec w)⟩,
    ⟨0x1efc0000000#41, 0x0a1c0000000#41, 0x37f01fff#41, 0x103fffffff#41, fun w _ => .ld8SR1R3Imm9 (.dec w)⟩,
    ⟨0x1ffc8000000#41, 0x08200000000#41, 0x37f01fff#41, 0x37f01fff#41, fun w _ => .ld1AR1R3 (.dec w)⟩,
    ⟨0x1ffc8000000#41, 0x09200000000#41, 0x37ffffff#41, 0x37ffffff#41, fun w _ => .ld1AR1R3R2 (.dec w)⟩,
    ⟨0x1efc0000000#41, 0x0a200000000#41, 0x37f01fff#41, 0x103fffffff#41, fun w _ => .ld1AR1R3Imm9 (.dec w)⟩,
    ⟨0x1ffc8000000#41, 0x08240000000#41, 0x37f01fff#41, 0x37f01fff#41, fun w _ => .ld2AR1R3 (.dec w)⟩,
    ⟨0x1ffc8000000#41, 0x09240000000#41, 0x37ffffff#41, 0x37ffffff#41, fun w _ => .ld2AR1R3R2 (.dec w)⟩,
    ⟨0x1efc0000000#41, 0x0a240000000#41, 0x37f01fff#41, 0x103fffffff#41, fun w _ => .ld2AR1R3Imm9 (.dec w)⟩,
    ⟨0x1ffc8000000#41, 0x08280000000#41, 0x37f01fff#41, 0x37f01fff#41, fun w _ => .ld4AR1R3 (.dec w)⟩,
    ⟨0x1ffc8000000#41, 0x09280000000#41, 0x37ffffff#41, 0x37ffffff#41, fun w _ => .ld4AR1R3R2 (.dec w)⟩,
    ⟨0x1efc0000000#41, 0x0a280000000#41, 0x37f01fff#41, 0x103fffffff#41, fun w _ => .ld4AR1R3Imm9 (.dec w)⟩,
    ⟨0x1ffc8000000#41, 0x082c0000000#41, 0x37f01fff#41, 0x37f01fff#41, fun w _ => .ld8AR1R3 (.dec w)⟩,
    ⟨0x1ffc8000000#41, 0x092c0000000#41, 0x37ffffff#41, 0x37ffffff#41, fun w _ => .ld8AR1R3R2 (.dec w)⟩,
    ⟨0x1efc0000000#41, 0x0a2c0000000#41, 0x37f01fff#41, 0x103fffffff#41, fun w _ => .ld8AR1R3Imm9 (.dec w)⟩,
    ⟨0x1ffc8000000#41, 0x08300000000#41, 0x37f01fff#41, 0x37f01fff#41, fun w _ => .ld1SaR1R3 (.dec w)⟩,
    ⟨0x1ffc8000000#41, 0x09300000000#41, 0x37ffffff#41, 0x37ffffff#41, fun w _ => .ld1SaR1R3R2 (.dec w)⟩,
    ⟨0x1efc0000000#41, 0x0a300000000#41, 0x37f01fff#41, 0x103fffffff#41, fun w _ => .ld1SaR1R3Imm9 (.dec w)⟩,
    ⟨0x1ffc8000000#41, 0x08340000000#41, 0x37f01fff#41, 0x37f01fff#41, fun w _ => .ld2SaR1R3 (.dec w)⟩,
    ⟨0x1ffc8000000#41, 0x09340000000#41, 0x37ffffff#41, 0x37ffffff#41, fun w _ => .ld2SaR1R3R2 (.dec w)⟩,
    ⟨0x1efc0000000#41, 0x0a340000000#41, 0x37f01fff#41, 0x103fffffff#41, fun w _ => .ld2SaR1R3Imm9 (.dec w)⟩,
    ⟨0x1ffc8000000#41, 0x08380000000#41, 0x37f01fff#41, 0x37f01fff#41, fun w _ => .ld4SaR1R3 (.dec w)⟩,
    ⟨0x1ffc8000000#41, 0x09380000000#41, 0x37ffffff#41, 0x37ffffff#41, fun w _ => .ld4SaR1R3R2 (.dec w)⟩,
    ⟨0x1efc0000000#41, 0x0a380000000#41, 0x37f01fff#41, 0x103fffffff#41, fun w _ => .ld4SaR1R3Imm9 (.dec w)⟩,
    ⟨0x1ffc8000000#41, 0x083c0000000#41, 0x37f01fff#41, 0x37f01fff#41, fun w _ => .ld8SaR1R3 (.dec w)⟩,
    ⟨0x1ffc8000000#41, 0x093c0000000#41, 0x37ffffff#41, 0x37ffffff#41, fun w _ => .ld8SaR1R3R2 (.dec w)⟩,
    ⟨0x1efc0000000#41, 0x0a3c0000000#41, 0x37f01fff#41, 0x103fffffff#41, fun w _ => .ld8SaR1R3Imm9 (.dec w)⟩,
    ⟨0x1ffc8000000#41, 0x08400000000#41, 0x37f01fff#41, 0x37f01fff#41, fun w _ => .ld1BiasR1R3 (.dec w)⟩,
    ⟨0x1ffc8000000#41, 0x09400000000#41, 0x37ffffff#41, 0x37ffffff#41, fun w _ => .ld1BiasR1R3R2 (.dec w)⟩,
    ⟨0x1efc0000000#41, 0x0a400000000#41, 0x37f01fff#41, 0x103fffffff#41, fun w _ => .ld1BiasR1R3Imm9 (.dec w)⟩,
    ⟨0x1ffc8000000#41, 0x08440000000#41, 0x37f01fff#41, 0x37f01fff#41, fun w _ => .ld2BiasR1R3 (.dec w)⟩,
    ⟨0x1ffc8000000#41, 0x09440000000#41, 0x37ffffff#41, 0x37ffffff#41, fun w _ => .ld2BiasR1R3R2 (.dec w)⟩,
    ⟨0x1efc0000000#41, 0x0a440000000#41, 0x37f01fff#41, 0x103fffffff#41, fun w _ => .ld2BiasR1R3Imm9 (.dec w)⟩,
    ⟨0x1ffc8000000#41, 0x08480000000#41, 0x37f01fff#41, 0x37f01fff#41, fun w _ => .ld4BiasR1R3 (.dec w)⟩,
    ⟨0x1ffc8000000#41, 0x09480000000#41, 0x37ffffff#41, 0x37ffffff#41, fun w _ => .ld4BiasR1R3R2 (.dec w)⟩,
    ⟨0x1efc0000000#41, 0x0a480000000#41, 0x37f01fff#41, 0x103fffffff#41, fun w _ => .ld4BiasR1R3Imm9 (.dec w)⟩,
    ⟨0x1ffc8000000#41, 0x084c0000000#41, 0x37f01fff#41, 0x37f01fff#41, fun w _ => .ld8BiasR1R3 (.dec w)⟩,
    ⟨0x1ffc8000000#41, 0x094c0000000#41, 0x37ffffff#41, 0x37ffffff#41, fun w _ => .ld8BiasR1R3R2 (.dec w)⟩,
    ⟨0x1efc0000000#41, 0x0a4c0000000#41, 0x37f01fff#41, 0x103fffffff#41, fun w _ => .ld8BiasR1R3Imm9 (.dec w)⟩ ]

/-- Rows 242 to 301 of the table. -/
def rowsM1 : List Row :=
  [ ⟨0x1ffc8000000#41, 0x08500000000#41, 0x37f01fff#41, 0x37f01fff#41, fun w _ => .ld1AcqR1R3 (.dec w)⟩,
    ⟨0x1ffc8000000#41, 0x09500000000#41, 0x37ffffff#41, 0x37ffffff#41, fun w _ => .ld1AcqR1R3R2 (.dec w)⟩,
    ⟨0x1efc0000000#41, 0x0a500000000#41, 0x37f01fff#41, 0x103fffffff#41, fun w _ => .ld1AcqR1R3Imm9 (.dec w)⟩,
    ⟨0x1ffc8000000#41, 0x08540000000#41, 0x37f01fff#41, 0x37f01fff#41, fun w _ => .ld2AcqR1R3 (.dec w)⟩,
    ⟨0x1ffc8000000#41, 0x09540000000#41, 0x37ffffff#41, 0x37ffffff#41, fun w _ => .ld2AcqR1R3R2 (.dec w)⟩,
    ⟨0x1efc0000000#41, 0x0a540000000#41, 0x37f01fff#41, 0x103fffffff#41, fun w _ => .ld2AcqR1R3Imm9 (.dec w)⟩,
    ⟨0x1ffc8000000#41, 0x08580000000#41, 0x37f01fff#41, 0x37f01fff#41, fun w _ => .ld4AcqR1R3 (.dec w)⟩,
    ⟨0x1ffc8000000#41, 0x09580000000#41, 0x37ffffff#41, 0x37ffffff#41, fun w _ => .ld4AcqR1R3R2 (.dec w)⟩,
    ⟨0x1efc0000000#41, 0x0a580000000#41, 0x37f01fff#41, 0x103fffffff#41, fun w _ => .ld4AcqR1R3Imm9 (.dec w)⟩,
    ⟨0x1ffc8000000#41, 0x085c0000000#41, 0x37f01fff#41, 0x37f01fff#41, fun w _ => .ld8AcqR1R3 (.dec w)⟩,
    ⟨0x1ffc8000000#41, 0x095c0000000#41, 0x37ffffff#41, 0x37ffffff#41, fun w _ => .ld8AcqR1R3R2 (.dec w)⟩,
    ⟨0x1efc0000000#41, 0x0a5c0000000#41, 0x37f01fff#41, 0x103fffffff#41, fun w _ => .ld8AcqR1R3Imm9 (.dec w)⟩,
    ⟨0x1ffc8000000#41, 0x08800000000#41, 0x37f01fff#41, 0x37f01fff#41, fun w _ => .ld1CClrR1R3 (.dec w)⟩,
    ⟨0x1ffc8000000#41, 0x09800000000#41, 0x37ffffff#41, 0x37ffffff#41, fun w _ => .ld1CClrR1R3R2 (.dec w)⟩,
    ⟨0x1efc0000000#41, 0x0a800000000#41, 0x37f01fff#41, 0x103fffffff#41, fun w _ => .ld1CClrR1R3Imm9 (.dec w)⟩,
    ⟨0x1ffc8000000#41, 0x08840000000#41, 0x37f01fff#41, 0x37f01fff#41, fun w _ => .ld2CClrR1R3 (.dec w)⟩,
    ⟨0x1ffc8000000#41, 0x09840000000#41, 0x37ffffff#41, 0x37ffffff#41, fun w _ => .ld2CClrR1R3R2 (.dec w)⟩,
    ⟨0x1efc0000000#41, 0x0a840000000#41, 0x37f01fff#41, 0x103fffffff#41, fun w _ => .ld2CClrR1R3Imm9 (.dec w)⟩,
    ⟨0x1ffc8000000#41, 0x08880000000#41, 0x37f01fff#41, 0x37f01fff#41, fun w _ => .ld4CClrR1R3 (.dec w)⟩,
    ⟨0x1ffc8000000#41, 0x09880000000#41, 0x37ffffff#41, 0x37ffffff#41, fun w _ => .ld4CClrR1R3R2 (.dec w)⟩,
    ⟨0x1efc0000000#41, 0x0a880000000#41, 0x37f01fff#41, 0x103fffffff#41, fun w _ => .ld4CClrR1R3Imm9 (.dec w)⟩,
    ⟨0x1ffc8000000#41, 0x088c0000000#41, 0x37f01fff#41, 0x37f01fff#41, fun w _ => .ld8CClrR1R3 (.dec w)⟩,
    ⟨0x1ffc8000000#41, 0x098c0000000#41, 0x37ffffff#41, 0x37ffffff#41, fun w _ => .ld8CClrR1R3R2 (.dec w)⟩,
    ⟨0x1efc0000000#41, 0x0a8c0000000#41, 0x37f01fff#41, 0x103fffffff#41, fun w _ => .ld8CClrR1R3Imm9 (.dec w)⟩,
    ⟨0x1ffc8000000#41, 0x08900000000#41, 0x37f01fff#41, 0x37f01fff#41, fun w _ => .ld1CNcR1R3 (.dec w)⟩,
    ⟨0x1ffc8000000#41, 0x09900000000#41, 0x37ffffff#41, 0x37ffffff#41, fun w _ => .ld1CNcR1R3R2 (.dec w)⟩,
    ⟨0x1efc0000000#41, 0x0a900000000#41, 0x37f01fff#41, 0x103fffffff#41, fun w _ => .ld1CNcR1R3Imm9 (.dec w)⟩,
    ⟨0x1ffc8000000#41, 0x08940000000#41, 0x37f01fff#41, 0x37f01fff#41, fun w _ => .ld2CNcR1R3 (.dec w)⟩,
    ⟨0x1ffc8000000#41, 0x09940000000#41, 0x37ffffff#41, 0x37ffffff#41, fun w _ => .ld2CNcR1R3R2 (.dec w)⟩,
    ⟨0x1efc0000000#41, 0x0a940000000#41, 0x37f01fff#41, 0x103fffffff#41, fun w _ => .ld2CNcR1R3Imm9 (.dec w)⟩,
    ⟨0x1ffc8000000#41, 0x08980000000#41, 0x37f01fff#41, 0x37f01fff#41, fun w _ => .ld4CNcR1R3 (.dec w)⟩,
    ⟨0x1ffc8000000#41, 0x09980000000#41, 0x37ffffff#41, 0x37ffffff#41, fun w _ => .ld4CNcR1R3R2 (.dec w)⟩,
    ⟨0x1efc0000000#41, 0x0a980000000#41, 0x37f01fff#41, 0x103fffffff#41, fun w _ => .ld4CNcR1R3Imm9 (.dec w)⟩,
    ⟨0x1ffc8000000#41, 0x089c0000000#41, 0x37f01fff#41, 0x37f01fff#41, fun w _ => .ld8CNcR1R3 (.dec w)⟩,
    ⟨0x1ffc8000000#41, 0x099c0000000#41, 0x37ffffff#41, 0x37ffffff#41, fun w _ => .ld8CNcR1R3R2 (.dec w)⟩,
    ⟨0x1efc0000000#41, 0x0a9c0000000#41, 0x37f01fff#41, 0x103fffffff#41, fun w _ => .ld8CNcR1R3Imm9 (.dec w)⟩,
    ⟨0x1ffc8000000#41, 0x08a00000000#41, 0x37f01fff#41, 0x37f01fff#41, fun w _ => .ld1CClrAcqR1R3 (.dec w)⟩,
    ⟨0x1ffc8000000#41, 0x09a00000000#41, 0x37ffffff#41, 0x37ffffff#41, fun w _ => .ld1CClrAcqR1R3R2 (.dec w)⟩,
    ⟨0x1efc0000000#41, 0x0aa00000000#41, 0x37f01fff#41, 0x103fffffff#41, fun w _ => .ld1CClrAcqR1R3Imm9 (.dec w)⟩,
    ⟨0x1ffc8000000#41, 0x08a40000000#41, 0x37f01fff#41, 0x37f01fff#41, fun w _ => .ld2CClrAcqR1R3 (.dec w)⟩,
    ⟨0x1ffc8000000#41, 0x09a40000000#41, 0x37ffffff#41, 0x37ffffff#41, fun w _ => .ld2CClrAcqR1R3R2 (.dec w)⟩,
    ⟨0x1efc0000000#41, 0x0aa40000000#41, 0x37f01fff#41, 0x103fffffff#41, fun w _ => .ld2CClrAcqR1R3Imm9 (.dec w)⟩,
    ⟨0x1ffc8000000#41, 0x08a80000000#41, 0x37f01fff#41, 0x37f01fff#41, fun w _ => .ld4CClrAcqR1R3 (.dec w)⟩,
    ⟨0x1ffc8000000#41, 0x09a80000000#41, 0x37ffffff#41, 0x37ffffff#41, fun w _ => .ld4CClrAcqR1R3R2 (.dec w)⟩,
    ⟨0x1efc0000000#41, 0x0aa80000000#41, 0x37f01fff#41, 0x103fffffff#41, fun w _ => .ld4CClrAcqR1R3Imm9 (.dec w)⟩,
    ⟨0x1ffc8000000#41, 0x08ac0000000#41, 0x37f01fff#41, 0x37f01fff#41, fun w _ => .ld8CClrAcqR1R3 (.dec w)⟩,
    ⟨0x1ffc8000000#41, 0x09ac0000000#41, 0x37ffffff#41, 0x37ffffff#41, fun w _ => .ld8CClrAcqR1R3R2 (.dec w)⟩,
    ⟨0x1efc0000000#41, 0x0aac0000000#41, 0x37f01fff#41, 0x103fffffff#41, fun w _ => .ld8CClrAcqR1R3Imm9 (.dec w)⟩,
    ⟨0x1ffc8000000#41, 0x086c0000000#41, 0x37f01fff#41, 0x37f01fff#41, fun w _ => .ld8FillR1R3 (.dec w)⟩,
    ⟨0x1ffc8000000#41, 0x096c0000000#41, 0x37ffffff#41, 0x37ffffff#41, fun w _ => .ld8FillR1R3R2 (.dec w)⟩,
    ⟨0x1efc0000000#41, 0x0a6c0000000#41, 0x37f01fff#41, 0x103fffffff#41, fun w _ => .ld8FillR1R3Imm9 (.dec w)⟩,
    ⟨0x1ffc8000000#41, 0x08a08000000#41, 0x37f01fff#41, 0x37f01fff#41, fun w _ => .ld16R1ArCsdR3 (.dec w)⟩,
    ⟨0x1ffc8000000#41, 0x08b08000000#41, 0x37f01fff#41, 0x37f01fff#41, fun w _ => .ld16AcqR1ArCsdR3 (.dec w)⟩,
    ⟨0x1ffc8000000#41, 0x08c00000000#41, 0x37ffe03f#41, 0x37ffe03f#41, fun w _ => .st1R3R2 (.dec w)⟩,
    ⟨0x1efc0000000#41, 0x0ac00000000#41, 0x37ffe03f#41, 0x103fffffff#41, fun w _ => .st1R3R2Imm9 (.dec w)⟩,
    ⟨0x1ffc8000000#41, 0x08c40000000#41, 0x37ffe03f#41, 0x37ffe03f#41, fun w _ => .st2R3R2 (.dec w)⟩,
    ⟨0x1efc0000000#41, 0x0ac40000000#41, 0x37ffe03f#41, 0x103fffffff#41, fun w _ => .st2R3R2Imm9 (.dec w)⟩,
    ⟨0x1ffc8000000#41, 0x08c80000000#41, 0x37ffe03f#41, 0x37ffe03f#41, fun w _ => .st4R3R2 (.dec w)⟩,
    ⟨0x1efc0000000#41, 0x0ac80000000#41, 0x37ffe03f#41, 0x103fffffff#41, fun w _ => .st4R3R2Imm9 (.dec w)⟩,
    ⟨0x1ffc8000000#41, 0x08cc0000000#41, 0x37ffe03f#41, 0x37ffe03f#41, fun w _ => .st8R3R2 (.dec w)⟩ ]

/-- Rows 302 to 361 of the table. -/
def rowsM2 : List Row :=
  [ ⟨0x1efc0000000#41, 0x0acc0000000#41, 0x37ffe03f#41, 0x103fffffff#41, fun w _ => .st8R3R2Imm9 (.dec w)⟩,
    ⟨0x1ffc8000000#41, 0x08d00000000#41, 0x37ffe03f#41, 0x37ffe03f#41, fun w _ => .st1RelR3R2 (.dec w)⟩,
    ⟨0x1efc0000000#41, 0x0ad00000000#41, 0x37ffe03f#41, 0x103fffffff#41, fun w _ => .st1RelR3R2Imm9 (.dec w)⟩,
    ⟨0x1ffc8000000#41, 0x08d40000000#41, 0x37ffe03f#41, 0x37ffe03f#41, fun w _ => .st2RelR3R2 (.dec w)⟩,
    ⟨0x1efc0000000#41, 0x0ad40000000#41, 0x37ffe03f#41, 0x103fffffff#41, fun w _ => .st2RelR3R2Imm9 (.dec w)⟩,
    ⟨0x1ffc8000000#41, 0x08d80000000#41, 0x37ffe03f#41, 0x37ffe03f#41, fun w _ => .st4RelR3R2 (.dec w)⟩,
    ⟨0x1efc0000000#41, 0x0ad80000000#41, 0x37ffe03f#41, 0x103fffffff#41, fun w _ => .st4RelR3R2Imm9 (.dec w)⟩,
    ⟨0x1ffc8000000#41, 0x08dc0000000#41, 0x37ffe03f#41, 0x37ffe03f#41, fun w _ => .st8RelR3R2 (.dec w)⟩,
    ⟨0x1efc0000000#41, 0x0adc0000000#41, 0x37ffe03f#41, 0x103fffffff#41, fun w _ => .st8RelR3R2Imm9 (.dec w)⟩,
    ⟨0x1ffc8000000#41, 0x08ec0000000#41, 0x37ffe03f#41, 0x37ffe03f#41, fun w _ => .st8SpillR3R2 (.dec w)⟩,
    ⟨0x1efc0000000#41, 0x0aec0000000#41, 0x37ffe03f#41, 0x103fffffff#41, fun w _ => .st8SpillR3R2Imm9 (.dec w)⟩,
    ⟨0x1ffc8000000#41, 0x08c08000000#41, 0x37ffe03f#41, 0x37ffe03f#41, fun w _ => .st16R3R2ArCsd (.dec w)⟩,
    ⟨0x1ffc8000000#41, 0x08d08000000#41, 0x37ffe03f#41, 0x37ffe03f#41, fun w _ => .st16RelR3R2ArCsd (.dec w)⟩,
    ⟨0x1ffc8000000#41, 0x0c000000000#41, 0x37f01fff#41, 0x37f01fff#41, fun w _ => .ldfeF1R3 (.dec w)⟩,
    ⟨0x1ffc8000000#41, 0x0d000000000#41, 0x37ffffff#41, 0x37ffffff#41, fun w _ => .ldfeF1R3R2 (.dec w)⟩,
    ⟨0x1efc0000000#41, 0x0e000000000#41, 0x37f01fff#41, 0x103fffffff#41, fun w _ => .ldfeF1R3Imm9 (.dec w)⟩,
    ⟨0x1ffc8000000#41, 0x0c040000000#41, 0x37f01fff#41, 0x37f01fff#41, fun w _ => .ldf8F1R3 (.dec w)⟩,
    ⟨0x1ffc8000000#41, 0x0d040000000#41, 0x37ffffff#41, 0x37ffffff#41, fun w _ => .ldf8F1R3R2 (.dec w)⟩,
    ⟨0x1efc0000000#41, 0x0e040000000#41, 0x37f01fff#41, 0x103fffffff#41, fun w _ => .ldf8F1R3Imm9 (.dec w)⟩,
    ⟨0x1ffc8000000#41, 0x0c080000000#41, 0x37f01fff#41, 0x37f01fff#41, fun w _ => .ldfsF1R3 (.dec w)⟩,
    ⟨0x1ffc8000000#41, 0x0d080000000#41, 0x37ffffff#41, 0x37ffffff#41, fun w _ => .ldfsF1R3R2 (.dec w)⟩,
    ⟨0x1efc0000000#41, 0x0e080000000#41, 0x37f01fff#41, 0x103fffffff#41, fun w _ => .ldfsF1R3Imm9 (.dec w)⟩,
    ⟨0x1ffc8000000#41, 0x0c0c0000000#41, 0x37f01fff#41, 0x37f01fff#41, fun w _ => .ldfdF1R3 (.dec w)⟩,
    ⟨0x1ffc8000000#41, 0x0d0c0000000#41, 0x37ffffff#41, 0x37ffffff#41, fun w _ => .ldfdF1R3R2 (.dec w)⟩,
    ⟨0x1efc0000000#41, 0x0e0c0000000#41, 0x37f01fff#41, 0x103fffffff#41, fun w _ => .ldfdF1R3Imm9 (.dec w)⟩,
    ⟨0x1ffc8000000#41, 0x0c100000000#41, 0x37f01fff#41, 0x37f01fff#41, fun w _ => .ldfeSF1R3 (.dec w)⟩,
    ⟨0x1ffc8000000#41, 0x0d100000000#41, 0x37ffffff#41, 0x37ffffff#41, fun w _ => .ldfeSF1R3R2 (.dec w)⟩,
    ⟨0x1efc0000000#41, 0x0e100000000#41, 0x37f01fff#41, 0x103fffffff#41, fun w _ => .ldfeSF1R3Imm9 (.dec w)⟩,
    ⟨0x1ffc8000000#41, 0x0c140000000#41, 0x37f01fff#41, 0x37f01fff#41, fun w _ => .ldf8SF1R3 (.dec w)⟩,
    ⟨0x1ffc8000000#41, 0x0d140000000#41, 0x37ffffff#41, 0x37ffffff#41, fun w _ => .ldf8SF1R3R2 (.dec w)⟩,
    ⟨0x1efc0000000#41, 0x0e140000000#41, 0x37f01fff#41, 0x103fffffff#41, fun w _ => .ldf8SF1R3Imm9 (.dec w)⟩,
    ⟨0x1ffc8000000#41, 0x0c180000000#41, 0x37f01fff#41, 0x37f01fff#41, fun w _ => .ldfsSF1R3 (.dec w)⟩,
    ⟨0x1ffc8000000#41, 0x0d180000000#41, 0x37ffffff#41, 0x37ffffff#41, fun w _ => .ldfsSF1R3R2 (.dec w)⟩,
    ⟨0x1efc0000000#41, 0x0e180000000#41, 0x37f01fff#41, 0x103fffffff#41, fun w _ => .ldfsSF1R3Imm9 (.dec w)⟩,
    ⟨0x1ffc8000000#41, 0x0c1c0000000#41, 0x37f01fff#41, 0x37f01fff#41, fun w _ => .ldfdSF1R3 (.dec w)⟩,
    ⟨0x1ffc8000000#41, 0x0d1c0000000#41, 0x37ffffff#41, 0x37ffffff#41, fun w _ => .ldfdSF1R3R2 (.dec w)⟩,
    ⟨0x1efc0000000#41, 0x0e1c0000000#41, 0x37f01fff#41, 0x103fffffff#41, fun w _ => .ldfdSF1R3Imm9 (.dec w)⟩,
    ⟨0x1ffc8000000#41, 0x0c200000000#41, 0x37f01fff#41, 0x37f01fff#41, fun w _ => .ldfeAF1R3 (.dec w)⟩,
    ⟨0x1ffc8000000#41, 0x0d200000000#41, 0x37ffffff#41, 0x37ffffff#41, fun w _ => .ldfeAF1R3R2 (.dec w)⟩,
    ⟨0x1efc0000000#41, 0x0e200000000#41, 0x37f01fff#41, 0x103fffffff#41, fun w _ => .ldfeAF1R3Imm9 (.dec w)⟩,
    ⟨0x1ffc8000000#41, 0x0c240000000#41, 0x37f01fff#41, 0x37f01fff#41, fun w _ => .ldf8AF1R3 (.dec w)⟩,
    ⟨0x1ffc8000000#41, 0x0d240000000#41, 0x37ffffff#41, 0x37ffffff#41, fun w _ => .ldf8AF1R3R2 (.dec w)⟩,
    ⟨0x1efc0000000#41, 0x0e240000000#41, 0x37f01fff#41, 0x103fffffff#41, fun w _ => .ldf8AF1R3Imm9 (.dec w)⟩,
    ⟨0x1ffc8000000#41, 0x0c280000000#41, 0x37f01fff#41, 0x37f01fff#41, fun w _ => .ldfsAF1R3 (.dec w)⟩,
    ⟨0x1ffc8000000#41, 0x0d280000000#41, 0x37ffffff#41, 0x37ffffff#41, fun w _ => .ldfsAF1R3R2 (.dec w)⟩,
    ⟨0x1efc0000000#41, 0x0e280000000#41, 0x37f01fff#41, 0x103fffffff#41, fun w _ => .ldfsAF1R3Imm9 (.dec w)⟩,
    ⟨0x1ffc8000000#41, 0x0c2c0000000#41, 0x37f01fff#41, 0x37f01fff#41, fun w _ => .ldfdAF1R3 (.dec w)⟩,
    ⟨0x1ffc8000000#41, 0x0d2c0000000#41, 0x37ffffff#41, 0x37ffffff#41, fun w _ => .ldfdAF1R3R2 (.dec w)⟩,
    ⟨0x1efc0000000#41, 0x0e2c0000000#41, 0x37f01fff#41, 0x103fffffff#41, fun w _ => .ldfdAF1R3Imm9 (.dec w)⟩,
    ⟨0x1ffc8000000#41, 0x0c300000000#41, 0x37f01fff#41, 0x37f01fff#41, fun w _ => .ldfeSaF1R3 (.dec w)⟩,
    ⟨0x1ffc8000000#41, 0x0d300000000#41, 0x37ffffff#41, 0x37ffffff#41, fun w _ => .ldfeSaF1R3R2 (.dec w)⟩,
    ⟨0x1efc0000000#41, 0x0e300000000#41, 0x37f01fff#41, 0x103fffffff#41, fun w _ => .ldfeSaF1R3Imm9 (.dec w)⟩,
    ⟨0x1ffc8000000#41, 0x0c340000000#41, 0x37f01fff#41, 0x37f01fff#41, fun w _ => .ldf8SaF1R3 (.dec w)⟩,
    ⟨0x1ffc8000000#41, 0x0d340000000#41, 0x37ffffff#41, 0x37ffffff#41, fun w _ => .ldf8SaF1R3R2 (.dec w)⟩,
    ⟨0x1efc0000000#41, 0x0e340000000#41, 0x37f01fff#41, 0x103fffffff#41, fun w _ => .ldf8SaF1R3Imm9 (.dec w)⟩,
    ⟨0x1ffc8000000#41, 0x0c380000000#41, 0x37f01fff#41, 0x37f01fff#41, fun w _ => .ldfsSaF1R3 (.dec w)⟩,
    ⟨0x1ffc8000000#41, 0x0d380000000#41, 0x37ffffff#41, 0x37ffffff#41, fun w _ => .ldfsSaF1R3R2 (.dec w)⟩,
    ⟨0x1efc0000000#41, 0x0e380000000#41, 0x37f01fff#41, 0x103fffffff#41, fun w _ => .ldfsSaF1R3Imm9 (.dec w)⟩,
    ⟨0x1ffc8000000#41, 0x0c3c0000000#41, 0x37f01fff#41, 0x37f01fff#41, fun w _ => .ldfdSaF1R3 (.dec w)⟩,
    ⟨0x1ffc8000000#41, 0x0d3c0000000#41, 0x37ffffff#41, 0x37ffffff#41, fun w _ => .ldfdSaF1R3R2 (.dec w)⟩ ]

/-- Rows 362 to 421 of the table. -/
def rowsM3 : List Row :=
  [ ⟨0x1efc0000000#41, 0x0e3c0000000#41, 0x37f01fff#41, 0x103fffffff#41, fun w _ => .ldfdSaF1R3Imm9 (.dec w)⟩,
    ⟨0x1ffc8000000#41, 0x0c800000000#41, 0x37f01fff#41, 0x37f01fff#41, fun w _ => .ldfeCClrF1R3 (.dec w)⟩,
    ⟨0x1ffc8000000#41, 0x0d800000000#41, 0x37ffffff#41, 0x37ffffff#41, fun w _ => .ldfeCClrF1R3R2 (.dec w)⟩,
    ⟨0x1efc0000000#41, 0x0e800000000#41, 0x37f01fff#41, 0x103fffffff#41, fun w _ => .ldfeCClrF1R3Imm9 (.dec w)⟩,
    ⟨0x1ffc8000000#41, 0x0c840000000#41, 0x37f01fff#41, 0x37f01fff#41, fun w _ => .ldf8CClrF1R3 (.dec w)⟩,
    ⟨0x1ffc8000000#41, 0x0d840000000#41, 0x37ffffff#41, 0x37ffffff#41, fun w _ => .ldf8CClrF1R3R2 (.dec w)⟩,
    ⟨0x1efc0000000#41, 0x0e840000000#41, 0x37f01fff#41, 0x103fffffff#41, fun w _ => .ldf8CClrF1R3Imm9 (.dec w)⟩,
    ⟨0x1ffc8000000#41, 0x0c880000000#41, 0x37f01fff#41, 0x37f01fff#41, fun w _ => .ldfsCClrF1R3 (.dec w)⟩,
    ⟨0x1ffc8000000#41, 0x0d880000000#41, 0x37ffffff#41, 0x37ffffff#41, fun w _ => .ldfsCClrF1R3R2 (.dec w)⟩,
    ⟨0x1efc0000000#41, 0x0e880000000#41, 0x37f01fff#41, 0x103fffffff#41, fun w _ => .ldfsCClrF1R3Imm9 (.dec w)⟩,
    ⟨0x1ffc8000000#41, 0x0c8c0000000#41, 0x37f01fff#41, 0x37f01fff#41, fun w _ => .ldfdCClrF1R3 (.dec w)⟩,
    ⟨0x1ffc8000000#41, 0x0d8c0000000#41, 0x37ffffff#41, 0x37ffffff#41, fun w _ => .ldfdCClrF1R3R2 (.dec w)⟩,
    ⟨0x1efc0000000#41, 0x0e8c0000000#41, 0x37f01fff#41, 0x103fffffff#41, fun w _ => .ldfdCClrF1R3Imm9 (.dec w)⟩,
    ⟨0x1ffc8000000#41, 0x0c900000000#41, 0x37f01fff#41, 0x37f01fff#41, fun w _ => .ldfeCNcF1R3 (.dec w)⟩,
    ⟨0x1ffc8000000#41, 0x0d900000000#41, 0x37ffffff#41, 0x37ffffff#41, fun w _ => .ldfeCNcF1R3R2 (.dec w)⟩,
    ⟨0x1efc0000000#41, 0x0e900000000#41, 0x37f01fff#41, 0x103fffffff#41, fun w _ => .ldfeCNcF1R3Imm9 (.dec w)⟩,
    ⟨0x1ffc8000000#41, 0x0c940000000#41, 0x37f01fff#41, 0x37f01fff#41, fun w _ => .ldf8CNcF1R3 (.dec w)⟩,
    ⟨0x1ffc8000000#41, 0x0d940000000#41, 0x37ffffff#41, 0x37ffffff#41, fun w _ => .ldf8CNcF1R3R2 (.dec w)⟩,
    ⟨0x1efc0000000#41, 0x0e940000000#41, 0x37f01fff#41, 0x103fffffff#41, fun w _ => .ldf8CNcF1R3Imm9 (.dec w)⟩,
    ⟨0x1ffc8000000#41, 0x0c980000000#41, 0x37f01fff#41, 0x37f01fff#41, fun w _ => .ldfsCNcF1R3 (.dec w)⟩,
    ⟨0x1ffc8000000#41, 0x0d980000000#41, 0x37ffffff#41, 0x37ffffff#41, fun w _ => .ldfsCNcF1R3R2 (.dec w)⟩,
    ⟨0x1efc0000000#41, 0x0e980000000#41, 0x37f01fff#41, 0x103fffffff#41, fun w _ => .ldfsCNcF1R3Imm9 (.dec w)⟩,
    ⟨0x1ffc8000000#41, 0x0c9c0000000#41, 0x37f01fff#41, 0x37f01fff#41, fun w _ => .ldfdCNcF1R3 (.dec w)⟩,
    ⟨0x1ffc8000000#41, 0x0d9c0000000#41, 0x37ffffff#41, 0x37ffffff#41, fun w _ => .ldfdCNcF1R3R2 (.dec w)⟩,
    ⟨0x1efc0000000#41, 0x0e9c0000000#41, 0x37f01fff#41, 0x103fffffff#41, fun w _ => .ldfdCNcF1R3Imm9 (.dec w)⟩,
    ⟨0x1ffc8000000#41, 0x0c6c0000000#41, 0x37f01fff#41, 0x37f01fff#41, fun w _ => .ldfFillF1R3 (.dec w)⟩,
    ⟨0x1ffc8000000#41, 0x0d6c0000000#41, 0x37ffffff#41, 0x37ffffff#41, fun w _ => .ldfFillF1R3R2 (.dec w)⟩,
    ⟨0x1efc0000000#41, 0x0e6c0000000#41, 0x37f01fff#41, 0x103fffffff#41, fun w _ => .ldfFillF1R3Imm9 (.dec w)⟩,
    ⟨0x1ffc8000000#41, 0x0cc00000000#41, 0x37ffe03f#41, 0x37ffe03f#41, fun w _ => .stfeR3F2 (.dec w)⟩,
    ⟨0x1efc0000000#41, 0x0ec00000000#41, 0x37ffe03f#41, 0x103fffffff#41, fun w _ => .stfeR3F2Imm9 (.dec w)⟩,
    ⟨0x1ffc8000000#41, 0x0cc40000000#41, 0x37ffe03f#41, 0x37ffe03f#41, fun w _ => .stf8R3F2 (.dec w)⟩,
    ⟨0x1efc0000000#41, 0x0ec40000000#41, 0x37ffe03f#41, 0x103fffffff#41, fun w _ => .stf8R3F2Imm9 (.dec w)⟩,
    ⟨0x1ffc8000000#41, 0x0cc80000000#41, 0x37ffe03f#41, 0x37ffe03f#41, fun w _ => .stfsR3F2 (.dec w)⟩,
    ⟨0x1efc0000000#41, 0x0ec80000000#41, 0x37ffe03f#41, 0x103fffffff#41, fun w _ => .stfsR3F2Imm9 (.dec w)⟩,
    ⟨0x1ffc8000000#41, 0x0ccc0000000#41, 0x37ffe03f#41, 0x37ffe03f#41, fun w _ => .stfdR3F2 (.dec w)⟩,
    ⟨0x1efc0000000#41, 0x0ecc0000000#41, 0x37ffe03f#41, 0x103fffffff#41, fun w _ => .stfdR3F2Imm9 (.dec w)⟩,
    ⟨0x1ffc8000000#41, 0x0cec0000000#41, 0x37ffe03f#41, 0x37ffe03f#41, fun w _ => .stfSpillR3F2 (.dec w)⟩,
    ⟨0x1efc0000000#41, 0x0eec0000000#41, 0x37ffe03f#41, 0x103fffffff#41, fun w _ => .stfSpillR3F2Imm9 (.dec w)⟩,
    ⟨0x1ffc8000000#41, 0x0c048000000#41, 0x37ffffff#41, 0x37ffffff#41, fun w _ => .ldfp8F1F2R3 (.dec w)⟩,
    ⟨0x1ffc8000000#41, 0x0d048000000#41, 0x37ffffff#41, 0x37ffffff#41, fun w _ => .ldfp8F1F2R316 (.dec w)⟩,
    ⟨0x1ffc8000000#41, 0x0c088000000#41, 0x37ffffff#41, 0x37ffffff#41, fun w _ => .ldfpsF1F2R3 (.dec w)⟩,
    ⟨0x1ffc8000000#41, 0x0d088000000#41, 0x37ffffff#41, 0x37ffffff#41, fun w _ => .ldfpsF1F2R38 (.dec w)⟩,
    ⟨0x1ffc8000000#41, 0x0c0c8000000#41, 0x37ffffff#41, 0x37ffffff#41, fun w _ => .ldfpdF1F2R3 (.dec w)⟩,
    ⟨0x1ffc8000000#41, 0x0d0c8000000#41, 0x37ffffff#41, 0x37ffffff#41, fun w _ => .ldfpdF1F2R316 (.dec w)⟩,
    ⟨0x1ffc8000000#41, 0x0c148000000#41, 0x37ffffff#41, 0x37ffffff#41, fun w _ => .ldfp8SF1F2R3 (.dec w)⟩,
    ⟨0x1ffc8000000#41, 0x0d148000000#41, 0x37ffffff#41, 0x37ffffff#41, fun w _ => .ldfp8SF1F2R316 (.dec w)⟩,
    ⟨0x1ffc8000000#41, 0x0c188000000#41, 0x37ffffff#41, 0x37ffffff#41, fun w _ => .ldfpsSF1F2R3 (.dec w)⟩,
    ⟨0x1ffc8000000#41, 0x0d188000000#41, 0x37ffffff#41, 0x37ffffff#41, fun w _ => .ldfpsSF1F2R38 (.dec w)⟩,
    ⟨0x1ffc8000000#41, 0x0c1c8000000#41, 0x37ffffff#41, 0x37ffffff#41, fun w _ => .ldfpdSF1F2R3 (.dec w)⟩,
    ⟨0x1ffc8000000#41, 0x0d1c8000000#41, 0x37ffffff#41, 0x37ffffff#41, fun w _ => .ldfpdSF1F2R316 (.dec w)⟩,
    ⟨0x1ffc8000000#41, 0x0c248000000#41, 0x37ffffff#41, 0x37ffffff#41, fun w _ => .ldfp8AF1F2R3 (.dec w)⟩,
    ⟨0x1ffc8000000#41, 0x0d248000000#41, 0x37ffffff#41, 0x37ffffff#41, fun w _ => .ldfp8AF1F2R316 (.dec w)⟩,
    ⟨0x1ffc8000000#41, 0x0c288000000#41, 0x37ffffff#41, 0x37ffffff#41, fun w _ => .ldfpsAF1F2R3 (.dec w)⟩,
    ⟨0x1ffc8000000#41, 0x0d288000000#41, 0x37ffffff#41, 0x37ffffff#41, fun w _ => .ldfpsAF1F2R38 (.dec w)⟩,
    ⟨0x1ffc8000000#41, 0x0c2c8000000#41, 0x37ffffff#41, 0x37ffffff#41, fun w _ => .ldfpdAF1F2R3 (.dec w)⟩,
    ⟨0x1ffc8000000#41, 0x0d2c8000000#41, 0x37ffffff#41, 0x37ffffff#41, fun w _ => .ldfpdAF1F2R316 (.dec w)⟩,
    ⟨0x1ffc8000000#41, 0x0c348000000#41, 0x37ffffff#41, 0x37ffffff#41, fun w _ => .ldfp8SaF1F2R3 (.dec w)⟩,
    ⟨0x1ffc8000000#41, 0x0d348000000#41, 0x37ffffff#41, 0x37ffffff#41, fun w _ => .ldfp8SaF1F2R316 (.dec w)⟩,
    ⟨0x1ffc8000000#41, 0x0c388000000#41, 0x37ffffff#41, 0x37ffffff#41, fun w _ => .ldfpsSaF1F2R3 (.dec w)⟩,
    ⟨0x1ffc8000000#41, 0x0d388000000#41, 0x37ffffff#41, 0x37ffffff#41, fun w _ => .ldfpsSaF1F2R38 (.dec w)⟩ ]

/-- Rows 422 to 481 of the table. -/
def rowsM4 : List Row :=
  [ ⟨0x1ffc8000000#41, 0x0c3c8000000#41, 0x37ffffff#41, 0x37ffffff#41, fun w _ => .ldfpdSaF1F2R3 (.dec w)⟩,
    ⟨0x1ffc8000000#41, 0x0d3c8000000#41, 0x37ffffff#41, 0x37ffffff#41, fun w _ => .ldfpdSaF1F2R316 (.dec w)⟩,
    ⟨0x1ffc8000000#41, 0x0c848000000#41, 0x37ffffff#41, 0x37ffffff#41, fun w _ => .ldfp8CClrF1F2R3 (.dec w)⟩,
    ⟨0x1ffc8000000#41, 0x0d848000000#41, 0x37ffffff#41, 0x37ffffff#41, fun w _ => .ldfp8CClrF1F2R316 (.dec w)⟩,
    ⟨0x1ffc8000000#41, 0x0c888000000#41, 0x37ffffff#41, 0x37ffffff#41, fun w _ => .ldfpsCClrF1F2R3 (.dec w)⟩,
    ⟨0x1ffc8000000#41, 0x0d888000000#41, 0x37ffffff#41, 0x37ffffff#41, fun w _ => .ldfpsCClrF1F2R38 (.dec w)⟩,
    ⟨0x1ffc8000000#41, 0x0c8c8000000#41, 0x37ffffff#41, 0x37ffffff#41, fun w _ => .ldfpdCClrF1F2R3 (.dec w)⟩,
    ⟨0x1ffc8000000#41, 0x0d8c8000000#41, 0x37ffffff#41, 0x37ffffff#41, fun w _ => .ldfpdCClrF1F2R316 (.dec w)⟩,
    ⟨0x1ffc8000000#41, 0x0c948000000#41, 0x37ffffff#41, 0x37ffffff#41, fun w _ => .ldfp8CNcF1F2R3 (.dec w)⟩,
    ⟨0x1ffc8000000#41, 0x0d948000000#41, 0x37ffffff#41, 0x37ffffff#41, fun w _ => .ldfp8CNcF1F2R316 (.dec w)⟩,
    ⟨0x1ffc8000000#41, 0x0c988000000#41, 0x37ffffff#41, 0x37ffffff#41, fun w _ => .ldfpsCNcF1F2R3 (.dec w)⟩,
    ⟨0x1ffc8000000#41, 0x0d988000000#41, 0x37ffffff#41, 0x37ffffff#41, fun w _ => .ldfpsCNcF1F2R38 (.dec w)⟩,
    ⟨0x1ffc8000000#41, 0x0c9c8000000#41, 0x37ffffff#41, 0x37ffffff#41, fun w _ => .ldfpdCNcF1F2R3 (.dec w)⟩,
    ⟨0x1ffc8000000#41, 0x0d9c8000000#41, 0x37ffffff#41, 0x37ffffff#41, fun w _ => .ldfpdCNcF1F2R316 (.dec w)⟩,
    ⟨0x1ffc8000000#41, 0x0cb00000000#41, 0x37f0003f#41, 0x37f0003f#41, fun w _ => .lfetchR3 (.dec w)⟩,
    ⟨0x1ffc8000000#41, 0x0db00000000#41, 0x37ffe03f#41, 0x37ffe03f#41, fun w _ => .lfetchR3R2 (.dec w)⟩,
    ⟨0x1efc0000000#41, 0x0eb00000000#41, 0x37f0003f#41, 0x103fffe03f#41, fun w _ => .lfetchR3Imm9 (.dec w)⟩,
    ⟨0x1ffc8000000#41, 0x0cb40000000#41, 0x37f0003f#41, 0x37f0003f#41, fun w _ => .lfetchExclR3 (.dec w)⟩,
    ⟨0x1ffc8000000#41, 0x0db40000000#41, 0x37ffe03f#41, 0x37ffe03f#41, fun w _ => .lfetchExclR3R2 (.dec w)⟩,
    ⟨0x1efc0000000#41, 0x0eb40000000#41, 0x37f0003f#41, 0x103fffe03f#41, fun w _ => .lfetchExclR3Imm9 (.dec w)⟩,
    ⟨0x1ffc8000000#41, 0x0cb80000000#41, 0x37f0003f#41, 0x37f0003f#41, fun w _ => .lfetchFaultR3 (.dec w)⟩,
    ⟨0x1ffc8000000#41, 0x0db80000000#41, 0x37ffe03f#41, 0x37ffe03f#41, fun w _ => .lfetchFaultR3R2 (.dec w)⟩,
    ⟨0x1efc0000000#41, 0x0eb80000000#41, 0x37f0003f#41, 0x103fffe03f#41, fun w _ => .lfetchFaultR3Imm9 (.dec w)⟩,
    ⟨0x1ffc8000000#41, 0x0cbc0000000#41, 0x37f0003f#41, 0x37f0003f#41, fun w _ => .lfetchFaultExclR3 (.dec w)⟩,
    ⟨0x1ffc8000000#41, 0x0dbc0000000#41, 0x37ffe03f#41, 0x37ffe03f#41, fun w _ => .lfetchFaultExclR3R2 (.dec w)⟩,
    ⟨0x1efc0000000#41, 0x0ebc0000000#41, 0x37f0003f#41, 0x103fffe03f#41, fun w _ => .lfetchFaultExclR3Imm9 (.dec w)⟩,
    ⟨0x1ffc8000000#41, 0x08008000000#41, 0x37ffffff#41, 0x37ffffff#41, fun w _ => .cmpxchg1Acq (.dec w)⟩,
    ⟨0x1ffc8000000#41, 0x08108000000#41, 0x37ffffff#41, 0x37ffffff#41, fun w _ => .cmpxchg1Rel (.dec w)⟩,
    ⟨0x1ffc8000000#41, 0x08208000000#41, 0x37ffffff#41, 0x37ffffff#41, fun w _ => .xchg1 (.dec w)⟩,
    ⟨0x1ffc8000000#41, 0x08048000000#41, 0x37ffffff#41, 0x37ffffff#41, fun w _ => .cmpxchg2Acq (.dec w)⟩,
    ⟨0x1ffc8000000#41, 0x08148000000#41, 0x37ffffff#41, 0x37ffffff#41, fun w _ => .cmpxchg2Rel (.dec w)⟩,
    ⟨0x1ffc8000000#41, 0x08248000000#41, 0x37ffffff#41, 0x37ffffff#41, fun w _ => .xchg2 (.dec w)⟩,
    ⟨0x1ffc8000000#41, 0x08088000000#41, 0x37ffffff#41, 0x37ffffff#41, fun w _ => .cmpxchg4Acq (.dec w)⟩,
    ⟨0x1ffc8000000#41, 0x08188000000#41, 0x37ffffff#41, 0x37ffffff#41, fun w _ => .cmpxchg4Rel (.dec w)⟩,
    ⟨0x1ffc8000000#41, 0x08288000000#41, 0x37ffffff#41, 0x37ffffff#41, fun w _ => .xchg4 (.dec w)⟩,
    ⟨0x1ffc8000000#41, 0x080c8000000#41, 0x37ffffff#41, 0x37ffffff#41, fun w _ => .cmpxchg8Acq (.dec w)⟩,
    ⟨0x1ffc8000000#41, 0x081c8000000#41, 0x37ffffff#41, 0x37ffffff#41, fun w _ => .cmpxchg8Rel (.dec w)⟩,
    ⟨0x1ffc8000000#41, 0x082c8000000#41, 0x37ffffff#41, 0x37ffffff#41, fun w _ => .xchg8 (.dec w)⟩,
    ⟨0x1ffc8000000#41, 0x08808000000#41, 0x37ffffff#41, 0x37ffffff#41, fun w _ => .cmp8xchg16Acq (.dec w)⟩,
    ⟨0x1ffc8000000#41, 0x08908000000#41, 0x37ffffff#41, 0x37ffffff#41, fun w _ => .cmp8xchg16Rel (.dec w)⟩,
    ⟨0x1ffc8000000#41, 0x08488000000#41, 0x37f0ffff#41, 0x37f0ffff#41, fun w _ => .fetchadd4Acq (.dec w)⟩,
    ⟨0x1ffc8000000#41, 0x084c8000000#41, 0x37f0ffff#41, 0x37f0ffff#41, fun w _ => .fetchadd8Acq (.dec w)⟩,
    ⟨0x1ffc8000000#41, 0x08588000000#41, 0x37f0ffff#41, 0x37f0ffff#41, fun w _ => .fetchadd4Rel (.dec w)⟩,
    ⟨0x1ffc8000000#41, 0x085c8000000#41, 0x37f0ffff#41, 0x37f0ffff#41, fun w _ => .fetchadd8Rel (.dec w)⟩,
    ⟨0x1ffc8000000#41, 0x0c708000000#41, 0xfffff#41, 0xfffff#41, fun w _ => .setfSig (.dec w)⟩,
    ⟨0x1ffc8000000#41, 0x08708000000#41, 0xfffff#41, 0xfffff#41, fun w _ => .getfSig (.dec w)⟩,
    ⟨0x1ffc8000000#41, 0x0c748000000#41, 0xfffff#41, 0xfffff#41, fun w _ => .setfExp (.dec w)⟩,
    ⟨0x1ffc8000000#41, 0x08748000000#41, 0xfffff#41, 0xfffff#41, fun w _ => .getfExp (.dec w)⟩,
    ⟨0x1ffc8000000#41, 0x0c788000000#41, 0xfffff#41, 0xfffff#41, fun w _ => .setfS (.dec w)⟩,
    ⟨0x1ffc8000000#41, 0x08788000000#41, 0xfffff#41, 0xfffff#41, fun w _ => .getfS (.dec w)⟩,
    ⟨0x1ffc8000000#41, 0x0c7c8000000#41, 0xfffff#41, 0xfffff#41, fun w _ => .setfD (.dec w)⟩,
    ⟨0x1ffc8000000#41, 0x087c8000000#41, 0xfffff#41, 0xfffff#41, fun w _ => .getfD (.dec w)⟩,
    ⟨0x1ee00000000#41, 0x02200000000#41, 0xfe03f#41, 0x11ffffffff#41, fun w _ => .chkSMR2 (.dec w)⟩,
    ⟨0x1ee00000000#41, 0x02600000000#41, 0xfe03f#41, 0x11ffffffff#41, fun w _ => .chkSF2 (.dec w)⟩,
    ⟨0x1ee00000000#41, 0x00800000000#41, 0x1fff#41, 0x11ffffffff#41, fun w _ => .chkANcR1 (.dec w)⟩,
    ⟨0x1ee00000000#41, 0x00a00000000#41, 0x1fff#41, 0x11ffffffff#41, fun w _ => .chkAClrR1 (.dec w)⟩,
    ⟨0x1ee00000000#41, 0x00c00000000#41, 0x1fff#41, 0x11ffffffff#41, fun w _ => .chkANcF1 (.dec w)⟩,
    ⟨0x1ee00000000#41, 0x00e00000000#41, 0x1fff#41, 0x11ffffffff#41, fun w _ => .chkAClrF1 (.dec w)⟩,
    ⟨0x1eff8000000#41, 0x00000000000#41, 0x3f#41, 0x1003ffffff#41, fun w _ => .breakM (.dec w)⟩,
    ⟨0x1ffffffffc0#41, 0x00080000000#41, 0x3f#41, 0x3f#41, fun w _ => .invala (.dec w)⟩ ]

/-- Rows 482 to 541 of the table. -/
def rowsM5 : List Row :=
  [ ⟨0x1ffffffffc0#41, 0x00100000000#41, 0x3f#41, 0x3f#41, fun w _ => .fwb (.dec w)⟩,
    ⟨0x1ffffffffc0#41, 0x00180000000#41, 0x3f#41, 0x3f#41, fun w _ => .srlzD (.dec w)⟩,
    ⟨0x1effc000000#41, 0x00008000000#41, 0x3f#41, 0x1003ffffff#41, fun w _ => .nopM (.dec w)⟩,
    ⟨0x1effc000000#41, 0x0000c000000#41, 0x3f#41, 0x1003ffffff#41, fun w _ => .hintM (.dec w)⟩,
    ⟨0x1ffffffffc0#41, 0x00188000000#41, 0x3f#41, 0x3f#41, fun w _ => .srlzI (.dec w)⟩,
    ⟨0x1eff8000000#41, 0x00090000000#41, 0x1fff#41, 0x1fff#41, fun w _ => .invalaER1 (.dec w)⟩,
    ⟨0x1ffffffffc0#41, 0x00110000000#41, 0x3f#41, 0x3f#41, fun w _ => .mf (.dec w)⟩,
    ⟨0x1eff8000000#41, 0x00098000000#41, 0x1fff#41, 0x1fff#41, fun w _ => .invalaEF1 (.dec w)⟩,
    ⟨0x1ffffffffc0#41, 0x00118000000#41, 0x3f#41, 0x3f#41, fun w _ => .mfA (.dec w)⟩,
    ⟨0x1ffffffffc0#41, 0x00198000000#41, 0x3f#41, 0x3f#41, fun w _ => .syncI (.dec w)⟩,
    ⟨0x1ee78000000#41, 0x00020000000#41, 0x3f#41, 0x1187ffffff#41, fun w _ => .sum (.dec w)⟩,
    ⟨0x1ee78000000#41, 0x00028000000#41, 0x3f#41, 0x1187ffffff#41, fun w _ => .rum (.dec w)⟩,
    ⟨0x1ee78000000#41, 0x00030000000#41, 0x3f#41, 0x1187ffffff#41, fun w _ => .ssm (.dec w)⟩,
    ⟨0x1ee78000000#41, 0x00038000000#41, 0x3f#41, 0x1187ffffff#41, fun w _ => .rsm (.dec w)⟩,
    ⟨0x1eff8000000#41, 0x00140000000#41, 0x7f0003f#41, 0x1007ffe03f#41, fun w _ => .movMAr3Imm8 (.dec w)⟩,
    ⟨0x1ffffffffc0#41, 0x00050000000#41, 0x3f#41, 0x3f#41, fun w _ => .loadrs (.dec w)⟩,
    ⟨0x1ffffffffc0#41, 0x00060000000#41, 0x3f#41, 0x3f#41, fun w _ => .flushrs (.dec w)⟩,
    ⟨0x1eff8000000#41, 0x02000000000#41, 0x7ffe03f#41, 0x7ffe03f#41, fun w _ => .movRrR3R2 (.dec w)⟩,
    ⟨0x1eff8000000#41, 0x02080000000#41, 0x7f01fff#41, 0x7f01fff#41, fun w _ => .movR1RrR3 (.dec w)⟩,
    ⟨0x1eff8000000#41, 0x02008000000#41, 0x7ffe03f#41, 0x7ffe03f#41, fun w _ => .movDbrR3R2 (.dec w)⟩,
    ⟨0x1eff8000000#41, 0x02088000000#41, 0x7f01fff#41, 0x7f01fff#41, fun w _ => .movR1DbrR3 (.dec w)⟩,
    ⟨0x1eff8000000#41, 0x02010000000#41, 0x7ffe03f#41, 0x7ffe03f#41, fun w _ => .movIbrR3R2 (.dec w)⟩,
    ⟨0x1eff8000000#41, 0x02090000000#41, 0x7f01fff#41, 0x7f01fff#41, fun w _ => .movR1IbrR3 (.dec w)⟩,
    ⟨0x1eff8000000#41, 0x02018000000#41, 0x7ffe03f#41, 0x7ffe03f#41, fun w _ => .movPkrR3R2 (.dec w)⟩,
    ⟨0x1eff8000000#41, 0x02098000000#41, 0x7f01fff#41, 0x7f01fff#41, fun w _ => .movR1PkrR3 (.dec w)⟩,
    ⟨0x1eff8000000#41, 0x02020000000#41, 0x7ffe03f#41, 0x7ffe03f#41, fun w _ => .movPmcR3R2 (.dec w)⟩,
    ⟨0x1eff8000000#41, 0x020a0000000#41, 0x7f01fff#41, 0x7f01fff#41, fun w _ => .movR1PmcR3 (.dec w)⟩,
    ⟨0x1eff8000000#41, 0x02028000000#41, 0x7ffe03f#41, 0x7ffe03f#41, fun w _ => .movPmdR3R2 (.dec w)⟩,
    ⟨0x1eff8000000#41, 0x020a8000000#41, 0x7f01fff#41, 0x7f01fff#41, fun w _ => .movR1PmdR3 (.dec w)⟩,
    ⟨0x1eff8000000#41, 0x020b8000000#41, 0x7f01fff#41, 0x7f01fff#41, fun w _ => .movR1CpuidR3 (.dec w)⟩,
    ⟨0x1eff8000000#41, 0x02048000000#41, 0x7ffe03f#41, 0x7ffe03f#41, fun w _ => .ptcLR3R2 (.dec w)⟩,
    ⟨0x1eff8000000#41, 0x02050000000#41, 0x7ffe03f#41, 0x7ffe03f#41, fun w _ => .ptcGR3R2 (.dec w)⟩,
    ⟨0x1eff8000000#41, 0x02058000000#41, 0x7ffe03f#41, 0x7ffe03f#41, fun w _ => .ptcGaR3R2 (.dec w)⟩,
    ⟨0x1eff8000000#41, 0x02060000000#41, 0x7ffe03f#41, 0x7ffe03f#41, fun w _ => .ptrDR3R2 (.dec w)⟩,
    ⟨0x1eff8000000#41, 0x02068000000#41, 0x7ffe03f#41, 0x7ffe03f#41, fun w _ => .ptrIR3R2 (.dec w)⟩,
    ⟨0x1eff8000000#41, 0x021a0000000#41, 0x7f0003f#41, 0x7f0003f#41, fun w _ => .ptcER3 (.dec w)⟩,
    ⟨0x1eff8000000#41, 0x02070000000#41, 0x7ffe03f#41, 0x7ffe03f#41, fun w _ => .itrDDtrR3R2 (.dec w)⟩,
    ⟨0x1eff8000000#41, 0x02078000000#41, 0x7ffe03f#41, 0x7ffe03f#41, fun w _ => .itrIItrR3R2 (.dec w)⟩,
    ⟨0x1eff8000000#41, 0x02170000000#41, 0xfe03f#41, 0xfe03f#41, fun w _ => .itcDR2 (.dec w)⟩,
    ⟨0x1eff8000000#41, 0x02178000000#41, 0xfe03f#41, 0xfe03f#41, fun w _ => .itcIR2 (.dec w)⟩,
    ⟨0x1eff8000000#41, 0x020c0000000#41, 0x7f07fff#41, 0x7f07fff#41, fun w _ => .probeRR1R3Imm2 (.dec w)⟩,
    ⟨0x1eff8000000#41, 0x020c8000000#41, 0x7f07fff#41, 0x7f07fff#41, fun w _ => .probeWR1R3Imm2 (.dec w)⟩,
    ⟨0x1eff8000000#41, 0x021c0000000#41, 0x7ffffff#41, 0x7ffffff#41, fun w _ => .probeRR1R3R2 (.dec w)⟩,
    ⟨0x1eff8000000#41, 0x021c8000000#41, 0x7ffffff#41, 0x7ffffff#41, fun w _ => .probeWR1R3R2 (.dec w)⟩,
    ⟨0x1eff8000000#41, 0x02188000000#41, 0x7f0603f#41, 0x7f0603f#41, fun w _ => .probeRwFaultR3Imm2 (.dec w)⟩,
    ⟨0x1eff8000000#41, 0x02190000000#41, 0x7f0603f#41, 0x7f0603f#41, fun w _ => .probeRFaultR3Imm2 (.dec w)⟩,
    ⟨0x1eff8000000#41, 0x02198000000#41, 0x7f0603f#41, 0x7f0603f#41, fun w _ => .probeWFaultR3Imm2 (.dec w)⟩,
    ⟨0x1eff8000000#41, 0x020d0000000#41, 0x7f01fff#41, 0x7f01fff#41, fun w _ => .thash (.dec w)⟩,
    ⟨0x1eff8000000#41, 0x020d8000000#41, 0x7f01fff#41, 0x7f01fff#41, fun w _ => .ttag (.dec w)⟩,
    ⟨0x1eff8000000#41, 0x020f0000000#41, 0x7f01fff#41, 0x7f01fff#41, fun w _ => .tpa (.dec w)⟩,
    ⟨0x1eff8000000#41, 0x020f8000000#41, 0x7f01fff#41, 0x7f01fff#41, fun w _ => .tak (.dec w)⟩,
    ⟨0x1eff8000000#41, 0x02108000000#41, 0x1fff#41, 0x1fff#41, fun w _ => .movR1PsrUm (.dec w)⟩,
    ⟨0x1eff8000000#41, 0x02110000000#41, 0x7f01fff#41, 0x7f01fff#41, fun w _ => .movMR1Ar3 (.dec w)⟩,
    ⟨0x1eff8000000#41, 0x02120000000#41, 0x7f01fff#41, 0x7f01fff#41, fun w _ => .movR1Cr3 (.dec w)⟩,
    ⟨0x1eff8000000#41, 0x02128000000#41, 0x1fff#41, 0x1fff#41, fun w _ => .movR1Psr (.dec w)⟩,
    ⟨0x1eff8000000#41, 0x02148000000#41, 0xfe03f#41, 0xfe03f#41, fun w _ => .movPsrUmR2 (.dec w)⟩,
    ⟨0x1eff8000000#41, 0x02150000000#41, 0x7ffe03f#41, 0x7ffe03f#41, fun w _ => .movMAr3R2 (.dec w)⟩,
    ⟨0x1eff8000000#41, 0x02160000000#41, 0x7ffe03f#41, 0x7ffe03f#41, fun w _ => .movCr3R2 (.dec w)⟩,
    ⟨0x1eff8000000#41, 0x02168000000#41, 0xfe03f#41, 0xfe03f#41, fun w _ => .movPsrLR2 (.dec w)⟩,
    ⟨0x1fff8000000#41, 0x02180000000#41, 0x7f0003f#41, 0x7f0003f#41, fun w _ => .fcR3 (.dec w)⟩ ]

/-- Rows 542 to 543 of the table. -/
def rowsM6 : List Row :=
  [ ⟨0x1fff8000000#41, 0x03180000000#41, 0x7f0003f#41, 0x7f0003f#41, fun w _ => .fcIR3 (.dec w)⟩,
    ⟨0x1ee00000000#41, 0x02c00000000#41, 0x7fffffff#41, 0x7fffffff#41, fun w _ => .allocR1ArPfsILOR (.dec w)⟩ ]

/-- The rows of the M formats. -/
def rowsM : List Row := rowsM0 ++ rowsM1 ++ rowsM2 ++ rowsM3 ++ rowsM4 ++ rowsM5 ++ rowsM6

/-- Rows 544 to 569 of the table. -/
def rowsB0 : List Row :=
  [ ⟨0x1e0000001c0#41, 0x08000000000#41, 0x0#41, 0x1ffffff03f#41, fun w _ => .brCondTarget25 (.dec w)⟩,
    ⟨0x1e0000001c0#41, 0x08000000080#41, 0x0#41, 0x1ffffff03f#41, fun w _ => .brWexitTarget25 (.dec w)⟩,
    ⟨0x1e0000001c0#41, 0x080000000c0#41, 0x0#41, 0x1ffffff03f#41, fun w _ => .brWtopTarget25 (.dec w)⟩,
    ⟨0x1e0000001c0#41, 0x08000000140#41, 0x0#41, 0x1ffffff03f#41, fun w _ => .brCloopTarget25 (.dec w)⟩,
    ⟨0x1e0000001c0#41, 0x08000000180#41, 0x0#41, 0x1ffffff03f#41, fun w _ => .brCexitTarget25 (.dec w)⟩,
    ⟨0x1e0000001c0#41, 0x080000001c0#41, 0x0#41, 0x1ffffff03f#41, fun w _ => .brCtopTarget25 (.dec w)⟩,
    ⟨0x1e000000000#41, 0x0a000000000#41, 0x0#41, 0x1ffffff1ff#41, fun w _ => .brCallB1Target25 (.dec w)⟩,
    ⟨0x1e1f80001c0#41, 0x00100000000#41, 0x0#41, 0xe0000f03f#41, fun w _ => .brCondB2 (.dec w)⟩,
    ⟨0x1e1f80001c0#41, 0x00100000040#41, 0x0#41, 0xe0000f03f#41, fun w _ => .brIaB2 (.dec w)⟩,
    ⟨0x1e1f80001c0#41, 0x00108000100#41, 0x0#41, 0xe0000f03f#41, fun w _ => .brRetB2 (.dec w)⟩,
    ⟨0x1e000000000#41, 0x02000000000#41, 0x0#41, 0xf0000f1ff#41, fun w _ => .brCallB1B2 (.dec w)⟩,
    ⟨0x1e000000000#41, 0x0e000000000#41, 0x0#41, 0x0#41, fun _ _ => .brpTarget25Tag13⟩,
    ⟨0x1e1f8000000#41, 0x04080000000#41, 0x0#41, 0x0#41, fun _ _ => .brpB2Tag13⟩,
    ⟨0x1e1f8000000#41, 0x04088000000#41, 0x0#41, 0x0#41, fun _ _ => .brpRetB2Tag13⟩,
    ⟨0x1ffffffffc0#41, 0x00010000000#41, 0x0#41, 0x0#41, fun _ _ => .cover⟩,
    ⟨0x1ffffffffc0#41, 0x00020000000#41, 0x0#41, 0x0#41, fun _ _ => .clrrrb⟩,
    ⟨0x1ffffffffc0#41, 0x00028000000#41, 0x0#41, 0x0#41, fun _ _ => .clrrrbPr⟩,
    ⟨0x1ffffffffc0#41, 0x00040000000#41, 0x0#41, 0x0#41, fun _ _ => .rfi⟩,
    ⟨0x1ffffffffc0#41, 0x00060000000#41, 0x0#41, 0x0#41, fun _ _ => .bsw0⟩,
    ⟨0x1ffffffffc0#41, 0x00068000000#41, 0x0#41, 0x0#41, fun _ _ => .bsw1⟩,
    ⟨0x1ffffffffc0#41, 0x00080000000#41, 0x0#41, 0x0#41, fun _ _ => .epc⟩,
    ⟨0x1ffffffffc0#41, 0x000c0000000#41, 0x3f#41, 0x3f#41, fun w _ => .vmsw0 (.dec w)⟩,
    ⟨0x1ffffffffc0#41, 0x000c8000000#41, 0x3f#41, 0x3f#41, fun w _ => .vmsw1 (.dec w)⟩,
    ⟨0x1e1f8000000#41, 0x00000000000#41, 0x3f#41, 0x1003ffffff#41, fun w _ => .breakB (.dec w)⟩,
    ⟨0x1e1f8000000#41, 0x04000000000#41, 0x3f#41, 0x1003ffffff#41, fun w _ => .nopB (.dec w)⟩,
    ⟨0x1e1f8000000#41, 0x04008000000#41, 0x3f#41, 0x1003ffffff#41, fun w _ => .hintB (.dec w)⟩ ]

/-- The rows of the B formats. -/
def rowsB : List Row := rowsB0

/-- Rows 570 to 629 of the table. -/
def rowsF0 : List Row :=
  [ ⟨0x1f000000000#41, 0x10000000000#41, 0x0#41, 0xfffffffff#41, fun w _ => .fma (.dec w)⟩,
    ⟨0x1f000000000#41, 0x11000000000#41, 0x0#41, 0xfffffffff#41, fun w _ => .fmaS (.dec w)⟩,
    ⟨0x1f000000000#41, 0x12000000000#41, 0x0#41, 0xfffffffff#41, fun w _ => .fmaD (.dec w)⟩,
    ⟨0x1f000000000#41, 0x13000000000#41, 0x0#41, 0xfffffffff#41, fun w _ => .fpma (.dec w)⟩,
    ⟨0x1f000000000#41, 0x14000000000#41, 0x0#41, 0xfffffffff#41, fun w _ => .fms (.dec w)⟩,
    ⟨0x1f000000000#41, 0x15000000000#41, 0x0#41, 0xfffffffff#41, fun w _ => .fmsS (.dec w)⟩,
    ⟨0x1f000000000#41, 0x16000000000#41, 0x0#41, 0xfffffffff#41, fun w _ => .fmsD (.dec w)⟩,
    ⟨0x1f000000000#41, 0x17000000000#41, 0x0#41, 0xfffffffff#41, fun w _ => .fpms (.dec w)⟩,
    ⟨0x1f000000000#41, 0x18000000000#41, 0x0#41, 0xfffffffff#41, fun w _ => .fnma (.dec w)⟩,
    ⟨0x1f000000000#41, 0x19000000000#41, 0x0#41, 0xfffffffff#41, fun w _ => .fnmaS (.dec w)⟩,
    ⟨0x1f000000000#41, 0x1a000000000#41, 0x0#41, 0xfffffffff#41, fun w _ => .fnmaD (.dec w)⟩,
    ⟨0x1f000000000#41, 0x1b000000000#41, 0x0#41, 0xfffffffff#41, fun w _ => .fpnma (.dec w)⟩,
    ⟨0x1f000000000#41, 0x1d000000000#41, 0x0#41, 0xfffffffff#41, fun w _ => .xma (.dec w)⟩,
    ⟨0x1f000000000#41, 0x1c000000000#41, 0x0#41, 0x3ffffffff#41, fun w _ => .fselect (.dec w)⟩,
    ⟨0x1e000000000#41, 0x08000000000#41, 0x0#41, 0x1fffffffff#41, fun w _ => .fcmp (.dec w)⟩,
    ⟨0x1e000000000#41, 0x0a000000000#41, 0x0#41, 0x1f80fffff#41, fun w _ => .fclassM (.dec w)⟩,
    ⟨0x1f200000000#41, 0x00200000000#41, 0x0#41, 0xdffffffff#41, fun w _ => .frcpa (.dec w)⟩,
    ⟨0x1f200000000#41, 0x02200000000#41, 0x0#41, 0xdffffffff#41, fun w _ => .fprcpa (.dec w)⟩,
    ⟨0x1f200000000#41, 0x01200000000#41, 0x0#41, 0xdfff01fff#41, fun w _ => .frsqrta (.dec w)⟩,
    ⟨0x1f200000000#41, 0x03200000000#41, 0x0#41, 0xdfff01fff#41, fun w _ => .fprsqrta (.dec w)⟩,
    ⟨0x1e3f8000000#41, 0x000a0000000#41, 0x0#41, 0xc07ffffff#41, fun w _ => .fmin (.dec w)⟩,
    ⟨0x1e3f8000000#41, 0x000a8000000#41, 0x0#41, 0xc07ffffff#41, fun w _ => .fmax (.dec w)⟩,
    ⟨0x1e3f8000000#41, 0x000b0000000#41, 0x0#41, 0xc07ffffff#41, fun w _ => .famin (.dec w)⟩,
    ⟨0x1e3f8000000#41, 0x000b8000000#41, 0x0#41, 0xc07ffffff#41, fun w _ => .famax (.dec w)⟩,
    ⟨0x1e3f8000000#41, 0x020a0000000#41, 0x0#41, 0xc07ffffff#41, fun w _ => .fpmin (.dec w)⟩,
    ⟨0x1e3f8000000#41, 0x020a8000000#41, 0x0#41, 0xc07ffffff#41, fun w _ => .fpmax (.dec w)⟩,
    ⟨0x1e3f8000000#41, 0x020b0000000#41, 0x0#41, 0xc07ffffff#41, fun w _ => .fpamin (.dec w)⟩,
    ⟨0x1e3f8000000#41, 0x020b8000000#41, 0x0#41, 0xc07ffffff#41, fun w _ => .fpamax (.dec w)⟩,
    ⟨0x1e3f8000000#41, 0x02180000000#41, 0x0#41, 0xc07ffffff#41, fun w _ => .fpcmpFrelCode0 (.dec w)⟩,
    ⟨0x1e3f8000000#41, 0x02188000000#41, 0x0#41, 0xc07ffffff#41, fun w _ => .fpcmpFrelCode1 (.dec w)⟩,
    ⟨0x1e3f8000000#41, 0x02190000000#41, 0x0#41, 0xc07ffffff#41, fun w _ => .fpcmpFrelCode2 (.dec w)⟩,
    ⟨0x1e3f8000000#41, 0x02198000000#41, 0x0#41, 0xc07ffffff#41, fun w _ => .fpcmpFrelCode3 (.dec w)⟩,
    ⟨0x1e3f8000000#41, 0x021a0000000#41, 0x0#41, 0xc07ffffff#41, fun w _ => .fpcmpFrelCode4 (.dec w)⟩,
    ⟨0x1e3f8000000#41, 0x021a8000000#41, 0x0#41, 0xc07ffffff#41, fun w _ => .fpcmpFrelCode5 (.dec w)⟩,
    ⟨0x1e3f8000000#41, 0x021b0000000#41, 0x0#41, 0xc07ffffff#41, fun w _ => .fpcmpFrelCode6 (.dec w)⟩,
    ⟨0x1e3f8000000#41, 0x021b8000000#41, 0x0#41, 0xc07ffffff#41, fun w _ => .fpcmpFrelCode7 (.dec w)⟩,
    ⟨0x1e3f8000000#41, 0x00080000000#41, 0x7ffffff#41, 0x7ffffff#41, fun w _ => .fmergeS (.dec w)⟩,
    ⟨0x1e3f8000000#41, 0x00088000000#41, 0x7ffffff#41, 0x7ffffff#41, fun w _ => .fmergeNs (.dec w)⟩,
    ⟨0x1e3f8000000#41, 0x00090000000#41, 0x7ffffff#41, 0x7ffffff#41, fun w _ => .fmergeSe (.dec w)⟩,
    ⟨0x1e3f8000000#41, 0x001c8000000#41, 0x7ffffff#41, 0x7ffffff#41, fun w _ => .fmixLr (.dec w)⟩,
    ⟨0x1e3f8000000#41, 0x001d0000000#41, 0x7ffffff#41, 0x7ffffff#41, fun w _ => .fmixR (.dec w)⟩,
    ⟨0x1e3f8000000#41, 0x001d8000000#41, 0x7ffffff#41, 0x7ffffff#41, fun w _ => .fmixL (.dec w)⟩,
    ⟨0x1e3f8000000#41, 0x001e0000000#41, 0x7ffffff#41, 0x7ffffff#41, fun w _ => .fsxtR (.dec w)⟩,
    ⟨0x1e3f8000000#41, 0x001e8000000#41, 0x7ffffff#41, 0x7ffffff#41, fun w _ => .fsxtL (.dec w)⟩,
    ⟨0x1e3f8000000#41, 0x00140000000#41, 0x7ffffff#41, 0x7ffffff#41, fun w _ => .fpack (.dec w)⟩,
    ⟨0x1e3f8000000#41, 0x001a0000000#41, 0x7ffffff#41, 0x7ffffff#41, fun w _ => .fswap (.dec w)⟩,
    ⟨0x1e3f8000000#41, 0x001a8000000#41, 0x7ffffff#41, 0x7ffffff#41, fun w _ => .fswapNl (.dec w)⟩,
    ⟨0x1e3f8000000#41, 0x001b0000000#41, 0x7ffffff#41, 0x7ffffff#41, fun w _ => .fswapNr (.dec w)⟩,
    ⟨0x1e3f8000000#41, 0x00160000000#41, 0x7ffffff#41, 0x7ffffff#41, fun w _ => .fand (.dec w)⟩,
    ⟨0x1e3f8000000#41, 0x00168000000#41, 0x7ffffff#41, 0x7ffffff#41, fun w _ => .fandcm (.dec w)⟩,
    ⟨0x1e3f8000000#41, 0x00170000000#41, 0x7ffffff#41, 0x7ffffff#41, fun w _ => .fOr (.dec w)⟩,
    ⟨0x1e3f8000000#41, 0x00178000000#41, 0x7ffffff#41, 0x7ffffff#41, fun w _ => .fxor (.dec w)⟩,
    ⟨0x1e3f8000000#41, 0x02080000000#41, 0x7ffffff#41, 0x7ffffff#41, fun w _ => .fpmergeS (.dec w)⟩,
    ⟨0x1e3f8000000#41, 0x02088000000#41, 0x7ffffff#41, 0x7ffffff#41, fun w _ => .fpmergeNs (.dec w)⟩,
    ⟨0x1e3f8000000#41, 0x02090000000#41, 0x7ffffff#41, 0x7ffffff#41, fun w _ => .fpmergeSe (.dec w)⟩,
    ⟨0x1e3f8000000#41, 0x000c0000000#41, 0x0#41, 0xc000fffff#41, fun w _ => .fcvtFx (.dec w)⟩,
    ⟨0x1e3f8000000#41, 0x020c0000000#41, 0x0#41, 0xc000fffff#41, fun w _ => .fpcvtFx (.dec w)⟩,
    ⟨0x1e3f8000000#41, 0x000c8000000#41, 0x0#41, 0xc000fffff#41, fun w _ => .fcvtFxu (.dec w)⟩,
    ⟨0x1e3f8000000#41, 0x020c8000000#41, 0x0#41, 0xc000fffff#41, fun w _ => .fpcvtFxu (.dec w)⟩,
    ⟨0x1e3f8000000#41, 0x000d0000000#41, 0x0#41, 0xc000fffff#41, fun w _ => .fcvtFxTrunc (.dec w)⟩ ]

/-- Rows 630 to 639 of the table. -/
def rowsF1 : List Row :=
  [ ⟨0x1e3f8000000#41, 0x020d0000000#41, 0x0#41, 0xc000fffff#41, fun w _ => .fpcvtFxTrunc (.dec w)⟩,
    ⟨0x1e3f8000000#41, 0x000d8000000#41, 0x0#41, 0xc000fffff#41, fun w _ => .fcvtFxuTrunc (.dec w)⟩,
    ⟨0x1e3f8000000#41, 0x020d8000000#41, 0x0#41, 0xc000fffff#41, fun w _ => .fpcvtFxuTrunc (.dec w)⟩,
    ⟨0x1e3f8000000#41, 0x000e0000000#41, 0xfffff#41, 0xfffff#41, fun w _ => .fcvtXf (.dec w)⟩,
    ⟨0x1e3f8000000#41, 0x00020000000#41, 0x0#41, 0xc07ffe03f#41, fun w _ => .fsetc (.dec w)⟩,
    ⟨0x1e3f8000000#41, 0x00028000000#41, 0x0#41, 0xc0000003f#41, fun w _ => .fclrf (.dec w)⟩,
    ⟨0x1e3f8000000#41, 0x00040000000#41, 0x0#41, 0x1c03ffffff#41, fun w _ => .fchkf (.dec w)⟩,
    ⟨0x1e3f8000000#41, 0x00000000000#41, 0x3f#41, 0x1003ffffff#41, fun w _ => .breakF (.dec w)⟩,
    ⟨0x1e3fc000000#41, 0x00008000000#41, 0x3f#41, 0x1003ffffff#41, fun w _ => .nopF (.dec w)⟩,
    ⟨0x1e3fc000000#41, 0x0000c000000#41, 0x3f#41, 0x1003ffffff#41, fun w _ => .hintF (.dec w)⟩ ]

/-- The rows of the F formats. -/
def rowsF : List Row := rowsF0 ++ rowsF1

/-- Rows 640 to 645 of the table. -/
def rowsX0 : List Row :=
  [ ⟨0x1eff8000000#41, 0x00000000000#41, 0x3f#41, 0x1003ffffff#41, fun w l => .breakX (.dec w l)⟩,
    ⟨0x1effc000000#41, 0x00008000000#41, 0x3f#41, 0x1003ffffff#41, fun w l => .nopX (.dec w l)⟩,
    ⟨0x1effc000000#41, 0x0000c000000#41, 0x3f#41, 0x1003ffffff#41, fun w l => .hintX (.dec w l)⟩,
    ⟨0x1e000100000#41, 0x0c000000000#41, 0x0#41, 0x1fffefffff#41, fun w l => .movl (.dec w l)⟩,
    ⟨0x1e0000001c0#41, 0x18000000000#41, 0x0#41, 0x1ffffff03f#41, fun w l => .brlCondTarget64 (.dec w l)⟩,
    ⟨0x1e000000000#41, 0x1a000000000#41, 0x0#41, 0x1ffffff1ff#41, fun w l => .brlCallB1Target64 (.dec w l)⟩ ]

/-- The rows of the X formats. -/
def rowsX : List Row := rowsX0

/-- The rows that a slot of a unit is decoded by (30 R458). -/
def rowsOf : ExecUnit → List Row
  | .a => rowsA
  | .i => rowsA ++ rowsI
  | .m => rowsA ++ rowsM
  | .b => rowsB
  | .f => rowsF
  | .l => []
  | .x => rowsX

/-- Why a slot is no instruction. -/
inductive DecodeError where
  /-- No row matches: the architecture raises Illegal Operation (30 R458). -/
  | illegal
  /-- A slot of the I unit with major opcode 7 that no row matches: it may be one of the multimedia formats I1 to I9,
  whose encodings the spec does not give (30 R458, 92 D11). -/
  | notGiven
  /-- A reserved template (30 R451). -/
  | template
  /-- The L slot alone, or a slot number above 2. -/
  | noSlot
deriving DecidableEq, Repr

/-- Decode one slot of a unit, with the L slot of its bundle. -/
def decodeSlot (u : ExecUnit) (w l : Slot) : Except DecodeError Instr :=
  match (rowsOf u).find? (·.hits w) with
  | some r => .ok (r.make w l)
  | none =>
    if u == .i && slotField w 37 4 == 7#4 then .error .notGiven else .error .illegal

/-- 30 R451: the units of the three slots of a template; `none` for a reserved one. -/
def templateUnits (t : BitVec 5) : Option (ExecUnit × ExecUnit × ExecUnit) :=
  match t.toNat / 2 with
  | 0x00 | 0x01 => some (.m, .i, .i)
  | 0x02 => some (.m, .l, .x)
  | 0x04 | 0x05 => some (.m, .m, .i)
  | 0x06 => some (.m, .f, .i)
  | 0x07 => some (.m, .m, .f)
  | 0x08 => some (.m, .i, .b)
  | 0x09 => some (.m, .b, .b)
  | 0x0B => some (.b, .b, .b)
  | 0x0C => some (.m, .m, .b)
  | 0x0E => some (.m, .f, .b)
  | _ => none

/-- The template and the slots of a bundle (30 R453). -/
def bundleTemplate (b : Bundle) : BitVec 5 := b.setWidth 5
/-- Slot `k` of a bundle (30 R453). -/
def bundleSlot (b : Bundle) (k : Nat) : Slot := (b >>> (5 + 41 * k)).setWidth 41

/-- The bundle of a template and three slots (30 R453). -/
def makeBundle (t : BitVec 5) (s0 s1 s2 : Slot) : Bundle :=
  t.setWidth 128 ||| (s0.setWidth 128 <<< 5) ||| (s1.setWidth 128 <<< 46) ||| (s2.setWidth 128 <<< 87)

/-- The unit of slot `k` of a bundle. -/
def bundleUnit (b : Bundle) (k : Nat) : Except DecodeError ExecUnit :=
  match templateUnits (bundleTemplate b) with
  | none => .error .template
  | some (u0, u1, u2) =>
    match k with
    | 0 => .ok u0
    | 1 => .ok u1
    | 2 => .ok u2
    | _ => .error .noSlot

/-- The instruction at slot `k` of a bundle. In an MLX bundle slots 1 and 2 are one instruction, which both numbers
name (30 R451). -/
def decodeBundle (b : Bundle) (k : Nat) : Except DecodeError Instr :=
  match bundleUnit b k with
  | .error e => .error e
  | .ok .l => decodeSlot .x (bundleSlot b 2) (bundleSlot b 1)
  | .ok .x => decodeSlot .x (bundleSlot b 2) (bundleSlot b 1)
  | .ok u => decodeSlot u (bundleSlot b k) 0#41

/-- The bundle whose byte 0 comes first (30 R453: little endian whatever `PSR.be`). -/
def bundleOfBytes : List Byte → Bundle
  | [] => 0#128
  | b :: bs => b.setWidth 128 ||| (bundleOfBytes bs <<< 8)

/-- The sixteen bytes of a bundle, byte 0 first. -/
def bundleBytes (b : Bundle) : List Byte := (List.range 16).map fun k => (b >>> (8 * k)).setWidth 8

/-- Decode slot `k` of the bundle that begins a list of bytes; total on any bytes. -/
def decodeBytes (bs : List Byte) (k : Nat) : Except DecodeError Instr := decodeBundle (bundleOfBytes (bs.take 16)) k

/-! ## Encoding -/

/-- An encoded instruction: its unit, its slot, and the L slot of an X instruction (0 for the others). -/
structure SlotWord where
  unit : ExecUnit
  word : Slot
  lword : Slot
deriving DecidableEq, Repr

/-- The encoding of an instruction, `none` for the ten rows whose encoding the spec does not give (91 N80). Bits that
no field of the row covers are 0. -/
def encode (i : Instr) : Option SlotWord :=
  match i with
  | .add o => some ⟨.a, 0x10000000000#41 ||| o.enc, 0#41⟩
  | .addR1R2R31 o => some ⟨.a, 0x10008000000#41 ||| o.enc, 0#41⟩
  | .sub o => some ⟨.a, 0x10028000000#41 ||| o.enc, 0#41⟩
  | .subR1R2R31 o => some ⟨.a, 0x10020000000#41 ||| o.enc, 0#41⟩
  | .addp4 o => some ⟨.a, 0x10040000000#41 ||| o.enc, 0#41⟩
  | .and o => some ⟨.a, 0x10060000000#41 ||| o.enc, 0#41⟩
  | .andcm o => some ⟨.a, 0x10068000000#41 ||| o.enc, 0#41⟩
  | .or o => some ⟨.a, 0x10070000000#41 ||| o.enc, 0#41⟩
  | .xor o => some ⟨.a, 0x10078000000#41 ||| o.enc, 0#41⟩
  | .shladd o => some ⟨.a, 0x10080000000#41 ||| o.enc, 0#41⟩
  | .shladdp4 o => some ⟨.a, 0x100c0000000#41 ||| o.enc, 0#41⟩
  | .subR1Imm8R3 o => some ⟨.a, 0x10128000000#41 ||| o.enc, 0#41⟩
  | .andR1Imm8R3 o => some ⟨.a, 0x10160000000#41 ||| o.enc, 0#41⟩
  | .andcmR1Imm8R3 o => some ⟨.a, 0x10168000000#41 ||| o.enc, 0#41⟩
  | .orR1Imm8R3 o => some ⟨.a, 0x10170000000#41 ||| o.enc, 0#41⟩
  | .xorR1Imm8R3 o => some ⟨.a, 0x10178000000#41 ||| o.enc, 0#41⟩
  | .adds o => some ⟨.a, 0x10800000000#41 ||| o.enc, 0#41⟩
  | .addp4R1Imm14R3 o => some ⟨.a, 0x10c00000000#41 ||| o.enc, 0#41⟩
  | .addl o => some ⟨.a, 0x12000000000#41 ||| o.enc, 0#41⟩
  | .cmpLtP1P2R2R3 o => some ⟨.a, 0x18000000000#41 ||| o.enc, 0#41⟩
  | .cmpGtAndP1P2R0R3 o => some ⟨.a, 0x19000000000#41 ||| o.enc, 0#41⟩
  | .cmp4LtP1P2R2R3 o => some ⟨.a, 0x18400000000#41 ||| o.enc, 0#41⟩
  | .cmp4GtAndP1P2R0R3 o => some ⟨.a, 0x19400000000#41 ||| o.enc, 0#41⟩
  | .cmpLtP1P2Imm8R3 o => some ⟨.a, 0x18800000000#41 ||| o.enc, 0#41⟩
  | .cmp4LtP1P2Imm8R3 o => some ⟨.a, 0x18c00000000#41 ||| o.enc, 0#41⟩
  | .cmpLtUncP1P2R2R3 o => some ⟨.a, 0x18000001000#41 ||| o.enc, 0#41⟩
  | .cmpLeAndP1P2R0R3 o => some ⟨.a, 0x19000001000#41 ||| o.enc, 0#41⟩
  | .cmp4LtUncP1P2R2R3 o => some ⟨.a, 0x18400001000#41 ||| o.enc, 0#41⟩
  | .cmp4LeAndP1P2R0R3 o => some ⟨.a, 0x19400001000#41 ||| o.enc, 0#41⟩
  | .cmpLtUncP1P2Imm8R3 o => some ⟨.a, 0x18800001000#41 ||| o.enc, 0#41⟩
  | .cmp4LtUncP1P2Imm8R3 o => some ⟨.a, 0x18c00001000#41 ||| o.enc, 0#41⟩
  | .cmpEqAndP1P2R2R3 o => some ⟨.a, 0x18200000000#41 ||| o.enc, 0#41⟩
  | .cmpGeAndP1P2R0R3 o => some ⟨.a, 0x19200000000#41 ||| o.enc, 0#41⟩
  | .cmp4EqAndP1P2R2R3 o => some ⟨.a, 0x18600000000#41 ||| o.enc, 0#41⟩
  | .cmp4GeAndP1P2R0R3 o => some ⟨.a, 0x19600000000#41 ||| o.enc, 0#41⟩
  | .cmpEqAndP1P2Imm8R3 o => some ⟨.a, 0x18a00000000#41 ||| o.enc, 0#41⟩
  | .cmp4EqAndP1P2Imm8R3 o => some ⟨.a, 0x18e00000000#41 ||| o.enc, 0#41⟩
  | .cmpNeAndP1P2R2R3 o => some ⟨.a, 0x18200001000#41 ||| o.enc, 0#41⟩
  | .cmpLtAndP1P2R0R3 o => some ⟨.a, 0x19200001000#41 ||| o.enc, 0#41⟩
  | .cmp4NeAndP1P2R2R3 o => some ⟨.a, 0x18600001000#41 ||| o.enc, 0#41⟩
  | .cmp4LtAndP1P2R0R3 o => some ⟨.a, 0x19600001000#41 ||| o.enc, 0#41⟩
  | .cmpNeAndP1P2Imm8R3 o => some ⟨.a, 0x18a00001000#41 ||| o.enc, 0#41⟩
  | .cmp4NeAndP1P2Imm8R3 o => some ⟨.a, 0x18e00001000#41 ||| o.enc, 0#41⟩
  | .cmpLtuP1P2R2R3 o => some ⟨.a, 0x1a000000000#41 ||| o.enc, 0#41⟩
  | .cmpGtOrP1P2R0R3 o => some ⟨.a, 0x1b000000000#41 ||| o.enc, 0#41⟩
  | .cmp4LtuP1P2R2R3 o => some ⟨.a, 0x1a400000000#41 ||| o.enc, 0#41⟩
  | .cmp4GtOrP1P2R0R3 o => some ⟨.a, 0x1b400000000#41 ||| o.enc, 0#41⟩
  | .cmpLtuP1P2Imm8R3 o => some ⟨.a, 0x1a800000000#41 ||| o.enc, 0#41⟩
  | .cmp4LtuP1P2Imm8R3 o => some ⟨.a, 0x1ac00000000#41 ||| o.enc, 0#41⟩
  | .cmpLtuUncP1P2R2R3 o => some ⟨.a, 0x1a000001000#41 ||| o.enc, 0#41⟩
  | .cmpLeOrP1P2R0R3 o => some ⟨.a, 0x1b000001000#41 ||| o.enc, 0#41⟩
  | .cmp4LtuUncP1P2R2R3 o => some ⟨.a, 0x1a400001000#41 ||| o.enc, 0#41⟩
  | .cmp4LeOrP1P2R0R3 o => some ⟨.a, 0x1b400001000#41 ||| o.enc, 0#41⟩
  | .cmpLtuUncP1P2Imm8R3 o => some ⟨.a, 0x1a800001000#41 ||| o.enc, 0#41⟩
  | .cmp4LtuUncP1P2Imm8R3 o => some ⟨.a, 0x1ac00001000#41 ||| o.enc, 0#41⟩
  | .cmpEqOrP1P2R2R3 o => some ⟨.a, 0x1a200000000#41 ||| o.enc, 0#41⟩
  | .cmpGeOrP1P2R0R3 o => some ⟨.a, 0x1b200000000#41 ||| o.enc, 0#41⟩
  | .cmp4EqOrP1P2R2R3 o => some ⟨.a, 0x1a600000000#41 ||| o.enc, 0#41⟩
  | .cmp4GeOrP1P2R0R3 o => some ⟨.a, 0x1b600000000#41 ||| o.enc, 0#41⟩
  | .cmpEqOrP1P2Imm8R3 o => some ⟨.a, 0x1aa00000000#41 ||| o.enc, 0#41⟩
  | .cmp4EqOrP1P2Imm8R3 o => some ⟨.a, 0x1ae00000000#41 ||| o.enc, 0#41⟩
  | .cmpNeOrP1P2R2R3 o => some ⟨.a, 0x1a200001000#41 ||| o.enc, 0#41⟩
  | .cmpLtOrP1P2R0R3 o => some ⟨.a, 0x1b200001000#41 ||| o.enc, 0#41⟩
  | .cmp4NeOrP1P2R2R3 o => some ⟨.a, 0x1a600001000#41 ||| o.enc, 0#41⟩
  | .cmp4LtOrP1P2R0R3 o => some ⟨.a, 0x1b600001000#41 ||| o.enc, 0#41⟩
  | .cmpNeOrP1P2Imm8R3 o => some ⟨.a, 0x1aa00001000#41 ||| o.enc, 0#41⟩
  | .cmp4NeOrP1P2Imm8R3 o => some ⟨.a, 0x1ae00001000#41 ||| o.enc, 0#41⟩
  | .cmpEqP1P2R2R3 o => some ⟨.a, 0x1c000000000#41 ||| o.enc, 0#41⟩
  | .cmpGtOrAndcmP1P2R0R3 o => some ⟨.a, 0x1d000000000#41 ||| o.enc, 0#41⟩
  | .cmp4EqP1P2R2R3 o => some ⟨.a, 0x1c400000000#41 ||| o.enc, 0#41⟩
  | .cmp4GtOrAndcmP1P2R0R3 o => some ⟨.a, 0x1d400000000#41 ||| o.enc, 0#41⟩
  | .cmpEqP1P2Imm8R3 o => some ⟨.a, 0x1c800000000#41 ||| o.enc, 0#41⟩
  | .cmp4EqP1P2Imm8R3 o => some ⟨.a, 0x1cc00000000#41 ||| o.enc, 0#41⟩
  | .cmpEqUncP1P2R2R3 o => some ⟨.a, 0x1c000001000#41 ||| o.enc, 0#41⟩
  | .cmpLeOrAndcmP1P2R0R3 o => some ⟨.a, 0x1d000001000#41 ||| o.enc, 0#41⟩
  | .cmp4EqUncP1P2R2R3 o => some ⟨.a, 0x1c400001000#41 ||| o.enc, 0#41⟩
  | .cmp4LeOrAndcmP1P2R0R3 o => some ⟨.a, 0x1d400001000#41 ||| o.enc, 0#41⟩
  | .cmpEqUncP1P2Imm8R3 o => some ⟨.a, 0x1c800001000#41 ||| o.enc, 0#41⟩
  | .cmp4EqUncP1P2Imm8R3 o => some ⟨.a, 0x1cc00001000#41 ||| o.enc, 0#41⟩
  | .cmpEqOrAndcmP1P2R2R3 o => some ⟨.a, 0x1c200000000#41 ||| o.enc, 0#41⟩
  | .cmpGeOrAndcmP1P2R0R3 o => some ⟨.a, 0x1d200000000#41 ||| o.enc, 0#41⟩
  | .cmp4EqOrAndcmP1P2R2R3 o => some ⟨.a, 0x1c600000000#41 ||| o.enc, 0#41⟩
  | .cmp4GeOrAndcmP1P2R0R3 o => some ⟨.a, 0x1d600000000#41 ||| o.enc, 0#41⟩
  | .cmpEqOrAndcmP1P2Imm8R3 o => some ⟨.a, 0x1ca00000000#41 ||| o.enc, 0#41⟩
  | .cmp4EqOrAndcmP1P2Imm8R3 o => some ⟨.a, 0x1ce00000000#41 ||| o.enc, 0#41⟩
  | .cmpNeOrAndcmP1P2R2R3 o => some ⟨.a, 0x1c200001000#41 ||| o.enc, 0#41⟩
  | .cmpLtOrAndcmP1P2R0R3 o => some ⟨.a, 0x1d200001000#41 ||| o.enc, 0#41⟩
  | .cmp4NeOrAndcmP1P2R2R3 o => some ⟨.a, 0x1c600001000#41 ||| o.enc, 0#41⟩
  | .cmp4LtOrAndcmP1P2R0R3 o => some ⟨.a, 0x1d600001000#41 ||| o.enc, 0#41⟩
  | .cmpNeOrAndcmP1P2Imm8R3 o => some ⟨.a, 0x1ca00001000#41 ||| o.enc, 0#41⟩
  | .cmp4NeOrAndcmP1P2Imm8R3 o => some ⟨.a, 0x1ce00001000#41 ||| o.enc, 0#41⟩
  | .padd1 o => some ⟨.a, 0x10400000000#41 ||| o.enc, 0#41⟩
  | .padd1Sss o => some ⟨.a, 0x10408000000#41 ||| o.enc, 0#41⟩
  | .padd1Uuu o => some ⟨.a, 0x10410000000#41 ||| o.enc, 0#41⟩
  | .padd1Uus o => some ⟨.a, 0x10418000000#41 ||| o.enc, 0#41⟩
  | .padd2 o => some ⟨.a, 0x10600000000#41 ||| o.enc, 0#41⟩
  | .padd2Sss o => some ⟨.a, 0x10608000000#41 ||| o.enc, 0#41⟩
  | .padd2Uuu o => some ⟨.a, 0x10610000000#41 ||| o.enc, 0#41⟩
  | .padd2Uus o => some ⟨.a, 0x10618000000#41 ||| o.enc, 0#41⟩
  | .padd4 o => some ⟨.a, 0x11400000000#41 ||| o.enc, 0#41⟩
  | .psub1 o => some ⟨.a, 0x10420000000#41 ||| o.enc, 0#41⟩
  | .psub1Sss o => some ⟨.a, 0x10428000000#41 ||| o.enc, 0#41⟩
  | .psub1Uuu o => some ⟨.a, 0x10430000000#41 ||| o.enc, 0#41⟩
  | .psub1Uus o => some ⟨.a, 0x10438000000#41 ||| o.enc, 0#41⟩
  | .psub2 o => some ⟨.a, 0x10620000000#41 ||| o.enc, 0#41⟩
  | .psub2Sss o => some ⟨.a, 0x10628000000#41 ||| o.enc, 0#41⟩
  | .psub2Uuu o => some ⟨.a, 0x10630000000#41 ||| o.enc, 0#41⟩
  | .psub2Uus o => some ⟨.a, 0x10638000000#41 ||| o.enc, 0#41⟩
  | .psub4 o => some ⟨.a, 0x11420000000#41 ||| o.enc, 0#41⟩
  | .pavg1 o => some ⟨.a, 0x10450000000#41 ||| o.enc, 0#41⟩
  | .pavg1Raz o => some ⟨.a, 0x10458000000#41 ||| o.enc, 0#41⟩
  | .pavgsub1 o => some ⟨.a, 0x10470000000#41 ||| o.enc, 0#41⟩
  | .pavg2 o => some ⟨.a, 0x10650000000#41 ||| o.enc, 0#41⟩
  | .pavg2Raz o => some ⟨.a, 0x10658000000#41 ||| o.enc, 0#41⟩
  | .pavgsub2 o => some ⟨.a, 0x10670000000#41 ||| o.enc, 0#41⟩
  | .pcmp1Eq o => some ⟨.a, 0x10520000000#41 ||| o.enc, 0#41⟩
  | .pcmp1Gt o => some ⟨.a, 0x10528000000#41 ||| o.enc, 0#41⟩
  | .pcmp2Eq o => some ⟨.a, 0x10720000000#41 ||| o.enc, 0#41⟩
  | .pcmp2Gt o => some ⟨.a, 0x10728000000#41 ||| o.enc, 0#41⟩
  | .pcmp4Eq o => some ⟨.a, 0x11520000000#41 ||| o.enc, 0#41⟩
  | .pcmp4Gt o => some ⟨.a, 0x11528000000#41 ||| o.enc, 0#41⟩
  | .pshladd2 o => some ⟨.a, 0x10680000000#41 ||| o.enc, 0#41⟩
  | .pshradd2 o => some ⟨.a, 0x106c0000000#41 ||| o.enc, 0#41⟩
  | .pmpyshr2 _ => none
  | .pmpy2 _ => none
  | .mixPack _ => none
  | .mux1 _ => none
  | .mux2 _ => none
  | .pshrVar _ => none
  | .pshrFix _ => none
  | .pshlVar _ => none
  | .pshlFix _ => none
  | .popcnt _ => none
  | .shr o => some ⟨.i, 0x0f220000000#41 ||| o.enc, 0#41⟩
  | .shrU o => some ⟨.i, 0x0f200000000#41 ||| o.enc, 0#41⟩
  | .shl o => some ⟨.i, 0x0f240000000#41 ||| o.enc, 0#41⟩
  | .shrp o => some ⟨.i, 0x0ac00000000#41 ||| o.enc, 0#41⟩
  | .extr o => some ⟨.i, 0x0a400002000#41 ||| o.enc, 0#41⟩
  | .extrU o => some ⟨.i, 0x0a400000000#41 ||| o.enc, 0#41⟩
  | .depZ o => some ⟨.i, 0x0a600000000#41 ||| o.enc, 0#41⟩
  | .depZR1Imm8 o => some ⟨.i, 0x0a604000000#41 ||| o.enc, 0#41⟩
  | .depR1Imm1R3 o => some ⟨.i, 0x0ae00000000#41 ||| o.enc, 0#41⟩
  | .dep o => some ⟨.i, 0x08000000000#41 ||| o.enc, 0#41⟩
  | .tbitZ o => some ⟨.i, 0x0a000000000#41 ||| o.enc, 0#41⟩
  | .tnatZ o => some ⟨.i, 0x0a000002000#41 ||| o.enc, 0#41⟩
  | .tbitZUnc o => some ⟨.i, 0x0a000001000#41 ||| o.enc, 0#41⟩
  | .tnatZUnc o => some ⟨.i, 0x0a000003000#41 ||| o.enc, 0#41⟩
  | .tbitZAnd o => some ⟨.i, 0x0b000000000#41 ||| o.enc, 0#41⟩
  | .tnatZAnd o => some ⟨.i, 0x0b000002000#41 ||| o.enc, 0#41⟩
  | .tbitNzAnd o => some ⟨.i, 0x0b000001000#41 ||| o.enc, 0#41⟩
  | .tnatNzAnd o => some ⟨.i, 0x0b000003000#41 ||| o.enc, 0#41⟩
  | .tbitZOr o => some ⟨.i, 0x0a200000000#41 ||| o.enc, 0#41⟩
  | .tnatZOr o => some ⟨.i, 0x0a200002000#41 ||| o.enc, 0#41⟩
  | .tbitNzOr o => some ⟨.i, 0x0a200001000#41 ||| o.enc, 0#41⟩
  | .tnatNzOr o => some ⟨.i, 0x0a200003000#41 ||| o.enc, 0#41⟩
  | .tbitZOrAndcm o => some ⟨.i, 0x0b200000000#41 ||| o.enc, 0#41⟩
  | .tnatZOrAndcm o => some ⟨.i, 0x0b200002000#41 ||| o.enc, 0#41⟩
  | .tbitNzOrAndcm o => some ⟨.i, 0x0b200001000#41 ||| o.enc, 0#41⟩
  | .tnatNzOrAndcm o => some ⟨.i, 0x0b200003000#41 ||| o.enc, 0#41⟩
  | .breakI o => some ⟨.i, 0x00000000000#41 ||| o.enc, 0#41⟩
  | .nopI o => some ⟨.i, 0x00008000000#41 ||| o.enc, 0#41⟩
  | .hintI o => some ⟨.i, 0x0000c000000#41 ||| o.enc, 0#41⟩
  | .chkSI o => some ⟨.i, 0x00200000000#41 ||| o.enc, 0#41⟩
  | .movB1R2 o => some ⟨.i, 0x00e00000000#41 ||| o.enc, 0#41⟩
  | .movR1B2 o => some ⟨.i, 0x00188000000#41 ||| o.enc, 0#41⟩
  | .movPrR2Mask17 o => some ⟨.i, 0x00600000000#41 ||| o.enc, 0#41⟩
  | .movPrRotImm44 o => some ⟨.i, 0x00400000000#41 ||| o.enc, 0#41⟩
  | .movR1Ip o => some ⟨.i, 0x00180000000#41 ||| o.enc, 0#41⟩
  | .movR1Pr o => some ⟨.i, 0x00198000000#41 ||| o.enc, 0#41⟩
  | .movIAr3R2 o => some ⟨.i, 0x00150000000#41 ||| o.enc, 0#41⟩
  | .movIAr3Imm8 o => some ⟨.i, 0x00050000000#41 ||| o.enc, 0#41⟩
  | .movIR1Ar3 o => some ⟨.i, 0x00190000000#41 ||| o.enc, 0#41⟩
  | .zxt1 o => some ⟨.i, 0x00080000000#41 ||| o.enc, 0#41⟩
  | .zxt2 o => some ⟨.i, 0x00088000000#41 ||| o.enc, 0#41⟩
  | .zxt4 o => some ⟨.i, 0x00090000000#41 ||| o.enc, 0#41⟩
  | .sxt1 o => some ⟨.i, 0x000a0000000#41 ||| o.enc, 0#41⟩
  | .sxt2 o => some ⟨.i, 0x000a8000000#41 ||| o.enc, 0#41⟩
  | .sxt4 o => some ⟨.i, 0x000b0000000#41 ||| o.enc, 0#41⟩
  | .czx1L o => some ⟨.i, 0x000c0000000#41 ||| o.enc, 0#41⟩
  | .czx2L o => some ⟨.i, 0x000c8000000#41 ||| o.enc, 0#41⟩
  | .czx1R o => some ⟨.i, 0x000e0000000#41 ||| o.enc, 0#41⟩
  | .czx2R o => some ⟨.i, 0x000e8000000#41 ||| o.enc, 0#41⟩
  | .ld1R1R3 o => some ⟨.m, 0x08000000000#41 ||| o.enc, 0#41⟩
  | .ld1R1R3R2 o => some ⟨.m, 0x09000000000#41 ||| o.enc, 0#41⟩
  | .ld1R1R3Imm9 o => some ⟨.m, 0x0a000000000#41 ||| o.enc, 0#41⟩
  | .ld2R1R3 o => some ⟨.m, 0x08040000000#41 ||| o.enc, 0#41⟩
  | .ld2R1R3R2 o => some ⟨.m, 0x09040000000#41 ||| o.enc, 0#41⟩
  | .ld2R1R3Imm9 o => some ⟨.m, 0x0a040000000#41 ||| o.enc, 0#41⟩
  | .ld4R1R3 o => some ⟨.m, 0x08080000000#41 ||| o.enc, 0#41⟩
  | .ld4R1R3R2 o => some ⟨.m, 0x09080000000#41 ||| o.enc, 0#41⟩
  | .ld4R1R3Imm9 o => some ⟨.m, 0x0a080000000#41 ||| o.enc, 0#41⟩
  | .ld8R1R3 o => some ⟨.m, 0x080c0000000#41 ||| o.enc, 0#41⟩
  | .ld8R1R3R2 o => some ⟨.m, 0x090c0000000#41 ||| o.enc, 0#41⟩
  | .ld8R1R3Imm9 o => some ⟨.m, 0x0a0c0000000#41 ||| o.enc, 0#41⟩
  | .ld1SR1R3 o => some ⟨.m, 0x08100000000#41 ||| o.enc, 0#41⟩
  | .ld1SR1R3R2 o => some ⟨.m, 0x09100000000#41 ||| o.enc, 0#41⟩
  | .ld1SR1R3Imm9 o => some ⟨.m, 0x0a100000000#41 ||| o.enc, 0#41⟩
  | .ld2SR1R3 o => some ⟨.m, 0x08140000000#41 ||| o.enc, 0#41⟩
  | .ld2SR1R3R2 o => some ⟨.m, 0x09140000000#41 ||| o.enc, 0#41⟩
  | .ld2SR1R3Imm9 o => some ⟨.m, 0x0a140000000#41 ||| o.enc, 0#41⟩
  | .ld4SR1R3 o => some ⟨.m, 0x08180000000#41 ||| o.enc, 0#41⟩
  | .ld4SR1R3R2 o => some ⟨.m, 0x09180000000#41 ||| o.enc, 0#41⟩
  | .ld4SR1R3Imm9 o => some ⟨.m, 0x0a180000000#41 ||| o.enc, 0#41⟩
  | .ld8SR1R3 o => some ⟨.m, 0x081c0000000#41 ||| o.enc, 0#41⟩
  | .ld8SR1R3R2 o => some ⟨.m, 0x091c0000000#41 ||| o.enc, 0#41⟩
  | .ld8SR1R3Imm9 o => some ⟨.m, 0x0a1c0000000#41 ||| o.enc, 0#41⟩
  | .ld1AR1R3 o => some ⟨.m, 0x08200000000#41 ||| o.enc, 0#41⟩
  | .ld1AR1R3R2 o => some ⟨.m, 0x09200000000#41 ||| o.enc, 0#41⟩
  | .ld1AR1R3Imm9 o => some ⟨.m, 0x0a200000000#41 ||| o.enc, 0#41⟩
  | .ld2AR1R3 o => some ⟨.m, 0x08240000000#41 ||| o.enc, 0#41⟩
  | .ld2AR1R3R2 o => some ⟨.m, 0x09240000000#41 ||| o.enc, 0#41⟩
  | .ld2AR1R3Imm9 o => some ⟨.m, 0x0a240000000#41 ||| o.enc, 0#41⟩
  | .ld4AR1R3 o => some ⟨.m, 0x08280000000#41 ||| o.enc, 0#41⟩
  | .ld4AR1R3R2 o => some ⟨.m, 0x09280000000#41 ||| o.enc, 0#41⟩
  | .ld4AR1R3Imm9 o => some ⟨.m, 0x0a280000000#41 ||| o.enc, 0#41⟩
  | .ld8AR1R3 o => some ⟨.m, 0x082c0000000#41 ||| o.enc, 0#41⟩
  | .ld8AR1R3R2 o => some ⟨.m, 0x092c0000000#41 ||| o.enc, 0#41⟩
  | .ld8AR1R3Imm9 o => some ⟨.m, 0x0a2c0000000#41 ||| o.enc, 0#41⟩
  | .ld1SaR1R3 o => some ⟨.m, 0x08300000000#41 ||| o.enc, 0#41⟩
  | .ld1SaR1R3R2 o => some ⟨.m, 0x09300000000#41 ||| o.enc, 0#41⟩
  | .ld1SaR1R3Imm9 o => some ⟨.m, 0x0a300000000#41 ||| o.enc, 0#41⟩
  | .ld2SaR1R3 o => some ⟨.m, 0x08340000000#41 ||| o.enc, 0#41⟩
  | .ld2SaR1R3R2 o => some ⟨.m, 0x09340000000#41 ||| o.enc, 0#41⟩
  | .ld2SaR1R3Imm9 o => some ⟨.m, 0x0a340000000#41 ||| o.enc, 0#41⟩
  | .ld4SaR1R3 o => some ⟨.m, 0x08380000000#41 ||| o.enc, 0#41⟩
  | .ld4SaR1R3R2 o => some ⟨.m, 0x09380000000#41 ||| o.enc, 0#41⟩
  | .ld4SaR1R3Imm9 o => some ⟨.m, 0x0a380000000#41 ||| o.enc, 0#41⟩
  | .ld8SaR1R3 o => some ⟨.m, 0x083c0000000#41 ||| o.enc, 0#41⟩
  | .ld8SaR1R3R2 o => some ⟨.m, 0x093c0000000#41 ||| o.enc, 0#41⟩
  | .ld8SaR1R3Imm9 o => some ⟨.m, 0x0a3c0000000#41 ||| o.enc, 0#41⟩
  | .ld1BiasR1R3 o => some ⟨.m, 0x08400000000#41 ||| o.enc, 0#41⟩
  | .ld1BiasR1R3R2 o => some ⟨.m, 0x09400000000#41 ||| o.enc, 0#41⟩
  | .ld1BiasR1R3Imm9 o => some ⟨.m, 0x0a400000000#41 ||| o.enc, 0#41⟩
  | .ld2BiasR1R3 o => some ⟨.m, 0x08440000000#41 ||| o.enc, 0#41⟩
  | .ld2BiasR1R3R2 o => some ⟨.m, 0x09440000000#41 ||| o.enc, 0#41⟩
  | .ld2BiasR1R3Imm9 o => some ⟨.m, 0x0a440000000#41 ||| o.enc, 0#41⟩
  | .ld4BiasR1R3 o => some ⟨.m, 0x08480000000#41 ||| o.enc, 0#41⟩
  | .ld4BiasR1R3R2 o => some ⟨.m, 0x09480000000#41 ||| o.enc, 0#41⟩
  | .ld4BiasR1R3Imm9 o => some ⟨.m, 0x0a480000000#41 ||| o.enc, 0#41⟩
  | .ld8BiasR1R3 o => some ⟨.m, 0x084c0000000#41 ||| o.enc, 0#41⟩
  | .ld8BiasR1R3R2 o => some ⟨.m, 0x094c0000000#41 ||| o.enc, 0#41⟩
  | .ld8BiasR1R3Imm9 o => some ⟨.m, 0x0a4c0000000#41 ||| o.enc, 0#41⟩
  | .ld1AcqR1R3 o => some ⟨.m, 0x08500000000#41 ||| o.enc, 0#41⟩
  | .ld1AcqR1R3R2 o => some ⟨.m, 0x09500000000#41 ||| o.enc, 0#41⟩
  | .ld1AcqR1R3Imm9 o => some ⟨.m, 0x0a500000000#41 ||| o.enc, 0#41⟩
  | .ld2AcqR1R3 o => some ⟨.m, 0x08540000000#41 ||| o.enc, 0#41⟩
  | .ld2AcqR1R3R2 o => some ⟨.m, 0x09540000000#41 ||| o.enc, 0#41⟩
  | .ld2AcqR1R3Imm9 o => some ⟨.m, 0x0a540000000#41 ||| o.enc, 0#41⟩
  | .ld4AcqR1R3 o => some ⟨.m, 0x08580000000#41 ||| o.enc, 0#41⟩
  | .ld4AcqR1R3R2 o => some ⟨.m, 0x09580000000#41 ||| o.enc, 0#41⟩
  | .ld4AcqR1R3Imm9 o => some ⟨.m, 0x0a580000000#41 ||| o.enc, 0#41⟩
  | .ld8AcqR1R3 o => some ⟨.m, 0x085c0000000#41 ||| o.enc, 0#41⟩
  | .ld8AcqR1R3R2 o => some ⟨.m, 0x095c0000000#41 ||| o.enc, 0#41⟩
  | .ld8AcqR1R3Imm9 o => some ⟨.m, 0x0a5c0000000#41 ||| o.enc, 0#41⟩
  | .ld1CClrR1R3 o => some ⟨.m, 0x08800000000#41 ||| o.enc, 0#41⟩
  | .ld1CClrR1R3R2 o => some ⟨.m, 0x09800000000#41 ||| o.enc, 0#41⟩
  | .ld1CClrR1R3Imm9 o => some ⟨.m, 0x0a800000000#41 ||| o.enc, 0#41⟩
  | .ld2CClrR1R3 o => some ⟨.m, 0x08840000000#41 ||| o.enc, 0#41⟩
  | .ld2CClrR1R3R2 o => some ⟨.m, 0x09840000000#41 ||| o.enc, 0#41⟩
  | .ld2CClrR1R3Imm9 o => some ⟨.m, 0x0a840000000#41 ||| o.enc, 0#41⟩
  | .ld4CClrR1R3 o => some ⟨.m, 0x08880000000#41 ||| o.enc, 0#41⟩
  | .ld4CClrR1R3R2 o => some ⟨.m, 0x09880000000#41 ||| o.enc, 0#41⟩
  | .ld4CClrR1R3Imm9 o => some ⟨.m, 0x0a880000000#41 ||| o.enc, 0#41⟩
  | .ld8CClrR1R3 o => some ⟨.m, 0x088c0000000#41 ||| o.enc, 0#41⟩
  | .ld8CClrR1R3R2 o => some ⟨.m, 0x098c0000000#41 ||| o.enc, 0#41⟩
  | .ld8CClrR1R3Imm9 o => some ⟨.m, 0x0a8c0000000#41 ||| o.enc, 0#41⟩
  | .ld1CNcR1R3 o => some ⟨.m, 0x08900000000#41 ||| o.enc, 0#41⟩
  | .ld1CNcR1R3R2 o => some ⟨.m, 0x09900000000#41 ||| o.enc, 0#41⟩
  | .ld1CNcR1R3Imm9 o => some ⟨.m, 0x0a900000000#41 ||| o.enc, 0#41⟩
  | .ld2CNcR1R3 o => some ⟨.m, 0x08940000000#41 ||| o.enc, 0#41⟩
  | .ld2CNcR1R3R2 o => some ⟨.m, 0x09940000000#41 ||| o.enc, 0#41⟩
  | .ld2CNcR1R3Imm9 o => some ⟨.m, 0x0a940000000#41 ||| o.enc, 0#41⟩
  | .ld4CNcR1R3 o => some ⟨.m, 0x08980000000#41 ||| o.enc, 0#41⟩
  | .ld4CNcR1R3R2 o => some ⟨.m, 0x09980000000#41 ||| o.enc, 0#41⟩
  | .ld4CNcR1R3Imm9 o => some ⟨.m, 0x0a980000000#41 ||| o.enc, 0#41⟩
  | .ld8CNcR1R3 o => some ⟨.m, 0x089c0000000#41 ||| o.enc, 0#41⟩
  | .ld8CNcR1R3R2 o => some ⟨.m, 0x099c0000000#41 ||| o.enc, 0#41⟩
  | .ld8CNcR1R3Imm9 o => some ⟨.m, 0x0a9c0000000#41 ||| o.enc, 0#41⟩
  | .ld1CClrAcqR1R3 o => some ⟨.m, 0x08a00000000#41 ||| o.enc, 0#41⟩
  | .ld1CClrAcqR1R3R2 o => some ⟨.m, 0x09a00000000#41 ||| o.enc, 0#41⟩
  | .ld1CClrAcqR1R3Imm9 o => some ⟨.m, 0x0aa00000000#41 ||| o.enc, 0#41⟩
  | .ld2CClrAcqR1R3 o => some ⟨.m, 0x08a40000000#41 ||| o.enc, 0#41⟩
  | .ld2CClrAcqR1R3R2 o => some ⟨.m, 0x09a40000000#41 ||| o.enc, 0#41⟩
  | .ld2CClrAcqR1R3Imm9 o => some ⟨.m, 0x0aa40000000#41 ||| o.enc, 0#41⟩
  | .ld4CClrAcqR1R3 o => some ⟨.m, 0x08a80000000#41 ||| o.enc, 0#41⟩
  | .ld4CClrAcqR1R3R2 o => some ⟨.m, 0x09a80000000#41 ||| o.enc, 0#41⟩
  | .ld4CClrAcqR1R3Imm9 o => some ⟨.m, 0x0aa80000000#41 ||| o.enc, 0#41⟩
  | .ld8CClrAcqR1R3 o => some ⟨.m, 0x08ac0000000#41 ||| o.enc, 0#41⟩
  | .ld8CClrAcqR1R3R2 o => some ⟨.m, 0x09ac0000000#41 ||| o.enc, 0#41⟩
  | .ld8CClrAcqR1R3Imm9 o => some ⟨.m, 0x0aac0000000#41 ||| o.enc, 0#41⟩
  | .ld8FillR1R3 o => some ⟨.m, 0x086c0000000#41 ||| o.enc, 0#41⟩
  | .ld8FillR1R3R2 o => some ⟨.m, 0x096c0000000#41 ||| o.enc, 0#41⟩
  | .ld8FillR1R3Imm9 o => some ⟨.m, 0x0a6c0000000#41 ||| o.enc, 0#41⟩
  | .ld16R1ArCsdR3 o => some ⟨.m, 0x08a08000000#41 ||| o.enc, 0#41⟩
  | .ld16AcqR1ArCsdR3 o => some ⟨.m, 0x08b08000000#41 ||| o.enc, 0#41⟩
  | .st1R3R2 o => some ⟨.m, 0x08c00000000#41 ||| o.enc, 0#41⟩
  | .st1R3R2Imm9 o => some ⟨.m, 0x0ac00000000#41 ||| o.enc, 0#41⟩
  | .st2R3R2 o => some ⟨.m, 0x08c40000000#41 ||| o.enc, 0#41⟩
  | .st2R3R2Imm9 o => some ⟨.m, 0x0ac40000000#41 ||| o.enc, 0#41⟩
  | .st4R3R2 o => some ⟨.m, 0x08c80000000#41 ||| o.enc, 0#41⟩
  | .st4R3R2Imm9 o => some ⟨.m, 0x0ac80000000#41 ||| o.enc, 0#41⟩
  | .st8R3R2 o => some ⟨.m, 0x08cc0000000#41 ||| o.enc, 0#41⟩
  | .st8R3R2Imm9 o => some ⟨.m, 0x0acc0000000#41 ||| o.enc, 0#41⟩
  | .st1RelR3R2 o => some ⟨.m, 0x08d00000000#41 ||| o.enc, 0#41⟩
  | .st1RelR3R2Imm9 o => some ⟨.m, 0x0ad00000000#41 ||| o.enc, 0#41⟩
  | .st2RelR3R2 o => some ⟨.m, 0x08d40000000#41 ||| o.enc, 0#41⟩
  | .st2RelR3R2Imm9 o => some ⟨.m, 0x0ad40000000#41 ||| o.enc, 0#41⟩
  | .st4RelR3R2 o => some ⟨.m, 0x08d80000000#41 ||| o.enc, 0#41⟩
  | .st4RelR3R2Imm9 o => some ⟨.m, 0x0ad80000000#41 ||| o.enc, 0#41⟩
  | .st8RelR3R2 o => some ⟨.m, 0x08dc0000000#41 ||| o.enc, 0#41⟩
  | .st8RelR3R2Imm9 o => some ⟨.m, 0x0adc0000000#41 ||| o.enc, 0#41⟩
  | .st8SpillR3R2 o => some ⟨.m, 0x08ec0000000#41 ||| o.enc, 0#41⟩
  | .st8SpillR3R2Imm9 o => some ⟨.m, 0x0aec0000000#41 ||| o.enc, 0#41⟩
  | .st16R3R2ArCsd o => some ⟨.m, 0x08c08000000#41 ||| o.enc, 0#41⟩
  | .st16RelR3R2ArCsd o => some ⟨.m, 0x08d08000000#41 ||| o.enc, 0#41⟩
  | .ldfeF1R3 o => some ⟨.m, 0x0c000000000#41 ||| o.enc, 0#41⟩
  | .ldfeF1R3R2 o => some ⟨.m, 0x0d000000000#41 ||| o.enc, 0#41⟩
  | .ldfeF1R3Imm9 o => some ⟨.m, 0x0e000000000#41 ||| o.enc, 0#41⟩
  | .ldf8F1R3 o => some ⟨.m, 0x0c040000000#41 ||| o.enc, 0#41⟩
  | .ldf8F1R3R2 o => some ⟨.m, 0x0d040000000#41 ||| o.enc, 0#41⟩
  | .ldf8F1R3Imm9 o => some ⟨.m, 0x0e040000000#41 ||| o.enc, 0#41⟩
  | .ldfsF1R3 o => some ⟨.m, 0x0c080000000#41 ||| o.enc, 0#41⟩
  | .ldfsF1R3R2 o => some ⟨.m, 0x0d080000000#41 ||| o.enc, 0#41⟩
  | .ldfsF1R3Imm9 o => some ⟨.m, 0x0e080000000#41 ||| o.enc, 0#41⟩
  | .ldfdF1R3 o => some ⟨.m, 0x0c0c0000000#41 ||| o.enc, 0#41⟩
  | .ldfdF1R3R2 o => some ⟨.m, 0x0d0c0000000#41 ||| o.enc, 0#41⟩
  | .ldfdF1R3Imm9 o => some ⟨.m, 0x0e0c0000000#41 ||| o.enc, 0#41⟩
  | .ldfeSF1R3 o => some ⟨.m, 0x0c100000000#41 ||| o.enc, 0#41⟩
  | .ldfeSF1R3R2 o => some ⟨.m, 0x0d100000000#41 ||| o.enc, 0#41⟩
  | .ldfeSF1R3Imm9 o => some ⟨.m, 0x0e100000000#41 ||| o.enc, 0#41⟩
  | .ldf8SF1R3 o => some ⟨.m, 0x0c140000000#41 ||| o.enc, 0#41⟩
  | .ldf8SF1R3R2 o => some ⟨.m, 0x0d140000000#41 ||| o.enc, 0#41⟩
  | .ldf8SF1R3Imm9 o => some ⟨.m, 0x0e140000000#41 ||| o.enc, 0#41⟩
  | .ldfsSF1R3 o => some ⟨.m, 0x0c180000000#41 ||| o.enc, 0#41⟩
  | .ldfsSF1R3R2 o => some ⟨.m, 0x0d180000000#41 ||| o.enc, 0#41⟩
  | .ldfsSF1R3Imm9 o => some ⟨.m, 0x0e180000000#41 ||| o.enc, 0#41⟩
  | .ldfdSF1R3 o => some ⟨.m, 0x0c1c0000000#41 ||| o.enc, 0#41⟩
  | .ldfdSF1R3R2 o => some ⟨.m, 0x0d1c0000000#41 ||| o.enc, 0#41⟩
  | .ldfdSF1R3Imm9 o => some ⟨.m, 0x0e1c0000000#41 ||| o.enc, 0#41⟩
  | .ldfeAF1R3 o => some ⟨.m, 0x0c200000000#41 ||| o.enc, 0#41⟩
  | .ldfeAF1R3R2 o => some ⟨.m, 0x0d200000000#41 ||| o.enc, 0#41⟩
  | .ldfeAF1R3Imm9 o => some ⟨.m, 0x0e200000000#41 ||| o.enc, 0#41⟩
  | .ldf8AF1R3 o => some ⟨.m, 0x0c240000000#41 ||| o.enc, 0#41⟩
  | .ldf8AF1R3R2 o => some ⟨.m, 0x0d240000000#41 ||| o.enc, 0#41⟩
  | .ldf8AF1R3Imm9 o => some ⟨.m, 0x0e240000000#41 ||| o.enc, 0#41⟩
  | .ldfsAF1R3 o => some ⟨.m, 0x0c280000000#41 ||| o.enc, 0#41⟩
  | .ldfsAF1R3R2 o => some ⟨.m, 0x0d280000000#41 ||| o.enc, 0#41⟩
  | .ldfsAF1R3Imm9 o => some ⟨.m, 0x0e280000000#41 ||| o.enc, 0#41⟩
  | .ldfdAF1R3 o => some ⟨.m, 0x0c2c0000000#41 ||| o.enc, 0#41⟩
  | .ldfdAF1R3R2 o => some ⟨.m, 0x0d2c0000000#41 ||| o.enc, 0#41⟩
  | .ldfdAF1R3Imm9 o => some ⟨.m, 0x0e2c0000000#41 ||| o.enc, 0#41⟩
  | .ldfeSaF1R3 o => some ⟨.m, 0x0c300000000#41 ||| o.enc, 0#41⟩
  | .ldfeSaF1R3R2 o => some ⟨.m, 0x0d300000000#41 ||| o.enc, 0#41⟩
  | .ldfeSaF1R3Imm9 o => some ⟨.m, 0x0e300000000#41 ||| o.enc, 0#41⟩
  | .ldf8SaF1R3 o => some ⟨.m, 0x0c340000000#41 ||| o.enc, 0#41⟩
  | .ldf8SaF1R3R2 o => some ⟨.m, 0x0d340000000#41 ||| o.enc, 0#41⟩
  | .ldf8SaF1R3Imm9 o => some ⟨.m, 0x0e340000000#41 ||| o.enc, 0#41⟩
  | .ldfsSaF1R3 o => some ⟨.m, 0x0c380000000#41 ||| o.enc, 0#41⟩
  | .ldfsSaF1R3R2 o => some ⟨.m, 0x0d380000000#41 ||| o.enc, 0#41⟩
  | .ldfsSaF1R3Imm9 o => some ⟨.m, 0x0e380000000#41 ||| o.enc, 0#41⟩
  | .ldfdSaF1R3 o => some ⟨.m, 0x0c3c0000000#41 ||| o.enc, 0#41⟩
  | .ldfdSaF1R3R2 o => some ⟨.m, 0x0d3c0000000#41 ||| o.enc, 0#41⟩
  | .ldfdSaF1R3Imm9 o => some ⟨.m, 0x0e3c0000000#41 ||| o.enc, 0#41⟩
  | .ldfeCClrF1R3 o => some ⟨.m, 0x0c800000000#41 ||| o.enc, 0#41⟩
  | .ldfeCClrF1R3R2 o => some ⟨.m, 0x0d800000000#41 ||| o.enc, 0#41⟩
  | .ldfeCClrF1R3Imm9 o => some ⟨.m, 0x0e800000000#41 ||| o.enc, 0#41⟩
  | .ldf8CClrF1R3 o => some ⟨.m, 0x0c840000000#41 ||| o.enc, 0#41⟩
  | .ldf8CClrF1R3R2 o => some ⟨.m, 0x0d840000000#41 ||| o.enc, 0#41⟩
  | .ldf8CClrF1R3Imm9 o => some ⟨.m, 0x0e840000000#41 ||| o.enc, 0#41⟩
  | .ldfsCClrF1R3 o => some ⟨.m, 0x0c880000000#41 ||| o.enc, 0#41⟩
  | .ldfsCClrF1R3R2 o => some ⟨.m, 0x0d880000000#41 ||| o.enc, 0#41⟩
  | .ldfsCClrF1R3Imm9 o => some ⟨.m, 0x0e880000000#41 ||| o.enc, 0#41⟩
  | .ldfdCClrF1R3 o => some ⟨.m, 0x0c8c0000000#41 ||| o.enc, 0#41⟩
  | .ldfdCClrF1R3R2 o => some ⟨.m, 0x0d8c0000000#41 ||| o.enc, 0#41⟩
  | .ldfdCClrF1R3Imm9 o => some ⟨.m, 0x0e8c0000000#41 ||| o.enc, 0#41⟩
  | .ldfeCNcF1R3 o => some ⟨.m, 0x0c900000000#41 ||| o.enc, 0#41⟩
  | .ldfeCNcF1R3R2 o => some ⟨.m, 0x0d900000000#41 ||| o.enc, 0#41⟩
  | .ldfeCNcF1R3Imm9 o => some ⟨.m, 0x0e900000000#41 ||| o.enc, 0#41⟩
  | .ldf8CNcF1R3 o => some ⟨.m, 0x0c940000000#41 ||| o.enc, 0#41⟩
  | .ldf8CNcF1R3R2 o => some ⟨.m, 0x0d940000000#41 ||| o.enc, 0#41⟩
  | .ldf8CNcF1R3Imm9 o => some ⟨.m, 0x0e940000000#41 ||| o.enc, 0#41⟩
  | .ldfsCNcF1R3 o => some ⟨.m, 0x0c980000000#41 ||| o.enc, 0#41⟩
  | .ldfsCNcF1R3R2 o => some ⟨.m, 0x0d980000000#41 ||| o.enc, 0#41⟩
  | .ldfsCNcF1R3Imm9 o => some ⟨.m, 0x0e980000000#41 ||| o.enc, 0#41⟩
  | .ldfdCNcF1R3 o => some ⟨.m, 0x0c9c0000000#41 ||| o.enc, 0#41⟩
  | .ldfdCNcF1R3R2 o => some ⟨.m, 0x0d9c0000000#41 ||| o.enc, 0#41⟩
  | .ldfdCNcF1R3Imm9 o => some ⟨.m, 0x0e9c0000000#41 ||| o.enc, 0#41⟩
  | .ldfFillF1R3 o => some ⟨.m, 0x0c6c0000000#41 ||| o.enc, 0#41⟩
  | .ldfFillF1R3R2 o => some ⟨.m, 0x0d6c0000000#41 ||| o.enc, 0#41⟩
  | .ldfFillF1R3Imm9 o => some ⟨.m, 0x0e6c0000000#41 ||| o.enc, 0#41⟩
  | .stfeR3F2 o => some ⟨.m, 0x0cc00000000#41 ||| o.enc, 0#41⟩
  | .stfeR3F2Imm9 o => some ⟨.m, 0x0ec00000000#41 ||| o.enc, 0#41⟩
  | .stf8R3F2 o => some ⟨.m, 0x0cc40000000#41 ||| o.enc, 0#41⟩
  | .stf8R3F2Imm9 o => some ⟨.m, 0x0ec40000000#41 ||| o.enc, 0#41⟩
  | .stfsR3F2 o => some ⟨.m, 0x0cc80000000#41 ||| o.enc, 0#41⟩
  | .stfsR3F2Imm9 o => some ⟨.m, 0x0ec80000000#41 ||| o.enc, 0#41⟩
  | .stfdR3F2 o => some ⟨.m, 0x0ccc0000000#41 ||| o.enc, 0#41⟩
  | .stfdR3F2Imm9 o => some ⟨.m, 0x0ecc0000000#41 ||| o.enc, 0#41⟩
  | .stfSpillR3F2 o => some ⟨.m, 0x0cec0000000#41 ||| o.enc, 0#41⟩
  | .stfSpillR3F2Imm9 o => some ⟨.m, 0x0eec0000000#41 ||| o.enc, 0#41⟩
  | .ldfp8F1F2R3 o => some ⟨.m, 0x0c048000000#41 ||| o.enc, 0#41⟩
  | .ldfp8F1F2R316 o => some ⟨.m, 0x0d048000000#41 ||| o.enc, 0#41⟩
  | .ldfpsF1F2R3 o => some ⟨.m, 0x0c088000000#41 ||| o.enc, 0#41⟩
  | .ldfpsF1F2R38 o => some ⟨.m, 0x0d088000000#41 ||| o.enc, 0#41⟩
  | .ldfpdF1F2R3 o => some ⟨.m, 0x0c0c8000000#41 ||| o.enc, 0#41⟩
  | .ldfpdF1F2R316 o => some ⟨.m, 0x0d0c8000000#41 ||| o.enc, 0#41⟩
  | .ldfp8SF1F2R3 o => some ⟨.m, 0x0c148000000#41 ||| o.enc, 0#41⟩
  | .ldfp8SF1F2R316 o => some ⟨.m, 0x0d148000000#41 ||| o.enc, 0#41⟩
  | .ldfpsSF1F2R3 o => some ⟨.m, 0x0c188000000#41 ||| o.enc, 0#41⟩
  | .ldfpsSF1F2R38 o => some ⟨.m, 0x0d188000000#41 ||| o.enc, 0#41⟩
  | .ldfpdSF1F2R3 o => some ⟨.m, 0x0c1c8000000#41 ||| o.enc, 0#41⟩
  | .ldfpdSF1F2R316 o => some ⟨.m, 0x0d1c8000000#41 ||| o.enc, 0#41⟩
  | .ldfp8AF1F2R3 o => some ⟨.m, 0x0c248000000#41 ||| o.enc, 0#41⟩
  | .ldfp8AF1F2R316 o => some ⟨.m, 0x0d248000000#41 ||| o.enc, 0#41⟩
  | .ldfpsAF1F2R3 o => some ⟨.m, 0x0c288000000#41 ||| o.enc, 0#41⟩
  | .ldfpsAF1F2R38 o => some ⟨.m, 0x0d288000000#41 ||| o.enc, 0#41⟩
  | .ldfpdAF1F2R3 o => some ⟨.m, 0x0c2c8000000#41 ||| o.enc, 0#41⟩
  | .ldfpdAF1F2R316 o => some ⟨.m, 0x0d2c8000000#41 ||| o.enc, 0#41⟩
  | .ldfp8SaF1F2R3 o => some ⟨.m, 0x0c348000000#41 ||| o.enc, 0#41⟩
  | .ldfp8SaF1F2R316 o => some ⟨.m, 0x0d348000000#41 ||| o.enc, 0#41⟩
  | .ldfpsSaF1F2R3 o => some ⟨.m, 0x0c388000000#41 ||| o.enc, 0#41⟩
  | .ldfpsSaF1F2R38 o => some ⟨.m, 0x0d388000000#41 ||| o.enc, 0#41⟩
  | .ldfpdSaF1F2R3 o => some ⟨.m, 0x0c3c8000000#41 ||| o.enc, 0#41⟩
  | .ldfpdSaF1F2R316 o => some ⟨.m, 0x0d3c8000000#41 ||| o.enc, 0#41⟩
  | .ldfp8CClrF1F2R3 o => some ⟨.m, 0x0c848000000#41 ||| o.enc, 0#41⟩
  | .ldfp8CClrF1F2R316 o => some ⟨.m, 0x0d848000000#41 ||| o.enc, 0#41⟩
  | .ldfpsCClrF1F2R3 o => some ⟨.m, 0x0c888000000#41 ||| o.enc, 0#41⟩
  | .ldfpsCClrF1F2R38 o => some ⟨.m, 0x0d888000000#41 ||| o.enc, 0#41⟩
  | .ldfpdCClrF1F2R3 o => some ⟨.m, 0x0c8c8000000#41 ||| o.enc, 0#41⟩
  | .ldfpdCClrF1F2R316 o => some ⟨.m, 0x0d8c8000000#41 ||| o.enc, 0#41⟩
  | .ldfp8CNcF1F2R3 o => some ⟨.m, 0x0c948000000#41 ||| o.enc, 0#41⟩
  | .ldfp8CNcF1F2R316 o => some ⟨.m, 0x0d948000000#41 ||| o.enc, 0#41⟩
  | .ldfpsCNcF1F2R3 o => some ⟨.m, 0x0c988000000#41 ||| o.enc, 0#41⟩
  | .ldfpsCNcF1F2R38 o => some ⟨.m, 0x0d988000000#41 ||| o.enc, 0#41⟩
  | .ldfpdCNcF1F2R3 o => some ⟨.m, 0x0c9c8000000#41 ||| o.enc, 0#41⟩
  | .ldfpdCNcF1F2R316 o => some ⟨.m, 0x0d9c8000000#41 ||| o.enc, 0#41⟩
  | .lfetchR3 o => some ⟨.m, 0x0cb00000000#41 ||| o.enc, 0#41⟩
  | .lfetchR3R2 o => some ⟨.m, 0x0db00000000#41 ||| o.enc, 0#41⟩
  | .lfetchR3Imm9 o => some ⟨.m, 0x0eb00000000#41 ||| o.enc, 0#41⟩
  | .lfetchExclR3 o => some ⟨.m, 0x0cb40000000#41 ||| o.enc, 0#41⟩
  | .lfetchExclR3R2 o => some ⟨.m, 0x0db40000000#41 ||| o.enc, 0#41⟩
  | .lfetchExclR3Imm9 o => some ⟨.m, 0x0eb40000000#41 ||| o.enc, 0#41⟩
  | .lfetchFaultR3 o => some ⟨.m, 0x0cb80000000#41 ||| o.enc, 0#41⟩
  | .lfetchFaultR3R2 o => some ⟨.m, 0x0db80000000#41 ||| o.enc, 0#41⟩
  | .lfetchFaultR3Imm9 o => some ⟨.m, 0x0eb80000000#41 ||| o.enc, 0#41⟩
  | .lfetchFaultExclR3 o => some ⟨.m, 0x0cbc0000000#41 ||| o.enc, 0#41⟩
  | .lfetchFaultExclR3R2 o => some ⟨.m, 0x0dbc0000000#41 ||| o.enc, 0#41⟩
  | .lfetchFaultExclR3Imm9 o => some ⟨.m, 0x0ebc0000000#41 ||| o.enc, 0#41⟩
  | .cmpxchg1Acq o => some ⟨.m, 0x08008000000#41 ||| o.enc, 0#41⟩
  | .cmpxchg1Rel o => some ⟨.m, 0x08108000000#41 ||| o.enc, 0#41⟩
  | .xchg1 o => some ⟨.m, 0x08208000000#41 ||| o.enc, 0#41⟩
  | .cmpxchg2Acq o => some ⟨.m, 0x08048000000#41 ||| o.enc, 0#41⟩
  | .cmpxchg2Rel o => some ⟨.m, 0x08148000000#41 ||| o.enc, 0#41⟩
  | .xchg2 o => some ⟨.m, 0x08248000000#41 ||| o.enc, 0#41⟩
  | .cmpxchg4Acq o => some ⟨.m, 0x08088000000#41 ||| o.enc, 0#41⟩
  | .cmpxchg4Rel o => some ⟨.m, 0x08188000000#41 ||| o.enc, 0#41⟩
  | .xchg4 o => some ⟨.m, 0x08288000000#41 ||| o.enc, 0#41⟩
  | .cmpxchg8Acq o => some ⟨.m, 0x080c8000000#41 ||| o.enc, 0#41⟩
  | .cmpxchg8Rel o => some ⟨.m, 0x081c8000000#41 ||| o.enc, 0#41⟩
  | .xchg8 o => some ⟨.m, 0x082c8000000#41 ||| o.enc, 0#41⟩
  | .cmp8xchg16Acq o => some ⟨.m, 0x08808000000#41 ||| o.enc, 0#41⟩
  | .cmp8xchg16Rel o => some ⟨.m, 0x08908000000#41 ||| o.enc, 0#41⟩
  | .fetchadd4Acq o => some ⟨.m, 0x08488000000#41 ||| o.enc, 0#41⟩
  | .fetchadd8Acq o => some ⟨.m, 0x084c8000000#41 ||| o.enc, 0#41⟩
  | .fetchadd4Rel o => some ⟨.m, 0x08588000000#41 ||| o.enc, 0#41⟩
  | .fetchadd8Rel o => some ⟨.m, 0x085c8000000#41 ||| o.enc, 0#41⟩
  | .setfSig o => some ⟨.m, 0x0c708000000#41 ||| o.enc, 0#41⟩
  | .getfSig o => some ⟨.m, 0x08708000000#41 ||| o.enc, 0#41⟩
  | .setfExp o => some ⟨.m, 0x0c748000000#41 ||| o.enc, 0#41⟩
  | .getfExp o => some ⟨.m, 0x08748000000#41 ||| o.enc, 0#41⟩
  | .setfS o => some ⟨.m, 0x0c788000000#41 ||| o.enc, 0#41⟩
  | .getfS o => some ⟨.m, 0x08788000000#41 ||| o.enc, 0#41⟩
  | .setfD o => some ⟨.m, 0x0c7c8000000#41 ||| o.enc, 0#41⟩
  | .getfD o => some ⟨.m, 0x087c8000000#41 ||| o.enc, 0#41⟩
  | .chkSMR2 o => some ⟨.m, 0x02200000000#41 ||| o.enc, 0#41⟩
  | .chkSF2 o => some ⟨.m, 0x02600000000#41 ||| o.enc, 0#41⟩
  | .chkANcR1 o => some ⟨.m, 0x00800000000#41 ||| o.enc, 0#41⟩
  | .chkAClrR1 o => some ⟨.m, 0x00a00000000#41 ||| o.enc, 0#41⟩
  | .chkANcF1 o => some ⟨.m, 0x00c00000000#41 ||| o.enc, 0#41⟩
  | .chkAClrF1 o => some ⟨.m, 0x00e00000000#41 ||| o.enc, 0#41⟩
  | .breakM o => some ⟨.m, 0x00000000000#41 ||| o.enc, 0#41⟩
  | .invala o => some ⟨.m, 0x00080000000#41 ||| o.enc, 0#41⟩
  | .fwb o => some ⟨.m, 0x00100000000#41 ||| o.enc, 0#41⟩
  | .srlzD o => some ⟨.m, 0x00180000000#41 ||| o.enc, 0#41⟩
  | .nopM o => some ⟨.m, 0x00008000000#41 ||| o.enc, 0#41⟩
  | .hintM o => some ⟨.m, 0x0000c000000#41 ||| o.enc, 0#41⟩
  | .srlzI o => some ⟨.m, 0x00188000000#41 ||| o.enc, 0#41⟩
  | .invalaER1 o => some ⟨.m, 0x00090000000#41 ||| o.enc, 0#41⟩
  | .mf o => some ⟨.m, 0x00110000000#41 ||| o.enc, 0#41⟩
  | .invalaEF1 o => some ⟨.m, 0x00098000000#41 ||| o.enc, 0#41⟩
  | .mfA o => some ⟨.m, 0x00118000000#41 ||| o.enc, 0#41⟩
  | .syncI o => some ⟨.m, 0x00198000000#41 ||| o.enc, 0#41⟩
  | .sum o => some ⟨.m, 0x00020000000#41 ||| o.enc, 0#41⟩
  | .rum o => some ⟨.m, 0x00028000000#41 ||| o.enc, 0#41⟩
  | .ssm o => some ⟨.m, 0x00030000000#41 ||| o.enc, 0#41⟩
  | .rsm o => some ⟨.m, 0x00038000000#41 ||| o.enc, 0#41⟩
  | .movMAr3Imm8 o => some ⟨.m, 0x00140000000#41 ||| o.enc, 0#41⟩
  | .loadrs o => some ⟨.m, 0x00050000000#41 ||| o.enc, 0#41⟩
  | .flushrs o => some ⟨.m, 0x00060000000#41 ||| o.enc, 0#41⟩
  | .movRrR3R2 o => some ⟨.m, 0x02000000000#41 ||| o.enc, 0#41⟩
  | .movR1RrR3 o => some ⟨.m, 0x02080000000#41 ||| o.enc, 0#41⟩
  | .movDbrR3R2 o => some ⟨.m, 0x02008000000#41 ||| o.enc, 0#41⟩
  | .movR1DbrR3 o => some ⟨.m, 0x02088000000#41 ||| o.enc, 0#41⟩
  | .movIbrR3R2 o => some ⟨.m, 0x02010000000#41 ||| o.enc, 0#41⟩
  | .movR1IbrR3 o => some ⟨.m, 0x02090000000#41 ||| o.enc, 0#41⟩
  | .movPkrR3R2 o => some ⟨.m, 0x02018000000#41 ||| o.enc, 0#41⟩
  | .movR1PkrR3 o => some ⟨.m, 0x02098000000#41 ||| o.enc, 0#41⟩
  | .movPmcR3R2 o => some ⟨.m, 0x02020000000#41 ||| o.enc, 0#41⟩
  | .movR1PmcR3 o => some ⟨.m, 0x020a0000000#41 ||| o.enc, 0#41⟩
  | .movPmdR3R2 o => some ⟨.m, 0x02028000000#41 ||| o.enc, 0#41⟩
  | .movR1PmdR3 o => some ⟨.m, 0x020a8000000#41 ||| o.enc, 0#41⟩
  | .movR1CpuidR3 o => some ⟨.m, 0x020b8000000#41 ||| o.enc, 0#41⟩
  | .ptcLR3R2 o => some ⟨.m, 0x02048000000#41 ||| o.enc, 0#41⟩
  | .ptcGR3R2 o => some ⟨.m, 0x02050000000#41 ||| o.enc, 0#41⟩
  | .ptcGaR3R2 o => some ⟨.m, 0x02058000000#41 ||| o.enc, 0#41⟩
  | .ptrDR3R2 o => some ⟨.m, 0x02060000000#41 ||| o.enc, 0#41⟩
  | .ptrIR3R2 o => some ⟨.m, 0x02068000000#41 ||| o.enc, 0#41⟩
  | .ptcER3 o => some ⟨.m, 0x021a0000000#41 ||| o.enc, 0#41⟩
  | .itrDDtrR3R2 o => some ⟨.m, 0x02070000000#41 ||| o.enc, 0#41⟩
  | .itrIItrR3R2 o => some ⟨.m, 0x02078000000#41 ||| o.enc, 0#41⟩
  | .itcDR2 o => some ⟨.m, 0x02170000000#41 ||| o.enc, 0#41⟩
  | .itcIR2 o => some ⟨.m, 0x02178000000#41 ||| o.enc, 0#41⟩
  | .probeRR1R3Imm2 o => some ⟨.m, 0x020c0000000#41 ||| o.enc, 0#41⟩
  | .probeWR1R3Imm2 o => some ⟨.m, 0x020c8000000#41 ||| o.enc, 0#41⟩
  | .probeRR1R3R2 o => some ⟨.m, 0x021c0000000#41 ||| o.enc, 0#41⟩
  | .probeWR1R3R2 o => some ⟨.m, 0x021c8000000#41 ||| o.enc, 0#41⟩
  | .probeRwFaultR3Imm2 o => some ⟨.m, 0x02188000000#41 ||| o.enc, 0#41⟩
  | .probeRFaultR3Imm2 o => some ⟨.m, 0x02190000000#41 ||| o.enc, 0#41⟩
  | .probeWFaultR3Imm2 o => some ⟨.m, 0x02198000000#41 ||| o.enc, 0#41⟩
  | .thash o => some ⟨.m, 0x020d0000000#41 ||| o.enc, 0#41⟩
  | .ttag o => some ⟨.m, 0x020d8000000#41 ||| o.enc, 0#41⟩
  | .tpa o => some ⟨.m, 0x020f0000000#41 ||| o.enc, 0#41⟩
  | .tak o => some ⟨.m, 0x020f8000000#41 ||| o.enc, 0#41⟩
  | .movR1PsrUm o => some ⟨.m, 0x02108000000#41 ||| o.enc, 0#41⟩
  | .movMR1Ar3 o => some ⟨.m, 0x02110000000#41 ||| o.enc, 0#41⟩
  | .movR1Cr3 o => some ⟨.m, 0x02120000000#41 ||| o.enc, 0#41⟩
  | .movR1Psr o => some ⟨.m, 0x02128000000#41 ||| o.enc, 0#41⟩
  | .movPsrUmR2 o => some ⟨.m, 0x02148000000#41 ||| o.enc, 0#41⟩
  | .movMAr3R2 o => some ⟨.m, 0x02150000000#41 ||| o.enc, 0#41⟩
  | .movCr3R2 o => some ⟨.m, 0x02160000000#41 ||| o.enc, 0#41⟩
  | .movPsrLR2 o => some ⟨.m, 0x02168000000#41 ||| o.enc, 0#41⟩
  | .fcR3 o => some ⟨.m, 0x02180000000#41 ||| o.enc, 0#41⟩
  | .fcIR3 o => some ⟨.m, 0x03180000000#41 ||| o.enc, 0#41⟩
  | .allocR1ArPfsILOR o => some ⟨.m, 0x02c00000000#41 ||| o.enc, 0#41⟩
  | .brCondTarget25 o => some ⟨.b, 0x08000000000#41 ||| o.enc, 0#41⟩
  | .brWexitTarget25 o => some ⟨.b, 0x08000000080#41 ||| o.enc, 0#41⟩
  | .brWtopTarget25 o => some ⟨.b, 0x080000000c0#41 ||| o.enc, 0#41⟩
  | .brCloopTarget25 o => some ⟨.b, 0x08000000140#41 ||| o.enc, 0#41⟩
  | .brCexitTarget25 o => some ⟨.b, 0x08000000180#41 ||| o.enc, 0#41⟩
  | .brCtopTarget25 o => some ⟨.b, 0x080000001c0#41 ||| o.enc, 0#41⟩
  | .brCallB1Target25 o => some ⟨.b, 0x0a000000000#41 ||| o.enc, 0#41⟩
  | .brCondB2 o => some ⟨.b, 0x00100000000#41 ||| o.enc, 0#41⟩
  | .brIaB2 o => some ⟨.b, 0x00100000040#41 ||| o.enc, 0#41⟩
  | .brRetB2 o => some ⟨.b, 0x00108000100#41 ||| o.enc, 0#41⟩
  | .brCallB1B2 o => some ⟨.b, 0x02000000000#41 ||| o.enc, 0#41⟩
  | .brpTarget25Tag13 => some ⟨.b, 0x0e000000000#41, 0#41⟩
  | .brpB2Tag13 => some ⟨.b, 0x04080000000#41, 0#41⟩
  | .brpRetB2Tag13 => some ⟨.b, 0x04088000000#41, 0#41⟩
  | .cover => some ⟨.b, 0x00010000000#41, 0#41⟩
  | .clrrrb => some ⟨.b, 0x00020000000#41, 0#41⟩
  | .clrrrbPr => some ⟨.b, 0x00028000000#41, 0#41⟩
  | .rfi => some ⟨.b, 0x00040000000#41, 0#41⟩
  | .bsw0 => some ⟨.b, 0x00060000000#41, 0#41⟩
  | .bsw1 => some ⟨.b, 0x00068000000#41, 0#41⟩
  | .epc => some ⟨.b, 0x00080000000#41, 0#41⟩
  | .vmsw0 o => some ⟨.b, 0x000c0000000#41 ||| o.enc, 0#41⟩
  | .vmsw1 o => some ⟨.b, 0x000c8000000#41 ||| o.enc, 0#41⟩
  | .breakB o => some ⟨.b, 0x00000000000#41 ||| o.enc, 0#41⟩
  | .nopB o => some ⟨.b, 0x04000000000#41 ||| o.enc, 0#41⟩
  | .hintB o => some ⟨.b, 0x04008000000#41 ||| o.enc, 0#41⟩
  | .fma o => some ⟨.f, 0x10000000000#41 ||| o.enc, 0#41⟩
  | .fmaS o => some ⟨.f, 0x11000000000#41 ||| o.enc, 0#41⟩
  | .fmaD o => some ⟨.f, 0x12000000000#41 ||| o.enc, 0#41⟩
  | .fpma o => some ⟨.f, 0x13000000000#41 ||| o.enc, 0#41⟩
  | .fms o => some ⟨.f, 0x14000000000#41 ||| o.enc, 0#41⟩
  | .fmsS o => some ⟨.f, 0x15000000000#41 ||| o.enc, 0#41⟩
  | .fmsD o => some ⟨.f, 0x16000000000#41 ||| o.enc, 0#41⟩
  | .fpms o => some ⟨.f, 0x17000000000#41 ||| o.enc, 0#41⟩
  | .fnma o => some ⟨.f, 0x18000000000#41 ||| o.enc, 0#41⟩
  | .fnmaS o => some ⟨.f, 0x19000000000#41 ||| o.enc, 0#41⟩
  | .fnmaD o => some ⟨.f, 0x1a000000000#41 ||| o.enc, 0#41⟩
  | .fpnma o => some ⟨.f, 0x1b000000000#41 ||| o.enc, 0#41⟩
  | .xma o => some ⟨.f, 0x1d000000000#41 ||| o.enc, 0#41⟩
  | .fselect o => some ⟨.f, 0x1c000000000#41 ||| o.enc, 0#41⟩
  | .fcmp o => some ⟨.f, 0x08000000000#41 ||| o.enc, 0#41⟩
  | .fclassM o => some ⟨.f, 0x0a000000000#41 ||| o.enc, 0#41⟩
  | .frcpa o => some ⟨.f, 0x00200000000#41 ||| o.enc, 0#41⟩
  | .fprcpa o => some ⟨.f, 0x02200000000#41 ||| o.enc, 0#41⟩
  | .frsqrta o => some ⟨.f, 0x01200000000#41 ||| o.enc, 0#41⟩
  | .fprsqrta o => some ⟨.f, 0x03200000000#41 ||| o.enc, 0#41⟩
  | .fmin o => some ⟨.f, 0x000a0000000#41 ||| o.enc, 0#41⟩
  | .fmax o => some ⟨.f, 0x000a8000000#41 ||| o.enc, 0#41⟩
  | .famin o => some ⟨.f, 0x000b0000000#41 ||| o.enc, 0#41⟩
  | .famax o => some ⟨.f, 0x000b8000000#41 ||| o.enc, 0#41⟩
  | .fpmin o => some ⟨.f, 0x020a0000000#41 ||| o.enc, 0#41⟩
  | .fpmax o => some ⟨.f, 0x020a8000000#41 ||| o.enc, 0#41⟩
  | .fpamin o => some ⟨.f, 0x020b0000000#41 ||| o.enc, 0#41⟩
  | .fpamax o => some ⟨.f, 0x020b8000000#41 ||| o.enc, 0#41⟩
  | .fpcmpFrelCode0 o => some ⟨.f, 0x02180000000#41 ||| o.enc, 0#41⟩
  | .fpcmpFrelCode1 o => some ⟨.f, 0x02188000000#41 ||| o.enc, 0#41⟩
  | .fpcmpFrelCode2 o => some ⟨.f, 0x02190000000#41 ||| o.enc, 0#41⟩
  | .fpcmpFrelCode3 o => some ⟨.f, 0x02198000000#41 ||| o.enc, 0#41⟩
  | .fpcmpFrelCode4 o => some ⟨.f, 0x021a0000000#41 ||| o.enc, 0#41⟩
  | .fpcmpFrelCode5 o => some ⟨.f, 0x021a8000000#41 ||| o.enc, 0#41⟩
  | .fpcmpFrelCode6 o => some ⟨.f, 0x021b0000000#41 ||| o.enc, 0#41⟩
  | .fpcmpFrelCode7 o => some ⟨.f, 0x021b8000000#41 ||| o.enc, 0#41⟩
  | .fmergeS o => some ⟨.f, 0x00080000000#41 ||| o.enc, 0#41⟩
  | .fmergeNs o => some ⟨.f, 0x00088000000#41 ||| o.enc, 0#41⟩
  | .fmergeSe o => some ⟨.f, 0x00090000000#41 ||| o.enc, 0#41⟩
  | .fmixLr o => some ⟨.f, 0x001c8000000#41 ||| o.enc, 0#41⟩
  | .fmixR o => some ⟨.f, 0x001d0000000#41 ||| o.enc, 0#41⟩
  | .fmixL o => some ⟨.f, 0x001d8000000#41 ||| o.enc, 0#41⟩
  | .fsxtR o => some ⟨.f, 0x001e0000000#41 ||| o.enc, 0#41⟩
  | .fsxtL o => some ⟨.f, 0x001e8000000#41 ||| o.enc, 0#41⟩
  | .fpack o => some ⟨.f, 0x00140000000#41 ||| o.enc, 0#41⟩
  | .fswap o => some ⟨.f, 0x001a0000000#41 ||| o.enc, 0#41⟩
  | .fswapNl o => some ⟨.f, 0x001a8000000#41 ||| o.enc, 0#41⟩
  | .fswapNr o => some ⟨.f, 0x001b0000000#41 ||| o.enc, 0#41⟩
  | .fand o => some ⟨.f, 0x00160000000#41 ||| o.enc, 0#41⟩
  | .fandcm o => some ⟨.f, 0x00168000000#41 ||| o.enc, 0#41⟩
  | .fOr o => some ⟨.f, 0x00170000000#41 ||| o.enc, 0#41⟩
  | .fxor o => some ⟨.f, 0x00178000000#41 ||| o.enc, 0#41⟩
  | .fpmergeS o => some ⟨.f, 0x02080000000#41 ||| o.enc, 0#41⟩
  | .fpmergeNs o => some ⟨.f, 0x02088000000#41 ||| o.enc, 0#41⟩
  | .fpmergeSe o => some ⟨.f, 0x02090000000#41 ||| o.enc, 0#41⟩
  | .fcvtFx o => some ⟨.f, 0x000c0000000#41 ||| o.enc, 0#41⟩
  | .fpcvtFx o => some ⟨.f, 0x020c0000000#41 ||| o.enc, 0#41⟩
  | .fcvtFxu o => some ⟨.f, 0x000c8000000#41 ||| o.enc, 0#41⟩
  | .fpcvtFxu o => some ⟨.f, 0x020c8000000#41 ||| o.enc, 0#41⟩
  | .fcvtFxTrunc o => some ⟨.f, 0x000d0000000#41 ||| o.enc, 0#41⟩
  | .fpcvtFxTrunc o => some ⟨.f, 0x020d0000000#41 ||| o.enc, 0#41⟩
  | .fcvtFxuTrunc o => some ⟨.f, 0x000d8000000#41 ||| o.enc, 0#41⟩
  | .fpcvtFxuTrunc o => some ⟨.f, 0x020d8000000#41 ||| o.enc, 0#41⟩
  | .fcvtXf o => some ⟨.f, 0x000e0000000#41 ||| o.enc, 0#41⟩
  | .fsetc o => some ⟨.f, 0x00020000000#41 ||| o.enc, 0#41⟩
  | .fclrf o => some ⟨.f, 0x00028000000#41 ||| o.enc, 0#41⟩
  | .fchkf o => some ⟨.f, 0x00040000000#41 ||| o.enc, 0#41⟩
  | .breakF o => some ⟨.f, 0x00000000000#41 ||| o.enc, 0#41⟩
  | .nopF o => some ⟨.f, 0x00008000000#41 ||| o.enc, 0#41⟩
  | .hintF o => some ⟨.f, 0x0000c000000#41 ||| o.enc, 0#41⟩
  | .breakX o => some ⟨.x, 0x00000000000#41 ||| o.enc, o.imm41⟩
  | .nopX o => some ⟨.x, 0x00008000000#41 ||| o.enc, o.imm41⟩
  | .hintX o => some ⟨.x, 0x0000c000000#41 ||| o.enc, o.imm41⟩
  | .movl o => some ⟨.x, 0x0c000000000#41 ||| o.enc, o.imm41⟩
  | .brlCondTarget64 o => some ⟨.x, 0x18000000000#41 ||| o.enc, o.imm41⟩
  | .brlCallB1Target64 o => some ⟨.x, 0x1a000000000#41 ||| o.enc, o.imm41⟩

/-- The unit that decodes an encoded instruction: an A instruction may sit in an M slot. -/
def SlotWord.slotUnit (e : SlotWord) : ExecUnit := match e.unit with | .a => .m | u => u

/-- A template and a slot number that give a slot the unit `u` (30 R451). -/
def placeOf : ExecUnit → BitVec 5 × Nat
  | .a | .m | .l => (0x00#5, 0)
  | .i => (0x00#5, 1)
  | .f => (0x0C#5, 1)
  | .b => (0x16#5, 0)
  | .x => (0x04#5, 1)

/-- The bundle that holds one slot at the place of its unit, every other slot 0. -/
def placeBundle (u : ExecUnit) (w l : Slot) : Bundle :=
  match placeOf u with
  | (t, 0) => makeBundle t w 0#41 0#41
  | (t, _) => if u == .x then makeBundle t 0#41 l w else makeBundle t 0#41 w 0#41

/-! ## Table words

A word of the opcode table does not say in which slot it stands, and one word may be an instruction of several units.
`tableUnit` picks the unit (notes/assumptions/22.md): the row whose match IS the word, else the row whose listed fields
cover the rest of the word and are fewest, else the same with all its fields. -/

/-- The rank of a row for a table word: smaller is preferred. -/
def Row.rank (r : Row) (w : Slot) : Nat :=
  if w == r.value then 41 - r.mask.cpop.toNat
  else if (w &&& ~~~(r.mask ||| r.listed)) == 0#41 then 100 + r.listed.cpop.toNat
  else if (w &&& ~~~(r.mask ||| r.covered)) == 0#41 then 200 + r.covered.cpop.toNat
  else 300

/-- The better of two ranked units; the first wins a tie. -/
def betterUnit (p q : Option (Nat × ExecUnit)) : Option (Nat × ExecUnit) :=
  match p, q with
  | none, q => q
  | p, none => p
  | some a, some b => if b.1 < a.1 then some b else some a

/-- The best rank that the rows of a list give a table word. -/
def bestIn (u : ExecUnit) (rs : List Row) (w : Slot) : Option (Nat × ExecUnit) :=
  rs.foldl (fun best r => if r.hits w then betterUnit best (some (r.rank w, u)) else best) none

/-- The unit a table word is decoded in. -/
def tableUnit (w : Slot) : ExecUnit :=
  match [bestIn .a rowsA w, bestIn .i rowsI w, bestIn .m rowsM w, bestIn .b rowsB w, bestIn .f rowsF w,
      bestIn .x rowsX w].foldl betterUnit none with
  | some (_, u) => u
  | none => .m

/-- The slot of a table word: its low `nbits` bits (a slot has 41). -/
def tableSlot (nbits w : Nat) : Slot := BitVec.ofNat 41 (w % 2 ^ nbits)

/-- The bundle and the slot number that a table word is run from: the L slot of an X word is 0. -/
def tableBundle (nbits w : Nat) : Bundle × Nat :=
  let s := tableSlot nbits w
  let u := tableUnit s
  (placeBundle u s 0#41, (placeOf u).2)

/-- The instruction the decoder reads from the instruction whose bits are `w`, laid out as the hardware stores it. -/
def decodeTableWord (nbits w : Nat) : Option Instr :=
  match tableBundle nbits w with
  | (b, k) =>
    match decodeBytes (bundleBytes b) k with
    | .ok i => some i
    | .error _ => none

end Sys2Proof

end
end

