-- ==== Sys2Proof/Config.lean ====
section
/-!
DEFINITION. What an implementation fixes and the spec leaves open: the default values of the OPEN parameters
(92_eei_decisions.md section 2), the byte an unlisted address reads as, and the FREE VALUES, constants without a body, so
that nothing can be proved of what they are. A free value is taken with the counter `State.free` or with the operands it
depends on; each is named in notes/assumptions.
-/

namespace Sys2Proof
namespace Config

/-! ## Named choices -/

/-- Log 8, DESIGN CHOICE: what a byte of RAM that nothing has written reads as. -/
def unlistedByte : Byte := 0#8

/-- Log 5, DESIGN CHOICE: the OPEN parameter `RESET_IP` (92 D21). -/
def resetIp : Word := 0#64

/-- 92 D20: the parameter `PSR_BN_RESET` at its default 1. -/
def psrBnReset : Bool := true

/-! ## Free values: general -/

/-- An undefined 64-bit value. -/
opaque freeWord : Nat → Word
/-- An undefined bit. -/
opaque freeBool : Nat → Bool
/-- An undefined 82-bit register value. -/
opaque freeFReg : Nat → FReg

/-! ## Free values: time -/

/-- Log 30: how many system interface clocks beyond the first a step takes (10 R79). -/
opaque extraClocks : Nat → Nat
/-- Log 30: how far the resource utilization counters together are ahead of the interval time counter after a step, before it is
brought into its range (10 R67: the sum is approximate). -/
opaque rucSkew : Nat → Nat

/-! ## Free values: translation (92 D5 b) -/

/-- The kinds of access that are translated (20 R440). -/
inductive AccessKind where
  /-- instruction fetch, enabled by `PSR.it` -/
  | fetch
  /-- load, enabled by `PSR.dt` -/
  | read
  /-- store, enabled by `PSR.dt` -/
  | write
  /-- semaphore: both -/
  | readWrite
  /-- register stack engine, enabled by `PSR.rt` -/
  | rseRead
  | rseWrite
  /-- `fc`, `lfetch`, `probe`, `tpa`, `tak`: no data moves -/
  | nonAccess
deriving DecidableEq, Repr

/-- Memory attributes the spec names (20 R404); `natPage` is the page attribute of 60 R1310. -/
inductive MemAttr where
  | wb | uc | wc | natPage
deriving DecidableEq, Repr, Inhabited

/-- The faults a translation can meet (60 R1302). -/
inductive XlatFault where
  | vhptTranslation | tlbMiss | altTlbMiss | keyMiss | dirtyBit | accessBit | pageNotPresent
  | keyPermission | accessRights
deriving DecidableEq, Repr, Inhabited

/-- What a translation gives: a physical address with its attribute, or a fault; and with either what a fault of the access
reports: the values for `CR.ITIR` and `CR.IHA` and the `ed` bit of the entry (60 R1303, R1306). -/
inductive XlatResult where
  | ok (pa : Word) (attr : MemAttr) (itir : Word) (iha : Word) (ed : Bool)
  | fault (f : XlatFault) (itir : Word) (iha : Word) (ed : Bool)
deriving DecidableEq, Repr, Inhabited

/-- One entry of a translation structure: what an insert writes (42 R620 to R622). -/
structure TlbEntry where
  va : Word
  rid : Word
  itir : Word
  pte : Word
deriving DecidableEq, Repr

/-- Everything a translation may depend on: the translation registers and caches, the region and key registers,
`CR.PTA`, `CR.DCR` and the processor status. -/
structure XlatContext where
  regs : List (Option TlbEntry)
  cache : List TlbEntry
  rr : List Word
  pkr : List Word
  pta : Word
  psr : Word
deriving DecidableEq, Repr

/-- Log 13: the translation of a virtual address. -/
opaque translate : XlatContext → Word → AccessKind → XlatResult
/-- Log 14: whether `probe` grants read and write access at a privilege level to a page that is not present. -/
opaque probeRead : XlatContext → Word → BitVec 2 → Bool
opaque probeWrite : XlatContext → Word → BitVec 2 → Bool
/-- Log 14: the hash and tag of `thash` and `ttag` (20 R397: not in the source). -/
opaque thash : Word → Word → Word → Word
opaque ttag : Word → Word → Word
/-- Log 14: the key `tak` finds. -/
opaque tak : XlatContext → Word → Word
/-- Log 14: the privilege level the code page of an `epc` promotes to, `none` if it is no promotion page. -/
opaque epcLevel : XlatContext → Word → Option (BitVec 2)
/-- Log 14: whether the `ed` bit of the code page's translation is 1 (60 R1310). -/
opaque codePageEd : XlatContext → Word → Bool
/-- Log 15: whether the bytes of an ALAT entry, which the ALAT knows by their physical address, lie in the virtual range
that a global purge names (42 R625). -/
opaque alatPurged : Nat → Nat → Word → Nat → Word → Bool

/-- Log 15: which entry of a full translation cache an insert replaces. -/
opaque tcVictim : Nat → Nat
/-- Log 15: whether `ptc.e` at an address removes an entry. -/
opaque purgePart : TlbEntry → Word → Bool
/-- Log 46: the feature bits of `CPUID[4]` (10 R62: not given). -/
opaque cpuidFeatures : Word

/-! ## Free values: floating point (92 D22) -/

/-- The floating-point operations whose result the spec leaves uninterpreted (43 R680 to R688). -/
inductive FpOp where
  | fma | fms | fnma | fpma | fpms | fpnma | fmin | fmax | famin | famax | fpmin | fpmax | fpamin | fpamax
  | frcpa | frsqrta | fprcpa | fprsqrta
  | fcvtFx | fcvtFxu | fcvtFxTrunc | fcvtFxuTrunc | fpcvtFx | fpcvtFxu | fpcvtFxTrunc | fpcvtFxuTrunc
  | fpcmp (relation : BitVec 3)
deriving DecidableEq, Repr

/-- The precision a mnemonic completer asks for (43 R681). -/
inductive FpPrec where
  | dynamic | single | double
deriving DecidableEq, Repr

/-- What a floating-point operation gives: the result, the six IEEE flags in the order of `AR.FPSR` (bit 0 V, 1 D,
2 Z, 3 O, 4 U, 5 I), and the predicate of an approximation. -/
structure FpResult where
  value : FReg
  flags : BitVec 6
  pred : Bool
deriving DecidableEq, Repr, Inhabited

/-- Log 17: the result of an operation at a precision, under a status field of the `AR.FPSR` given, on three operands. -/
opaque fpRaw : FpOp → FpPrec → BitVec 2 → Word → FReg → FReg → FReg → FpResult

/-- 43 R686: the result of a parallel compare: each single all ones or all zeros, under the sign and exponent of a register
of two singles (43 R682). -/
def compareMask (v : FReg) : FReg :=
  0#1 ++ 0x1003E#17 ++ (if v.getLsbD 32 then 0xFFFFFFFF#32 else 0#32) ++ (if v.getLsbD 0 then 0xFFFFFFFF#32 else 0#32)

/-- Log 17: the result of an operation: the free function, but for what the spec states of a result (43 R686). -/
def fpOp (op : FpOp) (prec : FpPrec) (sf : BitVec 2) (fpsr : Word) (x y z : FReg) : FpResult :=
  let r := fpRaw op prec sf fpsr x y z
  match op with
  | .fpcmp _ => { r with value := compareMask r.value }
  | _ => r

/-- Log 19: the three forms of `xma` (43 R682). -/
inductive XmaForm where
  | low | high | highUnsigned
deriving DecidableEq, Repr, Inhabited
/-- Log 19: the relation of `fcmp` (43 R684). -/
inductive FpRel where
  | eq | lt | le | unord
deriving DecidableEq, Repr, Inhabited
/-- Log 19: which form the undetermined field `x2` of row 582 selects. -/
opaque xmaForm : BitVec 2 → XmaForm
/-- Log 19: whether `xma.h` extends its addend with the sign (43 R682: not stated). -/
opaque xmaAddendSigned : Bool
/-- Log 19: which relation the fields `ra`, `rb` of row 584 select. -/
opaque fcmpRel : BitVec 1 → BitVec 1 → FpRel
/-- Log 19: whether the field `ta` of rows 584 and 585 selects the unconditional form. -/
opaque typeUnc : BitVec 1 → Bool
/-- Log 17: the truth of a relation between two registers, with the flags of the comparison. -/
opaque fpCompare : FpRel → BitVec 2 → Word → FReg → FReg → Bool × BitVec 6
/-- Log 19: whether a register is of a class that row 585 names; the slot bits that name the classes have no positions in
the spec, so the answer is a fresh free value for each execution. -/
opaque fclassHit : Nat → FReg → Bool

/-! ## Free values: hardware choices -/

/-- Log 31: whether an opaque cause switches threads in this step (92 D27). -/
opaque switchNow : Nat → Bool
/-- Log 31: whether a `hint @pause` is followed by a switch (60 R1343). -/
opaque switchOnHint : Nat → Bool
/-- Log 31: whether the environment starts a logical processor in this step, and at which address (70 R1383). -/
opaque environmentStart : Nat → Option Word
/-- Log 31: the urgency of a thread after a step (60 R1342). -/
opaque urgencyNext : Nat → BitVec 3
/-- Log 32: which entry of a full ALAT is displaced. -/
opaque alatVictim : Nat → Nat
/-- Log 32: whether the ALAT loses an entry for a reason outside the core (20 R418, 93 U16). -/
opaque alatDrop : Nat → Bool

/-- Log 54: which of the ports its format allows an instruction issues on (93 U44). -/
opaque portPick : Instr → Nat
/-- Log 54: which B port a long branch takes beside its I port. -/
opaque secondPortPick : Instr → Nat

/-! ## Free values: performance events (92 D31) -/

/-- Log 37: a micro-architectural fact of a clock, by the event it belongs to (code, number of the fact, whether of the
background thread, clock), before it is brought into its range. -/
opaque coreEvent : Nat → Nat → Bool → Nat → Nat
/-- Log 37: how many clocks beyond those it must have a step takes. -/
opaque idleClocks : Nat → Nat
/-- Log 37: the number the free values of a later clock of a step are taken with. -/
opaque clockKey : Nat → Nat → Nat
/-- Log 37: whether the hardware page walker is enabled under a value of `CR.PTA` (46 R911, 47 R1012). -/
opaque walkerEnabled : Word → Bool
/-- Log 37: whether a change of privilege level is counted under the mask of the new level (93 U17). -/
opaque cplChangeNew : Bool
/-- Log 37: the instruction type (0 M, 1 I, 2 F, 3 B) the opcode matchers see for a long instruction (44 R723: not
stated). -/
opaque longItype : BitVec 2
/-- Log 41: whether a branch's target and path were predicted correctly. -/
opaque targetPredicted : Nat → Bool
opaque pathPredicted : Nat → Bool
/-- Log 35: whether an IOB removal is told by the input side's selector and filters, as printed (93 U27). -/
opaque iobRemoveByInput : Bool
/-- Log 35: which decoded opcode of the field `z_op` is that of a Fill2b request (12 R263: lost). -/
opaque fill2bOp : Nat
/-- Log 35: whether the sub-class bit qualifies the queue bids and the entry table depth (93 U36). -/
opaque vnQualifies : Bool
/-- Log 35: a fact of the traffic of an uncore clock: box, number of the fact, selector, step. -/
opaque uncoreEvent : Nat → Nat → Nat → Nat → Nat

end Config
end Sys2Proof
end

