-- ==== Sys2Proof/Machine/Bits.lean ====
section
/-!
DEFINITION. Bit fields of words: reading and writing a field, sign extension, and the elements of a multimedia register.
-/

namespace Sys2Proof.Machine

/-- Bits `lo .. lo + len - 1` of a word, at the bottom of a word. -/
def field (w : Word) (lo len : Nat) : Word := (w >>> lo) &&& ((1#64 <<< len) - 1#64)

/-- A word with bits `lo .. lo + len - 1` replaced by the low bits of `v`. -/
def setField (w : Word) (lo len : Nat) (v : Word) : Word :=
  let m := ((1#64 <<< len) - 1#64) <<< lo
  (w &&& ~~~m) ||| ((v <<< lo) &&& m)

/-- A word with one bit replaced. -/
def setBit (w : Word) (i : Nat) (b : Bool) : Word :=
  if b then w ||| (1#64 <<< i) else w &&& ~~~(1#64 <<< i)

/-- A truth value as a word. -/
def ofBool (b : Bool) : Word := if b then 1#64 else 0#64

/-- The low `n` bits of a word, sign-extended. -/
def sextLow (w : Word) (n : Nat) : Word := (w.setWidth n).signExtend 64

/-- The low `n` bits of a word, zero-extended. -/
def zextLow (w : Word) (n : Nat) : Word := (w.setWidth n).setWidth 64

/-- A word with its low `n` bits cleared. -/
def alignDown (w : Word) (n : Nat) : Word := (w >>> n) <<< n

/-- An integer clamped to a range. -/
def clampInt (lo hi x : Int) : Int := if x < lo then lo else if hi < x then hi else x

/-- Element `i` of a word cut into elements of `n` bits, element 0 the least significant. -/
def element (n : Nat) (w : Word) (i : Nat) : BitVec n := (w >>> (n * i)).setWidth n

/-- The word whose element `i` of `n` bits is `f i`, for `k` elements. -/
def ofElements (n : Nat) (f : Nat → BitVec n) : Nat → Word
  | 0 => 0#64
  | k + 1 => ofElements n f k ||| ((f k).setWidth 64 <<< (n * k))

/-- The number of 1 bits among the low `k` bits. -/
def onesBelow (w : Word) : Nat → Nat
  | 0 => 0
  | k + 1 => onesBelow w k + (w.getLsbD k).toNat

/-- The number of elements before the first zero element, looking at the elements `order 0, order 1, …` of `k`; `k` if
there is none (41 R563). -/
def firstZero (n : Nat) (w : Word) (order : Nat → Nat) (k : Nat) : Nat → Nat
  | 0 => k
  | fuel + 1 =>
    if element n w (order (k - (fuel + 1))) = 0#n then k - (fuel + 1) else firstZero n w order k fuel

end Sys2Proof.Machine
end

