-- ==== Sys2Proof/Machine/State.lean ====
section
/-!
DEFINITION. The state of the machine: two threads of one core, what they share, and the uncore registers of the socket.
Every field cites the rule that names it; INVENTORY.md lists each with its width and reset value.
-/

namespace Sys2Proof.Machine

open Sys2Proof.Config

/-- Why the machine stops where the hardware's result depends on the platform. -/
inductive Fault where
  /-- Raised by every memory access of the core: a physical address that is neither RAM nor in the PAL aperture
  (20 R440, 92 D9). The hardware ends in a machine check or reads all ones. SAFE: the model stops. -/
  | noDevice (pa : Nat)
deriving DecidableEq, Repr

/-- Why the model gives no next state. -/
inductive Refusal where
  /-- Raised by an arm of `exec` whose instruction has no meaning yet. SAFE. -/
  | notModelled (mnemonic : String)
  /-- Raised by `step`: an I-unit slot of major opcode 7 that may be one of the formats whose encoding the spec does not
  give (30 R458, 92 D11). SAFE. -/
  | encodingNotGiven (slot : Slot)
  /-- Raised by a load or store in the CSR aperture that is not an aligned 8-byte access (92 D40), by a semaphore or an
  instruction fetch there. SAFE. -/
  | csrAccess (pa : Nat)
  /-- Raised by an access to an offset of the aperture that no rule describes (20 R430, 93 U20). SAFE. -/
  | csrUndescribed (pa : Nat)
  /-- Raised by an access to the window of a socket the system does not have (12 R223, log 33). SAFE. -/
  | csrOtherSocket (socket : Nat)
  /-- Raised by a CSR write that sets a bit the spec says must be written 0 (93 U20, U32). SAFE. -/
  | csrReservedBits (pa : Nat)
  /-- Raised by a CSR write that sets a freeze and an unfreeze bit together (93 U23). SAFE. -/
  | csrFreezeConflict (pa : Nat)
  /-- Raised by `mov pmc` when it changes reserved bits of PMC38 or PMC41 (93 U7). SAFE. -/
  | pmcReservedBits (index : Nat)
deriving DecidableEq, Repr

/-! ## Parameters -/

/-- The OPEN parameters of 00_scope.md R20 and 92 section 2, with the place of the socket in its system (log 33): no step
changes them (log 2). -/
structure Params where
  vaBits : Nat
  paBits : Nat
  ridBits : Nat
  keyBits : Nat
  nPkr : Nat
  nDbr : Nat
  nIbr : Nat
  nDtr : Nat
  nItr : Nat
  alatEntries : Nat
  cpuidRevision : BitVec 8
  cpuidArchrev : BitVec 8
  ramBase : Nat
  ramSize : Nat
  ivaOffShift : Nat
  itcRatio : Nat
  coreFreqHz : Word
  cacheSizeBytes : Word
  brandString : List Byte
  steppingString : List Byte
  featMt : Bool
  featLv : Bool
  featDp : Bool
  socketId : Nat
  coreId : Nat
deriving DecidableEq, Repr

/-- The constraints on the parameters. The spec puts those on the physical address, the breakpoint and the translation
registers, `IVA_OFF_SHIFT`, the length of the brand string and the core number (92 section 2; 10 R82, R83; 60 R1352,
R1354), and that an `ITC_RATIO` is at least 1 (10 R79). The model's own choices, where the spec gives no constraint
(log 2): an implemented virtual address has 1 to 64 bits, a physical one at most 63, a region identifier and a protection key
at most 24 (the places of the family's region and key registers), an `ITC_RATIO` is below 2^16, memory lies inside the
physical addresses, and a socket number has 8 bits. -/
def Params.wf (p : Params) : Bool :=
  decide (0 < p.vaBits ∧ p.vaBits ≤ 64 ∧ 50 ≤ p.paBits ∧ p.paBits ≤ 63 ∧ p.ridBits ≤ 24 ∧ p.keyBits ≤ 24
    ∧ 8 ≤ p.nDbr ∧ 8 ≤ p.nIbr ∧ p.nDtr ≤ 64 ∧ p.nItr ≤ 64
    ∧ (p.ivaOffShift = 4 ∨ p.ivaOffShift = 8) ∧ p.ramBase + p.ramSize ≤ 2 ^ p.paBits
    ∧ 1 ≤ p.itcRatio ∧ p.itcRatio < 2 ^ 16 ∧ p.brandString.length ≤ 127 ∧ p.socketId < 256 ∧ p.coreId < 4)

/-! ## One thread -/

/-- A general register: 64 bits and the NaT bit (10 R53). -/
structure Reg where
  val : Word
  nat : Bool
deriving DecidableEq, Repr

/-- The general registers (10 R53): r1 to r15, the two banks of r16 to r31, the 96 physical stacked registers, the
physical number of the bottom of the current frame, and how many registers below it hold values of caller frames that
are not yet in the backing store (92 D13). -/
structure GRFile where
  low : Vector Reg 15
  bank0 : Vector Reg 16
  bank1 : Vector Reg 16
  stk : Vector Reg 96
  bof : Nat
  ndirty : Nat
deriving DecidableEq, Repr

/-- The application registers that hold a value (10 R76); `BSP` is computed (92 D13), `ITC` is shared (92 D15). -/
structure ARFile where
  kr : Vector Word 8
  rsc : Word
  bspstore : Word
  rnat : Word
  fcr : Word
  eflag : Word
  csd : Word
  ssd : Word
  cflg : Word
  fsr : Word
  fir : Word
  fdr : Word
  ccv : Word
  unat : Word
  fpsr : Word
  ruc : Word
  pfs : Word
  lc : Word
  ec : BitVec 6
deriving DecidableEq, Repr

/-- The control registers that hold a value (10 R65), the pending vectors of `IRR0` to `IRR3` and the vectors in
service (60 R1320). -/
structure CRFile where
  dcr : Word
  itm : Word
  iva : Word
  pta : Word
  ipsr : Word
  isr : Word
  iip : Word
  ifa : Word
  itir : Word
  iipa : Word
  ifs : Word
  iim : Word
  iha : Word
  iib0 : Word
  iib1 : Word
  lid : Word
  tpr : Word
  irr : BitVec 256
  inService : BitVec 256
  itv : Word
  pmv : Word
  cmcv : Word
  lrr0 : Word
  lrr1 : Word
deriving DecidableEq, Repr

/-- The performance monitor of one thread (11 R120): the register files, of which an unimplemented index stays 0, and
the hidden state: of the data EAR, the clocks until it may capture again (44 R756); of the trace buffer, whether its last entry is
the target in whose bundle the thread is and whether nothing has run there yet (44 R771, R773), and of the IP-EAR (44 R780);
and of the bundle the thread is in, whether a branch of it has been predicted as taken (45 R850), whether one that channel 0 tags has
retired, and whether the path of one was predicted wrong (45 R851). -/
structure PMU where
  pmc : Vector Word 44
  pmd : Vector Word 64
  earWait : BitVec 3
  etbPending : Bool
  etbFresh : Bool
  predTaken : Bool
  branchTagged : Bool
  pathMissed : Bool
  ipElapsed : BitVec 6
  ipFlush : Bool
  ipDelay : BitVec 9
  ipActive : Bool
deriving DecidableEq, Repr

/-- An entry of the ALAT (10 R85, 20 R418): the register an advanced load wrote, and the bytes it read. -/
structure AlatEntry where
  fp : Bool
  reg : Nat
  pa : Nat
  size : Nat
deriving DecidableEq, Repr

/-- The multi-threading state of a thread (60 R1342 to R1344, 70 R1383). -/
structure ThreadState where
  armed : Bool
  urgency : BitVec 3
  halted : Bool
  started : Bool
deriving DecidableEq, Repr

/-- The kinds of branch the trace buffer tells apart (11 R176). -/
inductive FlowKind where
  | ipRelative | indirect | ret | rfi | exception | check
deriving DecidableEq, Repr

/-- A change of the execution flow that a step made or declined to make. -/
structure FlowEvent where
  kind : FlowKind
  taken : Bool
  target : Word
deriving DecidableEq, Repr

/-- What kind of data access a step made (45_events_core_1.md, 46_events_core_2.md). -/
inductive DataKind where
  | load | store | semaphore | lfetch
deriving DecidableEq, Repr

/-- A data access of a step. -/
structure DataEvent where
  kind : DataKind
  fp : Bool
  addr : Word
  size : Nat
  uncached : Bool
  misaligned : Bool
  /-- a speculative load that gave a NaT, with the unit mask of SPEC_LOADS_NATTED for its cause (46 R916), 0 for another -/
  natted : Option Nat
deriving DecidableEq, Repr

/-- An ALAT or speculation check a step made. -/
structure CheckEvent where
  alat : Bool
  load : Bool
  fp : Bool
  clear : Bool
  failed : Bool
deriving DecidableEq, Repr

/-- An access of the register stack engine: whether it stores, its address, and whether it is not to write-back memory. -/
structure RseAccess where
  store : Bool
  addr : Word
  uncached : Bool
deriving DecidableEq, Repr

/-- The model's own record of what the running step did; the performance monitor reads it (log 48). -/
structure StepEvent where
  squashed : Bool
  vector : Option Nat
  debugData : Bool
  flow : Option FlowEvent
  data : Option DataEvent
  check : Option CheckEvent
  /-- the address of a check load that found its entry -/
  hitAddr : Option Word
  /-- the accesses of the register stack engine, the last one first -/
  rse : List RseAccess
  /-- a register stack operation: the frame size and the number of dirty registers before it (47 R1061 to R1067) -/
  rseOp : Option (Nat × Nat)
  /-- the weight of a floating-point operation (45 R816) -/
  fpOps : Nat
  fchkfFailed : Bool
  /-- an entry allocated in the ALAT for a register without one, floating-point if true, and how many entries were free
  (45 R811) -/
  allocated : Option (Bool × Nat)
  /-- the vector's code, the bits of `CR.ISR` but for `ei` -/
  code : Word
  /-- the address of a data access that met a fault (11 R170, 47 R1004), and whether the register stack engine made it -/
  dataFault : Option (Word × Bool)
  /-- whether the fetch of the instruction met a fault of the instruction TLB (11 R162) -/
  fetchFault : Bool
  /-- the processor status from which an interruption was delivered -/
  statusAt : Option Word
  nop : Bool
  serialize : Bool
  pause : Bool
deriving DecidableEq, Repr

/-- The record of a step that did nothing of note. -/
def StepEvent.none : StepEvent :=
  { squashed := false, vector := .none, debugData := false, flow := .none, data := .none, check := .none,
    hitAddr := .none, rse := [], rseOp := .none, fpOps := 0, fchkfFailed := false, allocated := .none, code := 0#64,
    dataFault := .none, fetchFault := false, statusAt := .none, nop := false, serialize := false, pause := false }

/-- One logical processor (10 R50). -/
@[ext]
structure LP where
  ip : Word
  psr : Word
  cfm : BitVec 38
  gr : GRFile
  fr : Vector FReg 126
  pr : BitVec 64
  br : Vector Word 8
  ar : ARFile
  cr : CRFile
  rr : Vector Word 8
  pkr : List Word
  ibr : List Word
  dbr : List Word
  pmu : PMU
  alat : List AlatEntry
  thr : ThreadState
  lastIp : Word
  bundle : Bundle
  ev : StepEvent
deriving DecidableEq, Repr

/-! ## The uncore -/

/-- A QPI event address register (12 R238 to R241). -/
structure Qear where
  ctl : BitVec 32
  dat0 : BitVec 32
  dat1 : BitVec 32
  lfsrLive : Bool
  lastEn : Bool
deriving DecidableEq, Repr

/-- The registers of one B-Box (12 R253 to R266, 48 R1108); `age` is the hidden age bit of the IOB (12 R262), `arbq` the hidden
number of entries of each arbitration queue (12 R261): the 32 conflict queues, then RIAQ, WIAQ, BRAQ, NBRAQ, COHQ and CLM;
`fillAck` says that the acknowledge of a counted Fill2b request of the last clock is due (12 R263). -/
structure BBox where
  ctl0 : BitVec 33
  ctl1 : BitVec 48
  ctl2 : BitVec 44
  ctl3 : BitVec 64
  cnt : Vector (BitVec 41) 8
  iob : BitVec 41
  bz : BitVec 48
  arb0 : BitVec 23
  arb1 : BitVec 23
  imt : BitVec 13
  age : Bool
  arbq : Vector (BitVec 10) 38
  fillAck : Bool
  trigPrev : BitVec 8
deriving DecidableEq, Repr

/-- One match and mask set of an R-Box port (13 R321 to R323). -/
structure MatchSet where
  matchLsb : BitVec 32
  matchMsb : BitVec 32
  maskLsb : BitVec 32
  maskMsb : BitVec 32
  cfg : BitVec 32
deriving DecidableEq, Repr

/-- The message a port of the R-Box is sending (49 R1240): its header, and how many of its flits are sent, 0 for no message. -/
structure Transit where
  header : BitVec 72
  sent : BitVec 4
deriving DecidableEq, Repr

/-- The registers of the R-Box (13 R304 to R325); `ctl` holds bits 24:16 of a counter's control register, and match set
`s` of port `p` is at `2 * p + s`. The hidden sub-counters: `eot`, one for each IPERF register (49 R1204), and `et`, one for each
half of an arbiter register (49 R1230), both modulo 32, those of port `p` at `2 * p` and `2 * p + 1`; `outbuf`, one for each port,
modulo 128 (49 R1213). Hidden too: `waiting`, the packets of class `c` that port `p` has received and not yet allocated to its
arbiter, at `7 * p + c` (49 R1212; the classes as 13 R315 numbers the bits of ARB_MSGSEL), and the message each port is sending. -/
structure RBox where
  frozen : Bool
  pmiEn : Bool
  daf : BitVec 5
  cnt : Vector (BitVec 48) 16
  ctl : Vector (BitVec 9) 16
  iperf0 : Vector (BitVec 32) 12
  iperf1 : Vector (BitVec 32) 12
  arb : Vector (BitVec 32) 12
  mm : Vector MatchSet 24
  eot : Vector (BitVec 5) 24
  et : Vector (BitVec 5) 24
  outbuf : Vector (BitVec 7) 12
  waiting : Vector (BitVec 7) 84
  flight : Vector Transit 12
deriving DecidableEq, Repr

/-- The registers of one Z-Box (13 R340 to R355); `ctl` holds bits 9:0 of a counter's control register. `openPage` is the page
policy of the page table, open or closed (49 R1275, R1278), and `schedMode` the scheduling mode of the issue unit (13 R351, 49
R1288), both hidden. -/
structure ZBox where
  frozen : Bool
  ov : BitVec 5
  stopped : BitVec 5
  cnt : Vector (BitVec 40) 5
  ctl : Vector (BitVec 10) 5
  pgt : BitVec 32
  dsp : BitVec 32
  iss : BitVec 32
  thr : BitVec 32
  pld : BitVec 32
  fvc : BitVec 32
  openPage : Bool
  schedMode : BitVec 2
deriving DecidableEq, Repr

/-- The uncore of the socket (12 R220): the QEAR of each core, the D-Box, two B-Boxes, the R-Box, two Z-Boxes and the
interrupt request of 92 D44. -/
structure Uncore where
  qear : Vector Qear 4
  dbx : BitVec 14
  bbox : Vector BBox 2
  rbox : RBox
  zbox : Vector ZBox 2
  pmiRequest : Bool
deriving DecidableEq, Repr

/-! ## The machine -/

/-- The state of the machine: the foreground thread `lp`, the background thread `bg`, which of the two numbers is in the
foreground, the shared time base, the translation structures, memory, the uncore of this socket, the uncores of the other
sockets in the order of their numbers (log 33), whether the instruction cache coherence optimization is enabled (60 R1353),
the parameters, and two fields of the model's own: by how many ticks the resource utilization counters together are ahead of the
time base (10 R67, log 30), and the counter of free values. -/
@[ext]
structure State where
  lp : LP
  bg : LP
  thread1 : Bool
  itc : Word
  dtr : List (Option TlbEntry)
  itr : List (Option TlbEntry)
  dtc : List TlbEntry
  itcache : List TlbEntry
  mem : List Host.Cell
  uncore : Uncore
  remote : List Uncore
  coherenceOpt : Bool
  params : Params
  rucAhead : Nat
  free : Nat
deriving DecidableEq, Repr

/-! ## Reset -/

/-- Log 2: the parameter values of the machine after reset. -/
def Params.default : Params :=
  { vaBits := 64, paBits := 50, ridBits := 24, keyBits := 24, nPkr := 16, nDbr := 8, nIbr := 8, nDtr := 64, nItr := 64,
    alatEntries := 32, cpuidRevision := 0#8, cpuidArchrev := 0#8, ramBase := 0, ramSize := 2 ^ 49, ivaOffShift := 8,
    itcRatio := 1, coreFreqHz := 0#64, cacheSizeBytes := 0#64, brandString := [], steppingString := [], featMt := true,
    featLv := false, featDp := false, socketId := 0, coreId := 0 }

/-- A register that holds 0 without NaT. -/
def Reg.zero : Reg := ⟨0#64, false⟩

/-- Log 3: general registers at reset. -/
def GRFile.reset : GRFile :=
  { low := .replicate 15 .zero, bank0 := .replicate 16 .zero, bank1 := .replicate 16 .zero, stk := .replicate 96 .zero,
    bof := 0, ndirty := 0 }

/-- Log 3: application registers at reset. -/
def ARFile.reset : ARFile :=
  { kr := .replicate 8 0#64, rsc := 0#64, bspstore := 0#64, rnat := 0#64, fcr := 0#64, eflag := 0#64, csd := 0#64,
    ssd := 0#64, cflg := 0#64, fsr := 0#64, fir := 0#64, fdr := 0#64, ccv := 0#64, unat := 0#64, fpsr := 0#64,
    ruc := 0#64, pfs := 0#64, lc := 0#64, ec := 0#6 }

/-- A vector register whose mask bit 16 is set (60 R1320). -/
def maskedVector : Word := 0x10000#64

/-- Control registers at reset: `PMV.m` is 1 (10 R73), the other vector registers masked (log 7), the rest 0 (log 3). -/
def CRFile.reset : CRFile :=
  { dcr := 0#64, itm := 0#64, iva := 0#64, pta := 0#64, ipsr := 0#64, isr := 0#64, iip := 0#64, ifa := 0#64,
    itir := 0#64, iipa := 0#64, ifs := 0#64, iim := 0#64, iha := 0#64, iib0 := 0#64, iib1 := 0#64, lid := 0#64,
    tpr := 0#64, irr := 0#256, inService := 0#256, itv := maskedVector, pmv := maskedVector, cmcv := maskedVector,
    lrr0 := maskedVector, lrr1 := maskedVector }

/-- 11 R150, R200: PMC32 and PMC34 after reset: every field all ones, ignored bits 0. The rule also prints the value
0x030FFFFFFFFFFFF, which its field table (47:41 read 0) does not give; the model takes the fields (log 38, DESIGN CHOICE). -/
def pmcOpcodeMask : Word := 0x030F01FFFFFFFFFF#64
/-- 11 R151, R200: PMC33 and PMC35 after reset. -/
def pmcOpcodeMatch : Word := 0x1FFFFFFFFFF#64
/-- 11 R148: the value PAL leaves in PMC38. -/
def pmc38Default : Word := 0xdb6#64
/-- 11 R155: the value PAL leaves in PMC41. -/
def pmc41Default : Word := 0x2078fefefefe#64

/-- 11 R200: the performance monitor at reset, after PAL's writes (log 6); what is undefined is 0 (log 3). -/
def PMU.reset : PMU :=
  { pmc := .ofFn fun i =>
      match i.val with
      | 32 | 34 => pmcOpcodeMask
      | 33 | 35 => pmcOpcodeMatch
      | 38 => pmc38Default
      | 41 => pmc41Default
      | _ => 0#64
    pmd := .replicate 64 0#64
    earWait := 0#3, etbPending := false, etbFresh := false, predTaken := false
    branchTagged := false, pathMissed := false
    ipElapsed := 0#6, ipFlush := false, ipDelay := 0#9, ipActive := false }

/-- 10 R91, 92 D20: the PSR at reset, all 0 but `bn`. -/
def psrReset : Word := if psrBnReset then 0x100000000000#64 else 0#64

/-- A thread at reset; its urgency, for which 60 R1342 says that the spec gives no value, is 0 (log 3, DESIGN CHOICE). -/
def LP.reset (started : Bool) (p : Params) : LP :=
  { ip := resetIp, psr := psrReset, cfm := 0#38, gr := .reset, fr := .replicate 126 0#82, pr := 1#64,
    br := .replicate 8 0#64, ar := .reset, cr := .reset, rr := .replicate 8 0#64,
    pkr := List.replicate p.nPkr 0#64, ibr := List.replicate p.nIbr 0#64, dbr := List.replicate p.nDbr 0#64,
    pmu := .reset, alat := [], thr := { armed := false, urgency := 0#3, halted := false, started := started },
    lastIp := 0#64, bundle := 0#128, ev := .none }

/-- 12 R268, 70 R1394: a QEAR at reset: PAL's two writes have made its LFSR live; that its control register then reads 0 (PAL has
disabled it again) is the model's choice (log 6, DESIGN CHOICE). -/
def Qear.reset : Qear := { ctl := 0#32, dat0 := 0#32, dat1 := 0#32, lfsrLive := true, lastEn := false }

/-- 12 R268: a B-Box at reset. The hidden age bit is 0 and the arbitration queues, whose live counts reset to 0, are empty, and no
acknowledge is due, where no table gives a value of the hidden state (log 35, DESIGN CHOICE). -/
def BBox.reset : BBox :=
  { ctl0 := 0#33, ctl1 := 0#48, ctl2 := 0#44, ctl3 := 0#64, cnt := .replicate 8 0#41, iob := 0#41, bz := 0#48,
    arb0 := 0#23, arb1 := 0#23, imt := 0#13, age := false, arbq := .replicate 38 0#10, fillAck := false,
    trigPrev := 0#8 }

/-- A match set at reset. -/
def MatchSet.reset : MatchSet := { matchLsb := 0#32, matchMsb := 0#32, maskLsb := 0#32, maskMsb := 0#32, cfg := 0#32 }

/-- 13 R330: the R-Box at reset; an IPERF register holds ARB_MSGSEL = 0x04. The hidden sub-counters, whose reset is not described
(49 R1204), are 0, no packet waits and no message is under way (log 35, DESIGN CHOICE). -/
def RBox.reset : RBox :=
  { frozen := false, pmiEn := false, daf := 0#5, cnt := .replicate 16 0#48, ctl := .replicate 16 0#9,
    iperf0 := .replicate 12 0x800#32, iperf1 := .replicate 12 0x800#32, arb := .replicate 12 0#32,
    mm := .replicate 24 .reset, eot := .replicate 24 0#5, et := .replicate 24 0#5, outbuf := .replicate 12 0#7,
    waiting := .replicate 84 0#7, flight := .replicate 12 ⟨0#72, 0#4⟩ }

/-- 13 R360: a Z-Box at reset. The page policy is closed and the scheduling mode the static tradeoff, code 000, where no table gives
them (log 35, DESIGN CHOICE). -/
def ZBox.reset : ZBox :=
  { frozen := false, ov := 0#5, stopped := 0#5, cnt := .replicate 5 0#40, ctl := .replicate 5 0#10, pgt := 0#32,
    dsp := 0#32, iss := 0#32, thr := 0#32, pld := 0#32, fvc := 0#32, openPage := false, schedMode := 0#2 }

/-- 12 R268, 13 R330, R360: the uncore at reset. -/
def Uncore.reset : Uncore :=
  { qear := .replicate 4 .reset, dbx := 0#14, bbox := .replicate 2 .reset, rbox := .reset, zbox := .replicate 2 .reset,
    pmiRequest := false }

/-- Log 33: how many other sockets the system has after reset. -/
def otherSockets : Nat := 7

/-- The machine right after reset (70 R1381 to R1385): thread 0 in the foreground, thread 1 not started, no translation,
no interrupt pending, nothing listed in memory. -/
def State.reset : State :=
  { lp := .reset true .default, bg := .reset false .default, thread1 := false, itc := 0#64,
    dtr := List.replicate Params.default.nDtr none, itr := List.replicate Params.default.nItr none, dtc := [], itcache := [],
    mem := [], uncore := .reset, remote := List.replicate otherSockets .reset, coherenceOpt := true, params := .default,
    rucAhead := 0, free := 0 }

end Sys2Proof.Machine
end

