-- ==== Sys2Proof/Machine/Memory.lean ====
section
/-!
DEFINITION. Main memory: a list of (address, byte) pairs in one canonical form, addresses strictly rising and no entry equal
to what an unlisted address reads as (20 R421, log 8), and reads and writes of several bytes in both byte orders
(20 R401).
-/

namespace Sys2Proof.Machine

open Sys2Proof.Config

/-- The byte at an address. -/
def memByte : List Host.Cell → Nat → Byte
  | [], _ => unlistedByte
  | c :: cs, a => if c.1 = a then c.2 else memByte cs a

/-- An entry put before a list, unless it is what an unlisted address reads as. -/
def consCell (a : Nat) (b : Byte) (m : List Host.Cell) : List Host.Cell :=
  if b = unlistedByte then m else (a, b) :: m

/-- Memory with one byte written, in canonical form. -/
def setByte : List Host.Cell → Nat → Byte → List Host.Cell
  | [], a, b => consCell a b []
  | c :: cs, a, b =>
    if a < c.1 then consCell a b (c :: cs)
    else if a = c.1 then consCell a b cs
    else c :: setByte cs a b

/-- Whether a list is in canonical form and every address in it is above `lo`, exclusive. -/
def memWfFrom : Nat → List Host.Cell → Bool
  | _, [] => true
  | lo, c :: cs => decide (lo ≤ c.1) && decide (c.2 ≠ unlistedByte) && memWfFrom (c.1 + 1) cs

/-- Memory is in canonical form. -/
def Memory.wf (m : List Host.Cell) : Bool := memWfFrom 0 m

/-- The `n` bytes from `a` as a number, the byte at `a` least significant. -/
def readLE (m : List Host.Cell) (a : Nat) : Nat → Nat
  | 0 => 0
  | n + 1 => (memByte m a).toNat + 256 * readLE m (a + 1) n

/-- The `n` bytes from `a` as a number, the byte at `a` most significant. -/
def readBE (m : List Host.Cell) (a : Nat) : Nat → Nat
  | 0 => 0
  | n + 1 => (memByte m a).toNat * 256 ^ n + readBE m (a + 1) n

/-- Memory with the low `n` bytes of `v` written from `a`, the least significant at `a`. -/
def writeLE (m : List Host.Cell) (a : Nat) : Nat → Nat → List Host.Cell
  | 0, _ => m
  | n + 1, v => setByte (writeLE m (a + 1) n (v / 256)) a (BitVec.ofNat 8 v)

/-- Memory with the low `n` bytes of `v` written from `a`, the most significant at `a`. -/
def writeBE (m : List Host.Cell) (a : Nat) : Nat → Nat → List Host.Cell
  | 0, _ => m
  | n + 1, v => setByte (writeBE m (a + 1) n v) a (BitVec.ofNat 8 (v / 256 ^ n))

/-- `MemRead` of 20 R440 in a byte order. -/
def memRead (big : Bool) (m : List Host.Cell) (a n : Nat) : Nat := if big then readBE m a n else readLE m a n

/-- `MemWrite` of 20 R440 in a byte order. -/
def memWrite (big : Bool) (m : List Host.Cell) (a n v : Nat) : List Host.Cell :=
  if big then writeBE m a n v else writeLE m a n v

end Sys2Proof.Machine
end

