-- ==== Sys2Proof/Machine/Uncore.lean ====
section
/-!
DEFINITION. The uncore registers of the socket: the address map of the PAL aperture (12 R222 to R228, 13 R304, R340), the read
and the write of every register with its side effects.
-/

namespace Sys2Proof.Machine

open Sys2Proof.Config

/-! ## The address map -/

/-- A register of the uncore; `b` is a box number, `c` a core number, `p` a port, `m` a match set. -/
inductive Csr where
  | dbxMisc
  | qearDat0 (c : Nat) | qearDat1 (c : Nat) | qearCtl (c : Nat)
  | bCtl0 (b : Nat) | bCtl1 (b : Nat) | bCtl2 (b : Nat) | bCtl3 (b : Nat) | bCnt (b i : Nat)
  | bIob (b : Nat) | bBz (b : Nat) | bArb0 (b : Nat) | bArb1 (b : Nat) | bImt (b : Nat)
  | rGblCfg | rCnt (i : Nat) | rCtl (i : Nat) | rIperf0 (p : Nat) | rIperf1 (p : Nat) | rArb (p : Nat)
  | rMatchLsb (m : Nat) | rMatchMsb (m : Nat) | rMaskLsb (m : Nat) | rMaskMsb (m : Nat) | rMmCfg (m : Nat)
  | zPgt (b : Nat) | zDsp (b : Nat) | zIss (b : Nat) | zThr (b : Nat) | zStatus (b : Nat) | zCtl (b i : Nat)
  | zCnt (b i : Nat) | zPld (b : Nat) | zFvc (b : Nat)
deriving DecidableEq, Repr

/-- 12 R222, 20 R430: the base of the PAL aperture as a physical address, without the uncacheable marker in bit 63. -/
def apertureBase : Nat := 0x0003FFFB00000000
/-- 12 R222: the length of the PAL aperture. -/
def apertureLength : Nat := 0x100000000

/-- Whether a physical address is in the PAL aperture. -/
def inAperture (pa : Nat) : Bool := decide (apertureBase ≤ pa ∧ pa < apertureBase + apertureLength)

/-- 12 R252: the registers of a B-Box by offset in its window. -/
def bCsrOf (b off : Nat) : Option Csr :=
  match off with
  | 0x080 => some (.bCtl0 b)
  | 0x088 => some (.bCtl1 b)
  | 0x090 => some (.bCtl2 b)
  | 0x098 => some (.bCtl3 b)
  | 0x128 => some (.bIob b)
  | 0x130 => some (.bBz b)
  | 0x138 => some (.bArb0 b)
  | 0x140 => some (.bArb1 b)
  | 0x408 => some (.bImt b)
  | _ => if 0x0a8 ≤ off ∧ off ≤ 0x0e0 ∧ off % 8 = 0 then some (.bCnt b ((off - 0x0a8) / 8)) else none

/-- 13 R340: the registers of a Z-Box by offset in its window. -/
def zCsrOf (b off : Nat) : Option Csr :=
  match off with
  | 0xF00 => some (.zPgt b)
  | 0xEA8 => some (.zDsp b)
  | 0xE38 => some (.zIss b)
  | 0xCA8 => some (.zThr b)
  | 0xC98 => some (.zStatus b)
  | 0xB08 => some (.zPld b)
  | 0x818 => some (.zFvc b)
  | _ =>
    if off % 8 ≠ 0 then none
    else if 0xC70 ≤ off ∧ off ≤ 0xC90 then some (.zCtl b ((0xC90 - off) / 8))
    else if 0xC40 ≤ off ∧ off ≤ 0xC60 then some (.zCnt b ((0xC60 - off) / 8))
    else none

/-- 13 R300, R304: the port of a slot of one side. -/
def portOfSlot (right : Bool) (slot : Nat) : Nat := if right then slot + 5 else if slot = 5 then 11 else slot

/-- 13 R304: the match and mask registers of one side, `rel` the offset from the side's base. -/
def matchCsrOf (right : Bool) (rel : Nat) : Option Csr :=
  let r := rel % 0x100
  let slot := r / 0x28
  let m := 2 * portOfSlot right slot + rel / 0x100
  if slot < 6 then
    match r % 0x28 with
    | 0x00 => some (.rMatchLsb m)
    | 0x08 => some (.rMatchMsb m)
    | 0x10 => some (.rMaskLsb m)
    | 0x18 => some (.rMaskMsb m)
    | 0x20 => some (.rMmCfg m)
    | _ => none
  else none

/-- 13 R304: the registers of the R-Box in window 0x4xxx. -/
def rCsrOf (off : Nat) : Option Csr :=
  if off = 0xF00 then some .rGblCfg
  else if off % 8 ≠ 0 then none
  else if 0xE00 ≤ off ∧ off < 0xF00 then
    (if off % 16 = 0 then some (.rCnt ((off - 0xE00) / 16)) else some (.rCtl ((off - 0xE00) / 16)))
  else if 0xC00 ≤ off ∧ off < 0xE00 then matchCsrOf true (off - 0xC00)
  else if 0xA00 ≤ off ∧ off < 0xC00 then matchCsrOf false (off - 0xA00)
  else if 0x490 ≤ off ∧ off ≤ 0x4B8 then some (.rArb (portOfSlot true ((off - 0x490) / 8)))
  else if 0x290 ≤ off ∧ off ≤ 0x2B8 then some (.rArb (portOfSlot false ((off - 0x290) / 8)))
  else none

/-- 13 R304: the IPERF registers in window 0x7xxx. -/
def iperfOf (off : Nat) : Option Csr :=
  if off / 0x100 ≤ 11 then
    (if off % 0x100 = 0x80 then some (.rIperf0 (off / 0x100))
     else if off % 0x100 = 0x88 then some (.rIperf1 (off / 0x100)) else none)
  else none

/-- 12 R224, R230: the register at an offset of a socket window. -/
def csrOf (reg : Nat) : Option Csr :=
  let off := reg % 0x1000
  match reg / 0x1000 with
  | 0xF => if off = 0xA00 then some .dbxMisc else none
  | 0xD => if (bCsrOf 1 off).isSome then bCsrOf 1 off else zCsrOf 1 off
  | 0xC => if (bCsrOf 0 off).isSome then bCsrOf 0 off else zCsrOf 0 off
  | 0x7 => iperfOf off
  | 0x4 => rCsrOf off
  | w =>
    if 8 ≤ w ∧ w ≤ 11 then
      match off with
      | 0x100 => some (.qearDat0 (w - 8))
      | 0x108 => some (.qearDat1 (w - 8))
      | 0x110 => some (.qearCtl (w - 8))
      | _ => none
    else none

/-- 12 R223: the number of the socket window an aperture address lies in; windows are numbered from 0. -/
def csrWindow (pa : Nat) : Nat := (pa - apertureBase - 0xFC000000) / 0x10000

/-- 12 R223: whether an aperture address lies in a numbered socket window. -/
def csrNumbered (pa : Nat) : Bool := decide (0xFC000000 ≤ pa - apertureBase ∧ pa - apertureBase < 0xFD000000)

/-- 12 R223: whose registers an aperture address reaches: `none` for this socket, in the current window or in its own
numbered one, else the place of the socket among the others (log 33). -/
def csrSocket (p : Params) (pa : Nat) : Option Nat :=
  if csrNumbered pa && csrWindow pa != p.socketId then
    some (if csrWindow pa < p.socketId then csrWindow pa else csrWindow pa - 1)
  else none

/-- 12 R223: the register an aperture address names in its socket. -/
def csrAt (pa : Nat) : Except Refusal Csr :=
  let off := pa - apertureBase
  if csrNumbered pa || decide (0xFEB00000 ≤ off ∧ off < 0xFEB10000) then
    match csrOf (off % 0x10000) with
    | some c => .ok c
    | none => .error (.csrUndescribed pa)
  else .error (.csrUndescribed pa)

/-! ## The registers of a box -/

def Uncore.q (u : Uncore) (c : Nat) : Qear := u.qear.getD c .reset
def Uncore.b (u : Uncore) (b : Nat) : BBox := u.bbox.getD b .reset
def Uncore.z (u : Uncore) (b : Nat) : ZBox := u.zbox.getD b .reset
def RBox.m (r : RBox) (m : Nat) : MatchSet := r.mm.getD m .reset

def Uncore.setQ (u : Uncore) (c : Nat) (q : Qear) : Uncore := { u with qear := u.qear.setIfInBounds c q }
def Uncore.setB (u : Uncore) (b : Nat) (x : BBox) : Uncore := { u with bbox := u.bbox.setIfInBounds b x }
def Uncore.setZ (u : Uncore) (b : Nat) (x : ZBox) : Uncore := { u with zbox := u.zbox.setIfInBounds b x }
def Uncore.setR (u : Uncore) (r : RBox) : Uncore := { u with rbox := r }
def RBox.setM (r : RBox) (m : Nat) (x : MatchSet) : RBox := { r with mm := r.mm.setIfInBounds m x }

/-- 48 R1100: every box frozen or unfrozen by the D-Box. -/
def Uncore.setFrozen (u : Uncore) (f : Bool) : Uncore :=
  let fb (x : BBox) : BBox := { x with ctl0 := (if f then x.ctl0 ||| (1#33 <<< 32) else x.ctl0 &&& ~~~(1#33 <<< 32)) }
  { u with
    bbox := u.bbox.map fb
    rbox := { u.rbox with frozen := f }
    zbox := u.zbox.map fun x => { x with frozen := f } }

/-! ## Reading -/

/-- The bits of a register no row of the source's tables describes: they read as a free value (93 U20, U1). -/
def csrUndescribed : Csr → Word
  | .dbxMisc => 0x7FFFC000#64
  | .qearDat0 _ | .qearDat1 _ | .qearCtl _ => 0xFFFFFFFF00000000#64
  | .bCtl0 _ => 0xFFFFFFFE00000000#64
  | .bCtl2 _ => 0xFFFFF00000007000#64
  | .bCnt _ _ | .bIob _ => 0xFFFFFE0000000000#64
  | .bBz _ => 0xFFFF00007FFFE000#64
  | .bArb0 _ | .bArb1 _ => 0xFFFFFFFFFF800000#64
  | .bImt _ => 0xFFFFFFFFFFFFE000#64
  | .zFvc _ => 0xFF00001F#64
  | _ => 0#64

/-- The described bits of a register. -/
def csrValue (u : Uncore) : Csr → Word
  | .dbxMisc => u.dbx.setWidth 64
  | .qearDat0 c => (u.q c).dat0.setWidth 64
  | .qearDat1 c => ((u.q c).dat1 &&& 0x7FFFFFFF#32).setWidth 64
  | .qearCtl c => (u.q c).ctl.setWidth 64
  | .bCtl0 b => (u.b b).ctl0.setWidth 64
  | .bCtl1 b => (u.b b).ctl1.setWidth 64
  | .bCtl2 b => (u.b b).ctl2.setWidth 64
  | .bCtl3 b => (u.b b).ctl3
  | .bCnt b i => ((u.b b).cnt.getD i 0#41).setWidth 64
  | .bIob b => (u.b b).iob.setWidth 64
  | .bBz b => (u.b b).bz.setWidth 64
  | .bArb0 b => (u.b b).arb0.setWidth 64
  | .bArb1 b => (u.b b).arb1.setWidth 64
  | .bImt b => (u.b b).imt.setWidth 64
  | .rGblCfg =>
    (ofBool u.rbox.frozen <<< 8) ||| (ofBool u.rbox.pmiEn <<< 7) ||| u.rbox.daf.setWidth 64
  | .rCnt i => ((u.rbox.cnt.getD i 0#48).setWidth 32).setWidth 64
  | .rCtl i => ((u.rbox.ctl.getD i 0#9).setWidth 64 <<< 16) ||| ((u.rbox.cnt.getD i 0#48) >>> 32).setWidth 64
  | .rIperf0 p => (u.rbox.iperf0.getD p 0#32).setWidth 64
  | .rIperf1 p => (u.rbox.iperf1.getD p 0#32).setWidth 64
  | .rArb p => (u.rbox.arb.getD p 0#32).setWidth 64
  | .rMatchLsb m => (u.rbox.m m).matchLsb.setWidth 64
  | .rMatchMsb m => (u.rbox.m m).matchMsb.setWidth 64
  | .rMaskLsb m => (u.rbox.m m).maskLsb.setWidth 64
  | .rMaskMsb m => (u.rbox.m m).maskMsb.setWidth 64
  | .rMmCfg m => (u.rbox.m m).cfg.setWidth 64
  | .zPgt b => (u.z b).pgt.setWidth 64
  | .zDsp b => (u.z b).dsp.setWidth 64
  | .zIss b => (u.z b).iss.setWidth 64
  | .zThr b => (u.z b).thr.setWidth 64
  | .zStatus b => (ofBool (u.z b).frozen <<< 31) ||| (u.z b).ov.setWidth 64
  | .zCtl b i =>
    ((((u.z b).cnt.getD i 0#40).setWidth 8).setWidth 64 <<< 24) ||| ((u.z b).ctl.getD i 0#10).setWidth 64
  | .zCnt b i => (((u.z b).cnt.getD i 0#40) >>> 8).setWidth 64
  | .zPld b => (u.z b).pld.setWidth 64
  | .zFvc b => (u.z b).fvc.setWidth 64

/-- The value a read of a register gives; `n` numbers the free value of the undescribed bits. -/
def csrReadValue (u : Uncore) (n : Nat) (c : Csr) : Word :=
  csrValue u c ||| (freeWord n &&& csrUndescribed c)

/-! ## Writing -/

/-- The bits that must be written 0 (93 U20, U32): the undescribed bits of the registers of 12_state_uncore.md and the
bits its tables and those of 13_state_uncore_rz.md mark "must write to 0". -/
def csrMustBeZero : Csr → Word
  | .bCtl0 _ => 0xFFFFFFFE00000800#64
  | .bArb0 _ => 0xFFFFFFFFFF800C00#64
  | .bArb1 _ => 0xFFFFFFFFFF800800#64
  | .rMatchMsb _ | .rMaskMsb _ => 0xFFF0FFF0#64
  | .rMatchLsb _ | .rMaskLsb _ => 0x7FFC0007#64
  | .zDsp _ => 0x100#64
  | .zFvc _ => 0#64
  | c => csrUndescribed c

/-- 93 U23: whether a write asks for a freeze and an unfreeze at once. -/
def csrFreezeConflict (u : Uncore) (v : Word) : Csr → Bool
  | .dbxMisc => v.getLsbD 6 && v.getLsbD 7 && !u.dbx.getLsbD 6 && !u.dbx.getLsbD 7
  | .rGblCfg => v.getLsbD 11 && v.getLsbD 9
  | .zStatus _ => v.getLsbD 31 && v.getLsbD 30
  | _ => false

/-- 12 R247: a write of `DBX_CSR_MISC`. -/
def writeDbx (u : Uncore) (v : Word) : Uncore :=
  let w : BitVec 14 := v.setWidth 14 &&& 0x3FC3#14
  let u := if !u.dbx.getLsbD 6 && w.getLsbD 6 then u.setFrozen true else u
  let u := if !u.dbx.getLsbD 7 && w.getLsbD 7 then u.setFrozen false else u
  { u with dbx := w }

/-- 12 R237, R238: a write of the QEAR control register. -/
def writeQearCtl (q : Qear) (v : Word) : Qear :=
  let en := v.getLsbD 0
  { q with ctl := v.setWidth 32 &&& 0x1FFFF#32, dat0 := q.dat0 &&& ~~~1#32
           lfsrLive := q.lfsrLive || (q.lastEn && en), lastEn := en }

/-- 12 R256, R263: a write of `B_CSR_PERF_CTL2`; a change of `z_op` clears the BZ live state. -/
def writeBCtl2 (b : BBox) (v : Word) : BBox :=
  let w : BitVec 44 := v.setWidth 44
  let zop (x : BitVec 44) : BitVec 16 := (x >>> 21).setWidth 16
  if zop w = zop b.ctl2 then { b with ctl2 := w } else { b with ctl2 := w, bz := b.bz &&& 0x7F#48, fillAck := false }

/-- 13 R305: a write of `R_CSR_PERF_GBLCFG`. -/
def writeRGblCfg (r : RBox) (v : Word) : RBox :=
  { r with
    pmiEn := v.getLsbD 7, daf := v.setWidth 5
    cnt := if v.getLsbD 10 then .replicate 16 0#48 else r.cnt
    frozen := if v.getLsbD 11 then true else if v.getLsbD 9 then false else r.frozen }

/-- 13 R341: a write of `Z_CSR_PMU_CNT_STATUS`; clearing an overflow bit lets a stopped counter count again (13 R344). -/
def writeZStatus (z : ZBox) (v : Word) : ZBox :=
  let c : BitVec 5 := v.setWidth 5
  { z with
    ov := z.ov &&& ~~~c, stopped := z.stopped &&& ~~~c
    frozen := if v.getLsbD 31 then true else if v.getLsbD 30 then false else z.frozen }

/-- 13 R342: a write of `Z_CSR_PMU_CNT_CTL_i`, steered by bit 23. -/
def writeZCtl (z : ZBox) (i : Nat) (v : Word) : ZBox :=
  if v.getLsbD 23 then
    { z with
      cnt := z.cnt.setIfInBounds i ((z.cnt.getD i 0#40 &&& ~~~0xFF#40) ||| ((v >>> 24).setWidth 8).setWidth 40)
      stopped := z.stopped &&& ~~~(1#5 <<< i) }
  else
    let z := { z with ctl := z.ctl.setIfInBounds i (v.setWidth 10) }
    if i = 0 ∧ v.getLsbD 22 then { z with cnt := .replicate 5 0#40, ov := 0#5, stopped := 0#5 } else z

/-- The register file after a write. -/
def csrUpdate (u : Uncore) (v : Word) : Csr → Uncore
  | .dbxMisc => writeDbx u v
  | .qearDat0 c => u.setQ c { u.q c with dat0 := (u.q c).dat0 &&& ~~~1#32 }
  | .qearDat1 _ => u
  | .qearCtl c => u.setQ c (writeQearCtl (u.q c) v)
  | .bCtl0 b => u.setB b { u.b b with ctl0 := v.setWidth 33 }
  | .bCtl1 b => u.setB b { u.b b with ctl1 := v.setWidth 48 }
  | .bCtl2 b => u.setB b (writeBCtl2 (u.b b) v)
  | .bCtl3 b =>
    u.setB b { u.b b with ctl3 := v, age := !(u.b b).age, iob := (u.b b).iob &&& ~~~(0x3FF#41 <<< 11) }
  | .bCnt b i => u.setB b { u.b b with cnt := (u.b b).cnt.setIfInBounds i (v.setWidth 41) }
  | .bIob b =>
    u.setB b { u.b b with iob := ((u.b b).iob &&& (0xFFFFF#41 <<< 21)) ||| (v.setWidth 41 &&& 0x1FFFFF#41) }
  | .bBz b => u.setB b { u.b b with bz := ((u.b b).bz &&& ~~~0x7F#48) ||| (v.setWidth 48 &&& 0x7F#48) }
  | .bArb0 b => u.setB b { u.b b with arb0 := ((u.b b).arb0 &&& ~~~0x3FF#23) ||| (v.setWidth 23 &&& 0x3FF#23) }
  | .bArb1 b => u.setB b { u.b b with arb1 := ((u.b b).arb1 &&& ~~~0x7FF#23) ||| (v.setWidth 23 &&& 0x7FF#23) }
  | .bImt b => u.setB b { u.b b with imt := ((u.b b).imt &&& ~~~0x7F#13) ||| (v.setWidth 13 &&& 0x7F#13) }
  | .rGblCfg => u.setR (writeRGblCfg u.rbox v)
  | .rCnt i =>
    u.setR { u.rbox with
      cnt := u.rbox.cnt.setIfInBounds i
        ((u.rbox.cnt.getD i 0#48 &&& ~~~0xFFFFFFFF#48) ||| (v.setWidth 32).setWidth 48) }
  | .rCtl i =>
    u.setR { u.rbox with
      cnt := u.rbox.cnt.setIfInBounds i
        ((u.rbox.cnt.getD i 0#48 &&& 0xFFFFFFFF#48) ||| ((v.setWidth 16).setWidth 48 <<< 32))
      ctl := u.rbox.ctl.setIfInBounds i ((v >>> 16).setWidth 9) }
  | .rIperf0 p => u.setR { u.rbox with iperf0 := u.rbox.iperf0.setIfInBounds p (v.setWidth 32) }
  | .rIperf1 p => u.setR { u.rbox with iperf1 := u.rbox.iperf1.setIfInBounds p (v.setWidth 32) }
  | .rArb p => u.setR { u.rbox with arb := u.rbox.arb.setIfInBounds p (v.setWidth 32 &&& 0x00FF00FF#32) }
  | .rMatchLsb m => u.setR (u.rbox.setM m { u.rbox.m m with matchLsb := v.setWidth 32 })
  | .rMatchMsb m => u.setR (u.rbox.setM m { u.rbox.m m with matchMsb := v.setWidth 32 })
  | .rMaskLsb m => u.setR (u.rbox.setM m { u.rbox.m m with maskLsb := v.setWidth 32 })
  | .rMaskMsb m => u.setR (u.rbox.setM m { u.rbox.m m with maskMsb := v.setWidth 32 })
  | .rMmCfg m => u.setR (u.rbox.setM m { u.rbox.m m with cfg := v.setWidth 32 &&& 0x3FFFFF#32 })
  | .zPgt b => u.setZ b { u.z b with pgt := v.setWidth 32 &&& 0x3BF#32 }
  | .zDsp b => u.setZ b { u.z b with dsp := v.setWidth 32 &&& 0x400#32 }
  | .zIss b => u.setZ b { u.z b with iss := v.setWidth 32 &&& 0x3FF#32 }
  | .zThr b => u.setZ b { u.z b with thr := v.setWidth 32 &&& 0x7F8#32 }
  | .zStatus b => u.setZ b (writeZStatus (u.z b) v)
  | .zCtl b i => u.setZ b (writeZCtl (u.z b) i v)
  | .zCnt b i =>
    u.setZ b { u.z b with
      cnt := (u.z b).cnt.setIfInBounds i
        (((u.z b).cnt.getD i 0#40 &&& 0xFF#40) ||| ((v.setWidth 32).setWidth 40 <<< 8))
      stopped := (u.z b).stopped &&& ~~~(1#5 <<< i) }
  | .zPld b => u.setZ b { u.z b with pld := v.setWidth 32 &&& 0x3FFF#32 }
  | .zFvc b => u.setZ b { u.z b with fvc := v.setWidth 32 &&& 0xFFFFE0#32 }

/-- A write of a register, or the refusal of 93 U20, U23, U32. -/
def csrWriteValue (u : Uncore) (pa : Nat) (v : Word) (c : Csr) : Except Refusal Uncore :=
  if v &&& csrMustBeZero c ≠ 0#64 then .error (.csrReservedBits pa)
  else if csrFreezeConflict u v c then .error (.csrFreezeConflict pa)
  else .ok (csrUpdate u v c)

end Sys2Proof.Machine
end

