-- ==== Sys2Proof/Machine/Ops.lean ====
section
/-!
DEFINITION. The named operations every meaning uses: the register files with rotation, banks and NaT bits (10 R52 to R63),
exceptions and their delivery (60 R1301 to R1308), the return from one (43 R671), translation and data access (20 R402,
R440), the ALAT (20 R418), and how an instruction ends (10 R56, 60 R1307).
-/

namespace Sys2Proof.Machine

open Sys2Proof.Config

/-! ## Answers -/

/-- An interruption to deliver: its vector offset (60 R1302), the bits of `CR.ISR` but for `ei` (60 R1303), the
interruption registers it writes, and whether it is an architectural exception that loads `CR.IIB` (92 D14). -/
structure Exc where
  offset : Nat
  isr : Word := 0#64
  ifa : Option Word := none
  itir : Option Word := none
  iha : Option Word := none
  iim : Option Word := none
  arch : Bool := true
deriving DecidableEq, Repr

/-- Why the effect of an instruction did not complete. -/
inductive Abort where
  | exc (e : Exc)
  | fault (f : Fault)
  | refuse (r : Refusal)
deriving DecidableEq, Repr

/-- A result, or the reason there is none. -/
abbrev Ans (α : Type) := Except Abort α

/-- The outcome of a meaning. -/
abbrev Result := Host.Outcome State Fault Refusal

/-- The answer that raises an exception. -/
def raise {α : Type} (e : Exc) : Ans α := .error (.exc e)

/-- An exception unless a condition holds. -/
def require (b : Bool) (e : Exc) : Ans Unit := if b then .ok () else raise e

/-- An answer of an uncore operation. -/
def ofRefusal {α : Type} : Except Refusal α → Ans α
  | .ok a => .ok a
  | .error r => .error (.refuse r)

/-! ## Exceptions by name (60 R1302) -/

def illegalOperation : Exc := { offset := 0x5400 }
def privilegedOperation : Exc := { offset := 0x5400, isr := 0x10#64 }
def privilegedRegister : Exc := { offset := 0x5400, isr := 0x20#64 }
def reservedRegisterField : Exc := { offset := 0x5400, isr := 0x30#64 }
def disabledInstructionSet : Exc := { offset := 0x5400, isr := 0x40#64 }
/-- 60 R1314: the break instruction fault. -/
def breakInstruction (imm : Word) : Exc := { offset := 0x2C00, iim := some imm }
/-- `PSR.dfl` (code bit 0) or `PSR.dfh` (code bit 1) disables a register (log 24). -/
def disabledFpRegister (high : Bool) : Exc := { offset := 0x5500, isr := if high then 2#64 else 1#64 }
/-- 60 R1311; `acc` are the access bits of `CR.ISR`. -/
def registerNatConsumption (acc : Word) : Exc := { offset := 0x5600, isr := 0x10#64 ||| acc }

/-! ## Processor status and frame marker -/

/-- A bit of the PSR, numbered as 10 R63 does. -/
def LP.psrBit (lp : LP) (i : Nat) : Bool := lp.psr.getLsbD i
def LP.ic (lp : LP) : Bool := lp.psrBit 13
def LP.cpl (lp : LP) : BitVec 2 := (lp.psr >>> 32).setWidth 2
def LP.ri (lp : LP) : BitVec 2 := (lp.psr >>> 41).setWidth 2
def LP.setRi (lp : LP) (r : BitVec 2) : LP := { lp with psr := setField lp.psr 41 2 (r.setWidth 64) }
def LP.setPsrBit (lp : LP) (i : Nat) (b : Bool) : LP := { lp with psr := setBit lp.psr i b }

/-- 10 R63: the bits of the PSR the layout reserves. -/
def psrReserved : Word := 0xFFFF8000F0011FC1#64

/-- 10 R58: the fields of the current frame marker. -/
def LP.sof (lp : LP) : Nat := lp.cfm.toNat % 128
def LP.sol (lp : LP) : Nat := lp.cfm.toNat / 2 ^ 7 % 128
def LP.sor (lp : LP) : Nat := lp.cfm.toNat / 2 ^ 14 % 16
def LP.rrbGr (lp : LP) : Nat := lp.cfm.toNat / 2 ^ 18 % 128
def LP.rrbFr (lp : LP) : Nat := lp.cfm.toNat / 2 ^ 25 % 128
def LP.rrbPr (lp : LP) : Nat := lp.cfm.toNat / 2 ^ 32 % 64

/-- A frame marker from its fields. -/
def mkCfm (sof sol sor gr fr pr : Nat) : BitVec 38 :=
  BitVec.ofNat 38 (sof % 128 + sol % 128 * 2 ^ 7 + sor % 16 * 2 ^ 14 + gr % 128 * 2 ^ 18 + fr % 128 * 2 ^ 25
    + pr % 64 * 2 ^ 32)

def State.setLp (s : State) (lp : LP) : State := { s with lp := lp }

/-- 92 section 2: the privileged operations need level 0 (60 R1330). -/
def State.atLevel0 (s : State) : Bool := decide (s.lp.cpl = 0#2)

/-! ## General registers (10 R53) -/

/-- Where a general register number leads. -/
inductive GrPlace where
  | zero
  | low (i : Nat)
  | bank (one : Bool) (i : Nat)
  | stacked (i : Nat)
  | outside
deriving DecidableEq, Repr

/-- 10 R53, R58: the place a register number names under the bank and the frame marker. -/
def LP.grPlace (lp : LP) (r : Nat) : GrPlace :=
  if r = 0 then .zero
  else if r < 16 then .low (r - 1)
  else if r < 32 then .bank (lp.psrBit 44) (r - 16)
  else if r - 32 < lp.sof then
    let i := r - 32
    let rot := if i < 8 * lp.sor then (i + lp.rrbGr) % (8 * lp.sor) else i
    .stacked ((lp.gr.bof + rot) % 96)
  else .outside

/-- The register at a place; `r0` and a place outside the frame hold 0. -/
def LP.grAt (lp : LP) : GrPlace → Reg
  | .zero | .outside => .zero
  | .low i => lp.gr.low.getD i .zero
  | .bank b i => if b then lp.gr.bank1.getD i .zero else lp.gr.bank0.getD i .zero
  | .stacked i => lp.gr.stk.getD i .zero

/-- The register file with one place replaced. -/
def LP.setGrAt (lp : LP) (p : GrPlace) (v : Reg) : LP :=
  match p with
  | .zero | .outside => lp
  | .low i => { lp with gr := { lp.gr with low := lp.gr.low.setIfInBounds i v } }
  | .bank true i => { lp with gr := { lp.gr with bank1 := lp.gr.bank1.setIfInBounds i v } }
  | .bank false i => { lp with gr := { lp.gr with bank0 := lp.gr.bank0.setIfInBounds i v } }
  | .stacked i => { lp with gr := { lp.gr with stk := lp.gr.stk.setIfInBounds i v } }

/-- Whether a register number may be a destination: not `r0`, inside the frame (10 R53). -/
def LP.grWritable (lp : LP) (r : BitVec 7) : Bool :=
  match lp.grPlace r.toNat with
  | .zero | .outside => false
  | _ => true

/-- Whether a register number may be read: inside the frame (10 R53). -/
def LP.grReadable (lp : LP) (r : BitVec 7) : Bool := decide (lp.grPlace r.toNat ≠ .outside)

/-- The value of a general register. -/
def LP.gr? (lp : LP) (r : BitVec 7) : Reg := lp.grAt (lp.grPlace r.toNat)

/-- A read of a general register. -/
def readGr (s : State) (r : BitVec 7) : Ans Reg :=
  if s.lp.grReadable r then .ok (s.lp.gr? r) else raise illegalOperation

/-- The decode check of a source register that is read after a check of lower priority (60 R1307). -/
def checkSource (s : State) (r : BitVec 7) : Ans Unit := require (s.lp.grReadable r) illegalOperation

/-- The check of a destination register. -/
def checkGr (s : State) (r : BitVec 7) : Ans Unit := require (s.lp.grWritable r) illegalOperation

/-- A general register replaced; the destination has been checked. -/
def State.setGr (s : State) (r : BitVec 7) (v : Reg) : State :=
  s.setLp (s.lp.setGrAt (s.lp.grPlace r.toNat) v)

/-! ## Predicates (10 R57) -/

/-- The physical number of a predicate. -/
def LP.prIndex (lp : LP) (p : Nat) : Nat := if p < 16 then p else 16 + (p - 16 + lp.rrbPr) % 48

/-- A predicate; `p0` is 1. -/
def LP.readPr (lp : LP) (p : BitVec 6) : Bool :=
  if p = 0#6 then true else lp.pr.getLsbD (lp.prIndex p.toNat)

/-- A predicate written; a write of `p0` is discarded (10 R57, 40 R520; log 51). -/
def LP.setPr (lp : LP) (p : BitVec 6) (b : Bool) : LP :=
  if p = 0#6 then lp else { lp with pr := setBit lp.pr (lp.prIndex p.toNat) b }

/-! ## Floating-point registers (10 R59) -/

/-- The physical place of a floating-point register from `f2` on. -/
def LP.frIndex (lp : LP) (f : Nat) : Nat := if f < 32 then f - 2 else 30 + (f - 32 + lp.rrbFr) % 96

/-- `FR[1]` holds +1.0. -/
def frOne : FReg := 0#1 ++ 0xFFFF#17 ++ 0x8000000000000000#64

/-- NaTVal (log 18). -/
def natVal : FReg := 0#1 ++ 0x1FFFE#17 ++ 0#64

/-- The value of a floating-point register. -/
def LP.fr? (lp : LP) (f : BitVec 7) : FReg :=
  if f = 0#7 then 0#82 else if f = 1#7 then frOne else lp.fr.getD (lp.frIndex f.toNat) 0#82

/-- Whether `PSR.dfl` or `PSR.dfh` leaves a register enabled. -/
def LP.frEnabled (lp : LP) (f : BitVec 7) : Bool :=
  if f.toNat < 2 then true else if f.toNat < 32 then !lp.psrBit 18 else !lp.psrBit 19

/-- The check of a disabled register. -/
def checkFrEnabled (s : State) (f : BitVec 7) : Ans Unit :=
  require (s.lp.frEnabled f) (disabledFpRegister (decide (32 ≤ f.toNat)))

/-- A read of a floating-point register. -/
def readFr (s : State) (f : BitVec 7) : Ans FReg := do
  checkFrEnabled s f
  return s.lp.fr? f

/-- The decode check of a destination: `f0` and `f1` are read-only. -/
def checkFrNumber (f : BitVec 7) : Ans Unit := require (decide (2 ≤ f.toNat)) illegalOperation

/-- The check of a destination: its number, then whether it is disabled (60 R1307). -/
def checkFr (s : State) (f : BitVec 7) : Ans Unit := do
  checkFrNumber f
  checkFrEnabled s f

/-- A floating-point register replaced; the write is recorded in `PSR.mfl` or `PSR.mfh`. -/
def State.setFr (s : State) (f : BitVec 7) (v : FReg) : State :=
  s.setLp { s.lp with
    fr := s.lp.fr.setIfInBounds (s.lp.frIndex f.toNat) v
    psr := setBit s.lp.psr (if f.toNat < 32 then 4 else 5) true }

/-! ## Branch registers (10 R60) -/

def LP.br? (lp : LP) (b : BitVec 3) : Word := lp.br.getD b.toNat 0#64
def State.setBr (s : State) (b : BitVec 3) (v : Word) : State :=
  s.setLp { s.lp with br := s.lp.br.setIfInBounds b.toNat v }

/-! ## Free values -/

/-- The next undefined word, and the state that has used it. -/
def freshWord (s : State) : Word × State := (freeWord s.free, { s with free := s.free + 1 })

/-! ## Taking an interruption and returning from one (60 R1306, R1308) -/

/-- The PSR of a handler: `up`, `mfl`, `mfh`, `pk`, `dt`, `rt`, `mc`, `it` kept, `be` and `pp` from `CR.DCR`, the rest 0. -/
def handlerPsr (psr dcr : Word) : Word :=
  setBit (setBit (psr &&& 0x1808028034#64) 1 (dcr.getLsbD 1)) 21 (dcr.getLsbD 0)

/-- The control registers delivery writes while `PSR.ic` is 1. -/
def collect (lp : LP) (e : Exc) (ei : BitVec 2) : CRFile :=
  { lp.cr with
    ipsr := lp.psr, iip := lp.ip, iipa := lp.lastIp
    isr := e.isr ||| (ei.setWidth 64 <<< 41)
    ifs := setBit lp.cr.ifs 63 false
    ifa := e.ifa.getD lp.cr.ifa, itir := e.itir.getD lp.cr.itir, iha := e.iha.getD lp.cr.iha
    iim := e.iim.getD lp.cr.iim
    iib0 := if e.arch then lp.bundle.setWidth 64 else lp.cr.iib0
    iib1 := if e.arch then (lp.bundle >>> 64).setWidth 64 else lp.cr.iib1 }

/-- The address of an exception that is a fault of a data access (60 R1302), and whether the register stack engine met it. -/
def dataFaultOf (e : Exc) : Option (Word × Bool) :=
  if e.isr.getLsbD 32 then none else e.ifa.map fun a => (a, e.isr.getLsbD 37)

/-- 60 R1306: delivery of an interruption; every vector offset is a multiple of 0x100 (60 R1302). The saved context is
the `ip` and `psr` of the state given (for a fault the instruction itself, for a trap the next one); `ei` is the slot of
the excepting instruction. -/
def deliver (e : Exc) (ei : BitVec 2) (s : State) : State :=
  let lp := s.lp
  s.setLp { lp with
    cr := if lp.ic then collect lp e ei else lp.cr
    psr := handlerPsr lp.psr lp.cr.dcr
    ip := (lp.cr.iva &&& ~~~0x7FFF#64) ||| (BitVec.ofNat 64 e.offset &&& 0x7F00#64)
    ev := { lp.ev with
      vector := some e.offset, code := e.isr, dataFault := dataFaultOf e
      fetchFault := decide (e.offset ∈ [0x0000, 0x0400, 0x0C00]) && e.isr.getLsbD 32, statusAt := some lp.psr
      debugData := decide (e.offset = 0x5900) && !e.isr.getLsbD 32 } }

/-- 43 R671: what `rfi` requires of `CR.IPSR`: no reserved bit, a slot number, and the modes the model keeps 0 (92 D17,
D23). -/
def ipsrValid (w : Word) : Bool :=
  decide (w &&& psrReserved = 0#64) && decide (field w 41 2 ≠ 3#64) && !w.getLsbD 34 && !w.getLsbD 46

/-- 43 R671, 60 R1308: the return from an interruption: processor status, address and slot as delivery saved them. The
register frame is restored by `popFrame`. -/
def restoreContext (s : State) : State :=
  s.setLp { s.lp with psr := s.lp.cr.ipsr, ip := alignDown s.lp.cr.iip 4, lastIp := s.lp.ip }

/-- The outcome of a meaning: an exception is delivered from the state before the instruction (60 R1301: precise). -/
def finish (s : State) (r : Ans State) : Result :=
  match r with
  | .ok s' => .next s'
  | .error (.exc e) => .next (deliver e s.lp.ri s)
  | .error (.fault f) => .fault f
  | .error (.refuse f) => .refused f

/-- A change of the execution flow recorded for the performance monitor. -/
def State.noteFlow (s : State) (k : FlowKind) (taken : Bool) (target : Word) : State :=
  s.setLp { s.lp with ev := { s.lp.ev with flow := some { kind := k, taken := taken, target := target } } }

/-! ## Translation (20 R440, 92 D5, D10) -/

/-- What stops an access to memory; `ed` is that bit of the translation of the address (60 R1303). -/
inductive MemFault where
  | unimplemented
  | xlat (f : XlatFault) (itir iha : Word) (ed : Bool)
  | natPage (itir iha : Word) (ed : Bool)
  | debug (ed : Bool)
  | unaligned (ed : Bool)
  | unsupported (ed : Bool)
deriving DecidableEq, Repr

/-- The access bits `x`, `w`, `r`, `na`, `rs` of `CR.ISR` (60 R1303). -/
def accessBits : AccessKind → Word
  | .fetch => 1#64 <<< 32
  | .write => 1#64 <<< 33
  | .read => 1#64 <<< 34
  | .readWrite => 3#64 <<< 33
  | .nonAccess => 1#64 <<< 35
  | .rseRead => (1#64 <<< 34) ||| (1#64 <<< 37)
  | .rseWrite => (1#64 <<< 33) ||| (1#64 <<< 37)

/-- The vector of a translation fault (60 R1302). -/
def xlatOffset (fetch ic : Bool) : XlatFault → Nat
  | .vhptTranslation => 0x0000
  | .tlbMiss => if fetch then 0x0400 else if ic then 0x0800 else 0x1400
  | .altTlbMiss => if fetch then 0x0C00 else if ic then 0x1000 else 0x1400
  | .keyMiss => if fetch then 0x1800 else 0x1C00
  | .dirtyBit => 0x2000
  | .accessBit => if fetch then 0x2400 else 0x2800
  | .pageNotPresent => 0x5000
  | .keyPermission => 0x5100
  | .accessRights => if fetch then 0x5200 else 0x5300

/-- 60 R1302, R1303: the exception of a memory fault at an address; `acc` are the access bits of `CR.ISR`. -/
def memExc (s : State) (va : Word) (kind : AccessKind) (acc : Word) : MemFault → Exc
  | .unimplemented => { offset := 0x5400, isr := 0x30#64 ||| acc, ifa := some va }
  | .xlat f itir iha ed =>
    let code := (field acc 34 1 <<< 2) ||| (field acc 33 1 <<< 1) ||| field acc 32 1
    { offset := xlatOffset (decide (kind = .fetch)) s.lp.ic f
      isr := acc ||| code ||| (ofBool ed <<< 43), ifa := some va, itir := some itir, iha := some iha }
  | .natPage itir iha ed =>
    { offset := 0x5600, isr := 0x20#64 ||| acc ||| (ofBool ed <<< 43), ifa := some va, itir := some itir, iha := some iha }
  | .debug ed => { offset := 0x5900, isr := acc ||| (ofBool ed <<< 43), ifa := some va }
  | .unaligned ed => { offset := 0x5A00, isr := acc ||| (ofBool ed <<< 43), ifa := some va }
  | .unsupported ed => { offset := 0x5B00, isr := acc ||| (ofBool ed <<< 43), ifa := some va }

/-- Whether translation is on for a kind of access. -/
def LP.translates (lp : LP) : AccessKind → Bool
  | .fetch => lp.psrBit 36
  | .rseRead | .rseWrite => lp.psrBit 27
  | _ => lp.psrBit 17

/-- What a translation depends on; an access of the register stack engine has the level of `AR.RSC.pl` (60 R1330). -/
def xlatContext (s : State) (kind : AccessKind) : XlatContext :=
  let lp := s.lp
  { regs := (match kind with | .fetch => s.itr | _ => s.dtr)
    cache := (match kind with | .fetch => s.itcache | _ => s.dtc)
    rr := lp.rr.toList, pkr := lp.pkr, pta := lp.cr.pta
    psr := (match kind with
      | .rseRead | .rseWrite => setField lp.psr 32 2 (field lp.ar.rsc 2 2)
      | _ => lp.psr) }

/-- `VirtToPhys` of 20 R440: with translation off, bit 63 marks an uncacheable access and is no part of the address. -/
def translateAddr (s : State) (va : Word) (kind : AccessKind) : Except MemFault (Nat × MemAttr) :=
  if s.lp.translates kind then
    (if 2 ^ s.params.vaBits ≤ va.toNat then .error .unimplemented
     else match translate (xlatContext s kind) va kind with
      | .ok _ .natPage itir iha ed => .error (.natPage itir iha ed)
      | .ok pa attr _ _ _ => .ok (pa.toNat, attr)
      | .fault f itir iha ed => .error (.xlat f itir iha ed))
  else
    let pa := va.toNat % 2 ^ 63
    if 2 ^ s.params.paBits ≤ pa then .error .unimplemented
    else .ok (pa, if va.getLsbD 63 then .uc else .wb)

/-- 60 R1303: the `ed` bit of the entry that translates an address; 0 while translation is off. -/
def pageEd (s : State) (va : Word) (kind : AccessKind) : Bool :=
  s.lp.translates kind && (match translate (xlatContext s kind) va kind with
    | .ok _ _ _ _ ed => ed
    | .fault _ _ _ ed => ed)

/-! ## Breakpoint registers (10 R82 to R84, 60 R1313) -/

/-- 10 R84: the address match of a breakpoint pair. -/
def matchAddr (a addr mask : Word) : Bool :=
  decide ((a ^^^ addr) &&& ((mask &&& 0x00FFFFFFFFFFFFFF#64) ||| 0xFF00000000000000#64) = 0#64)

/-- Whether some pair of a breakpoint file, enabled by `on` and for the privilege level, matches an address. -/
def breakHit (on : Word → Bool) (cpl : BitVec 2) (a : Word) : List Word → Bool
  | addr :: ctl :: rest =>
    (on ctl && ctl.getLsbD (56 + cpl.toNat) && matchAddr a addr ctl) || breakHit on cpl a rest
  | _ => false

/-- 60 R1313: whether an instruction fetch meets an instruction breakpoint. -/
def instrBreak (s : State) : Bool :=
  s.lp.psrBit 24 && !s.lp.psrBit 37 && breakHit (fun c => c.getLsbD 63) s.lp.cpl s.lp.ip s.lp.ibr

/-- The privilege level of a kind of access: an access of the register stack engine has that of `AR.RSC.pl` (60 R1330). -/
def LP.accessLevel (lp : LP) : AccessKind → BitVec 2
  | .rseRead | .rseWrite => (lp.ar.rsc >>> 2).setWidth 2
  | _ => lp.cpl

/-- 60 R1313: whether a data access of `n` bytes meets a data breakpoint. -/
def dataBreak (s : State) (kind : AccessKind) (va : Word) (n : Nat) : Bool :=
  let on (c : Word) : Bool := match kind with
    | .read | .rseRead => c.getLsbD 63
    | .write | .rseWrite => c.getLsbD 62
    | .readWrite => c.getLsbD 63 || c.getLsbD 62
    | _ => false
  s.lp.psrBit 24 && !s.lp.psrBit 39
    && (List.range n).any fun i => breakHit on (s.lp.accessLevel kind) (va + BitVec.ofNat 64 i) s.lp.dbr

/-! ## Data access (20 R402, R440) -/

/-- 20 R402, 92 D4: whether an access may be performed at its alignment. -/
def alignOk (s : State) (kind : AccessKind) (attr : MemAttr) (a n : Nat) : Bool :=
  if a % n = 0 then true
  else !s.lp.psrBit 3 && decide (attr = .wb) && (match kind with
    | .read => decide (a / 8 = (a + n - 1) / 8)
    | .write => decide (a / 16 = (a + n - 1) / 16)
    | _ => false)

/-- The checks of a data access in the order of 60 R1307: translation, debug, alignment, attribute. -/
def dataAccess (s : State) (kind : AccessKind) (va : Word) (n : Nat) (wbOnly : Bool) :
    Except MemFault (Nat × MemAttr) := do
  let (pa, attr) ← translateAddr s va kind
  if dataBreak s kind va n then .error (.debug (pageEd s va kind))
  else if !alignOk s kind attr va.toNat n then .error (.unaligned (pageEd s va kind))
  else if wbOnly && decide (attr ≠ .wb) then .error (.unsupported (pageEd s va kind))
  else .ok (pa, attr)

/-- A memory answer with its faults raised. -/
def orRaise {α : Type} (s : State) (va : Word) (kind : AccessKind) (acc : Word) : Except MemFault α → Ans α
  | .ok a => .ok a
  | .error f => raise (memExc s va kind acc f)

/-- Whether a range of physical addresses is main memory (20 R421). -/
def inRam (p : Params) (pa n : Nat) : Bool := decide (p.ramBase ≤ pa ∧ pa + n ≤ p.ramBase + p.ramSize)

/-- The uncore registers of a socket: this one, or another of the system (12 R223, 20 R431). -/
def State.uncoreOf (s : State) : Option Nat → Option Uncore
  | none => some s.uncore
  | some k => s.remote[k]?

/-- The uncore registers of a socket replaced. -/
def State.setUncoreOf (s : State) (u : Uncore) : Option Nat → State
  | none => { s with uncore := u }
  | some k => { s with remote := s.remote.set k u }

/-- 20 R431: the register of an aligned 8-byte uncacheable access in the aperture, and the registers of its socket. -/
def csrPlace (s : State) (pa : Nat) (attr : MemAttr) (n : Nat) : Ans (Csr × Uncore) :=
  if decide (attr = .uc) && n == 8 && pa % 8 == 0 then do
    let c ← ofRefusal (csrAt pa)
    match s.uncoreOf (csrSocket s.params pa) with
    | some u => return (c, u)
    | none => .error (.refuse (.csrOtherSocket (csrWindow pa)))
  else .error (.refuse (.csrAccess pa))

/-- `MemRead` of 20 R440 in a byte order, or the read of an uncore register (20 R431), whose number no byte order turns
round (log 10); 92 D9 elsewhere. -/
def readAt (s : State) (big : Bool) (pa : Nat) (attr : MemAttr) (n : Nat) : Ans (Nat × State) :=
  if inAperture pa then do
    let (c, u) ← csrPlace s pa attr n
    return ((csrReadValue u s.free c).toNat, { s with free := s.free + 1 })
  else if inRam s.params pa n then .ok (memRead big s.mem pa n, s)
  else .error (.fault (.noDevice pa))

/-- Whether an ALAT entry overlaps a range of bytes. -/
def AlatEntry.overlaps (e : AlatEntry) (pa n : Nat) : Bool := decide (e.pa < pa + n ∧ pa < e.pa + e.size)

/-- 20 R418: the entries of an ALAT a store leaves. -/
def alatAfterStore (l : List AlatEntry) (pa n : Nat) : List AlatEntry := l.filter fun e => !e.overlaps pa n

/-- 20 R418, R440: a store removes the overlapping ALAT entries of both threads. -/
def State.dropAlat (s : State) (pa n : Nat) : State :=
  { s with
    lp := { s.lp with alat := alatAfterStore s.lp.alat pa n }
    bg := { s.bg with alat := alatAfterStore s.bg.alat pa n } }

/-- `MemWrite` of 20 R440 in a byte order, or the write of an uncore register (20 R431), whose number no byte order turns
round (log 10). Both remove the ALAT entries they overlap. -/
def writeAt (s : State) (big : Bool) (pa : Nat) (attr : MemAttr) (n v : Nat) : Ans State :=
  if inAperture pa then do
    let (c, u) ← csrPlace s pa attr n
    let u' ← ofRefusal (csrWriteValue u pa (BitVec.ofNat 64 v) c)
    return (s.dropAlat pa n).setUncoreOf u' (csrSocket s.params pa)
  else if inRam s.params pa n then
    .ok { s.dropAlat pa n with mem := memWrite big s.mem pa n v }
  else .error (.fault (.noDevice pa))

/-- The byte order of data accesses (20 R401). -/
def State.bigData (s : State) : Bool := s.lp.psrBit 1

/-- The record of a data access for the performance monitor. -/
def State.noteData (s : State) (kind : DataKind) (fp : Bool) (va : Word) (n : Nat) (attr : MemAttr)
    (natted : Option Nat) : State :=
  s.setLp { s.lp with ev := { s.lp.ev with
    data := some { kind := kind, fp := fp, addr := va, size := n, uncached := decide (attr ≠ .wb)
                   misaligned := decide (va.toNat % n ≠ 0), natted := natted } } }

/-- `Load` of 20 R440. -/
def load (s : State) (fp : Bool) (va : Word) (n : Nat) (wbOnly : Bool) : Ans (Nat × Nat × State) := do
  let (pa, attr) ← orRaise s va .read (accessBits .read) (dataAccess s .read va n wbOnly)
  let (v, s') ← readAt s s.bigData pa attr n
  return (v, pa, s'.noteData .load fp va n attr none)

/-- `Store` of 20 R440. -/
def store (s : State) (fp : Bool) (va : Word) (n v : Nat) (wbOnly : Bool) : Ans State := do
  let (pa, attr) ← orRaise s va .write (accessBits .write) (dataAccess s .write va n wbOnly)
  let s' ← writeAt s s.bigData pa attr n v
  return s'.noteData .store fp va n attr none

/-- 20 R417: an indivisible read of `n` bytes at `va`, then the write of `f old`, if any, as `m` bytes at `va` with its low
bits cleared to the size written. -/
def atomic (s : State) (va : Word) (n m : Nat) (f : Nat → Option Nat) : Ans (Nat × State) := do
  let (pa, attr) ← orRaise s va .readWrite (accessBits .readWrite) (dataAccess s .readWrite va n true)
  let (old, s') ← readAt s s.bigData pa attr n
  match f old with
  | none => return (old, s'.noteData .semaphore false va n attr none)
  | some v => do
    let s'' ← writeAt s' s.bigData (pa - pa % m) attr m v
    return (old, s''.noteData .semaphore false va n attr none)

/-! ## The ALAT (10 R85, 42 R580, R597) -/

/-- The physical number of a general register, the key of its ALAT entry (log 32). -/
def GrPlace.key : GrPlace → Nat
  | .zero | .outside => 0
  | .low i => i + 1
  | .bank b i => if b then 48 + i else 16 + i
  | .stacked i => 64 + i

/-- The key of a register; f0 and f1, which no load may name, have keys of their own, of which there is never an entry. -/
def LP.alatKey (lp : LP) (fp : Bool) (r : BitVec 7) : Nat :=
  if fp then (if r.toNat < 2 then r.toNat else lp.frIndex r.toNat + 2) else (lp.grPlace r.toNat).key

/-- The entries of other registers. -/
def alatWithout (l : List AlatEntry) (fp : Bool) (key : Nat) : List AlatEntry :=
  l.filter fun e => !(e.fp == fp && e.reg == key)

/-- The entry of a register removed. -/
def State.removeAlat (s : State) (fp : Bool) (r : BitVec 7) : State :=
  s.setLp { s.lp with alat := alatWithout s.lp.alat fp (s.lp.alatKey fp r) }

/-- An entry allocated; a full table loses one of its entries (10 R85). A register that had no entry is noted with the
number of free entries (45 R811). -/
def State.allocAlat (s : State) (fp : Bool) (r : BitVec 7) (pa n : Nat) : State :=
  let key := s.lp.alatKey fp r
  let l := alatWithout s.lp.alat fp key
  let e : AlatEntry := { fp := fp, reg := key, pa := pa, size := n }
  let note : StepEvent := if l.length = s.lp.alat.length then
      { s.lp.ev with allocated := some (fp, s.params.alatEntries - l.length) } else s.lp.ev
  if s.params.alatEntries = 0 then s.setLp { s.lp with alat := [], ev := note }
  else if l.length < s.params.alatEntries then s.setLp { s.lp with alat := e :: l, ev := note }
  else { s.setLp { s.lp with alat := e :: l.eraseIdx (alatVictim s.free % l.length), ev := note } with
    free := s.free + 1 }

/-- Whether a check of a register finds its entry; the table may have lost it (42 R597, log 32). -/
def checkAlat (s : State) (fp : Bool) (r : BitVec 7) : Bool × State :=
  if s.lp.alat.any fun e => e.fp == fp && e.reg == s.lp.alatKey fp r then
    (if alatDrop s.free then (false, { s.removeAlat fp r with free := s.free + 1 })
     else (true, { s with free := s.free + 1 }))
  else (false, s)

/-! ## Deferral of speculative loads (60 R1310) -/

/-- The deferral bit of `CR.DCR` for a fault (10 R66). -/
def deferralBit : MemFault → Option Nat
  | .xlat .vhptTranslation _ _ _ | .xlat .tlbMiss _ _ _ | .xlat .altTlbMiss _ _ _ => some 8
  | .xlat .pageNotPresent _ _ _ => some 9
  | .xlat .keyMiss _ _ _ => some 10
  | .xlat .keyPermission _ _ _ => some 11
  | .xlat .accessRights _ _ _ => some 12
  | .xlat .accessBit _ _ _ | .xlat .dirtyBit _ _ _ => some 13
  | .debug _ => some 14
  | _ => none

/-- 60 R1310: whether a fault of a speculative load is deferred. -/
def deferred (s : State) (f : MemFault) : Bool :=
  match f with
  | .natPage _ _ _ => true
  | _ =>
    match deferralBit f with
    | none => false
    | some b =>
      !s.lp.ic || (s.lp.psrBit 36 && s.lp.cr.dcr.getLsbD b && codePageEd (xlatContext s .fetch) s.lp.ip)

/-- 46 R916: the unit mask of SPEC_LOADS_NATTED that names why a fault was deferred. -/
def MemFault.natCause : MemFault → Nat
  | .xlat .vhptTranslation _ _ _ => 1
  | .xlat .tlbMiss _ _ _ | .xlat .altTlbMiss _ _ _ => 2
  | .natPage _ _ _ => 0
  | _ => 3

/-- What a speculative load finds: the value with the physical address, or nothing (a NaT). An address whose memory is not
write-back is not accessed and nothing is checked of it (20 R404 for UC; 60 R1310 "uncacheable"; for WC log 47). -/
def specLoad (s : State) (fp : Bool) (va : Word) (n : Nat) (wbOnly : Bool) : Ans (Option (Nat × Nat) × State) :=
  let natted (attr : MemAttr) (cause : Nat) : Ans (Option (Nat × Nat) × State) :=
    .ok (none, s.noteData .load fp va n attr (some cause))
  let failed (f : MemFault) : Ans (Option (Nat × Nat) × State) :=
    if deferred s f then natted .wb f.natCause
    else raise (memExc s va .read (accessBits .read ||| (1#64 <<< 36)) f)
  if s.lp.psrBit 43 then natted .wb 5
  else
    match translateAddr s va .read with
    | .error f => failed f
    | .ok (_, attr) =>
      if attr ≠ .wb then natted attr 0
      else
        match dataAccess s .read va n wbOnly with
        | .error f => failed f
        | .ok (pa, attr) => do
          let (v, s') ← readAt s s.bigData pa attr n
          return (some (v, pa), s'.noteData .load fp va n attr none)

/-! ## How an instruction ends (10 R56, 60 R1307) -/

/-- How an instruction that ran to completion ends. -/
structure Ending where
  /-- the target of a taken branch -/
  target : Option Word := none
  /-- an instruction of the X unit, which takes slots 1 and 2 -/
  wide : Bool := false
  /-- `br.ret` lowered the privilege level -/
  lowered : Bool := false
  /-- the code bits of a floating-point trap, 0 for none -/
  fpTrap : Word := 0#64
deriving DecidableEq, Repr

/-- The address and slot after an instruction. -/
def nextPlace (lp : LP) (e : Ending) : Word × BitVec 2 :=
  match e.target with
  | some t => (alignDown t 4, 0#2)
  | none =>
    if e.wide || decide (2 ≤ lp.ri.toNat) then (lp.ip + 16#64, 0#2) else (lp.ip, lp.ri + 1#2)

/-- 10 R56, 92 D10: whether an instruction address has unimplemented bits. -/
def unimplementedIp (s : State) (ip : Word) : Bool :=
  if s.lp.psrBit 36 then decide (2 ^ s.params.vaBits ≤ ip.toNat)
  else decide (2 ^ s.params.paBits ≤ ip.toNat % 2 ^ 63)

/-- Log 26: the PSR bits `id`, `da`, `dd`, `ed`, `ia` that last for one instruction. -/
def oneShotBits : Word := 0x28E000000000#64

/-- 60 R1307: the trap an instruction that began with `psr` ends in, `none` if it ends in none; several traps are
reported together in the code (log 24). -/
def trapOf (psr : Word) (uia : Bool) (e : Ending) : Option Exc :=
  let fp := decide (e.fpTrap ≠ 0#64)
  let lp := e.lowered && psr.getLsbD 25
  let tb := e.target.isSome && psr.getLsbD 26
  let ss := psr.getLsbD 40
  let code := e.fpTrap ||| ofBool fp ||| (ofBool lp <<< 1) ||| (ofBool tb <<< 2) ||| (ofBool ss <<< 3)
  if uia then some { offset := 0x5E00, isr := code ||| 0x10#64 }
  else if fp then some { offset := 0x5D00, isr := code }
  else if lp then some { offset := 0x5E00, isr := code }
  else if tb then some { offset := 0x5F00, isr := code }
  else if ss then some { offset := 0x6000, isr := code }
  else none

/-- The state after an instruction with all its effects in `s'` ended as `e` says; `s` is the state before it. -/
def advance (s s' : State) (e : Ending) : State :=
  let p := nextPlace s.lp e
  s'.setLp { s'.lp with
    ip := p.1, lastIp := s.lp.ip
    psr := setField (s'.lp.psr &&& ~~~oneShotBits) 41 2 (p.2.setWidth 64) }

/-- The end of an instruction: the next place, and the trap if there is one. -/
def retire (s s' : State) (e : Ending) : State :=
  let t := advance s s' e
  match trapOf s.lp.psr (unimplementedIp t t.lp.ip) e with
  | none => t
  | some x => deliver x s.lp.ri t

/-- 30 R456: an instruction whose qualifying predicate is 0 only moves on. -/
def squash (s : State) (wide : Bool) : State :=
  retire s (s.setLp { s.lp with ev := { s.lp.ev with squashed := true } }) { wide := wide }

/-- A predicated instruction that falls through. -/
def predicated (qp : BitVec 6) (s : State) (body : Ans State) (wide : Bool := false) : Result :=
  if s.lp.readPr qp then finish s (body.map fun s' => retire s s' { wide := wide }) else .next (squash s wide)

/-- A predicated instruction that ends as its effect says. -/
def predicatedEnd (qp : BitVec 6) (s : State) (body : Ans (State × Ending)) : Result :=
  if s.lp.readPr qp then finish s (body.map fun p => retire s p.1 p.2) else .next (squash s false)

/-- An instruction that is not predicated and ends as its effect says. -/
def unpredicated (s : State) (body : Ans (State × Ending)) : Result :=
  finish s (body.map fun p => retire s p.1 p.2)

end Sys2Proof.Machine
end

