-- ==== Sys2Proof/Machine/Operands.lean ====
section
/-!
DEFINITION. The operand forms: immediates, branch targets, bit positions, increments, and the general-register sources with
their NaT bits (40_instr_a_type.md to 43_instr_b_f_x_type.md, the format lines).
-/

namespace Sys2Proof.Machine

/-! ## Immediates -/

/-- A signed immediate as a word. -/
def simm {n : Nat} (v : BitVec n) : Word := v.signExtend 64
/-- An unsigned field as a word. -/
def uimm {n : Nat} (v : BitVec n) : Word := v.setWidth 64

/-- 40 R510: `count2` of the shift-and-add forms. -/
def countOf (ct2d : BitVec 2) : Nat := ct2d.toNat + 1

/-- 43 R661: the target of an IP-relative branch, `IP + sext_25(field : 0000)`. -/
def ipTarget (ip : Word) (t : BitVec 21) : Word := ip + (simm t <<< 4)

/-- 43 R694: the target of a long branch, `IP + (i : imm39 : imm20b : 0000)`; the L slot holds `imm39` in bits 40:2. -/
def longTarget (ip : Word) (i : BitVec 1) (imm41 : Slot) (imm20b : BitVec 20) : Word :=
  ip + ((((uimm i <<< 39) ||| ((imm41 >>> 2).setWidth 64)) <<< 24) ||| (uimm imm20b <<< 4))

/-- 43 R691: the immediate of `movl`. -/
def movlImm (i : BitVec 1) (imm41 : Slot) (ic : BitVec 1) (imm5c : BitVec 5) (imm9d : BitVec 9) (imm7b : BitVec 7) :
    Word :=
  (uimm i <<< 63) ||| (imm41.setWidth 64 <<< 22) ||| (uimm ic <<< 21) ||| (uimm imm5c <<< 16) ||| (uimm imm9d <<< 7)
    ||| uimm imm7b

/-- 42 R590: `inc3` of `fetchadd`. -/
def inc3 (s : BitVec 1) (i2b : BitVec 2) : Int :=
  (if s = 1#1 then -1 else 1) * (if i2b = 3#2 then 1 else (16 >>> i2b.toNat : Nat))

/-- 41 R552: the mask of `mov pr`, `sext_17(mask17 : 0)`. -/
def prMask (m : BitVec 16) : Word := simm m <<< 1

/-- 41 R553: the value of `mov pr.rot`, `sext_44(imm27a : 0x0000)`. -/
def prRotImm (m : BitVec 28) : Word := simm m <<< 16

/-! ## General-register sources -/

/-- Two general-register sources. -/
def readGr2 (s : State) (r2 r3 : BitVec 7) : Ans (Reg × Reg) := do
  let a ← readGr s r2
  let b ← readGr s r3
  return (a, b)

/-- 60 R1311: a source that may not be NaT; `acc` are the access bits of `CR.ISR`. -/
def useGr (s : State) (r : BitVec 7) (acc : Word := 0#64) : Ans Word := do
  let v ← readGr s r
  require (!v.nat) (registerNatConsumption acc)
  return v.val

/-! ## Post-increment (42 R580) -/

/-- The post-increment of a memory instruction. -/
inductive Inc where
  | none
  | reg (r : BitVec 7)
  | imm (w : Word)
deriving DecidableEq, Repr

/-- Whether a form updates its base register. -/
def Inc.updates : Inc → Bool
  | .none => false
  | _ => true

/-- The increment as a register value; an immediate has no NaT bit. -/
def Inc.value (s : State) : Inc → Ans Reg
  | .none => .ok .zero
  | .reg r => readGr s r
  | .imm w => .ok ⟨w, false⟩

/-- 42 R580: the check of the base register of a form that updates it. -/
def checkBase (s : State) (r3 : BitVec 7) (inc : Inc) : Ans Unit :=
  if inc.updates then checkGr s r3 else .ok ()

/-- 42 R580: `GR[r3] <- a + increment`, NaT if either is. -/
def State.postInc (s : State) (r3 : BitVec 7) (base : Reg) (inc : Inc) (i : Reg) : State :=
  if inc.updates then s.setGr r3 ⟨base.val + i.val, base.nat || i.nat⟩ else s

end Sys2Proof.Machine
end

