-- ==== Sys2Proof/Machine/Alu.lean ====
section
/-!
DEFINITION. The integer and multimedia arithmetic of the A and I units: the shared operations over general registers, and the
functions on words they apply (40 R501 to R529, 41 R531 to R545, R561 to R563).
-/

namespace Sys2Proof.Machine

/-! ## Shared operations -/

/-- `GR[r1] <- f GR[r2] GR[r3]`, NaT if a source is. -/
def alu2 (qp : BitVec 6) (r1 r2 r3 : BitVec 7) (f : Word → Word → Word) (s : State) : Result :=
  predicated qp s do
    checkGr s r1
    let p ← readGr2 s r2 r3
    return s.setGr r1 ⟨f p.1.val p.2.val, p.1.nat || p.2.nat⟩

/-- `GR[r1] <- f GR[r3]`, NaT if the source is. -/
def alu1 (qp : BitVec 6) (r1 r3 : BitVec 7) (f : Word → Word) (s : State) : Result :=
  predicated qp s do
    checkGr s r1
    let a ← readGr s r3
    return s.setGr r1 ⟨f a.val, a.nat⟩

/-- `GR[r1] <- v`, never NaT; `wide` in an instruction of the X unit, which takes slots 1 and 2. -/
def alu0 (qp : BitVec 6) (r1 : BitVec 7) (v : Word) (s : State) (wide : Bool := false) : Result :=
  predicated qp s (wide := wide) do
    checkGr s r1
    return s.setGr r1 ⟨v, false⟩

/-! ## 32-bit pointers (40 R505) -/

/-- 40 R505: the low word of a sum with the region bits of the second operand. -/
def addp4Of (t b : Word) : Word := zextLow t 32 ||| (field b 30 2 <<< 61)

/-! ## Elements (40 R524 to R529) -/

/-- A function applied to each pair of elements of `n` bits. -/
def mapElements (n : Nat) (f : BitVec n → BitVec n → BitVec n) (a b : Word) : Word :=
  ofElements n (fun i => f (element n a i) (element n b i)) (64 / n)

/-- Signed saturation. -/
def satS (n : Nat) (x : Int) : BitVec n := BitVec.ofInt n (clampInt (-(2 ^ (n - 1) : Int)) (2 ^ (n - 1) - 1) x)
/-- Unsigned saturation. -/
def satU (n : Nat) (x : Int) : BitVec n := BitVec.ofInt n (clampInt 0 (2 ^ n - 1) x)

/-- The forms of a parallel sum or difference (40 R524). -/
inductive SatForm where
  | modulo | sss | uuu | uus
deriving DecidableEq, Repr

/-- An exact operation on two elements, narrowed as the form says. -/
def satOp (form : SatForm) (n : Nat) (op : Int → Int → Int) (a b : BitVec n) : BitVec n :=
  match form with
  | .modulo => BitVec.ofInt n (op a.toNat b.toNat)
  | .sss => satS n (op a.toInt b.toInt)
  | .uuu => satU n (op a.toNat b.toNat)
  | .uus => satU n (op a.toNat b.toInt)

def paddOf (form : SatForm) (n : Nat) (a b : Word) : Word := mapElements n (satOp form n (· + ·)) a b
def psubOf (form : SatForm) (n : Nat) (a b : Word) : Word := mapElements n (satOp form n (· - ·)) a b

/-- 40 R526: a value of `n + 1` bits halved, the bit shifted out ORed into bit 0. -/
def halveSticky (n v : Nat) : BitVec n := BitVec.ofNat n (v / 2) ||| BitVec.ofNat n (v % 2)

/-- 40 R526: the average, plain or rounded away from zero. -/
def pavgOf (raz : Bool) (n : Nat) (a b : Word) : Word :=
  mapElements n (fun x y =>
    if raz then BitVec.ofNat n ((x.toNat + y.toNat + 1) / 2) else halveSticky n (x.toNat + y.toNat)) a b

/-- 40 R526: half the difference, on one extra bit. -/
def pavgsubOf (n : Nat) (a b : Word) : Word :=
  mapElements n (fun x y => halveSticky n ((x.toNat + 2 ^ (n + 1) - y.toNat) % 2 ^ (n + 1))) a b

/-- 40 R527: all ones where the relation holds. -/
def pcmpOf (gt : Bool) (n : Nat) (a b : Word) : Word :=
  mapElements n (fun x y => if (if gt then y.slt x else x == y) then BitVec.allOnes n else 0#n) a b

/-- 40 R528: shift left and add with saturation. -/
def pshladd2Of (count : Nat) (a b : Word) : Word :=
  mapElements 16 (fun x y => satS 16 ((satS 16 (x.toInt * 2 ^ count)).toInt + y.toInt)) a b

/-- 40 R529: shift right and add with saturation. -/
def pshradd2Of (count : Nat) (a b : Word) : Word :=
  mapElements 16 (fun x y => satS 16 ((x.sshiftRight count).toInt + y.toInt)) a b

/-! ## Multimedia of the I unit (41 R531 to R535; log 20) -/

/-- 41 R531: the products of the left or right halfword elements. -/
def pmpy2Of (left : Bool) (a b : Word) : Word :=
  ofElements 32 (fun j =>
    let i := 2 * j + left.toNat
    BitVec.ofInt 32 ((element 16 a i).toInt * (element 16 b i).toInt)) 2

/-- 41 R531: halfword products shifted right and truncated. -/
def pmpyshr2Of (unsigned : Bool) (count : Nat) (a b : Word) : Word :=
  mapElements 16 (fun x y =>
    let p : BitVec 32 :=
      if unsigned then BitVec.ofNat 32 (x.toNat * y.toNat) else BitVec.ofInt 32 (x.toInt * y.toInt)
    ((if unsigned then p >>> count else p.sshiftRight count).setWidth 16)) a b

/-- 41 R532: elements of one parity of both sources, the first source's at the odd places. -/
def mixOf (n : Nat) (left : Bool) (a b : Word) : Word :=
  ofElements n (fun i => element n (if i % 2 = 1 then a else b) (2 * (i / 2) + left.toNat)) (64 / n)

/-- 41 R532: elements narrowed with saturation, the first source's in the low half. -/
def packOf (n : Nat) (signed : Bool) (a b : Word) : Word :=
  ofElements (n / 2) (fun i =>
    let h := 64 / n
    let x := (element n (if i < h then a else b) (i % h)).toInt
    if signed then satS (n / 2) x else satU (n / 2) x) (2 * (64 / n))

/-- 41 R532: the elements of the high or low halves interleaved, the first source's at the odd places. -/
def unpackOf (n : Nat) (high : Bool) (a b : Word) : Word :=
  ofElements n (fun i =>
    element n (if i % 2 = 1 then a else b) (i / 2 + (if high then 64 / n / 2 else 0))) (64 / n)

/-- 41 R532: the sum of the absolute differences of the bytes. -/
def psad1Of (a b : Word) : Word :=
  BitVec.ofNat 64 ((List.range 8).foldl (fun acc i =>
    acc + ((element 8 a i).toNat - (element 8 b i).toNat) + ((element 8 b i).toNat - (element 8 a i).toNat)) 0)

/-- 41 R532: the operations row 125 names. -/
def i2Of (op : I2Op) (a b : Word) : Word :=
  match op with
  | .mix1l => mixOf 8 true a b
  | .mix1r => mixOf 8 false a b
  | .mix2l => mixOf 16 true a b
  | .mix2r => mixOf 16 false a b
  | .mix4l => mixOf 32 true a b
  | .mix4r => mixOf 32 false a b
  | .pack2sss => packOf 16 true a b
  | .pack2uss => packOf 16 false a b
  | .pack4sss => packOf 32 true a b
  | .unpack1h => unpackOf 8 true a b
  | .unpack1l => unpackOf 8 false a b
  | .unpack2h => unpackOf 16 true a b
  | .unpack2l => unpackOf 16 false a b
  | .unpack4h => unpackOf 32 true a b
  | .unpack4l => unpackOf 32 false a b
  | .pmin1u => mapElements 8 (fun x y => if x.ult y then x else y) a b
  | .pmax1u => mapElements 8 (fun x y => if x.ult y then y else x) a b
  | .pmin2 => mapElements 16 (fun x y => if x.slt y then x else y) a b
  | .pmax2 => mapElements 16 (fun x y => if x.slt y then y else x) a b
  | .psad1 => psad1Of a b

/-- 41 R533: the source byte of result byte `i` (log 20). -/
def mux1Source (t : MbType) (i : Nat) : Nat :=
  match t with
  | .rev => 7 - i
  | .mix => [0, 4, 2, 6, 1, 5, 3, 7].getD i 0
  | .shuf => [0, 4, 1, 5, 2, 6, 3, 7].getD i 0
  | .alt => [0, 2, 4, 6, 1, 3, 5, 7].getD i 0
  | .brcst => 0

def mux1Of (t : MbType) (a : Word) : Word := ofElements 8 (fun i => element 8 a (mux1Source t i)) 8
def mux2Of (m : BitVec 8) (a : Word) : Word :=
  ofElements 16 (fun i => element 16 a ((m.toNat / 4 ^ i) % 4)) 4

/-- 41 R534: element-wise right shift by `c`. -/
def pshrOf (size : ShiftSize) (unsigned : Bool) (c : Nat) (a : Word) : Word :=
  match size with
  | .two => ofElements 16 (fun i => if unsigned then element 16 a i >>> c else (element 16 a i).sshiftRight c) 4
  | .four => ofElements 32 (fun i => if unsigned then element 32 a i >>> c else (element 32 a i).sshiftRight c) 2

/-- 41 R534: element-wise left shift by `c`. -/
def pshlOf (size : ShiftSize) (c : Nat) (a : Word) : Word :=
  match size with
  | .two => ofElements 16 (fun i => element 16 a i <<< c) 4
  | .four => ofElements 32 (fun i => element 32 a i <<< c) 2

/-- A shift count that no element survives counts as 64. -/
def shiftCount (w : Word) : Nat := if w.toNat < 64 then w.toNat else 64

/-! ## Shifts, extract and deposit (41 R536 to R545) -/

def shrOf (a n : Word) : Word := a.sshiftRight (shiftCount n)
def shrUOf (a n : Word) : Word := a >>> shiftCount n
def shlOf (a n : Word) : Word := a <<< shiftCount n

/-- 41 R539: the low word of the pair shifted right. -/
def shrpOf (count : Nat) (hi lo : Word) : Word := (((hi ++ lo : BitVec 128) >>> count).setWidth 64)

/-- 41 R540, R541: the field of `len6d + 1` bits at a position, cut at bit 63. -/
def extrOf (unsigned : Bool) (pos len : Nat) (a : Word) : Word :=
  let l := min len (64 - pos)
  if unsigned then zextLow (a >>> pos) l else sextLow (a >>> pos) l

/-- 41 R542, R543: the low bits deposited in a word of zeros. -/
def depZOf (pos len : Nat) (a : Word) : Word := zextLow a len <<< pos

/-- 41 R544, R545: the low bits of `v` deposited in `a`, cut at bit 63. -/
def depOf (pos len : Nat) (v a : Word) : Word :=
  let m := depZOf pos len (BitVec.allOnes 64)
  (a &&& ~~~m) ||| depZOf pos len v

/-! ## Zero index (41 R563) -/

def czxOf (n : Nat) (left : Bool) (a : Word) : Word :=
  let k := 64 / n
  BitVec.ofNat 64 (firstZero n a (fun i => if left then k - 1 - i else i) k k)

end Sys2Proof.Machine
end

