-- ==== Sys2Proof/Machine/Flags.lean ====
section
/-!
DEFINITION. The predicate writes of compares (40 R520), the relations they compute, and the status fields of `AR.FPSR`
(10 R80, log 17).
-/

namespace Sys2Proof.Machine

/-! ## Compare types (40 R520) -/

/-- The completer `ctype` of a compare. -/
inductive CType where
  | none | unc | and | or | orAndcm
deriving DecidableEq, Repr

/-- Two predicates written. -/
def State.setPr2 (s : State) (p1 p2 : BitVec 6) (a b : Bool) : State :=
  s.setLp ((s.lp.setPr p1 a).setPr p2 b)

/-- 40 R520: the predicate writes of a compare whose qualifying predicate is 1. -/
def writeCompare (ct : CType) (s : State) (p1 p2 : BitVec 6) (rel nat : Bool) : State :=
  match ct with
  | .none | .unc => if nat then s.setPr2 p1 p2 false false else s.setPr2 p1 p2 rel (!rel)
  | .and => if nat || !rel then s.setPr2 p1 p2 false false else s
  | .or => if !nat && rel then s.setPr2 p1 p2 true true else s
  | .orAndcm => if !nat && rel then s.setPr2 p1 p2 true false else s

/-- 40 R520: a compare; `p1 = p2` is illegal unless it is predicated off, and always for `unc`. -/
def compare (ct : CType) (qp p1 p2 : BitVec 6) (s : State) (rel : Ans (Bool × Bool × State)) : Result :=
  if s.lp.readPr qp then
    finish s (do
      require (decide (p1 ≠ p2)) illegalOperation
      let (r, n, s') ← rel
      return retire s (writeCompare ct s' p1 p2 r n) {})
  else
    match ct with
    | .unc => finish s (do
        require (decide (p1 ≠ p2)) illegalOperation
        return retire s ((s.setPr2 p1 p2 false false).setLp
          { (s.setPr2 p1 p2 false false).lp with ev := { s.lp.ev with squashed := true } }) {})
    | _ => .next (squash s false)

/-! ## Relations (40 R521 to R523) -/

/-- The relations of the integer compares. -/
inductive CRel where
  | lt | ltu | eq | ne | gt | le | ge
deriving DecidableEq, Repr

/-- The truth of a relation on two words. -/
def CRel.holds (r : CRel) (a b : Word) : Bool :=
  match r with
  | .lt => a.slt b
  | .ltu => a.ult b
  | .eq => a == b
  | .ne => a != b
  | .gt => b.slt a
  | .le => a.sle b
  | .ge => b.sle a

/-- 40 R521: what `cmp4` compares: the low words, sign-extended, for `ltu` zero-extended. -/
def CRel.operand (r : CRel) (narrow : Bool) (w : Word) : Word :=
  if narrow then (if r = .ltu then zextLow w 32 else sextLow w 32) else w

/-- The truth of a relation of `cmp` or `cmp4`. -/
def CRel.test (r : CRel) (narrow : Bool) (a b : Word) : Bool := r.holds (r.operand narrow a) (r.operand narrow b)

/-- 40 R521: a compare of two registers. -/
def compareReg (ct : CType) (rel : CRel) (narrow : Bool) (o : OpA6) (s : State) : Result :=
  compare ct o.qp o.p1 o.p2 s do
    let p ← readGr2 s o.r2 o.r3
    return (rel.test narrow p.1.val p.2.val, p.1.nat || p.2.nat, s)

/-- 40 R522: a compare of zero with a register. -/
def compareZero (ct : CType) (rel : CRel) (narrow : Bool) (o : OpA7) (s : State) : Result :=
  compare ct o.qp o.p1 o.p2 s do
    let a ← readGr s o.r3
    return (rel.test narrow 0#64 a.val, a.nat, s)

/-- 40 R523: a compare of an immediate with a register. -/
def compareImm (ct : CType) (rel : CRel) (narrow : Bool) (o : OpA8) (s : State) : Result :=
  compare ct o.qp o.p1 o.p2 s do
    let a ← readGr s o.r3
    return (rel.test narrow (simm o.imm8) a.val, a.nat, s)

/-- 41 R546: a test of a bit for 0, or for 1 if `nz`. -/
def testBit (ct : CType) (nz : Bool) (o : OpI16) (s : State) : Result :=
  compare ct o.qp o.p1 o.p2 s do
    let a ← readGr s o.r3
    return (a.val.getLsbD o.pos6b.toNat == nz, a.nat, s)

/-- 41 R547: a test of a NaT bit, itself no NaT source. -/
def testNat (ct : CType) (nz : Bool) (o : OpA7) (s : State) : Result :=
  compare ct o.qp o.p1 o.p2 s do
    let a ← readGr s o.r3
    return (a.nat == nz, false, s)

/-! ## `AR.FPSR` (10 R80) -/

/-- The seven control bits of a status field. -/
def sfControls (fpsr : Word) (sf : BitVec 2) : BitVec 7 := (fpsr >>> (6 + 13 * sf.toNat)).setWidth 7
/-- The six flags of a status field: bit 0 V, 1 D, 2 Z, 3 O, 4 U, 5 I. -/
def sfFlags (fpsr : Word) (sf : BitVec 2) : BitVec 6 := (fpsr >>> (13 + 13 * sf.toNat)).setWidth 6
/-- A status word with the controls of a field replaced. -/
def setSfControls (fpsr : Word) (sf : BitVec 2) (c : BitVec 7) : Word := setField fpsr (6 + 13 * sf.toNat) 7 (uimm c)
/-- A status word with the flags of a field replaced. -/
def setSfFlags (fpsr : Word) (sf : BitVec 2) (f : BitVec 6) : Word := setField fpsr (13 + 13 * sf.toNat) 6 (uimm f)

/-- The flags whose trap is enabled: not disabled by bits 5:0, nor by the `td` control of the field. -/
def enabledFlags (fpsr : Word) (sf : BitVec 2) (f : BitVec 6) : BitVec 6 :=
  if (sfControls fpsr sf).getLsbD 6 then 0#6 else f &&& ~~~(fpsr.setWidth 6)

/-- The floating-point fault, V, D or Z, of an operation (log 17). -/
def fpFault (enabled : BitVec 6) : Exc := { offset := 0x5C00, isr := uimm (enabled &&& 7#6) }
/-- The code bits of a floating-point trap, O, U or I (log 17). -/
def fpTrapCode (enabled : BitVec 6) : Word := uimm (enabled >>> 3) <<< 11

/-- The flags of an operation recorded: the fault first, else the status field updated and the trap code. -/
def recordFlags (s : State) (sf : BitVec 2) (f : BitVec 6) : Ans (State × Word) := do
  let fpsr := s.lp.ar.fpsr
  let en := enabledFlags fpsr sf f
  require (decide (en &&& 7#6 = 0#6)) (fpFault en)
  let ar := { s.lp.ar with fpsr := setSfFlags fpsr sf (sfFlags fpsr sf ||| f) }
  return (s.setLp { s.lp with ar := ar }, fpTrapCode en)

end Sys2Proof.Machine
end

