-- ==== Sys2Proof/Machine/ExecA.lean ====
section
/-!
DEFINITION. The meanings of the A-type instructions: integer arithmetic, compares and multimedia of both units (40_instr_a_type.md), one definition per row of the opcode
table.
-/

namespace Sys2Proof.Machine

open Sys2Proof.Config

/-- 40 R501: `add`. -/
def execAdd (o : OpA1) (s : State) : Result := alu2 o.qp o.r1 o.r2 o.r3 (fun a b => a + b) s

/-- 40 R502: `add_r1_r2_r3_1`. -/
def execAddR1R2R31 (o : OpA1) (s : State) : Result := alu2 o.qp o.r1 o.r2 o.r3 (fun a b => a + b + 1#64) s

/-- 40 R503: `sub`. -/
def execSub (o : OpA1) (s : State) : Result := alu2 o.qp o.r1 o.r2 o.r3 (fun a b => a - b) s

/-- 40 R504: `sub_r1_r2_r3_1`. -/
def execSubR1R2R31 (o : OpA1) (s : State) : Result := alu2 o.qp o.r1 o.r2 o.r3 (fun a b => a - b - 1#64) s

/-- 40 R505: `addp4`. -/
def execAddp4 (o : OpA1) (s : State) : Result := alu2 o.qp o.r1 o.r2 o.r3 (fun a b => addp4Of (a + b) b) s

/-- 40 R506: `and`. -/
def execAnd (o : OpA1) (s : State) : Result := alu2 o.qp o.r1 o.r2 o.r3 (fun a b => a &&& b) s

/-- 40 R507: `andcm`. -/
def execAndcm (o : OpA1) (s : State) : Result := alu2 o.qp o.r1 o.r2 o.r3 (fun a b => a &&& ~~~b) s

/-- 40 R508: `or`. -/
def execOr (o : OpA1) (s : State) : Result := alu2 o.qp o.r1 o.r2 o.r3 (fun a b => a ||| b) s

/-- 40 R509: `xor`. -/
def execXor (o : OpA1) (s : State) : Result := alu2 o.qp o.r1 o.r2 o.r3 (fun a b => a ^^^ b) s

/-- 40 R510: `shladd`. -/
def execShladd (o : OpA2) (s : State) : Result := alu2 o.qp o.r1 o.r2 o.r3 (fun a b => (a <<< countOf o.ct2d) + b) s

/-- 40 R511: `shladdp4`. -/
def execShladdp4 (o : OpA2) (s : State) : Result :=
  alu2 o.qp o.r1 o.r2 o.r3 (fun a b => addp4Of ((a <<< countOf o.ct2d) + b) b) s

/-- 40 R512: `sub_r1_imm8_r3`. -/
def execSubR1Imm8R3 (o : OpA3) (s : State) : Result := alu1 o.qp o.r1 o.r3 (fun a => simm o.imm8 - a) s

/-- 40 R513: `and_r1_imm8_r3`. -/
def execAndR1Imm8R3 (o : OpA3) (s : State) : Result := alu1 o.qp o.r1 o.r3 (fun a => simm o.imm8 &&& a) s

/-- 40 R514: `andcm_r1_imm8_r3`. -/
def execAndcmR1Imm8R3 (o : OpA3) (s : State) : Result := alu1 o.qp o.r1 o.r3 (fun a => simm o.imm8 &&& ~~~a) s

/-- 40 R515: `or_r1_imm8_r3`. -/
def execOrR1Imm8R3 (o : OpA3) (s : State) : Result := alu1 o.qp o.r1 o.r3 (fun a => simm o.imm8 ||| a) s

/-- 40 R516: `xor_r1_imm8_r3`. -/
def execXorR1Imm8R3 (o : OpA3) (s : State) : Result := alu1 o.qp o.r1 o.r3 (fun a => simm o.imm8 ^^^ a) s

/-- 40 R517: `adds`. -/
def execAdds (o : OpA4) (s : State) : Result := alu1 o.qp o.r1 o.r3 (fun a => simm o.imm14 + a) s

/-- 40 R518: `addp4_r1_imm14_r3`. -/
def execAddp4R1Imm14R3 (o : OpA4) (s : State) : Result := alu1 o.qp o.r1 o.r3 (fun a => addp4Of (simm o.imm14 + a) a) s

/-- 40 R519: `addl`. -/
def execAddl (o : OpA5) (s : State) : Result := alu1 o.qp o.r1 (o.r3.setWidth 7) (fun a => simm o.imm22 + a) s

/-- 40 R521: `cmp.lt_p1_p2_r2_r3`. -/
def execCmpLtP1P2R2R3 (o : OpA6) (s : State) : Result := compareReg .none .lt false o s

/-- 40 R522: `cmp.gt.and_p1_p2_r0_r3`. -/
def execCmpGtAndP1P2R0R3 (o : OpA7) (s : State) : Result := compareZero .and .gt false o s

/-- 40 R521: `cmp4.lt_p1_p2_r2_r3`. -/
def execCmp4LtP1P2R2R3 (o : OpA6) (s : State) : Result := compareReg .none .lt true o s

/-- 40 R522: `cmp4.gt.and_p1_p2_r0_r3`. -/
def execCmp4GtAndP1P2R0R3 (o : OpA7) (s : State) : Result := compareZero .and .gt true o s

/-- 40 R523: `cmp.lt_p1_p2_imm8_r3`. -/
def execCmpLtP1P2Imm8R3 (o : OpA8) (s : State) : Result := compareImm .none .lt false o s

/-- 40 R523: `cmp4.lt_p1_p2_imm8_r3`. -/
def execCmp4LtP1P2Imm8R3 (o : OpA8) (s : State) : Result := compareImm .none .lt true o s

/-- 40 R521: `cmp.lt.unc_p1_p2_r2_r3`. -/
def execCmpLtUncP1P2R2R3 (o : OpA6) (s : State) : Result := compareReg .unc .lt false o s

/-- 40 R522: `cmp.le.and_p1_p2_r0_r3`. -/
def execCmpLeAndP1P2R0R3 (o : OpA7) (s : State) : Result := compareZero .and .le false o s

/-- 40 R521: `cmp4.lt.unc_p1_p2_r2_r3`. -/
def execCmp4LtUncP1P2R2R3 (o : OpA6) (s : State) : Result := compareReg .unc .lt true o s

/-- 40 R522: `cmp4.le.and_p1_p2_r0_r3`. -/
def execCmp4LeAndP1P2R0R3 (o : OpA7) (s : State) : Result := compareZero .and .le true o s

/-- 40 R523: `cmp.lt.unc_p1_p2_imm8_r3`. -/
def execCmpLtUncP1P2Imm8R3 (o : OpA8) (s : State) : Result := compareImm .unc .lt false o s

/-- 40 R523: `cmp4.lt.unc_p1_p2_imm8_r3`. -/
def execCmp4LtUncP1P2Imm8R3 (o : OpA8) (s : State) : Result := compareImm .unc .lt true o s

/-- 40 R521: `cmp.eq.and_p1_p2_r2_r3`. -/
def execCmpEqAndP1P2R2R3 (o : OpA6) (s : State) : Result := compareReg .and .eq false o s

/-- 40 R522: `cmp.ge.and_p1_p2_r0_r3`. -/
def execCmpGeAndP1P2R0R3 (o : OpA7) (s : State) : Result := compareZero .and .ge false o s

/-- 40 R521: `cmp4.eq.and_p1_p2_r2_r3`. -/
def execCmp4EqAndP1P2R2R3 (o : OpA6) (s : State) : Result := compareReg .and .eq true o s

/-- 40 R522: `cmp4.ge.and_p1_p2_r0_r3`. -/
def execCmp4GeAndP1P2R0R3 (o : OpA7) (s : State) : Result := compareZero .and .ge true o s

/-- 40 R523: `cmp.eq.and_p1_p2_imm8_r3`. -/
def execCmpEqAndP1P2Imm8R3 (o : OpA8) (s : State) : Result := compareImm .and .eq false o s

/-- 40 R523: `cmp4.eq.and_p1_p2_imm8_r3`. -/
def execCmp4EqAndP1P2Imm8R3 (o : OpA8) (s : State) : Result := compareImm .and .eq true o s

/-- 40 R521: `cmp.ne.and_p1_p2_r2_r3`. -/
def execCmpNeAndP1P2R2R3 (o : OpA6) (s : State) : Result := compareReg .and .ne false o s

/-- 40 R522: `cmp.lt.and_p1_p2_r0_r3`. -/
def execCmpLtAndP1P2R0R3 (o : OpA7) (s : State) : Result := compareZero .and .lt false o s

/-- 40 R521: `cmp4.ne.and_p1_p2_r2_r3`. -/
def execCmp4NeAndP1P2R2R3 (o : OpA6) (s : State) : Result := compareReg .and .ne true o s

/-- 40 R522: `cmp4.lt.and_p1_p2_r0_r3`. -/
def execCmp4LtAndP1P2R0R3 (o : OpA7) (s : State) : Result := compareZero .and .lt true o s

/-- 40 R523: `cmp.ne.and_p1_p2_imm8_r3`. -/
def execCmpNeAndP1P2Imm8R3 (o : OpA8) (s : State) : Result := compareImm .and .ne false o s

/-- 40 R523: `cmp4.ne.and_p1_p2_imm8_r3`. -/
def execCmp4NeAndP1P2Imm8R3 (o : OpA8) (s : State) : Result := compareImm .and .ne true o s

/-- 40 R521: `cmp.ltu_p1_p2_r2_r3`. -/
def execCmpLtuP1P2R2R3 (o : OpA6) (s : State) : Result := compareReg .none .ltu false o s

/-- 40 R522: `cmp.gt.or_p1_p2_r0_r3`. -/
def execCmpGtOrP1P2R0R3 (o : OpA7) (s : State) : Result := compareZero .or .gt false o s

/-- 40 R521: `cmp4.ltu_p1_p2_r2_r3`. -/
def execCmp4LtuP1P2R2R3 (o : OpA6) (s : State) : Result := compareReg .none .ltu true o s

/-- 40 R522: `cmp4.gt.or_p1_p2_r0_r3`. -/
def execCmp4GtOrP1P2R0R3 (o : OpA7) (s : State) : Result := compareZero .or .gt true o s

/-- 40 R523: `cmp.ltu_p1_p2_imm8_r3`. -/
def execCmpLtuP1P2Imm8R3 (o : OpA8) (s : State) : Result := compareImm .none .ltu false o s

/-- 40 R523: `cmp4.ltu_p1_p2_imm8_r3`. -/
def execCmp4LtuP1P2Imm8R3 (o : OpA8) (s : State) : Result := compareImm .none .ltu true o s

/-- 40 R521: `cmp.ltu.unc_p1_p2_r2_r3`. -/
def execCmpLtuUncP1P2R2R3 (o : OpA6) (s : State) : Result := compareReg .unc .ltu false o s

/-- 40 R522: `cmp.le.or_p1_p2_r0_r3`. -/
def execCmpLeOrP1P2R0R3 (o : OpA7) (s : State) : Result := compareZero .or .le false o s

/-- 40 R521: `cmp4.ltu.unc_p1_p2_r2_r3`. -/
def execCmp4LtuUncP1P2R2R3 (o : OpA6) (s : State) : Result := compareReg .unc .ltu true o s

/-- 40 R522: `cmp4.le.or_p1_p2_r0_r3`. -/
def execCmp4LeOrP1P2R0R3 (o : OpA7) (s : State) : Result := compareZero .or .le true o s

/-- 40 R523: `cmp.ltu.unc_p1_p2_imm8_r3`. -/
def execCmpLtuUncP1P2Imm8R3 (o : OpA8) (s : State) : Result := compareImm .unc .ltu false o s

/-- 40 R523: `cmp4.ltu.unc_p1_p2_imm8_r3`. -/
def execCmp4LtuUncP1P2Imm8R3 (o : OpA8) (s : State) : Result := compareImm .unc .ltu true o s

/-- 40 R521: `cmp.eq.or_p1_p2_r2_r3`. -/
def execCmpEqOrP1P2R2R3 (o : OpA6) (s : State) : Result := compareReg .or .eq false o s

/-- 40 R522: `cmp.ge.or_p1_p2_r0_r3`. -/
def execCmpGeOrP1P2R0R3 (o : OpA7) (s : State) : Result := compareZero .or .ge false o s

/-- 40 R521: `cmp4.eq.or_p1_p2_r2_r3`. -/
def execCmp4EqOrP1P2R2R3 (o : OpA6) (s : State) : Result := compareReg .or .eq true o s

/-- 40 R522: `cmp4.ge.or_p1_p2_r0_r3`. -/
def execCmp4GeOrP1P2R0R3 (o : OpA7) (s : State) : Result := compareZero .or .ge true o s

/-- 40 R523: `cmp.eq.or_p1_p2_imm8_r3`. -/
def execCmpEqOrP1P2Imm8R3 (o : OpA8) (s : State) : Result := compareImm .or .eq false o s

/-- 40 R523: `cmp4.eq.or_p1_p2_imm8_r3`. -/
def execCmp4EqOrP1P2Imm8R3 (o : OpA8) (s : State) : Result := compareImm .or .eq true o s

/-- 40 R521: `cmp.ne.or_p1_p2_r2_r3`. -/
def execCmpNeOrP1P2R2R3 (o : OpA6) (s : State) : Result := compareReg .or .ne false o s

/-- 40 R522: `cmp.lt.or_p1_p2_r0_r3`. -/
def execCmpLtOrP1P2R0R3 (o : OpA7) (s : State) : Result := compareZero .or .lt false o s

/-- 40 R521: `cmp4.ne.or_p1_p2_r2_r3`. -/
def execCmp4NeOrP1P2R2R3 (o : OpA6) (s : State) : Result := compareReg .or .ne true o s

/-- 40 R522: `cmp4.lt.or_p1_p2_r0_r3`. -/
def execCmp4LtOrP1P2R0R3 (o : OpA7) (s : State) : Result := compareZero .or .lt true o s

/-- 40 R523: `cmp.ne.or_p1_p2_imm8_r3`. -/
def execCmpNeOrP1P2Imm8R3 (o : OpA8) (s : State) : Result := compareImm .or .ne false o s

/-- 40 R523: `cmp4.ne.or_p1_p2_imm8_r3`. -/
def execCmp4NeOrP1P2Imm8R3 (o : OpA8) (s : State) : Result := compareImm .or .ne true o s

/-- 40 R521: `cmp.eq_p1_p2_r2_r3`. -/
def execCmpEqP1P2R2R3 (o : OpA6) (s : State) : Result := compareReg .none .eq false o s

/-- 40 R522: `cmp.gt.or.andcm_p1_p2_r0_r3`. -/
def execCmpGtOrAndcmP1P2R0R3 (o : OpA7) (s : State) : Result := compareZero .orAndcm .gt false o s

/-- 40 R521: `cmp4.eq_p1_p2_r2_r3`. -/
def execCmp4EqP1P2R2R3 (o : OpA6) (s : State) : Result := compareReg .none .eq true o s

/-- 40 R522: `cmp4.gt.or.andcm_p1_p2_r0_r3`. -/
def execCmp4GtOrAndcmP1P2R0R3 (o : OpA7) (s : State) : Result := compareZero .orAndcm .gt true o s

/-- 40 R523: `cmp.eq_p1_p2_imm8_r3`. -/
def execCmpEqP1P2Imm8R3 (o : OpA8) (s : State) : Result := compareImm .none .eq false o s

/-- 40 R523: `cmp4.eq_p1_p2_imm8_r3`. -/
def execCmp4EqP1P2Imm8R3 (o : OpA8) (s : State) : Result := compareImm .none .eq true o s

/-- 40 R521: `cmp.eq.unc_p1_p2_r2_r3`. -/
def execCmpEqUncP1P2R2R3 (o : OpA6) (s : State) : Result := compareReg .unc .eq false o s

/-- 40 R522: `cmp.le.or.andcm_p1_p2_r0_r3`. -/
def execCmpLeOrAndcmP1P2R0R3 (o : OpA7) (s : State) : Result := compareZero .orAndcm .le false o s

/-- 40 R521: `cmp4.eq.unc_p1_p2_r2_r3`. -/
def execCmp4EqUncP1P2R2R3 (o : OpA6) (s : State) : Result := compareReg .unc .eq true o s

/-- 40 R522: `cmp4.le.or.andcm_p1_p2_r0_r3`. -/
def execCmp4LeOrAndcmP1P2R0R3 (o : OpA7) (s : State) : Result := compareZero .orAndcm .le true o s

/-- 40 R523: `cmp.eq.unc_p1_p2_imm8_r3`. -/
def execCmpEqUncP1P2Imm8R3 (o : OpA8) (s : State) : Result := compareImm .unc .eq false o s

/-- 40 R523: `cmp4.eq.unc_p1_p2_imm8_r3`. -/
def execCmp4EqUncP1P2Imm8R3 (o : OpA8) (s : State) : Result := compareImm .unc .eq true o s

/-- 40 R521: `cmp.eq.or.andcm_p1_p2_r2_r3`. -/
def execCmpEqOrAndcmP1P2R2R3 (o : OpA6) (s : State) : Result := compareReg .orAndcm .eq false o s

/-- 40 R522: `cmp.ge.or.andcm_p1_p2_r0_r3`. -/
def execCmpGeOrAndcmP1P2R0R3 (o : OpA7) (s : State) : Result := compareZero .orAndcm .ge false o s

/-- 40 R521: `cmp4.eq.or.andcm_p1_p2_r2_r3`. -/
def execCmp4EqOrAndcmP1P2R2R3 (o : OpA6) (s : State) : Result := compareReg .orAndcm .eq true o s

/-- 40 R522: `cmp4.ge.or.andcm_p1_p2_r0_r3`. -/
def execCmp4GeOrAndcmP1P2R0R3 (o : OpA7) (s : State) : Result := compareZero .orAndcm .ge true o s

/-- 40 R523: `cmp.eq.or.andcm_p1_p2_imm8_r3`. -/
def execCmpEqOrAndcmP1P2Imm8R3 (o : OpA8) (s : State) : Result := compareImm .orAndcm .eq false o s

/-- 40 R523: `cmp4.eq.or.andcm_p1_p2_imm8_r3`. -/
def execCmp4EqOrAndcmP1P2Imm8R3 (o : OpA8) (s : State) : Result := compareImm .orAndcm .eq true o s

/-- 40 R521: `cmp.ne.or.andcm_p1_p2_r2_r3`. -/
def execCmpNeOrAndcmP1P2R2R3 (o : OpA6) (s : State) : Result := compareReg .orAndcm .ne false o s

/-- 40 R522: `cmp.lt.or.andcm_p1_p2_r0_r3`. -/
def execCmpLtOrAndcmP1P2R0R3 (o : OpA7) (s : State) : Result := compareZero .orAndcm .lt false o s

/-- 40 R521: `cmp4.ne.or.andcm_p1_p2_r2_r3`. -/
def execCmp4NeOrAndcmP1P2R2R3 (o : OpA6) (s : State) : Result := compareReg .orAndcm .ne true o s

/-- 40 R522: `cmp4.lt.or.andcm_p1_p2_r0_r3`. -/
def execCmp4LtOrAndcmP1P2R0R3 (o : OpA7) (s : State) : Result := compareZero .orAndcm .lt true o s

/-- 40 R523: `cmp.ne.or.andcm_p1_p2_imm8_r3`. -/
def execCmpNeOrAndcmP1P2Imm8R3 (o : OpA8) (s : State) : Result := compareImm .orAndcm .ne false o s

/-- 40 R523: `cmp4.ne.or.andcm_p1_p2_imm8_r3`. -/
def execCmp4NeOrAndcmP1P2Imm8R3 (o : OpA8) (s : State) : Result := compareImm .orAndcm .ne true o s

/-- 40 R524: `padd1`. -/
def execPadd1 (o : OpA1) (s : State) : Result := alu2 o.qp o.r1 o.r2 o.r3 (paddOf .modulo 8) s

/-- 40 R524: `padd1.sss`. -/
def execPadd1Sss (o : OpA1) (s : State) : Result := alu2 o.qp o.r1 o.r2 o.r3 (paddOf .sss 8) s

/-- 40 R524: `padd1.uuu`. -/
def execPadd1Uuu (o : OpA1) (s : State) : Result := alu2 o.qp o.r1 o.r2 o.r3 (paddOf .uuu 8) s

/-- 40 R524: `padd1.uus`. -/
def execPadd1Uus (o : OpA1) (s : State) : Result := alu2 o.qp o.r1 o.r2 o.r3 (paddOf .uus 8) s

/-- 40 R524: `padd2`. -/
def execPadd2 (o : OpA1) (s : State) : Result := alu2 o.qp o.r1 o.r2 o.r3 (paddOf .modulo 16) s

/-- 40 R524: `padd2.sss`. -/
def execPadd2Sss (o : OpA1) (s : State) : Result := alu2 o.qp o.r1 o.r2 o.r3 (paddOf .sss 16) s

/-- 40 R524: `padd2.uuu`. -/
def execPadd2Uuu (o : OpA1) (s : State) : Result := alu2 o.qp o.r1 o.r2 o.r3 (paddOf .uuu 16) s

/-- 40 R524: `padd2.uus`. -/
def execPadd2Uus (o : OpA1) (s : State) : Result := alu2 o.qp o.r1 o.r2 o.r3 (paddOf .uus 16) s

/-- 40 R524: `padd4`. -/
def execPadd4 (o : OpA1) (s : State) : Result := alu2 o.qp o.r1 o.r2 o.r3 (paddOf .modulo 32) s

/-- 40 R525: `psub1`. -/
def execPsub1 (o : OpA1) (s : State) : Result := alu2 o.qp o.r1 o.r2 o.r3 (psubOf .modulo 8) s

/-- 40 R525: `psub1.sss`. -/
def execPsub1Sss (o : OpA1) (s : State) : Result := alu2 o.qp o.r1 o.r2 o.r3 (psubOf .sss 8) s

/-- 40 R525: `psub1.uuu`. -/
def execPsub1Uuu (o : OpA1) (s : State) : Result := alu2 o.qp o.r1 o.r2 o.r3 (psubOf .uuu 8) s

/-- 40 R525: `psub1.uus`. -/
def execPsub1Uus (o : OpA1) (s : State) : Result := alu2 o.qp o.r1 o.r2 o.r3 (psubOf .uus 8) s

/-- 40 R525: `psub2`. -/
def execPsub2 (o : OpA1) (s : State) : Result := alu2 o.qp o.r1 o.r2 o.r3 (psubOf .modulo 16) s

/-- 40 R525: `psub2.sss`. -/
def execPsub2Sss (o : OpA1) (s : State) : Result := alu2 o.qp o.r1 o.r2 o.r3 (psubOf .sss 16) s

/-- 40 R525: `psub2.uuu`. -/
def execPsub2Uuu (o : OpA1) (s : State) : Result := alu2 o.qp o.r1 o.r2 o.r3 (psubOf .uuu 16) s

/-- 40 R525: `psub2.uus`. -/
def execPsub2Uus (o : OpA1) (s : State) : Result := alu2 o.qp o.r1 o.r2 o.r3 (psubOf .uus 16) s

/-- 40 R525: `psub4`. -/
def execPsub4 (o : OpA1) (s : State) : Result := alu2 o.qp o.r1 o.r2 o.r3 (psubOf .modulo 32) s

/-- 40 R526: `pavg1`. -/
def execPavg1 (o : OpA1) (s : State) : Result := alu2 o.qp o.r1 o.r2 o.r3 (pavgOf false 8) s

/-- 40 R526: `pavg1.raz`. -/
def execPavg1Raz (o : OpA1) (s : State) : Result := alu2 o.qp o.r1 o.r2 o.r3 (pavgOf true 8) s

/-- 40 R526: `pavgsub1`. -/
def execPavgsub1 (o : OpA1) (s : State) : Result := alu2 o.qp o.r1 o.r2 o.r3 (pavgsubOf 8) s

/-- 40 R526: `pavg2`. -/
def execPavg2 (o : OpA1) (s : State) : Result := alu2 o.qp o.r1 o.r2 o.r3 (pavgOf false 16) s

/-- 40 R526: `pavg2.raz`. -/
def execPavg2Raz (o : OpA1) (s : State) : Result := alu2 o.qp o.r1 o.r2 o.r3 (pavgOf true 16) s

/-- 40 R526: `pavgsub2`. -/
def execPavgsub2 (o : OpA1) (s : State) : Result := alu2 o.qp o.r1 o.r2 o.r3 (pavgsubOf 16) s

/-- 40 R527: `pcmp1.eq`. -/
def execPcmp1Eq (o : OpA1) (s : State) : Result := alu2 o.qp o.r1 o.r2 o.r3 (pcmpOf false 8) s

/-- 40 R527: `pcmp1.gt`. -/
def execPcmp1Gt (o : OpA1) (s : State) : Result := alu2 o.qp o.r1 o.r2 o.r3 (pcmpOf true 8) s

/-- 40 R527: `pcmp2.eq`. -/
def execPcmp2Eq (o : OpA1) (s : State) : Result := alu2 o.qp o.r1 o.r2 o.r3 (pcmpOf false 16) s

/-- 40 R527: `pcmp2.gt`. -/
def execPcmp2Gt (o : OpA1) (s : State) : Result := alu2 o.qp o.r1 o.r2 o.r3 (pcmpOf true 16) s

/-- 40 R527: `pcmp4.eq`. -/
def execPcmp4Eq (o : OpA1) (s : State) : Result := alu2 o.qp o.r1 o.r2 o.r3 (pcmpOf false 32) s

/-- 40 R527: `pcmp4.gt`. -/
def execPcmp4Gt (o : OpA1) (s : State) : Result := alu2 o.qp o.r1 o.r2 o.r3 (pcmpOf true 32) s

/-- 40 R528: `pshladd2`. -/
def execPshladd2 (o : OpA2) (s : State) : Result := alu2 o.qp o.r1 o.r2 o.r3 (pshladd2Of (countOf o.ct2d)) s

/-- 40 R529: `pshradd2`. -/
def execPshradd2 (o : OpA2) (s : State) : Result := alu2 o.qp o.r1 o.r2 o.r3 (pshradd2Of (countOf o.ct2d)) s

end Sys2Proof.Machine
end

