-- ==== Sys2Proof/Machine/Events.lean ====
section
/-!
DEFINITION. The events of the core that a counter can be programmed to count (45_events_core_1.md to 47_events_core_3.md):
the table of their codes, the unit masks for which nothing is counted, the sets and restrictions (44 R705, 46 R901, R930).
-/

namespace Sys2Proof.Machine

/-! ## The event table -/

/-- 44 R745: the type of an event. No row of the table is of the self floating type. -/
inductive EventType where
  | active | floating | selfFloating | causal
deriving DecidableEq, Repr

/-- A row of the event table (47 R1090): the code, whether the instruction address range, the data address range and the
opcode match constrain it, its maximum in a cycle, its type. -/
structure EventInfo where
  code : Nat
  iar : Bool
  dar : Bool
  opc : Bool
  max : Nat
  type : EventType
deriving DecidableEq, Repr

/-- 47 R1090: rows of the event table. -/
def eventRows0 : List EventInfo :=
  [ ⟨0x00, false, false, false, 1, .active⟩, ⟨0x01, false, false, false, 1, .active⟩,
    ⟨0x02, false, false, false, 1, .active⟩, ⟨0x03, true, false, false, 1, .active⟩,
    ⟨0x04, false, false, false, 1, .active⟩, ⟨0x05, true, false, false, 1, .active⟩,
    ⟨0x06, true, false, false, 1, .active⟩, ⟨0x08, true, false, true, 6, .active⟩,
    ⟨0x09, true, false, false, 6, .active⟩, ⟨0x0b, true, false, false, 2, .active⟩,
    ⟨0x0c, false, false, false, 1, .active⟩, ⟨0x0d, false, false, false, 1, .active⟩,
    ⟨0x0e, false, false, false, 1, .active⟩, ⟨0x0f, false, false, false, 1, .active⟩,
    ⟨0x11, true, false, true, 1, .active⟩, ⟨0x12, true, false, true, 1, .causal⟩,
    ⟨0x13, false, false, false, 1, .active⟩, ⟨0x14, false, false, false, 1, .active⟩,
    ⟨0x15, false, false, false, 1, .floating⟩, ⟨0x18, false, false, false, 1, .causal⟩,
    ⟨0x19, false, false, false, 1, .causal⟩, ⟨0x1a, false, false, false, 1, .causal⟩,
    ⟨0x20, true, true, true, 2, .active⟩, ⟨0x24, false, false, false, 1, .active⟩,
    ⟨0x26, false, false, false, 1, .active⟩, ⟨0x28, false, false, false, 7, .active⟩,
    ⟨0x29, false, false, false, 7, .active⟩ ]

/-- 47 R1090: rows of the event table. -/
def eventRows1 : List EventInfo :=
  [ ⟨0x2a, false, false, false, 7, .active⟩, ⟨0x2b, false, false, false, 7, .active⟩,
    ⟨0x2d, false, false, false, 4, .active⟩, ⟨0x32, false, false, false, 1, .active⟩,
    ⟨0x40, true, false, false, 1, .active⟩, ⟨0x41, true, false, false, 1, .floating⟩,
    ⟨0x42, true, false, false, 1, .active⟩, ⟨0x43, true, false, false, 1, .floating⟩,
    ⟨0x44, true, false, false, 1, .active⟩, ⟨0x45, true, false, false, 1, .active⟩,
    ⟨0x46, true, false, false, 1, .floating⟩, ⟨0x47, true, false, false, 1, .active⟩,
    ⟨0x48, true, false, false, 1, .active⟩, ⟨0x49, false, false, false, 1, .active⟩,
    ⟨0x4a, true, true, true, 1, .causal⟩, ⟨0x4b, true, false, false, 1, .causal⟩,
    ⟨0x4d, true, false, false, 6, .active⟩, ⟨0x4e, true, false, false, 5, .active⟩,
    ⟨0x4f, true, false, false, 2, .active⟩, ⟨0x50, true, false, true, 6, .active⟩,
    ⟨0x51, true, false, true, 6, .active⟩, ⟨0x52, false, false, false, 1, .active⟩,
    ⟨0x53, false, false, false, 1, .active⟩, ⟨0x54, true, false, true, 3, .active⟩,
    ⟨0x55, false, false, false, 1, .active⟩, ⟨0x56, true, true, true, 2, .active⟩,
    ⟨0x57, true, true, true, 1, .active⟩ ]

/-- 47 R1090: rows of the event table. -/
def eventRows2 : List EventInfo :=
  [ ⟨0x58, true, true, true, 2, .active⟩, ⟨0x59, false, false, false, 1, .causal⟩,
    ⟨0x5a, false, false, false, 1, .active⟩, ⟨0x5b, true, false, true, 3, .active⟩,
    ⟨0x5f, true, false, false, 1, .active⟩, ⟨0x60, false, false, false, 1, .causal⟩,
    ⟨0x61, true, false, true, 1, .active⟩, ⟨0x63, true, false, true, 3, .active⟩,
    ⟨0x64, false, false, false, 1, .causal⟩, ⟨0x65, true, false, false, 1, .active⟩,
    ⟨0x66, true, false, false, 1, .active⟩, ⟨0x67, false, false, false, 1, .active⟩,
    ⟨0x68, true, false, true, 2, .active⟩, ⟨0x69, false, false, false, 1, .active⟩,
    ⟨0x6a, true, false, true, 2, .active⟩, ⟨0x70, false, false, false, 2, .active⟩,
    ⟨0x71, false, false, false, 1, .active⟩, ⟨0x72, false, false, false, 2, .active⟩,
    ⟨0x73, false, false, false, 2, .active⟩, ⟨0x78, true, false, false, 1, .floating⟩,
    ⟨0x79, true, false, false, 1, .floating⟩, ⟨0x7a, true, false, false, 1, .floating⟩,
    ⟨0x7b, true, false, false, 1, .floating⟩, ⟨0x7c, true, false, false, 1, .floating⟩,
    ⟨0x7d, true, false, false, 1, .floating⟩, ⟨0x7e, true, false, false, 1, .floating⟩,
    ⟨0x7f, false, false, false, 1, .causal⟩ ]

/-- 47 R1090: rows of the event table. The type of 0x84 is printed "N/A"; it is taken as causal (log 57, DESIGN CHOICE). -/
def eventRows3 : List EventInfo :=
  [ ⟨0x80, false, false, false, 1, .floating⟩, ⟨0x81, false, false, false, 1, .floating⟩,
    ⟨0x82, false, false, false, 1, .floating⟩, ⟨0x83, false, false, false, 1, .floating⟩,
    ⟨0x84, false, false, false, 1, .causal⟩, ⟨0x85, false, false, false, 1, .floating⟩,
    ⟨0x86, false, false, false, 1, .floating⟩, ⟨0x88, false, false, false, 1, .floating⟩,
    ⟨0x90, false, false, false, 1, .causal⟩, ⟨0x91, false, false, false, 1, .causal⟩,
    ⟨0x92, false, false, false, 1, .causal⟩, ⟨0x93, false, false, false, 1, .causal⟩,
    ⟨0x94, false, false, false, 1, .causal⟩, ⟨0xa0, false, false, false, 1, .causal⟩,
    ⟨0xa1, false, false, false, 3, .causal⟩, ⟨0xa2, false, false, false, 1, .causal⟩,
    ⟨0xa8, false, false, false, 1, .causal⟩, ⟨0xa9, false, false, false, 1, .causal⟩,
    ⟨0xaa, false, false, false, 1, .causal⟩, ⟨0xae, false, false, false, 1, .causal⟩,
    ⟨0xaf, false, false, false, 1, .causal⟩, ⟨0xb0, true, true, true, 4, .floating⟩,
    ⟨0xb1, true, true, true, 4, .floating⟩, ⟨0xb4, false, false, false, 2, .floating⟩,
    ⟨0xb5, false, false, false, 7, .floating⟩, ⟨0xb6, false, false, false, 1, .causal⟩,
    ⟨0xb7, false, false, false, 7, .causal⟩ ]

/-- 47 R1090: rows of the event table. The type of 0xbf is printed "N/A"; it is taken as causal (log 57, DESIGN CHOICE). -/
def eventRows4 : List EventInfo :=
  [ ⟨0xb8, false, false, false, 2, .causal⟩, ⟨0xb9, false, false, false, 7, .causal⟩,
    ⟨0xba, false, false, false, 1, .floating⟩, ⟨0xbb, false, false, false, 2, .causal⟩,
    ⟨0xbc, false, false, false, 1, .causal⟩, ⟨0xbd, false, false, false, 1, .floating⟩,
    ⟨0xbe, false, false, false, 1, .floating⟩, ⟨0xbf, false, false, false, 1, .causal⟩,
    ⟨0xc0, true, true, true, 1, .active⟩, ⟨0xc1, true, true, true, 4, .active⟩,
    ⟨0xc2, true, true, true, 2, .active⟩, ⟨0xc3, true, true, true, 4, .active⟩,
    ⟨0xc4, true, true, true, 2, .active⟩, ⟨0xc5, true, true, true, 4, .active⟩,
    ⟨0xc6, true, true, true, 1, .active⟩, ⟨0xc7, true, true, true, 2, .active⟩,
    ⟨0xc8, true, true, true, 1, .floating⟩, ⟨0xc9, false, false, false, 4, .floating⟩,
    ⟨0xca, false, false, false, 1, .active⟩, ⟨0xcb, true, true, true, 1, .floating⟩,
    ⟨0xcd, true, true, true, 4, .active⟩, ⟨0xce, true, true, true, 4, .active⟩,
    ⟨0xcf, true, true, true, 4, .active⟩, ⟨0xd0, true, true, true, 2, .active⟩,
    ⟨0xd1, true, true, true, 2, .active⟩, ⟨0xd2, true, true, true, 2, .active⟩,
    ⟨0xd9, true, true, false, 2, .active⟩ ]

/-- 47 R1090: rows of the event table. -/
def eventRows5 : List EventInfo :=
  [ ⟨0xda, true, true, true, 1, .floating⟩, ⟨0xdb, true, true, true, 1, .floating⟩,
    ⟨0xdc, true, true, true, 1, .floating⟩, ⟨0xdd, true, true, true, 1, .floating⟩,
    ⟨0xde, true, true, true, 1, .floating⟩, ⟨0xdf, false, false, false, 1, .floating⟩,
    ⟨0xe0, true, true, true, 4, .floating⟩, ⟨0xe1, false, false, false, 1, .floating⟩,
    ⟨0xe2, true, true, true, 4, .floating⟩, ⟨0xe4, true, true, true, 4, .floating⟩,
    ⟨0xe5, false, false, false, 1, .floating⟩, ⟨0xe6, true, true, true, 4, .floating⟩,
    ⟨0xe8, true, true, true, 1, .floating⟩, ⟨0xe9, false, false, false, 1, .floating⟩,
    ⟨0xea, true, true, true, 4, .floating⟩, ⟨0xeb, true, true, true, 1, .floating⟩,
    ⟨0xec, true, true, true, 4, .floating⟩, ⟨0xed, true, true, true, 2, .floating⟩,
    ⟨0xef, false, false, false, 1, .floating⟩,
    ⟨0xf0, true, true, true, 4, .floating⟩, ⟨0xf1, false, false, false, 1, .floating⟩,
    ⟨0xf2, false, false, false, 1, .floating⟩, ⟨0xf3, false, false, false, 1, .floating⟩ ]

/-- 47 R1090: the event table. -/
def eventTable : List EventInfo :=
  eventRows0 ++ eventRows1 ++ eventRows2 ++ eventRows3 ++ eventRows4 ++ eventRows5

/-- The row of an event code; a code without one names no event (44 R706). -/
def eventInfo (code : Nat) : Option EventInfo := eventTable.find? fun r => r.code == code

/-- The unit masks for which nothing is counted (45_events_core_1.md to 47_events_core_3.md). -/
def countsNothing (code u : Nat) : Bool :=
  match code with
  | 0x4f | 0x58 | 0x47 | 0x20 | 0xe6 | 0x55 | 0x56 | 0x57 | 0xdd | 0x79 | 0x7c | 0x7d => u % 4 == 0
  | 0x78 => u % 4 == 0 || u < 4
  | 0x7b => u < 4
  | 0x00 | 0x04 | 0xe4 | 0x68 => u % 4 == 3
  | 0x02 | 0xaa | 0x1a => 9 ≤ u
  | 0x01 => 6 ≤ u % 8
  | 0x63 => u / 4 == 1
  | 0x67 => u % 4 ≤ 1
  | 0xde => u % 4 == 0 || u < 4
  | 0x13 => u == 0
  | 0x82 | 0xa0 => 3 ≤ u
  | 0x83 => 2 ≤ u
  | 0x80 => 13 ≤ u
  | 0x86 => u == 1 || u == 5
  | 0x93 => 12 ≤ u
  | 0x94 => 6 ≤ u
  | 0x0e => u % 8 == 0 || u % 8 == 5
  | 0x0d => u % 8 ∈ [0, 2, 3, 6]
  | 0x0f => 11 ≤ u
  | 0x15 => 8 ≤ u
  | _ => false

/-- 44 R731: the bits of the unit mask an event's table looks at; the others are don't-cares. -/
def maskBits (code : Nat) : Nat :=
  match code with
  | 0x0b | 0x12 | 0xc7 => 1
  | 0x00 | 0x04 | 0x08 | 0x20 | 0x47 | 0x4f | 0x55 | 0x56 | 0x57 | 0x58 | 0x61 | 0x67 | 0x79 | 0x7c | 0x7d | 0xe2 | 0xe4
  | 0xe6 => 3
  | 0x01 | 0x0c | 0x0d | 0x0e | 0xe8 | 0xf0 | 0xf2 => 7
  | 0x6a => 13
  | 0xec | 0xed => 8
  | 0x02 | 0x0f | 0x13 | 0x15 | 0x1a | 0x4e | 0x54 | 0x59 | 0x5b | 0x63 | 0x68 | 0x70 | 0x71 | 0x72 | 0x73 | 0x78 | 0x7b
  | 0x80 | 0x81 | 0x82 | 0x83 | 0x84 | 0x85 | 0x86 | 0x88 | 0x90 | 0x91 | 0x92 | 0x93 | 0x94 | 0xa0 | 0xa1 | 0xa2 | 0xa8
  | 0xa9 | 0xaa | 0xae | 0xaf | 0xca | 0xd9 | 0xdd | 0xde | 0xe0 | 0xe1 | 0xe9 | 0xea | 0xf1 | 0xf3 => 15
  | _ => 0

/-- The unit mask of an event without its don't-care bits. -/
def unitMask (code u : Nat) : Nat := u &&& maskBits code

/-! ## Restrictions of the counters (44 R705, 46 R901, R930) -/

/-- 46 R901: the set of an L1D event. -/
def l1dSet (es : Nat) : Option Nat :=
  match es with
  | 0xc0 | 0xc1 | 0xc2 | 0xc3 => some 0
  | 0xc4 | 0xc5 | 0xc7 => some 1
  | 0xca => some 2
  | 0xcd | 0xce | 0xcf => some 3
  | 0xd0 | 0xd1 | 0xd2 => some 4
  | 0xd9 => some 6
  | _ => none

/-- 46 R930: the set of an L2D event. -/
def l2dSet (es : Nat) : Option Nat :=
  match es with
  | 0xe0 | 0xe1 | 0xe2 => some 0
  | 0xe4 | 0xe5 => some 1
  | 0xe6 => some 2
  | 0xe8 | 0xe9 => some 3
  | 0xea | 0xeb => some 4
  | 0xec | 0xed => some 5
  | 0xef => some 6
  | 0xf0 | 0xf1 => some 7
  | 0xf2 | 0xf3 => some 8
  | _ => none

/-- 46 R930, R970: the L2D events that no set restricts and the L3 events, which any counter may count. -/
def anyCounter (es : Nat) : Bool := es ∈ [0xb0, 0xb1, 0xcb, 0xda, 0xdb, 0xdc, 0xdd, 0xde, 0xdf]

/-- The events whose entry restricts them to counters 4 to 9 (45 R831, R833, R838, R867, R869, R871, R873, R888; the rule of
`CPU_OP_CYCLES` allows both kinds, 45 R801 d), those of 44 R705, and, where multithreading is enabled, the floating events,
whose count in a banked counter may be incorrect (44 R705, R746); but not the events of the second and third level cache of which
46 R930 and R970 say otherwise (log 40). -/
def duplicatedOnly (mt : Bool) (es : Nat) : Bool :=
  !anyCounter es
    && (es ∈ [0x00, 0x04, 0x70, 0x4b, 0x64, 0x60, 0x4a, 0x7f] || es / 16 ∈ [0x8, 0x9, 0xa, 0xb, 0xe, 0xf]
      || (mt && (match eventInfo es with
        | some r => decide (r.type = .floating)
        | none => false)))

/-- 46 R930 to R952: the L2D events and unit masks that are counted with the thread in the foreground, as the one that caused
them or as an approximation of it; the other L2D events know their thread. -/
def activeThread (code u : Nat) : Bool :=
  code ∈ [0xb0, 0xb1, 0xe1, 0xe4, 0xe5, 0xe6, 0xe9, 0xea, 0xec, 0xed, 0xef, 0xf1, 0xf3] || (code == 0xe8 && decide (4 ≤ u % 8))

/-- 46 R930, R933 to R949: whether an L2D event with a unit mask supports `all`. -/
def allCapable (code u : Nat) : Bool :=
  match code with
  | 0xe1 | 0xe5 | 0xe8 | 0xf0 | 0xf1 => false
  | 0xe4 => 2 ≤ u % 4
  | 0xea => !(4 ≤ u && u ≤ 7)
  | _ => true

/-- The events that every counter sees whichever thread it belongs to and whatever its `all` bit is: those of the protocol
engine (47 R1045), the snoop responses (47 R1034 to R1037), and those whose `all` bit is ignored (47 R1021 to R1023, R1033,
R1038, R1039). -/
def seenByBoth (code : Nat) : Bool :=
  code / 16 ∈ [0x9, 0xa] || code ∈ [0x84, 0x85, 0x86, 0x88, 0xb6, 0xb7, 0xb8, 0xb9, 0xbb, 0xbc]

end Sys2Proof.Machine
end

