-- ==== Sys2Proof/Machine/Rse.lean ====
section
/-!
DEFINITION. The register stack engine in the architectural view of 92 D13 (log 16): the physical registers below the current
frame that are not yet in the backing store are counted by `ndirty`; a NaT collection stands at every address whose bits
8:3 are all ones.
-/

namespace Sys2Proof.Machine

open Sys2Proof.Config

/-- Whether an address of the backing store holds a NaT collection. -/
def isCollection (a : Word) : Bool := decide (field a 3 6 = 63#64)

/-- An address moved past a NaT collection. -/
def skipCollection (a : Word) : Word := if isCollection a then a + 8#64 else a

/-- The backing store address `n` registers above `a`. -/
def growBsp (a : Word) : Nat → Word
  | 0 => a
  | n + 1 => growBsp (skipCollection (skipCollection a + 8#64)) n

/-- `AR.BSP`: where the first register of the current frame would be stored. -/
def LP.bsp (lp : LP) : Word := growBsp lp.ar.bspstore lp.gr.ndirty

/-- The byte order of the engine's accesses (20 R401). -/
def LP.bigRse (lp : LP) : Bool := lp.ar.rsc.getLsbD 4

def State.setAr (s : State) (ar : ARFile) : State := s.setLp { s.lp with ar := ar }
def State.setGrFile (s : State) (gr : GRFile) : State := s.setLp { s.lp with gr := gr }

/-- The record of an access of the engine. -/
def State.noteRseAccess (s : State) (store : Bool) (va : Word) (attr : MemAttr) : State :=
  s.setLp { s.lp with ev := { s.lp.ev with
    rse := { store := store, addr := va, uncached := decide (attr ≠ .wb) } :: s.lp.ev.rse } }

/-- A store of the engine, with its record for the performance monitor (47 R1068, 45 R829). -/
def rseStore (s : State) (va v : Word) : Ans State := do
  let (pa, attr) ← orRaise s va .rseWrite (accessBits .rseWrite) (dataAccess s .rseWrite va 8 false)
  let t ← writeAt s s.lp.bigRse pa attr 8 v.toNat
  return t.noteRseAccess true va attr

/-- A load of the engine, with its record for the performance monitor (47 R1068, 45 R828). -/
def rseLoad (s : State) (va : Word) : Ans (Word × State) := do
  let (pa, attr) ← orRaise s va .rseRead (accessBits .rseRead) (dataAccess s .rseRead va 8 false)
  let (v, t) ← readAt s s.lp.bigRse pa attr 8
  return (BitVec.ofNat 64 v, t.noteRseAccess false va attr)

/-- A NaT collection stored if `AR.BSPSTORE` points at its place. -/
def spillCollection (s : State) : Ans State :=
  if isCollection s.lp.ar.bspstore then do
    let s' ← rseStore s s.lp.ar.bspstore s.lp.ar.rnat
    return s'.setAr { s'.lp.ar with bspstore := s'.lp.ar.bspstore + 8#64, rnat := 0#64 }
  else .ok s

/-- The place of the oldest register below the frame that is not in the backing store. -/
def LP.oldest (lp : LP) : Nat := (lp.gr.bof + 96 - lp.gr.ndirty) % 96

/-- The oldest dirty register stored. -/
def spillOne (s : State) : Ans State := do
  let s1 ← spillCollection s
  let a := s1.lp.ar.bspstore
  let r := s1.lp.gr.stk.getD s1.lp.oldest .zero
  let s2 ← rseStore s1 a r.val
  let s3 := (s2.setAr { s2.lp.ar with
      bspstore := a + 8#64, rnat := setBit s2.lp.ar.rnat (field a 3 6).toNat r.nat }).setGrFile
    { s2.lp.gr with ndirty := s2.lp.gr.ndirty - 1 }
  spillCollection s3

/-- `n` registers stored. -/
def spillN : Nat → State → Ans State
  | 0, s => .ok s
  | n + 1, s => do
    let s' ← spillOne s
    spillN n s'

/-- A NaT collection loaded if one stands just below `AR.BSPSTORE`. -/
def fillCollection (s : State) : Ans State :=
  if isCollection (s.lp.ar.bspstore - 8#64) then do
    let (c, t) ← rseLoad s (s.lp.ar.bspstore - 8#64)
    return t.setAr { t.lp.ar with bspstore := t.lp.ar.bspstore - 8#64, rnat := c }
  else .ok s

/-- The register just below `AR.BSPSTORE` loaded into the place below the oldest dirty one. -/
def fillRegister (s : State) : Ans State := do
  let a := s.lp.ar.bspstore - 8#64
  let (v, t) ← rseLoad s a
  let gr := t.lp.gr
  let r : Reg := ⟨v, t.lp.ar.rnat.getLsbD (field a 3 6).toNat⟩
  return (t.setAr { t.lp.ar with bspstore := a }).setGrFile
    { gr with stk := gr.stk.setIfInBounds ((gr.bof + 95 - gr.ndirty) % 96) r, ndirty := gr.ndirty + 1 }

/-- The register below the oldest dirty one loaded from the backing store, with the NaT collection above it if there is
one. -/
def fillOne (s : State) : Ans State := do
  let t ← fillCollection s
  fillRegister t

/-- `n` registers loaded. -/
def fillN : Nat → State → Ans State
  | 0, s => .ok s
  | n + 1, s => do
    let s' ← fillOne s
    fillN n s'

/-- 42 R610: mandatory stores until a frame of `sof` registers fits (96 physical registers, 00 R20). -/
def makeRoom (sof : Nat) (s : State) : Ans State := spillN (s.lp.gr.ndirty + sof - 96) s

/-- 43 R665, R669: the bottom of the frame advances by `n` registers, which become dirty. -/
def pushFrame (n : Nat) (s : State) : State :=
  s.setGrFile { s.lp.gr with bof := (s.lp.gr.bof + n) % 96, ndirty := s.lp.gr.ndirty + n }

/-- 43 R666: the contents of a frame no processor state can hold are undefined: free values in every stacked register. -/
def freeStack (s : State) : State :=
  { s.setGrFile { s.lp.gr with stk := .ofFn fun i => ⟨freeWord (s.free + i.val), freeBool (s.free + i.val)⟩ } with
    free := s.free + 96 }

/-- 43 R666, R671: the bottom of the frame retreats by `n` registers of a frame of `sof`; those not in the physical file
are loaded. -/
def popFrame (n sof : Nat) (s : State) : Ans State :=
  if sof ≤ 96 ∧ n ≤ sof then do
    let s1 ← fillN (n - s.lp.gr.ndirty) s
    let s2 := s1.setGrFile
      { s1.lp.gr with bof := (s1.lp.gr.bof + 96 - n) % 96, ndirty := s1.lp.gr.ndirty - n }
    makeRoom sof s2
  else
    .ok (freeStack (s.setGrFile
      { s.lp.gr with bof := (s.lp.gr.bof + 96 - n % 96) % 96, ndirty := s.lp.gr.ndirty - n }))

/-- How many bytes of the backing store below an address `AR.BSPSTORE` is. -/
def LP.bytesBelow (lp : LP) (bsp : Word) : Nat := (bsp - lp.ar.bspstore).toNat

/-- `AR.BSPSTORE` moved past a NaT collection. -/
def State.pastCollection (s : State) : State := s.setAr { s.lp.ar with bspstore := skipCollection s.lp.ar.bspstore }

/-- The oldest dirty register given up without a store. -/
def State.dropRegister (s : State) : State :=
  (s.setAr { s.lp.ar with bspstore := s.lp.ar.bspstore + 8#64 }).setGrFile { s.lp.gr with ndirty := s.lp.gr.ndirty - 1 }

/-- 42 R604: the NaT collections and the oldest dirty registers more than `bytes` below address `bsp` given up without a store. With
the last register goes the collection above it, so that `AR.BSP` stays (log 16). -/
def dropBelow (bsp : Word) (bytes : Nat) : Nat → State → State
  | 0, s => if 0 < s.lp.bytesBelow bsp then s.pastCollection else s
  | n + 1, s =>
    if bytes < s.lp.bytesBelow bsp then
      let t := s.pastCollection
      if bytes < t.lp.bytesBelow bsp then dropBelow bsp bytes n t.dropRegister else t
    else s

/-- `t`, with the `AR.BSPSTORE` of `s` where no register of `t` is dirty: a collection that stands alone between `AR.BSPSTORE` and
`AR.BSP` leaves `AR.BSPSTORE`, with which `AR.BSP` would move (log 16). -/
def State.keepBspstore (s t : State) : State :=
  if t.lp.gr.ndirty = 0 then t.setAr { t.lp.ar with bspstore := s.lp.ar.bspstore } else t

/-- 42 R604: registers and NaT collections loaded until the `bytes` of the backing store below address `bsp` are in the
register file; more registers than fit are illegal. -/
def fillDownTo (bsp : Word) (bytes : Nat) : Nat → State → Ans State
  | 0, s => do
    let t ← if s.lp.bytesBelow bsp < bytes then fillCollection s else .ok s
    if t.lp.bytesBelow bsp < bytes then raise illegalOperation else .ok (s.keepBspstore t)
  | n + 1, s =>
    if s.lp.bytesBelow bsp < bytes then do
      let t ← fillCollection s
      if t.lp.bytesBelow bsp < bytes then do
        let u ← fillRegister t
        fillDownTo bsp bytes n u
      else .ok (s.keepBspstore t)
    else .ok s

end Sys2Proof.Machine
end

