-- ==== Sys2Proof/Machine/PmuRegs.lean ====
section
/-!
DEFINITION. The registers of the performance monitor of a thread: what a write keeps, what a read gives, and when the value
of a data register is unspecified (11_state_pmu.md; 93 U1 to U7).
-/

namespace Sys2Proof.Machine

open Sys2Proof.Config

/-- A configuration register; an unimplemented index reads 0 (11 R121). -/
def pmcAt (p : PMU) (i : Nat) : Word := p.pmc.getD i 0#64
/-- The stored value of a data register. -/
def pmdAt (p : PMU) (i : Nat) : Word := p.pmd.getD i 0#64

/-- 11 R130 to R190: the bits of a configuration register that a write sets. -/
def pmcWritable (i : Nat) : Word :=
  if i = 0 then 0xFFF1#64
  else if 4 ≤ i ∧ i ≤ 15 then 0x7F7FFF7F#64
  else match i with
    | 32 | 34 => pmcOpcodeMask
    | 33 | 35 => pmcOpcodeMatch
    | 36 => 0xF#64
    | 37 => 0x3FFF#64
    | 38 => 0x2492#64
    | 39 => 0xFFDF#64
    | 40 => 0x30F01CF#64
    | 41 => 0x1E00018181818#64
    | 42 => 0x7FF4F#64
    | 43 => 0x3FFFFF#64
    | _ => 0#64

/-- The bits of a configuration register whose read value the source does not state (93 U1; 11 R151). -/
def pmcUnstated (i : Nat) : Word := if i = 33 ∨ i = 35 then ~~~pmcOpcodeMatch else 0#64

/-- 11 R140, R163 to R188: the bits of a data register that a write sets, those of PMD39 in IP-EAR mode. -/
def pmdWritable (i : Nat) : Word :=
  if 4 ≤ i ∧ i ≤ 15 then 0x7FFFFFFFFFFF#64
  else if 48 ≤ i ∧ i ≤ 63 then ~~~0#64
  else match i with
    | 32 | 36 | 39 => ~~~0#64
    | 33 => 0xFFFF#64
    | 34 => ~~~0x1C#64
    | 35 => 0x1FFF#64
    | 38 => 0x2F#64
    | _ => 0#64

/-- The bits of a data register whose read value the source does not state (93 U1; 11 R163, R164). -/
def pmdUnstated (i : Nat) : Word :=
  match i with
  | 34 => 0x1C#64
  | 35 => ~~~0x1FFF#64
  | _ => 0#64

/-! ## The fields of a configuration register (11 R124, R130) -/

def pmcPlm (w : Word) : BitVec 4 := w.setWidth 4
/-- 11 R124, R160: `pm` is bit 6, in PMC37 bit 4. -/
def pmcPm (i : Nat) (w : Word) : Bool := w.getLsbD (if i = 37 then 4 else 6)
def pmcOi (w : Word) : Bool := w.getLsbD 5
def pmcEs (w : Word) : Nat := (field w 8 8).toNat
def pmcUmask (w : Word) : Nat := (field w 16 4).toNat
def pmcThreshold (w : Word) : Nat := (field w 20 3).toNat
def pmcIsm (w : Word) : Nat := (field w 24 2).toNat
def pmcAll (w : Word) : Bool := w.getLsbD 26
/-- 11 R137: the filter of line states: bit 0 I, 1 S, 2 E, 3 M. -/
def pmcMesi (w : Word) : Nat := (field w 27 4).toNat
/-- 11 R185: the mode of the trace buffer: 0 for branches, 4 and above for retired addresses. -/
def traceMode (p : PMU) : Nat := (field (pmcAt p 42) 8 3).toNat
/-- 11 R145: the freeze bit. -/
def frozen (p : PMU) : Bool := (pmcAt p 0).getLsbD 0

/-- 11 R124: whether a register has the field `ism`. -/
def hasIsm (i : Nat) : Bool := decide ((4 ≤ i ∧ i ≤ 15) ∨ i = 40)

/-- 11 R123, 44 R730: `MonitorEnable` without the freeze bit, under a processor status. -/
def monitorOn (psr : LP) (p : PMU) (i : Nat) : Bool :=
  let w := pmcAt p i
  (pmcPlm w).getLsbD psr.cpl.toNat && (!hasIsm i || pmcIsm w == 2)
    && (if pmcPm i w then psr.psrBit 21 else psr.psrBit 2)

/-- 11 R123: `MonitorEnable`. -/
def monitorEnable (psr : LP) (p : PMU) (i : Nat) : Bool := !frozen p && monitorOn psr p i

/-- The bits of a data register that a write sets; those of PMD39 depend on the mode of the trace buffer (11 R182, R188). -/
def pmdMask (p : PMU) (i : Nat) : Word := if i = 39 ∧ traceMode p = 0 then 0x3333333333333333#64 else pmdWritable i

/-! ## Restrictions of the counters (44 R705, 46 R901, R930) -/

/-- 46 R930: the counter that governs the set, the unit mask and the `all` bit of a counter's L2D event. -/
def l2dMaster (p : PMU) (i : Nat) : Nat :=
  if (l2dSet (pmcEs (pmcAt p i))).isSome then (if i = 5 ∨ i = 8 then 4 else if i = 7 ∨ i = 9 then 6 else i) else i

/-- 46 R947: whether both events of the cancels of the queue are programmed. -/
def bothCancels (p : PMU) : Bool :=
  let has (code : Nat) : Bool := [4, 5, 6, 7, 8, 9].any fun i => pmcEs (pmcAt p i) == code
  has 0xe0 && has 0xe2

/-- 93 U10, U11: whether a counter is programmed with a code that names no event (45 R899, 46 R961) or with an event its
restrictions exclude; those of a banked counter depend on whether multithreading is enabled (44 R705). -/
def restricted (mt : Bool) (p : PMU) (i : Nat) : Bool :=
  let es := pmcEs (pmcAt p i)
  let ctl := pmcAt p (l2dMaster p i)
  (eventInfo es).isNone
    || (decide (10 ≤ i) && duplicatedOnly mt es)
    || (match l1dSet es with | none => false | some k => l1dSet (pmcEs (pmcAt p 5)) != some k)
    || (match l2dSet es with | none => false | some k => l2dSet (pmcEs (pmcAt p (l2dMaster p i))) != some k)
    || (pmcAll ctl && !allCapable es (pmcUmask ctl))
    || ((es == 0xe0 || es == 0xe2) && bothCancels p)

/-! ## Unspecified data registers -/

/-- The configuration register of a data register (11 R120), `none` for an unimplemented index. -/
def pmdConfig (p : PMU) (j : Nat) : Option Nat :=
  if 4 ≤ j ∧ j ≤ 15 then some j
  else if 48 ≤ j ∧ j ≤ 63 then some (if traceMode p = 0 then 39 else 42)
  else match j with
    | 34 | 35 => some 37
    | 32 | 33 | 36 => some 40
    | 38 | 39 => some (if traceMode p = 0 then 39 else 42)
    | _ => none

/-- 11 R124, 93 U3, U4, U9, U10: whether the configuration leaves the data register it governs without a value. -/
def configOpen (mt : Bool) (p : PMU) (c : Nat) : Bool :=
  let w := pmcAt p c
  decide (pmcPlm w = 0#4) || (hasIsm c && pmcIsm w != 2) || (decide (c ≤ 15) && restricted mt p c)
    || (decide (c = 42) && decide (traceMode p < 4))

/-- Whether a data register has no value under the configuration. -/
def pmdOpen (mt : Bool) (p : PMU) (j : Nat) : Bool :=
  match pmdConfig p j with
  | none => false
  | some c => configOpen mt p c

/-- The data registers given free values where `which` says so; `n` numbers the values. -/
def freePmds (which : Nat → Bool) (n : Nat) (v : Vector Word 64) : Vector Word 64 :=
  .ofFn fun j => if which j.val then freeWord (n + j.val) &&& pmdWritable j.val else v.getD j.val 0#64

/-! ## Reads and writes (42 R632) -/

def State.setPmu (s : State) (p : PMU) : State := s.setLp { s.lp with pmu := p }

/-- A read of a configuration register. -/
def readPmc (s : State) (i : Nat) : Word × State :=
  let w := pmcAt s.lp.pmu i
  if pmcUnstated i = 0#64 then (w, s)
  else
    let (f, s') := freshWord s
    (w ||| (f &&& pmcUnstated i), s')

/-- A write of a configuration register: ignored bits keep their value; every data register that had no value before the write has
a free one after it, whichever configuration the write changes, since PMC42 decides which one governs a data register. A change of the reserved bits of PMC38 or PMC41 is refused (93 U7). -/
def writePmc (s : State) (i : Nat) (v : Word) : Ans State :=
  let p := s.lp.pmu
  let old := pmcAt p i
  let m := pmcWritable i
  if (i = 38 ∨ i = 41) ∧ (v ^^^ old) &&& ~~~m ≠ 0#64 then .error (.refuse (.pmcReservedBits i))
  else
    let affected : Nat → Bool := pmdOpen s.params.featMt p
    let p1 := { p with pmc := p.pmc.setIfInBounds i ((old &&& ~~~m) ||| (v &&& m)) }
    if (List.range 64).any affected then
      .ok { s.setPmu { p1 with pmd := freePmds affected s.free p1.pmd } with free := s.free + 64 }
    else .ok (s.setPmu p1)

/-- A read of a data register at the current privilege level (11 R124, R125, R140). -/
def readPmd (s : State) (j : Nat) : Word × State :=
  let p := s.lp.pmu
  match pmdConfig p j with
  | none => (0#64, s)
  | some c =>
    if decide (s.lp.cpl ≠ 0#2) && (s.lp.psrBit 20 || pmcPm c (pmcAt p c)) then (0#64, s)
    else
      let shown (w : Word) : Word := if j ≤ 15 then sextLow w 47 else if j = 39 then w &&& pmdMask p 39 else w
      let unstated := if configOpen s.params.featMt p c || (decide (32 ≤ j) && !frozen p) then pmdWritable j ||| pmdUnstated j
        else pmdUnstated j
      if unstated = 0#64 then (shown (pmdAt p j), s)
      else
        let (f, s') := freshWord s
        (shown ((pmdAt p j &&& ~~~unstated) ||| (f &&& unstated)), s')

/-- A write of a data register; a 1 written to bit 47 of a counter leaves its count free (93 U6), and a write of the index
of the trace buffer (11 R181) starts it anew. -/
def writePmd (s : State) (j : Nat) (v : Word) : State :=
  let p := s.lp.pmu
  let m := pmdMask p j
  if 4 ≤ j ∧ j ≤ 15 ∧ v.getLsbD 47 then
    let (f, s') := freshWord s
    s'.setPmu { p with pmd := p.pmd.setIfInBounds j (f &&& m) }
  else s.setPmu { p with
    pmd := p.pmd.setIfInBounds j ((pmdAt p j &&& ~~~m &&& pmdWritable j) ||| (v &&& m))
    etbPending := p.etbPending && decide (j ≠ 38) }

/-- 44 R791, 92 D30: whether the performance monitor requests its interrupt. -/
def pmiPending (p : PMU) : Bool :=
  frozen p && (List.range 12).any fun k => (pmcAt p 0).getLsbD (k + 4) && pmcOi (pmcAt p (k + 4))

end Sys2Proof.Machine
end

