-- ==== Sys2Proof/Machine/Interrupt.lean ====
section
/-!
DEFINITION. External interrupts (60 R1320 to R1322, 44 R790): pending vectors, their priority, when one is taken, the
acknowledgement by `CR.IVR` and the end of interrupt.
-/

namespace Sys2Proof.Machine

/-- The vector number of a vector register (60 R1320). -/
def vectorOf (w : Word) : Nat := (field w 0 8).toNat
/-- The mask bit of a vector register (60 R1320). -/
def vectorMasked (w : Word) : Bool := w.getLsbD 16

/-- A vector's bit in a set of vectors. -/
def vectorBit (v : Nat) : BitVec 256 := 1#256 <<< v

/-- 60 R1321: the pending vectors, with that of the performance monitor while it requests its interrupt (log 29). -/
def LP.pending (lp : LP) : BitVec 256 :=
  if pmiPending lp.pmu && !vectorMasked lp.cr.pmv then lp.cr.irr ||| vectorBit (vectorOf lp.cr.pmv) else lp.cr.irr

/-- The priority class of a vector: NMI, then ExtINT, then bits 7:4 (60 R1320, 10 R74). -/
def vectorClass (v : Nat) : Nat := if v = 2 then 17 else if v = 0 then 16 else v / 16

/-- The highest vector of a set from `k + 15` down to 16. -/
def highestFrom (m : BitVec 256) : Nat → Option Nat
  | 0 => none
  | k + 1 => if m.getLsbD (k + 16) then some (k + 16) else highestFrom m k

/-- 60 R1320: the vector of highest priority in a set: 2, then 0, then 255 down to 16. -/
def highestVector (m : BitVec 256) : Option Nat :=
  if m = 0#256 then none
  else if m.getLsbD 2 then some 2
  else if m.getLsbD 0 then some 0
  else highestFrom m 240

/-- 60 R1320: whether `CR.TPR` and the vectors in service let a vector through (log 27: ExtINT has no class of its
own for `mic`). -/
def LP.unmasked (lp : LP) (v : Nat) : Bool :=
  let tpr := lp.cr.tpr
  (decide (v = 2) || (!tpr.getLsbD 16 && (decide (v = 0) || decide ((field tpr 4 4).toNat < vectorClass v))))
    && (match highestVector lp.cr.inService with
      | none => true
      | some w => decide (vectorClass w < vectorClass v))

/-- The vector of highest priority of a set, if it is let through. -/
def LP.candidate (lp : LP) (m : BitVec 256) : Option Nat :=
  match highestVector m with
  | some v => if lp.unmasked v then some v else none
  | none => none

/-- 60 R1320, 44 R790: whether an external interrupt is taken before the next instruction; the performance monitor's
needs `PSR.ic` as well. -/
def LP.interrupted (lp : LP) : Bool :=
  lp.psrBit 14 && (lp.candidate (if lp.ic then lp.pending else lp.cr.irr)).isSome

/-- The external interrupt (60 R1302); it loads no `CR.IIB` (92 D14). -/
def externalInterrupt : Exc := { offset := 0x3000, arch := false }

/-- 10 R75: a read of `CR.IVR`: the vector moves from pending to in service; 15 if there is none. -/
def readIvr (s : State) : Word × State :=
  match s.lp.candidate s.lp.pending with
  | none => (15#64, s)
  | some v =>
    (BitVec.ofNat 64 v,
      s.setLp { s.lp with cr := { s.lp.cr with
        irr := s.lp.cr.irr &&& ~~~vectorBit v, inService := s.lp.cr.inService ||| vectorBit v } })

/-- 60 R1320: a write of `CR.EOI` removes the highest vector in service. -/
def endOfInterrupt (s : State) : State :=
  match highestVector s.lp.cr.inService with
  | none => s
  | some v => s.setLp { s.lp with cr := { s.lp.cr with inService := s.lp.cr.inService &&& ~~~vectorBit v } }

/-- 10 R72, 60 R1322: a thread's timer vector made pending when the interval time counter becomes equal to `CR.ITM`: by passing
from `old` by `n` ticks over it, or, where `moved` says that the instruction wrote one of the two, by that write; unless
`CR.ITV` masks it. -/
def timerTick (moved : Bool) (old : Word) (n : Nat) (lp : LP) : LP :=
  if vectorMasked lp.cr.itv then lp
  else
    let d := (lp.cr.itm - old).toNat
    if (moved = true ∨ 1 ≤ d) ∧ d ≤ n then
      { lp with cr := { lp.cr with irr := lp.cr.irr ||| vectorBit (vectorOf lp.cr.itv) } }
    else lp

end Sys2Proof.Machine
end

