-- ==== Sys2Proof/Machine/FpFormat.lean ====
section
/-!
DEFINITION. The 82-bit register format and the memory formats it is converted from and to (43 R585, R586, R594, R595; the
formats are the family's, log 18).
-/

namespace Sys2Proof.Machine

/-- The fields of a floating-point register (10 R59). -/
def frSign (f : FReg) : Bool := f.getLsbD 81
def frExp (f : FReg) : BitVec 17 := (f >>> 64).setWidth 17
def frSig (f : FReg) : Word := f.setWidth 64
/-- A floating-point register from its fields. -/
def mkFr (sign : Bool) (exp : BitVec 17) (sig : Word) : FReg := BitVec.ofBool sign ++ exp ++ sig

/-- The formats a floating-point load or store names (42 R585, R586). -/
inductive FpFormat where
  | single | double | extended | integer | image
deriving DecidableEq, Repr

/-- The bytes a format takes in memory. -/
def FpFormat.size : FpFormat → Nat
  | .single => 4
  | .double => 8
  | .extended => 10
  | .integer => 8
  | .image => 16

/-- A value of `eb` exponent and `fb` fraction bits, hidden integer bit, as a register. -/
def fromIeee (eb fb v : Nat) : FReg :=
  let sign := decide (v / 2 ^ (eb + fb) % 2 = 1)
  let e := v / 2 ^ fb % 2 ^ eb
  let frac := BitVec.ofNat 64 (v % 2 ^ fb * 2 ^ (63 - fb))
  let one : Word := 1#64 <<< 63
  let bias := 2 ^ (eb - 1) - 1
  if e = 2 ^ eb - 1 then mkFr sign 0x1FFFF#17 (one ||| frac)
  else if e = 0 then
    (if frac = 0#64 then mkFr sign 0#17 0#64 else mkFr sign (BitVec.ofNat 17 (0xFFFF + 1 - bias)) frac)
  else mkFr sign (BitVec.ofNat 17 (e + 0xFFFF - bias)) (one ||| frac)

/-- A double-extended value, explicit integer bit, as a register. -/
def fromExtended (v : Nat) : FReg :=
  let sign := decide (v / 2 ^ 79 % 2 = 1)
  let e := v / 2 ^ 64 % 2 ^ 15
  let sig := BitVec.ofNat 64 v
  if e = 0x7FFF then mkFr sign 0x1FFFF#17 sig
  else if e = 0 then mkFr sign (if sig = 0#64 then 0#17 else 0xC001#17) sig
  else mkFr sign (BitVec.ofNat 17 (e + 0xC000)) sig

/-- The exponent of an integer significand (42 R594). -/
def intExp : BitVec 17 := 0x1003E#17

/-- What a load of a format writes into a register. -/
def fromMemory : FpFormat → Nat → FReg
  | .single, v => fromIeee 8 23 v
  | .double, v => fromIeee 11 52 v
  | .extended, v => fromExtended v
  | .integer, v => mkFr false intExp (BitVec.ofNat 64 v)
  | .image, v => BitVec.ofNat 82 v

/-- The IEEE pattern of a register: sign, the top and the low exponent bits, 0 for an unnormal, the top of the fraction. -/
def toIeee (eb fb : Nat) (f : FReg) : Nat :=
  let e := (frExp f).toNat
  let exp := if (frSig f).getLsbD 63 then e / 2 ^ 16 * 2 ^ (eb - 1) + e % 2 ^ (eb - 1) else 0
  (frSign f).toNat * 2 ^ (eb + fb) + exp * 2 ^ fb + ((frSig f).toNat % 2 ^ 63) / 2 ^ (63 - fb)

/-- What a store of a format writes to memory. -/
def toMemory : FpFormat → FReg → Nat
  | .single, f => toIeee 8 23 f
  | .double, f => toIeee 11 52 f
  | .extended, f =>
    let e := (frExp f).toNat
    (frSign f).toNat * 2 ^ 79 + (e / 2 ^ 16 * 2 ^ 14 + e % 2 ^ 14) * 2 ^ 64 + (frSig f).toNat
  | .integer, f => (frSig f).toNat
  | .image, f => f.toNat

end Sys2Proof.Machine
end

