-- ==== Sys2Proof/Machine/Mem.lean ====
section
/-!
DEFINITION. The shared operations of the memory instructions of the M unit: integer and floating-point loads and stores in all
their forms, register pairs, prefetches and semaphores (42 R580 to R593).
-/

namespace Sys2Proof.Machine

/-- The record of an ALAT or speculation check for the performance monitor. -/
def State.noteCheck (s : State) (alat ld fp clear failed : Bool) : State :=
  s.setLp { s.lp with ev := { s.lp.ev with
    check := some { alat := alat, load := ld, fp := fp, clear := clear, failed := failed } } }

/-- The record of the address of a check load that finds its entry and reads nothing (44 R726). -/
def State.noteHit (s : State) (va : Word) : State :=
  s.setLp { s.lp with ev := { s.lp.ev with hitAddr := some va } }

/-- The form of a load (42 R580, R585). -/
structure LoadForm where
  spec : Bool := false
  adv : Bool := false
  check : Bool := false
  clr : Bool := false
deriving DecidableEq, Repr

/-- The first and the second half of `2 * n` bytes read, in a byte order. -/
def halves (big : Bool) (n v : Nat) : Nat × Nat :=
  if big then (v / 256 ^ n, v % 256 ^ n) else (v % 256 ^ n, v / 256 ^ n)

/-- The number whose first half in memory is `a` and whose second is `b`. -/
def joinHalves (big : Bool) (n a b : Nat) : Nat :=
  if big then a % 256 ^ n * 256 ^ n + b % 256 ^ n else b % 256 ^ n * 256 ^ n + a % 256 ^ n

/-- A load in one of its forms (42 R580): from the base register, the value read, `none` for a NaT, or `hit` of a check.
The register whose ALAT entry is meant is `r`, floating-point if `fp`. -/
inductive Loaded where
  | hit
  | natted
  | value (v : Nat)
deriving DecidableEq, Repr

/-- 42 R580: what a load does before it writes its register. That a deferred fault of a `.sa` load removes the entry of its target, as
the NaT base does, is the model's choice (log 32). -/
def loadForm (f : LoadForm) (fp : Bool) (r : BitVec 7) (base : Reg) (n : Nat) (wbOnly : Bool) (s : State) :
    Ans (Loaded × State) :=
  if base.nat then
    (if f.spec then
      .ok (.natted, (if f.adv then s.removeAlat fp r else s).noteData .load fp base.val n .wb (some 4))
     else raise (registerNatConsumption (accessBits .read)))
  else if f.check then
    let (hit, s1) := checkAlat s fp r
    let s2 := s1.noteCheck true true fp f.clr (!hit)
    if hit then .ok (.hit, (if f.clr then s2.removeAlat fp r else s2).noteHit base.val)
    else do
      let (v, pa, s3) ← load s2 fp base.val n wbOnly
      return (.value v, if f.clr then s3 else s3.allocAlat fp r pa n)
  else if f.spec then do
    let (v, s1) ← specLoad s fp base.val n wbOnly
    match v with
    | none => return (.natted, if f.adv then s1.removeAlat fp r else s1)
    | some (v, pa) => return (.value v, if f.adv then s1.allocAlat fp r pa n else s1)
  else do
    let (v, pa, s1) ← load s fp base.val n wbOnly
    return (.value v, if f.adv then s1.allocAlat fp r pa n else s1)

/-- 42 R580: an integer load of `n` bytes; `fill` restores the NaT bit from `AR.UNAT`. -/
def loadInt (f : LoadForm) (n : Nat) (fill : Bool) (qp : BitVec 6) (r1 r3 : BitVec 7) (inc : Inc) (s : State) :
    Result :=
  predicated qp s do
    checkGr s r1
    checkBase s r3 inc
    require (!(inc.updates && r1 == r3)) illegalOperation
    let base ← readGr s r3
    let i ← inc.value s
    let (x, s1) ← loadForm f false r1 base n false s
    let s2 := match x with
      | .hit => s1
      | .natted => s1.setGr r1 ⟨0#64, true⟩
      | .value v =>
        s1.setGr r1 ⟨BitVec.ofNat 64 v, fill && s.lp.ar.unat.getLsbD (field base.val 3 6).toNat⟩
    return s2.postInc r3 base inc i

/-- 42 R582: the 16-byte load. -/
def load16 (qp : BitVec 6) (r1 r3 : BitVec 7) (s : State) : Result :=
  predicated qp s do
    checkGr s r1
    let base ← readGr s r3
    let (x, s1) ← loadForm {} false r1 base 16 true s
    match x with
    | .value v =>
      let p := halves s.bigData 8 v
      return (s1.setLp { s1.lp with ar := { s1.lp.ar with csd := BitVec.ofNat 64 p.2 } }).setGr r1
        ⟨BitVec.ofNat 64 p.1, false⟩
    | _ => return s1

/-- 42 R583: an integer store of `n` bytes; `spill` saves the NaT bit in `AR.UNAT`. -/
def storeInt (n : Nat) (spill : Bool) (qp : BitVec 6) (r3 r2 : BitVec 7) (inc : Inc) (s : State) : Result :=
  predicated qp s do
    checkBase s r3 inc
    let base ← readGr s r3
    let v ← readGr s r2
    let i ← inc.value s
    require (!base.nat && (spill || !v.nat)) (registerNatConsumption (accessBits .write))
    let s1 ← store s false base.val n v.val.toNat false
    let s2 := if spill then
        s1.setLp { s1.lp with
          ar := { s1.lp.ar with unat := setBit s1.lp.ar.unat (field base.val 3 6).toNat v.nat } }
      else s1
    return s2.postInc r3 base inc i

/-- 42 R584: the 16-byte store. -/
def store16 (qp : BitVec 6) (r3 r2 : BitVec 7) (s : State) : Result :=
  predicated qp s do
    let base ← readGr s r3
    let v ← readGr s r2
    require (!base.nat && !v.nat) (registerNatConsumption (accessBits .write))
    store s false base.val 16 (joinHalves s.bigData 8 v.val.toNat s.lp.ar.csd.toNat) true

/-- Whether a format needs write-back memory: the 10-byte and 16-byte accesses (60 R1302). -/
def FpFormat.wbOnly (m : FpFormat) : Bool := decide (8 < m.size)

/-- 42 R585: a floating-point load. -/
def loadFp (f : LoadForm) (m : FpFormat) (qp : BitVec 6) (f1 r3 : BitVec 7) (inc : Inc) (s : State) : Result :=
  predicated qp s do
    checkFrNumber f1
    checkBase s r3 inc
    let base ← readGr s r3
    let i ← inc.value s
    checkFrEnabled s f1
    let (x, s1) ← loadForm f true f1 base m.size m.wbOnly s
    let s2 := match x with
      | .hit => s1
      | .natted => s1.setFr f1 natVal
      | .value v => s1.setFr f1 (fromMemory m v)
    return s2.postInc r3 base inc i

/-- 42 R586: a floating-point store. -/
def storeFp (m : FpFormat) (qp : BitVec 6) (r3 f2 : BitVec 7) (inc : Inc) (s : State) : Result :=
  predicated qp s do
    checkBase s r3 inc
    let base ← readGr s r3
    let i ← inc.value s
    let v ← readFr s f2
    require (!base.nat && (decide (m = .image) || decide (v ≠ natVal))) (registerNatConsumption (accessBits .write))
    let s1 ← store s true base.val m.size (toMemory m v) m.wbOnly
    return s1.postInc r3 base inc i

/-- 42 R587: a floating-point load pair of two elements of a format; the form with post-increment adds the size. The ALAT
entry of an advanced or a check form is that of `f1` (log 32, DESIGN CHOICE). -/
def loadPair (f : LoadForm) (m : FpFormat) (update : Bool) (qp : BitVec 6) (f1 f2 r3 : BitVec 7) (s : State) :
    Result :=
  predicated qp s do
    let inc := if update then Inc.imm (BitVec.ofNat 64 (2 * m.size)) else .none
    checkFrNumber f1
    checkFrNumber f2
    require (decide (f1.toNat % 2 ≠ f2.toNat % 2)) illegalOperation
    checkBase s r3 inc
    let base ← readGr s r3
    let i ← inc.value s
    checkFrEnabled s f1
    checkFrEnabled s f2
    let (x, s1) ← loadForm f true f1 base (2 * m.size) (decide (8 < 2 * m.size)) s
    let s2 := match x with
      | .hit => s1
      | .natted => (s1.setFr f1 natVal).setFr f2 natVal
      | .value v =>
        let p := halves s.bigData m.size v
        (s1.setFr f1 (fromMemory m p.1)).setFr f2 (fromMemory m p.2)
    return s2.postInc r3 base inc i

/-- 42 R588: a line prefetch; only the `.fault` forms raise what a load of one byte would. -/
def lineFetch (fault : Bool) (qp : BitVec 6) (r3 : BitVec 7) (inc : Inc) (s : State) : Result :=
  predicated qp s do
    checkBase s r3 inc
    let base ← readGr s r3
    let i ← inc.value s
    let acc := accessBits .read ||| accessBits .nonAccess
    require (!(fault && base.nat)) (registerNatConsumption acc)
    let a ← if fault then orRaise s base.val .read acc (dataAccess s .read base.val 1 false) else .ok (0, .wb)
    return (s.noteData .lfetch false base.val 1 a.2 none).postInc r3 base inc i

/-- 42 R590 to R593: a semaphore on `n` bytes that may write `m`; the old value goes to `r1`. -/
def semaphore (n m : Nat) (qp : BitVec 6) (r1 r3 : BitVec 7) (s : State) (f : Nat → Ans (Option Nat)) : Result :=
  predicated qp s do
    checkGr s r1
    let a ← readGr s r3
    let _ ← f 0
    require (!a.nat) (registerNatConsumption (accessBits .readWrite))
    let g (old : Nat) : Option Nat := match f old with
      | .ok v => v
      | .error _ => none
    let (old, s1) ← atomic s a.val n m g
    return s1.setGr r1 ⟨BitVec.ofNat 64 old, false⟩

/-- 42 R590: compare and exchange. -/
def cmpxchg (n : Nat) (qp : BitVec 6) (r1 r3 r2 : BitVec 7) (s : State) : Result :=
  semaphore n n qp r1 r3 s fun old => do
    let v ← useGr s r2 (accessBits .readWrite)
    return if old = s.lp.ar.ccv.toNat % 256 ^ n then some v.toNat else none

/-- 42 R591: exchange. -/
def xchg (n : Nat) (qp : BitVec 6) (r1 r3 r2 : BitVec 7) (s : State) : Result :=
  semaphore n n qp r1 r3 s fun _ => do
    let v ← useGr s r2 (accessBits .readWrite)
    return some v.toNat

/-- 42 R592: fetch and add. -/
def fetchadd (n : Nat) (qp : BitVec 6) (r1 r3 : BitVec 7) (inc : Int) (s : State) : Result :=
  semaphore n n qp r1 r3 s fun old => .ok (some ((((old : Int) + inc) % (256 ^ n : Nat)).toNat))

/-- 42 R593: compare 8 bytes, exchange 16. -/
def cmp8xchg16 (qp : BitVec 6) (r1 r3 r2 : BitVec 7) (s : State) : Result :=
  semaphore 8 16 qp r1 r3 s fun old => do
    let v ← useGr s r2 (accessBits .readWrite)
    return if old = s.lp.ar.ccv.toNat then some (joinHalves s.bigData 8 v.toNat s.lp.ar.csd.toNat) else none

end Sys2Proof.Machine
end

