-- ==== Sys2Proof/Machine/System.lean ====
section
/-!
DEFINITION. The shared operations of the system instructions: moves to and from application, control, processor status and
indirect registers (41 R550 to R557, 42 R606 to R612, R632 to R636), probes and translation queries (R614, R627 to R630),
translation inserts and purges (R620 to R626), fences (R599 to R602, R640), cache flushes (R605), ALAT operations and
speculation checks (R596 to R598), and the register stack control of the M unit (R603, R604, R610).
-/

namespace Sys2Proof.Machine

open Sys2Proof.Config

/-! ## Application registers (10 R76, 42 R606, R607, 41 R556, R557) -/

/-- 10 R76: the numbers of the ignored registers: a write is accepted and discarded (42 R606); that a read gives 0 is log 56. -/
def arIgnored (n : Nat) : Bool := decide ((48 ≤ n ∧ n ≤ 63) ∨ 112 ≤ n)

/-- 10 R76: the numbers that name a register or an ignored one. -/
def arExists (n : Nat) : Bool :=
  arIgnored n || n < 8 || n ∈ [16, 17, 18, 19, 21, 24, 25, 26, 27, 28, 29, 30, 32, 36, 40, 44, 45, 64, 65, 66]

/-- The unit that may name an application register: AR0 to AR63 on M, AR48 to AR127 on I. -/
def arOnUnit (iUnit : Bool) (n : Nat) : Bool := if iUnit then decide (48 ≤ n) else decide (n < 64)

/-- The value of an application register; that an ignored one reads 0 is the model's choice (log 56). -/
def arValue (s : State) (n : Nat) : Word :=
  let a := s.lp.ar
  if n < 8 then a.kr.getD n 0#64
  else match n with
    | 16 => a.rsc
    | 17 => s.lp.bsp
    | 18 => a.bspstore
    | 19 => a.rnat
    | 21 => a.fcr
    | 24 => a.eflag
    | 25 => a.csd
    | 26 => a.ssd
    | 27 => a.cflg
    | 28 => a.fsr
    | 29 => a.fir
    | 30 => a.fdr
    | 32 => a.ccv
    | 36 => a.unat
    | 40 => a.fpsr
    | 44 => s.itc
    | 45 => a.ruc
    | 64 => a.pfs
    | 65 => a.lc
    | 66 => a.ec.setWidth 64
    | _ => 0#64

/-- A read of an application register (42 R607). -/
def readAr (iUnit : Bool) (n : Nat) (s : State) : Ans Word := do
  require (arOnUnit iUnit n && arExists n) illegalOperation
  require (!(decide (n = 44 ∨ n = 45) && s.lp.psrBit 23 && decide (s.lp.cpl ≠ 0#2))) privilegedRegister
  return arValue s n

/-- 42 R606: the decode checks of a write: `AR.BSP` is read-only, `AR.BSPSTORE` and `AR.RNAT` need `AR.RSC.mode` = 0. -/
def arWritable (iUnit : Bool) (n : Nat) (s : State) : Bool :=
  arOnUnit iUnit n && arExists n && decide (n ≠ 17)
    && (decide (n ≠ 18 ∧ n ≠ 19) || decide (field s.lp.ar.rsc 0 2 = 0#64))

/-- The reserved fields of an application register that must be written 0. -/
def arReserved (n : Nat) : Word :=
  match n with
  | 16 => ~~~0x3FFF001F#64
  | 40 => 0xFC00000000000000#64
  | 64 => 0x3C0FFFC000000000#64
  | _ => 0#64

/-- The privileged writes (42 R606). -/
def arPrivileged (n : Nat) : Bool := decide (n < 8 ∨ n = 44 ∨ n = 45)

/-- `AR.RSC` with its privilege level no more privileged than the current one (log 16). -/
def rscWritten (s : State) (v : Word) : Word :=
  let pl := field v 2 2
  let cpl := s.lp.cpl.setWidth 64
  setField v 2 2 (if pl < cpl then cpl else pl)

/-- The state after a write of an application register. -/
def setArValue (s : State) (n : Nat) (v : Word) : State :=
  let a := s.lp.ar
  if n < 8 then s.setAr { a with kr := a.kr.setIfInBounds n v }
  else match n with
    | 16 => s.setAr { a with rsc := rscWritten s v }
    | 18 => s.setAr { a with bspstore := alignDown v 3 }
    | 19 => s.setAr { a with rnat := v }
    | 21 => s.setAr { a with fcr := v }
    | 24 => s.setAr { a with eflag := v }
    | 25 => s.setAr { a with csd := v }
    | 26 => s.setAr { a with ssd := v }
    | 27 => s.setAr { a with cflg := v }
    | 28 => s.setAr { a with fsr := v }
    | 29 => s.setAr { a with fir := v }
    | 30 => s.setAr { a with fdr := v }
    | 32 => s.setAr { a with ccv := v }
    | 36 => s.setAr { a with unat := v }
    | 40 => s.setAr { a with fpsr := v }
    | 44 => { s with itc := v }
    | 45 => s.setAr { a with ruc := v }
    | 64 => s.setAr { a with pfs := v }
    | 65 => s.setAr { a with lc := v }
    | 66 => s.setAr { a with ec := v.setWidth 6 }
    | _ => s

/-- A write of an application register from a source (42 R606). -/
def writeAr (iUnit : Bool) (n : Nat) (s : State) (source : Ans Word) : Ans State := do
  require (arWritable iUnit n s) illegalOperation
  let v ← source
  require (decide (v &&& arReserved n = 0#64)) reservedRegisterField
  require (!(arPrivileged n && decide (s.lp.cpl ≠ 0#2))) privilegedRegister
  return setArValue s n v

def movToAr (iUnit : Bool) (qp : BitVec 6) (ar3 r2 : BitVec 7) (s : State) : Result :=
  predicated qp s (writeAr iUnit ar3.toNat s (useGr s r2))

def movToArImm (iUnit : Bool) (qp : BitVec 6) (ar3 : BitVec 7) (imm8 : BitVec 8) (s : State) : Result :=
  predicated qp s (writeAr iUnit ar3.toNat s (.ok (simm imm8)))

def movFromAr (iUnit : Bool) (qp : BitVec 6) (r1 ar3 : BitVec 7) (s : State) : Result :=
  predicated qp s do
    checkGr s r1
    let v ← readAr iUnit ar3.toNat s
    return s.setGr r1 ⟨v, false⟩

/-! ## Branch registers, predicates, the instruction pointer (41 R550 to R555) -/

def movToBr (qp : BitVec 6) (b1 : BitVec 3) (r2 : BitVec 7) (s : State) : Result :=
  predicated qp s do
    let v ← useGr s r2
    return s.setBr b1 v

/-- A value moved to a general register. -/
def movToGr (qp : BitVec 6) (r1 : BitVec 7) (v : Word) (s : State) : Result :=
  predicated qp s do
    checkGr s r1
    return s.setGr r1 ⟨v, false⟩

/-- The physical predicates of a mask written; `p0` never is. That `mov pr.rot` writes physical predicates, as 41 R552 says of `mov pr`,
is the model's choice: R553 does not say which numbers it means (log 58, DESIGN CHOICE). -/
def State.setPrs (s : State) (mask v : Word) : State :=
  let m := mask &&& ~~~1#64
  s.setLp { s.lp with pr := (s.lp.pr &&& ~~~m) ||| (v &&& m) }

def movToPr (qp : BitVec 6) (r2 : BitVec 7) (mask : Word) (s : State) : Result :=
  predicated qp s do
    let v ← useGr s r2
    return s.setPrs mask v

def movToPrRot (qp : BitVec 6) (v : Word) (s : State) : Result :=
  predicated qp s (.ok (s.setPrs 0xFFFFFFFFFFFF0000#64 v))

/-! ## Processor status (42 R611, R612, R633 to R636) -/

/-- The processor status with the user mask given; `up` changes only while `PSR.sp` is 0. -/
def State.setUserMask (s : State) (um : Word) : State :=
  let um := if s.lp.psrBit 20 then setBit um 2 (s.lp.psrBit 2) else um
  s.setLp { s.lp with psr := setField s.lp.psr 0 6 um }

/-- 42 R633, R634: `sum` and `rum`; a bit of the immediate above bit 5 is reserved. Bit 0 raises nothing, and PSR bit 0,
which the layout reserves (10 R63), stays as it is (log 4). -/
def userMask (qp : BitVec 6) (imm24 : BitVec 24) (s : State) (f : Word → Word → Word) : Result :=
  predicated qp s do
    let m := uimm imm24
    require (decide (m &&& ~~~0x3F#64 = 0#64)) reservedRegisterField
    return s.setUserMask (f (field s.lp.psr 0 6) (m &&& ~~~1#64))

/-- 42 R635, R636: `ssm` and `rsm`; `ssm` may set no reserved bit. -/
def systemMask (set : Bool) (qp : BitVec 6) (imm24 : BitVec 24) (s : State) : Result :=
  predicated qp s do
    let m := uimm imm24
    require s.atLevel0 privilegedOperation
    require (!(set && decide (m &&& psrReserved ≠ 0#64))) reservedRegisterField
    return s.setLp { s.lp with psr := if set then s.lp.psr ||| m else s.lp.psr &&& ~~~m }

def movToPsrL (qp : BitVec 6) (r2 : BitVec 7) (s : State) : Result :=
  predicated qp s do
    checkSource s r2
    require s.atLevel0 privilegedOperation
    let v ← useGr s r2
    require (decide (field v 0 32 &&& psrReserved = 0#64)) reservedRegisterField
    return s.setLp { s.lp with psr := setField s.lp.psr 0 32 v }

def movToPsrUm (qp : BitVec 6) (r2 : BitVec 7) (s : State) : Result :=
  predicated qp s do
    let v ← useGr s r2
    require (!v.getLsbD 0) reservedRegisterField
    return s.setUserMask (field v 0 6)

/-- 42 R612: what `mov =psr` returns. -/
def psrRead (psr : Word) : Word := psr &&& 0x18FFFFFFFF#64

def movFromPsr (qp : BitVec 6) (r1 : BitVec 7) (s : State) : Result :=
  predicated qp s do
    checkGr s r1
    require s.atLevel0 privilegedOperation
    return s.setGr r1 ⟨psrRead s.lp.psr, false⟩

/-- 42 R612: what `mov =psr.um` returns: `up` reads 0 while `PSR.sp` is 1. -/
def userMaskRead (psr : Word) : Word :=
  if psr.getLsbD 20 then setBit (field psr 0 6) 2 false else field psr 0 6

/-! ## Control registers (10 R65, 42 R608, R609) -/

/-- The numbers that name a control register. -/
def crExists (n : Nat) : Bool :=
  n ∈ [0, 1, 2, 8, 16, 17, 19, 20, 21, 22, 23, 24, 25, 26, 27, 64, 65, 66, 67, 68, 69, 70, 71, 72, 73, 74, 80, 81]

/-- The value of a control register but for `IVR`; the interrupt request registers show the performance monitor's
request too (log 29). `EOI`, for which the spec gives no read value, reads 0 (log 53). -/
def crValue (s : State) (n : Nat) : Word :=
  let c := s.lp.cr
  let irr (k : Nat) : Word := (s.lp.pending >>> (64 * k)).setWidth 64
  match n with
  | 0 => c.dcr
  | 1 => c.itm
  | 2 => c.iva
  | 8 => c.pta
  | 16 => c.ipsr
  | 17 => c.isr
  | 19 => c.iip
  | 20 => c.ifa
  | 21 => c.itir
  | 22 => c.iipa
  | 23 => c.ifs
  | 24 => c.iim
  | 25 => c.iha
  | 26 => c.iib0
  | 27 => c.iib1
  | 64 => c.lid
  | 66 => c.tpr
  | 68 => irr 0
  | 69 => irr 1
  | 70 => irr 2
  | 71 => irr 3
  | 72 => c.itv
  | 73 => c.pmv
  | 74 => c.cmcv
  | 80 => c.lrr0
  | 81 => c.lrr1
  | _ => 0#64

/-- A read of a control register; `IVR` acknowledges (10 R75). -/
def readCr (s : State) (n : Nat) : Word × State := if n = 65 then readIvr s else (crValue s n, s)

/-- 42 R608: whether a write of a control register is legal: `IVR` and `IRR0` to `IRR3` are read-only, and CR16 to
CR27 need `PSR.ic` = 0. -/
def crWritable (s : State) (n : Nat) : Bool :=
  crExists n && !decide (n = 65 ∨ (68 ≤ n ∧ n ≤ 71)) && !(s.lp.ic && decide (16 ≤ n ∧ n ≤ 27))

/-- The reserved fields of a control register (10 R66, R73, R74, 60 R1303). Those of `IPSR` are of log 4, those of `LRR0` and `LRR1` of
log 7, those of `ITV`, `CMCV` and `IFS` of log 59. -/
def crReserved (n : Nat) : Word :=
  match n with
  | 0 => ~~~0x7F07#64
  | 16 => psrReserved
  | 17 => 0xFFFFF000FF000000#64
  | 23 => 0x7FFFFFC000000000#64
  | 66 | 72 | 73 | 74 => 0xFFFFFFFFFFFEFF00#64
  | 80 | 81 => 0xFFFFFFFFFFFE5800#64
  | _ => 0#64

/-- The state after a write of a control register. That the ignored bits 14:0 of `CR.IVA` and 3:0 of `CR.TPR` are not held and read 0
is the model's choice (log 56). -/
def setCrValue (s : State) (n : Nat) (v : Word) : State :=
  let c := s.lp.cr
  let put (c : CRFile) : State := s.setLp { s.lp with cr := c }
  match n with
  | 0 => put { c with dcr := v }
  | 1 => put { c with itm := v }
  | 2 => put { c with iva := alignDown v 15 }
  | 8 => put { c with pta := v }
  | 16 => put { c with ipsr := v }
  | 17 => put { c with isr := v }
  | 19 => put { c with iip := v }
  | 20 => put { c with ifa := v }
  | 21 => put { c with itir := v }
  | 22 => put { c with iipa := v }
  | 23 => put { c with ifs := v }
  | 24 => put { c with iim := v }
  | 25 => put { c with iha := v }
  | 26 => put { c with iib0 := v }
  | 27 => put { c with iib1 := v }
  | 64 => put { c with lid := v }
  | 66 => put { c with tpr := v &&& ~~~0xF#64 }
  | 67 => endOfInterrupt s
  | 72 => put { c with itv := v }
  | 73 => put { c with pmv := v }
  | 74 => put { c with cmcv := v }
  | 80 => put { c with lrr0 := v }
  | 81 => put { c with lrr1 := v }
  | _ => s

def movToCr (qp : BitVec 6) (cr3 r2 : BitVec 7) (s : State) : Result :=
  predicated qp s do
    require (crWritable s cr3.toNat) illegalOperation
    checkSource s r2
    require s.atLevel0 privilegedOperation
    let v ← useGr s r2
    require (decide (v &&& crReserved cr3.toNat = 0#64)) reservedRegisterField
    return setCrValue s cr3.toNat v

def movFromCr (qp : BitVec 6) (r1 cr3 : BitVec 7) (s : State) : Result :=
  predicated qp s do
    checkGr s r1
    require (crExists cr3.toNat) illegalOperation
    require s.atLevel0 privilegedOperation
    let (v, s1) := readCr s cr3.toNat
    return s1.setGr r1 ⟨v, false⟩

/-! ## Indirect registers (10 R62, R81 to R83, 42 R632) -/

/-- A word of the vendor string, its first character in the low byte. -/
def asciiWord (l : List Char) : Word := l.foldr (fun c w => (w <<< 8) ||| BitVec.ofNat 64 c.toNat) 0#64

/-- 10 R62: a CPUID register; `CPUID[3].number` is 4 (log 46). -/
def cpuidValue (p : Params) (i : Nat) : Word :=
  match i with
  | 0 => asciiWord ['G', 'e', 'n', 'u', 'i', 'n', 'e', 'I']
  | 1 => asciiWord ['n', 't', 'e', 'l']
  | 3 => (p.cpuidArchrev.setWidth 64 <<< 32) ||| 0x20020004#64 ||| (p.cpuidRevision.setWidth 64 <<< 8)
  | 4 => cpuidFeatures
  | _ => 0#64

/-- The indirect register files that `mov ireg=` writes. -/
inductive IndirectFile where
  | rr | dbr | ibr | pkr | pmc | pmd
deriving DecidableEq, Repr

/-- 42 R632: the index a general register gives. -/
def IndirectFile.index (k : IndirectFile) (w : Word) : Nat :=
  match k with
  | .rr => (field w 61 3).toNat
  | _ => (field w 0 8).toNat

/-- Whether an index is implemented; every index of the performance monitor is accepted (11 R121). -/
def IndirectFile.implemented (k : IndirectFile) (s : State) (i : Nat) : Bool :=
  match k with
  | .dbr => decide (i < s.lp.dbr.length)
  | .ibr => decide (i < s.lp.ibr.length)
  | .pkr => decide (i < s.lp.pkr.length)
  | _ => true

/-- 10 R81: the reserved fields of a region or protection key register: the bits the rule does not list, in which a 1 written
raises Reserved Register Field (log 55, DESIGN CHOICE). -/
def IndirectFile.reserved (k : IndirectFile) (p : Params) : Word :=
  match k with
  | .rr => ~~~(field (~~~0#64) 0 (8 + p.ridBits)) ||| 2#64
  | .pkr => ~~~(field (~~~0#64) 0 (8 + p.keyBits)) ||| 0xF0#64
  | _ => 0#64

/-- 10 R82, R83: the ignored bits of an odd breakpoint register, which read as 0 (log 55, DESIGN CHOICE). -/
def breakpointMask (ignored : Word) (i : Nat) (v : Word) : Word := if i % 2 = 1 then v &&& ~~~ignored else v

/-- A write of an indirect register. -/
def IndirectFile.write (k : IndirectFile) (s : State) (i : Nat) (v : Word) : Ans State :=
  match k with
  | .rr => .ok (s.setLp { s.lp with rr := s.lp.rr.setIfInBounds i v })
  | .dbr => .ok (s.setLp { s.lp with dbr := s.lp.dbr.set i (breakpointMask 0x3000000000000000#64 i v) })
  | .ibr => .ok (s.setLp { s.lp with ibr := s.lp.ibr.set i (breakpointMask 0x7000000000000000#64 i v) })
  | .pkr => .ok (s.setLp { s.lp with pkr := s.lp.pkr.set i v })
  | .pmc => writePmc s i v
  | .pmd => .ok (writePmd s i v)

/-- A read of an indirect register. -/
def IndirectFile.read (k : IndirectFile) (s : State) (i : Nat) : Word × State :=
  match k with
  | .rr => (s.lp.rr.getD i 0#64, s)
  | .dbr => (s.lp.dbr.getD i 0#64, s)
  | .ibr => (s.lp.ibr.getD i 0#64, s)
  | .pkr => (s.lp.pkr.getD i 0#64, s)
  | .pmc => readPmc s i
  | .pmd => readPmd s i

def movToIndirect (k : IndirectFile) (qp : BitVec 6) (r3 r2 : BitVec 7) (s : State) : Result :=
  predicated qp s do
    checkSource s r2
    checkSource s r3
    require s.atLevel0 privilegedOperation
    let v ← useGr s r2
    let a ← useGr s r3
    let i := k.index a
    require (k.implemented s i && decide (v &&& k.reserved s.params = 0#64)) reservedRegisterField
    k.write s i v

/-- A read of an unimplemented index of a breakpoint or key register raises what a write does (log 55, DESIGN CHOICE). -/
def movFromIndirect (k : IndirectFile) (qp : BitVec 6) (r1 r3 : BitVec 7) (s : State) : Result :=
  predicated qp s do
    checkGr s r1
    checkSource s r3
    require (decide (k = .pmd) || s.atLevel0) privilegedOperation
    let a ← useGr s r3
    let i := k.index a
    require (k.implemented s i) reservedRegisterField
    let (v, s1) := k.read s i
    return s1.setGr r1 ⟨v, false⟩

def movFromCpuid (qp : BitVec 6) (r1 r3 : BitVec 7) (s : State) : Result :=
  predicated qp s do
    checkGr s r1
    let a ← useGr s r3
    let i := (field a 0 8).toNat
    require (decide (i ≤ 4)) reservedRegisterField
    return s.setGr r1 ⟨cpuidValue s.params i, false⟩

/-! ## Probes and translation queries (42 R614, R627 to R630) -/

/-- The state as an access at another privilege level sees it. -/
def State.atLevel (s : State) (pl : BitVec 2) : State :=
  s.setLp { s.lp with psr := setField s.lp.psr 32 2 (pl.setWidth 64) }

/-- 42 R614: whether a probe grants an access: the access rights and the keys of the translation decide, at the privilege level
given. In physical mode it does; a miss is raised as for a load; rights or keys that deny the access, or no key register
with its key, do not grant it, and the attribute and the dirty and accessed bits of the page do not matter. For a page that
is not present, which has no rights to ask, the answer is free (log 14). -/
def probeGrant (write : Bool) (va acc : Word) (pl : BitVec 2) (s : State) : Ans Bool :=
  let kind : AccessKind := if write then .write else .read
  let t := s.atLevel pl
  let open_ : Bool :=
    if write then probeWrite (xlatContext t kind) va pl else probeRead (xlatContext t kind) va pl
  if !s.lp.psrBit 17 then .ok true
  else match translateAddr t va kind with
    | .ok _ => .ok true
    | .error .unimplemented => raise (memExc s va kind acc .unimplemented)
    | .error (.xlat f itir iha ed) =>
      match f with
      | .vhptTranslation | .tlbMiss | .altTlbMiss => raise (memExc s va kind acc (.xlat f itir iha ed))
      | .keyPermission | .accessRights | .keyMiss => .ok false
      | .dirtyBit | .accessBit => .ok true
      | .pageNotPresent => .ok open_
    | .error _ => .ok true

/-- The access bits of `CR.ISR` of a probe: a non-access for reading or writing (60 R1303). -/
def probeBits (write : Bool) : Word := accessBits .nonAccess ||| accessBits (if write then .write else .read)

/-- A probe at a privilege level (42 R614). -/
def probe (write : Bool) (qp : BitVec 6) (r1 r3 : BitVec 7) (level : Ans (BitVec 2)) (s : State) : Result :=
  predicated qp s do
    let acc := probeBits write
    checkGr s r1
    checkSource s r3
    let pl ← level
    let va ← useGr s r3 acc
    let granted ← probeGrant write va acc pl s
    return s.setGr r1 ⟨ofBool granted, false⟩

/-- The privilege level a general register gives a probe. -/
def probeLevel (write : Bool) (s : State) (r2 : BitVec 7) : Ans (BitVec 2) := do
  let v ← useGr s r2 (probeBits write)
  return v.setWidth 2

/-- A probe that raises every fault of the access at its privilege level. -/
def probeFault (kind : AccessKind) (qp : BitVec 6) (r3 : BitVec 7) (pl : BitVec 2) (s : State) : Result :=
  predicated qp s do
    let acc := accessBits .nonAccess ||| accessBits kind
    let va ← useGr s r3 acc
    let _ ← orRaise s va kind acc (dataAccess (s.atLevel pl) kind va 1 false)
    return s

/-- `thash` and `ttag`: no fault; the NaT bit follows the source (log 14). -/
def hashQuery (f : Word → Word → Word → Word) (qp : BitVec 6) (r1 r3 : BitVec 7) (s : State) : Result :=
  predicated qp s do
    checkGr s r1
    let v ← readGr s r3
    return s.setGr r1 ⟨f s.lp.cr.pta (s.lp.rr.getD (field v.val 61 3).toNat 0#64) v.val, v.nat⟩

def tpaQuery (qp : BitVec 6) (r1 r3 : BitVec 7) (s : State) : Result :=
  predicated qp s do
    checkGr s r1
    checkSource s r3
    require s.atLevel0 privilegedOperation
    let va ← useGr s r3 (accessBits .nonAccess)
    let (pa, _) ← orRaise s va .nonAccess (accessBits .nonAccess) (translateAddr s va .nonAccess)
    return s.setGr r1 ⟨BitVec.ofNat 64 pa, false⟩

/-- 42 R630: the key of a translation in bits 31:8, or 1 if none is found. An address with unimplemented bits, of which the rule says
nothing, raises no fault and has the free answer too (log 14, DESIGN CHOICE). -/
def takQuery (qp : BitVec 6) (r1 r3 : BitVec 7) (s : State) : Result :=
  predicated qp s do
    checkGr s r1
    checkSource s r3
    require s.atLevel0 privilegedOperation
    let va ← useGr s r3 (accessBits .nonAccess)
    let k := tak (xlatContext s .nonAccess) va
    return s.setGr r1 ⟨if k.getLsbD 0 then 1#64 else k &&& 0xFFFFFF00#64, false⟩

/-! ## Translation inserts and purges (42 R620 to R626) -/

/-- 20 R394, R395: the entries of each TLB, of which the translation registers that hold a translation take theirs; the
translation cache is the rest. -/
def tlbEntries : Nat := 128

/-- The region identifier of an address. -/
def State.rid (s : State) (va : Word) : Word := field (s.lp.rr.getD (field va 61 3).toNat 0#64) 8 24

/-- The entry an insert makes from `CR.IFA`, `CR.ITIR`, the region register and the general register. -/
def insertEntry (s : State) (pte : Word) : TlbEntry :=
  { va := s.lp.cr.ifa, rid := s.rid s.lp.cr.ifa, itir := s.lp.cr.itir, pte := pte }

/-- The offset of an address in its region (log 15). -/
def regionOffset (va : Word) : Nat := (va.setWidth 61).toNat

/-- The logarithm of an entry's page size, in bits 7:2 of its `CR.ITIR` (log 15). -/
def pageBits (e : TlbEntry) : Nat := (field e.itir 2 6).toNat

/-- The offset in its region at which the page of an entry begins. -/
def pageStart (e : TlbEntry) : Nat := regionOffset e.va / 2 ^ pageBits e * 2 ^ pageBits e

/-- Whether the page of an entry overlaps the `n` bytes from an offset of a region (42 R620, R625; log 15). -/
def pageOverlaps (e : TlbEntry) (rid : Word) (lo n : Nat) : Bool :=
  decide (e.rid = rid ∧ pageStart e < lo + n ∧ lo < pageStart e + 2 ^ pageBits e)

/-- 20 R394, R395: the page sizes of the TLBs, 4 KB to 4 GB; another size in `CR.ITIR` is a reserved value. Every power of two
between them is accepted (log 15, DESIGN CHOICE). -/
def pageSizeOk (e : TlbEntry) : Bool := decide (12 ≤ pageBits e ∧ pageBits e ≤ 32)

/-- Whether an entry overlaps a new one. -/
def overlapsEntry (e n : TlbEntry) : Bool := pageOverlaps e n.rid (pageStart n) (2 ^ pageBits n)

/-- How many entries the translation cache has beside a list of translation registers. -/
def tcCapacity (regs : List (Option TlbEntry)) : Nat := tlbEntries - regs.countP Option.isSome

/-- A translation cache cut down to a number of entries; which one goes is free (log 15). -/
def tcFit (n cap : Nat) (l : List TlbEntry) : List TlbEntry :=
  if l.length ≤ cap then l else (l.eraseIdx (tcVictim n % l.length)).take cap

/-- A translation cache with an entry inserted: overlapping entries go, and a full cache loses one of its entries. A translation
register that overlaps the new entry stays, since 92 D26 takes the machine check of 42 R620 away (log 15, DESIGN CHOICE). -/
def tcInsert (n cap : Nat) (l : List TlbEntry) (e : TlbEntry) : List TlbEntry :=
  e :: tcFit n (cap - 1) (l.filter fun x => !overlapsEntry x e)

/-- 42 R620, R621: an insert into a translation cache; it needs `PSR.ic` = 0 (log 15). -/
def itcInsert (instr : Bool) (qp : BitVec 6) (r2 : BitVec 7) (s : State) : Result :=
  predicated qp s do
    require (!s.lp.ic) illegalOperation
    checkSource s r2
    require s.atLevel0 privilegedOperation
    let v ← useGr s r2
    let e := insertEntry s v
    require (pageSizeOk e) reservedRegisterField
    return if instr then { s with itcache := tcInsert s.free (tcCapacity s.itr) s.itcache e, free := s.free + 1 }
      else { s with dtc := tcInsert s.free (tcCapacity s.dtr) s.dtc e, free := s.free + 1 }

/-- 42 R622, R623: an insert into a translation register, which takes an entry of the TLB. Entries of the translation cache and
other translation registers that overlap the new one stay (log 15, DESIGN CHOICE). -/
def itrInsert (instr : Bool) (qp : BitVec 6) (r3 r2 : BitVec 7) (s : State) : Result :=
  predicated qp s do
    require (!s.lp.ic) illegalOperation
    checkSource s r2
    checkSource s r3
    require s.atLevel0 privilegedOperation
    let v ← useGr s r2
    let a ← useGr s r3
    let i := (field a 0 8).toNat
    let e := insertEntry s v
    require (decide (i < (if instr then s.itr else s.dtr).length) && pageSizeOk e) reservedRegisterField
    let itr := s.itr.set i (some e)
    let dtr := s.dtr.set i (some e)
    return if instr then
        { s with itr := itr, itcache := tcFit s.free (tcCapacity itr) s.itcache, free := s.free + 1 }
      else { s with dtr := dtr, dtc := tcFit s.free (tcCapacity dtr) s.dtc, free := s.free + 1 }

/-- 42 R625: whether a purge of the range at `va` of the size in bits 7:2 of `size` removes an entry. A size that is no page
size of the TLBs raises nothing (log 15, DESIGN CHOICE). -/
def purged (s : State) (va size : Word) (e : TlbEntry) : Bool :=
  pageOverlaps e (s.rid va) (regionOffset va) (2 ^ (field size 2 6).toNat)

/-- 42 R625: `ptc.l`, `ptc.g`: both translation caches of this core, which its threads share. A translation register in the range
stays, as for an insert (log 15, DESIGN CHOICE). -/
def purgeCaches (qp : BitVec 6) (r3 r2 : BitVec 7) (s : State) : Result :=
  predicated qp s do
    checkSource s r3
    checkSource s r2
    require s.atLevel0 privilegedOperation
    let a ← useGr s r3
    let z ← useGr s r2
    return { s with
      dtc := s.dtc.filter fun e => !purged s a z e, itcache := s.itcache.filter fun e => !purged s a z e }

/-- 42 R625: `ptc.ga`: the translation caches, and the matching ALAT entries of the other logical processor. -/
def purgeCachesAlat (qp : BitVec 6) (r3 r2 : BitVec 7) (s : State) : Result :=
  predicated qp s do
    checkSource s r3
    checkSource s r2
    require s.atLevel0 privilegedOperation
    let a ← useGr s r3
    let z ← useGr s r2
    return { s with
      dtc := s.dtc.filter fun e => !purged s a z e, itcache := s.itcache.filter fun e => !purged s a z e
      bg := { s.bg with
        alat := s.bg.alat.filter fun e => !alatPurged e.pa e.size a (field z 2 6).toNat (s.rid a) } }

/-- Translation registers without the purged ones. -/
def purgeRegs (s : State) (va size : Word) (l : List (Option TlbEntry)) : List (Option TlbEntry) :=
  l.map fun o => o.filter fun e => !purged s va size e

/-- 42 R625: `ptr.d`, `ptr.i`: the translation registers and the cache of one kind. -/
def purgeRegisters (instr : Bool) (qp : BitVec 6) (r3 r2 : BitVec 7) (s : State) : Result :=
  predicated qp s do
    checkSource s r3
    checkSource s r2
    require s.atLevel0 privilegedOperation
    let a ← useGr s r3
    let z ← useGr s r2
    return if instr then
        { s with itr := purgeRegs s a z s.itr, itcache := s.itcache.filter fun e => !purged s a z e }
      else { s with dtr := purgeRegs s a z s.dtr, dtc := s.dtc.filter fun e => !purged s a z e }

/-- 42 R625: `ptc.e`: an implementation-defined part of the translation caches. -/
def purgePartial (qp : BitVec 6) (r3 : BitVec 7) (s : State) : Result :=
  predicated qp s do
    checkSource s r3
    require s.atLevel0 privilegedOperation
    let a ← useGr s r3
    return { s with
      dtc := s.dtc.filter fun e => !purgePart e a, itcache := s.itcache.filter fun e => !purgePart e a }

/-! ## Fences, cache flush, ALAT, checks (42 R596 to R605, R640) -/

/-- An instruction without effect on the state of the model. -/
def noEffect (qp : BitVec 6) (s : State) : Result := predicated qp s (.ok s)

/-- 42 R640, 47 R1006: `srlz.i` is counted. -/
def serializeInstr (qp : BitVec 6) (s : State) : Result :=
  predicated qp s (.ok (s.setLp { s.lp with ev := { s.lp.ev with serialize := true } }))

/-- 42 R605: `fc`, `fc.i`: the faults of a translation, no effect on the state. -/
def flushLine (qp : BitVec 6) (r3 : BitVec 7) (s : State) : Result :=
  predicated qp s do
    let acc := accessBits .nonAccess ||| accessBits .read
    let va ← useGr s r3 acc
    let _ ← orRaise s va .read acc (translateAddr s va .read)
    return s

def invalidateAlat (qp : BitVec 6) (s : State) : Result := predicated qp s (.ok (s.setLp { s.lp with alat := [] }))

def invalidateEntry (fp : Bool) (qp : BitVec 6) (r : BitVec 7) (s : State) : Result :=
  predicated qp s (.ok (s.removeAlat fp r))

/-- A check that branches to recovery code when it fails (log 44). -/
def checked (s : State) (failed : Bool) (target : Word) : State × Ending :=
  if failed then (s.noteFlow .check true target, { target := some target }) else (s, {})

/-- 41 R549, 42 R596: `chk.s` of a general register. -/
def chkS (qp : BitVec 6) (r2 : BitVec 7) (t : BitVec 21) (s : State) : Result :=
  predicatedEnd qp s do
    let v ← readGr s r2
    return checked (s.noteCheck false false false false v.nat) v.nat (ipTarget s.lp.ip t)

/-- 42 R596: `chk.s` of a floating-point register. -/
def chkSFp (qp : BitVec 6) (f2 : BitVec 7) (t : BitVec 21) (s : State) : Result :=
  predicatedEnd qp s do
    let v ← readFr s f2
    let failed := decide (v = natVal)
    return checked (s.noteCheck false false true false failed) failed (ipTarget s.lp.ip t)

/-- 42 R597: `chk.a`: an entry found, or a branch. -/
def chkA (fp clear : Bool) (qp : BitVec 6) (r : BitVec 7) (t : BitVec 21) (s : State) : Result :=
  predicatedEnd qp s (
    let (hit, s1) := checkAlat s fp r
    let s2 := s1.noteCheck true false fp clear (!hit)
    .ok (checked (if hit && clear then s2.removeAlat fp r else s2) (!hit) (ipTarget s.lp.ip t)))

/-! ## Break, nop, hint (41 R548, R560, 42 R613, R645, 43 R675, R668, R685, R690, R692, R693) -/

def breakOp (qp : BitVec 6) (imm : Word) (wide : Bool) (s : State) : Result :=
  predicated qp s (raise (breakInstruction imm)) wide

/-- A no-operation, which is counted (45 R825). -/
def nopOp (qp : BitVec 6) (wide : Bool) (s : State) : Result :=
  predicated qp s (.ok (s.setLp { s.lp with ev := { s.lp.ev with nop := true } })) wide

/-- 30 R465: a hint of the M, I, F or X unit: immediate 0 is `@pause`, any other a no-operation. -/
def hintOp (qp : BitVec 6) (pause : Bool) (wide : Bool) (s : State) : Result :=
  predicated qp s (.ok (s.setLp { s.lp with ev := { s.lp.ev with nop := true, pause := pause } })) wide

/-! ## The register stack (42 R603, R604, R610) -/

/-- The record of a register stack operation (47 R1067). -/
def State.noteRse (s : State) : State :=
  s.setLp { s.lp with ev := { s.lp.ev with rseOp := some (s.lp.sof, s.lp.gr.ndirty) } }

/-- 42 R603: every dirty register stored. The qualifying predicate is ignored (30 R456, log 52). -/
def flushStack (s : State) : Result :=
  unpredicated s ((spillN s.lp.gr.ndirty s.noteRse).map fun t => (t, {}))

/-- 42 R604: the backing store from `AR.BSP` down by `AR.RSC.loadrs` bytes, as whole registers (log 16), in the register
file, the rest given up. The qualifying predicate is ignored (30 R456, log 52). -/
def loadStack (s : State) : Result :=
  unpredicated s (do
    require (decide (s.lp.sof = 0)) illegalOperation
    let bytes := (alignDown (field s.lp.ar.rsc 16 14) 3).toNat
    let s1 := s.noteRse
    let t ← if bytes < s.lp.bytesBelow s.lp.bsp then .ok (dropBelow s.lp.bsp bytes s.lp.gr.ndirty s1)
      else fillDownTo s.lp.bsp bytes (96 - s.lp.gr.ndirty) s1
    return (t, {}))

/-- 42 R610: `alloc`. The destination is checked in the new frame (log 16). The rule says that `qp` must be 0 and not what another one
does: it raises Illegal Operation (log 56, DESIGN CHOICE). -/
def allocFrame (qp : BitVec 6) (r1 : BitVec 7) (sof sol sor : Nat) (s : State) : Result :=
  finish s (do
    let lp := s.lp
    require (decide (qp = 0#6 ∧ sof ≤ 96 ∧ sol ≤ sof ∧ 8 * sor ≤ sof)) illegalOperation
    require (decide (sor = lp.sor ∨ (lp.rrbGr = 0 ∧ lp.rrbFr = 0 ∧ lp.rrbPr = 0))) illegalOperation
    let cfm := mkCfm sof sol sor lp.rrbGr lp.rrbFr lp.rrbPr
    checkGr (s.setLp { lp with cfm := cfm }) r1
    let s1 ← makeRoom sof s.noteRse
    let s2 := (s1.setLp { s1.lp with cfm := cfm }).setGr r1 ⟨lp.ar.pfs, false⟩
    return retire s s2 {})

end Sys2Proof.Machine
end

