-- ==== Sys2Proof/Machine/Branch.lean ====
section
/-!
DEFINITION. The shared operations of the branches, of the register frame and of the B-unit system instructions (43 R661 to
R674, R694).
-/

namespace Sys2Proof.Machine

open Sys2Proof.Config

/-- A branch that is not taken retires and is recorded (43 R661). -/
def notTaken (s : State) (k : FlowKind) (target : Word) (wide : Bool) : State :=
  let s1 := s.noteFlow k false target
  retire s (s1.setLp { s1.lp with ev := { s1.lp.ev with squashed := true } }) { wide := wide }

/-- A predicated branch with an effect on the state besides the transfer. -/
def branchWith (k : FlowKind) (wide : Bool) (qp : BitVec 6) (target : Word) (s : State) (body : Ans (State × Bool)) :
    Result :=
  if s.lp.readPr qp then
    finish s (body.map fun p =>
      retire s (p.1.noteFlow k true target) { target := some target, wide := wide, lowered := p.2 })
  else .next (notTaken s k target wide)

/-- 43 R662, R666, R694: `br.cond`, `brl.cond`. -/
def branchCond (k : FlowKind) (wide : Bool) (qp : BitVec 6) (target : Word) (s : State) : Result :=
  branchWith k wide qp target s (.ok (s, false))

/-! ## Modulo-scheduled loops (43 R663, R664) -/

/-- The rename bases after one rotation. -/
def rotate (lp : LP) : BitVec 38 :=
  let gr := if lp.sor = 0 then lp.rrbGr else (lp.rrbGr + 8 * lp.sor - 1) % (8 * lp.sor)
  mkCfm lp.sof lp.sol lp.sor gr ((lp.rrbFr + 95) % 96) ((lp.rrbPr + 47) % 48)

/-- A state rotated, with the predicate that is number 63 after the rotation written. -/
def State.rotated (s : State) (p63 : Bool) : State :=
  let lp := { s.lp with cfm := rotate s.lp }
  s.setLp (lp.setPr 63#6 p63)

/-- `AR.EC` replaced. -/
def State.setEc (s : State) (e : BitVec 6) : State := s.setAr { s.lp.ar with ec := e }
/-- `AR.LC` replaced. -/
def State.setLc (s : State) (l : Word) : State := s.setAr { s.lp.ar with lc := l }

/-- The epilog of a modulo-scheduled loop: the state, and whether the loop goes on. -/
def epilog (s : State) : State × Bool :=
  let ec := s.lp.ar.ec
  if 1#6 < ec then ((s.setEc (ec - 1#6)).rotated false, true)
  else if ec = 1#6 then ((s.setEc 0#6).rotated false, false)
  else (s.setLp (s.lp.setPr 63#6 false), false)

/-- The end of a loop branch: it is taken or it falls through. -/
def loopEnd (s s' : State) (taken : Bool) (target : Word) : State :=
  retire s (s'.noteFlow .ipRelative taken target) { target := if taken then some target else none }

/-- 43 R663: `br.wtop` (taken while the loop goes on) and `br.wexit` (taken when it ends). That one outside slot 2, where it "must
be", is illegal is the model's choice (log 56). -/
def branchWhile (exit : Bool) (qp : BitVec 6) (target : Word) (s : State) : Result :=
  finish s (do
    require (decide (s.lp.ri = 2#2)) illegalOperation
    let (s', go) := if s.lp.readPr qp then (s.rotated false, true) else epilog s
    return loopEnd s s' (go != exit) target)

/-- 43 R664: `br.ctop` and `br.cexit`. That one outside slot 2 or with a `qp` other than 0 is illegal is the model's choice
(log 56). -/
def branchCounted (exit : Bool) (qp : BitVec 6) (target : Word) (s : State) : Result :=
  finish s (do
    require (decide (s.lp.ri = 2#2 ∧ qp = 0#6)) illegalOperation
    let lc := s.lp.ar.lc
    let (s', go) := if lc ≠ 0#64 then ((s.setLc (lc - 1#64)).rotated true, true) else epilog s
    return loopEnd s s' (go != exit) target)

/-- 43 R664: `br.cloop`, under the same choice for its slot and its `qp` (log 56). -/
def branchCloop (qp : BitVec 6) (target : Word) (s : State) : Result :=
  finish s (do
    require (decide (s.lp.ri = 2#2 ∧ qp = 0#6)) illegalOperation
    let lc := s.lp.ar.lc
    return if lc = 0#64 then loopEnd s s false target else loopEnd s (s.setLc (lc - 1#64)) true target)

/-! ## Calls, returns and the register frame (43 R665, R666, R669, R670) -/

/-- `AR.PFS` as a call saves it. -/
def pfsOf (lp : LP) : Word :=
  (lp.cfm.setWidth 64) ||| (lp.ar.ec.setWidth 64 <<< 52) ||| (lp.cpl.setWidth 64 <<< 62)

/-- The frame of a callee: the outputs of the caller, nothing rotating. -/
def enterFrame (s : State) : State :=
  let s1 := pushFrame s.lp.sol s
  s1.setLp { s1.lp with cfm := mkCfm (s.lp.sof - s.lp.sol) 0 0 0 0 0, ar := { s1.lp.ar with pfs := pfsOf s.lp } }

/-- 43 R665, R694: `br.call`, `brl.call`. -/
def branchCall (k : FlowKind) (wide : Bool) (qp : BitVec 6) (b1 : BitVec 3) (target : Word) (s : State) : Result :=
  branchWith k wide qp target s (.ok ((enterFrame s.noteRse).setBr b1 (s.lp.ip + 16#64), false))

/-- 43 R666: `br.ret`. The frame of `AR.PFS` is restored; the privilege level can only fall. -/
def branchRet (qp : BitVec 6) (b2 : BitVec 3) (s : State) : Result :=
  branchWith .ret false qp (s.lp.br? b2) s do
    let pfs := s.lp.ar.pfs
    let cfm : BitVec 38 := pfs.setWidth 38
    let ppl : BitVec 2 := (pfs >>> 62).setWidth 2
    let s1 ← popFrame ({ s.lp with cfm := cfm } : LP).sol ({ s.lp with cfm := cfm } : LP).sof s.noteRse
    let s2 := (s1.setLp { s1.lp with cfm := cfm }).setEc ((pfs >>> 52).setWidth 6)
    return if s.lp.cpl < ppl then (s2.atLevel ppl, true) else (s2, false)

/-- 43 R666, 92 D17: `br.ia`. One that is predicated off is a branch not taken (43 R661). -/
def branchIa (qp : BitVec 6) (b2 : BitVec 3) (s : State) : Result :=
  branchWith .indirect false qp (s.lp.br? b2) s (raise disabledInstructionSet)

/-- 43 R669: `cover`. -/
def coverFrame (s : State) : State :=
  let s0 := s.noteRse
  let s1 := pushFrame s.lp.sof s0
  s1.setLp { s1.lp with
    cfm := 0#38
    cr := if s.lp.ic then s1.lp.cr else { s1.lp.cr with ifs := (1#64 <<< 63) ||| s.lp.cfm.setWidth 64 } }

/-- An instruction that is not predicated and falls through. -/
def always (s : State) (body : Ans State) : Result := unpredicated s (body.map fun s' => (s', {}))

/-- 43 R670: `clrrrb`, `clrrrb.pr`. -/
def clearRename (all : Bool) (s : State) : State :=
  let lp := s.lp
  s.setLp { lp with
    cfm := if all then mkCfm lp.sof lp.sol lp.sor 0 0 0 else mkCfm lp.sof lp.sol lp.sor lp.rrbGr lp.rrbFr 0 }

/-! ## Return from interruption, banks, privilege (43 R671 to R674) -/

/-- 43 R671: the register frame that `CR.IFS` saved, if it is valid. -/
def restoreFrame (s : State) : Ans State :=
  let ifs := s.lp.cr.ifs
  if ifs.getLsbD 63 then do
    let cfm : BitVec 38 := ifs.setWidth 38
    let sof := ({ s.lp with cfm := cfm } : LP).sof
    let s1 ← popFrame sof sof s.noteRse
    return s1.setLp { s1.lp with cfm := cfm }
  else .ok s

/-- 43 R671: `rfi`. It ends without a trap but for an unimplemented address. The loads of the register stack engine are made
under the processor status of the handler, before `CR.IPSR` is restored (log 16, DESIGN CHOICE). -/
def returnFromInterruption (s : State) : Result :=
  finish s (do
    require s.atLevel0 privilegedOperation
    require (ipsrValid s.lp.cr.ipsr) reservedRegisterField
    let s1 ← restoreFrame s
    let t := (restoreContext s1).noteFlow .rfi true (alignDown s.lp.cr.iip 4)
    return if unimplementedIp t t.lp.ip then deliver { offset := 0x5E00, isr := 0x10#64 } s.lp.ri t else t)

/-- 43 R672: `bsw`. -/
def bankSwitch (one : Bool) (s : State) : Result :=
  always s do
    require s.atLevel0 privilegedOperation
    return s.setLp (s.lp.setPsrBit 44 one)

/-- 43 R673: `epc`. With instruction translation on, the page decides (log 14). -/
def enterPrivileged (s : State) : Result :=
  always s do
    let ppl : BitVec 2 := (s.lp.ar.pfs >>> 62).setWidth 2
    require (!decide (ppl < s.lp.cpl)) illegalOperation
    return if !s.lp.psrBit 36 then s.atLevel 0#2
      else match epcLevel (xlatContext s .fetch) s.lp.ip with
        | some l => if l < s.lp.cpl then s.atLevel l else s
        | none => s

/-- 43 R674, 92 D23: `vmsw` without virtualization. It is illegal at every privilege level, since the illegal operation comes before
the privileged one (60 R1307). -/
def switchVirtual (qp : BitVec 6) (s : State) : Result := predicated qp s (raise illegalOperation)

end Sys2Proof.Machine
end

