-- ==== Sys2Proof/Machine/ExecBranch.lean ====
section
/-!
DEFINITION. The meanings of the B-type instructions (43 R661 to R675), one definition per row of the opcode
table.
-/

namespace Sys2Proof.Machine

open Sys2Proof.Config

/-- 43 R662: `br.cond_target25`. -/
def execBrCondTarget25 (o : OpB1) (s : State) : Result :=
  branchCond .ipRelative false o.qp (ipTarget s.lp.ip o.target25) s

/-- 43 R663: `br.wexit_target25`. -/
def execBrWexitTarget25 (o : OpB1) (s : State) : Result := branchWhile true o.qp (ipTarget s.lp.ip o.target25) s

/-- 43 R663: `br.wtop_target25`. -/
def execBrWtopTarget25 (o : OpB1) (s : State) : Result := branchWhile false o.qp (ipTarget s.lp.ip o.target25) s

/-- 43 R664: `br.cloop_target25`. -/
def execBrCloopTarget25 (o : OpB1) (s : State) : Result := branchCloop o.qp (ipTarget s.lp.ip o.target25) s

/-- 43 R664: `br.cexit_target25`. -/
def execBrCexitTarget25 (o : OpB1) (s : State) : Result := branchCounted true o.qp (ipTarget s.lp.ip o.target25) s

/-- 43 R664: `br.ctop_target25`. -/
def execBrCtopTarget25 (o : OpB1) (s : State) : Result := branchCounted false o.qp (ipTarget s.lp.ip o.target25) s

/-- 43 R665: `br.call_b1_target25`. -/
def execBrCallB1Target25 (o : OpB3) (s : State) : Result :=
  branchCall .ipRelative false o.qp o.b1 (ipTarget s.lp.ip o.target25) s

/-- 43 R666: `br.cond_b2`. -/
def execBrCondB2 (o : OpB4) (s : State) : Result := branchCond .indirect false o.qp (s.lp.br? o.b2) s

/-- 43 R666: `br.ia_b2`. -/
def execBrIaB2 (o : OpB4) (s : State) : Result := branchIa o.qp o.b2 s

/-- 43 R666: `br.ret_b2`. -/
def execBrRetB2 (o : OpB4) (s : State) : Result := branchRet o.qp o.b2 s

/-- 43 R665: `br.call_b1_b2`. -/
def execBrCallB1B2 (o : OpB5) (s : State) : Result := branchCall .indirect false o.qp o.b1 (s.lp.br? o.b2) s

/-- 43 R667: `brp_target25_tag13`. -/
def execBrpTarget25Tag13 (s : State) : Result := always s (.ok s)

/-- 43 R667: `brp_b2_tag13`. -/
def execBrpB2Tag13 (s : State) : Result := always s (.ok s)

/-- 43 R667: `brp.ret_b2_tag13`. -/
def execBrpRetB2Tag13 (s : State) : Result := always s (.ok s)

/-- 43 R669: `cover`. -/
def execCover (s : State) : Result := always s (.ok (coverFrame s))

/-- 43 R670: `clrrrb`. -/
def execClrrrb (s : State) : Result := always s (.ok (clearRename true s))

/-- 43 R670: `clrrrb.pr`. -/
def execClrrrbPr (s : State) : Result := always s (.ok (clearRename false s))

/-- 43 R671: `rfi`. -/
def execRfi (s : State) : Result := returnFromInterruption s

/-- 43 R672: `bsw.0`. -/
def execBsw0 (s : State) : Result := bankSwitch false s

/-- 43 R672: `bsw.1`. -/
def execBsw1 (s : State) : Result := bankSwitch true s

/-- 43 R673: `epc`. -/
def execEpc (s : State) : Result := enterPrivileged s

/-- 43 R674: `vmsw.0`. -/
def execVmsw0 (o : OpM24) (s : State) : Result := switchVirtual o.qp s

/-- 43 R674: `vmsw.1`. -/
def execVmsw1 (o : OpM24) (s : State) : Result := switchVirtual o.qp s

/-- 43 R675: `break.b`. -/
def execBreakB (o : OpI19) (s : State) : Result := breakOp o.qp 0#64 false s

/-- 43 R668: `nop.b`. -/
def execNopB (o : OpI19) (s : State) : Result := nopOp o.qp false s

/-- 43 R668: `hint.b`. -/
def execHintB (o : OpI19) (s : State) : Result := nopOp o.qp false s

end Sys2Proof.Machine
end

