-- ==== Sys2Proof/Machine/Float.lean ====
section
/-!
DEFINITION. The shared operations of the floating-point instructions (42 R594, R595; 43 R680 to R689). Rounding operations
are the free function `fpOp` (92 D22); the operations that move bits are defined.
-/

namespace Sys2Proof.Machine

open Sys2Proof.Config

/-- The weight of a floating-point operation recorded for the performance monitor (45 R816). -/
def State.noteFpOps (s : State) (n : Nat) : State := s.setLp { s.lp with ev := { s.lp.ev with fpOps := n } }

/-- An operand list read in order, after the destination is checked. -/
def readFr3 (s : State) (f1 a b c : BitVec 7) : Ans (FReg × FReg × FReg) := do
  checkFr s f1
  let x ← readFr s a
  let y ← readFr s b
  let z ← readFr s c
  return (x, y, z)

/-- 43 R680: an operation of three operands; a NaTVal operand gives NaTVal and no flag. -/
def fpArith (op : FpOp) (prec : FpPrec) (weight : Nat) (sf : BitVec 2) (qp : BitVec 6) (f1 a b c : BitVec 7)
    (s : State) : Result :=
  predicatedEnd qp s do
    let (x, y, z) ← readFr3 s f1 a b c
    let s0 := s.noteFpOps weight
    if x = natVal ∨ y = natVal ∨ z = natVal then return (s0.setFr f1 natVal, {})
    else do
      let r := fpOp op prec sf s.lp.ar.fpsr x y z
      let (s1, trap) ← recordFlags s0 sf r.flags
      return (s1.setFr f1 r.value, { fpTrap := trap })

/-- 45 R816: the weight of a scalar multiply-add: 1 for a multiply or an add. -/
def fmaWeight (o : OpF1) : Nat := if o.f2 = 0#7 ∨ o.f4 = 1#7 then 1 else 2
/-- 45 R816: the weight of a parallel multiply-add: 2 for a multiply. -/
def fpmaWeight (o : OpF1) : Nat := if o.f2 = 0#7 then 2 else 4

/-- 43 R681: a multiply-add. -/
def fusedOp (op : FpOp) (prec : FpPrec) (weight : Nat) (o : OpF1) (s : State) : Result :=
  fpArith op prec weight o.sf o.qp o.f1 o.f3 o.f4 o.f2 s

/-- 43 R686: an operation of two operands. -/
def fpArith2 (op : FpOp) (weight : Nat) (o : OpF8) (s : State) : Result :=
  fpArith op .dynamic weight o.sf o.qp o.f1 o.f2 o.f3 0#7 s

/-- 43 R688: a conversion. -/
def fpConvert (op : FpOp) (weight : Nat) (o : OpF10) (s : State) : Result :=
  fpArith op .dynamic weight o.sf o.qp o.f1 o.f2 0#7 0#7 s

/-- 43 R682: the significand arithmetic of the forms of `xma`. -/
def xmaValue (form : XmaForm) (a b c : Word) : Word :=
  match form with
  | .low => a * b + c
  | .highUnsigned => BitVec.ofNat 64 ((a.toNat * b.toNat + c.toNat) / 2 ^ 64)
  | .high =>
    BitVec.ofInt 64 ((a.toInt * b.toInt + (if xmaAddendSigned then c.toInt else (c.toNat : Int))) / 2 ^ 64)

/-- A register written with a value of its operands; a NaTVal operand gives NaTVal. -/
def fpMove3 (qp : BitVec 6) (f1 a b c : BitVec 7) (f : FReg → FReg → FReg → FReg) (s : State) : Result :=
  predicated qp s do
    let (x, y, z) ← readFr3 s f1 a b c
    return s.setFr f1 (if x = natVal ∨ y = natVal ∨ z = natVal then natVal else f x y z)

/-- The same for two operands (43 R687). -/
def fpMove (o : OpF9) (f : FReg → FReg → FReg) (s : State) : Result :=
  fpMove3 o.qp o.f1 o.f2 o.f3 0#7 (fun x y _ => f x y) s

/-- A significand as an integer register value (43 R682). -/
def sigFr (w : Word) : FReg := mkFr false intExp w

/-- 43 R682: `xma`, in the form its undetermined field selects (log 19). -/
def xmaOp (o : OpF2) (s : State) : Result :=
  fpMove3 o.qp o.f1 o.f3 o.f4 o.f2 (fun x y z => sigFr (xmaValue (xmaForm o.x2) (frSig x) (frSig y) (frSig z))) s

/-- 43 R682: `fselect`; the sign 0 and the exponent 0x1003E of its result are the model's choice (log 19). -/
def fselectOp (o : OpF3) (s : State) : Result :=
  fpMove3 o.qp o.f1 o.f3 o.f4 o.f2
    (fun x y z => sigFr ((frSig x &&& frSig z) ||| (frSig y &&& ~~~frSig z))) s

/-! ## Merges and permutations (43 R687; the element orders are the family's, log 19) -/

/-- The left and the right single of a significand. -/
def leftHalf (f : FReg) : Word := field (frSig f) 32 32
def rightHalf (f : FReg) : Word := field (frSig f) 0 32
/-- A register of two singles; that the permutations which build one write the sign 0 and the exponent 0x1003E is the model's choice
(log 19). -/
def pairFr (l r : Word) : FReg := sigFr ((l <<< 32) ||| field r 0 32)
/-- The sign of a single turned round. -/
def flipSign (w : Word) : Word := w ^^^ 0x80000000#64

def fmergeS (x y : FReg) : FReg := mkFr (frSign x) (frExp y) (frSig y)
def fmergeNs (x y : FReg) : FReg := mkFr (!frSign x) (frExp y) (frSig y)
def fmergeSe (x y : FReg) : FReg := mkFr (frSign x) (frExp x) (frSig y)
/-- The bits of `m` of both singles from `x`, the rest from `y`; sign 0 and exponent 0x1003E are the model's choice (log 19). -/
def fpmergeBits (m : Word) (x y : Word) : FReg := sigFr ((x &&& m) ||| (y &&& ~~~m))
def fpmergeS (x y : FReg) : FReg := fpmergeBits 0x8000000080000000#64 (frSig x) (frSig y)
def fpmergeNs (x y : FReg) : FReg := fpmergeBits 0x8000000080000000#64 (~~~frSig x) (frSig y)
def fpmergeSe (x y : FReg) : FReg := fpmergeBits 0xFF800000FF800000#64 (frSig x) (frSig y)
def fmixL (x y : FReg) : FReg := pairFr (leftHalf x) (leftHalf y)
def fmixR (x y : FReg) : FReg := pairFr (rightHalf x) (rightHalf y)
def fmixLr (x y : FReg) : FReg := pairFr (leftHalf x) (rightHalf y)
/-- The sign of a single as a mask, which `fsxt` puts in the left single (log 19, PRESUMED). -/
def signMask (w : Word) : Word := if w.getLsbD 31 then 0xFFFFFFFF#64 else 0#64
def fsxtL (x y : FReg) : FReg := pairFr (signMask (leftHalf x)) (leftHalf y)
def fsxtR (x y : FReg) : FReg := pairFr (signMask (rightHalf x)) (rightHalf y)
/-- The swap of the singles. What `fswap.nl` and `fswap.nr` compute beyond their names, the negated sign of the left and of the right
single of the result, is the family's (log 19, PRESUMED). -/
def fswapPlain (x y : FReg) : FReg := pairFr (rightHalf y) (leftHalf x)
def fswapNl (x y : FReg) : FReg := pairFr (flipSign (rightHalf y)) (leftHalf x)
def fswapNr (x y : FReg) : FReg := pairFr (rightHalf y) (flipSign (leftHalf x))
/-- Each operand narrowed to a single as a store does. -/
def fpackPair (x y : FReg) : FReg :=
  pairFr (BitVec.ofNat 64 (toMemory .single x)) (BitVec.ofNat 64 (toMemory .single y))
/-- A bitwise operation on significands. -/
def fpLogic (g : Word → Word → Word) (x y : FReg) : FReg := sigFr (g (frSig x) (frSig y))

/-- 43 R688: `fcvt.xf`: the signed significand as a sign and a magnitude. -/
def fcvtXf (x : FReg) : FReg :=
  if (frSig x).getLsbD 63 then mkFr true intExp (-(frSig x)) else mkFr false intExp (frSig x)

/-! ## Compares and approximations (43 R683, R684) -/

/-- 43 R683: a compare with flags; a NaTVal operand clears both predicates. -/
def fpCompareOp (o : OpF4) (s : State) : Result :=
  let ct : CType := if typeUnc o.ta then .unc else .none
  if s.lp.readPr o.qp then
    finish s (do
      require (decide (o.p1 ≠ o.p2)) illegalOperation
      let x ← readFr s o.f2
      let y ← readFr s o.f3
      let s0 := s.noteFpOps 1
      if x = natVal ∨ y = natVal then return retire s (writeCompare .none s0 o.p1 o.p2 false true) {}
      else do
        let r := fpCompare (fcmpRel o.ra o.rb) o.sf s.lp.ar.fpsr x y
        let (s1, trap) ← recordFlags s0 o.sf r.2
        return retire s (writeCompare .none s1 o.p1 o.p2 r.1 false) { fpTrap := trap })
  else compare ct o.qp o.p1 o.p2 s (.ok (false, false, s))

/-- 43 R683: `fclass`; the class is a field the spec gives no place, so the answer is free (log 19). A NaTVal operand clears
both predicates (43 R680). -/
def fclassOp (o : OpF5) (s : State) : Result :=
  compare (if typeUnc o.ta then .unc else .none) o.qp o.p1 o.p2 s do
    let x ← readFr s o.f2
    let n := s.free
    return (fclassHit n x, decide (x = natVal), { s with free := n + 1 })

/-- 43 R684, 30 R456: an approximation, which writes its predicate even when it is predicated off. -/
def approximate (op : FpOp) (weight : Nat) (sf : BitVec 2) (qp p2 : BitVec 6) (f1 a b : BitVec 7) (s : State) :
    Result :=
  if s.lp.readPr qp then
    finish s (do
      let (x, y, _) ← readFr3 s f1 a b 0#7
      let s0 := s.noteFpOps weight
      if x = natVal ∨ y = natVal then
        (let s1 := s0.setFr f1 natVal
         return retire s (s1.setLp (s1.lp.setPr p2 false)) {})
      else do
        let r := fpOp op .dynamic sf s.lp.ar.fpsr x y 0#82
        let (s1, trap) ← recordFlags s0 sf r.flags
        let s2 := s1.setFr f1 r.value
        return retire s (s2.setLp (s2.lp.setPr p2 r.pred)) { fpTrap := trap })
  else
    .next (retire s (s.setLp { s.lp.setPr p2 false with ev := { s.lp.ev with squashed := true } }) {})

/-! ## Status fields (43 R689) -/

/-- `AR.FPSR` replaced. -/
def State.setFpsr (s : State) (w : Word) : State := s.setLp { s.lp with ar := { s.lp.ar with fpsr := w } }

/-- `fsetc`. -/
def setControls (o : OpF12) (s : State) : Result :=
  predicated o.qp s (.ok (s.setFpsr (setSfControls s.lp.ar.fpsr o.sf
    ((sfControls s.lp.ar.fpsr 0#2 &&& o.amask7b) ||| o.omask7c))))

/-- `fclrf`. -/
def clearFlags (o : OpF13) (s : State) : Result :=
  predicated o.qp s (.ok (s.setFpsr (setSfFlags s.lp.ar.fpsr o.sf 0#6)))

/-- 43 R689: whether `fchkf` fails: a flag whose trap is enabled, or one that field 0 does not have (log 44). -/
def flagsFail (fpsr : Word) (sf : BitVec 2) : Bool :=
  let f := sfFlags fpsr sf
  decide (f &&& ~~~(fpsr.setWidth 6) ≠ 0#6) || decide (f &&& ~~~sfFlags fpsr 0#2 ≠ 0#6)

/-- `fchkf`. -/
def checkFlags (o : OpF14) (s : State) : Result :=
  predicatedEnd o.qp s (
    let failed := flagsFail s.lp.ar.fpsr o.sf
    let target := ipTarget s.lp.ip o.target25
    let s1 := s.setLp { s.lp with ev := { s.lp.ev with fchkfFailed := failed } }
    .ok (if failed then (s1.noteFlow .check true target, { target := some target }) else (s1, {})))

/-! ## Moves between the register files (42 R594, R595) -/

/-- `setf`. -/
def setfOp (qp : BitVec 6) (f1 r2 : BitVec 7) (f : Word → FReg) (s : State) : Result :=
  predicated qp s do
    checkFrNumber f1
    let v ← readGr s r2
    checkFrEnabled s f1
    return s.setFr f1 (if v.nat then natVal else f v.val)

/-- `getf`. -/
def getfOp (qp : BitVec 6) (r1 f2 : BitVec 7) (f : FReg → Word) (s : State) : Result :=
  predicated qp s do
    checkGr s r1
    let v ← readFr s f2
    return s.setGr r1 ⟨f v, decide (v = natVal)⟩

/-- 42 R594: sign and exponent from bits 17 and 16:0. -/
def expFr (w : Word) : FReg := mkFr (w.getLsbD 17) (w.setWidth 17) (1#64 <<< 63)
/-- 42 R595: the inverse. -/
def frExpWord (f : FReg) : Word := (ofBool (frSign f) <<< 17) ||| (frExp f).setWidth 64

end Sys2Proof.Machine
end

