-- ==== Sys2Proof/Machine/ExecFp.lean ====
section
/-!
DEFINITION. The meanings of the F-type instructions (43 R681 to R690), one definition per row of the opcode
table.
-/

namespace Sys2Proof.Machine

open Sys2Proof.Config

/-- 43 R681: `fma`. -/
def execFma (o : OpF1) (s : State) : Result := fusedOp .fma .dynamic (fmaWeight o) o s

/-- 43 R681: `fma.s`. -/
def execFmaS (o : OpF1) (s : State) : Result := fusedOp .fma .single (fmaWeight o) o s

/-- 43 R681: `fma.d`. -/
def execFmaD (o : OpF1) (s : State) : Result := fusedOp .fma .double (fmaWeight o) o s

/-- 43 R681: `fpma`. -/
def execFpma (o : OpF1) (s : State) : Result := fusedOp .fpma .dynamic (fpmaWeight o) o s

/-- 43 R681: `fms`. -/
def execFms (o : OpF1) (s : State) : Result := fusedOp .fms .dynamic (fmaWeight o) o s

/-- 43 R681: `fms.s`. -/
def execFmsS (o : OpF1) (s : State) : Result := fusedOp .fms .single (fmaWeight o) o s

/-- 43 R681: `fms.d`. -/
def execFmsD (o : OpF1) (s : State) : Result := fusedOp .fms .double (fmaWeight o) o s

/-- 43 R681: `fpms`. -/
def execFpms (o : OpF1) (s : State) : Result := fusedOp .fpms .dynamic (fpmaWeight o) o s

/-- 43 R681: `fnma`. -/
def execFnma (o : OpF1) (s : State) : Result := fusedOp .fnma .dynamic (fmaWeight o) o s

/-- 43 R681: `fnma.s`. -/
def execFnmaS (o : OpF1) (s : State) : Result := fusedOp .fnma .single (fmaWeight o) o s

/-- 43 R681: `fnma.d`. -/
def execFnmaD (o : OpF1) (s : State) : Result := fusedOp .fnma .double (fmaWeight o) o s

/-- 43 R681: `fpnma`. -/
def execFpnma (o : OpF1) (s : State) : Result := fusedOp .fpnma .dynamic (fpmaWeight o) o s

/-- 43 R682: `xma.l__xma.h__xma.hu`. -/
def execXma (o : OpF2) (s : State) : Result := xmaOp o s

/-- 43 R682: `fselect`. -/
def execFselect (o : OpF3) (s : State) : Result := fselectOp o s

/-- 43 R683: `fcmp.frel.fctype`. -/
def execFcmp (o : OpF4) (s : State) : Result := fpCompareOp o s

/-- 43 R683: `fclass.m`. -/
def execFclassM (o : OpF5) (s : State) : Result := fclassOp o s

/-- 43 R684: `frcpa`. -/
def execFrcpa (o : OpF6) (s : State) : Result := approximate .frcpa 1 o.sf o.qp o.p2 o.f1 o.f2 o.f3 s

/-- 43 R684: `fprcpa`. -/
def execFprcpa (o : OpF6) (s : State) : Result := approximate .fprcpa 2 o.sf o.qp o.p2 o.f1 o.f2 o.f3 s

/-- 43 R684: `frsqrta`. -/
def execFrsqrta (o : OpF7) (s : State) : Result := approximate .frsqrta 1 o.sf o.qp o.p2 o.f1 o.f3 0#7 s

/-- 43 R684: `fprsqrta`. -/
def execFprsqrta (o : OpF7) (s : State) : Result := approximate .fprsqrta 2 o.sf o.qp o.p2 o.f1 o.f3 0#7 s

/-- 43 R686: `fmin`. -/
def execFmin (o : OpF8) (s : State) : Result := fpArith2 .fmin 1 o s

/-- 43 R686: `fmax`. -/
def execFmax (o : OpF8) (s : State) : Result := fpArith2 .fmax 1 o s

/-- 43 R686: `famin`. -/
def execFamin (o : OpF8) (s : State) : Result := fpArith2 .famin 1 o s

/-- 43 R686: `famax`. -/
def execFamax (o : OpF8) (s : State) : Result := fpArith2 .famax 1 o s

/-- 43 R686: `fpmin`. -/
def execFpmin (o : OpF8) (s : State) : Result := fpArith2 .fpmin 1 o s

/-- 43 R686: `fpmax`. -/
def execFpmax (o : OpF8) (s : State) : Result := fpArith2 .fpmax 2 o s

/-- 43 R686: `fpamin`. -/
def execFpamin (o : OpF8) (s : State) : Result := fpArith2 .fpamin 2 o s

/-- 43 R686: `fpamax`. -/
def execFpamax (o : OpF8) (s : State) : Result := fpArith2 .fpamax 2 o s

/-- 43 R686: `fpcmp__frel_code_0`. -/
def execFpcmpFrelCode0 (o : OpF8) (s : State) : Result := fpArith2 (.fpcmp 0#3) 2 o s

/-- 43 R686: `fpcmp__frel_code_1`. -/
def execFpcmpFrelCode1 (o : OpF8) (s : State) : Result := fpArith2 (.fpcmp 1#3) 2 o s

/-- 43 R686: `fpcmp__frel_code_2`. -/
def execFpcmpFrelCode2 (o : OpF8) (s : State) : Result := fpArith2 (.fpcmp 2#3) 2 o s

/-- 43 R686: `fpcmp__frel_code_3`. -/
def execFpcmpFrelCode3 (o : OpF8) (s : State) : Result := fpArith2 (.fpcmp 3#3) 2 o s

/-- 43 R686: `fpcmp__frel_code_4`. -/
def execFpcmpFrelCode4 (o : OpF8) (s : State) : Result := fpArith2 (.fpcmp 4#3) 2 o s

/-- 43 R686: `fpcmp__frel_code_5`. -/
def execFpcmpFrelCode5 (o : OpF8) (s : State) : Result := fpArith2 (.fpcmp 5#3) 2 o s

/-- 43 R686: `fpcmp__frel_code_6`. -/
def execFpcmpFrelCode6 (o : OpF8) (s : State) : Result := fpArith2 (.fpcmp 6#3) 2 o s

/-- 43 R686: `fpcmp__frel_code_7`. -/
def execFpcmpFrelCode7 (o : OpF8) (s : State) : Result := fpArith2 (.fpcmp 7#3) 2 o s

/-- 43 R687: `fmerge.s`. -/
def execFmergeS (o : OpF9) (s : State) : Result := fpMove o fmergeS s

/-- 43 R687: `fmerge.ns`. -/
def execFmergeNs (o : OpF9) (s : State) : Result := fpMove o fmergeNs s

/-- 43 R687: `fmerge.se`. -/
def execFmergeSe (o : OpF9) (s : State) : Result := fpMove o fmergeSe s

/-- 43 R687: `fmix.lr`. -/
def execFmixLr (o : OpF9) (s : State) : Result := fpMove o fmixLr s

/-- 43 R687: `fmix.r`. -/
def execFmixR (o : OpF9) (s : State) : Result := fpMove o fmixR s

/-- 43 R687: `fmix.l`. -/
def execFmixL (o : OpF9) (s : State) : Result := fpMove o fmixL s

/-- 43 R687: `fsxt.r`. -/
def execFsxtR (o : OpF9) (s : State) : Result := fpMove o fsxtR s

/-- 43 R687: `fsxt.l`. -/
def execFsxtL (o : OpF9) (s : State) : Result := fpMove o fsxtL s

/-- 43 R687: `fpack`. -/
def execFpack (o : OpF9) (s : State) : Result := fpMove o fpackPair s

/-- 43 R687: `fswap`. -/
def execFswap (o : OpF9) (s : State) : Result := fpMove o fswapPlain s

/-- 43 R687: `fswap.nl`. -/
def execFswapNl (o : OpF9) (s : State) : Result := fpMove o fswapNl s

/-- 43 R687: `fswap.nr`. -/
def execFswapNr (o : OpF9) (s : State) : Result := fpMove o fswapNr s

/-- 43 R687: `fand`. -/
def execFand (o : OpF9) (s : State) : Result := fpMove o (fpLogic (fun x y => x &&& y)) s

/-- 43 R687: `fandcm`. -/
def execFandcm (o : OpF9) (s : State) : Result := fpMove o (fpLogic (fun x y => x &&& ~~~y)) s

/-- 43 R687: `for`. -/
def execFOr (o : OpF9) (s : State) : Result := fpMove o (fpLogic (fun x y => x ||| y)) s

/-- 43 R687: `fxor`. -/
def execFxor (o : OpF9) (s : State) : Result := fpMove o (fpLogic (fun x y => x ^^^ y)) s

/-- 43 R687: `fpmerge.s`. -/
def execFpmergeS (o : OpF9) (s : State) : Result := fpMove o fpmergeS s

/-- 43 R687: `fpmerge.ns`. -/
def execFpmergeNs (o : OpF9) (s : State) : Result := fpMove o fpmergeNs s

/-- 43 R687: `fpmerge.se`. -/
def execFpmergeSe (o : OpF9) (s : State) : Result := fpMove o fpmergeSe s

/-- 43 R688: `fcvt.fx`. -/
def execFcvtFx (o : OpF10) (s : State) : Result := fpConvert .fcvtFx 1 o s

/-- 43 R688: `fpcvt.fx`. -/
def execFpcvtFx (o : OpF10) (s : State) : Result := fpConvert .fpcvtFx 2 o s

/-- 43 R688: `fcvt.fxu`; 45 R816 does not name it: it weighs as `fcvt.fx` (log 57, DESIGN CHOICE). -/
def execFcvtFxu (o : OpF10) (s : State) : Result := fpConvert .fcvtFxu 1 o s

/-- 43 R688: `fpcvt.fxu`. -/
def execFpcvtFxu (o : OpF10) (s : State) : Result := fpConvert .fpcvtFxu 2 o s

/-- 43 R688: `fcvt.fx.trunc`. -/
def execFcvtFxTrunc (o : OpF10) (s : State) : Result := fpConvert .fcvtFxTrunc 1 o s

/-- 43 R688: `fpcvt.fx.trunc`. -/
def execFpcvtFxTrunc (o : OpF10) (s : State) : Result := fpConvert .fpcvtFxTrunc 2 o s

/-- 43 R688: `fcvt.fxu.trunc`; 45 R816 does not name it: it weighs as `fcvt.fx` (log 57, DESIGN CHOICE). -/
def execFcvtFxuTrunc (o : OpF10) (s : State) : Result := fpConvert .fcvtFxuTrunc 1 o s

/-- 43 R688: `fpcvt.fxu.trunc`. -/
def execFpcvtFxuTrunc (o : OpF10) (s : State) : Result := fpConvert .fpcvtFxuTrunc 2 o s

/-- 43 R688: `fcvt.xf`. -/
def execFcvtXf (o : OpF11) (s : State) : Result := fpMove3 o.qp o.f1 o.f2 0#7 0#7 (fun x _ _ => fcvtXf x) s

/-- 43 R689: `fsetc`. -/
def execFsetc (o : OpF12) (s : State) : Result := setControls o s

/-- 43 R689: `fclrf`. -/
def execFclrf (o : OpF13) (s : State) : Result := clearFlags o s

/-- 43 R689: `fchkf`. -/
def execFchkf (o : OpF14) (s : State) : Result := checkFlags o s

/-- 43 R690: `break.f`. -/
def execBreakF (o : OpI19) (s : State) : Result := breakOp o.qp (uimm o.imm21) false s

/-- 43 R685: `nop.f`. -/
def execNopF (o : OpI19) (s : State) : Result := nopOp o.qp false s

/-- 43 R685: `hint.f`. -/
def execHintF (o : OpI19) (s : State) : Result := hintOp o.qp (decide (o.imm21 = 0#21)) false s

end Sys2Proof.Machine
end

