-- ==== Sys2Proof/Machine/ExecFpMem.lean ====
section
/-!
DEFINITION. The meanings of the floating-point loads, stores and load pairs (42 R585 to R587), one definition per row of the opcode
table.
-/

namespace Sys2Proof.Machine

open Sys2Proof.Config

/-- 42 R585: `ldfe_f1__r3`. -/
def execLdfeF1R3 (o : OpM6) (s : State) : Result := loadFp {} .extended o.qp o.f1 o.r3 .none s

/-- 42 R585: `ldfe_f1__r3__r2`. -/
def execLdfeF1R3R2 (o : OpM7) (s : State) : Result := loadFp {} .extended o.qp o.f1 o.r3 (.reg o.r2) s

/-- 42 R585: `ldfe_f1__r3__imm9`. -/
def execLdfeF1R3Imm9 (o : OpM8) (s : State) : Result := loadFp {} .extended o.qp o.f1 o.r3 (.imm (simm o.imm9)) s

/-- 42 R585: `ldf8_f1__r3`. -/
def execLdf8F1R3 (o : OpM6) (s : State) : Result := loadFp {} .integer o.qp o.f1 o.r3 .none s

/-- 42 R585: `ldf8_f1__r3__r2`. -/
def execLdf8F1R3R2 (o : OpM7) (s : State) : Result := loadFp {} .integer o.qp o.f1 o.r3 (.reg o.r2) s

/-- 42 R585: `ldf8_f1__r3__imm9`. -/
def execLdf8F1R3Imm9 (o : OpM8) (s : State) : Result := loadFp {} .integer o.qp o.f1 o.r3 (.imm (simm o.imm9)) s

/-- 42 R585: `ldfs_f1__r3`. -/
def execLdfsF1R3 (o : OpM6) (s : State) : Result := loadFp {} .single o.qp o.f1 o.r3 .none s

/-- 42 R585: `ldfs_f1__r3__r2`. -/
def execLdfsF1R3R2 (o : OpM7) (s : State) : Result := loadFp {} .single o.qp o.f1 o.r3 (.reg o.r2) s

/-- 42 R585: `ldfs_f1__r3__imm9`. -/
def execLdfsF1R3Imm9 (o : OpM8) (s : State) : Result := loadFp {} .single o.qp o.f1 o.r3 (.imm (simm o.imm9)) s

/-- 42 R585: `ldfd_f1__r3`. -/
def execLdfdF1R3 (o : OpM6) (s : State) : Result := loadFp {} .double o.qp o.f1 o.r3 .none s

/-- 42 R585: `ldfd_f1__r3__r2`. -/
def execLdfdF1R3R2 (o : OpM7) (s : State) : Result := loadFp {} .double o.qp o.f1 o.r3 (.reg o.r2) s

/-- 42 R585: `ldfd_f1__r3__imm9`. -/
def execLdfdF1R3Imm9 (o : OpM8) (s : State) : Result := loadFp {} .double o.qp o.f1 o.r3 (.imm (simm o.imm9)) s

/-- 42 R585: `ldfe.s_f1__r3`. -/
def execLdfeSF1R3 (o : OpM6) (s : State) : Result := loadFp { spec := true } .extended o.qp o.f1 o.r3 .none s

/-- 42 R585: `ldfe.s_f1__r3__r2`. -/
def execLdfeSF1R3R2 (o : OpM7) (s : State) : Result := loadFp { spec := true } .extended o.qp o.f1 o.r3 (.reg o.r2) s

/-- 42 R585: `ldfe.s_f1__r3__imm9`. -/
def execLdfeSF1R3Imm9 (o : OpM8) (s : State) : Result :=
  loadFp { spec := true } .extended o.qp o.f1 o.r3 (.imm (simm o.imm9)) s

/-- 42 R585: `ldf8.s_f1__r3`. -/
def execLdf8SF1R3 (o : OpM6) (s : State) : Result := loadFp { spec := true } .integer o.qp o.f1 o.r3 .none s

/-- 42 R585: `ldf8.s_f1__r3__r2`. -/
def execLdf8SF1R3R2 (o : OpM7) (s : State) : Result := loadFp { spec := true } .integer o.qp o.f1 o.r3 (.reg o.r2) s

/-- 42 R585: `ldf8.s_f1__r3__imm9`. -/
def execLdf8SF1R3Imm9 (o : OpM8) (s : State) : Result :=
  loadFp { spec := true } .integer o.qp o.f1 o.r3 (.imm (simm o.imm9)) s

/-- 42 R585: `ldfs.s_f1__r3`. -/
def execLdfsSF1R3 (o : OpM6) (s : State) : Result := loadFp { spec := true } .single o.qp o.f1 o.r3 .none s

/-- 42 R585: `ldfs.s_f1__r3__r2`. -/
def execLdfsSF1R3R2 (o : OpM7) (s : State) : Result := loadFp { spec := true } .single o.qp o.f1 o.r3 (.reg o.r2) s

/-- 42 R585: `ldfs.s_f1__r3__imm9`. -/
def execLdfsSF1R3Imm9 (o : OpM8) (s : State) : Result :=
  loadFp { spec := true } .single o.qp o.f1 o.r3 (.imm (simm o.imm9)) s

/-- 42 R585: `ldfd.s_f1__r3`. -/
def execLdfdSF1R3 (o : OpM6) (s : State) : Result := loadFp { spec := true } .double o.qp o.f1 o.r3 .none s

/-- 42 R585: `ldfd.s_f1__r3__r2`. -/
def execLdfdSF1R3R2 (o : OpM7) (s : State) : Result := loadFp { spec := true } .double o.qp o.f1 o.r3 (.reg o.r2) s

/-- 42 R585: `ldfd.s_f1__r3__imm9`. -/
def execLdfdSF1R3Imm9 (o : OpM8) (s : State) : Result :=
  loadFp { spec := true } .double o.qp o.f1 o.r3 (.imm (simm o.imm9)) s

/-- 42 R585: `ldfe.a_f1__r3`. -/
def execLdfeAF1R3 (o : OpM6) (s : State) : Result := loadFp { adv := true } .extended o.qp o.f1 o.r3 .none s

/-- 42 R585: `ldfe.a_f1__r3__r2`. -/
def execLdfeAF1R3R2 (o : OpM7) (s : State) : Result := loadFp { adv := true } .extended o.qp o.f1 o.r3 (.reg o.r2) s

/-- 42 R585: `ldfe.a_f1__r3__imm9`. -/
def execLdfeAF1R3Imm9 (o : OpM8) (s : State) : Result :=
  loadFp { adv := true } .extended o.qp o.f1 o.r3 (.imm (simm o.imm9)) s

/-- 42 R585: `ldf8.a_f1__r3`. -/
def execLdf8AF1R3 (o : OpM6) (s : State) : Result := loadFp { adv := true } .integer o.qp o.f1 o.r3 .none s

/-- 42 R585: `ldf8.a_f1__r3__r2`. -/
def execLdf8AF1R3R2 (o : OpM7) (s : State) : Result := loadFp { adv := true } .integer o.qp o.f1 o.r3 (.reg o.r2) s

/-- 42 R585: `ldf8.a_f1__r3__imm9`. -/
def execLdf8AF1R3Imm9 (o : OpM8) (s : State) : Result :=
  loadFp { adv := true } .integer o.qp o.f1 o.r3 (.imm (simm o.imm9)) s

/-- 42 R585: `ldfs.a_f1__r3`. -/
def execLdfsAF1R3 (o : OpM6) (s : State) : Result := loadFp { adv := true } .single o.qp o.f1 o.r3 .none s

/-- 42 R585: `ldfs.a_f1__r3__r2`. -/
def execLdfsAF1R3R2 (o : OpM7) (s : State) : Result := loadFp { adv := true } .single o.qp o.f1 o.r3 (.reg o.r2) s

/-- 42 R585: `ldfs.a_f1__r3__imm9`. -/
def execLdfsAF1R3Imm9 (o : OpM8) (s : State) : Result :=
  loadFp { adv := true } .single o.qp o.f1 o.r3 (.imm (simm o.imm9)) s

/-- 42 R585: `ldfd.a_f1__r3`. -/
def execLdfdAF1R3 (o : OpM6) (s : State) : Result := loadFp { adv := true } .double o.qp o.f1 o.r3 .none s

/-- 42 R585: `ldfd.a_f1__r3__r2`. -/
def execLdfdAF1R3R2 (o : OpM7) (s : State) : Result := loadFp { adv := true } .double o.qp o.f1 o.r3 (.reg o.r2) s

/-- 42 R585: `ldfd.a_f1__r3__imm9`. -/
def execLdfdAF1R3Imm9 (o : OpM8) (s : State) : Result :=
  loadFp { adv := true } .double o.qp o.f1 o.r3 (.imm (simm o.imm9)) s

/-- 42 R585: `ldfe.sa_f1__r3`. -/
def execLdfeSaF1R3 (o : OpM6) (s : State) : Result :=
  loadFp { spec := true, adv := true } .extended o.qp o.f1 o.r3 .none s

/-- 42 R585: `ldfe.sa_f1__r3__r2`. -/
def execLdfeSaF1R3R2 (o : OpM7) (s : State) : Result :=
  loadFp { spec := true, adv := true } .extended o.qp o.f1 o.r3 (.reg o.r2) s

/-- 42 R585: `ldfe.sa_f1__r3__imm9`. -/
def execLdfeSaF1R3Imm9 (o : OpM8) (s : State) : Result :=
  loadFp { spec := true, adv := true } .extended o.qp o.f1 o.r3 (.imm (simm o.imm9)) s

/-- 42 R585: `ldf8.sa_f1__r3`. -/
def execLdf8SaF1R3 (o : OpM6) (s : State) : Result :=
  loadFp { spec := true, adv := true } .integer o.qp o.f1 o.r3 .none s

/-- 42 R585: `ldf8.sa_f1__r3__r2`. -/
def execLdf8SaF1R3R2 (o : OpM7) (s : State) : Result :=
  loadFp { spec := true, adv := true } .integer o.qp o.f1 o.r3 (.reg o.r2) s

/-- 42 R585: `ldf8.sa_f1__r3__imm9`. -/
def execLdf8SaF1R3Imm9 (o : OpM8) (s : State) : Result :=
  loadFp { spec := true, adv := true } .integer o.qp o.f1 o.r3 (.imm (simm o.imm9)) s

/-- 42 R585: `ldfs.sa_f1__r3`. -/
def execLdfsSaF1R3 (o : OpM6) (s : State) : Result :=
  loadFp { spec := true, adv := true } .single o.qp o.f1 o.r3 .none s

/-- 42 R585: `ldfs.sa_f1__r3__r2`. -/
def execLdfsSaF1R3R2 (o : OpM7) (s : State) : Result :=
  loadFp { spec := true, adv := true } .single o.qp o.f1 o.r3 (.reg o.r2) s

/-- 42 R585: `ldfs.sa_f1__r3__imm9`. -/
def execLdfsSaF1R3Imm9 (o : OpM8) (s : State) : Result :=
  loadFp { spec := true, adv := true } .single o.qp o.f1 o.r3 (.imm (simm o.imm9)) s

/-- 42 R585: `ldfd.sa_f1__r3`. -/
def execLdfdSaF1R3 (o : OpM6) (s : State) : Result :=
  loadFp { spec := true, adv := true } .double o.qp o.f1 o.r3 .none s

/-- 42 R585: `ldfd.sa_f1__r3__r2`. -/
def execLdfdSaF1R3R2 (o : OpM7) (s : State) : Result :=
  loadFp { spec := true, adv := true } .double o.qp o.f1 o.r3 (.reg o.r2) s

/-- 42 R585: `ldfd.sa_f1__r3__imm9`. -/
def execLdfdSaF1R3Imm9 (o : OpM8) (s : State) : Result :=
  loadFp { spec := true, adv := true } .double o.qp o.f1 o.r3 (.imm (simm o.imm9)) s

/-- 42 R585: `ldfe.c.clr_f1__r3`. -/
def execLdfeCClrF1R3 (o : OpM6) (s : State) : Result :=
  loadFp { check := true, clr := true } .extended o.qp o.f1 o.r3 .none s

/-- 42 R585: `ldfe.c.clr_f1__r3__r2`. -/
def execLdfeCClrF1R3R2 (o : OpM7) (s : State) : Result :=
  loadFp { check := true, clr := true } .extended o.qp o.f1 o.r3 (.reg o.r2) s

/-- 42 R585: `ldfe.c.clr_f1__r3__imm9`. -/
def execLdfeCClrF1R3Imm9 (o : OpM8) (s : State) : Result :=
  loadFp { check := true, clr := true } .extended o.qp o.f1 o.r3 (.imm (simm o.imm9)) s

/-- 42 R585: `ldf8.c.clr_f1__r3`. -/
def execLdf8CClrF1R3 (o : OpM6) (s : State) : Result :=
  loadFp { check := true, clr := true } .integer o.qp o.f1 o.r3 .none s

/-- 42 R585: `ldf8.c.clr_f1__r3__r2`. -/
def execLdf8CClrF1R3R2 (o : OpM7) (s : State) : Result :=
  loadFp { check := true, clr := true } .integer o.qp o.f1 o.r3 (.reg o.r2) s

/-- 42 R585: `ldf8.c.clr_f1__r3__imm9`. -/
def execLdf8CClrF1R3Imm9 (o : OpM8) (s : State) : Result :=
  loadFp { check := true, clr := true } .integer o.qp o.f1 o.r3 (.imm (simm o.imm9)) s

/-- 42 R585: `ldfs.c.clr_f1__r3`. -/
def execLdfsCClrF1R3 (o : OpM6) (s : State) : Result :=
  loadFp { check := true, clr := true } .single o.qp o.f1 o.r3 .none s

/-- 42 R585: `ldfs.c.clr_f1__r3__r2`. -/
def execLdfsCClrF1R3R2 (o : OpM7) (s : State) : Result :=
  loadFp { check := true, clr := true } .single o.qp o.f1 o.r3 (.reg o.r2) s

/-- 42 R585: `ldfs.c.clr_f1__r3__imm9`. -/
def execLdfsCClrF1R3Imm9 (o : OpM8) (s : State) : Result :=
  loadFp { check := true, clr := true } .single o.qp o.f1 o.r3 (.imm (simm o.imm9)) s

/-- 42 R585: `ldfd.c.clr_f1__r3`. -/
def execLdfdCClrF1R3 (o : OpM6) (s : State) : Result :=
  loadFp { check := true, clr := true } .double o.qp o.f1 o.r3 .none s

/-- 42 R585: `ldfd.c.clr_f1__r3__r2`. -/
def execLdfdCClrF1R3R2 (o : OpM7) (s : State) : Result :=
  loadFp { check := true, clr := true } .double o.qp o.f1 o.r3 (.reg o.r2) s

/-- 42 R585: `ldfd.c.clr_f1__r3__imm9`. -/
def execLdfdCClrF1R3Imm9 (o : OpM8) (s : State) : Result :=
  loadFp { check := true, clr := true } .double o.qp o.f1 o.r3 (.imm (simm o.imm9)) s

/-- 42 R585: `ldfe.c.nc_f1__r3`. -/
def execLdfeCNcF1R3 (o : OpM6) (s : State) : Result := loadFp { check := true } .extended o.qp o.f1 o.r3 .none s

/-- 42 R585: `ldfe.c.nc_f1__r3__r2`. -/
def execLdfeCNcF1R3R2 (o : OpM7) (s : State) : Result := loadFp { check := true } .extended o.qp o.f1 o.r3 (.reg o.r2) s

/-- 42 R585: `ldfe.c.nc_f1__r3__imm9`. -/
def execLdfeCNcF1R3Imm9 (o : OpM8) (s : State) : Result :=
  loadFp { check := true } .extended o.qp o.f1 o.r3 (.imm (simm o.imm9)) s

/-- 42 R585: `ldf8.c.nc_f1__r3`. -/
def execLdf8CNcF1R3 (o : OpM6) (s : State) : Result := loadFp { check := true } .integer o.qp o.f1 o.r3 .none s

/-- 42 R585: `ldf8.c.nc_f1__r3__r2`. -/
def execLdf8CNcF1R3R2 (o : OpM7) (s : State) : Result := loadFp { check := true } .integer o.qp o.f1 o.r3 (.reg o.r2) s

/-- 42 R585: `ldf8.c.nc_f1__r3__imm9`. -/
def execLdf8CNcF1R3Imm9 (o : OpM8) (s : State) : Result :=
  loadFp { check := true } .integer o.qp o.f1 o.r3 (.imm (simm o.imm9)) s

/-- 42 R585: `ldfs.c.nc_f1__r3`. -/
def execLdfsCNcF1R3 (o : OpM6) (s : State) : Result := loadFp { check := true } .single o.qp o.f1 o.r3 .none s

/-- 42 R585: `ldfs.c.nc_f1__r3__r2`. -/
def execLdfsCNcF1R3R2 (o : OpM7) (s : State) : Result := loadFp { check := true } .single o.qp o.f1 o.r3 (.reg o.r2) s

/-- 42 R585: `ldfs.c.nc_f1__r3__imm9`. -/
def execLdfsCNcF1R3Imm9 (o : OpM8) (s : State) : Result :=
  loadFp { check := true } .single o.qp o.f1 o.r3 (.imm (simm o.imm9)) s

/-- 42 R585: `ldfd.c.nc_f1__r3`. -/
def execLdfdCNcF1R3 (o : OpM6) (s : State) : Result := loadFp { check := true } .double o.qp o.f1 o.r3 .none s

/-- 42 R585: `ldfd.c.nc_f1__r3__r2`. -/
def execLdfdCNcF1R3R2 (o : OpM7) (s : State) : Result := loadFp { check := true } .double o.qp o.f1 o.r3 (.reg o.r2) s

/-- 42 R585: `ldfd.c.nc_f1__r3__imm9`. -/
def execLdfdCNcF1R3Imm9 (o : OpM8) (s : State) : Result :=
  loadFp { check := true } .double o.qp o.f1 o.r3 (.imm (simm o.imm9)) s

/-- 42 R585: `ldf.fill_f1__r3`. -/
def execLdfFillF1R3 (o : OpM6) (s : State) : Result := loadFp {} .image o.qp o.f1 o.r3 .none s

/-- 42 R585: `ldf.fill_f1__r3__r2`. -/
def execLdfFillF1R3R2 (o : OpM7) (s : State) : Result := loadFp {} .image o.qp o.f1 o.r3 (.reg o.r2) s

/-- 42 R585: `ldf.fill_f1__r3__imm9`. -/
def execLdfFillF1R3Imm9 (o : OpM8) (s : State) : Result := loadFp {} .image o.qp o.f1 o.r3 (.imm (simm o.imm9)) s

/-- 42 R586: `stfe__r3__f2`. -/
def execStfeR3F2 (o : OpM9) (s : State) : Result := storeFp .extended o.qp o.r3 o.f2 .none s

/-- 42 R586: `stfe__r3__f2_imm9`. -/
def execStfeR3F2Imm9 (o : OpM10) (s : State) : Result := storeFp .extended o.qp o.r3 o.f2 (.imm (simm o.imm9)) s

/-- 42 R586: `stf8__r3__f2`. -/
def execStf8R3F2 (o : OpM9) (s : State) : Result := storeFp .integer o.qp o.r3 o.f2 .none s

/-- 42 R586: `stf8__r3__f2_imm9`. -/
def execStf8R3F2Imm9 (o : OpM10) (s : State) : Result := storeFp .integer o.qp o.r3 o.f2 (.imm (simm o.imm9)) s

/-- 42 R586: `stfs__r3__f2`. -/
def execStfsR3F2 (o : OpM9) (s : State) : Result := storeFp .single o.qp o.r3 o.f2 .none s

/-- 42 R586: `stfs__r3__f2_imm9`. -/
def execStfsR3F2Imm9 (o : OpM10) (s : State) : Result := storeFp .single o.qp o.r3 o.f2 (.imm (simm o.imm9)) s

/-- 42 R586: `stfd__r3__f2`. -/
def execStfdR3F2 (o : OpM9) (s : State) : Result := storeFp .double o.qp o.r3 o.f2 .none s

/-- 42 R586: `stfd__r3__f2_imm9`. -/
def execStfdR3F2Imm9 (o : OpM10) (s : State) : Result := storeFp .double o.qp o.r3 o.f2 (.imm (simm o.imm9)) s

/-- 42 R586: `stf.spill__r3__f2`. -/
def execStfSpillR3F2 (o : OpM9) (s : State) : Result := storeFp .image o.qp o.r3 o.f2 .none s

/-- 42 R586: `stf.spill__r3__f2_imm9`. -/
def execStfSpillR3F2Imm9 (o : OpM10) (s : State) : Result := storeFp .image o.qp o.r3 o.f2 (.imm (simm o.imm9)) s

/-- 42 R587: `ldfp8_f1_f2__r3`. -/
def execLdfp8F1F2R3 (o : OpM11) (s : State) : Result := loadPair {} .integer false o.qp o.f1 o.f2 o.r3 s

/-- 42 R587: `ldfp8_f1_f2__r3__16`. -/
def execLdfp8F1F2R316 (o : OpM11) (s : State) : Result := loadPair {} .integer true o.qp o.f1 o.f2 o.r3 s

/-- 42 R587: `ldfps_f1_f2__r3`. -/
def execLdfpsF1F2R3 (o : OpM11) (s : State) : Result := loadPair {} .single false o.qp o.f1 o.f2 o.r3 s

/-- 42 R587: `ldfps_f1_f2__r3__8`. -/
def execLdfpsF1F2R38 (o : OpM11) (s : State) : Result := loadPair {} .single true o.qp o.f1 o.f2 o.r3 s

/-- 42 R587: `ldfpd_f1_f2__r3`. -/
def execLdfpdF1F2R3 (o : OpM11) (s : State) : Result := loadPair {} .double false o.qp o.f1 o.f2 o.r3 s

/-- 42 R587: `ldfpd_f1_f2__r3__16`. -/
def execLdfpdF1F2R316 (o : OpM11) (s : State) : Result := loadPair {} .double true o.qp o.f1 o.f2 o.r3 s

/-- 42 R587: `ldfp8.s_f1_f2__r3`. -/
def execLdfp8SF1F2R3 (o : OpM11) (s : State) : Result := loadPair { spec := true } .integer false o.qp o.f1 o.f2 o.r3 s

/-- 42 R587: `ldfp8.s_f1_f2__r3__16`. -/
def execLdfp8SF1F2R316 (o : OpM11) (s : State) : Result := loadPair { spec := true } .integer true o.qp o.f1 o.f2 o.r3 s

/-- 42 R587: `ldfps.s_f1_f2__r3`. -/
def execLdfpsSF1F2R3 (o : OpM11) (s : State) : Result := loadPair { spec := true } .single false o.qp o.f1 o.f2 o.r3 s

/-- 42 R587: `ldfps.s_f1_f2__r3__8`. -/
def execLdfpsSF1F2R38 (o : OpM11) (s : State) : Result := loadPair { spec := true } .single true o.qp o.f1 o.f2 o.r3 s

/-- 42 R587: `ldfpd.s_f1_f2__r3`. -/
def execLdfpdSF1F2R3 (o : OpM11) (s : State) : Result := loadPair { spec := true } .double false o.qp o.f1 o.f2 o.r3 s

/-- 42 R587: `ldfpd.s_f1_f2__r3__16`. -/
def execLdfpdSF1F2R316 (o : OpM11) (s : State) : Result := loadPair { spec := true } .double true o.qp o.f1 o.f2 o.r3 s

/-- 42 R587: `ldfp8.a_f1_f2__r3`. -/
def execLdfp8AF1F2R3 (o : OpM11) (s : State) : Result := loadPair { adv := true } .integer false o.qp o.f1 o.f2 o.r3 s

/-- 42 R587: `ldfp8.a_f1_f2__r3__16`. -/
def execLdfp8AF1F2R316 (o : OpM11) (s : State) : Result := loadPair { adv := true } .integer true o.qp o.f1 o.f2 o.r3 s

/-- 42 R587: `ldfps.a_f1_f2__r3`. -/
def execLdfpsAF1F2R3 (o : OpM11) (s : State) : Result := loadPair { adv := true } .single false o.qp o.f1 o.f2 o.r3 s

/-- 42 R587: `ldfps.a_f1_f2__r3__8`. -/
def execLdfpsAF1F2R38 (o : OpM11) (s : State) : Result := loadPair { adv := true } .single true o.qp o.f1 o.f2 o.r3 s

/-- 42 R587: `ldfpd.a_f1_f2__r3`. -/
def execLdfpdAF1F2R3 (o : OpM11) (s : State) : Result := loadPair { adv := true } .double false o.qp o.f1 o.f2 o.r3 s

/-- 42 R587: `ldfpd.a_f1_f2__r3__16`. -/
def execLdfpdAF1F2R316 (o : OpM11) (s : State) : Result := loadPair { adv := true } .double true o.qp o.f1 o.f2 o.r3 s

/-- 42 R587: `ldfp8.sa_f1_f2__r3`. -/
def execLdfp8SaF1F2R3 (o : OpM11) (s : State) : Result :=
  loadPair { spec := true, adv := true } .integer false o.qp o.f1 o.f2 o.r3 s

/-- 42 R587: `ldfp8.sa_f1_f2__r3__16`. -/
def execLdfp8SaF1F2R316 (o : OpM11) (s : State) : Result :=
  loadPair { spec := true, adv := true } .integer true o.qp o.f1 o.f2 o.r3 s

/-- 42 R587: `ldfps.sa_f1_f2__r3`. -/
def execLdfpsSaF1F2R3 (o : OpM11) (s : State) : Result :=
  loadPair { spec := true, adv := true } .single false o.qp o.f1 o.f2 o.r3 s

/-- 42 R587: `ldfps.sa_f1_f2__r3__8`. -/
def execLdfpsSaF1F2R38 (o : OpM11) (s : State) : Result :=
  loadPair { spec := true, adv := true } .single true o.qp o.f1 o.f2 o.r3 s

/-- 42 R587: `ldfpd.sa_f1_f2__r3`. -/
def execLdfpdSaF1F2R3 (o : OpM11) (s : State) : Result :=
  loadPair { spec := true, adv := true } .double false o.qp o.f1 o.f2 o.r3 s

/-- 42 R587: `ldfpd.sa_f1_f2__r3__16`. -/
def execLdfpdSaF1F2R316 (o : OpM11) (s : State) : Result :=
  loadPair { spec := true, adv := true } .double true o.qp o.f1 o.f2 o.r3 s

/-- 42 R587: `ldfp8.c.clr_f1_f2__r3`. -/
def execLdfp8CClrF1F2R3 (o : OpM11) (s : State) : Result :=
  loadPair { check := true, clr := true } .integer false o.qp o.f1 o.f2 o.r3 s

/-- 42 R587: `ldfp8.c.clr_f1_f2__r3__16`. -/
def execLdfp8CClrF1F2R316 (o : OpM11) (s : State) : Result :=
  loadPair { check := true, clr := true } .integer true o.qp o.f1 o.f2 o.r3 s

/-- 42 R587: `ldfps.c.clr_f1_f2__r3`. -/
def execLdfpsCClrF1F2R3 (o : OpM11) (s : State) : Result :=
  loadPair { check := true, clr := true } .single false o.qp o.f1 o.f2 o.r3 s

/-- 42 R587: `ldfps.c.clr_f1_f2__r3__8`. -/
def execLdfpsCClrF1F2R38 (o : OpM11) (s : State) : Result :=
  loadPair { check := true, clr := true } .single true o.qp o.f1 o.f2 o.r3 s

/-- 42 R587: `ldfpd.c.clr_f1_f2__r3`. -/
def execLdfpdCClrF1F2R3 (o : OpM11) (s : State) : Result :=
  loadPair { check := true, clr := true } .double false o.qp o.f1 o.f2 o.r3 s

/-- 42 R587: `ldfpd.c.clr_f1_f2__r3__16`. -/
def execLdfpdCClrF1F2R316 (o : OpM11) (s : State) : Result :=
  loadPair { check := true, clr := true } .double true o.qp o.f1 o.f2 o.r3 s

/-- 42 R587: `ldfp8.c.nc_f1_f2__r3`. -/
def execLdfp8CNcF1F2R3 (o : OpM11) (s : State) : Result :=
  loadPair { check := true } .integer false o.qp o.f1 o.f2 o.r3 s

/-- 42 R587: `ldfp8.c.nc_f1_f2__r3__16`. -/
def execLdfp8CNcF1F2R316 (o : OpM11) (s : State) : Result :=
  loadPair { check := true } .integer true o.qp o.f1 o.f2 o.r3 s

/-- 42 R587: `ldfps.c.nc_f1_f2__r3`. -/
def execLdfpsCNcF1F2R3 (o : OpM11) (s : State) : Result :=
  loadPair { check := true } .single false o.qp o.f1 o.f2 o.r3 s

/-- 42 R587: `ldfps.c.nc_f1_f2__r3__8`. -/
def execLdfpsCNcF1F2R38 (o : OpM11) (s : State) : Result :=
  loadPair { check := true } .single true o.qp o.f1 o.f2 o.r3 s

/-- 42 R587: `ldfpd.c.nc_f1_f2__r3`. -/
def execLdfpdCNcF1F2R3 (o : OpM11) (s : State) : Result :=
  loadPair { check := true } .double false o.qp o.f1 o.f2 o.r3 s

/-- 42 R587: `ldfpd.c.nc_f1_f2__r3__16`. -/
def execLdfpdCNcF1F2R316 (o : OpM11) (s : State) : Result :=
  loadPair { check := true } .double true o.qp o.f1 o.f2 o.r3 s

end Sys2Proof.Machine
end

