-- ==== Sys2Proof/Machine/ExecI.lean ====
section
/-!
DEFINITION. The meanings of the I-type instructions (41_instr_i_type.md), one definition per row of the opcode
table.
-/

namespace Sys2Proof.Machine

open Sys2Proof.Config

/-- 41 R531: `pmpyshr2__pmpyshr2.u`. -/
def execPmpyshr2 (o : OpPmpyshr) (s : State) : Result :=
  alu2 o.qp o.r1 o.r2 o.r3 (pmpyshr2Of o.unsigned o.count2.toNat) s

/-- 41 R531: `pmpy2.r__pmpy2.l`. -/
def execPmpy2 (o : OpPmpy) (s : State) : Result := alu2 o.qp o.r1 o.r2 o.r3 (pmpy2Of o.left) s

/-- 41 R532: `mix1_2_4.l__mix1_2_4.r__pack2.sss__pack2.uss__pack4.sss`. -/
def execMixPack (o : OpI2) (s : State) : Result := alu2 o.qp o.r1 o.r2 o.r3 (i2Of o.op) s

/-- 41 R533: `mux1`. -/
def execMux1 (o : OpMux1) (s : State) : Result := alu1 o.qp o.r1 o.r2 (mux1Of o.mbtype) s

/-- 41 R533: `mux2`. -/
def execMux2 (o : OpMux2) (s : State) : Result := alu1 o.qp o.r1 o.r2 (mux2Of o.mhtype) s

/-- 41 R534: `pshr2__pshr4__pshr2.u__pshr4.u_r1_r3_r2`. -/
def execPshrVar (o : OpPshVar) (s : State) : Result :=
  alu2 o.qp o.r1 o.r2 o.r3 (fun n a => pshrOf o.size o.unsigned (shiftCount n) a) s

/-- 41 R534: `pshr2__pshr4__pshr2.u__pshr4.u_r1_r3_count5`. -/
def execPshrFix (o : OpPshrFix) (s : State) : Result := alu1 o.qp o.r1 o.r3 (pshrOf o.size o.unsigned o.count5.toNat) s

/-- 41 R534: `pshl2__pshl4_r1_r2_r3`. -/
def execPshlVar (o : OpPshlVar) (s : State) : Result :=
  alu2 o.qp o.r1 o.r2 o.r3 (fun a n => pshlOf o.size (shiftCount n) a) s

/-- 41 R534: `pshl2__pshl4_r1_r2_count5`. -/
def execPshlFix (o : OpPshlFix) (s : State) : Result := alu1 o.qp o.r1 o.r2 (pshlOf o.size o.count5.toNat) s

/-- 41 R535: `popcnt`. -/
def execPopcnt (o : OpPopcnt) (s : State) : Result := alu1 o.qp o.r1 o.r3 (fun a => BitVec.ofNat 64 (onesBelow a 64)) s

/-- 41 R536: `shr`. -/
def execShr (o : OpA1) (s : State) : Result := alu2 o.qp o.r1 o.r2 o.r3 (fun n a => shrOf a n) s

/-- 41 R537: `shr.u`. -/
def execShrU (o : OpA1) (s : State) : Result := alu2 o.qp o.r1 o.r2 o.r3 (fun n a => shrUOf a n) s

/-- 41 R538: `shl`. -/
def execShl (o : OpA1) (s : State) : Result := alu2 o.qp o.r1 o.r2 o.r3 shlOf s

/-- 41 R539: `shrp`. -/
def execShrp (o : OpI10) (s : State) : Result := alu2 o.qp o.r1 o.r2 o.r3 (shrpOf o.count6d.toNat) s

/-- 41 R540: `extr`. -/
def execExtr (o : OpI11) (s : State) : Result := alu1 o.qp o.r1 o.r3 (extrOf false o.pos6b.toNat (o.len6d.toNat + 1)) s

/-- 41 R541: `extr.u`. -/
def execExtrU (o : OpI11) (s : State) : Result := alu1 o.qp o.r1 o.r3 (extrOf true o.pos6b.toNat (o.len6d.toNat + 1)) s

/-- 41 R542: `dep.z`. -/
def execDepZ (o : OpI12) (s : State) : Result :=
  alu1 o.qp o.r1 o.r2 (depZOf (63 - o.cpos6c.toNat) (o.len6d.toNat + 1)) s

/-- 41 R543: `dep.z_r1_imm8`. -/
def execDepZR1Imm8 (o : OpI13) (s : State) : Result :=
  alu0 o.qp o.r1 (depZOf (63 - o.cpos6c.toNat) (o.len6d.toNat + 1) (simm o.imm8)) s

/-- 41 R544: `dep_r1_imm1_r3`. -/
def execDepR1Imm1R3 (o : OpI14) (s : State) : Result :=
  alu1 o.qp o.r1 o.r3 (depOf (63 - o.cpos6b.toNat) (o.len6d.toNat + 1) (simm o.imm1)) s

/-- 41 R545: `dep`. -/
def execDep (o : OpI15) (s : State) : Result :=
  alu2 o.qp o.r1 o.r2 o.r3 (depOf (63 - o.cpos6d.toNat) (o.len4d.toNat + 1)) s

/-- 41 R546: `tbit.z`. -/
def execTbitZ (o : OpI16) (s : State) : Result := testBit .none false o s

/-- 41 R547: `tnat.z`. -/
def execTnatZ (o : OpA7) (s : State) : Result := testNat .none false o s

/-- 41 R546: `tbit.z.unc`. -/
def execTbitZUnc (o : OpI16) (s : State) : Result := testBit .unc false o s

/-- 41 R547: `tnat.z.unc`. -/
def execTnatZUnc (o : OpA7) (s : State) : Result := testNat .unc false o s

/-- 41 R546: `tbit.z.and`. -/
def execTbitZAnd (o : OpI16) (s : State) : Result := testBit .and false o s

/-- 41 R547: `tnat.z.and`. -/
def execTnatZAnd (o : OpA7) (s : State) : Result := testNat .and false o s

/-- 41 R546: `tbit.nz.and`. -/
def execTbitNzAnd (o : OpI16) (s : State) : Result := testBit .and true o s

/-- 41 R547: `tnat.nz.and`. -/
def execTnatNzAnd (o : OpA7) (s : State) : Result := testNat .and true o s

/-- 41 R546: `tbit.z.or`. -/
def execTbitZOr (o : OpI16) (s : State) : Result := testBit .or false o s

/-- 41 R547: `tnat.z.or`. -/
def execTnatZOr (o : OpA7) (s : State) : Result := testNat .or false o s

/-- 41 R546: `tbit.nz.or`. -/
def execTbitNzOr (o : OpI16) (s : State) : Result := testBit .or true o s

/-- 41 R547: `tnat.nz.or`. -/
def execTnatNzOr (o : OpA7) (s : State) : Result := testNat .or true o s

/-- 41 R546: `tbit.z.or.andcm`. -/
def execTbitZOrAndcm (o : OpI16) (s : State) : Result := testBit .orAndcm false o s

/-- 41 R547: `tnat.z.or.andcm`. -/
def execTnatZOrAndcm (o : OpA7) (s : State) : Result := testNat .orAndcm false o s

/-- 41 R546: `tbit.nz.or.andcm`. -/
def execTbitNzOrAndcm (o : OpI16) (s : State) : Result := testBit .orAndcm true o s

/-- 41 R547: `tnat.nz.or.andcm`. -/
def execTnatNzOrAndcm (o : OpA7) (s : State) : Result := testNat .orAndcm true o s

/-- 41 R548: `break.i`. -/
def execBreakI (o : OpI19) (s : State) : Result := breakOp o.qp (uimm o.imm21) false s

/-- 41 R560: `nop.i`. -/
def execNopI (o : OpI19) (s : State) : Result := nopOp o.qp false s

/-- 41 R560: `hint.i`. -/
def execHintI (o : OpI19) (s : State) : Result := hintOp o.qp (decide (o.imm21 = 0#21)) false s

/-- 41 R549: `chk.s.i`. -/
def execChkSI (o : OpI20) (s : State) : Result := chkS o.qp o.r2 o.target25 s

/-- 41 R550: `mov_b1_r2`. -/
def execMovB1R2 (o : OpI21) (s : State) : Result := movToBr o.qp o.b1 o.r2 s

/-- 41 R551: `mov_r1_b2`. -/
def execMovR1B2 (o : OpI22) (s : State) : Result := movToGr o.qp o.r1 (s.lp.br? o.b2) s

/-- 41 R552: `mov_pr_r2_mask17`. -/
def execMovPrR2Mask17 (o : OpI23) (s : State) : Result := movToPr o.qp o.r2 (prMask o.mask17) s

/-- 41 R553: `mov_pr.rot_imm44`. -/
def execMovPrRotImm44 (o : OpI24) (s : State) : Result := movToPrRot o.qp (prRotImm o.imm44) s

/-- 41 R554: `mov_r1_ip`. -/
def execMovR1Ip (o : OpI25) (s : State) : Result := movToGr o.qp o.r1 s.lp.ip s

/-- 41 R555: `mov_r1_pr`. -/
def execMovR1Pr (o : OpI25) (s : State) : Result := movToGr o.qp o.r1 (s.lp.pr ||| 1#64) s

/-- 41 R556: `mov.i_ar3_r2`. -/
def execMovIAr3R2 (o : OpI26) (s : State) : Result := movToAr true o.qp o.ar3 o.r2 s

/-- 41 R556: `mov.i_ar3_imm8`. -/
def execMovIAr3Imm8 (o : OpI27) (s : State) : Result := movToArImm true o.qp o.ar3 o.imm8 s

/-- 41 R557: `mov.i_r1_ar3`. -/
def execMovIR1Ar3 (o : OpI28) (s : State) : Result := movFromAr true o.qp o.r1 o.ar3 s

/-- 41 R562: `zxt1`. -/
def execZxt1 (o : OpI29) (s : State) : Result := alu1 o.qp o.r1 o.r3 (fun a => zextLow a 8) s

/-- 41 R562: `zxt2`. -/
def execZxt2 (o : OpI29) (s : State) : Result := alu1 o.qp o.r1 o.r3 (fun a => zextLow a 16) s

/-- 41 R562: `zxt4`. -/
def execZxt4 (o : OpI29) (s : State) : Result := alu1 o.qp o.r1 o.r3 (fun a => zextLow a 32) s

/-- 41 R561: `sxt1`. -/
def execSxt1 (o : OpI29) (s : State) : Result := alu1 o.qp o.r1 o.r3 (fun a => sextLow a 8) s

/-- 41 R561: `sxt2`. -/
def execSxt2 (o : OpI29) (s : State) : Result := alu1 o.qp o.r1 o.r3 (fun a => sextLow a 16) s

/-- 41 R561: `sxt4`. -/
def execSxt4 (o : OpI29) (s : State) : Result := alu1 o.qp o.r1 o.r3 (fun a => sextLow a 32) s

/-- 41 R563: `czx1.l`. -/
def execCzx1L (o : OpI29) (s : State) : Result := alu1 o.qp o.r1 o.r3 (czxOf 8 true) s

/-- 41 R563: `czx2.l`. -/
def execCzx2L (o : OpI29) (s : State) : Result := alu1 o.qp o.r1 o.r3 (czxOf 16 true) s

/-- 41 R563: `czx1.r`. -/
def execCzx1R (o : OpI29) (s : State) : Result := alu1 o.qp o.r1 o.r3 (czxOf 8 false) s

/-- 41 R563: `czx2.r`. -/
def execCzx2R (o : OpI29) (s : State) : Result := alu1 o.qp o.r1 o.r3 (czxOf 16 false) s

end Sys2Proof.Machine
end

