-- ==== Sys2Proof/Machine/ExecLoad.lean ====
section
/-!
DEFINITION. The meanings of the integer loads (42 R580, R582), one definition per row of the opcode
table.
-/

namespace Sys2Proof.Machine

open Sys2Proof.Config

/-- 42 R580: `ld1_r1__r3`. -/
def execLd1R1R3 (o : OpM1) (s : State) : Result := loadInt {} 1 false o.qp o.r1 o.r3 .none s

/-- 42 R580: `ld1_r1__r3__r2`. -/
def execLd1R1R3R2 (o : OpM2) (s : State) : Result := loadInt {} 1 false o.qp o.r1 o.r3 (.reg o.r2) s

/-- 42 R580: `ld1_r1__r3__imm9`. -/
def execLd1R1R3Imm9 (o : OpM3) (s : State) : Result := loadInt {} 1 false o.qp o.r1 o.r3 (.imm (simm o.imm9)) s

/-- 42 R580: `ld2_r1__r3`. -/
def execLd2R1R3 (o : OpM1) (s : State) : Result := loadInt {} 2 false o.qp o.r1 o.r3 .none s

/-- 42 R580: `ld2_r1__r3__r2`. -/
def execLd2R1R3R2 (o : OpM2) (s : State) : Result := loadInt {} 2 false o.qp o.r1 o.r3 (.reg o.r2) s

/-- 42 R580: `ld2_r1__r3__imm9`. -/
def execLd2R1R3Imm9 (o : OpM3) (s : State) : Result := loadInt {} 2 false o.qp o.r1 o.r3 (.imm (simm o.imm9)) s

/-- 42 R580: `ld4_r1__r3`. -/
def execLd4R1R3 (o : OpM1) (s : State) : Result := loadInt {} 4 false o.qp o.r1 o.r3 .none s

/-- 42 R580: `ld4_r1__r3__r2`. -/
def execLd4R1R3R2 (o : OpM2) (s : State) : Result := loadInt {} 4 false o.qp o.r1 o.r3 (.reg o.r2) s

/-- 42 R580: `ld4_r1__r3__imm9`. -/
def execLd4R1R3Imm9 (o : OpM3) (s : State) : Result := loadInt {} 4 false o.qp o.r1 o.r3 (.imm (simm o.imm9)) s

/-- 42 R580: `ld8_r1__r3`. -/
def execLd8R1R3 (o : OpM1) (s : State) : Result := loadInt {} 8 false o.qp o.r1 o.r3 .none s

/-- 42 R580: `ld8_r1__r3__r2`. -/
def execLd8R1R3R2 (o : OpM2) (s : State) : Result := loadInt {} 8 false o.qp o.r1 o.r3 (.reg o.r2) s

/-- 42 R580: `ld8_r1__r3__imm9`. -/
def execLd8R1R3Imm9 (o : OpM3) (s : State) : Result := loadInt {} 8 false o.qp o.r1 o.r3 (.imm (simm o.imm9)) s

/-- 42 R580: `ld1.s_r1__r3`. -/
def execLd1SR1R3 (o : OpM1) (s : State) : Result := loadInt { spec := true } 1 false o.qp o.r1 o.r3 .none s

/-- 42 R580: `ld1.s_r1__r3__r2`. -/
def execLd1SR1R3R2 (o : OpM2) (s : State) : Result := loadInt { spec := true } 1 false o.qp o.r1 o.r3 (.reg o.r2) s

/-- 42 R580: `ld1.s_r1__r3__imm9`. -/
def execLd1SR1R3Imm9 (o : OpM3) (s : State) : Result :=
  loadInt { spec := true } 1 false o.qp o.r1 o.r3 (.imm (simm o.imm9)) s

/-- 42 R580: `ld2.s_r1__r3`. -/
def execLd2SR1R3 (o : OpM1) (s : State) : Result := loadInt { spec := true } 2 false o.qp o.r1 o.r3 .none s

/-- 42 R580: `ld2.s_r1__r3__r2`. -/
def execLd2SR1R3R2 (o : OpM2) (s : State) : Result := loadInt { spec := true } 2 false o.qp o.r1 o.r3 (.reg o.r2) s

/-- 42 R580: `ld2.s_r1__r3__imm9`. -/
def execLd2SR1R3Imm9 (o : OpM3) (s : State) : Result :=
  loadInt { spec := true } 2 false o.qp o.r1 o.r3 (.imm (simm o.imm9)) s

/-- 42 R580: `ld4.s_r1__r3`. -/
def execLd4SR1R3 (o : OpM1) (s : State) : Result := loadInt { spec := true } 4 false o.qp o.r1 o.r3 .none s

/-- 42 R580: `ld4.s_r1__r3__r2`. -/
def execLd4SR1R3R2 (o : OpM2) (s : State) : Result := loadInt { spec := true } 4 false o.qp o.r1 o.r3 (.reg o.r2) s

/-- 42 R580: `ld4.s_r1__r3__imm9`. -/
def execLd4SR1R3Imm9 (o : OpM3) (s : State) : Result :=
  loadInt { spec := true } 4 false o.qp o.r1 o.r3 (.imm (simm o.imm9)) s

/-- 42 R580: `ld8.s_r1__r3`. -/
def execLd8SR1R3 (o : OpM1) (s : State) : Result := loadInt { spec := true } 8 false o.qp o.r1 o.r3 .none s

/-- 42 R580: `ld8.s_r1__r3__r2`. -/
def execLd8SR1R3R2 (o : OpM2) (s : State) : Result := loadInt { spec := true } 8 false o.qp o.r1 o.r3 (.reg o.r2) s

/-- 42 R580: `ld8.s_r1__r3__imm9`. -/
def execLd8SR1R3Imm9 (o : OpM3) (s : State) : Result :=
  loadInt { spec := true } 8 false o.qp o.r1 o.r3 (.imm (simm o.imm9)) s

/-- 42 R580: `ld1.a_r1__r3`. -/
def execLd1AR1R3 (o : OpM1) (s : State) : Result := loadInt { adv := true } 1 false o.qp o.r1 o.r3 .none s

/-- 42 R580: `ld1.a_r1__r3__r2`. -/
def execLd1AR1R3R2 (o : OpM2) (s : State) : Result := loadInt { adv := true } 1 false o.qp o.r1 o.r3 (.reg o.r2) s

/-- 42 R580: `ld1.a_r1__r3__imm9`. -/
def execLd1AR1R3Imm9 (o : OpM3) (s : State) : Result :=
  loadInt { adv := true } 1 false o.qp o.r1 o.r3 (.imm (simm o.imm9)) s

/-- 42 R580: `ld2.a_r1__r3`. -/
def execLd2AR1R3 (o : OpM1) (s : State) : Result := loadInt { adv := true } 2 false o.qp o.r1 o.r3 .none s

/-- 42 R580: `ld2.a_r1__r3__r2`. -/
def execLd2AR1R3R2 (o : OpM2) (s : State) : Result := loadInt { adv := true } 2 false o.qp o.r1 o.r3 (.reg o.r2) s

/-- 42 R580: `ld2.a_r1__r3__imm9`. -/
def execLd2AR1R3Imm9 (o : OpM3) (s : State) : Result :=
  loadInt { adv := true } 2 false o.qp o.r1 o.r3 (.imm (simm o.imm9)) s

/-- 42 R580: `ld4.a_r1__r3`. -/
def execLd4AR1R3 (o : OpM1) (s : State) : Result := loadInt { adv := true } 4 false o.qp o.r1 o.r3 .none s

/-- 42 R580: `ld4.a_r1__r3__r2`. -/
def execLd4AR1R3R2 (o : OpM2) (s : State) : Result := loadInt { adv := true } 4 false o.qp o.r1 o.r3 (.reg o.r2) s

/-- 42 R580: `ld4.a_r1__r3__imm9`. -/
def execLd4AR1R3Imm9 (o : OpM3) (s : State) : Result :=
  loadInt { adv := true } 4 false o.qp o.r1 o.r3 (.imm (simm o.imm9)) s

/-- 42 R580: `ld8.a_r1__r3`. -/
def execLd8AR1R3 (o : OpM1) (s : State) : Result := loadInt { adv := true } 8 false o.qp o.r1 o.r3 .none s

/-- 42 R580: `ld8.a_r1__r3__r2`. -/
def execLd8AR1R3R2 (o : OpM2) (s : State) : Result := loadInt { adv := true } 8 false o.qp o.r1 o.r3 (.reg o.r2) s

/-- 42 R580: `ld8.a_r1__r3__imm9`. -/
def execLd8AR1R3Imm9 (o : OpM3) (s : State) : Result :=
  loadInt { adv := true } 8 false o.qp o.r1 o.r3 (.imm (simm o.imm9)) s

/-- 42 R580: `ld1.sa_r1__r3`. -/
def execLd1SaR1R3 (o : OpM1) (s : State) : Result :=
  loadInt { spec := true, adv := true } 1 false o.qp o.r1 o.r3 .none s

/-- 42 R580: `ld1.sa_r1__r3__r2`. -/
def execLd1SaR1R3R2 (o : OpM2) (s : State) : Result :=
  loadInt { spec := true, adv := true } 1 false o.qp o.r1 o.r3 (.reg o.r2) s

/-- 42 R580: `ld1.sa_r1__r3__imm9`. -/
def execLd1SaR1R3Imm9 (o : OpM3) (s : State) : Result :=
  loadInt { spec := true, adv := true } 1 false o.qp o.r1 o.r3 (.imm (simm o.imm9)) s

/-- 42 R580: `ld2.sa_r1__r3`. -/
def execLd2SaR1R3 (o : OpM1) (s : State) : Result :=
  loadInt { spec := true, adv := true } 2 false o.qp o.r1 o.r3 .none s

/-- 42 R580: `ld2.sa_r1__r3__r2`. -/
def execLd2SaR1R3R2 (o : OpM2) (s : State) : Result :=
  loadInt { spec := true, adv := true } 2 false o.qp o.r1 o.r3 (.reg o.r2) s

/-- 42 R580: `ld2.sa_r1__r3__imm9`. -/
def execLd2SaR1R3Imm9 (o : OpM3) (s : State) : Result :=
  loadInt { spec := true, adv := true } 2 false o.qp o.r1 o.r3 (.imm (simm o.imm9)) s

/-- 42 R580: `ld4.sa_r1__r3`. -/
def execLd4SaR1R3 (o : OpM1) (s : State) : Result :=
  loadInt { spec := true, adv := true } 4 false o.qp o.r1 o.r3 .none s

/-- 42 R580: `ld4.sa_r1__r3__r2`. -/
def execLd4SaR1R3R2 (o : OpM2) (s : State) : Result :=
  loadInt { spec := true, adv := true } 4 false o.qp o.r1 o.r3 (.reg o.r2) s

/-- 42 R580: `ld4.sa_r1__r3__imm9`. -/
def execLd4SaR1R3Imm9 (o : OpM3) (s : State) : Result :=
  loadInt { spec := true, adv := true } 4 false o.qp o.r1 o.r3 (.imm (simm o.imm9)) s

/-- 42 R580: `ld8.sa_r1__r3`. -/
def execLd8SaR1R3 (o : OpM1) (s : State) : Result :=
  loadInt { spec := true, adv := true } 8 false o.qp o.r1 o.r3 .none s

/-- 42 R580: `ld8.sa_r1__r3__r2`. -/
def execLd8SaR1R3R2 (o : OpM2) (s : State) : Result :=
  loadInt { spec := true, adv := true } 8 false o.qp o.r1 o.r3 (.reg o.r2) s

/-- 42 R580: `ld8.sa_r1__r3__imm9`. -/
def execLd8SaR1R3Imm9 (o : OpM3) (s : State) : Result :=
  loadInt { spec := true, adv := true } 8 false o.qp o.r1 o.r3 (.imm (simm o.imm9)) s

/-- 42 R580: `ld1.bias_r1__r3`. -/
def execLd1BiasR1R3 (o : OpM1) (s : State) : Result := loadInt {} 1 false o.qp o.r1 o.r3 .none s

/-- 42 R580: `ld1.bias_r1__r3__r2`. -/
def execLd1BiasR1R3R2 (o : OpM2) (s : State) : Result := loadInt {} 1 false o.qp o.r1 o.r3 (.reg o.r2) s

/-- 42 R580: `ld1.bias_r1__r3__imm9`. -/
def execLd1BiasR1R3Imm9 (o : OpM3) (s : State) : Result := loadInt {} 1 false o.qp o.r1 o.r3 (.imm (simm o.imm9)) s

/-- 42 R580: `ld2.bias_r1__r3`. -/
def execLd2BiasR1R3 (o : OpM1) (s : State) : Result := loadInt {} 2 false o.qp o.r1 o.r3 .none s

/-- 42 R580: `ld2.bias_r1__r3__r2`. -/
def execLd2BiasR1R3R2 (o : OpM2) (s : State) : Result := loadInt {} 2 false o.qp o.r1 o.r3 (.reg o.r2) s

/-- 42 R580: `ld2.bias_r1__r3__imm9`. -/
def execLd2BiasR1R3Imm9 (o : OpM3) (s : State) : Result := loadInt {} 2 false o.qp o.r1 o.r3 (.imm (simm o.imm9)) s

/-- 42 R580: `ld4.bias_r1__r3`. -/
def execLd4BiasR1R3 (o : OpM1) (s : State) : Result := loadInt {} 4 false o.qp o.r1 o.r3 .none s

/-- 42 R580: `ld4.bias_r1__r3__r2`. -/
def execLd4BiasR1R3R2 (o : OpM2) (s : State) : Result := loadInt {} 4 false o.qp o.r1 o.r3 (.reg o.r2) s

/-- 42 R580: `ld4.bias_r1__r3__imm9`. -/
def execLd4BiasR1R3Imm9 (o : OpM3) (s : State) : Result := loadInt {} 4 false o.qp o.r1 o.r3 (.imm (simm o.imm9)) s

/-- 42 R580: `ld8.bias_r1__r3`. -/
def execLd8BiasR1R3 (o : OpM1) (s : State) : Result := loadInt {} 8 false o.qp o.r1 o.r3 .none s

/-- 42 R580: `ld8.bias_r1__r3__r2`. -/
def execLd8BiasR1R3R2 (o : OpM2) (s : State) : Result := loadInt {} 8 false o.qp o.r1 o.r3 (.reg o.r2) s

/-- 42 R580: `ld8.bias_r1__r3__imm9`. -/
def execLd8BiasR1R3Imm9 (o : OpM3) (s : State) : Result := loadInt {} 8 false o.qp o.r1 o.r3 (.imm (simm o.imm9)) s

/-- 42 R580: `ld1.acq_r1__r3`. -/
def execLd1AcqR1R3 (o : OpM1) (s : State) : Result := loadInt {} 1 false o.qp o.r1 o.r3 .none s

/-- 42 R580: `ld1.acq_r1__r3__r2`. -/
def execLd1AcqR1R3R2 (o : OpM2) (s : State) : Result := loadInt {} 1 false o.qp o.r1 o.r3 (.reg o.r2) s

/-- 42 R580: `ld1.acq_r1__r3__imm9`. -/
def execLd1AcqR1R3Imm9 (o : OpM3) (s : State) : Result := loadInt {} 1 false o.qp o.r1 o.r3 (.imm (simm o.imm9)) s

/-- 42 R580: `ld2.acq_r1__r3`. -/
def execLd2AcqR1R3 (o : OpM1) (s : State) : Result := loadInt {} 2 false o.qp o.r1 o.r3 .none s

/-- 42 R580: `ld2.acq_r1__r3__r2`. -/
def execLd2AcqR1R3R2 (o : OpM2) (s : State) : Result := loadInt {} 2 false o.qp o.r1 o.r3 (.reg o.r2) s

/-- 42 R580: `ld2.acq_r1__r3__imm9`. -/
def execLd2AcqR1R3Imm9 (o : OpM3) (s : State) : Result := loadInt {} 2 false o.qp o.r1 o.r3 (.imm (simm o.imm9)) s

/-- 42 R580: `ld4.acq_r1__r3`. -/
def execLd4AcqR1R3 (o : OpM1) (s : State) : Result := loadInt {} 4 false o.qp o.r1 o.r3 .none s

/-- 42 R580: `ld4.acq_r1__r3__r2`. -/
def execLd4AcqR1R3R2 (o : OpM2) (s : State) : Result := loadInt {} 4 false o.qp o.r1 o.r3 (.reg o.r2) s

/-- 42 R580: `ld4.acq_r1__r3__imm9`. -/
def execLd4AcqR1R3Imm9 (o : OpM3) (s : State) : Result := loadInt {} 4 false o.qp o.r1 o.r3 (.imm (simm o.imm9)) s

/-- 42 R580: `ld8.acq_r1__r3`. -/
def execLd8AcqR1R3 (o : OpM1) (s : State) : Result := loadInt {} 8 false o.qp o.r1 o.r3 .none s

/-- 42 R580: `ld8.acq_r1__r3__r2`. -/
def execLd8AcqR1R3R2 (o : OpM2) (s : State) : Result := loadInt {} 8 false o.qp o.r1 o.r3 (.reg o.r2) s

/-- 42 R580: `ld8.acq_r1__r3__imm9`. -/
def execLd8AcqR1R3Imm9 (o : OpM3) (s : State) : Result := loadInt {} 8 false o.qp o.r1 o.r3 (.imm (simm o.imm9)) s

/-- 42 R580: `ld1.c.clr_r1__r3`. -/
def execLd1CClrR1R3 (o : OpM1) (s : State) : Result :=
  loadInt { check := true, clr := true } 1 false o.qp o.r1 o.r3 .none s

/-- 42 R580: `ld1.c.clr_r1__r3__r2`. -/
def execLd1CClrR1R3R2 (o : OpM2) (s : State) : Result :=
  loadInt { check := true, clr := true } 1 false o.qp o.r1 o.r3 (.reg o.r2) s

/-- 42 R580: `ld1.c.clr_r1__r3__imm9`. -/
def execLd1CClrR1R3Imm9 (o : OpM3) (s : State) : Result :=
  loadInt { check := true, clr := true } 1 false o.qp o.r1 o.r3 (.imm (simm o.imm9)) s

/-- 42 R580: `ld2.c.clr_r1__r3`. -/
def execLd2CClrR1R3 (o : OpM1) (s : State) : Result :=
  loadInt { check := true, clr := true } 2 false o.qp o.r1 o.r3 .none s

/-- 42 R580: `ld2.c.clr_r1__r3__r2`. -/
def execLd2CClrR1R3R2 (o : OpM2) (s : State) : Result :=
  loadInt { check := true, clr := true } 2 false o.qp o.r1 o.r3 (.reg o.r2) s

/-- 42 R580: `ld2.c.clr_r1__r3__imm9`. -/
def execLd2CClrR1R3Imm9 (o : OpM3) (s : State) : Result :=
  loadInt { check := true, clr := true } 2 false o.qp o.r1 o.r3 (.imm (simm o.imm9)) s

/-- 42 R580: `ld4.c.clr_r1__r3`. -/
def execLd4CClrR1R3 (o : OpM1) (s : State) : Result :=
  loadInt { check := true, clr := true } 4 false o.qp o.r1 o.r3 .none s

/-- 42 R580: `ld4.c.clr_r1__r3__r2`. -/
def execLd4CClrR1R3R2 (o : OpM2) (s : State) : Result :=
  loadInt { check := true, clr := true } 4 false o.qp o.r1 o.r3 (.reg o.r2) s

/-- 42 R580: `ld4.c.clr_r1__r3__imm9`. -/
def execLd4CClrR1R3Imm9 (o : OpM3) (s : State) : Result :=
  loadInt { check := true, clr := true } 4 false o.qp o.r1 o.r3 (.imm (simm o.imm9)) s

/-- 42 R580: `ld8.c.clr_r1__r3`. -/
def execLd8CClrR1R3 (o : OpM1) (s : State) : Result :=
  loadInt { check := true, clr := true } 8 false o.qp o.r1 o.r3 .none s

/-- 42 R580: `ld8.c.clr_r1__r3__r2`. -/
def execLd8CClrR1R3R2 (o : OpM2) (s : State) : Result :=
  loadInt { check := true, clr := true } 8 false o.qp o.r1 o.r3 (.reg o.r2) s

/-- 42 R580: `ld8.c.clr_r1__r3__imm9`. -/
def execLd8CClrR1R3Imm9 (o : OpM3) (s : State) : Result :=
  loadInt { check := true, clr := true } 8 false o.qp o.r1 o.r3 (.imm (simm o.imm9)) s

/-- 42 R580: `ld1.c.nc_r1__r3`. -/
def execLd1CNcR1R3 (o : OpM1) (s : State) : Result := loadInt { check := true } 1 false o.qp o.r1 o.r3 .none s

/-- 42 R580: `ld1.c.nc_r1__r3__r2`. -/
def execLd1CNcR1R3R2 (o : OpM2) (s : State) : Result := loadInt { check := true } 1 false o.qp o.r1 o.r3 (.reg o.r2) s

/-- 42 R580: `ld1.c.nc_r1__r3__imm9`. -/
def execLd1CNcR1R3Imm9 (o : OpM3) (s : State) : Result :=
  loadInt { check := true } 1 false o.qp o.r1 o.r3 (.imm (simm o.imm9)) s

/-- 42 R580: `ld2.c.nc_r1__r3`. -/
def execLd2CNcR1R3 (o : OpM1) (s : State) : Result := loadInt { check := true } 2 false o.qp o.r1 o.r3 .none s

/-- 42 R580: `ld2.c.nc_r1__r3__r2`. -/
def execLd2CNcR1R3R2 (o : OpM2) (s : State) : Result := loadInt { check := true } 2 false o.qp o.r1 o.r3 (.reg o.r2) s

/-- 42 R580: `ld2.c.nc_r1__r3__imm9`. -/
def execLd2CNcR1R3Imm9 (o : OpM3) (s : State) : Result :=
  loadInt { check := true } 2 false o.qp o.r1 o.r3 (.imm (simm o.imm9)) s

/-- 42 R580: `ld4.c.nc_r1__r3`. -/
def execLd4CNcR1R3 (o : OpM1) (s : State) : Result := loadInt { check := true } 4 false o.qp o.r1 o.r3 .none s

/-- 42 R580: `ld4.c.nc_r1__r3__r2`. -/
def execLd4CNcR1R3R2 (o : OpM2) (s : State) : Result := loadInt { check := true } 4 false o.qp o.r1 o.r3 (.reg o.r2) s

/-- 42 R580: `ld4.c.nc_r1__r3__imm9`. -/
def execLd4CNcR1R3Imm9 (o : OpM3) (s : State) : Result :=
  loadInt { check := true } 4 false o.qp o.r1 o.r3 (.imm (simm o.imm9)) s

/-- 42 R580: `ld8.c.nc_r1__r3`. -/
def execLd8CNcR1R3 (o : OpM1) (s : State) : Result := loadInt { check := true } 8 false o.qp o.r1 o.r3 .none s

/-- 42 R580: `ld8.c.nc_r1__r3__r2`. -/
def execLd8CNcR1R3R2 (o : OpM2) (s : State) : Result := loadInt { check := true } 8 false o.qp o.r1 o.r3 (.reg o.r2) s

/-- 42 R580: `ld8.c.nc_r1__r3__imm9`. -/
def execLd8CNcR1R3Imm9 (o : OpM3) (s : State) : Result :=
  loadInt { check := true } 8 false o.qp o.r1 o.r3 (.imm (simm o.imm9)) s

/-- 42 R580: `ld1.c.clr.acq_r1__r3`. -/
def execLd1CClrAcqR1R3 (o : OpM1) (s : State) : Result :=
  loadInt { check := true, clr := true } 1 false o.qp o.r1 o.r3 .none s

/-- 42 R580: `ld1.c.clr.acq_r1__r3__r2`. -/
def execLd1CClrAcqR1R3R2 (o : OpM2) (s : State) : Result :=
  loadInt { check := true, clr := true } 1 false o.qp o.r1 o.r3 (.reg o.r2) s

/-- 42 R580: `ld1.c.clr.acq_r1__r3__imm9`. -/
def execLd1CClrAcqR1R3Imm9 (o : OpM3) (s : State) : Result :=
  loadInt { check := true, clr := true } 1 false o.qp o.r1 o.r3 (.imm (simm o.imm9)) s

/-- 42 R580: `ld2.c.clr.acq_r1__r3`. -/
def execLd2CClrAcqR1R3 (o : OpM1) (s : State) : Result :=
  loadInt { check := true, clr := true } 2 false o.qp o.r1 o.r3 .none s

/-- 42 R580: `ld2.c.clr.acq_r1__r3__r2`. -/
def execLd2CClrAcqR1R3R2 (o : OpM2) (s : State) : Result :=
  loadInt { check := true, clr := true } 2 false o.qp o.r1 o.r3 (.reg o.r2) s

/-- 42 R580: `ld2.c.clr.acq_r1__r3__imm9`. -/
def execLd2CClrAcqR1R3Imm9 (o : OpM3) (s : State) : Result :=
  loadInt { check := true, clr := true } 2 false o.qp o.r1 o.r3 (.imm (simm o.imm9)) s

/-- 42 R580: `ld4.c.clr.acq_r1__r3`. -/
def execLd4CClrAcqR1R3 (o : OpM1) (s : State) : Result :=
  loadInt { check := true, clr := true } 4 false o.qp o.r1 o.r3 .none s

/-- 42 R580: `ld4.c.clr.acq_r1__r3__r2`. -/
def execLd4CClrAcqR1R3R2 (o : OpM2) (s : State) : Result :=
  loadInt { check := true, clr := true } 4 false o.qp o.r1 o.r3 (.reg o.r2) s

/-- 42 R580: `ld4.c.clr.acq_r1__r3__imm9`. -/
def execLd4CClrAcqR1R3Imm9 (o : OpM3) (s : State) : Result :=
  loadInt { check := true, clr := true } 4 false o.qp o.r1 o.r3 (.imm (simm o.imm9)) s

/-- 42 R580: `ld8.c.clr.acq_r1__r3`. -/
def execLd8CClrAcqR1R3 (o : OpM1) (s : State) : Result :=
  loadInt { check := true, clr := true } 8 false o.qp o.r1 o.r3 .none s

/-- 42 R580: `ld8.c.clr.acq_r1__r3__r2`. -/
def execLd8CClrAcqR1R3R2 (o : OpM2) (s : State) : Result :=
  loadInt { check := true, clr := true } 8 false o.qp o.r1 o.r3 (.reg o.r2) s

/-- 42 R580: `ld8.c.clr.acq_r1__r3__imm9`. -/
def execLd8CClrAcqR1R3Imm9 (o : OpM3) (s : State) : Result :=
  loadInt { check := true, clr := true } 8 false o.qp o.r1 o.r3 (.imm (simm o.imm9)) s

/-- 42 R580: `ld8.fill_r1__r3`. -/
def execLd8FillR1R3 (o : OpM1) (s : State) : Result := loadInt {} 8 true o.qp o.r1 o.r3 .none s

/-- 42 R580: `ld8.fill_r1__r3__r2`. -/
def execLd8FillR1R3R2 (o : OpM2) (s : State) : Result := loadInt {} 8 true o.qp o.r1 o.r3 (.reg o.r2) s

/-- 42 R580: `ld8.fill_r1__r3__imm9`. -/
def execLd8FillR1R3Imm9 (o : OpM3) (s : State) : Result := loadInt {} 8 true o.qp o.r1 o.r3 (.imm (simm o.imm9)) s

/-- 42 R582: `ld16_r1_ar.csd__r3`. -/
def execLd16R1ArCsdR3 (o : OpM1) (s : State) : Result := load16 o.qp o.r1 o.r3 s

/-- 42 R582: `ld16.acq_r1_ar.csd__r3`. -/
def execLd16AcqR1ArCsdR3 (o : OpM1) (s : State) : Result := load16 o.qp o.r1 o.r3 s

end Sys2Proof.Machine
end

