-- ==== Sys2Proof/Machine/ExecSem.lean ====
section
/-!
DEFINITION. The meanings of the prefetches, the semaphores and the moves between register files (42 R588 to R595), one definition per row of the opcode
table.
-/

namespace Sys2Proof.Machine

open Sys2Proof.Config

/-- 42 R588: `lfetch__r3`. -/
def execLfetchR3 (o : OpM13) (s : State) : Result := lineFetch false o.qp o.r3 .none s

/-- 42 R588: `lfetch__r3__r2`. -/
def execLfetchR3R2 (o : OpM4) (s : State) : Result := lineFetch false o.qp o.r3 (.reg o.r2) s

/-- 42 R588: `lfetch__r3__imm9`. -/
def execLfetchR3Imm9 (o : OpM15) (s : State) : Result := lineFetch false o.qp o.r3 (.imm (simm o.imm9)) s

/-- 42 R588: `lfetch.excl__r3`. -/
def execLfetchExclR3 (o : OpM13) (s : State) : Result := lineFetch false o.qp o.r3 .none s

/-- 42 R588: `lfetch.excl__r3__r2`. -/
def execLfetchExclR3R2 (o : OpM4) (s : State) : Result := lineFetch false o.qp o.r3 (.reg o.r2) s

/-- 42 R588: `lfetch.excl__r3__imm9`. -/
def execLfetchExclR3Imm9 (o : OpM15) (s : State) : Result := lineFetch false o.qp o.r3 (.imm (simm o.imm9)) s

/-- 42 R588: `lfetch.fault__r3`. -/
def execLfetchFaultR3 (o : OpM13) (s : State) : Result := lineFetch true o.qp o.r3 .none s

/-- 42 R588: `lfetch.fault__r3__r2`. -/
def execLfetchFaultR3R2 (o : OpM4) (s : State) : Result := lineFetch true o.qp o.r3 (.reg o.r2) s

/-- 42 R588: `lfetch.fault__r3__imm9`. -/
def execLfetchFaultR3Imm9 (o : OpM15) (s : State) : Result := lineFetch true o.qp o.r3 (.imm (simm o.imm9)) s

/-- 42 R588: `lfetch.fault.excl__r3`. -/
def execLfetchFaultExclR3 (o : OpM13) (s : State) : Result := lineFetch true o.qp o.r3 .none s

/-- 42 R588: `lfetch.fault.excl__r3__r2`. -/
def execLfetchFaultExclR3R2 (o : OpM4) (s : State) : Result := lineFetch true o.qp o.r3 (.reg o.r2) s

/-- 42 R588: `lfetch.fault.excl__r3__imm9`. -/
def execLfetchFaultExclR3Imm9 (o : OpM15) (s : State) : Result := lineFetch true o.qp o.r3 (.imm (simm o.imm9)) s

/-- 42 R590: `cmpxchg1.acq`. -/
def execCmpxchg1Acq (o : OpM2) (s : State) : Result := cmpxchg 1 o.qp o.r1 o.r3 o.r2 s

/-- 42 R590: `cmpxchg1.rel`. -/
def execCmpxchg1Rel (o : OpM2) (s : State) : Result := cmpxchg 1 o.qp o.r1 o.r3 o.r2 s

/-- 42 R591: `xchg1`. -/
def execXchg1 (o : OpM2) (s : State) : Result := xchg 1 o.qp o.r1 o.r3 o.r2 s

/-- 42 R590: `cmpxchg2.acq`. -/
def execCmpxchg2Acq (o : OpM2) (s : State) : Result := cmpxchg 2 o.qp o.r1 o.r3 o.r2 s

/-- 42 R590: `cmpxchg2.rel`. -/
def execCmpxchg2Rel (o : OpM2) (s : State) : Result := cmpxchg 2 o.qp o.r1 o.r3 o.r2 s

/-- 42 R591: `xchg2`. -/
def execXchg2 (o : OpM2) (s : State) : Result := xchg 2 o.qp o.r1 o.r3 o.r2 s

/-- 42 R590: `cmpxchg4.acq`. -/
def execCmpxchg4Acq (o : OpM2) (s : State) : Result := cmpxchg 4 o.qp o.r1 o.r3 o.r2 s

/-- 42 R590: `cmpxchg4.rel`. -/
def execCmpxchg4Rel (o : OpM2) (s : State) : Result := cmpxchg 4 o.qp o.r1 o.r3 o.r2 s

/-- 42 R591: `xchg4`. -/
def execXchg4 (o : OpM2) (s : State) : Result := xchg 4 o.qp o.r1 o.r3 o.r2 s

/-- 42 R590: `cmpxchg8.acq`. -/
def execCmpxchg8Acq (o : OpM2) (s : State) : Result := cmpxchg 8 o.qp o.r1 o.r3 o.r2 s

/-- 42 R590: `cmpxchg8.rel`. -/
def execCmpxchg8Rel (o : OpM2) (s : State) : Result := cmpxchg 8 o.qp o.r1 o.r3 o.r2 s

/-- 42 R591: `xchg8`. -/
def execXchg8 (o : OpM2) (s : State) : Result := xchg 8 o.qp o.r1 o.r3 o.r2 s

/-- 42 R593: `cmp8xchg16.acq`. -/
def execCmp8xchg16Acq (o : OpM2) (s : State) : Result := cmp8xchg16 o.qp o.r1 o.r3 o.r2 s

/-- 42 R593: `cmp8xchg16.rel`. -/
def execCmp8xchg16Rel (o : OpM2) (s : State) : Result := cmp8xchg16 o.qp o.r1 o.r3 o.r2 s

/-- 42 R592: `fetchadd4.acq`. -/
def execFetchadd4Acq (o : OpM17) (s : State) : Result := fetchadd 4 o.qp o.r1 o.r3 (inc3 o.s o.i2b) s

/-- 42 R592: `fetchadd8.acq`. -/
def execFetchadd8Acq (o : OpM17) (s : State) : Result := fetchadd 8 o.qp o.r1 o.r3 (inc3 o.s o.i2b) s

/-- 42 R592: `fetchadd4.rel`. -/
def execFetchadd4Rel (o : OpM17) (s : State) : Result := fetchadd 4 o.qp o.r1 o.r3 (inc3 o.s o.i2b) s

/-- 42 R592: `fetchadd8.rel`. -/
def execFetchadd8Rel (o : OpM17) (s : State) : Result := fetchadd 8 o.qp o.r1 o.r3 (inc3 o.s o.i2b) s

/-- 42 R594: `setf.sig`. -/
def execSetfSig (o : OpM18) (s : State) : Result := setfOp o.qp o.f1 o.r2 sigFr s

/-- 42 R595: `getf.sig`. -/
def execGetfSig (o : OpM19) (s : State) : Result := getfOp o.qp o.r1 o.f2 frSig s

/-- 42 R594: `setf.exp`. -/
def execSetfExp (o : OpM18) (s : State) : Result := setfOp o.qp o.f1 o.r2 expFr s

/-- 42 R595: `getf.exp`. -/
def execGetfExp (o : OpM19) (s : State) : Result := getfOp o.qp o.r1 o.f2 frExpWord s

/-- 42 R594: `setf.s`. -/
def execSetfS (o : OpM18) (s : State) : Result :=
  setfOp o.qp o.f1 o.r2 (fun w => fromMemory .single (w.toNat % 2 ^ 32)) s

/-- 42 R595: `getf.s`. -/
def execGetfS (o : OpM19) (s : State) : Result :=
  getfOp o.qp o.r1 o.f2 (fun f => BitVec.ofNat 64 (toMemory .single f)) s

/-- 42 R594: `setf.d`. -/
def execSetfD (o : OpM18) (s : State) : Result := setfOp o.qp o.f1 o.r2 (fun w => fromMemory .double w.toNat) s

/-- 42 R595: `getf.d`. -/
def execGetfD (o : OpM19) (s : State) : Result :=
  getfOp o.qp o.r1 o.f2 (fun f => BitVec.ofNat 64 (toMemory .double f)) s

end Sys2Proof.Machine
end

