-- ==== Sys2Proof/Machine/ExecStore.lean ====
section
/-!
DEFINITION. The meanings of the integer stores (42 R583, R584), one definition per row of the opcode
table.
-/

namespace Sys2Proof.Machine

open Sys2Proof.Config

/-- 42 R583: `st1__r3__r2`. -/
def execSt1R3R2 (o : OpM4) (s : State) : Result := storeInt 1 false o.qp o.r3 o.r2 .none s

/-- 42 R583: `st1__r3__r2_imm9`. -/
def execSt1R3R2Imm9 (o : OpM5) (s : State) : Result := storeInt 1 false o.qp o.r3 o.r2 (.imm (simm o.imm9)) s

/-- 42 R583: `st2__r3__r2`. -/
def execSt2R3R2 (o : OpM4) (s : State) : Result := storeInt 2 false o.qp o.r3 o.r2 .none s

/-- 42 R583: `st2__r3__r2_imm9`. -/
def execSt2R3R2Imm9 (o : OpM5) (s : State) : Result := storeInt 2 false o.qp o.r3 o.r2 (.imm (simm o.imm9)) s

/-- 42 R583: `st4__r3__r2`. -/
def execSt4R3R2 (o : OpM4) (s : State) : Result := storeInt 4 false o.qp o.r3 o.r2 .none s

/-- 42 R583: `st4__r3__r2_imm9`. -/
def execSt4R3R2Imm9 (o : OpM5) (s : State) : Result := storeInt 4 false o.qp o.r3 o.r2 (.imm (simm o.imm9)) s

/-- 42 R583: `st8__r3__r2`. -/
def execSt8R3R2 (o : OpM4) (s : State) : Result := storeInt 8 false o.qp o.r3 o.r2 .none s

/-- 42 R583: `st8__r3__r2_imm9`. -/
def execSt8R3R2Imm9 (o : OpM5) (s : State) : Result := storeInt 8 false o.qp o.r3 o.r2 (.imm (simm o.imm9)) s

/-- 42 R583: `st1.rel__r3__r2`. -/
def execSt1RelR3R2 (o : OpM4) (s : State) : Result := storeInt 1 false o.qp o.r3 o.r2 .none s

/-- 42 R583: `st1.rel__r3__r2_imm9`. -/
def execSt1RelR3R2Imm9 (o : OpM5) (s : State) : Result := storeInt 1 false o.qp o.r3 o.r2 (.imm (simm o.imm9)) s

/-- 42 R583: `st2.rel__r3__r2`. -/
def execSt2RelR3R2 (o : OpM4) (s : State) : Result := storeInt 2 false o.qp o.r3 o.r2 .none s

/-- 42 R583: `st2.rel__r3__r2_imm9`. -/
def execSt2RelR3R2Imm9 (o : OpM5) (s : State) : Result := storeInt 2 false o.qp o.r3 o.r2 (.imm (simm o.imm9)) s

/-- 42 R583: `st4.rel__r3__r2`. -/
def execSt4RelR3R2 (o : OpM4) (s : State) : Result := storeInt 4 false o.qp o.r3 o.r2 .none s

/-- 42 R583: `st4.rel__r3__r2_imm9`. -/
def execSt4RelR3R2Imm9 (o : OpM5) (s : State) : Result := storeInt 4 false o.qp o.r3 o.r2 (.imm (simm o.imm9)) s

/-- 42 R583: `st8.rel__r3__r2`. -/
def execSt8RelR3R2 (o : OpM4) (s : State) : Result := storeInt 8 false o.qp o.r3 o.r2 .none s

/-- 42 R583: `st8.rel__r3__r2_imm9`. -/
def execSt8RelR3R2Imm9 (o : OpM5) (s : State) : Result := storeInt 8 false o.qp o.r3 o.r2 (.imm (simm o.imm9)) s

/-- 42 R583: `st8.spill__r3__r2`. -/
def execSt8SpillR3R2 (o : OpM4) (s : State) : Result := storeInt 8 true o.qp o.r3 o.r2 .none s

/-- 42 R583: `st8.spill__r3__r2_imm9`. -/
def execSt8SpillR3R2Imm9 (o : OpM5) (s : State) : Result := storeInt 8 true o.qp o.r3 o.r2 (.imm (simm o.imm9)) s

/-- 42 R584: `st16__r3__r2_ar.csd`. -/
def execSt16R3R2ArCsd (o : OpM4) (s : State) : Result := store16 o.qp o.r3 o.r2 s

/-- 42 R584: `st16.rel__r3__r2_ar.csd`. -/
def execSt16RelR3R2ArCsd (o : OpM4) (s : State) : Result := store16 o.qp o.r3 o.r2 s

end Sys2Proof.Machine
end

