-- ==== Sys2Proof/Machine/ExecSys.lean ====
section
/-!
DEFINITION. The meanings of the system instructions of the M unit (42 R596 to R645), one definition per row of the opcode
table.
-/

namespace Sys2Proof.Machine

open Sys2Proof.Config

/-- 42 R596: `chk.s.m_r2`. -/
def execChkSMR2 (o : OpI20) (s : State) : Result := chkS o.qp o.r2 o.target25 s

/-- 42 R596: `chk.s_f2`. -/
def execChkSF2 (o : OpM21) (s : State) : Result := chkSFp o.qp o.f2 o.target25 s

/-- 42 R597: `chk.a.nc_r1`. -/
def execChkANcR1 (o : OpM22) (s : State) : Result := chkA false false o.qp o.r1 o.target25 s

/-- 42 R597: `chk.a.clr_r1`. -/
def execChkAClrR1 (o : OpM22) (s : State) : Result := chkA false true o.qp o.r1 o.target25 s

/-- 42 R597: `chk.a.nc_f1`. -/
def execChkANcF1 (o : OpM23) (s : State) : Result := chkA true false o.qp o.f1 o.target25 s

/-- 42 R597: `chk.a.clr_f1`. -/
def execChkAClrF1 (o : OpM23) (s : State) : Result := chkA true true o.qp o.f1 o.target25 s

/-- 42 R613: `break.m`. -/
def execBreakM (o : OpI19) (s : State) : Result := breakOp o.qp (uimm o.imm21) false s

/-- 42 R598: `invala`. -/
def execInvala (o : OpM24) (s : State) : Result := invalidateAlat o.qp s

/-- 42 R599: `fwb`. -/
def execFwb (o : OpM24) (s : State) : Result := noEffect o.qp s

/-- 42 R640: `srlz.d`. -/
def execSrlzD (o : OpM24) (s : State) : Result := noEffect o.qp s

/-- 42 R645: `nop.m`. -/
def execNopM (o : OpI19) (s : State) : Result := nopOp o.qp false s

/-- 42 R645: `hint.m`. -/
def execHintM (o : OpI19) (s : State) : Result := hintOp o.qp (decide (o.imm21 = 0#21)) false s

/-- 42 R640: `srlz.i`. -/
def execSrlzI (o : OpM24) (s : State) : Result := serializeInstr o.qp s

/-- 42 R598: `invala.e_r1`. -/
def execInvalaER1 (o : OpI25) (s : State) : Result := invalidateEntry false o.qp o.r1 s

/-- 42 R600: `mf`. -/
def execMf (o : OpM24) (s : State) : Result := noEffect o.qp s

/-- 42 R598: `invala.e_f1`. -/
def execInvalaEF1 (o : OpM27) (s : State) : Result := invalidateEntry true o.qp o.f1 s

/-- 42 R601: `mf.a`. -/
def execMfA (o : OpM24) (s : State) : Result := noEffect o.qp s

/-- 42 R602: `sync.i`. -/
def execSyncI (o : OpM24) (s : State) : Result := noEffect o.qp s

/-- 42 R633: `sum`. -/
def execSum (o : OpM44) (s : State) : Result := userMask o.qp o.imm24 s (fun w m => w ||| m)

/-- 42 R634: `rum`. -/
def execRum (o : OpM44) (s : State) : Result := userMask o.qp o.imm24 s (fun w m => w &&& ~~~m)

/-- 42 R635: `ssm`. -/
def execSsm (o : OpM44) (s : State) : Result := systemMask true o.qp o.imm24 s

/-- 42 R636: `rsm`. -/
def execRsm (o : OpM44) (s : State) : Result := systemMask false o.qp o.imm24 s

/-- 42 R606: `mov.m_ar3_imm8`. -/
def execMovMAr3Imm8 (o : OpI27) (s : State) : Result := movToArImm false o.qp o.ar3 o.imm8 s

/-- 42 R604: `loadrs`. -/
def execLoadrs (_o : OpM24) (s : State) : Result := loadStack s

/-- 42 R603: `flushrs`. -/
def execFlushrs (_o : OpM24) (s : State) : Result := flushStack s

/-- 42 R632: `mov_rr_r3__r2`. -/
def execMovRrR3R2 (o : OpM42) (s : State) : Result := movToIndirect .rr o.qp o.r3 o.r2 s

/-- 42 R632: `mov_r1_rr_r3`. -/
def execMovR1RrR3 (o : OpI29) (s : State) : Result := movFromIndirect .rr o.qp o.r1 o.r3 s

/-- 42 R632: `mov_dbr_r3__r2`. -/
def execMovDbrR3R2 (o : OpM42) (s : State) : Result := movToIndirect .dbr o.qp o.r3 o.r2 s

/-- 42 R632: `mov_r1_dbr_r3`. -/
def execMovR1DbrR3 (o : OpI29) (s : State) : Result := movFromIndirect .dbr o.qp o.r1 o.r3 s

/-- 42 R632: `mov_ibr_r3__r2`. -/
def execMovIbrR3R2 (o : OpM42) (s : State) : Result := movToIndirect .ibr o.qp o.r3 o.r2 s

/-- 42 R632: `mov_r1_ibr_r3`. -/
def execMovR1IbrR3 (o : OpI29) (s : State) : Result := movFromIndirect .ibr o.qp o.r1 o.r3 s

/-- 42 R632: `mov_pkr_r3__r2`. -/
def execMovPkrR3R2 (o : OpM42) (s : State) : Result := movToIndirect .pkr o.qp o.r3 o.r2 s

/-- 42 R632: `mov_r1_pkr_r3`. -/
def execMovR1PkrR3 (o : OpI29) (s : State) : Result := movFromIndirect .pkr o.qp o.r1 o.r3 s

/-- 42 R632: `mov_pmc_r3__r2`. -/
def execMovPmcR3R2 (o : OpM42) (s : State) : Result := movToIndirect .pmc o.qp o.r3 o.r2 s

/-- 42 R632: `mov_r1_pmc_r3`. -/
def execMovR1PmcR3 (o : OpI29) (s : State) : Result := movFromIndirect .pmc o.qp o.r1 o.r3 s

/-- 42 R632: `mov_pmd_r3__r2`. -/
def execMovPmdR3R2 (o : OpM42) (s : State) : Result := movToIndirect .pmd o.qp o.r3 o.r2 s

/-- 42 R632: `mov_r1_pmd_r3`. -/
def execMovR1PmdR3 (o : OpI29) (s : State) : Result := movFromIndirect .pmd o.qp o.r1 o.r3 s

/-- 42 R632: `mov_r1_cpuid_r3`. -/
def execMovR1CpuidR3 (o : OpI29) (s : State) : Result := movFromCpuid o.qp o.r1 o.r3 s

/-- 42 R625: `ptc.l_r3_r2`. -/
def execPtcLR3R2 (o : OpM42) (s : State) : Result := purgeCaches o.qp o.r3 o.r2 s

/-- 42 R625: `ptc.g_r3_r2`. -/
def execPtcGR3R2 (o : OpM42) (s : State) : Result := purgeCaches o.qp o.r3 o.r2 s

/-- 42 R625: `ptc.ga_r3_r2`. -/
def execPtcGaR3R2 (o : OpM42) (s : State) : Result := purgeCachesAlat o.qp o.r3 o.r2 s

/-- 42 R625: `ptr.d_r3_r2`. -/
def execPtrDR3R2 (o : OpM42) (s : State) : Result := purgeRegisters false o.qp o.r3 o.r2 s

/-- 42 R625: `ptr.i_r3_r2`. -/
def execPtrIR3R2 (o : OpM42) (s : State) : Result := purgeRegisters true o.qp o.r3 o.r2 s

/-- 42 R625: `ptc.e_r3`. -/
def execPtcER3 (o : OpM47) (s : State) : Result := purgePartial o.qp o.r3 s

/-- 42 R622: `itr.d_dtr_r3__r2`. -/
def execItrDDtrR3R2 (o : OpM42) (s : State) : Result := itrInsert false o.qp o.r3 o.r2 s

/-- 42 R623: `itr.i_itr_r3__r2`. -/
def execItrIItrR3R2 (o : OpM42) (s : State) : Result := itrInsert true o.qp o.r3 o.r2 s

/-- 42 R620: `itc.d_r2`. -/
def execItcDR2 (o : OpM41) (s : State) : Result := itcInsert false o.qp o.r2 s

/-- 42 R621: `itc.i_r2`. -/
def execItcIR2 (o : OpM41) (s : State) : Result := itcInsert true o.qp o.r2 s

/-- 42 R614: `probe.r_r1_r3_imm2`. -/
def execProbeRR1R3Imm2 (o : OpM39) (s : State) : Result := probe false o.qp o.r1 o.r3 (.ok o.i2b) s

/-- 42 R614: `probe.w_r1_r3_imm2`. -/
def execProbeWR1R3Imm2 (o : OpM39) (s : State) : Result := probe true o.qp o.r1 o.r3 (.ok o.i2b) s

/-- 42 R614: `probe.r_r1_r3_r2`. -/
def execProbeRR1R3R2 (o : OpA1) (s : State) : Result := probe false o.qp o.r1 o.r3 (probeLevel false s o.r2) s

/-- 42 R614: `probe.w_r1_r3_r2`. -/
def execProbeWR1R3R2 (o : OpA1) (s : State) : Result := probe true o.qp o.r1 o.r3 (probeLevel true s o.r2) s

/-- 42 R614: `probe.rw.fault_r3_imm2`. -/
def execProbeRwFaultR3Imm2 (o : OpM40) (s : State) : Result := probeFault .readWrite o.qp o.r3 o.i2b s

/-- 42 R614: `probe.r.fault_r3_imm2`. -/
def execProbeRFaultR3Imm2 (o : OpM40) (s : State) : Result := probeFault .read o.qp o.r3 o.i2b s

/-- 42 R614: `probe.w.fault_r3_imm2`. -/
def execProbeWFaultR3Imm2 (o : OpM40) (s : State) : Result := probeFault .write o.qp o.r3 o.i2b s

/-- 42 R627: `thash`. -/
def execThash (o : OpI29) (s : State) : Result := hashQuery thash o.qp o.r1 o.r3 s

/-- 42 R628: `ttag`. -/
def execTtag (o : OpI29) (s : State) : Result := hashQuery (fun _ rr va => ttag rr va) o.qp o.r1 o.r3 s

/-- 42 R629: `tpa`. -/
def execTpa (o : OpI29) (s : State) : Result := tpaQuery o.qp o.r1 o.r3 s

/-- 42 R630: `tak`. -/
def execTak (o : OpI29) (s : State) : Result := takQuery o.qp o.r1 o.r3 s

/-- 42 R612: `mov_r1_psr.um`. -/
def execMovR1PsrUm (o : OpI25) (s : State) : Result := movToGr o.qp o.r1 (userMaskRead s.lp.psr) s

/-- 42 R607: `mov.m_r1_ar3`. -/
def execMovMR1Ar3 (o : OpI28) (s : State) : Result := movFromAr false o.qp o.r1 o.ar3 s

/-- 42 R609: `mov_r1_cr3`. -/
def execMovR1Cr3 (o : OpM33) (s : State) : Result := movFromCr o.qp o.r1 o.cr3 s

/-- 42 R612: `mov_r1_psr`. -/
def execMovR1Psr (o : OpI25) (s : State) : Result := movFromPsr o.qp o.r1 s

/-- 42 R611: `mov_psr.um_r2`. -/
def execMovPsrUmR2 (o : OpM41) (s : State) : Result := movToPsrUm o.qp o.r2 s

/-- 42 R606: `mov.m_ar3_r2`. -/
def execMovMAr3R2 (o : OpI26) (s : State) : Result := movToAr false o.qp o.ar3 o.r2 s

/-- 42 R608: `mov_cr3_r2`. -/
def execMovCr3R2 (o : OpM32) (s : State) : Result := movToCr o.qp o.cr3 o.r2 s

/-- 42 R611: `mov_psr.l_r2`. -/
def execMovPsrLR2 (o : OpM41) (s : State) : Result := movToPsrL o.qp o.r2 s

/-- 42 R605: `fc_r3`. -/
def execFcR3 (o : OpM47) (s : State) : Result := flushLine o.qp o.r3 s

/-- 42 R605: `fc.i_r3`. -/
def execFcIR3 (o : OpM47) (s : State) : Result := flushLine o.qp o.r3 s

/-- 42 R610: `alloc_r1_ar.pfs_i_l_o_r`. -/
def execAllocR1ArPfsILOR (o : OpM34) (s : State) : Result := allocFrame o.qp o.r1 o.sof.toNat o.sol.toNat o.sor.toNat s

end Sys2Proof.Machine
end

