-- ==== Sys2Proof/Machine/ExecX.lean ====
section
/-!
DEFINITION. The meanings of the X-type instructions (43 R691 to R694), one definition per row of the opcode
table.
-/

namespace Sys2Proof.Machine

open Sys2Proof.Config

/-- 43 R693: `break.x`. -/
def execBreakX (o : OpX1) (s : State) : Result := breakOp o.qp (uimm o.imm21) true s

/-- 43 R692: `nop.x`. -/
def execNopX (o : OpX1) (s : State) : Result := nopOp o.qp true s

/-- 43 R692: `hint.x`. -/
def execHintX (o : OpX1) (s : State) : Result := hintOp o.qp (decide (o.imm21 = 0#21 ∧ o.imm41 = 0#41)) true s

/-- 43 R691: `movl`. -/
def execMovl (o : OpX2) (s : State) : Result := alu0 o.qp o.r1 (movlImm o.i o.imm41 o.ic o.imm5c o.imm9d o.imm7b) s true

/-- 43 R694: `brl.cond_target64`. -/
def execBrlCondTarget64 (o : OpX3) (s : State) : Result :=
  branchCond .ipRelative true o.qp (longTarget s.lp.ip o.i o.imm41 o.imm20b) s

/-- 43 R694: `brl.call_b1_target64`. -/
def execBrlCallB1Target64 (o : OpX4) (s : State) : Result :=
  branchCall .ipRelative true o.qp o.b1 (longTarget s.lp.ip o.i o.imm41 o.imm20b) s

end Sys2Proof.Machine
end

