-- ==== Sys2Proof/Machine/Dispatch.lean ====
section
/-!
DEFINITION. The meaning of every instruction: one arm per constructor, each a call of the meaning of its row.
-/

namespace Sys2Proof.Machine

def exec (i : Instr) (s : State) : Host.Outcome State Fault Refusal :=
  match i with
  | .add o => Sys2Proof.Machine.execAdd o s
  | .addR1R2R31 o => Sys2Proof.Machine.execAddR1R2R31 o s
  | .sub o => Sys2Proof.Machine.execSub o s
  | .subR1R2R31 o => Sys2Proof.Machine.execSubR1R2R31 o s
  | .addp4 o => Sys2Proof.Machine.execAddp4 o s
  | .and o => Sys2Proof.Machine.execAnd o s
  | .andcm o => Sys2Proof.Machine.execAndcm o s
  | .or o => Sys2Proof.Machine.execOr o s
  | .xor o => Sys2Proof.Machine.execXor o s
  | .shladd o => Sys2Proof.Machine.execShladd o s
  | .shladdp4 o => Sys2Proof.Machine.execShladdp4 o s
  | .subR1Imm8R3 o => Sys2Proof.Machine.execSubR1Imm8R3 o s
  | .andR1Imm8R3 o => Sys2Proof.Machine.execAndR1Imm8R3 o s
  | .andcmR1Imm8R3 o => Sys2Proof.Machine.execAndcmR1Imm8R3 o s
  | .orR1Imm8R3 o => Sys2Proof.Machine.execOrR1Imm8R3 o s
  | .xorR1Imm8R3 o => Sys2Proof.Machine.execXorR1Imm8R3 o s
  | .adds o => Sys2Proof.Machine.execAdds o s
  | .addp4R1Imm14R3 o => Sys2Proof.Machine.execAddp4R1Imm14R3 o s
  | .addl o => Sys2Proof.Machine.execAddl o s
  | .cmpLtP1P2R2R3 o => Sys2Proof.Machine.execCmpLtP1P2R2R3 o s
  | .cmpGtAndP1P2R0R3 o => Sys2Proof.Machine.execCmpGtAndP1P2R0R3 o s
  | .cmp4LtP1P2R2R3 o => Sys2Proof.Machine.execCmp4LtP1P2R2R3 o s
  | .cmp4GtAndP1P2R0R3 o => Sys2Proof.Machine.execCmp4GtAndP1P2R0R3 o s
  | .cmpLtP1P2Imm8R3 o => Sys2Proof.Machine.execCmpLtP1P2Imm8R3 o s
  | .cmp4LtP1P2Imm8R3 o => Sys2Proof.Machine.execCmp4LtP1P2Imm8R3 o s
  | .cmpLtUncP1P2R2R3 o => Sys2Proof.Machine.execCmpLtUncP1P2R2R3 o s
  | .cmpLeAndP1P2R0R3 o => Sys2Proof.Machine.execCmpLeAndP1P2R0R3 o s
  | .cmp4LtUncP1P2R2R3 o => Sys2Proof.Machine.execCmp4LtUncP1P2R2R3 o s
  | .cmp4LeAndP1P2R0R3 o => Sys2Proof.Machine.execCmp4LeAndP1P2R0R3 o s
  | .cmpLtUncP1P2Imm8R3 o => Sys2Proof.Machine.execCmpLtUncP1P2Imm8R3 o s
  | .cmp4LtUncP1P2Imm8R3 o => Sys2Proof.Machine.execCmp4LtUncP1P2Imm8R3 o s
  | .cmpEqAndP1P2R2R3 o => Sys2Proof.Machine.execCmpEqAndP1P2R2R3 o s
  | .cmpGeAndP1P2R0R3 o => Sys2Proof.Machine.execCmpGeAndP1P2R0R3 o s
  | .cmp4EqAndP1P2R2R3 o => Sys2Proof.Machine.execCmp4EqAndP1P2R2R3 o s
  | .cmp4GeAndP1P2R0R3 o => Sys2Proof.Machine.execCmp4GeAndP1P2R0R3 o s
  | .cmpEqAndP1P2Imm8R3 o => Sys2Proof.Machine.execCmpEqAndP1P2Imm8R3 o s
  | .cmp4EqAndP1P2Imm8R3 o => Sys2Proof.Machine.execCmp4EqAndP1P2Imm8R3 o s
  | .cmpNeAndP1P2R2R3 o => Sys2Proof.Machine.execCmpNeAndP1P2R2R3 o s
  | .cmpLtAndP1P2R0R3 o => Sys2Proof.Machine.execCmpLtAndP1P2R0R3 o s
  | .cmp4NeAndP1P2R2R3 o => Sys2Proof.Machine.execCmp4NeAndP1P2R2R3 o s
  | .cmp4LtAndP1P2R0R3 o => Sys2Proof.Machine.execCmp4LtAndP1P2R0R3 o s
  | .cmpNeAndP1P2Imm8R3 o => Sys2Proof.Machine.execCmpNeAndP1P2Imm8R3 o s
  | .cmp4NeAndP1P2Imm8R3 o => Sys2Proof.Machine.execCmp4NeAndP1P2Imm8R3 o s
  | .cmpLtuP1P2R2R3 o => Sys2Proof.Machine.execCmpLtuP1P2R2R3 o s
  | .cmpGtOrP1P2R0R3 o => Sys2Proof.Machine.execCmpGtOrP1P2R0R3 o s
  | .cmp4LtuP1P2R2R3 o => Sys2Proof.Machine.execCmp4LtuP1P2R2R3 o s
  | .cmp4GtOrP1P2R0R3 o => Sys2Proof.Machine.execCmp4GtOrP1P2R0R3 o s
  | .cmpLtuP1P2Imm8R3 o => Sys2Proof.Machine.execCmpLtuP1P2Imm8R3 o s
  | .cmp4LtuP1P2Imm8R3 o => Sys2Proof.Machine.execCmp4LtuP1P2Imm8R3 o s
  | .cmpLtuUncP1P2R2R3 o => Sys2Proof.Machine.execCmpLtuUncP1P2R2R3 o s
  | .cmpLeOrP1P2R0R3 o => Sys2Proof.Machine.execCmpLeOrP1P2R0R3 o s
  | .cmp4LtuUncP1P2R2R3 o => Sys2Proof.Machine.execCmp4LtuUncP1P2R2R3 o s
  | .cmp4LeOrP1P2R0R3 o => Sys2Proof.Machine.execCmp4LeOrP1P2R0R3 o s
  | .cmpLtuUncP1P2Imm8R3 o => Sys2Proof.Machine.execCmpLtuUncP1P2Imm8R3 o s
  | .cmp4LtuUncP1P2Imm8R3 o => Sys2Proof.Machine.execCmp4LtuUncP1P2Imm8R3 o s
  | .cmpEqOrP1P2R2R3 o => Sys2Proof.Machine.execCmpEqOrP1P2R2R3 o s
  | .cmpGeOrP1P2R0R3 o => Sys2Proof.Machine.execCmpGeOrP1P2R0R3 o s
  | .cmp4EqOrP1P2R2R3 o => Sys2Proof.Machine.execCmp4EqOrP1P2R2R3 o s
  | .cmp4GeOrP1P2R0R3 o => Sys2Proof.Machine.execCmp4GeOrP1P2R0R3 o s
  | .cmpEqOrP1P2Imm8R3 o => Sys2Proof.Machine.execCmpEqOrP1P2Imm8R3 o s
  | .cmp4EqOrP1P2Imm8R3 o => Sys2Proof.Machine.execCmp4EqOrP1P2Imm8R3 o s
  | .cmpNeOrP1P2R2R3 o => Sys2Proof.Machine.execCmpNeOrP1P2R2R3 o s
  | .cmpLtOrP1P2R0R3 o => Sys2Proof.Machine.execCmpLtOrP1P2R0R3 o s
  | .cmp4NeOrP1P2R2R3 o => Sys2Proof.Machine.execCmp4NeOrP1P2R2R3 o s
  | .cmp4LtOrP1P2R0R3 o => Sys2Proof.Machine.execCmp4LtOrP1P2R0R3 o s
  | .cmpNeOrP1P2Imm8R3 o => Sys2Proof.Machine.execCmpNeOrP1P2Imm8R3 o s
  | .cmp4NeOrP1P2Imm8R3 o => Sys2Proof.Machine.execCmp4NeOrP1P2Imm8R3 o s
  | .cmpEqP1P2R2R3 o => Sys2Proof.Machine.execCmpEqP1P2R2R3 o s
  | .cmpGtOrAndcmP1P2R0R3 o => Sys2Proof.Machine.execCmpGtOrAndcmP1P2R0R3 o s
  | .cmp4EqP1P2R2R3 o => Sys2Proof.Machine.execCmp4EqP1P2R2R3 o s
  | .cmp4GtOrAndcmP1P2R0R3 o => Sys2Proof.Machine.execCmp4GtOrAndcmP1P2R0R3 o s
  | .cmpEqP1P2Imm8R3 o => Sys2Proof.Machine.execCmpEqP1P2Imm8R3 o s
  | .cmp4EqP1P2Imm8R3 o => Sys2Proof.Machine.execCmp4EqP1P2Imm8R3 o s
  | .cmpEqUncP1P2R2R3 o => Sys2Proof.Machine.execCmpEqUncP1P2R2R3 o s
  | .cmpLeOrAndcmP1P2R0R3 o => Sys2Proof.Machine.execCmpLeOrAndcmP1P2R0R3 o s
  | .cmp4EqUncP1P2R2R3 o => Sys2Proof.Machine.execCmp4EqUncP1P2R2R3 o s
  | .cmp4LeOrAndcmP1P2R0R3 o => Sys2Proof.Machine.execCmp4LeOrAndcmP1P2R0R3 o s
  | .cmpEqUncP1P2Imm8R3 o => Sys2Proof.Machine.execCmpEqUncP1P2Imm8R3 o s
  | .cmp4EqUncP1P2Imm8R3 o => Sys2Proof.Machine.execCmp4EqUncP1P2Imm8R3 o s
  | .cmpEqOrAndcmP1P2R2R3 o => Sys2Proof.Machine.execCmpEqOrAndcmP1P2R2R3 o s
  | .cmpGeOrAndcmP1P2R0R3 o => Sys2Proof.Machine.execCmpGeOrAndcmP1P2R0R3 o s
  | .cmp4EqOrAndcmP1P2R2R3 o => Sys2Proof.Machine.execCmp4EqOrAndcmP1P2R2R3 o s
  | .cmp4GeOrAndcmP1P2R0R3 o => Sys2Proof.Machine.execCmp4GeOrAndcmP1P2R0R3 o s
  | .cmpEqOrAndcmP1P2Imm8R3 o => Sys2Proof.Machine.execCmpEqOrAndcmP1P2Imm8R3 o s
  | .cmp4EqOrAndcmP1P2Imm8R3 o => Sys2Proof.Machine.execCmp4EqOrAndcmP1P2Imm8R3 o s
  | .cmpNeOrAndcmP1P2R2R3 o => Sys2Proof.Machine.execCmpNeOrAndcmP1P2R2R3 o s
  | .cmpLtOrAndcmP1P2R0R3 o => Sys2Proof.Machine.execCmpLtOrAndcmP1P2R0R3 o s
  | .cmp4NeOrAndcmP1P2R2R3 o => Sys2Proof.Machine.execCmp4NeOrAndcmP1P2R2R3 o s
  | .cmp4LtOrAndcmP1P2R0R3 o => Sys2Proof.Machine.execCmp4LtOrAndcmP1P2R0R3 o s
  | .cmpNeOrAndcmP1P2Imm8R3 o => Sys2Proof.Machine.execCmpNeOrAndcmP1P2Imm8R3 o s
  | .cmp4NeOrAndcmP1P2Imm8R3 o => Sys2Proof.Machine.execCmp4NeOrAndcmP1P2Imm8R3 o s
  | .padd1 o => Sys2Proof.Machine.execPadd1 o s
  | .padd1Sss o => Sys2Proof.Machine.execPadd1Sss o s
  | .padd1Uuu o => Sys2Proof.Machine.execPadd1Uuu o s
  | .padd1Uus o => Sys2Proof.Machine.execPadd1Uus o s
  | .padd2 o => Sys2Proof.Machine.execPadd2 o s
  | .padd2Sss o => Sys2Proof.Machine.execPadd2Sss o s
  | .padd2Uuu o => Sys2Proof.Machine.execPadd2Uuu o s
  | .padd2Uus o => Sys2Proof.Machine.execPadd2Uus o s
  | .padd4 o => Sys2Proof.Machine.execPadd4 o s
  | .psub1 o => Sys2Proof.Machine.execPsub1 o s
  | .psub1Sss o => Sys2Proof.Machine.execPsub1Sss o s
  | .psub1Uuu o => Sys2Proof.Machine.execPsub1Uuu o s
  | .psub1Uus o => Sys2Proof.Machine.execPsub1Uus o s
  | .psub2 o => Sys2Proof.Machine.execPsub2 o s
  | .psub2Sss o => Sys2Proof.Machine.execPsub2Sss o s
  | .psub2Uuu o => Sys2Proof.Machine.execPsub2Uuu o s
  | .psub2Uus o => Sys2Proof.Machine.execPsub2Uus o s
  | .psub4 o => Sys2Proof.Machine.execPsub4 o s
  | .pavg1 o => Sys2Proof.Machine.execPavg1 o s
  | .pavg1Raz o => Sys2Proof.Machine.execPavg1Raz o s
  | .pavgsub1 o => Sys2Proof.Machine.execPavgsub1 o s
  | .pavg2 o => Sys2Proof.Machine.execPavg2 o s
  | .pavg2Raz o => Sys2Proof.Machine.execPavg2Raz o s
  | .pavgsub2 o => Sys2Proof.Machine.execPavgsub2 o s
  | .pcmp1Eq o => Sys2Proof.Machine.execPcmp1Eq o s
  | .pcmp1Gt o => Sys2Proof.Machine.execPcmp1Gt o s
  | .pcmp2Eq o => Sys2Proof.Machine.execPcmp2Eq o s
  | .pcmp2Gt o => Sys2Proof.Machine.execPcmp2Gt o s
  | .pcmp4Eq o => Sys2Proof.Machine.execPcmp4Eq o s
  | .pcmp4Gt o => Sys2Proof.Machine.execPcmp4Gt o s
  | .pshladd2 o => Sys2Proof.Machine.execPshladd2 o s
  | .pshradd2 o => Sys2Proof.Machine.execPshradd2 o s
  | .pmpyshr2 o => Sys2Proof.Machine.execPmpyshr2 o s
  | .pmpy2 o => Sys2Proof.Machine.execPmpy2 o s
  | .mixPack o => Sys2Proof.Machine.execMixPack o s
  | .mux1 o => Sys2Proof.Machine.execMux1 o s
  | .mux2 o => Sys2Proof.Machine.execMux2 o s
  | .pshrVar o => Sys2Proof.Machine.execPshrVar o s
  | .pshrFix o => Sys2Proof.Machine.execPshrFix o s
  | .pshlVar o => Sys2Proof.Machine.execPshlVar o s
  | .pshlFix o => Sys2Proof.Machine.execPshlFix o s
  | .popcnt o => Sys2Proof.Machine.execPopcnt o s
  | .shr o => Sys2Proof.Machine.execShr o s
  | .shrU o => Sys2Proof.Machine.execShrU o s
  | .shl o => Sys2Proof.Machine.execShl o s
  | .shrp o => Sys2Proof.Machine.execShrp o s
  | .extr o => Sys2Proof.Machine.execExtr o s
  | .extrU o => Sys2Proof.Machine.execExtrU o s
  | .depZ o => Sys2Proof.Machine.execDepZ o s
  | .depZR1Imm8 o => Sys2Proof.Machine.execDepZR1Imm8 o s
  | .depR1Imm1R3 o => Sys2Proof.Machine.execDepR1Imm1R3 o s
  | .dep o => Sys2Proof.Machine.execDep o s
  | .tbitZ o => Sys2Proof.Machine.execTbitZ o s
  | .tnatZ o => Sys2Proof.Machine.execTnatZ o s
  | .tbitZUnc o => Sys2Proof.Machine.execTbitZUnc o s
  | .tnatZUnc o => Sys2Proof.Machine.execTnatZUnc o s
  | .tbitZAnd o => Sys2Proof.Machine.execTbitZAnd o s
  | .tnatZAnd o => Sys2Proof.Machine.execTnatZAnd o s
  | .tbitNzAnd o => Sys2Proof.Machine.execTbitNzAnd o s
  | .tnatNzAnd o => Sys2Proof.Machine.execTnatNzAnd o s
  | .tbitZOr o => Sys2Proof.Machine.execTbitZOr o s
  | .tnatZOr o => Sys2Proof.Machine.execTnatZOr o s
  | .tbitNzOr o => Sys2Proof.Machine.execTbitNzOr o s
  | .tnatNzOr o => Sys2Proof.Machine.execTnatNzOr o s
  | .tbitZOrAndcm o => Sys2Proof.Machine.execTbitZOrAndcm o s
  | .tnatZOrAndcm o => Sys2Proof.Machine.execTnatZOrAndcm o s
  | .tbitNzOrAndcm o => Sys2Proof.Machine.execTbitNzOrAndcm o s
  | .tnatNzOrAndcm o => Sys2Proof.Machine.execTnatNzOrAndcm o s
  | .breakI o => Sys2Proof.Machine.execBreakI o s
  | .nopI o => Sys2Proof.Machine.execNopI o s
  | .hintI o => Sys2Proof.Machine.execHintI o s
  | .chkSI o => Sys2Proof.Machine.execChkSI o s
  | .movB1R2 o => Sys2Proof.Machine.execMovB1R2 o s
  | .movR1B2 o => Sys2Proof.Machine.execMovR1B2 o s
  | .movPrR2Mask17 o => Sys2Proof.Machine.execMovPrR2Mask17 o s
  | .movPrRotImm44 o => Sys2Proof.Machine.execMovPrRotImm44 o s
  | .movR1Ip o => Sys2Proof.Machine.execMovR1Ip o s
  | .movR1Pr o => Sys2Proof.Machine.execMovR1Pr o s
  | .movIAr3R2 o => Sys2Proof.Machine.execMovIAr3R2 o s
  | .movIAr3Imm8 o => Sys2Proof.Machine.execMovIAr3Imm8 o s
  | .movIR1Ar3 o => Sys2Proof.Machine.execMovIR1Ar3 o s
  | .zxt1 o => Sys2Proof.Machine.execZxt1 o s
  | .zxt2 o => Sys2Proof.Machine.execZxt2 o s
  | .zxt4 o => Sys2Proof.Machine.execZxt4 o s
  | .sxt1 o => Sys2Proof.Machine.execSxt1 o s
  | .sxt2 o => Sys2Proof.Machine.execSxt2 o s
  | .sxt4 o => Sys2Proof.Machine.execSxt4 o s
  | .czx1L o => Sys2Proof.Machine.execCzx1L o s
  | .czx2L o => Sys2Proof.Machine.execCzx2L o s
  | .czx1R o => Sys2Proof.Machine.execCzx1R o s
  | .czx2R o => Sys2Proof.Machine.execCzx2R o s
  | .ld1R1R3 o => Sys2Proof.Machine.execLd1R1R3 o s
  | .ld1R1R3R2 o => Sys2Proof.Machine.execLd1R1R3R2 o s
  | .ld1R1R3Imm9 o => Sys2Proof.Machine.execLd1R1R3Imm9 o s
  | .ld2R1R3 o => Sys2Proof.Machine.execLd2R1R3 o s
  | .ld2R1R3R2 o => Sys2Proof.Machine.execLd2R1R3R2 o s
  | .ld2R1R3Imm9 o => Sys2Proof.Machine.execLd2R1R3Imm9 o s
  | .ld4R1R3 o => Sys2Proof.Machine.execLd4R1R3 o s
  | .ld4R1R3R2 o => Sys2Proof.Machine.execLd4R1R3R2 o s
  | .ld4R1R3Imm9 o => Sys2Proof.Machine.execLd4R1R3Imm9 o s
  | .ld8R1R3 o => Sys2Proof.Machine.execLd8R1R3 o s
  | .ld8R1R3R2 o => Sys2Proof.Machine.execLd8R1R3R2 o s
  | .ld8R1R3Imm9 o => Sys2Proof.Machine.execLd8R1R3Imm9 o s
  | .ld1SR1R3 o => Sys2Proof.Machine.execLd1SR1R3 o s
  | .ld1SR1R3R2 o => Sys2Proof.Machine.execLd1SR1R3R2 o s
  | .ld1SR1R3Imm9 o => Sys2Proof.Machine.execLd1SR1R3Imm9 o s
  | .ld2SR1R3 o => Sys2Proof.Machine.execLd2SR1R3 o s
  | .ld2SR1R3R2 o => Sys2Proof.Machine.execLd2SR1R3R2 o s
  | .ld2SR1R3Imm9 o => Sys2Proof.Machine.execLd2SR1R3Imm9 o s
  | .ld4SR1R3 o => Sys2Proof.Machine.execLd4SR1R3 o s
  | .ld4SR1R3R2 o => Sys2Proof.Machine.execLd4SR1R3R2 o s
  | .ld4SR1R3Imm9 o => Sys2Proof.Machine.execLd4SR1R3Imm9 o s
  | .ld8SR1R3 o => Sys2Proof.Machine.execLd8SR1R3 o s
  | .ld8SR1R3R2 o => Sys2Proof.Machine.execLd8SR1R3R2 o s
  | .ld8SR1R3Imm9 o => Sys2Proof.Machine.execLd8SR1R3Imm9 o s
  | .ld1AR1R3 o => Sys2Proof.Machine.execLd1AR1R3 o s
  | .ld1AR1R3R2 o => Sys2Proof.Machine.execLd1AR1R3R2 o s
  | .ld1AR1R3Imm9 o => Sys2Proof.Machine.execLd1AR1R3Imm9 o s
  | .ld2AR1R3 o => Sys2Proof.Machine.execLd2AR1R3 o s
  | .ld2AR1R3R2 o => Sys2Proof.Machine.execLd2AR1R3R2 o s
  | .ld2AR1R3Imm9 o => Sys2Proof.Machine.execLd2AR1R3Imm9 o s
  | .ld4AR1R3 o => Sys2Proof.Machine.execLd4AR1R3 o s
  | .ld4AR1R3R2 o => Sys2Proof.Machine.execLd4AR1R3R2 o s
  | .ld4AR1R3Imm9 o => Sys2Proof.Machine.execLd4AR1R3Imm9 o s
  | .ld8AR1R3 o => Sys2Proof.Machine.execLd8AR1R3 o s
  | .ld8AR1R3R2 o => Sys2Proof.Machine.execLd8AR1R3R2 o s
  | .ld8AR1R3Imm9 o => Sys2Proof.Machine.execLd8AR1R3Imm9 o s
  | .ld1SaR1R3 o => Sys2Proof.Machine.execLd1SaR1R3 o s
  | .ld1SaR1R3R2 o => Sys2Proof.Machine.execLd1SaR1R3R2 o s
  | .ld1SaR1R3Imm9 o => Sys2Proof.Machine.execLd1SaR1R3Imm9 o s
  | .ld2SaR1R3 o => Sys2Proof.Machine.execLd2SaR1R3 o s
  | .ld2SaR1R3R2 o => Sys2Proof.Machine.execLd2SaR1R3R2 o s
  | .ld2SaR1R3Imm9 o => Sys2Proof.Machine.execLd2SaR1R3Imm9 o s
  | .ld4SaR1R3 o => Sys2Proof.Machine.execLd4SaR1R3 o s
  | .ld4SaR1R3R2 o => Sys2Proof.Machine.execLd4SaR1R3R2 o s
  | .ld4SaR1R3Imm9 o => Sys2Proof.Machine.execLd4SaR1R3Imm9 o s
  | .ld8SaR1R3 o => Sys2Proof.Machine.execLd8SaR1R3 o s
  | .ld8SaR1R3R2 o => Sys2Proof.Machine.execLd8SaR1R3R2 o s
  | .ld8SaR1R3Imm9 o => Sys2Proof.Machine.execLd8SaR1R3Imm9 o s
  | .ld1BiasR1R3 o => Sys2Proof.Machine.execLd1BiasR1R3 o s
  | .ld1BiasR1R3R2 o => Sys2Proof.Machine.execLd1BiasR1R3R2 o s
  | .ld1BiasR1R3Imm9 o => Sys2Proof.Machine.execLd1BiasR1R3Imm9 o s
  | .ld2BiasR1R3 o => Sys2Proof.Machine.execLd2BiasR1R3 o s
  | .ld2BiasR1R3R2 o => Sys2Proof.Machine.execLd2BiasR1R3R2 o s
  | .ld2BiasR1R3Imm9 o => Sys2Proof.Machine.execLd2BiasR1R3Imm9 o s
  | .ld4BiasR1R3 o => Sys2Proof.Machine.execLd4BiasR1R3 o s
  | .ld4BiasR1R3R2 o => Sys2Proof.Machine.execLd4BiasR1R3R2 o s
  | .ld4BiasR1R3Imm9 o => Sys2Proof.Machine.execLd4BiasR1R3Imm9 o s
  | .ld8BiasR1R3 o => Sys2Proof.Machine.execLd8BiasR1R3 o s
  | .ld8BiasR1R3R2 o => Sys2Proof.Machine.execLd8BiasR1R3R2 o s
  | .ld8BiasR1R3Imm9 o => Sys2Proof.Machine.execLd8BiasR1R3Imm9 o s
  | .ld1AcqR1R3 o => Sys2Proof.Machine.execLd1AcqR1R3 o s
  | .ld1AcqR1R3R2 o => Sys2Proof.Machine.execLd1AcqR1R3R2 o s
  | .ld1AcqR1R3Imm9 o => Sys2Proof.Machine.execLd1AcqR1R3Imm9 o s
  | .ld2AcqR1R3 o => Sys2Proof.Machine.execLd2AcqR1R3 o s
  | .ld2AcqR1R3R2 o => Sys2Proof.Machine.execLd2AcqR1R3R2 o s
  | .ld2AcqR1R3Imm9 o => Sys2Proof.Machine.execLd2AcqR1R3Imm9 o s
  | .ld4AcqR1R3 o => Sys2Proof.Machine.execLd4AcqR1R3 o s
  | .ld4AcqR1R3R2 o => Sys2Proof.Machine.execLd4AcqR1R3R2 o s
  | .ld4AcqR1R3Imm9 o => Sys2Proof.Machine.execLd4AcqR1R3Imm9 o s
  | .ld8AcqR1R3 o => Sys2Proof.Machine.execLd8AcqR1R3 o s
  | .ld8AcqR1R3R2 o => Sys2Proof.Machine.execLd8AcqR1R3R2 o s
  | .ld8AcqR1R3Imm9 o => Sys2Proof.Machine.execLd8AcqR1R3Imm9 o s
  | .ld1CClrR1R3 o => Sys2Proof.Machine.execLd1CClrR1R3 o s
  | .ld1CClrR1R3R2 o => Sys2Proof.Machine.execLd1CClrR1R3R2 o s
  | .ld1CClrR1R3Imm9 o => Sys2Proof.Machine.execLd1CClrR1R3Imm9 o s
  | .ld2CClrR1R3 o => Sys2Proof.Machine.execLd2CClrR1R3 o s
  | .ld2CClrR1R3R2 o => Sys2Proof.Machine.execLd2CClrR1R3R2 o s
  | .ld2CClrR1R3Imm9 o => Sys2Proof.Machine.execLd2CClrR1R3Imm9 o s
  | .ld4CClrR1R3 o => Sys2Proof.Machine.execLd4CClrR1R3 o s
  | .ld4CClrR1R3R2 o => Sys2Proof.Machine.execLd4CClrR1R3R2 o s
  | .ld4CClrR1R3Imm9 o => Sys2Proof.Machine.execLd4CClrR1R3Imm9 o s
  | .ld8CClrR1R3 o => Sys2Proof.Machine.execLd8CClrR1R3 o s
  | .ld8CClrR1R3R2 o => Sys2Proof.Machine.execLd8CClrR1R3R2 o s
  | .ld8CClrR1R3Imm9 o => Sys2Proof.Machine.execLd8CClrR1R3Imm9 o s
  | .ld1CNcR1R3 o => Sys2Proof.Machine.execLd1CNcR1R3 o s
  | .ld1CNcR1R3R2 o => Sys2Proof.Machine.execLd1CNcR1R3R2 o s
  | .ld1CNcR1R3Imm9 o => Sys2Proof.Machine.execLd1CNcR1R3Imm9 o s
  | .ld2CNcR1R3 o => Sys2Proof.Machine.execLd2CNcR1R3 o s
  | .ld2CNcR1R3R2 o => Sys2Proof.Machine.execLd2CNcR1R3R2 o s
  | .ld2CNcR1R3Imm9 o => Sys2Proof.Machine.execLd2CNcR1R3Imm9 o s
  | .ld4CNcR1R3 o => Sys2Proof.Machine.execLd4CNcR1R3 o s
  | .ld4CNcR1R3R2 o => Sys2Proof.Machine.execLd4CNcR1R3R2 o s
  | .ld4CNcR1R3Imm9 o => Sys2Proof.Machine.execLd4CNcR1R3Imm9 o s
  | .ld8CNcR1R3 o => Sys2Proof.Machine.execLd8CNcR1R3 o s
  | .ld8CNcR1R3R2 o => Sys2Proof.Machine.execLd8CNcR1R3R2 o s
  | .ld8CNcR1R3Imm9 o => Sys2Proof.Machine.execLd8CNcR1R3Imm9 o s
  | .ld1CClrAcqR1R3 o => Sys2Proof.Machine.execLd1CClrAcqR1R3 o s
  | .ld1CClrAcqR1R3R2 o => Sys2Proof.Machine.execLd1CClrAcqR1R3R2 o s
  | .ld1CClrAcqR1R3Imm9 o => Sys2Proof.Machine.execLd1CClrAcqR1R3Imm9 o s
  | .ld2CClrAcqR1R3 o => Sys2Proof.Machine.execLd2CClrAcqR1R3 o s
  | .ld2CClrAcqR1R3R2 o => Sys2Proof.Machine.execLd2CClrAcqR1R3R2 o s
  | .ld2CClrAcqR1R3Imm9 o => Sys2Proof.Machine.execLd2CClrAcqR1R3Imm9 o s
  | .ld4CClrAcqR1R3 o => Sys2Proof.Machine.execLd4CClrAcqR1R3 o s
  | .ld4CClrAcqR1R3R2 o => Sys2Proof.Machine.execLd4CClrAcqR1R3R2 o s
  | .ld4CClrAcqR1R3Imm9 o => Sys2Proof.Machine.execLd4CClrAcqR1R3Imm9 o s
  | .ld8CClrAcqR1R3 o => Sys2Proof.Machine.execLd8CClrAcqR1R3 o s
  | .ld8CClrAcqR1R3R2 o => Sys2Proof.Machine.execLd8CClrAcqR1R3R2 o s
  | .ld8CClrAcqR1R3Imm9 o => Sys2Proof.Machine.execLd8CClrAcqR1R3Imm9 o s
  | .ld8FillR1R3 o => Sys2Proof.Machine.execLd8FillR1R3 o s
  | .ld8FillR1R3R2 o => Sys2Proof.Machine.execLd8FillR1R3R2 o s
  | .ld8FillR1R3Imm9 o => Sys2Proof.Machine.execLd8FillR1R3Imm9 o s
  | .ld16R1ArCsdR3 o => Sys2Proof.Machine.execLd16R1ArCsdR3 o s
  | .ld16AcqR1ArCsdR3 o => Sys2Proof.Machine.execLd16AcqR1ArCsdR3 o s
  | .st1R3R2 o => Sys2Proof.Machine.execSt1R3R2 o s
  | .st1R3R2Imm9 o => Sys2Proof.Machine.execSt1R3R2Imm9 o s
  | .st2R3R2 o => Sys2Proof.Machine.execSt2R3R2 o s
  | .st2R3R2Imm9 o => Sys2Proof.Machine.execSt2R3R2Imm9 o s
  | .st4R3R2 o => Sys2Proof.Machine.execSt4R3R2 o s
  | .st4R3R2Imm9 o => Sys2Proof.Machine.execSt4R3R2Imm9 o s
  | .st8R3R2 o => Sys2Proof.Machine.execSt8R3R2 o s
  | .st8R3R2Imm9 o => Sys2Proof.Machine.execSt8R3R2Imm9 o s
  | .st1RelR3R2 o => Sys2Proof.Machine.execSt1RelR3R2 o s
  | .st1RelR3R2Imm9 o => Sys2Proof.Machine.execSt1RelR3R2Imm9 o s
  | .st2RelR3R2 o => Sys2Proof.Machine.execSt2RelR3R2 o s
  | .st2RelR3R2Imm9 o => Sys2Proof.Machine.execSt2RelR3R2Imm9 o s
  | .st4RelR3R2 o => Sys2Proof.Machine.execSt4RelR3R2 o s
  | .st4RelR3R2Imm9 o => Sys2Proof.Machine.execSt4RelR3R2Imm9 o s
  | .st8RelR3R2 o => Sys2Proof.Machine.execSt8RelR3R2 o s
  | .st8RelR3R2Imm9 o => Sys2Proof.Machine.execSt8RelR3R2Imm9 o s
  | .st8SpillR3R2 o => Sys2Proof.Machine.execSt8SpillR3R2 o s
  | .st8SpillR3R2Imm9 o => Sys2Proof.Machine.execSt8SpillR3R2Imm9 o s
  | .st16R3R2ArCsd o => Sys2Proof.Machine.execSt16R3R2ArCsd o s
  | .st16RelR3R2ArCsd o => Sys2Proof.Machine.execSt16RelR3R2ArCsd o s
  | .ldfeF1R3 o => Sys2Proof.Machine.execLdfeF1R3 o s
  | .ldfeF1R3R2 o => Sys2Proof.Machine.execLdfeF1R3R2 o s
  | .ldfeF1R3Imm9 o => Sys2Proof.Machine.execLdfeF1R3Imm9 o s
  | .ldf8F1R3 o => Sys2Proof.Machine.execLdf8F1R3 o s
  | .ldf8F1R3R2 o => Sys2Proof.Machine.execLdf8F1R3R2 o s
  | .ldf8F1R3Imm9 o => Sys2Proof.Machine.execLdf8F1R3Imm9 o s
  | .ldfsF1R3 o => Sys2Proof.Machine.execLdfsF1R3 o s
  | .ldfsF1R3R2 o => Sys2Proof.Machine.execLdfsF1R3R2 o s
  | .ldfsF1R3Imm9 o => Sys2Proof.Machine.execLdfsF1R3Imm9 o s
  | .ldfdF1R3 o => Sys2Proof.Machine.execLdfdF1R3 o s
  | .ldfdF1R3R2 o => Sys2Proof.Machine.execLdfdF1R3R2 o s
  | .ldfdF1R3Imm9 o => Sys2Proof.Machine.execLdfdF1R3Imm9 o s
  | .ldfeSF1R3 o => Sys2Proof.Machine.execLdfeSF1R3 o s
  | .ldfeSF1R3R2 o => Sys2Proof.Machine.execLdfeSF1R3R2 o s
  | .ldfeSF1R3Imm9 o => Sys2Proof.Machine.execLdfeSF1R3Imm9 o s
  | .ldf8SF1R3 o => Sys2Proof.Machine.execLdf8SF1R3 o s
  | .ldf8SF1R3R2 o => Sys2Proof.Machine.execLdf8SF1R3R2 o s
  | .ldf8SF1R3Imm9 o => Sys2Proof.Machine.execLdf8SF1R3Imm9 o s
  | .ldfsSF1R3 o => Sys2Proof.Machine.execLdfsSF1R3 o s
  | .ldfsSF1R3R2 o => Sys2Proof.Machine.execLdfsSF1R3R2 o s
  | .ldfsSF1R3Imm9 o => Sys2Proof.Machine.execLdfsSF1R3Imm9 o s
  | .ldfdSF1R3 o => Sys2Proof.Machine.execLdfdSF1R3 o s
  | .ldfdSF1R3R2 o => Sys2Proof.Machine.execLdfdSF1R3R2 o s
  | .ldfdSF1R3Imm9 o => Sys2Proof.Machine.execLdfdSF1R3Imm9 o s
  | .ldfeAF1R3 o => Sys2Proof.Machine.execLdfeAF1R3 o s
  | .ldfeAF1R3R2 o => Sys2Proof.Machine.execLdfeAF1R3R2 o s
  | .ldfeAF1R3Imm9 o => Sys2Proof.Machine.execLdfeAF1R3Imm9 o s
  | .ldf8AF1R3 o => Sys2Proof.Machine.execLdf8AF1R3 o s
  | .ldf8AF1R3R2 o => Sys2Proof.Machine.execLdf8AF1R3R2 o s
  | .ldf8AF1R3Imm9 o => Sys2Proof.Machine.execLdf8AF1R3Imm9 o s
  | .ldfsAF1R3 o => Sys2Proof.Machine.execLdfsAF1R3 o s
  | .ldfsAF1R3R2 o => Sys2Proof.Machine.execLdfsAF1R3R2 o s
  | .ldfsAF1R3Imm9 o => Sys2Proof.Machine.execLdfsAF1R3Imm9 o s
  | .ldfdAF1R3 o => Sys2Proof.Machine.execLdfdAF1R3 o s
  | .ldfdAF1R3R2 o => Sys2Proof.Machine.execLdfdAF1R3R2 o s
  | .ldfdAF1R3Imm9 o => Sys2Proof.Machine.execLdfdAF1R3Imm9 o s
  | .ldfeSaF1R3 o => Sys2Proof.Machine.execLdfeSaF1R3 o s
  | .ldfeSaF1R3R2 o => Sys2Proof.Machine.execLdfeSaF1R3R2 o s
  | .ldfeSaF1R3Imm9 o => Sys2Proof.Machine.execLdfeSaF1R3Imm9 o s
  | .ldf8SaF1R3 o => Sys2Proof.Machine.execLdf8SaF1R3 o s
  | .ldf8SaF1R3R2 o => Sys2Proof.Machine.execLdf8SaF1R3R2 o s
  | .ldf8SaF1R3Imm9 o => Sys2Proof.Machine.execLdf8SaF1R3Imm9 o s
  | .ldfsSaF1R3 o => Sys2Proof.Machine.execLdfsSaF1R3 o s
  | .ldfsSaF1R3R2 o => Sys2Proof.Machine.execLdfsSaF1R3R2 o s
  | .ldfsSaF1R3Imm9 o => Sys2Proof.Machine.execLdfsSaF1R3Imm9 o s
  | .ldfdSaF1R3 o => Sys2Proof.Machine.execLdfdSaF1R3 o s
  | .ldfdSaF1R3R2 o => Sys2Proof.Machine.execLdfdSaF1R3R2 o s
  | .ldfdSaF1R3Imm9 o => Sys2Proof.Machine.execLdfdSaF1R3Imm9 o s
  | .ldfeCClrF1R3 o => Sys2Proof.Machine.execLdfeCClrF1R3 o s
  | .ldfeCClrF1R3R2 o => Sys2Proof.Machine.execLdfeCClrF1R3R2 o s
  | .ldfeCClrF1R3Imm9 o => Sys2Proof.Machine.execLdfeCClrF1R3Imm9 o s
  | .ldf8CClrF1R3 o => Sys2Proof.Machine.execLdf8CClrF1R3 o s
  | .ldf8CClrF1R3R2 o => Sys2Proof.Machine.execLdf8CClrF1R3R2 o s
  | .ldf8CClrF1R3Imm9 o => Sys2Proof.Machine.execLdf8CClrF1R3Imm9 o s
  | .ldfsCClrF1R3 o => Sys2Proof.Machine.execLdfsCClrF1R3 o s
  | .ldfsCClrF1R3R2 o => Sys2Proof.Machine.execLdfsCClrF1R3R2 o s
  | .ldfsCClrF1R3Imm9 o => Sys2Proof.Machine.execLdfsCClrF1R3Imm9 o s
  | .ldfdCClrF1R3 o => Sys2Proof.Machine.execLdfdCClrF1R3 o s
  | .ldfdCClrF1R3R2 o => Sys2Proof.Machine.execLdfdCClrF1R3R2 o s
  | .ldfdCClrF1R3Imm9 o => Sys2Proof.Machine.execLdfdCClrF1R3Imm9 o s
  | .ldfeCNcF1R3 o => Sys2Proof.Machine.execLdfeCNcF1R3 o s
  | .ldfeCNcF1R3R2 o => Sys2Proof.Machine.execLdfeCNcF1R3R2 o s
  | .ldfeCNcF1R3Imm9 o => Sys2Proof.Machine.execLdfeCNcF1R3Imm9 o s
  | .ldf8CNcF1R3 o => Sys2Proof.Machine.execLdf8CNcF1R3 o s
  | .ldf8CNcF1R3R2 o => Sys2Proof.Machine.execLdf8CNcF1R3R2 o s
  | .ldf8CNcF1R3Imm9 o => Sys2Proof.Machine.execLdf8CNcF1R3Imm9 o s
  | .ldfsCNcF1R3 o => Sys2Proof.Machine.execLdfsCNcF1R3 o s
  | .ldfsCNcF1R3R2 o => Sys2Proof.Machine.execLdfsCNcF1R3R2 o s
  | .ldfsCNcF1R3Imm9 o => Sys2Proof.Machine.execLdfsCNcF1R3Imm9 o s
  | .ldfdCNcF1R3 o => Sys2Proof.Machine.execLdfdCNcF1R3 o s
  | .ldfdCNcF1R3R2 o => Sys2Proof.Machine.execLdfdCNcF1R3R2 o s
  | .ldfdCNcF1R3Imm9 o => Sys2Proof.Machine.execLdfdCNcF1R3Imm9 o s
  | .ldfFillF1R3 o => Sys2Proof.Machine.execLdfFillF1R3 o s
  | .ldfFillF1R3R2 o => Sys2Proof.Machine.execLdfFillF1R3R2 o s
  | .ldfFillF1R3Imm9 o => Sys2Proof.Machine.execLdfFillF1R3Imm9 o s
  | .stfeR3F2 o => Sys2Proof.Machine.execStfeR3F2 o s
  | .stfeR3F2Imm9 o => Sys2Proof.Machine.execStfeR3F2Imm9 o s
  | .stf8R3F2 o => Sys2Proof.Machine.execStf8R3F2 o s
  | .stf8R3F2Imm9 o => Sys2Proof.Machine.execStf8R3F2Imm9 o s
  | .stfsR3F2 o => Sys2Proof.Machine.execStfsR3F2 o s
  | .stfsR3F2Imm9 o => Sys2Proof.Machine.execStfsR3F2Imm9 o s
  | .stfdR3F2 o => Sys2Proof.Machine.execStfdR3F2 o s
  | .stfdR3F2Imm9 o => Sys2Proof.Machine.execStfdR3F2Imm9 o s
  | .stfSpillR3F2 o => Sys2Proof.Machine.execStfSpillR3F2 o s
  | .stfSpillR3F2Imm9 o => Sys2Proof.Machine.execStfSpillR3F2Imm9 o s
  | .ldfp8F1F2R3 o => Sys2Proof.Machine.execLdfp8F1F2R3 o s
  | .ldfp8F1F2R316 o => Sys2Proof.Machine.execLdfp8F1F2R316 o s
  | .ldfpsF1F2R3 o => Sys2Proof.Machine.execLdfpsF1F2R3 o s
  | .ldfpsF1F2R38 o => Sys2Proof.Machine.execLdfpsF1F2R38 o s
  | .ldfpdF1F2R3 o => Sys2Proof.Machine.execLdfpdF1F2R3 o s
  | .ldfpdF1F2R316 o => Sys2Proof.Machine.execLdfpdF1F2R316 o s
  | .ldfp8SF1F2R3 o => Sys2Proof.Machine.execLdfp8SF1F2R3 o s
  | .ldfp8SF1F2R316 o => Sys2Proof.Machine.execLdfp8SF1F2R316 o s
  | .ldfpsSF1F2R3 o => Sys2Proof.Machine.execLdfpsSF1F2R3 o s
  | .ldfpsSF1F2R38 o => Sys2Proof.Machine.execLdfpsSF1F2R38 o s
  | .ldfpdSF1F2R3 o => Sys2Proof.Machine.execLdfpdSF1F2R3 o s
  | .ldfpdSF1F2R316 o => Sys2Proof.Machine.execLdfpdSF1F2R316 o s
  | .ldfp8AF1F2R3 o => Sys2Proof.Machine.execLdfp8AF1F2R3 o s
  | .ldfp8AF1F2R316 o => Sys2Proof.Machine.execLdfp8AF1F2R316 o s
  | .ldfpsAF1F2R3 o => Sys2Proof.Machine.execLdfpsAF1F2R3 o s
  | .ldfpsAF1F2R38 o => Sys2Proof.Machine.execLdfpsAF1F2R38 o s
  | .ldfpdAF1F2R3 o => Sys2Proof.Machine.execLdfpdAF1F2R3 o s
  | .ldfpdAF1F2R316 o => Sys2Proof.Machine.execLdfpdAF1F2R316 o s
  | .ldfp8SaF1F2R3 o => Sys2Proof.Machine.execLdfp8SaF1F2R3 o s
  | .ldfp8SaF1F2R316 o => Sys2Proof.Machine.execLdfp8SaF1F2R316 o s
  | .ldfpsSaF1F2R3 o => Sys2Proof.Machine.execLdfpsSaF1F2R3 o s
  | .ldfpsSaF1F2R38 o => Sys2Proof.Machine.execLdfpsSaF1F2R38 o s
  | .ldfpdSaF1F2R3 o => Sys2Proof.Machine.execLdfpdSaF1F2R3 o s
  | .ldfpdSaF1F2R316 o => Sys2Proof.Machine.execLdfpdSaF1F2R316 o s
  | .ldfp8CClrF1F2R3 o => Sys2Proof.Machine.execLdfp8CClrF1F2R3 o s
  | .ldfp8CClrF1F2R316 o => Sys2Proof.Machine.execLdfp8CClrF1F2R316 o s
  | .ldfpsCClrF1F2R3 o => Sys2Proof.Machine.execLdfpsCClrF1F2R3 o s
  | .ldfpsCClrF1F2R38 o => Sys2Proof.Machine.execLdfpsCClrF1F2R38 o s
  | .ldfpdCClrF1F2R3 o => Sys2Proof.Machine.execLdfpdCClrF1F2R3 o s
  | .ldfpdCClrF1F2R316 o => Sys2Proof.Machine.execLdfpdCClrF1F2R316 o s
  | .ldfp8CNcF1F2R3 o => Sys2Proof.Machine.execLdfp8CNcF1F2R3 o s
  | .ldfp8CNcF1F2R316 o => Sys2Proof.Machine.execLdfp8CNcF1F2R316 o s
  | .ldfpsCNcF1F2R3 o => Sys2Proof.Machine.execLdfpsCNcF1F2R3 o s
  | .ldfpsCNcF1F2R38 o => Sys2Proof.Machine.execLdfpsCNcF1F2R38 o s
  | .ldfpdCNcF1F2R3 o => Sys2Proof.Machine.execLdfpdCNcF1F2R3 o s
  | .ldfpdCNcF1F2R316 o => Sys2Proof.Machine.execLdfpdCNcF1F2R316 o s
  | .lfetchR3 o => Sys2Proof.Machine.execLfetchR3 o s
  | .lfetchR3R2 o => Sys2Proof.Machine.execLfetchR3R2 o s
  | .lfetchR3Imm9 o => Sys2Proof.Machine.execLfetchR3Imm9 o s
  | .lfetchExclR3 o => Sys2Proof.Machine.execLfetchExclR3 o s
  | .lfetchExclR3R2 o => Sys2Proof.Machine.execLfetchExclR3R2 o s
  | .lfetchExclR3Imm9 o => Sys2Proof.Machine.execLfetchExclR3Imm9 o s
  | .lfetchFaultR3 o => Sys2Proof.Machine.execLfetchFaultR3 o s
  | .lfetchFaultR3R2 o => Sys2Proof.Machine.execLfetchFaultR3R2 o s
  | .lfetchFaultR3Imm9 o => Sys2Proof.Machine.execLfetchFaultR3Imm9 o s
  | .lfetchFaultExclR3 o => Sys2Proof.Machine.execLfetchFaultExclR3 o s
  | .lfetchFaultExclR3R2 o => Sys2Proof.Machine.execLfetchFaultExclR3R2 o s
  | .lfetchFaultExclR3Imm9 o => Sys2Proof.Machine.execLfetchFaultExclR3Imm9 o s
  | .cmpxchg1Acq o => Sys2Proof.Machine.execCmpxchg1Acq o s
  | .cmpxchg1Rel o => Sys2Proof.Machine.execCmpxchg1Rel o s
  | .xchg1 o => Sys2Proof.Machine.execXchg1 o s
  | .cmpxchg2Acq o => Sys2Proof.Machine.execCmpxchg2Acq o s
  | .cmpxchg2Rel o => Sys2Proof.Machine.execCmpxchg2Rel o s
  | .xchg2 o => Sys2Proof.Machine.execXchg2 o s
  | .cmpxchg4Acq o => Sys2Proof.Machine.execCmpxchg4Acq o s
  | .cmpxchg4Rel o => Sys2Proof.Machine.execCmpxchg4Rel o s
  | .xchg4 o => Sys2Proof.Machine.execXchg4 o s
  | .cmpxchg8Acq o => Sys2Proof.Machine.execCmpxchg8Acq o s
  | .cmpxchg8Rel o => Sys2Proof.Machine.execCmpxchg8Rel o s
  | .xchg8 o => Sys2Proof.Machine.execXchg8 o s
  | .cmp8xchg16Acq o => Sys2Proof.Machine.execCmp8xchg16Acq o s
  | .cmp8xchg16Rel o => Sys2Proof.Machine.execCmp8xchg16Rel o s
  | .fetchadd4Acq o => Sys2Proof.Machine.execFetchadd4Acq o s
  | .fetchadd8Acq o => Sys2Proof.Machine.execFetchadd8Acq o s
  | .fetchadd4Rel o => Sys2Proof.Machine.execFetchadd4Rel o s
  | .fetchadd8Rel o => Sys2Proof.Machine.execFetchadd8Rel o s
  | .setfSig o => Sys2Proof.Machine.execSetfSig o s
  | .getfSig o => Sys2Proof.Machine.execGetfSig o s
  | .setfExp o => Sys2Proof.Machine.execSetfExp o s
  | .getfExp o => Sys2Proof.Machine.execGetfExp o s
  | .setfS o => Sys2Proof.Machine.execSetfS o s
  | .getfS o => Sys2Proof.Machine.execGetfS o s
  | .setfD o => Sys2Proof.Machine.execSetfD o s
  | .getfD o => Sys2Proof.Machine.execGetfD o s
  | .chkSMR2 o => Sys2Proof.Machine.execChkSMR2 o s
  | .chkSF2 o => Sys2Proof.Machine.execChkSF2 o s
  | .chkANcR1 o => Sys2Proof.Machine.execChkANcR1 o s
  | .chkAClrR1 o => Sys2Proof.Machine.execChkAClrR1 o s
  | .chkANcF1 o => Sys2Proof.Machine.execChkANcF1 o s
  | .chkAClrF1 o => Sys2Proof.Machine.execChkAClrF1 o s
  | .breakM o => Sys2Proof.Machine.execBreakM o s
  | .invala o => Sys2Proof.Machine.execInvala o s
  | .fwb o => Sys2Proof.Machine.execFwb o s
  | .srlzD o => Sys2Proof.Machine.execSrlzD o s
  | .nopM o => Sys2Proof.Machine.execNopM o s
  | .hintM o => Sys2Proof.Machine.execHintM o s
  | .srlzI o => Sys2Proof.Machine.execSrlzI o s
  | .invalaER1 o => Sys2Proof.Machine.execInvalaER1 o s
  | .mf o => Sys2Proof.Machine.execMf o s
  | .invalaEF1 o => Sys2Proof.Machine.execInvalaEF1 o s
  | .mfA o => Sys2Proof.Machine.execMfA o s
  | .syncI o => Sys2Proof.Machine.execSyncI o s
  | .sum o => Sys2Proof.Machine.execSum o s
  | .rum o => Sys2Proof.Machine.execRum o s
  | .ssm o => Sys2Proof.Machine.execSsm o s
  | .rsm o => Sys2Proof.Machine.execRsm o s
  | .movMAr3Imm8 o => Sys2Proof.Machine.execMovMAr3Imm8 o s
  | .loadrs o => Sys2Proof.Machine.execLoadrs o s
  | .flushrs o => Sys2Proof.Machine.execFlushrs o s
  | .movRrR3R2 o => Sys2Proof.Machine.execMovRrR3R2 o s
  | .movR1RrR3 o => Sys2Proof.Machine.execMovR1RrR3 o s
  | .movDbrR3R2 o => Sys2Proof.Machine.execMovDbrR3R2 o s
  | .movR1DbrR3 o => Sys2Proof.Machine.execMovR1DbrR3 o s
  | .movIbrR3R2 o => Sys2Proof.Machine.execMovIbrR3R2 o s
  | .movR1IbrR3 o => Sys2Proof.Machine.execMovR1IbrR3 o s
  | .movPkrR3R2 o => Sys2Proof.Machine.execMovPkrR3R2 o s
  | .movR1PkrR3 o => Sys2Proof.Machine.execMovR1PkrR3 o s
  | .movPmcR3R2 o => Sys2Proof.Machine.execMovPmcR3R2 o s
  | .movR1PmcR3 o => Sys2Proof.Machine.execMovR1PmcR3 o s
  | .movPmdR3R2 o => Sys2Proof.Machine.execMovPmdR3R2 o s
  | .movR1PmdR3 o => Sys2Proof.Machine.execMovR1PmdR3 o s
  | .movR1CpuidR3 o => Sys2Proof.Machine.execMovR1CpuidR3 o s
  | .ptcLR3R2 o => Sys2Proof.Machine.execPtcLR3R2 o s
  | .ptcGR3R2 o => Sys2Proof.Machine.execPtcGR3R2 o s
  | .ptcGaR3R2 o => Sys2Proof.Machine.execPtcGaR3R2 o s
  | .ptrDR3R2 o => Sys2Proof.Machine.execPtrDR3R2 o s
  | .ptrIR3R2 o => Sys2Proof.Machine.execPtrIR3R2 o s
  | .ptcER3 o => Sys2Proof.Machine.execPtcER3 o s
  | .itrDDtrR3R2 o => Sys2Proof.Machine.execItrDDtrR3R2 o s
  | .itrIItrR3R2 o => Sys2Proof.Machine.execItrIItrR3R2 o s
  | .itcDR2 o => Sys2Proof.Machine.execItcDR2 o s
  | .itcIR2 o => Sys2Proof.Machine.execItcIR2 o s
  | .probeRR1R3Imm2 o => Sys2Proof.Machine.execProbeRR1R3Imm2 o s
  | .probeWR1R3Imm2 o => Sys2Proof.Machine.execProbeWR1R3Imm2 o s
  | .probeRR1R3R2 o => Sys2Proof.Machine.execProbeRR1R3R2 o s
  | .probeWR1R3R2 o => Sys2Proof.Machine.execProbeWR1R3R2 o s
  | .probeRwFaultR3Imm2 o => Sys2Proof.Machine.execProbeRwFaultR3Imm2 o s
  | .probeRFaultR3Imm2 o => Sys2Proof.Machine.execProbeRFaultR3Imm2 o s
  | .probeWFaultR3Imm2 o => Sys2Proof.Machine.execProbeWFaultR3Imm2 o s
  | .thash o => Sys2Proof.Machine.execThash o s
  | .ttag o => Sys2Proof.Machine.execTtag o s
  | .tpa o => Sys2Proof.Machine.execTpa o s
  | .tak o => Sys2Proof.Machine.execTak o s
  | .movR1PsrUm o => Sys2Proof.Machine.execMovR1PsrUm o s
  | .movMR1Ar3 o => Sys2Proof.Machine.execMovMR1Ar3 o s
  | .movR1Cr3 o => Sys2Proof.Machine.execMovR1Cr3 o s
  | .movR1Psr o => Sys2Proof.Machine.execMovR1Psr o s
  | .movPsrUmR2 o => Sys2Proof.Machine.execMovPsrUmR2 o s
  | .movMAr3R2 o => Sys2Proof.Machine.execMovMAr3R2 o s
  | .movCr3R2 o => Sys2Proof.Machine.execMovCr3R2 o s
  | .movPsrLR2 o => Sys2Proof.Machine.execMovPsrLR2 o s
  | .fcR3 o => Sys2Proof.Machine.execFcR3 o s
  | .fcIR3 o => Sys2Proof.Machine.execFcIR3 o s
  | .allocR1ArPfsILOR o => Sys2Proof.Machine.execAllocR1ArPfsILOR o s
  | .brCondTarget25 o => Sys2Proof.Machine.execBrCondTarget25 o s
  | .brWexitTarget25 o => Sys2Proof.Machine.execBrWexitTarget25 o s
  | .brWtopTarget25 o => Sys2Proof.Machine.execBrWtopTarget25 o s
  | .brCloopTarget25 o => Sys2Proof.Machine.execBrCloopTarget25 o s
  | .brCexitTarget25 o => Sys2Proof.Machine.execBrCexitTarget25 o s
  | .brCtopTarget25 o => Sys2Proof.Machine.execBrCtopTarget25 o s
  | .brCallB1Target25 o => Sys2Proof.Machine.execBrCallB1Target25 o s
  | .brCondB2 o => Sys2Proof.Machine.execBrCondB2 o s
  | .brIaB2 o => Sys2Proof.Machine.execBrIaB2 o s
  | .brRetB2 o => Sys2Proof.Machine.execBrRetB2 o s
  | .brCallB1B2 o => Sys2Proof.Machine.execBrCallB1B2 o s
  | .brpTarget25Tag13 => Sys2Proof.Machine.execBrpTarget25Tag13 s
  | .brpB2Tag13 => Sys2Proof.Machine.execBrpB2Tag13 s
  | .brpRetB2Tag13 => Sys2Proof.Machine.execBrpRetB2Tag13 s
  | .cover => Sys2Proof.Machine.execCover s
  | .clrrrb => Sys2Proof.Machine.execClrrrb s
  | .clrrrbPr => Sys2Proof.Machine.execClrrrbPr s
  | .rfi => Sys2Proof.Machine.execRfi s
  | .bsw0 => Sys2Proof.Machine.execBsw0 s
  | .bsw1 => Sys2Proof.Machine.execBsw1 s
  | .epc => Sys2Proof.Machine.execEpc s
  | .vmsw0 o => Sys2Proof.Machine.execVmsw0 o s
  | .vmsw1 o => Sys2Proof.Machine.execVmsw1 o s
  | .breakB o => Sys2Proof.Machine.execBreakB o s
  | .nopB o => Sys2Proof.Machine.execNopB o s
  | .hintB o => Sys2Proof.Machine.execHintB o s
  | .fma o => Sys2Proof.Machine.execFma o s
  | .fmaS o => Sys2Proof.Machine.execFmaS o s
  | .fmaD o => Sys2Proof.Machine.execFmaD o s
  | .fpma o => Sys2Proof.Machine.execFpma o s
  | .fms o => Sys2Proof.Machine.execFms o s
  | .fmsS o => Sys2Proof.Machine.execFmsS o s
  | .fmsD o => Sys2Proof.Machine.execFmsD o s
  | .fpms o => Sys2Proof.Machine.execFpms o s
  | .fnma o => Sys2Proof.Machine.execFnma o s
  | .fnmaS o => Sys2Proof.Machine.execFnmaS o s
  | .fnmaD o => Sys2Proof.Machine.execFnmaD o s
  | .fpnma o => Sys2Proof.Machine.execFpnma o s
  | .xma o => Sys2Proof.Machine.execXma o s
  | .fselect o => Sys2Proof.Machine.execFselect o s
  | .fcmp o => Sys2Proof.Machine.execFcmp o s
  | .fclassM o => Sys2Proof.Machine.execFclassM o s
  | .frcpa o => Sys2Proof.Machine.execFrcpa o s
  | .fprcpa o => Sys2Proof.Machine.execFprcpa o s
  | .frsqrta o => Sys2Proof.Machine.execFrsqrta o s
  | .fprsqrta o => Sys2Proof.Machine.execFprsqrta o s
  | .fmin o => Sys2Proof.Machine.execFmin o s
  | .fmax o => Sys2Proof.Machine.execFmax o s
  | .famin o => Sys2Proof.Machine.execFamin o s
  | .famax o => Sys2Proof.Machine.execFamax o s
  | .fpmin o => Sys2Proof.Machine.execFpmin o s
  | .fpmax o => Sys2Proof.Machine.execFpmax o s
  | .fpamin o => Sys2Proof.Machine.execFpamin o s
  | .fpamax o => Sys2Proof.Machine.execFpamax o s
  | .fpcmpFrelCode0 o => Sys2Proof.Machine.execFpcmpFrelCode0 o s
  | .fpcmpFrelCode1 o => Sys2Proof.Machine.execFpcmpFrelCode1 o s
  | .fpcmpFrelCode2 o => Sys2Proof.Machine.execFpcmpFrelCode2 o s
  | .fpcmpFrelCode3 o => Sys2Proof.Machine.execFpcmpFrelCode3 o s
  | .fpcmpFrelCode4 o => Sys2Proof.Machine.execFpcmpFrelCode4 o s
  | .fpcmpFrelCode5 o => Sys2Proof.Machine.execFpcmpFrelCode5 o s
  | .fpcmpFrelCode6 o => Sys2Proof.Machine.execFpcmpFrelCode6 o s
  | .fpcmpFrelCode7 o => Sys2Proof.Machine.execFpcmpFrelCode7 o s
  | .fmergeS o => Sys2Proof.Machine.execFmergeS o s
  | .fmergeNs o => Sys2Proof.Machine.execFmergeNs o s
  | .fmergeSe o => Sys2Proof.Machine.execFmergeSe o s
  | .fmixLr o => Sys2Proof.Machine.execFmixLr o s
  | .fmixR o => Sys2Proof.Machine.execFmixR o s
  | .fmixL o => Sys2Proof.Machine.execFmixL o s
  | .fsxtR o => Sys2Proof.Machine.execFsxtR o s
  | .fsxtL o => Sys2Proof.Machine.execFsxtL o s
  | .fpack o => Sys2Proof.Machine.execFpack o s
  | .fswap o => Sys2Proof.Machine.execFswap o s
  | .fswapNl o => Sys2Proof.Machine.execFswapNl o s
  | .fswapNr o => Sys2Proof.Machine.execFswapNr o s
  | .fand o => Sys2Proof.Machine.execFand o s
  | .fandcm o => Sys2Proof.Machine.execFandcm o s
  | .fOr o => Sys2Proof.Machine.execFOr o s
  | .fxor o => Sys2Proof.Machine.execFxor o s
  | .fpmergeS o => Sys2Proof.Machine.execFpmergeS o s
  | .fpmergeNs o => Sys2Proof.Machine.execFpmergeNs o s
  | .fpmergeSe o => Sys2Proof.Machine.execFpmergeSe o s
  | .fcvtFx o => Sys2Proof.Machine.execFcvtFx o s
  | .fpcvtFx o => Sys2Proof.Machine.execFpcvtFx o s
  | .fcvtFxu o => Sys2Proof.Machine.execFcvtFxu o s
  | .fpcvtFxu o => Sys2Proof.Machine.execFpcvtFxu o s
  | .fcvtFxTrunc o => Sys2Proof.Machine.execFcvtFxTrunc o s
  | .fpcvtFxTrunc o => Sys2Proof.Machine.execFpcvtFxTrunc o s
  | .fcvtFxuTrunc o => Sys2Proof.Machine.execFcvtFxuTrunc o s
  | .fpcvtFxuTrunc o => Sys2Proof.Machine.execFpcvtFxuTrunc o s
  | .fcvtXf o => Sys2Proof.Machine.execFcvtXf o s
  | .fsetc o => Sys2Proof.Machine.execFsetc o s
  | .fclrf o => Sys2Proof.Machine.execFclrf o s
  | .fchkf o => Sys2Proof.Machine.execFchkf o s
  | .breakF o => Sys2Proof.Machine.execBreakF o s
  | .nopF o => Sys2Proof.Machine.execNopF o s
  | .hintF o => Sys2Proof.Machine.execHintF o s
  | .breakX o => Sys2Proof.Machine.execBreakX o s
  | .nopX o => Sys2Proof.Machine.execNopX o s
  | .hintX o => Sys2Proof.Machine.execHintX o s
  | .movl o => Sys2Proof.Machine.execMovl o s
  | .brlCondTarget64 o => Sys2Proof.Machine.execBrlCondTarget64 o s
  | .brlCallB1Target64 o => Sys2Proof.Machine.execBrlCallB1Target64 o s

end Sys2Proof.Machine
end

