-- ==== Sys2Proof/Machine/PmuFacts.lean ====
section
/-!
DEFINITION. What the performance monitor of the core sees of one clock (44_pmu_operation.md): the facts of the clock, the
tags of the instruction an event belongs to, and the qualification of an event by the filters of its thread. A step is a
sequence of clocks (log 37). What the micro-architecture decides is a free value (92 D31).
-/

namespace Sys2Proof.Machine

open Sys2Proof.Config

/-! ## The instruction an occurrence belongs to -/

/-- What the filters look at: the address, level and encoding of the instruction, and its data address. -/
structure Source where
  ip : Word
  cpl : BitVec 2
  ia32 : Bool
  itype : BitVec 2
  enco : Slot
  data : Option Word
  n : Nat
deriving DecidableEq, Repr

/-! ## The facts of a clock -/

/-- The facts of a clock: the foreground thread before and after it, the instruction of its step, whether it is a long one,
whether its bundle has several branch slots, whether its fetch met a fault of the instruction TLB, whether it retired in this
clock, whether the pipeline is flushed for an interruption, the accesses of the register stack engine that fall into the clock and the
instruction they belong to (47 R1068), the privilege levels before and after the change the clock makes, whether the interval
time counter ticks, the cause of a thread switch (47 R1072), whether one was missed, whether multithreading is enabled and
whether there is another thread to switch to, whether thread 1 is in the foreground, the parameter `IVA_OFF_SHIFT` (60 R1304), and the
number the free values of the clock are taken with. -/
structure StepFacts where
  before : LP
  after : LP
  instr : Source
  long : Bool
  multiway : Bool
  fetchFault : Bool
  retired : Bool
  flush : Bool
  rse : List RseAccess
  rseSource : Source
  levels : BitVec 2 × BitVec 2
  tick : Bool
  switch : Option Nat
  missed : Bool
  featMt : Bool
  mt : Bool
  thread1 : Bool
  ivaOffShift : Nat
  n : Nat
deriving DecidableEq, Repr

/-- A free number from 0 to `max`: fact `k` of an event of a thread. -/
def draw (f : StepFacts) (bg : Bool) (code k max : Nat) : Nat := coreEvent code k bg f.n % (max + 1)

/-- A free bit: fact `k` of an event of a thread. -/
def chance (f : StepFacts) (bg : Bool) (code k : Nat) : Bool := draw f bg code k 1 == 1

/-- A number of occurrences that belong to a thread, when both threads together have at most `max` in a clock (44 R701, R702). -/
def share (f : StepFacts) (bg : Bool) (code k max : Nat) : Nat :=
  let front := draw f false code k max
  if bg then draw f true code k (max - front) else front

/-- Which of several things, numbered from 1, happens to a thread in a clock in which it happens to at most one of the two, or
none (0). -/
def one (f : StepFacts) (bg : Bool) (code k : Nat) : Nat :=
  let front := draw f false code 0 k
  if bg then (if front = 0 then draw f true code 0 k else 0) else front

/-- The instruction of the step, with the numbers of the clock for what is free of it. -/
def StepFacts.source (f : StepFacts) : Source := { f.instr with n := f.n }

/-- An instruction the model does not know: one of the background thread, one that was fetched ahead or is of a wrong path, a
walk of the page tables, or the target of a prefetch. -/
def unknownSource (f : StepFacts) (lp : LP) (k : Nat) : Source :=
  { ip := freeWord (f.n + k), cpl := lp.cpl, ia32 := lp.psrBit 34, itype := (freeWord (f.n + k + 1)).setWidth 2
    enco := (freeWord (f.n + k + 2)).setWidth 41, data := none, n := f.n + k + 3 }

/-! ## Back-end stalls (45 R830, R833, R840) -/

/-- 45 R830, 44 R708: the causes of a bubble of the main pipe. -/
inductive StallCause where
  | xpn | bru | l1dFpu | exe | rse | fe
deriving DecidableEq, Repr

/-- 45 R840: a clock of a thread that is not halted retires an instruction or is a bubble. -/
def bubble (f : StepFacts) : Bool := !f.retired && !f.before.thr.halted

/-- 45 R830: the one cause of a bubble, the last in the pipeline. -/
def stallCause (f : StepFacts) : Option StallCause :=
  if !bubble f then none
  else if f.flush then some .xpn
  else some ([.xpn, .bru, .l1dFpu, .exe, .rse, .fe].getD (draw f false 0x00 0 5) .fe)

/-- Whether the bubble of a clock has a cause. -/
def stalledBy (f : StepFacts) (c : StallCause) : Bool := decide (stallCause f = some c)

/-- 45 R833, 44 R780: whether the pipeline is flushed in a clock: its bubble is one of those BE_FLUSH_BUBBLE counts. -/
def flushed (f : StepFacts) : Bool := stalledBy f .xpn || stalledBy f .bru

/-! ## Tags (44 R715 to R728) -/

/-- 44 R717: the address term of breakpoint pair `j` in fine mode; only pairs 0 and 1 have one (44 R719). -/
def fineMatch (ip lower mask upper : Word) : Bool :=
  decide ((ip ^^^ lower) &&& ((mask &&& 0x00FFFFFFFFFF0000#64) ||| 0xFF00000000000000#64) = 0#64)
    && decide (field lower 0 16 < field ip 0 16) && decide (field ip 0 16 < field upper 0 16)

/-- 44 R715, R718: whether the address range check of pair `j` is ignored. -/
def rangeIgnored (p : PMU) (j : Nat) : Bool :=
  (decide (j = 0) && (pmcAt p 32).getLsbD 57) || (pmcAt p 38).getLsbD (1 + 3 * j)

/-- 44 R717, R718: `IBRRangeTag_j` under the filters of a thread; a pair with `x` set, and pairs 2 and 3 in fine mode, have
no defined result (a free value). -/
def rangeTag (src : Source) (lp : LP) (j : Nat) : Bool :=
  if rangeIgnored lp.pmu j then true
  else if src.ia32 then false
  else
    let reg (k : Nat) : Word := lp.ibr.getD k 0#64
    let ctl := reg (2 * j + 1)
    let fine := (pmcAt lp.pmu 38).getLsbD 13
    if ctl.getLsbD 63 || (fine && decide (2 ≤ j)) then freeBool (src.n + j)
    else
      let m := if fine then fineMatch src.ip (reg (2 * j)) ctl (reg (2 * j + 4))
        else matchAddr src.ip (reg (2 * j)) ctl
      let inv := decide (j = 0) && (pmcAt lp.pmu 32).getLsbD 56 && !(pmcAt lp.pmu 32).getLsbD 57
      (m != inv) && ctl.getLsbD (56 + src.cpl.toNat)

/-- 44 R723: whether opcode matcher `k` matches the instruction. -/
def opcodeMatch (src : Source) (p : PMU) (k : Nat) : Bool :=
  let w := pmcAt p (32 + 2 * k)
  let typeBit := match src.itype.toNat with
    | 0 => 51
    | 1 => 50
    | 2 => 49
    | _ => 48
  !src.ia32 && w.getLsbD typeBit
    && decide ((src.enco ^^^ (pmcAt p (33 + 2 * k)).setWidth 41) &&& ~~~(w.setWidth 41) = 0#41)

/-- 44 R724: the tag of channel `j`, without the opcode term for an event that no opcode constrains (44 R710). -/
def tagOf (src : Source) (lp : LP) (opc : Bool) (j : Nat) : Bool :=
  (!opc || opcodeMatch src lp.pmu (j % 2) || (pmcAt lp.pmu 36).getLsbD j) && rangeTag src lp j

/-- 44 R726: whether data breakpoint pair `j` matches the data address; where the model does not know it, any answer. -/
def dataMatch (src : Source) (lp : LP) (j : Nat) : Bool :=
  match src.data with
  | some a => matchAddr a (lp.dbr.getD (2 * j) 0#64) (lp.dbr.getD (2 * j + 1) 0#64)
  | none => freeBool (src.n + 4 + j)

/-- 44 R726, R728, 11 R155: the qualification of a memory pipeline event. An enabled pair whose `cfgdtag` is 00 or 01 asks for
the tag of channel 0; the data address must match one of the enabled pairs whose `cfgdtag` is 00 or 10. -/
def memQualified (src : Source) (lp : LP) (opc : Bool) : Bool :=
  let w := pmcAt lp.pmu 41
  let pairs (p : Nat → Bool) : List Nat :=
    (List.range 4).filter fun j => w.getLsbD (45 + j) && p (field w (3 + 8 * j) 2).toNat
  let data := pairs (· % 2 == 0)
  ((pairs (· ≤ 1)).isEmpty || tagOf src lp opc 0) && (data.isEmpty || data.any (dataMatch src lp))

/-- The events of the instruction side that belong to a demand fetch or to a prefetch (45 R861 to R864). -/
def eitherFetch (code : Nat) : Bool := code ∈ [0x41, 0x46, 0x65, 0x66]

/-- The events that belong to a prefetch, or are qualified with `IBRP1` as one (44 R712, 45 R865, R874, R876, R880). -/
def prefetchEvent (code : Nat) : Bool := code ∈ [0x44, 0x45, 0x5f] || (0x78 ≤ code && code ≤ 0x7e)

/-- 44 R710 to R712: whether an occurrence of an event that an instruction caused is qualified by the filters of its
thread; the range of a prefetch is compared with its target, which the model does not know. -/
def qualified (f : StepFacts) (src : Source) (lp : LP) (r : EventInfo) : Bool :=
  if prefetchEvent r.code || (eitherFetch r.code && freeBool (f.n + 40)) then rangeTag (unknownSource f lp 41) lp 1
  else if r.dar then memQualified src lp r.opc
  else if r.iar then tagOf src lp r.opc 0
  else true

end Sys2Proof.Machine
end

