-- ==== Sys2Proof/Machine/PmuCapture.lean ====
section
/-!
DEFINITION. What the event address registers, the trace buffer and the IP-EAR of a thread capture in a clock (44 R750 to R780).
-/

namespace Sys2Proof.Machine

open Sys2Proof.Config

/-- What the monitor of one thread captured in a clock. -/
structure ThreadCaptures where
  pmu : PMU
  instrEar : Bool
  dataEar : Bool
  trace : Bool
deriving DecidableEq, Repr

/-- What the monitors of the foreground and of the background thread captured in a clock. -/
structure Captures where
  fg : ThreadCaptures
  bg : ThreadCaptures
deriving DecidableEq, Repr

def PMU.setPmd (p : PMU) (j : Nat) (w : Word) : PMU := { p with pmd := p.pmd.setIfInBounds j w }

/-- Whether a capture register of a thread captures: its monitor is enabled under the processor status `lp` and the thread is not in
the low-power halt (44 R750, R792). -/
def captureOn (lp : LP) (p : PMU) (i : Nat) : Bool := monitorEnable lp p i && !lp.thr.halted

/-! ## The instruction EAR (44 R753, R754) -/

/-- 11 R161: the latency threshold; a mask the table does not list captures any subset (93 U8). -/
def iearThreshold (u : Nat) (n : Nat) : Nat :=
  if u / 64 = 1 then 1
  else match u with
    | 0xff => 4
    | 0xfe => 8
    | 0xfc => 16
    | 0xf8 => 32
    | 0xf0 => 128
    | 0xe0 => 256
    | 0xc0 => 1024
    | 0x80 => 2048
    | 0 => 0
    | _ => (freeWord (n + 80)).toNat

/-- 47 R1010: the last place where a translation that the first TLB misses may be found: 1 the second TLB, 2 the VHPT, if the page
walker is enabled. -/
def slowestHit (lp : LP) : Nat := if walkerEnabled lp.cr.pta then 2 else 1

/-- 44 R754: where the demand fetch of a clock found its translation: 1 in the second-level TLB, 2 in the VHPT, 3 not at all, in the
clock that takes the fault of the instruction TLB; 0 in the first level, or no fetch, as in the clocks after such a fault. `lp` is the
thread, whose page walker looks into the VHPT only if it is enabled. -/
def fetchMiss (f : StepFacts) (isBg : Bool) (lp : LP) : Nat :=
  if isBg || !f.fetchFault then draw f isBg 0x43 4 (slowestHit lp) else if f.after.ev.fetchFault then 3 else 0

/-- 44 R753, R754, R870: the instruction EAR of a thread whose processor status in the clock is that of `on`. Whether a demand fetch
that is not refused missed, where it hit and how long it took is free. Bit 1 of `stat` is free in cache mode (11 R163). -/
def captureInstrEar (f : StepFacts) (isBg : Bool) (src : Source) (on lp : LP) (c : ThreadCaptures) : ThreadCaptures :=
  let w := pmcAt c.pmu 37
  if !captureOn on c.pmu 37 || field w 12 2 == 1#64 || !rangeTag src lp 0 then c
  else
    let line := alignDown src.ip 5
    if w.getLsbD 13 then
      (let latency := coreEvent 0x43 1 isBg f.n
       let u := (field w 5 8).toNat
       if chance f isBg 0x43 0 && decide (iearThreshold u f.n ≤ latency) && (u != 0 || chance f isBg 0x43 2) then
        { c with
          pmu := (c.pmu.setPmd 34 (line ||| 1#64 ||| (ofBool (chance f isBg 0x43 3) <<< 1))).setPmd 35
            (BitVec.ofNat 64 (latency % 2 ^ 12 + (if 2 ^ 12 ≤ latency then 2 ^ 12 else 0)))
          instrEar := true }
       else c)
    else
      let kind := fetchMiss f isBg on
      if decide (1 ≤ kind) && w.getLsbD (4 + kind) then
        { c with
          pmu := (c.pmu.setPmd 34 (line ||| BitVec.ofNat 64 kind)).setPmd 35 (freeWord (f.n + 81) &&& 0x1FFF#64)
          instrEar := true }
      else c

/-! ## The data EAR (44 R756 to R758) -/

/-- What PMD36 shows of the instruction of a captured miss: nothing, the instruction of the step, or one the model does not
know. -/
inductive MissIp where
  | none | step | unknown
deriving DecidableEq, Repr

/-- A data reference that may be captured: the miss (TLB mode: 1 hit in the L2 DTLB, 2 in the VHPT, 3 a fault; cache mode: 1),
its access with the data address, and what is captured of its instruction. -/
structure Miss where
  kind : Nat
  addr : Word
  src : Source
  ip : MissIp
deriving DecidableEq, Repr

/-- 11 R173: what PMD36 holds for a miss; the bundle bit says which bundle of the dispersal window the instruction was in. Where
PMC39 is not 0 in the TLB and the ALAT mode, the address may be a wrong one (44 R757, R758). -/
def earInstr (f : StepFacts) (p : PMU) (ip : MissIp) : Word :=
  let b := freeBool (f.n + 82)
  let any := freeWord (f.n + 83)
  let wrong := field (pmcAt p 40) 7 2 != 0#64 && pmcAt p 39 != 0#64 && freeBool (f.n + 88)
  match ip with
  | .none => any &&& ~~~8#64
  | .unknown => any ||| 8#64
  | .step =>
    if wrong then any ||| 8#64
    else (alignDown (if b then f.source.ip - 16#64 else f.source.ip) 4) ||| 8#64 ||| (ofBool b <<< 2)
      ||| f.before.ri.setWidth 64

/-- A miss of a load of the register stack engine, for which no instruction is captured (11 R173, 44 R757); `k` numbers it. -/
def engineMiss (f : StepFacts) (k : Nat) (a : RseAccess) : Miss :=
  { kind := draw f false 0xc8 (5 + k) (slowestHit f.before), addr := a.addr, src := { f.rseSource with data := some a.addr }, ip := .none }

/-- A miss of an instruction the model does not know. -/
def unknownMiss (f : StepFacts) (isBg : Bool) (lp : LP) (kind : Nat) : Miss :=
  let addr := freeWord (f.n + 84)
  { kind := kind, addr := addr, src := { unknownSource f lp 60 with data := some addr }
    ip := if chance f isBg 0xc8 3 then .unknown else .none }

/-- 11 R170: the address of a data access that met a fault of the data TLB, and whether the register stack engine made it. -/
def StepEvent.tlbFault (ev : StepEvent) : Option (Word × Bool) :=
  match ev.vector with
  | some v => if v ∈ [0x0000, 0x0800, 0x1000, 0x1400] then ev.dataFault else .none
  | .none => .none

/-- 44 R757, 11 R170, R173: the references of a clock that may miss the data TLB: the one that faulted, the one of the
instruction (a store or a floating-point access never misses the L1 DTLB alone), those of the register stack engine, and one
of an instruction that is not reached. -/
def tlbMisses (f : StepFacts) (isBg : Bool) (lp : LP) : List Miss :=
  let unreached := unknownMiss f isBg lp (draw f isBg 0xc8 2 (if isBg then slowestHit lp else 1))
  if isBg then [unreached]
  else
    let ev := f.after.ev
    let faulted : List Miss := match ev.tlbFault with
      | some (a, rse) =>
        [{ kind := 3, addr := a, src := { (if rse then f.rseSource else f.source) with data := some a }
           ip := if rse then .none else .step }]
      | none => []
    let own : List Miss := match ev.data with
      | some d =>
        let k := draw f false 0xc8 4 (slowestHit lp)
        [{ kind := if (d.fp || d.kind == .store) && k == 1 then 0 else k, addr := d.addr, src := f.source, ip := .step }]
      | none => []
    faulted ++ own ++ (f.rse.filter fun a => !a.store).mapIdx (engineMiss f) ++ [unreached]

/-- 44 R756, 11 R169: the loads of a clock that may miss the L1 data cache, at least as slowly as the threshold of the unit
mask `u` says. -/
def cacheMisses (f : StepFacts) (isBg : Bool) (lp : LP) (u : Nat) : List Miss :=
  if u ≤ 10 && decide (2 ^ (u + 2) ≤ coreEvent 0xc8 1 isBg f.n) && chance f isBg 0xc8 0 then
    (if isBg then [unknownMiss f true lp 1]
     else match f.after.ev.data with
      | some d =>
        if (d.kind == .load || d.kind == .semaphore) && d.natted.isNone then
          [{ kind := 1, addr := d.addr, src := f.source, ip := if chance f false 0xc8 3 then .step else .none }] else []
      | none => [])
  else []

/-- A capture of the data EAR; `low` is what the latency and overflow fields of PMD33 hold. -/
def storeMiss (f : StepFacts) (m : Miss) (low : Word) (wait : BitVec 3) (c : ThreadCaptures) : ThreadCaptures :=
  { c with
    pmu := { ((c.pmu.setPmd 32 m.addr).setPmd 33 (low ||| (BitVec.ofNat 64 m.kind <<< 14))).setPmd 36
        (earInstr f c.pmu m.ip) with earWait := wait }
    dataEar := true }

/-- 44 R756 to R758: the data EAR of a thread whose processor status in the clock is that of `on`, where it `may` capture. Which of
the references that qualify is captured is free (93 U15); after a captured miss of the cache none is captured for 7 clocks. -/
def captureDataEar (f : StepFacts) (isBg may : Bool) (on lp : LP) (c0 : ThreadCaptures) : ThreadCaptures :=
  let wait := if c0.pmu.earWait = 0#3 then 0#3 else c0.pmu.earWait - 1#3
  let c := { c0 with pmu := { c0.pmu with earWait := wait } }
  let w := pmcAt c.pmu 40
  let open_ := freeWord (f.n + 86) &&& 0x3FFF#64
  let seen (m : Miss) : Bool := memQualified m.src lp true
  if !may || !captureOn on c.pmu 40 then c
  else if w.getLsbD 8 then
    (let failed := if isBg then false else match f.after.ev.check with
      | some k => k.alat && k.failed
      | none => false
     let m : Miss := { kind := 1, addr := freeWord (f.n + 87), src := f.source, ip := .step }
     if failed && seen m then storeMiss f m open_ wait c else c)
  else if w.getLsbD 7 then
    match (tlbMisses f isBg on).find? fun m => decide (1 ≤ m.kind) && w.getLsbD (16 + m.kind) && seen m with
    | some m => storeMiss f m open_ wait c
    | none => c
  else if wait ≠ 0#3 then c
  else
    match (cacheMisses f isBg lp (field w 16 4).toNat).find? seen with
    | some m =>
      let latency := coreEvent 0xc8 1 isBg f.n
      storeMiss f m (BitVec.ofNat 64 (latency % 2 ^ 13 + (if 2 ^ 13 ≤ latency then 2 ^ 13 else 0))) 7#3 c
    | none => c

/-! ## Flow changes and their prediction (44 R770, 45 R850) -/

/-- Whether the clock retires the bundle its instruction is in: it leaves the bundle, be it for the same one again. -/
def leavesBundle (f : StepFacts) : Bool :=
  f.retired && (decide (f.after.ip ≠ f.before.ip) || f.after.ev.vector.isSome
    || (match f.after.ev.flow with
      | some e => e.taken
      | none => false))

/-- 44 R770: the class of a flow change that `brt` selects: 1 IP-relative, 2 return, 3 other indirect. The spec gives `rfi`,
an exception and a failed check none of them: they have class 0, so that only `brt` = 0 captures them (log 41). -/
def FlowKind.brt : FlowKind → Nat
  | .ipRelative => 1
  | .ret => 2
  | .indirect => 3
  | _ => 0

/-- Whether a flow change is a branch, whose prediction counts; the others count as mispredicted (11 R180). -/
def FlowKind.isBranch (k : FlowKind) : Bool := k.brt != 0

/-- 45 R850: whether the path of a branch was predicted without knowing: a branch before it in its bundle was predicted as taken. -/
def unknownPath (f : StepFacts) : Bool := f.before.pmu.predTaken

/-- 45 R850: whether the path of a branch was predicted right; one whose path is not known is predicted as not taken. -/
def pathRight (f : StepFacts) (e : FlowEvent) : Bool := if unknownPath f then !e.taken else pathPredicted f.n

/-- Whether the thread is done with its bundle after the clock: it leaves it, or is interrupted or switched in it. -/
def bundleOver (f : StepFacts) : Bool := leavesBundle f || f.after.ev.vector.isSome || f.switch.isSome

/-- Whether the clock retires a branch with a property. -/
def retiresBranch (f : StepFacts) (p : FlowEvent → Bool) : Bool :=
  match f.after.ev.flow with
  | some e => f.retired && e.kind.isBranch && p e
  | none => false

/-- 45 R850: whether a branch of the bundle, this clock's among them, has been predicted as taken. -/
def takenPredicted (f : StepFacts) : Bool := f.after.pmu.predTaken || retiresBranch f fun e => pathRight f e == e.taken

/-- 45 R851: whether a branch of the bundle that channel 0 tags has retired. -/
def branchTagged (f : StepFacts) : Bool := f.after.pmu.branchTagged || retiresBranch f fun _ => tagOf f.source f.after true 0

/-- 45 R851: whether the path of a branch of the bundle was predicted wrong. -/
def pathMissed (f : StepFacts) : Bool := f.after.pmu.pathMissed || retiresBranch f fun e => !pathRight f e

/-- The record of the branches of the bundle the thread is in, after the clock: empty when it is done with the bundle. -/
def recordBundle (f : StepFacts) (p : PMU) : PMU :=
  { p with
    predTaken := !bundleOver f && takenPredicted f, branchTagged := !bundleOver f && branchTagged f
    pathMissed := !bundleOver f && pathMissed f }

/-! ## The trace buffer (44 R765 to R773) -/

/-- 44 R771: an entry written to the trace buffer, with its field of PMD39. -/
def pushEntry (p : PMU) (w : Word) (ext : Word) : PMU :=
  let k := (field (pmdAt p 38) 0 4).toNat
  let index := setField (pmdAt p 38) 0 4 (BitVec.ofNat 64 (k + 1))
  ((p.setPmd (48 + k) w).setPmd 39 (setField (pmdAt p 39) (4 * k) 4 ext)).setPmd 38
    (if k = 15 then index ||| 0x20#64 else index)

/-- 44 R771: the last entry withdrawn, where another replaces the target entry. -/
def popEntry (p : PMU) : PMU :=
  p.setPmd 38 (setField (pmdAt p 38) 0 4 (field (pmdAt p 38) 0 4 - 1#64))

/-- Whether an instruction of a branch slot met a fault whose target is not captured: `break.b`, `br.ia`, and, in some cases,
one of a bundle of several branches (44 R771). -/
def sourceOnly (f : StepFacts) (v : Nat) : Bool :=
  f.source.itype == 3#2 && !f.long
    && (v == 0x2C00 || (v == 0x5400 && field f.after.ev.code 0 16 == 0x40#64) || (f.multiway && freeBool (f.n + 100)))

/-- The flow change of a step that the trace buffer may record, and whether its target is recorded with it (44 R765, R771): a
trap after a branch, and the faults of `sourceOnly`, leave the source alone; external interrupts leave nothing (44 R773). -/
def flowOf (f : StepFacts) : Option (FlowEvent × Bool) :=
  match f.after.ev.vector with
  | none => f.after.ev.flow.map fun e => (e, true)
  | some v =>
    if v = 0x3000 then none
    else match f.after.ev.flow with
      | some e => some (e, false)
      | none => some ({ kind := .exception, taken := true, target := f.after.ip }, !sourceOnly f v)

/-- 44 R770: the capture equation. With `ds` set the target is replaced (11 R176). -/
def etbCapture (f : StepFacts) (p : PMU) (e : FlowEvent) : Bool :=
  let w := pmcAt p 39
  let tm := field w 8 2
  let ptm := field w 10 2
  let ppm := field w 12 2
  let brt := (field w 14 2).toNat
  let path := e.kind.isBranch && pathRight f e
  let tgt := targetPredicted f.n
  !f.before.psrBit 34
    && (if e.taken then tm.getLsbD 1 else tm.getLsbD 0)
    && (decide (ptm = 3#64) || (path && ((ptm.getLsbD 1 && tgt) || (ptm.getLsbD 0 && !tgt))))
    && (if path then ppm.getLsbD 1 else ppm.getLsbD 0)
    && !(decide (ptm = 1#64) && decide (ppm = 1#64))
    && (decide (brt = 0) || decide (brt = e.kind.brt))

/-- 11 R180: a target entry; with `PMC39.ds` set its data are undefined (11 R176). -/
def targetEntry (f : StepFacts) (p : PMU) (a : Word) : PMU :=
  let w := if (pmcAt p 39).getLsbD 7 then freeWord (f.n + 101) &&& ~~~1#64
    else alignDown a 4 ||| 2#64 ||| (freeWord (f.n + 101) &&& 0xC#64)
  pushEntry p w (freeWord (f.n + 102) &&& 3#64)

/-- 44 R771, R773: the buffer after a clock without a captured event. The last entry is that of the target bundle of the thread as
long as the thread stays in that bundle; while nothing has run there, be the target a bundle or a slot within one, the address of the
handler of an external interrupt may take its place. -/
def idleTrace (f : StepFacts) (p : PMU) : PMU :=
  if p.etbPending && p.etbFresh && decide (f.after.ev.vector = some 0x3000) && freeBool (f.n + 103) then
    { targetEntry f (popEntry p) f.after.ip with etbPending := false }
  else
    { p with
      etbPending := p.etbPending && !leavesBundle f && f.after.ev.vector.isNone
      etbFresh := p.etbFresh && !f.retired }

/-- 44 R765 to R773: the trace buffer. A flow change in the bundle that the last entry is the target of may make one entry with it,
which then has the address of that bundle. The slot number of a long branch is 2 (log 41, DESIGN CHOICE). -/
def captureTrace (f : StepFacts) (lp : LP) (c : ThreadCaptures) : ThreadCaptures :=
  let p := c.pmu
  if traceMode p ≠ 0 then { c with pmu := { p with etbPending := false } }
  else if !captureOn f.before p 39 then { c with pmu := idleTrace f p }
  else match flowOf f with
    | none => { c with pmu := idleTrace f p }
    | some (e, both) =>
      if !etbCapture f p e || !tagOf f.source lp true 0 then { c with pmu := idleTrace f p }
      else
        let w := pmcAt p 39
        let miss := !(e.kind.isBranch && pathRight f e && (!e.taken || targetPredicted f.n))
        let merged := p.etbPending && freeBool (f.n + 106)
        let b1 := !merged && freeBool (f.n + 104)
        let slot : Word := if !e.taken then 3#64 else if f.long then 2#64 else f.before.ri.setWidth 64
        let src := alignDown (if b1 then f.before.ip - 16#64 else f.before.ip) 4
        let ext := ofBool b1 ||| (ofBool (miss && freeBool (f.n + 105)) <<< 1)
        let p1 := if merged then popEntry p else p
        let p2 := pushEntry p1 (src ||| 1#64 ||| (ofBool miss <<< 1) ||| (slot <<< 2)) ext
        let skip := w.getLsbD 4 && decide (field w 8 2 = 2#64) && decide (field w 14 2 = 0#64)
          && decide (e.kind.brt = 1)
        let target := both && !skip
        { c with
          pmu := { (if target then targetEntry f p2 e.target else p2) with
            etbPending := target && e.taken, etbFresh := target && e.taken }
          trace := true }

/-! ## The IP-EAR (44 R780) -/

/-- 11 R186, R188: an entry of the IP-EAR. -/
def ipEntry (p : PMU) (w : Word) (early : Bool) : PMU :=
  let cyc := p.ipElapsed.setWidth 64
  { pushEntry p ((field cyc 0 4 <<< 60) ||| w) ((field cyc 4 2 <<< 2) ||| (ofBool p.ipFlush <<< 1) ||| ofBool early) with
    ipElapsed := 0#6, ipFlush := false }

/-- The clocks since the last entry of the IP-EAR, as many as its field can show (44 R780). -/
def PMU.ipClock (p : PMU) : PMU := { p with ipElapsed := if p.ipElapsed = 63#6 then 63#6 else p.ipElapsed + 1#6 }

/-- 44 R780: the IP-EAR. One entry is written when the clock retires a bundle (log 41); an early freeze comes after it, also where a
write of PMC42, and not PSR or a thread switch, has disabled the IP-EAR (log 41, DESIGN CHOICE). The clocks and the flushes since
the last entry go on in every mode; a clock that retires a bundle is none in which the pipeline is flushed (45 R840). -/
def captureIp (f : StepFacts) (p : PMU) : PMU :=
  let q0 := { p.ipClock with ipFlush := p.ipFlush || flushed f }
  if traceMode p < 4 then { q0 with ipActive := false }
  else
    let on := monitorOn f.before p 42
    let going := on && !frozen p && !f.before.thr.halted
    let q := if leavesBundle f && (going || (p.ipActive && on && decide (p.ipDelay ≠ 0#9)))
      then ipEntry q0 (field f.before.ip 4 60) false else q0
    let early (d : BitVec 9) : PMU :=
      { ipEntry q ((field f.before.ip 12 52 <<< 8) ||| field (d.setWidth 64) 0 8) true with ipActive := false }
    let delay : BitVec 9 := (field (pmcAt p 42) 11 8).setWidth 9
    if going then
      (if f.switch.isSome then early delay else { q with ipActive := true, ipDelay := delay })
    else if !p.ipActive then q
    else if !on || f.switch.isSome then early p.ipDelay
    else if p.ipDelay = 0#9 then
      { ipEntry q (field (freeWord (f.n + 121)) 0 60) false with ipActive := false }
    else { q with ipDelay := p.ipDelay - 1#9 }

/-! ## All captures of a clock -/

/-- What the monitor of the foreground thread captures, enabled under the processor status before the clock. -/
def captureForeground (f : StepFacts) : ThreadCaptures :=
  let c := captureTrace f f.after (captureDataEar f false true f.before f.after (captureInstrEar f false f.source f.before f.after
    { pmu := f.after.pmu, instrEar := false, dataEar := false, trace := false }))
  { c with pmu := recordBundle f (captureIp f c.pmu) }

/-- What the monitor of the background thread captures: misses of what it did before it went to the background, of each kind none
in a clock in which `front` captured one (44 R702). The clocks since the last entry of its IP-EAR go on. -/
def captureBackground (f : StepFacts) (bg : LP) (front : ThreadCaptures) : ThreadCaptures :=
  let c : ThreadCaptures := { pmu := bg.pmu.ipClock, instrEar := false, dataEar := false, trace := false }
  let c1 := if front.instrEar || !f.mt then c else captureInstrEar f true (unknownSource f bg 60) bg bg c
  captureDataEar f true (!front.dataEar && f.mt) bg bg c1

/-- All captures of a clock. -/
def captures (f : StepFacts) (bg : LP) : Captures :=
  let front := captureForeground f
  { fg := front, bg := captureBackground f bg front }

end Sys2Proof.Machine
end

