-- ==== Sys2Proof/Machine/PmuEvents.lean ====
section
/-!
DEFINITION. The value of each event of the core in a clock (45_events_core_1.md to 47_events_core_3.md). What the
instruction determines is computed; the rest is drawn freely within its maximum, from facts shared by the events of one
rule, so that the identities the spec states hold in every clock (92 D31). A unit mask that a table does not list draws a
value of its own (93 U14).
-/

namespace Sys2Proof.Machine

open Sys2Proof.Config

/-- The number of elements of a list with a property. -/
def tally {α : Type} (l : List α) (p : α → Bool) : Nat := (l.filter p).length

/-- The value of an event for a unit mask its table does not list: any up to its maximum. -/
def unlisted (f : StepFacts) (bg : Bool) (code u max : Nat) : Nat := share f bg code (100 + u) max

/-! ## Back-end stalls (45 R830 to R834, R836, R840) -/

/-- The detailed causes of a bubble, of which there is at least one of `k + 1`: a nonzero set of bits. -/
def stallBits (f : StepFacts) (code k : Nat) (i : Nat) : Bool := (1 + draw f false code 0 (2 ^ (k + 1) - 2)).testBit i

/-- The value of a stall event. -/
def stallEvent (f : StepFacts) (code u : Nat) : Bool :=
  let c := stallCause f
  match code with
  | 0x00 => if u = 0 then bubble f else if u = 1 then stalledBy f .fe else stalledBy f .l1dFpu || stalledBy f .rse
  | 0x04 => if u = 0 then stalledBy f .xpn || stalledBy f .bru else if u = 1 then stalledBy f .bru else stalledBy f .xpn
  | 0x01 =>
    let b := stallBits f 0x01 4
    decide (c = some .rse) && (match u with
      | 0 => true
      | 1 => b 0
      | 2 => b 1
      | 3 => b 2 && !b 1
      | 4 => b 3 && !b 1
      | _ => b 4 && !b 1)
  | 0x02 =>
    let b := stallBits f 0x02 6
    decide (c = some .exe) && (match u with
      | 0 => true
      | 1 => b 0 || b 1
      | 2 => b 2
      | 3 => b 3
      | 4 => b 4
      | 5 => b 0
      | 6 => b 5
      | 7 => b 6
      | _ => b 3 || b 4 || b 5 || b 6)
  | _ =>
    let b := stallBits f 0xca 16
    if u = 6 then chance f false 0xca 106
    else decide (c = some .l1dFpu) && (match u with
      | 0 => true
      | 1 => b 1
      | 2 => (List.range 17).any fun i => i != 1 && b i
      | _ => b u)

/-! ## Front-end stalls (45 R835, R837 to R839) -/

/-- 45 R837: the value of FE_BUBBLE. The cause of highest priority is one of its unit masks for a single cause (FEFLUSH 1,
IBFULL 5, IMISS 6, TLBMISS 7, FILL_RECIRC 8, BRANCH 9, BUBBLE 13), 0 for no bubble. -/
def feBubble (f : StepFacts) (u : Nat) : Nat :=
  let c := [0, 1, 5, 6, 7, 8, 9, 13].getD (draw f false 0x71 0 7) 0
  let is (l : List Nat) : Nat := (l.contains c).toNat
  match u with
  | 0 => (c != 0).toNat
  | 4 => is [6, 7]
  | 10 => is [8, 9]
  | 11 => is [5, 6, 7, 8, 9]
  | 12 => is [1, 6, 7, 8, 9, 13]
  | 1 | 5 | 6 | 7 | 8 | 9 | 13 => is [u]
  | _ => unlisted f false 0x71 u 1

/-- 45 R835, R838: the cause of highest priority of the bundles lost in a clock, a unit mask, 0 if none is lost; at the exit of the
buffer no bundle is lost to a full buffer. -/
def lostCause (f : StepFacts) (code : Nat) : Nat :=
  if code = 0x70 then [0, 1, 4, 5, 6, 7, 8, 9, 10, 11, 12, 13].getD (draw f false 0x70 0 11) 0
  else [0, 1, 4, 6, 7, 8, 9, 10, 11, 12, 13].getD (draw f false 0x73 0 10) 0

/-- 45 R835: how many bundles are lost to that cause: of unreachable ones (4), the cause of lowest priority, bundle 1 alone. -/
def lostNumber (f : StepFacts) (code : Nat) : Nat :=
  match lostCause f code with
  | 0 => 0
  | 4 => 1
  | _ => 1 + draw f false (if code = 0x70 then 0x70 else 0x73) 1 1

/-- 45 R835, R838, R839: the bundles lost by the front end; BE_LOST_BW_DUE_TO_FE counts those of IDEAL_BE_LOST_BW_DUE_TO_FE
while the back end is not stalled for another reason. -/
def lostBundles (f : StepFacts) (code u : Nat) : Nat :=
  let other := (match stallCause f with
    | none | some .fe => false
    | _ => true)
  if u ∈ [2, 3, 14, 15] ∨ (u = 5 ∧ code ≠ 0x70) then unlisted f false code u 2
  else if code == 0x72 && other then 0
  else if u = 0 ∨ u = lostCause f code then lostNumber f code else 0

/-! ## Dispersal (45 R805 to R809) -/

/-- 45 R806: whether dispersal is stalled. -/
def dispStalled (f : StepFacts) : Bool := !f.before.thr.halted && chance f false 0x49 0

/-- 45 R809: the syllables overcounted for explicit and for implicit stops. -/
def overcounted (f : StepFacts) : Nat × Nat :=
  if f.before.thr.halted || dispStalled f then (0, 0)
  else
    let e := draw f false 0x4f 0 2
    (e, draw f false 0x4f 1 (2 - e))

/-- 45 R807: the syllables dispersed: at least one more than are overcounted, since at most 5 of 6 are lost. -/
def dispersed (f : StepFacts) : Nat :=
  if f.before.thr.halted || dispStalled f then 0
  else
    let o := (overcounted f).1 + (overcounted f).2
    1 + o + draw f false 0x4d 0 (5 - o)

/-- 45 R805, R808: for each syllable that is not dispersed, the set of its components. -/
def lostSyllables (f : StepFacts) : List Nat :=
  if f.before.thr.halted || dispStalled f then []
  else
    let (e, i) := overcounted f
    (List.range (6 + e + i - dispersed f)).map fun k =>
      if k < e then 1 ||| draw f false 0x4e k 15
      else if k < e + i then 2 ||| draw f false 0x4e k 15
      else 1 + draw f false 0x4e k 14

/-! ## Branches (45 R850 to R857) -/

/-- 45 R853, R855: the umask of a branch detail event: the type in bits 3:2. -/
def branchType (u : Nat) (e : FlowEvent) : Bool := e.kind.isBranch && (u / 4 == 0 || u / 4 == e.kind.brt)

/-- 45 R853: the outcomes of a prediction: 0 any, 1 correct, 2 wrong path, 3 wrong target. -/
def predictionIs (f : StepFacts) (e : FlowEvent) (u : Nat) : Bool :=
  match u with
  | 0 => true
  | 1 => pathRight f e && (!e.taken || targetPredicted f.n)
  | 2 => !pathRight f e
  | _ => pathRight f e && e.taken && !targetPredicted f.n

/-- 45 R851: the mispredictions of the back end for a bundle, counted when the thread is done with it, if a branch of it retired and
no path of its branches was predicted wrong. -/
def bundleDetail (f : StepFacts) (u : Nat) : Bool :=
  let stg := chance f false 0x61 0
  let rot := chance f false 0x61 1
  let pfs := chance f false 0x61 2 && retiresBranch f (·.taken)
  bundleOver f && branchTagged f && !pathMissed f && (match u with
    | 0 => stg || rot || pfs
    | 1 => stg
    | 2 => rot
    | _ => pfs)

/-- 45 R852 to R857: the branch events of a clock. -/
def branchEvent (f : StepFacts) (e : FlowEvent) (code u : Nat) : Bool :=
  match code with
  | 0x54 => branchType u e && (u / 2 % 2 == 1) == pathRight f e && (u % 2 == 1) == e.taken
  | 0x5b => branchType u e && predictionIs f e (u % 4)
  | 0x68 => branchType u e && unknownPath f && predictionIs f e (u % 4)
  | 0x6a => branchType u e && unknownPath f && (u % 2 == 1) == e.taken
  | _ => e.kind.isBranch && chance f false 0x63 0 && (u / 4 != 2 || chance f false 0x63 1) && predictionIs f e (u % 4)

/-- Whether the clock may hold instructions of a wrong path: a misprediction or an interruption. -/
def wrongPath (f : StepFacts) : Bool :=
  f.after.ev.vector.isSome || (match f.after.ev.flow with
    | some e => !predictionIs f e 1
    | none => false)

/-! ## Data accesses of the instruction and of the register stack engine (45 R822 to R829, 46 R905 to R916) -/

/-- What the data access of a retired instruction has; a check load counts only if it missed the L1 data cache too, as one always
does that is not of the kind this cache serves (46 R908). -/
def dataIs (f : StepFacts) (p : DataEvent → Bool) : Bool :=
  let check := (match f.after.ev.check with
    | some k => k.load
    | none => false)
  match f.after.ev.data with
  | some d => f.retired && (!check || d.fp || d.uncached || chance f false 0xcd 0) && p d
  | none => false

def isLoad (d : DataEvent) : Bool := d.kind == .load || d.kind == .semaphore
def isStore (d : DataEvent) : Bool := d.kind == .store || d.kind == .semaphore

/-- 45 R822, R827, R828: the loads, uncacheable loads and stores of the page walker, of squashed walks too; none if it is not
enabled. -/
def walkLoads (f : StepFacts) : Nat := draw f false 0xcd 1 (walkerEnabled f.before.cr.pta).toNat
def walkUcLoads (f : StepFacts) : Nat := draw f false 0xcd 2 (walkLoads f)
def walkStores (f : StepFacts) : Nat := draw f false 0xd1 0 (walkerEnabled f.before.cr.pta).toNat

/-- An occurrence of an event of the data side: the access it belongs to, whether the register stack engine made it, and whether it
is a check load that found its entry in the ALAT. -/
structure Occurrence where
  src : Source
  rse : Bool
  alat : Bool
deriving DecidableEq, Repr

/-- The occurrence of the instruction, if it has one. -/
def ofInstr (f : StepFacts) (p : Bool) : List Occurrence := 
  if p then [{ src := f.source, rse := false, alat := false }] else []

/-- The accesses of the register stack engine with a property, each with its own address (44 R726, 47 R1068). -/
def ofEngine (f : StepFacts) (p : RseAccess → Bool) : List Occurrence :=
  (f.rse.filter p).map fun a => { src := { f.rseSource with data := some a.addr }, rse := true, alat := false }

/-- Occurrences of the page walker or of instructions of a wrong path. -/
def ofOthers (f : StepFacts) (k : Nat) : List Occurrence :=
  List.replicate k { src := unknownSource f f.before 160, rse := false, alat := false }

/-- 46 R908, R909: the reads that the L1 data cache serves in a clock: integer loads and check loads, loads of the register stack
engine, and those of a wrong path; there are two ports. An `ld16` is counted as one, and so is a speculative load that returns a NaT
without an access (log 57, DESIGN CHOICE). -/
def l1dReads (f : StepFacts) : List Occurrence :=
  let ev := f.after.ev
  let load : Bool := match ev.data with
    | some d => d.kind == .load && !d.fp && !d.uncached
    | none => false
  let found : Bool := match ev.check with
    | some k => k.load && !k.failed && !k.fp
    | none => false
  (ofInstr f load ++ (ofInstr f found).map (fun o : Occurrence => { o with alat := true }) ++ ofEngine f (fun a => !a.store && !a.uncached) ++ ofOthers f (draw f false 0xc2 0 2)).take 2

/-- 46 R906, R907: the data references of a clock. -/
def dataReferences (f : StepFacts) : List Occurrence :=
  ofInstr f (f.after.ev.data.isSome || f.after.ev.hitAddr.isSome) ++ ofEngine f (fun _ => true)
    ++ ofOthers f (draw f false 0xc3 0 4)

/-- 46 R910, R912: those of a list of reads for which a free bit says that they miss, fact `k` and those after it: none that found
its entry in the ALAT. -/
def missesAmong (f : StepFacts) (code k : Nat) : List Occurrence → List Occurrence
  | [] => []
  | o :: l =>
    if !o.alat && chance f false code k then o :: missesAmong f code (k + 1) l else missesAmong f code (k + 1) l

/-- 47 R1004: the references to memory in a clock whose address a data breakpoint pair matches, those that fault among them, but for
an access that moves no data, which `CR.ISR.na` marks; and, since the event has noise, one of a wrong path. -/
def debugMatches (f : StepFacts) : List Occurrence :=
  let ev := f.after.ev
  let fault (rse : Bool) : Bool := !ev.code.getLsbD 35 && (match ev.dataFault with
    | some a => a.2 == rse
    | none => false)
  let engine : List Occurrence := if fault true then
      [{ src := { f.rseSource with data := ev.dataFault.map (·.1) }, rse := true, alat := false }] else []
  (ofInstr f (ev.data.isSome || ev.hitAddr.isSome || fault false) ++ ofEngine f (fun _ => true) ++ engine).filter
      (fun o => (List.range 4).any (dataMatch o.src f.after))
    ++ ofOthers f (draw f false 0xc6 0 1)

/-- The occurrences of an event of the data side in a clock, before the filters. -/
def dataOccurrences (f : StepFacts) (code u : Nat) : List Occurrence :=
  match code with
  | 0xcd => ofInstr f (dataIs f isLoad) ++ ofEngine f (fun a => !a.store) ++ ofOthers f (walkLoads f)
  | 0xce => ofInstr f (dataIs f fun d => isLoad d && d.misaligned)
  | 0xcf => ofInstr f (dataIs f fun d => isLoad d && d.uncached) ++ ofEngine f (fun a => !a.store && a.uncached)
      ++ ofOthers f (walkUcLoads f)
  | 0xd0 => ofInstr f (dataIs f fun d => d.kind == .store && d.uncached) ++ ofEngine f (fun a => a.store && a.uncached)
  | 0xd1 => ofInstr f (dataIs f isStore) ++ ofEngine f (fun a => a.store) ++ ofOthers f (walkStores f)
  | 0xd2 => ofInstr f (dataIs f fun d => isStore d && d.misaligned)
  | 0xd9 => if 6 ≤ u then ofOthers f (unlisted f false 0xd9 u 2)
      else ofInstr f (dataIs f fun d => !d.fp && (if u = 0 then d.natted.isSome else d.natted == some u))
  | 0x20 => ofEngine f fun a => if a.store then 2 ≤ u else u % 2 == 1
  | 0xc0 => (missesAmong f 0xc0 0 (l1dReads f)).take 1
  | 0xc7 => (missesAmong f 0xc7 0 (l1dReads f)).filter fun o => u = 0 || o.rse
  | 0xc2 | 0xc4 => l1dReads f
  | 0xc6 => debugMatches f
  | _ => dataReferences f

/-- The codes of `dataOccurrences`. -/
def dataSide (code : Nat) : Bool :=
  code ∈ [0x20, 0xc0, 0xc2, 0xc3, 0xc4, 0xc5, 0xc6, 0xc7, 0xcd, 0xce, 0xcf, 0xd0, 0xd1, 0xd2, 0xd9]

/-- The value of an event of the data side: its occurrences that the filters of the thread qualify, each with its own access. -/
def dataEvent (f : StepFacts) (r : EventInfo) (u : Nat) : Nat :=
  min r.max (tally (dataOccurrences f r.code u) fun o => qualified f o.src f.after r)

/-! ## Caches (45 R881 to R886, 46 R932 to R976) -/

/-- A kind of fetch, 1 demand and 2 prefetch, under a mask of the kinds. -/
def fetchKind (u kind : Nat) : Bool := u.testBit (kind - 1) && kind != 0

/-- 45 R881 to R886: the L2I events with a request kind: one request in a clock; for L2I_READS one that hits or misses. -/
def l2iEvent (f : StepFacts) (bg : Bool) (code u : Nat) : Bool :=
  let kind := one f bg code 2
  fetchKind u kind && (code != 0x78 || (u / 4).testBit (if chance f bg code 1 then 0 else 1))

/-- 45 R883: a victimization; its request is a demand miss of L2I_READS. -/
def l2iVictim (f : StepFacts) (bg : Bool) : Bool := l2iEvent f bg 0x78 9 && chance f bg 0x7a 0

/-- 46 R975: the one reference to the L3 in a clock: 1 to 4 the classes of reads, 5 to 8 those of writes, 9 another, 0 none. A read for
ownership that satisfies a store is a write and no read (log 57, DESIGN CHOICE). -/
def l3Reference (f : StepFacts) (bg : Bool) : Nat := one f bg 0xdb 9

/-- 46 R973: whether the L3 reference of a clock hits. -/
def l3Hit (f : StepFacts) (bg : Bool) : Bool := chance f bg 0xdc 0

/-- 46 R974, R976: an L3 access: its requester class, whether it hits, and the state of its line; `first` is the number of the
first of its classes. The mask names a class in bits 3:2 and the outcomes in bits 1:0. -/
def l3Access (f : StepFacts) (bg : Bool) (first u mesi : Nat) (inClass : Nat → Nat → Bool) : Bool :=
  let kind := l3Reference f bg + 1 - first
  decide (1 ≤ kind ∧ kind ≤ 4) && inClass (u / 4) kind && (if l3Hit f bg then u % 2 == 1 else u / 2 % 2 == 1)
    && mesi.testBit (draw f bg 0xdd 2 3)

/-- 46 R936: the operations of a clock that saw a secondary miss: bits 0 a miss one cycle ahead, 1 in the queue, 2 a hit in
the fill buffer, 3 that it is a read, 4 a write. -/
def secondary (f : StepFacts) : List Nat :=
  (List.range 4).map fun k =>
    let c := draw f false 0xea k 7
    if c = 0 then 0 else c + 8 * (1 + draw f false 0xea (4 + k) 2)

/-- 46 R940: the one reason of a cancelled access to the L3 in a clock: 1 to 8 the unit masks 0 to 7, of which 3 stands for a
reason without a mask of its own; the background thread has those of the masks 0 to 3 alone. -/
def l3Cancel (f : StepFacts) (bg : Bool) : Nat :=
  let front := draw f false 0xe8 0 8
  if bg then (if front = 0 then draw f true 0xe8 0 4 else 0) else front

/-- 46 R911, 47 R1010: the L2DTLB misses of a clock: every reference that finds its translation in the VHPT or takes a fault of the
data TLB, and any of instructions that do not retire. -/
def l2dtlbMisses (f : StepFacts) : Nat :=
  let known := min 4 (tally (tlbMisses f false f.before) fun m => decide (2 ≤ m.kind))
  known + draw f false 0xc1 0 (4 - known)

/-- 47 R1010 to R1014: the events of the page walker, which does nothing for a thread for which it is not enabled. -/
def walkerEvent (code : Nat) : Bool := code ∈ [0x2d, 0x48, 0xc9]

/-- The events of the L2 data cache, of the L3 and of the page walker. Every cancel of an L3 access is counted by the unit mask
ANY too (46 R940); a read or a write of the L3 is a reference to it (R973, R975); while the walker is enabled a miss of the
L2DTLB is a reference to it (R911). -/
def cacheEvent (f : StepFacts) (bg : Bool) (code u mesi max : Nat) : Nat :=
  match code with
  | 0xe2 => if u = 0 then share f bg 0xe2 0 4 else draw f bg 0xe2 u (share f bg 0xe2 0 4)
  | 0xe0 => draw f bg 0xe0 u (share f bg 0xe2 0 4)
  | 0xe6 =>
    let r := draw f bg 0xe6 0 4
    let w := draw f bg 0xe6 1 (4 - r)
    (if u % 2 = 1 then r else 0) + (if 2 ≤ u then w else 0)
  | 0xea =>
    let ops := secondary f
    if u < 4 then draw f false 0xea (8 + u % 2) 4
    else match u with
      | 8 => tally ops fun c => c.testBit 2
      | 11 => tally ops fun c => c.testBit 1
      | 12 => tally ops fun c => c.testBit 0
      | 13 => tally ops fun c => c.testBit 3
      | 14 => tally ops fun c => c.testBit 4
      | 15 => tally ops fun c => c != 0
      | _ => draw f false 0xea (16 + u) 4
  | 0xf0 => share f bg 0xf0 (if 4 ≤ u then 4 + u % 2 else u) 4
  | 0xf2 =>
    let s := one f bg 0xf2 6
    match u with
    | 4 => (s == 5 || s == 6).toNat
    | 5 => (s == 6).toNat
    | 6 | 7 => share f bg 0xf2 u 1
    | _ => (s == u + 1).toNat
  | 0xe8 =>
    let c := l3Cancel f bg
    (if u = 2 then c != 0 else c == u + 1).toNat
  | 0xdb => (l3Reference f bg != 0).toNat
  | 0xdc => (l3Reference f bg != 0 && !l3Hit f bg).toNat
  | 0xda | 0xdf => (share f bg code 0 1 == 1 && mesi.testBit (draw f bg code 1 3)).toNat
  | 0xdd => (l3Access f bg 1 u mesi fun c k => match c with
      | 0 => k == 1
      | 1 => k == 1 || k == 2
      | 2 => k == 3
      | _ => true).toNat
  | 0xde => (l3Access f bg 5 u mesi fun c k => match c with
      | 1 => k == 1 || k == 2
      | 2 => k == 3
      | _ => true).toNat
  | 0xc1 | 0x2d => l2dtlbMisses f
  | _ => share f bg code u max

/-! ## External requests and the protocol engine (47 R1020 to R1058) -/

/-- Whether a thread is thread 0 of its core. -/
def isThread0 (f : StepFacts) (bg : Bool) : Bool := bg == f.thread1

/-- 47 R1032: whether a read of a class (1 loads, 2 stores and semaphores, 3 ownership hints, 4 and 5 instruction prefetches
and demand fetches, 6 and 7 uncacheable loads and fetches) is one of those a unit mask names. -/
def erRead (u k : Nat) : Bool :=
  match u with
  | 0 => k != 0
  | 1 => 1 ≤ k && k ≤ 5
  | 2 => 1 ≤ k && k ≤ 3
  | 3 => k == 1
  | 4 => k == 2 || k == 3
  | 5 => k == 2
  | 6 => k == 3
  | 7 => k == 4 || k == 5
  | 8 => k == 4
  | 9 => k == 5
  | 10 => k == 6 || k == 7
  | 11 => k == 6
  | _ => k == 7

/-- 47 R1034 to R1037: the one snoop response of a clock: its kind (1 code, 2 data, 3 invalidate), its result (0 another, 1
hit, 2 hitm, 3 implicit writeback; an invalidating snoop has no hit), and whether it is of 64 bytes. That there is no fourth kind of
snoop is the model's choice (log 57, DESIGN CHOICE). -/
def snoopEvent (f : StepFacts) (code u : Nat) : Bool :=
  let kind := one f false 0x84 3
  let r := draw f false 0x84 1 3
  let result := if kind = 3 ∧ r = 1 then 0 else r
  kind != 0 && (code == 0x84 || (code == 0x88 && kind == 1) || (code == 0x85 && kind == 2) || (code == 0x86 && kind == 3))
    && (u % 4 == 0 || u % 4 == result) && (u < 4 || chance f false 0x84 2)

/-- The two parts of a queue's occupation of at most 16: bits 4:3 and bits 2:0. -/
def occupationPart (high : Bool) (n : Nat) : Nat := if high then n / 8 else n % 8

/-- A part of the occupation of a queue by a thread. -/
def occupation (f : StepFacts) (bg : Bool) (code k : Nat) (high : Bool) : Nat := occupationPart high (share f bg code 0 k)

/-- 47 R1030, R1031: a part of the occupation of the queue of memory reads by both threads, which hold at most 16 entries. -/
def readOccupation (f : StepFacts) (high : Bool) : Nat :=
  occupationPart high (share f false 0xb4 0 16 + (if f.mt then share f true 0xb4 0 16 else 0))

/-- 47 R1021 to R1040: the events of the external request logic. -/
def requestEvent (f : StepFacts) (bg : Bool) (code u max : Nat) : Nat :=
  match code with
  | 0x80 => (erRead u (one f bg 0x80 7)).toNat
  | 0x81 =>
    let k := one f bg 0x81 5
    let here := k != 0 && (isThread0 f bg || (k != 3 && k != 4))
    if 6 ≤ u then unlisted f bg 0x81 u 1 else (here && (u == 0 || k == u)).toNat
  | 0x82 =>
    let k := one f bg 0x82 2
    (k != 0 && (u == 0 || k == u)).toNat
  | 0x83 => (one f bg 0x83 2 == u + 1).toNat
  | 0x84 => if 4 ≤ u then unlisted f false 0x84 u 1 else (snoopEvent f 0x84 u).toNat
  | 0x85 | 0x86 | 0x88 => if 8 ≤ u then unlisted f false code u 1 else (snoopEvent f code u).toNat
  | 0xb4 => occupation f bg 0xb4 16 true
  | 0xb5 => occupation f bg 0xb4 16 false
  | 0xb6 => occupation f false 0xb6 8 true
  | 0xb7 => occupation f false 0xb6 8 false
  | 0xb8 => occupation f false 0xb8 16 true
  | 0xb9 => occupation f false 0xb8 16 false
  | _ => share f bg code u max

/-- 47 R1054: the link events: a message class is valid in the builder, or lacks credits, only while `senden` is 1. -/
def linkEvent (f : StepFacts) (u : Nat) : Bool :=
  let on := chance f false 0xa2 0
  let valid (k : Nat) : Bool := on && chance f false 0xa2 (1 + k)
  let lacking (k : Nat) : Bool := valid k && chance f false 0xa2 (6 + k)
  match u with
  | 3 | 4 | 5 | 6 | 7 => lacking (u - 3)
  | 8 => (List.range 5).any lacking
  | 9 => on && chance f false 0xa2 11
  | 10 | 11 | 12 | 13 | 14 => valid (u - 10)
  | _ => chance f false 0xa2 (12 + u)

/-- 47 R1046 to R1058: the events of the protocol engine, which know no thread. One packet, request or response in a clock
has one of the kinds its table lists; the classes of the packets of R1058 are those of 12 R260, which leaves AbortTO open. The QPI event address register never captures (92 D41), so that its
event does not occur. -/
def engineEvent (f : StepFacts) (code u max : Nat) : Nat :=
  let k := one f false code 16
  let other := unlisted f false code u max
  match code with
  | 0x90 => if u = 0 then other else (k == u).toNat
  | 0x91 => (k == u + 1).toNat
  | 0x92 => if u ∈ [1, 2, 3, 4, 8, 9, 12, 13] then other else (k == u + 1).toNat
  | 0x93 => if u ∈ [1, 2, 3, 4, 8, 9] then other else (k == u + 1).toNat
  | 0x94 => draw f false 0x94 u 1
  | 0xa0 => if u = 1 then 0 else if u = 2 then other else draw f false 0xa0 u 1
  | 0xa1 =>
    let n := draw f false 0xa1 20 15
    match u with
    | 0 | 4 => draw f false 0xa1 u 1
    | 1 | 5 => draw f false 0xa1 u max
    | 2 => n % 4
    | 3 => n / 4
    | _ => other
  | 0xa2 => if u = 15 then other else (linkEvent f u).toNat
  | 0xa8 => (k != 0 && (u == 0 || k == u)).toNat
  | 0xa9 =>
    let drs := (2 ≤ k && k ≤ 8) || k == 1
    (match u with
      | 0 => drs
      | 1 => k != 0 && !drs
      | _ => k == u).toNat
  | 0xaa => (k != 0 && (u == 0 || k == u)).toNat
  | 0xae => if 11 ≤ u then other else (k != 0 && (u == 0 || k == u)).toNat
  | _ =>
    let kind := if 11 ≤ k ∧ k ≤ 15 then 2 else if k = 5 ∨ 16 ≤ k then draw f false 0xaf 1 2 else 1
    (k != 0 && (if u < 3 then kind == u else k == u)).toNat

/-! ## Thread switches, cycles (47 R1070 to R1082) -/

/-- The events of the multi-threading and of the frequency control; without another thread there is no thread switch to gate, to
stall or to spend cycles on (47 R1070). -/
def switchEvent (f : StepFacts) (code u : Nat) : Nat :=
  let bit (k : Nat) : Bool := (f.mt || code == 0x1a) && chance f false code k
  match code with
  | 0x0c => match f.switch with
    | some k => (u == 7 || u == k).toNat
    | none => (u == 0 && f.missed).toNat
  | 0x0d => (match u with
    | 1 => bit 0
    | 4 => bit 1
    | 5 => bit 2
    | _ => bit 0 || bit 1 || bit 2 || bit 3).toNat
  | 0x0e => (match u with
    | 1 => bit 0
    | 2 => bit 1
    | 3 => bit 0 || bit 1 || bit 2
    | k => bit k).toNat
  | 0x0f => (f.mt && decide (2 ^ (u + 2) ≤ coreEvent 0x0f 0 false f.n)).toNat
  | 0x1a => (bit 0 && (u == 0 || decide (2 ^ u ≤ coreEvent 0x1a 1 false f.n))).toNat
  | _ =>
    let level := draw f false 0x59 0 3
    let window := draw f false 0x59 1 2
    if u < 3 then (decide (u < level)).toNat
    else if 4 ≤ u ∧ u ≤ 6 then (decide (u - 4 = window ∧ window < level) && chance f false 0x59 2).toNat
    else unlisted f false 0x59 u 1

/-! ## Events that the instruction determines (92 D31) -/

/-- Whether the filters of channel 0 leave every instruction unconstrained. -/
def unconstrained (p : PMU) : Bool := rangeIgnored p 0 && (pmcAt p 36).getLsbD 0

/-- The value of an event that the instruction of the clock determines, for the foreground thread. -/
def computedEvent (f : StepFacts) (c : ThreadCaptures) (code u : Nat) : Nat :=
  let ev := f.after.ev
  let ofKind (fp : Bool) : Bool := if fp then 2 ≤ u else u % 2 == 1
  let check (p : CheckEvent → Bool) : Bool := f.retired && (match ev.check with
    | some k => p k
    | none => false)
  let rse (g : Nat × Nat → Nat) : Nat := if f.retired then (ev.rseOp.map g).getD 0 else 0
  match code with
  | 0x08 => (f.retired && tagOf f.source f.after true u).toNat
  -- 45 R801: channel 0 alone qualifies, whatever channel 1 is programmed with (log 57, DESIGN CHOICE)
  | 0x12 => (!f.before.thr.halted && (u == 0
      || (if f.retired then tagOf f.source f.after true 0
          else unconstrained f.after.pmu || chance f false 0x12 0))).toNat
  | 0x18 => f.before.thr.halted.toNat
  | 0x19 => (f.tick && !f.before.thr.halted).toNat
  | 0x13 => (decide (f.levels.1 ≠ f.levels.2) && u.testBit f.levels.2.toNat).toNat
  | 0x14 => (match ev.vector with
    | some v => decide ((BitVec.ofNat 11 (v / 2 ^ f.ivaOffShift) ^^^ (pmcAt f.after.pmu 43).setWidth 11)
        &&& ~~~((pmcAt f.after.pmu 43 >>> 11).setWidth 11) = 0#11)
    | none => false).toNat
  | 0x52 => ev.debugData.toNat
  | 0x53 => (f.retired && ev.serialize).toNat
  | 0x50 => (f.retired && ev.nop).toNat
  | 0x51 => (f.retired && ev.squashed && (if f.long then ev.flow.isNone || chance f false 0x51 0 else f.source.itype != 3#2)).toNat
  | 0x09 => if f.retired then ev.fpOps else 0
  | 0x06 => (f.retired && ev.fchkfFailed).toNat
  | 0x5a => (check fun k => !k.alat).toNat
  | 0x55 => (check fun k => !k.alat && k.failed && ofKind k.fp).toNat
  | 0x56 =>
    let more (k : Nat) : Bool := wrongPath f && chance f false 0x56 k
    min 2 ((check fun k => k.alat && ofKind k.fp).toNat + (more 0 && ofKind (chance f false 0x56 1)).toNat)
  | 0x57 => (check fun k => k.alat && k.failed && ofKind k.fp).toNat
  | 0x58 =>
    let own := f.retired && (match ev.allocated with
      | some (fp, k) => ofKind fp && (k ≤ 1 || (k == 2 && chance f false 0x58 0))
      | none => false)
    own.toNat + (wrongPath f && chance f false 0x58 1 && ofKind (chance f false 0x58 2)).toNat
  | 0x32 => rse fun _ => 1
  | 0x2b => rse fun p => p.1 % 8
  | 0x2a => rse fun p => p.1 / 8 % 8
  | 0x26 => rse fun p => p.1 / 64 % 2
  | 0x29 => rse fun p => p.2 % 8
  | 0x28 => rse fun p => p.2 / 8 % 8
  | 0x24 => rse fun p => p.2 / 64 % 2
  | 0x11 => c.trace.toNat
  | 0xc8 => c.dataEar.toNat
  | 0x43 => c.instrEar.toNat
  | _ => 0

/-- The events `computedEvent` gives. -/
def computed (code : Nat) : Bool :=
  code ∈ [0x06, 0x08, 0x09, 0x11, 0x12, 0x13, 0x14, 0x18, 0x19, 0x24, 0x26, 0x28, 0x29, 0x2a, 0x2b, 0x32, 0x43, 0x50, 0x51,
    0x52, 0x53, 0x55, 0x56, 0x57, 0x58, 0x5a, 0xc8]

/-! ## The value of an event -/

/-- The value of an event of a thread before the qualification; `u` is the unit mask without don't-care bits. -/
def rawEvent (f : StepFacts) (c : ThreadCaptures) (bg : Bool) (r : EventInfo) (u mesi : Nat) : Nat :=
  let code := r.code
  if computed code then computedEvent f c code u
  else if code ∈ [0x00, 0x01, 0x02, 0x04, 0xca] then (stallEvent f code u).toNat
  else if code = 0x71 then feBubble f u
  else if code ∈ [0x70, 0x72, 0x73] then lostBundles f code u
  else if code = 0x49 then (dispStalled f).toNat
  else if code = 0x4d then dispersed f
  else if code = 0x4e then
    (if u = 0 then unlisted f bg code 0 r.max else tally (lostSyllables f) fun s => s &&& u != 0)
  else if code = 0x4f then (if u % 2 = 1 then (overcounted f).1 else 0) + (if 2 ≤ u then (overcounted f).2 else 0)
  else if code ∈ [0x54, 0x5b, 0x63, 0x68, 0x6a] then
    (match f.after.ev.flow with
     | some e => (branchEvent f e code u).toNat
     | none => 0)
  else if code = 0x61 then (bundleDetail f u).toNat
  else if code ∈ [0x0c, 0x0d, 0x0e, 0x0f, 0x1a, 0x59] then switchEvent f code u
  else if code = 0x15 then 0
  else if dataSide code then dataEvent f r u
  else if code = 0x47 then (decide ((if u = 2 then 2 else 1) ≤ fetchMiss f false f.before)).toNat
  else if code = 0x67 then (chance f bg 0x67 0 && (u % 4 == 3 || chance f bg 0x67 1)).toNat
  else if code ∈ [0x78, 0x79, 0x7b, 0x7c, 0x7d] then
    (if code = 0x7b ∧ (u = 4 ∨ 8 ≤ u) then unlisted f bg code u 1 else (l2iEvent f bg code u).toNat)
  else if code = 0x7a then (l2iVictim f bg).toNat
  else if 0x90 ≤ code && code < 0xb0 then engineEvent f code u r.max
  else if (0x80 ≤ code && code < 0x90) || (0xb4 ≤ code && code < 0xc0) then requestEvent f bg code u r.max
  else cacheEvent f bg code u mesi r.max

/-- The events whose value has its qualification in it: the tagged instructions, the cycles, the captures, the mispredictions of a
bundle and the events of the data side. -/
def selfQualified (code : Nat) : Bool := code ∈ [0x08, 0x12, 0x11, 0x43, 0x61, 0xc8] || dataSide code

/-- The value of an event attributed to the foreground thread, with its filters, at most the maximum of its row (44 R701). -/
def foregroundEvent (f : StepFacts) (c : Captures) (code u mesi : Nat) : Nat :=
  match eventInfo code with
  | none => 0
  | some r =>
    if countsNothing code u || (walkerEvent code && !walkerEnabled f.before.cr.pta) then 0
    else
      let v := min r.max (rawEvent f c.fg false r (unitMask code u) mesi)
      if v = 0 then 0
      else if selfQualified code || qualified f f.source f.after r then v else 0

/-- The value of an event attributed to the background thread, with its filters: only a floating event can be that is not counted
with the thread in the foreground, and the halted cycles of the thread (44 R745, R746, 46 R930, 47 R1005, R1075). -/
def backgroundEvent (f : StepFacts) (c : Captures) (bg : LP) (code u mesi : Nat) : Nat :=
  match eventInfo code with
  | none => 0
  | some r =>
    if countsNothing code u || (walkerEvent code && !walkerEnabled bg.cr.pta) then 0
    else if code = 0x15 then (f.mt && decide (bg.thr.urgency.toNat ≤ u)).toNat
    else if code = 0x18 then bg.thr.halted.toNat
    else if code = 0x43 then c.bg.instrEar.toNat
    else if code = 0xc8 then c.bg.dataEar.toNat
    else if r.type = .floating ∧ f.mt = true ∧ activeThread code u = false then
      let v := min r.max (rawEvent f c.bg true r (unitMask code u) mesi)
      if v = 0 then 0 else if qualified f (unknownSource f bg 60) bg r then v else 0
    else 0

/-- The value of an event that every counter sees (47 R1045). -/
def commonEvent (f : StepFacts) (c : Captures) (code u : Nat) : Nat :=
  match eventInfo code with
  | none => 0
  | some r => if countsNothing code u then 0 else min r.max (rawEvent f c.fg false r (unitMask code u) 0)

end Sys2Proof.Machine
end

