-- ==== Sys2Proof/Machine/Pmu.lean ====
section
/-!
DEFINITION. The counters of the performance monitor (44 R702 to R704, R746), the clocks of a step (log 37) and what the monitors
of both threads do in them.
-/

namespace Sys2Proof.Machine

open Sys2Proof.Config

/-! ## Counters (44 R702 to R704) -/

/-- The value a counter of a thread sees: of its own thread, and with `all` on counters 4 to 9 of both, at most the maximum of the
event (44 R702, R704, R746; 45 R801 b, c, 47 R1005, R1030); an event that knows no thread is seen by every counter, one that
belongs to no thread only by those of the foreground. -/
def counterValue (f : StepFacts) (c : Captures) (bg : LP) (isBg : Bool) (p : PMU) (i : Nat) : Nat :=
  let w := pmcAt p i
  let ctl := pmcAt p (l2dMaster p i)
  let es := pmcEs w
  let u := pmcUmask ctl
  let mesi := pmcMesi w
  if seenByBoth es then commonEvent f c es u
  else
    let fg := foregroundEvent f c es u mesi
    let back := backgroundEvent f c bg es u mesi
    let own := if isBg then back else fg
    let other := if isBg then fg else back
    if !pmcAll ctl then own
    else if 10 ≤ i then (if es = 0x12 ∧ f.switch.isSome then 0 else own)
    else if es = 0x18 then min own other
    else if (es = 0x12 ∨ es = 0x19) ∧ isBg ∧ bg.thr.halted then own
    else if es = 0xb4 ∨ es = 0xb5 then readOccupation f (es == 0xb4)
    else
      match eventInfo es with
      | some r => min r.max (own + other)
      | none => 0

/-- 44 R702: the increment of a counter. -/
def increment (p : PMU) (i v : Nat) : Nat :=
  let t := pmcThreshold (pmcAt p i)
  if t = 0 then v else if t < v then 1 else 0

/-- The processor status a counter is enabled under: that of its thread before the clock; for the changes of the privilege level
with the level before or the one after the change (93 U17). -/
def countingLevel (f : StepFacts) (isBg : Bool) (psr : LP) (p : PMU) (i : Nat) : LP :=
  if pmcEs (pmcAt p i) = 0x13 && !isBg then
    { psr with psr := setField psr.psr 32 2 ((if cplChangeNew then f.levels.2 else f.levels.1).setWidth 64) }
  else psr

/-- 44 R702, R704, R792: whether a counter counts in a clock: it is enabled, a banked one is of the foreground thread, and the
thread is not in the low-power halt, in which only its halted cycles are counted (47 R1005). -/
def counting (f : StepFacts) (isBg : Bool) (psr : LP) (p : PMU) (i : Nat) : Bool :=
  monitorEnable (countingLevel f isBg psr p i) p i && (!isBg || decide (i ≤ 9))
    && (!psr.thr.halted || pmcEs (pmcAt p i) == 0x18)

/-- 44 R702, R703: one counter. A counter whose restriction is violated takes any value (93 U10). -/
def countOne (f : StepFacts) (c : Captures) (bg : LP) (isBg : Bool) (psr : LP) (p : PMU)
    (acc : Vector Word 64 × Word) (i : Nat) : Vector Word 64 × Word :=
  if counting f isBg psr p i then
    let inc := if restricted f.featMt p i then (freeWord (f.n + 200 + i + (if isBg then 16 else 0))).toNat % 2 ^ 47
      else increment p i (counterValue f c bg isBg p i)
    if inc = 0 then acc
    else
      let sum := (pmdAt p i).toNat + inc
      let status := if 2 ^ 47 ≤ sum then
          acc.2 ||| (1#64 <<< i) ||| (if pmcOi (pmcAt p i) then 1#64 else 0#64)
        else acc.2
      (acc.1.setIfInBounds i (BitVec.ofNat 64 (sum % 2 ^ 47)), status)
  else acc

/-- The indices of the counters. -/
def counterList : List Nat := [4, 5, 6, 7, 8, 9, 10, 11, 12, 13, 14, 15]

/-- All counters of a thread. -/
def countAll (f : StepFacts) (c : Captures) (bg : LP) (isBg : Bool) (psr : LP) (p : PMU) : PMU :=
  let r := counterList.foldl (countOne f c bg isBg psr p) (p.pmd, pmcAt p 0)
  { p with pmd := r.1, pmc := p.pmc.setIfInBounds 0 r.2 }

/-- What the monitors of both threads do in a clock. -/
def pmuClock (f : StepFacts) (bg : LP) : PMU × PMU :=
  let c := captures f bg
  (countAll f c bg false f.before c.fg.pmu, countAll f c bg true bg c.bg.pmu)

/-! ## The clocks of a step (log 37) -/

/-- The number of clocks of a step whose time base makes `ticks` ticks, for the accesses of the register stack engine, of which
two go in a clock (47 R1068), a flush of the pipeline, a delivery, and any number beyond them. -/
def clocksOf (ev : StepEvent) (ticks n : Nat) : Nat :=
  max ticks ((ev.rse.length + 1) / 2) + ev.serialize.toNat + ev.vector.isSome.toNat + idleClocks n % 2 ^ 16 + 1

/-- The change of the privilege level that clock `j` of a step makes. An instruction that changes the level and then traps makes
two changes, the second in the next clock (47 R1001, R1002). -/
def levelsOf (f : StepFacts) (j : Nat) : BitVec 2 × BitVec 2 :=
  let mid : BitVec 2 := match f.after.ev.statusAt with
    | some w => (w >>> 32).setWidth 2
    | none => f.after.cpl
  if mid = f.before.cpl then (if j = 0 then (f.before.cpl, f.after.cpl) else (f.after.cpl, f.after.cpl))
  else if j = 0 then (f.before.cpl, mid)
  else if j = 1 then (mid, f.after.cpl)
  else (f.after.cpl, f.after.cpl)

/-- The facts of clock `j` of a step with the facts `f` that takes `k` clocks: the instruction runs in the first; in the others
the pipeline has a bubble, and what is observed belongs to the same instruction. The flush for an interruption is in the first clock,
that for a trap or a serialization, which comes after the instruction has retired, in the next. -/
def clockFacts (f : StepFacts) (ticks k j : Nat) : StepFacts :=
  let ev := f.after.ev
  let f' := { f with
    rse := (f.rse.drop (2 * j)).take 2, levels := levelsOf f j, tick := decide (j < ticks)
    switch := if j + 1 = k then f.switch else none
    missed := f.missed && decide (j + 1 = k) }
  if j = 0 then { f' with flush := ev.vector.isSome && !f.retired }
  else
    let idle := { f.after with ev := StepEvent.none }
    { f' with
      before := idle, after := idle, retired := false
      flush := (ev.serialize || (ev.vector.isSome && f.retired)) && decide (j = 1)
      n := clockKey f.n j }

/-- The monitors of both threads in `left` more clocks of a step of `k`. -/
def pmuClocks (f : StepFacts) (bg : LP) (ticks k : Nat) : Nat → PMU × PMU → PMU × PMU
  | 0, p => p
  | left + 1, p =>
    let g := clockFacts f ticks k (k - (left + 1))
    pmuClocks f bg ticks k left
      (pmuClock { g with after := { g.after with pmu := p.1 } } { bg with pmu := p.2 })

/-- What the monitors of both threads do in a step whose time base makes `ticks` ticks; the record of the step's events is in
`after.ev`. -/
def pmuTick (f : StepFacts) (ticks : Nat) (bg : LP) : PMU × PMU :=
  let k := clocksOf f.after.ev ticks f.n
  pmuClocks f bg ticks k k (f.after.pmu, bg.pmu)

end Sys2Proof.Machine
end

