-- ==== Sys2Proof/Machine/UncoreClock.lean ====
section
/-!
DEFINITION. One clock of the uncore counters (12 R261 to R267, 13 R308, R344, 48 R1101 to R1108) and the events they count
(48_uncore_bbox_events.md, 49_uncore_rbox_zbox_events.md). The traffic is free (92 D31): the packets, queue occupancies and
commands of a clock are drawn within the bounds the spec states, and every event is computed from them. A clock of the uncore
goes with each step (log 36); a box is numbered 16 times its socket plus 0, 1 for the B-Boxes, 2 for the R-Box, 3, 4 for the
Z-Boxes.
-/

namespace Sys2Proof.Machine

open Sys2Proof.Config

/-! ## Facts of a clock -/

/-- A one-bit traffic event of a box. -/
def unitEvent (box code sel n : Nat) : Bool := uncoreEvent box code sel n % 2 = 1

/-- A free number of a box from 0 to `max`. -/
def unitDraw (box code sel n max : Nat) : Nat := uncoreEvent box code sel n % (max + 1)

/-! ## B-Box: packets (12 R258 to R260) -/

/-- A QPI packet at the interface of a B-Box: its message class number (12 R259), its opcode, and whether the node id that a 0
and the one that a 1 of the selecting bit of `CTL2` takes are of this socket. -/
structure Packet where
  cls : Nat
  opc : Nat
  local0 : Bool
  local1 : Bool
deriving DecidableEq, Repr

/-- 49 R1290: the message class numbers of HOM0, HOM1, NDR, SNP, NCS, NCB and DRS. -/
def packetClasses : List Nat := [0, 1, 2, 3, 4, 12, 14]

/-- 12 R259: the bit of a class field of `CTL3` that stands for a message class: that of its number, but for NCB, whose code is
0x0800. -/
def classCodeBit (cls : Nat) : Nat := if cls = 12 then 11 else cls

/-- 12 R260, 49 R1290: the opcodes of a message class. -/
def packetOpcodes (cls : Nat) : List Nat :=
  match cls with
  | 0 => [0, 1, 2, 3, 4, 5, 6, 7, 8, 12, 13, 14, 15]
  | 1 => [0, 1, 4, 6, 8, 9, 10, 11, 12, 13, 14]
  | 2 => [0, 1, 4, 8, 9, 10, 11, 12]
  | 3 => [0, 1, 2, 4, 5, 8, 15]
  | 4 => [0, 1, 4, 5, 7, 9, 11]
  | 12 => [0, 1, 8, 9, 10, 12, 13, 15]
  | 14 => [0, 1, 2, 3, 4, 5, 6, 7, 8, 10, 11]
  | _ => []

/-- 49 R1240: whether a message of a class and opcode may go to a home agent: no snoop, and no cache line for a core. -/
def toHome (cls opc : Nat) : Bool := decide (cls ≠ 3) && !(decide (cls = 14) && decide (opc < 4))

/-- 49 R1240: whether a message of a class may go to a caching agent: no home message. -/
def toCore (cls : Nat) : Bool := decide (2 ≤ cls)

/-- The packet that passes the interface in a clock, if there is one: fact `code` and those after it. -/
def packetAt (x code n : Nat) : Option Packet :=
  if unitEvent x code 0 n then
    let cls := packetClasses.getD (unitDraw x code 1 n 6) 0
    let ops := packetOpcodes cls
    some { cls := cls, opc := ops.getD (unitDraw x code 2 n (ops.length - 1)) 0
           local0 := unitEvent x code 3 n, local1 := unitEvent x code 4 n }
  else none

/-- The packet a B-Box receives in a clock. -/
def inputPacket (x n : Nat) : Option Packet := (packetAt x 0x19 n).filter fun p => toHome p.cls p.opc

/-- The packet a B-Box sends in a clock. -/
def outputPacket (x n : Nat) : Option Packet := packetAt x 0x1A n

/-- The input packet of the transaction to which the output packet of a clock belongs. -/
def originPacket (x n : Nat) : Option Packet := (packetAt x 0x11A n).filter fun p => toHome p.cls p.opc

/-- 12 R256, 49 R1290: whether a packet is a *cmp* message: an NDR completion or a data response with completion. -/
def completion (p : Packet) : Bool :=
  (p.cls == 2 && decide (p.opc ∈ [0, 4, 8, 10, 11, 12])) || (p.cls == 14 && p.opc == 2)

/-- 12 R258: the filter of one direction of `CTL3`: the class field and the opcode field. -/
def packetPasses (classes opcodes : Nat) (p : Packet) : Bool := classes.testBit (classCodeBit p.cls) && opcodes.testBit p.opc

/-- 12 R262: whether a packet is one of the write data packets, which count only with `CTL0.wrdata_en`. -/
def writeData (p : Packet) : Bool := p.cls == 14 && decide (p.opc ∈ [4, 5, 6, 7, 8, 10, 11])

/-- 12 R260: whether a packet is an `AckCnflt`, which counts only with `CTL0.ackcnflt_en`. -/
def ackConflict (p : Packet) : Bool := p.cls == 0 && p.opc == 15

/-- 12 R256: whether `iob_remote_local` selects a local or remote id: 1 local, 2 remote, 0 and 3 both (3 by the recipe of 12 R257:
log 35). -/
def localitySelects (rl : Nat) (isLocal : Bool) : Bool :=
  match rl with
  | 1 => isLocal
  | 2 => !isLocal
  | _ => true

/-! ## B-Box: the fields of `CTL2` (12 R256) -/

def BBox.arbSel0 (b : BBox) : Nat := b.ctl2.toNat % 64
def BBox.arbSel1 (b : BBox) : Nat := b.ctl2.toNat / 64 % 64
def BBox.transSel (b : BBox) : Nat := b.ctl2.toNat / 2 ^ 15 % 4
def BBox.idIn (b : BBox) : Bool := b.ctl2.getLsbD 17
def BBox.idOut (b : BBox) : Bool := b.ctl2.getLsbD 18
def BBox.remoteLocal (b : BBox) : Nat := b.ctl2.toNat / 2 ^ 19 % 4
def BBox.zOp (b : BBox) : Nat := b.ctl2.toNat / 2 ^ 21 % 2 ^ 16
def BBox.waterMark (b : BBox) : Nat := b.ctl2.toNat / 2 ^ 37 % 64

/-! ## B-Box: snoops and IOB (48 R1149 to R1166) -/

/-- 48 R1161 to R1166: the snoop request (`code` 0x1B) or response (0x1E) of a clock, true for a local one. -/
def snoopAt (x code n : Nat) : Option Bool := if unitEvent x code 0 n then some (unitEvent x code 1 n) else none

/-- Whether there is a snoop that a locality selects. -/
def snoopSelected (rl : Nat) : Option Bool → Bool
  | some isLocal => localitySelects rl isLocal
  | none => false

/-- Whether the input packet of a clock passes the filters of the B-Box (12 R253, R258). -/
def inputPasses (b : BBox) (p : Packet) : Bool :=
  packetPasses (b.ctl3.toNat % 2 ^ 16) (b.ctl3.toNat / 2 ^ 16 % 2 ^ 16) p
    && (!writeData p || b.ctl0.getLsbD 14) && (!ackConflict p || b.ctl0.getLsbD 15)
    && localitySelects b.remoteLocal (if b.idIn then p.local1 else p.local0)

/-- Whether an output packet passes the filters, its socket told by the id a bit selects. -/
def outputPasses (b : BBox) (second : Bool) (p : Packet) : Bool :=
  packetPasses (b.ctl3.toNat / 2 ^ 32 % 2 ^ 16) (b.ctl3.toNat / 2 ^ 48) p && (!writeData p || b.ctl0.getLsbD 14)
    && localitySelects b.remoteLocal (if second then p.local1 else p.local0)

/-- 48 R1149: an input packet is counted; with `iob_remote_local` 0, which is only valid for live transactions, any answer. -/
def iobInput (x n : Nat) (b : BBox) : Bool :=
  match inputPacket x n with
  | some p => inputPasses b p && (b.remoteLocal != 0 || unitEvent x 0x19 5 n)
  | none => false

/-- 48 R1152: an output packet is counted. -/
def iobOutput (x n : Nat) (b : BBox) : Bool :=
  match outputPacket x n with
  | some p => outputPasses b b.idOut p && (b.remoteLocal != 0 || unitEvent x 0x1A 5 n)
  | none => false

/-- The live count of the IOB. -/
def BBox.iobLive (b : BBox) : Nat := b.iob.toNat / 2 ^ 11 % 1024

/-- 48 R1151: a live IOB transaction begins; `iob_trans_sel` 3 is not described (any answer). -/
def iobInsert (x n : Nat) (b : BBox) : Bool :=
  match b.transSel with
  | 2 => snoopSelected b.remoteLocal (snoopAt x 0x1B n)
  | 3 => unitEvent x 0x17 0 n
  | _ => match inputPacket x n with
    | some p => inputPasses b p
    | none => false

/-- Whether the transaction of the output packet began with an input packet that the filters select. -/
def originPasses (x n : Nat) (b : BBox) : Bool :=
  match originPacket x n with
  | some p => inputPasses b p
  | none => false

/-- 12 R262: the output packet of a clock, if its age bit says that it belongs to the current set of transactions. -/
def currentOutput (x n : Nat) (b : BBox) : Option Packet :=
  if unitEvent x 0x1A 6 n == b.age then outputPacket x n else none

/-- 48 R1153, 12 R256, R257: a live IOB transaction ends: an output packet of the current set, told by its own class, opcode and
socket or by those of the input packet of its transaction, as printed (93 U27); a completion of a transaction whose input packet
matched; or a snoop response. With `iob_trans_sel` 3, which is not described, any answer. -/
def iobRemove (x n : Nat) (b : BBox) : Bool :=
  match b.transSel with
  | 0 => (match currentOutput x n b with
    | some p => if iobRemoveByInput then originPasses x n b else outputPasses b b.idOut p
    | none => false)
  | 1 => (match currentOutput x n b with
    | some p => completion p && originPasses x n b
    | none => false)
  | 2 => snoopSelected b.remoteLocal (snoopAt x 0x1E n)
  | _ => unitEvent x 0x18 1 n

/-- A live count after an insert and a remove in one clock, modulo `2 ^ w` (00 R23). -/
def liveCount (w live : Nat) (insert remove : Bool) : Nat := (live + insert.toNat + (2 ^ w - remove.toNat)) % 2 ^ w

/-- 12 R260, 48 R1157: whether a packet is a response forward packet. -/
def responseForward (p : Packet) : Bool := p.cls == 1 && decide (8 ≤ p.opc ∧ p.opc ≤ 12)

/-- 48 R1157 to R1160: which of the four kinds of response forward packet arrives in a clock, by its code, if one arrives. -/
def forwardArrived (x n : Nat) : Option Nat :=
  match inputPacket x n with
  | some p => if responseForward p then some (unitDraw x 0 0 n 3) else none
  | none => none

/-! ## B-Box: the arbitration queues and the IMT (12 R261, 48 R1112, R1113) -/

/-- 12 R261: how many entries a queue holds. Queues 0 to 31 are the conflict queues; then come RIAQ, WIAQ, BRAQ, NBRAQ, COHQ and
CLM. -/
def queueDepth (k : Nat) : Nat := if k < 32 then 64 else if k = 35 ∨ k = 36 then 512 else 32

/-- 48 R1112: the queues a selector names. -/
def arbQueues (sel : Nat) : List Nat :=
  if sel ≤ 0x1F then [sel]
  else match sel with
    | 0x20 | 0x29 => List.range 32
    | 0x21 | 0x22 | 0x23 | 0x24 | 0x25 => [sel - 1]
    | 0x27 => [37]
    | 0x28 => [32, 33, 34, 37]
    | _ => []

/-- The number of entries in a queue. -/
def BBox.entries (b : BBox) (k : Nat) : Nat := (b.arbq.getD k 0#10).toNat

/-- The queues that a move of a clock is for, before it is asked whether it can be made: an event adds at most one in a clock, so
that there is at most one among the conflict queues, one among the queues of the selector SAQ, and one for each other queue
(log 35). -/
def arbPicked (x code n : Nat) : List Nat :=
  let pick (sel : Nat) (l : List Nat) : List Nat := (l[unitDraw x code sel n l.length]?).toList
  pick 0x20 (List.range 32) ++ pick 0x28 [32, 33, 34, 37] ++ pick 0x24 [35] ++ pick 0x25 [36]

/-- 48 R1126: the queues that get an entry in this clock: none that is full. -/
def arbInserted (x n : Nat) (b : BBox) : List Nat := (arbPicked x 0x09 n).filter fun k => decide (b.entries k < queueDepth k)

/-- The live count of the IMT. -/
def BBox.imtLive (b : BBox) : Nat := b.imt.toNat / 128 % 64

/-- 48 R1127: the queues that lose an entry in this clock: none that is empty, and no conflict queue while the IMT, into which a pop puts
the request (48 R1148), is full. -/
def arbRemoved (x n : Nat) (b : BBox) : List Nat :=
  (arbPicked x 0x0A n).filter fun k => decide (b.entries k ≠ 0 ∧ (32 ≤ k ∨ b.imtLive < 32))

/-- The queues after the inserts and the removes of a clock. -/
def arbMoved (x n : Nat) (b : BBox) : Vector (BitVec 10) 38 :=
  .ofFn fun k => BitVec.ofNat 10
    (b.entries k + ((arbInserted x n b).contains k.val).toNat - ((arbRemoved x n b).contains k.val).toNat)

/-- The number of entries in the queues of a selector; for 0x29 the number of conflict queues that are not empty. -/
def BBox.occupancy (b : BBox) (sel : Nat) : Nat :=
  if sel = 0x29 then ((List.range 32).filter fun k => decide (b.entries k ≠ 0)).length
  else ((arbQueues sel).map b.entries).sum

/-- 48 R1125: the selectors for which accumulator 0 has an input. -/
def arbAccumulates (sel : Nat) : Bool := decide ((0x21 ≤ sel ∧ sel ≤ 0x25) ∨ sel = 0x27 ∨ sel = 0x29)

/-- 12 R256, 48 R1126: an insert into the queues of a selector; for 0x29 a first one, into an empty conflict queue. -/
def arbInsert (x n : Nat) (b : BBox) (sel : Nat) : Bool :=
  (arbInserted x n b).any fun k => decide (k ∈ arbQueues sel) && (sel != 0x29 || decide (b.entries k = 0))

/-- 48 R1127: a remove from the queues of a selector; one with 0x29 is one with 0x20. -/
def arbRemove (x n : Nat) (b : BBox) (sel : Nat) : Bool := (arbRemoved x n b).any fun k => decide (k ∈ arbQueues sel)

/-- 48 R1129, R1134: whether the queues of a selector are full after the clock that `b` is before and `b'` is after; for 0x29 a
first insert into an empty conflict queue. -/
def arbFull (x n : Nat) (b b' : BBox) (sel : Nat) : Bool :=
  if sel = 0x29 then arbInsert x n b sel
  else decide (0x21 ≤ sel) && !(arbQueues sel).isEmpty && (arbQueues sel).all fun k => decide (b'.entries k = queueDepth k)

/-- 48 R1113: how an entry comes into the IMT in this clock: 2 by a pop of a conflict queue, which every remove from one is (48
R1148), 1 by an allocation, 0 if none does or the IMT is full. -/
def imtInsert (x n : Nat) (b : BBox) : Nat :=
  if arbRemove x n b 0x20 then 2 else if b.imtLive < 32 then unitDraw x 0x05 0 n 1 else 0

/-- Whether an entry leaves the IMT in this clock. -/
def imtRemove (x n : Nat) (b : BBox) : Bool := decide (b.imtLive ≠ 0) && unitEvent x 0x104 0 n

/-! ## B-Box: the sub-counters (12 R262 to R267) -/

/-- 12 R267: one step of an accumulator of `w` bits: the new sum and its carry; a disabled one holds its sum. -/
def accumulate (on : Bool) (w sum live : Nat) : Nat × Bool :=
  if on then ((sum + live) % 2 ^ w, decide (2 ^ w ≤ sum + live)) else (sum, false)

/-- The overflow flag an accumulator of 7 bits shows in bit 6 (12 R267). -/
def overflowFlag (on carry : Bool) (old : Nat) : Nat := if on then carry.toNat else old / 64 % 2

/-- 12 R267: the B-Box after the sub-counters' clock, with the overflow events of IMT, ARB0, ARB1, IOB, BZ and the acknowledge of
a matching BZ command. -/
structure BTick where
  box : BBox
  imt : Bool
  arb0 : Bool
  arb1 : Bool
  iob : Bool
  bz : Bool
  ack : Bool
deriving DecidableEq, Repr

/-- The IMT part of the sub-counter clock (12 R253, R266): at most 32 entries are live; the accumulator adds the live count after
this clock's insert and remove (log 35, DESIGN CHOICE). It is the first part, so that the others see the queues before the clock. -/
def bTickImt (x n : Nat) (t : BTick) : BTick :=
  let on := t.box.ctl0.getLsbD 9
  let live := liveCount 6 t.box.imtLive (decide (imtInsert x n t.box ≠ 0)) (imtRemove x n t.box)
  let a := accumulate on 6 (t.box.imt.toNat % 64) live
  { t with
    imt := a.2
    box := { t.box with imt := BitVec.ofNat 13 (live * 128 + overflowFlag on a.2 t.box.imt.toNat * 64 + a.1) } }

/-- The arbiter part of the sub-counter clock (12 R264, R265), after this clock's inserts and removes, which the box `b` before the
clock decides (log 35, DESIGN CHOICE). In
the full case of 2048 conflict entries, which the source does not discuss, `live_cnt` reads 0, and the accumulator still adds 2048,
with one carry (log 35, DESIGN CHOICE). -/
def bTickArb (x n : Nat) (b : BBox) (t0 : BTick) : BTick :=
  let t := { t0 with box := { t0.box with arbq := arbMoved x n b } }
  let on := t.box.ctl0.getLsbD 10
  let sel := t.box.arbSel0
  let live0 := t.box.occupancy sel
  let live1 := t.box.occupancy 0x20
  let a0 := accumulate on 10 (t.box.arb0.toNat % 1024) (if arbAccumulates sel then live0 else 0)
  let a1 := accumulate on 11 (t.box.arb1.toNat % 2048) live1
  { t with
    arb0 := a0.2, arb1 := a1.2
    box := { t.box with arb0 := BitVec.ofNat 23 (live0 * 4096 + a0.1), arb1 := BitVec.ofNat 23 (live1 * 4096 + a1.1) } }

/-- The IOB part of the sub-counter clock (12 R262); the accumulator adds the live count after this clock's insert and remove
(log 35, DESIGN CHOICE). The live counts of snoops follow the requests and responses. -/
def bTickIob (x n : Nat) (t : BTick) : BTick :=
  let b := t.box
  let live := liveCount 10 b.iobLive (iobInsert x n b) (iobRemove x n b)
  let snoops (shift : Nat) (isLocal : Bool) : Nat :=
    liveCount 10 (b.iob.toNat / 2 ^ shift % 1024) (snoopAt x 0x1B n == some isLocal) (snoopAt x 0x1E n == some isLocal)
  let a := accumulate (b.ctl0.getLsbD 13) 11 (b.iob.toNat % 2048) live
  { t with
    iob := a.2
    box := { b with iob := BitVec.ofNat 41 (snoops 31 false * 2 ^ 31 + snoops 21 true * 2 ^ 21 + live * 2 ^ 11 + a.1) } }

/-- The BZ part of the sub-counter clock (12 R263): a command whose opcode `z_op` selects begins while fewer than 32 are
outstanding (49 R1266), the first acknowledge of one ends it. The Z-Box acknowledges no Fill2b request, so that the acknowledge of one
that is counted is made in the next clock. The accumulator adds the live count after this clock's request and
acknowledge (log 35, DESIGN CHOICE). -/
def bTickBz (x n : Nat) (t : BTick) : BTick :=
  let b := t.box
  let on := b.ctl0.getLsbD 12
  let old := b.bz.toNat / 128 % 64
  let op := unitDraw x 0x121 1 n 15
  let request := decide (old < 32) && unitEvent x 0x121 0 n && b.zOp.testBit op
  let ack := b.fillAck || (decide (old ≠ 0) && unitEvent x 0x22 0 n)
  let live := liveCount 6 old request ack
  let st := if live = 0 then 0 else 1 + unitDraw x 0x131 0 n (2 ^ 17 - 2)
  let a := accumulate on 6 (b.bz.toNat % 64) live
  { t with
    bz := a.2, ack := ack
    box := { b with
      fillAck := request && decide (op = fill2bOp % 16)
      bz := BitVec.ofNat 48 (st * 2 ^ 31 + live * 128 + overflowFlag on a.2 b.bz.toNat * 64 + a.1) } }

/-! ## B-Box: events and counters (48 R1108, R1120) -/

/-- 48 R1120: whether the B-Box event with a code occurs in this clock; `b` is the box before it. -/
def bEvent (x n : Nat) (b : BBox) (t : BTick) (code : Nat) : Bool :=
  let bzLive := t.box.bz.toNat / 128 % 64
  let req := snoopAt x 0x1B n
  let rsp := snoopAt x 0x1E n
  match code with
  | 0x00 | 0x01 | 0x02 | 0x03 => forwardArrived x n == some code
  | 0x04 => t.imt
  | 0x05 => imtInsert x n b == 1
  | 0x06 => imtInsert x n b == 2
  | 0x23 | 0x26 | 0x27 | 0x28 | 0x2A | 0x2B | 0x2C | 0x2D => unitEvent x code 0 n
  | 0x07 => decide (t.box.imtLive ≠ 0)
  | 0x08 => t.arb0
  | 0x09 => arbInsert x n b b.arbSel0
  | 0x0A => arbRemove x n b b.arbSel0
  | 0x0B => decide (t.box.occupancy b.arbSel0 ≠ 0)
  | 0x0C => arbFull x n b t.box b.arbSel0
  | 0x0D => t.arb1
  | 0x0E => arbInsert x n b 0x20
  | 0x0F => arbRemove x n b 0x20
  | 0x10 => decide (t.box.occupancy b.arbSel1 ≠ 0)
  | 0x11 => arbFull x n b t.box b.arbSel1
  | 0x16 => t.iob
  | 0x17 => iobInsert x n b
  | 0x18 => iobRemove x n b
  | 0x19 => iobInput x n b
  | 0x1A => iobOutput x n b
  | 0x1B => req.isSome
  | 0x1C => req == some true
  | 0x1D => req == some false
  | 0x1E => rsp.isSome
  | 0x1F => rsp == some true
  | 0x20 => rsp == some false
  | 0x21 => t.bz
  | 0x22 => b.ctl0.getLsbD 12 && t.ack
  | 0x24 => b.ctl0.getLsbD 12
      && (if b.ctl2.getLsbD 43 then decide (b.waterMark ≤ bzLive) else decide (bzLive < b.waterMark))
  | 0x25 => true
  | 0x29 => decide (t.box.imtLive = 32)
  | _ => false

/-- 48 R1108: one main counter of a B-Box in one clock. -/
def bCount (x n : Nat) (b : BBox) (t : BTick) (i : Nat) (c : BitVec 41) : BitVec 41 :=
  let ctl0 := t.box.ctl0
  if ctl0.getLsbD 0 then c &&& (1#41 <<< 40)
  else if ctl0.getLsbD 32 then c
  else if ctl0.getLsbD (1 + i) && !(ctl0.getLsbD (16 + i) && !ctl0.getLsbD (24 + i) && c.getLsbD 40)
      && bEvent x n b t (((t.box.ctl1 >>> (6 * i)).setWidth 6 : BitVec 6).toNat) then
    (if c.toNat % 2 ^ 40 = 2 ^ 40 - 1 then 1#41 <<< 40 else c + 1#41)
  else c

/-- 48 R1107: the counters whose overflow asks for a freeze. -/
def bTriggers (b : BBox) : BitVec 8 :=
  BitVec.ofNat 8 ((List.range 8).foldl
    (fun acc i => acc + ((b.cnt.getD i 0#41).getLsbD 40 && b.ctl0.getLsbD (24 + i)).toNat * 2 ^ i) 0)

/-- 48 R1108: one clock of a B-Box; the second part is its overflow freeze. -/
def bTick (x n : Nat) (b : BBox) : BBox × Bool :=
  let t := bTickBz x n (bTickIob x n (bTickArb x n b (bTickImt x n
    { box := b, imt := false, arb0 := false, arb1 := false, iob := false, bz := false, ack := false })))
  let b' := { t.box with cnt := .ofFn fun i => bCount x n b t i.val (t.box.cnt.getD i.val 0#41) }
  let trig := bTriggers b'
  let natural := decide (trig ≠ 0#8) && decide (b.trigPrev = 0#8)
  ({ b' with trigPrev := trig, ctl0 := if natural then b'.ctl0 ||| (1#33 <<< 32) else b'.ctl0 }, natural)

/-! ## R-Box: events (49 R1200 to R1231) -/

/-- A one-bit event of a port of an R-Box. -/
def portEvent (x p code sel n : Nat) : Bool := unitEvent x (0x100 * p + code) sel n

/-- 49 R1213 to R1215: the output buffer of a full-width port is by-passed. Which ports these are "is not said": the model takes
the four PR ports 4, 5, 6 and 9, and not the on-die ports (log 35, DESIGN CHOICE). -/
def bufferedPort (p : Nat) : Bool := !decide (p ∈ [4, 5, 6, 9])

/-- A packet a port receives: its class as 13 R315 numbers the bits of PKT_MSGSEL (0 NCB to 4 SNP, 5 HOM) and those of ARB_MSGSEL (5
HOM1, 6 HOM0), and its virtual network: 0 VN0, 1 VN1, 2 VNA. -/
structure Received where
  cls : Nat
  arb : Nat
  vn : Nat
deriving DecidableEq, Repr

/-- The packets of a class that a port has received and not allocated. -/
def RBox.waitingAt (r : RBox) (p c : Nat) : Nat := (r.waiting.getD (7 * p + c) 0#7).toNat

/-- How many packets of a class a port can hold: 96 of one flit on VNA, one on VN0 and one on VN1 (13 R302). -/
def waitingMax : Nat := 98

/-- 49 R1212: the packet a port receives in this clock, if there is one: its first flit is a flit received (49 R1208), so that there
is at most one; none of a class of which the port holds as many as it can. HOM0 packets are on VN0 or VNA, HOM1 ones on VN1 or VNA (49
R1204). -/
def received (x n : Nat) (r : RBox) (p : Nat) : Option Received :=
  let cls := unitDraw x (0x100 * p + 5) 0 n 5
  let vn := unitDraw x (0x100 * p + 5) 1 n 2
  let home0 := decide (vn = 0) || (decide (vn = 2) && portEvent x p 5 2 n)
  let arb := if cls = 5 && home0 then 6 else cls
  if portEvent x p 30 0 n && portEvent x p 5 3 n && decide (r.waitingAt p arb < waitingMax) then
    some { cls := cls, arb := arb, vn := vn } else none

/-- 49 R1212: whether a new packet is of a class of a mask, on the virtual network selected (3 for any). -/
def newPacket (x n : Nat) (r : RBox) (p vn mask : Nat) : Bool :=
  match received x n r p with
  | some q => mask.testBit q.cls && (vn == 3 || vn == q.vn)
  | none => false

/-- The packets of a class waiting at a port after it has received what it receives in this clock. -/
def waitingNow (x n : Nat) (r : RBox) (p c : Nat) : Nat :=
  r.waitingAt p c + (match received x n r p with
    | some q => (q.arb == c).toNat
    | none => 0)

/-- 49 R1202, R1212: the class of the packet that is allocated to the arbiter of a port in this clock, if one is: each packet
received is allocated once. -/
def allocated (x n : Nat) (r : RBox) (p : Nat) : Option Nat :=
  match unitDraw x (0x100 * p + 9) 0 n 7 with
  | 0 => none
  | k + 1 => if waitingNow x n r p k = 0 then none else some k

/-- The packets of a class waiting at a port after this clock. -/
def waitingAfter (x n : Nat) (r : RBox) (p c : Nat) : Nat :=
  waitingNow x n r p c - (allocated x n r p == some c).toNat

/-- 49 R1204: the packets of class `c`, 1 to 7, in the entry overflow table of a port: at most 32 (log 35). -/
def eotDepth (x p c n : Nat) : Nat := unitDraw x (0x100 * p + 21) c n 32

/-- 49 R1213: the flits in the output buffer of a port: at most 128 (log 35), none where it is by-passed. -/
def outputDepth (x p n : Nat) : Nat := if bufferedPort p then unitDraw x (0x100 * p + 27) 0 n 128 else 0

/-- IPERF register `k`: register `k % 2` of port `k / 2`. -/
def RBox.iperf (r : RBox) (k : Nat) : BitVec 32 :=
  if k % 2 = 0 then r.iperf0.getD (k / 2) 0#32 else r.iperf1.getD (k / 2) 0#32

/-- 49 R1204: the sum of EOT sub-counter `k` in this clock, before its carry is taken: EOTMSGSEL 0 adds nothing. -/
def eotSum (x n : Nat) (r : RBox) (k : Nat) : Nat :=
  let msg := (r.iperf k).toNat / 2 ^ 17 % 8
  (r.eot.getD k 0#5).toNat + (if msg = 0 then 0 else eotDepth x (k / 2) msg n)

/-- 49 R1213: the sum of the output buffer sub-counter of a port in this clock. -/
def outbufSum (x n : Nat) (r : RBox) (p : Nat) : Nat := (r.outbuf.getD p 0#7).toNat + outputDepth x p n

/-- 13 R315: the OR of the events IPERF register `k` selects. -/
def rixEvent (x n : Nat) (box : RBox) (k : Nat) : Bool :=
  let p := k / 2
  let r := box.iperf k
  let w := r.toNat
  let msg := w / 2 ^ 17 % 8
  let ev (code : Nat) : Bool := portEvent x p code 0 n
  (r.getLsbD 31 && ev 31) || (r.getLsbD 30 && ev 30)
    || (r.getLsbD 29 && (ev 31 && ev 29)) || (r.getLsbD 28 && (ev 30 && ev 28))
    || (r.getLsbD 27 && decide (128 ≤ outbufSum x n box p)) || (r.getLsbD 26 && (bufferedPort p && ev 26))
    || (r.getLsbD 25 && decide (outputDepth x p n ≠ 0))
    || (r.getLsbD 24 && ev 24) || (r.getLsbD 23 && ev 23) || (r.getLsbD 22 && ev 22)
    || (r.getLsbD 21 && decide (32 ≤ eotSum x n box k))
    || (r.getLsbD 20 && (decide (msg ≠ 0) && portEvent x p 20 msg n))
    || (r.getLsbD 16 && (List.range 7).any fun c => decide (eotDepth x p (c + 1) n ≠ 0))
    || (match allocated x n box p with
      | some c => (w / 2 ^ 9 % 128).testBit c
      | none => false)
    || (r.getLsbD 8 && ev 8)
    || newPacket x n box p (w / 64 % 4) (w % 64)

/-- Whether a signal of a class occurs on the virtual network that the sub-class bit selects, or, where that bit does not qualify
the event (93 U36), on any. -/
def onNetwork (sub : Bool) (event : Nat → Bool) : Bool :=
  if vnQualifies then event sub.toNat else event 0 || event 1

/-- Half `k` of the arbiter registers: half `k % 2` of that of port `k / 2` (13 R316). -/
def RBox.arbHalf (r : RBox) (k : Nat) : Nat := (r.arb.getD (k / 2) 0#32).toNat / 2 ^ (16 * (k % 2)) % 256

/-- The packets of a class in the entry table of a port: at most 32 (log 35), those on network VN0 and those on the other. -/
def etDepth (x p cls n : Nat) (other : Bool) : Nat :=
  let d := unitDraw x (0x100 * p + 0x4C) cls n 32
  let vn0 := unitDraw x (0x100 * p + 0x4C) (cls + 8) n d
  if other then d - vn0 else vn0

/-- 49 R1230: the sum of the ET sub-counter of a half of an arbiter register in this clock: the class codes 6 and 7 add nothing; a
sub-class bit that does not qualify the event (93 U36) adds both networks. -/
def etSum (x n : Nat) (r : RBox) (k : Nat) : Nat :=
  let h := r.arbHalf k
  let cls := h / 16 % 8
  let depth := etDepth x (k / 2) cls n
  (r.et.getD k 0#5).toNat + (if 6 ≤ cls then 0 else if vnQualifies then depth (h.testBit 7) else depth false + depth true)

/-- 13 R316, 49 R1220 to R1231: the event half `k` of an arbiter register selects. A failed bid of a queue is a home order kill
(49 R1221); failed local and global bids are bids. -/
def qlxEvent (x n : Nat) (box : RBox) (k : Nat) : Bool :=
  let p := k / 2
  let h := box.arbHalf k
  let cls := h / 16 % 8
  let sub := h.testBit 7
  let bid (c v : Nat) : Bool := portEvent x p 0x40 (c + 8 * v) n
  let kill (v : Nat) : Bool := bid 0 v && portEvent x p 0x42 v n
  let ev (code : Nat) : Bool := portEvent x p code 0 n
  match h % 16 with
  | 0x0 => decide (cls < 6) && onNetwork sub (bid cls)
  | 0x1 => decide (cls = 0) && onNetwork sub kill
  | 0x2 => kill 0 || kill 1
  | 0x4 | 0x6 | 0x8 | 0xA => ev (0x40 + h % 16)
  | 0x5 => ev 0x44 && ev 0x45
  | 0x9 => ev 0x48 && ev 0x49
  | 0xB => portEvent x p 0x4B (h / 16) n
  | 0xC => decide (32 ≤ etSum x n box k)
  | _ => false

/-! ## R-Box: packet matching (13 R320 to R325) -/

/-- The 72 bits of the match value of a set. -/
def MatchSet.value (m : MatchSet) : BitVec 72 := ((m.cfg >>> 8).setWidth 8 : BitVec 8) ++ m.matchMsb ++ m.matchLsb
/-- The 72 bits of the mask of a set; a 1 compares the bit. -/
def MatchSet.mask (m : MatchSet) : BitVec 72 := (m.cfg.setWidth 8 : BitVec 8) ++ m.maskMsb ++ m.maskLsb

/-- 13 R325: whether flit `k` of a packet with a header matches a set. -/
def flitMatches (m : MatchSet) (header : BitVec 72) (k : Nat) : Bool :=
  m.cfg.getLsbD 21 && decide ((header ^^^ m.value) &&& m.mask = 0#72)
    && (m.cfg.getLsbD 20 || decide (k = m.cfg.toNat / 2 ^ 16 % 16))

/-- 13 R302, 49 R1240: how many flits a message of a class and opcode may have, 0 for an unassigned one. -/
def messageFlits (cls opc : Nat) : Nat :=
  if opc ∉ packetOpcodes cls then 0
  else match cls with
    | 0 | 1 | 2 | 3 => 1
    | 4 => if opc = 0 then 1 else if opc < 8 then 2 else 3
    | _ => if opc < 8 then 9 else 11

/-- 49 R1240: whether a message may leave the R-Box at a port: 2, 3, 7 and 8 lead to cores, 0 and 10 to B-Boxes (13 R300). -/
def leavesAt (p cls opc : Nat) : Bool :=
  if p = 2 ∨ p = 3 ∨ p = 7 ∨ p = 8 then toCore cls
  else if p = 0 ∨ p = 10 then toHome cls opc
  else true

/-- 13 R322: whether the response data state of a header is one of its five codes, where the message has one. -/
def dataStateOk (cls opc : Nat) (header : BitVec 72) : Bool :=
  decide (cls ≠ 14 ∨ 2 < opc) || decide (header.toNat / 2 ^ 48 % 16 ∈ [0, 1, 2, 4, 8])

/-- The class and the opcode of a header (13 R323). -/
def headerClass (h : BitVec 72) : Nat := h.toNat / 2 ^ 9 % 16
def headerOpcode (h : BitVec 72) : Nat := h.toNat / 2 ^ 5 % 16

/-- How many flits the message with a header has (49 R1240). -/
def headerFlits (h : BitVec 72) : Nat := messageFlits (headerClass h) (headerOpcode h)

/-- Whether a message with a header may be sent at a port. -/
def mayStart (p : Nat) (h : BitVec 72) : Bool :=
  decide (headerFlits h ≠ 0) && leavesAt p (headerClass h) (headerOpcode h) && dataStateOk (headerClass h) (headerOpcode h) h

/-- The message a port is sending. -/
def RBox.transit (r : RBox) (p : Nat) : Transit := r.flight.getD p ⟨0#72, 0#4⟩

/-- 49 R1240: the flit of a message that leaves port `p` in this clock, by the header of the message and the number of the flit: the
next one of the message under way, or the first one of a new message. -/
def flitSent (x n : Nat) (r : RBox) (p : Nat) : Option (BitVec 72 × Nat) :=
  let t := r.transit p
  let h := BitVec.ofNat 72 (uncoreEvent x (0x100 * p + 0x60) 0 n)
  if !portEvent x p 31 0 n then none
  else if t.sent ≠ 0#4 then some (t.header, t.sent.toNat + 1)
  else if mayStart p h then some (h, 1) else none

/-- The message a port is sending after this clock. -/
def transitAfter (x n : Nat) (r : RBox) (p : Nat) : Transit :=
  match flitSent x n r p with
  | some (h, k) => if headerFlits h ≤ k then ⟨0#72, 0#4⟩ else ⟨h, BitVec.ofNat 4 k⟩
  | none => r.transit p

/-- 13 R325: whether the flit that leaves port `p` in this clock matches a set. -/
def matchEvent (x n : Nat) (r : RBox) (p : Nat) (m : MatchSet) : Bool :=
  match flitSent x n r p with
  | some (h, k) => flitMatches m h k
  | none => false

/-! ## R-Box: counters (13 R308 to R310) -/

/-- 13 R309: the event signal of a counter. -/
def rEvent (x n : Nat) (r : RBox) (i : Nat) : Bool :=
  let c := (r.ctl.getD i 0#9).toNat
  let pt := c / 8 % 8
  let p := portOfSlot (decide (8 ≤ i)) pt
  if 6 ≤ pt then false
  else match c % 8 with
    | 0 => rixEvent x n r (2 * p)
    | 1 => rixEvent x n r (2 * p + 1)
    | 2 => qlxEvent x n r (2 * p)
    | 3 => qlxEvent x n r (2 * p + 1)
    | 4 => matchEvent x n r p (r.m (2 * p))
    | 5 => matchEvent x n r p (r.m (2 * p + 1))
    | _ => false

/-- 13 R308, R310: counter `i` of the R-Box in one clock, after the counters below it; the second part is the overflow freeze,
which stops the counters above it. -/
def rCount (x n : Nat) (acc : RBox × Bool) (i : Nat) : RBox × Bool :=
  let r := acc.1
  let ctl := r.ctl.getD i 0#9
  if ctl.getLsbD 6 && !r.frozen && rEvent x n r i then
    let c := r.cnt.getD i 0#48
    let r' := { r with cnt := r.cnt.setIfInBounds i (c + 1#48) }
    if c = BitVec.allOnes 48 then
      let freeze := ctl.getLsbD 7 && !ctl.getLsbD 8
      ({ r' with ctl := r'.ctl.setIfInBounds i (ctl ||| (1#9 <<< 8)), frozen := freeze }, acc.2 || freeze)
    else (r', acc.2)
  else acc

/-- 49 R1204, R1212, R1213, R1230, R1240: the hidden sub-counters, the packets waiting and the messages under way after a clock. -/
def rDepths (x n : Nat) (r : RBox) : RBox :=
  { r with
    eot := .ofFn fun k => BitVec.ofNat 5 (eotSum x n r k.val)
    et := .ofFn fun k => BitVec.ofNat 5 (etSum x n r k.val)
    outbuf := .ofFn fun p => BitVec.ofNat 7 (outbufSum x n r p.val)
    waiting := .ofFn fun i => BitVec.ofNat 7 (waitingAfter x n r (i.val / 7) (i.val % 7))
    flight := .ofFn fun p => transitAfter x n r p.val }

/-- 13 R308: one clock of the R-Box. -/
def rTick (x n : Nat) (r : RBox) : RBox × Bool :=
  let t := (List.range 16).foldl (rCount x n) (r, false)
  (rDepths x n t.1, t.2)

/-! ## Z-Box: events (49 R1250 to R1292) -/

/-- The command a B-Box gives its Z-Box in this clock, `none` if it gives none (49 R1253, R1258). -/
def zCommand (x n : Nat) : Option Nat :=
  match unitDraw x 0x1A 0 n 12 with
  | 0 => none
  | 9 => some 0x8
  | 10 => some 0xC
  | 11 => some 0xA
  | 12 => some 0xF
  | k => some (k - 1)

/-- 49 R1258: the event one of the four selectors of the FVC register names. -/
def fvcEvent (x n : Nat) (fvc : BitVec 32) (slot : Nat) : Bool :=
  match fvc.toNat / 2 ^ (12 + 3 * slot) % 8 with
  | 4 => false
  | 5 => decide (zCommand x n = some (fvc.toNat / 2 ^ 5 % 16))
  | 6 =>
    let resp := fvc.toNat / 2 ^ 9 % 8
    decide (resp ≠ 6) && decide (unitDraw x 0x206 0 n 8 = resp + 1)
  | k => unitEvent x 0x200 k n

/-- 13 R354: the codes of the DRAM commands. -/
def dramCommands : List Nat := [0x00, 0x01, 0x02, 0x04, 0x08, 0x09, 0x0c, 0x10, 0x11, 0x14, 0x16, 0x17, 0x18, 0x1c]

/-- The DRAM command of a clock. -/
def dramCommand (x n : Nat) : Option Nat := dramCommands[unitDraw x 0x0A 0 n 14]?

/-- 49 R1291, R1292: a trip point crossing under a condition: of one DIMM, or of any. -/
def thermalEvent (x n code cond : Nat) (thr : BitVec 32) : Bool :=
  let crossing (dimm : Nat) : Bool := unitEvent x code (8 * cond + dimm) n
  if thr.getLsbD 3 then (List.range 8).any crossing else crossing (thr.toNat / 16 % 8)

/-- 49 R1278: whether the page table is in open page mode in this clock. -/
def zOpenPage (x n : Nat) : Bool := unitEvent x 0x11 0 n

/-- What a translated command finds (49 R1273, R1274, R1276). -/
inductive PageFound where
  | hit | miss | collision
deriving DecidableEq, Repr

/-- 49 R1276: the command translated in this clock, if there is one: a hit, not in closed page mode (49 R1274), a miss or a
collision. -/
def translated (x n : Nat) : Option PageFound :=
  match unitDraw x 0x12 0 n 3 with
  | 1 => some .miss
  | 2 => some .collision
  | 3 => if zOpenPage x n then some .hit else none
  | _ => none

/-- 49 R1262, R1263, R1266: the read commands, the write commands and all commands pending in a Z-Box: at most 32. -/
def zPending (x n : Nat) : Nat × Nat × Nat :=
  let reads := unitDraw x 0x38 0 n 32
  let writes := unitDraw x 0x3C 0 n (32 - reads)
  (reads, writes, reads + writes + unitDraw x 0x3B 0 n (32 - (reads + writes)))

/-- 13 R351: the scheduling mode of the issue unit in this clock: 0 static tradeoff, 1 and 2 static priority of reads and of
writes, 3 adaptive. -/
def zMode (x n : Nat) : Nat := unitDraw x 0x24 0 n 3

/-- 49 R1250, R1251: the increment of a Z-Box event in this clock. For the transitions of the page policy 13 R353 and 49 R1275 take
the polarity of the register table, 0 for open-to-closed, while the words of 90 C74 name the event entry, which has the opposite: the
model follows the two rules (log 35, DESIGN CHOICE). -/
def zEvent (x n : Nat) (z : ZBox) (code : Nat) : Nat :=
  let ev (c : Nat) : Bool := unitEvent x c 0 n
  let mode := zMode x n
  let (reads, writes, pending) := zPending x n
  match code with
  | 0x01 | 0x02 | 0x03 | 0x06 | 0x07 | 0x0C | 0x15 | 0x1C | 0x1D | 0x21 | 0x22 | 0x23 => (ev code).toNat
  | 0x04 => (thermalEvent x n code (z.thr.toNat / 128 % 4) z.thr).toNat
  | 0x05 => (thermalEvent x n code (z.thr.toNat / 512 % 4) z.thr).toNat
  | 0x08 => (decide (mode ≠ z.schedMode.toNat)).toNat
  | 0x09 =>
    let f := z.iss.toNat % 16
    (decide (f ≤ 3 ∨ f = 8 ∨ f = 0xC) && unitEvent x code f n).toNat
  | 0x0A => (decide (dramCommand x n = some (z.pld.toNat / 256 % 32))
      && (!z.pld.getLsbD 0 || decide (mode = z.iss.toNat / 128 % 8)) && (!z.pld.getLsbD 13 || unitEvent x code 1 n)).toNat
  | 0x0B => (ev code && (!z.pld.getLsbD 7 || decide (unitDraw x code 1 n 63 = z.pld.toNat / 2 % 64))).toNat
  | 0x0D => (fvcEvent x n z.fvc 0).toNat
  | 0x0E => (fvcEvent x n z.fvc 1).toNat
  | 0x0F => (fvcEvent x n z.fvc 2).toNat
  | 0x10 => (fvcEvent x n z.fvc 3).toNat
  | 0x11 => (zOpenPage x n == z.pgt.getLsbD 7).toNat
  | 0x12 =>
    match z.pgt.toNat / 256 % 4 with
    | 0 => (translated x n).isSome.toNat
    | 3 => 0
    | c => (unitEvent x code c n).toNat
  | 0x13 => (translated x n == some .miss).toNat
  | 0x14 => (translated x n == some .hit).toNat
  | 0x16 => (z.openPage != zOpenPage x n && zOpenPage x n == z.pgt.getLsbD 0).toNat
  | 0x18 => (translated x n == some .collision).toNat
  | 0x19 => (if z.pgt.getLsbD 1 then unitEvent x code (z.pgt.toNat / 4 % 16) n
      else (List.range 16).any fun rank => unitEvent x code rank n).toNat
  | 0x1A => (zCommand x n).isSome.toNat
  | 0x1B => 1
  | 0x20 => (decide (reads + writes = 0) == z.dsp.getLsbD 10).toNat
  | 0x24 => (decide (mode = z.iss.toNat / 16 % 8)).toNat
  | 0x38 => reads
  | 0x3C => writes
  | 0x39 => unitDraw x code 0 n 32
  | 0x3B => pending
  | 0x3A => unitDraw x code 0 n 2
  | _ => 0

/-! ## Z-Box: counters (13 R344, R345) -/

/-- 13 R344, R345: counter `i` of a Z-Box in one clock, after the counters below it; one that stops holds all ones or the wrapped
sum (93 U28). The second part is the overflow freeze, which stops the counters above it. -/
def zCount (x n : Nat) (acc : ZBox × Bool) (i : Nat) : ZBox × Bool :=
  let z := acc.1
  let ctl := z.ctl.getD i 0#10
  if ctl.getLsbD 0 && !ctl.getLsbD 1 && !z.frozen && !z.stopped.getLsbD i then
    let sum := (z.cnt.getD i 0#40).toNat + zEvent x n z (ctl.toNat / 16)
    let wrapped := { z with cnt := z.cnt.setIfInBounds i (BitVec.ofNat 40 sum) }
    if 2 ^ 40 ≤ sum then
      let freeze := ctl.getLsbD 3 && !z.ov.getLsbD i
      let held := if ctl.getLsbD 2 then wrapped
        else { (if unitEvent x 0x300 i n then { z with cnt := z.cnt.setIfInBounds i (BitVec.allOnes 40) } else wrapped)
          with stopped := z.stopped ||| (1#5 <<< i) }
      ({ held with ov := z.ov ||| (1#5 <<< i), frozen := freeze }, acc.2 || freeze)
    else (wrapped, acc.2)
  else acc

/-- 13 R344: one clock of a Z-Box; the page policy and the scheduling mode become those of this clock. -/
def zTick (x n : Nat) (z : ZBox) : ZBox × Bool :=
  let t := (List.range 5).foldl (zCount x n) (z, false)
  ({ t.1 with openPage := zOpenPage x n, schedMode := BitVec.ofNat 2 (zMode x n) }, t.2)

/-! ## The D-Box and the whole uncore -/

/-- 48 R1101: the overflow freezes of the boxes reach the D-Box. -/
def dboxCollect (u : Uncore) (b0 b1 r z0 z1 : Bool) : Uncore :=
  let any := b0 || b1 || r || z0 || z1
  let bits : BitVec 14 := BitVec.ofNat 14
    (b0.toNat * 2 ^ 8 + z0.toNat * 2 ^ 9 + r.toNat * 2 ^ 10 + b1.toNat * 2 ^ 11 + z1.toNat * 2 ^ 12 + r.toNat * 2 ^ 13)
  let u := if u.dbx.getLsbD 1 then { u with dbx := u.dbx ||| bits } else u
  if any && u.dbx.getLsbD 0 then u.setFrozen true else u

/-- One clock of the uncore counters of a socket; the interrupt request of 92 D44 shows what this clock raised (48 R1103). -/
def uncoreTick (socket n : Nat) (u : Uncore) : Uncore :=
  let x := 16 * socket
  let b0 := bTick x n (u.b 0)
  let b1 := bTick (x + 1) n (u.b 1)
  let r := rTick (x + 2) n u.rbox
  let z0 := zTick (x + 3) n (u.z 0)
  let z1 := zTick (x + 4) n (u.z 1)
  let u' := ((((u.setB 0 b0.1).setB 1 b1.1).setR r.1).setZ 0 z0.1).setZ 1 z1.1
  dboxCollect { u' with pmiRequest := b0.2 || b1.2 || (r.2 && r.1.pmiEn) || z0.2 || z1.2 } b0.2 b1.2 r.2 z0.2 z1.2

/-- One clock of the uncores of the other sockets, in the order of their numbers. -/
def remoteTick (own n : Nat) (us : List Uncore) : List Uncore :=
  us.mapIdx fun i u => uncoreTick (if i < own then i else i + 1) n u

end Sys2Proof.Machine
end

