-- ==== Sys2Proof/Machine/Cycle.lean ====
section
/-!
DEFINITION. What happens around an instruction: its fetch (20 R440, 30 R453), the decode faults (30 R458), the external
interrupt before it (60 R1307, R1320), and after it the time base, the monitors, the uncore and the thread switch
(10 R67, R79; 60 R1340 to R1344, log 23).
-/

noncomputable section

namespace Sys2Proof.Machine

open Sys2Proof.Config

/-! ## The instruction at the instruction pointer -/

/-- The address of the bundle the thread is in. -/
def LP.fetchIp (lp : LP) : Word := alignDown lp.ip 4

/-- 20 R440, 30 R453: the bundle at the instruction pointer, little endian. -/
def fetch (s : State) : Ans Bundle := do
  let (pa, _) ← orRaise s s.lp.fetchIp .fetch (accessBits .fetch) (translateAddr s s.lp.fetchIp .fetch)
  if inAperture pa then .error (.refuse (.csrAccess pa))
  else if inRam s.params pa 16 then .ok (BitVec.ofNat 128 (readLE s.mem pa 16))
  else .error (.fault (.noDevice pa))

/-- The state that has fetched a bundle. -/
def State.withBundle (s : State) (b : Bundle) : State := s.setLp { s.lp with bundle := b }

/-- The state after a fetch that failed: `CR.IIB` takes an undefined value (log 24). -/
def noBundle (s : State) : State :=
  { s.withBundle (freeWord s.free ++ freeWord (s.free + 1)) with free := s.free + 2 }

/-- 30 R451: slot 2 of a long instruction is taken as its slot 1. -/
def atSlot (s : State) (b : Bundle) : State :=
  match bundleUnit b s.lp.ri.toNat with
  | .ok .x => s.setLp (s.lp.setRi 1#2)
  | _ => s

/-- The state at the slot of the bundle at the instruction pointer, where it can be fetched. -/
def atFetchedSlot (s : State) : State :=
  match fetch s with
  | .ok b => atSlot s b
  | .error _ => s

/-- An external interrupt taken; the slot it saves is never 2 for a long instruction (60 R1306). -/
def interrupt (s : State) : State := deliver externalInterrupt (atFetchedSlot s).lp.ri (atFetchedSlot s)

/-- 60 R1307: the instruction of a fetched bundle: the instruction debug fault, then the decode faults (30 R458), then
the instruction itself. -/
def runBundle (s : State) (b : Bundle) : Result :=
  let t := atSlot (s.withBundle b) b
  if instrBreak t then
    .next (deliver (memExc t t.lp.ip .fetch (accessBits .fetch) (.debug (pageEd t t.lp.fetchIp .fetch))) t.lp.ri t)
  else
    match decodeBundle b t.lp.ri.toNat with
    | .ok i => exec i t
    | .error .notGiven => .refused (.encodingNotGiven (bundleSlot b t.lp.ri.toNat))
    | .error _ => .next (deliver illegalOperation t.lp.ri t)

/-- The next instruction of the foreground thread. -/
def runNext (s : State) : Result :=
  match fetch s with
  | .ok b => runBundle s b
  | .error (.exc e) => .next (deliver e s.lp.ri (noBundle s))
  | .error (.fault f) => .fault f
  | .error (.refuse r) => .refused r

/-! ## External interrupts (60 R1307, R1320, log 27) -/

/-- Whether a vector offset is that of a trap, which an instruction takes after it completed (60 R1302). -/
def isTrap (v : Nat) : Bool := decide (0x5D00 ≤ v ∧ v ≤ 0x6000)

/-- Whether an instruction ended in a fault, which has priority over an external interrupt (60 R1307). -/
def faulted : Result → Bool
  | .next t => match t.lp.ev.vector with
    | some v => !isTrap v
    | none => false
  | .refused (.encodingNotGiven _) => true
  | _ => false

/-- 60 R1344: an unmasked external interrupt ends the low-power halt of a thread, be it in the foreground or in the background. -/
def LP.wake (lp : LP) : LP :=
  if lp.thr.halted && (lp.candidate lp.pending).isSome then { lp with thr := { lp.thr with halted := false } } else lp

/-- A thread that executes nothing; one that wakes takes the interrupt if it is enabled. -/
def idle (s : State) : State :=
  let t := s.setLp s.lp.wake
  if s.lp.thr.halted && !t.lp.thr.halted && s.lp.interrupted then interrupt t else t

/-- Whether a thread executes instructions. -/
def LP.running (lp : LP) : Bool := lp.thr.started && !lp.thr.halted

/-- What the foreground thread does in a step: its next instruction, or the interrupt that comes before it. -/
def runThread (s : State) : Result :=
  if !s.lp.running then .next (idle s)
  else if s.lp.interrupted && !faulted (runNext s) then .next (interrupt s)
  else runNext s

/-! ## After the instruction -/

/-- The slot whose bits are the instruction at slot `k` (30 R451: slot 2 for a long one), and its unit. -/
def instrSlot (b : Bundle) (k : Nat) : Nat × Option ExecUnit :=
  match bundleUnit b k with
  | .ok .x => (2, some .x)
  | .ok u => (k, some u)
  | .error _ => (k, none)

/-- 44 R723: the instruction type that the opcode matchers see. -/
def itypeOf : Option ExecUnit → BitVec 2
  | some .m => 0#2
  | some .i => 1#2
  | some .f => 2#2
  | some .b => 3#2
  | _ => longItype

/-- Whether a bundle has several branch slots. -/
def isMultiway (b : Bundle) : Bool := decide (2 ≤ ((List.range 3).filter fun k => bundleUnit b k matches .ok .b).length)

/-- Whether the step from `lp` to `lp'` retired an instruction. -/
def retiredIn (lp lp' : LP) : Bool :=
  lp.running && (match lp'.ev.vector with
    | some v => isTrap v
    | none => true)

/-- The cause of a thread switch that the source does not let the model compute (60 R1341, log 31). -/
def openCause (n : Nat) : Nat := [1, 2, 4, 5, 6].getD ((freeWord n).toNat % 5) 1

/-- 60 R1340 to R1344: whether the step from `s` to `t` ends in a thread switch, with its cause as 47 R1072 numbers it,
and whether an opportunity was missed. -/
def switchOf (n : Nat) (s t : State) : Option Nat × Bool :=
  if !t.params.featMt || !t.bg.thr.started then (none, false)
  else if t.bg.thr.armed && decide (t.bg.alat.length < s.bg.alat.length) then (some 6, false)
  else if t.lp.ev.pause then (if switchOnHint n then (some 3, false) else (none, true))
  else if t.lp.thr.halted && !t.bg.thr.halted then (some 4, false)
  else if switchNow n then (some (openCause (n + 96)), false)
  else (none, freeBool (n + 97))

/-- By how many ticks the interval time counter advances in a step: `ITC_RATIO` times the system interface clocks the step
takes, of which there are 1 to 2^32 (10 R79, log 30). -/
def ticksOf (p : Params) (n : Nat) : Nat := p.itcRatio * (1 + extraClocks n % 2 ^ 32)

/-- By how many ticks the resource utilization counters together are ahead of the time base after a step, when they were
`ahead` before it: at most 2, unless they were further ahead (10 R67, log 30). -/
def rucNext (p : Params) (n ahead : Nat) : Nat := max (ahead - ticksOf p n) (rucSkew n % 3)

/-- By how much the resource utilization counter of the foreground thread advances (10 R67, log 30). -/
def rucOf (p : Params) (n ahead : Nat) : Nat := ticksOf p n + rucNext p n ahead - ahead

/-- The bundle at the instruction pointer as the monitors see it: any where it cannot be fetched. -/
def observedBundle (n : Nat) (s : State) : Bundle :=
  match fetch s with
  | .ok b => b
  | .error _ => freeWord (n + 150) ++ freeWord (n + 151)

/-- The instruction at the instruction pointer as the filters see it, with its data address. -/
def sourceAt (n : Nat) (s : State) (data : Option Word) : Source :=
  let b := observedBundle n s
  let k := instrSlot b s.lp.ri.toNat
  { ip := s.lp.ip, cpl := s.lp.cpl, ia32 := s.lp.psrBit 34, itype := itypeOf k.2, enco := bundleSlot b k.1, data := data, n := n }

/-- The data address of the instruction of a step, also of one whose access met a fault. -/
def dataAddress (ev : StepEvent) : Option Word :=
  match ev.data, ev.hitAddr, ev.dataFault with
  | some d, _, _ => some d.addr
  | none, some a, _ => some a
  | none, none, some (a, false) => some a
  | _, _, _ => none

/-- The state at the target of an `rfi` whose step ended in `t`, under the processor status it restored: that of `t`, or the one from
which a trap was delivered. -/
def rfiTarget (t : State) (target : Word) : State :=
  t.setLp { t.lp with ip := target, psr := t.lp.ev.statusAt.getD t.lp.psr }

/-- What the monitors see of the step from `s` to `t`; `clockFacts` gives each of its clocks its part. The instruction is the one
at the instruction pointer of `s`, also where an interrupt comes before it. A thread that the step wakes is not halted in it
(47 R1007). -/
def factsOf (n : Nat) (s t : State) : StepFacts :=
  let b := observedBundle n s
  let k := instrSlot b s.lp.ri.toNat
  let w := switchOf n s t
  let instr := sourceAt n s (dataAddress t.lp.ev)
  let f : StepFacts :=
    { before := { s.lp with thr := { s.lp.thr with halted := s.lp.thr.halted && t.lp.thr.halted } }, after := t.lp, instr := instr, long := decide (k.2 = some .x), multiway := isMultiway b
      fetchFault := t.lp.ev.fetchFault, retired := retiredIn s.lp t.lp, flush := false
      rse := t.lp.ev.rse.reverse, rseSource := instr, levels := (s.lp.cpl, t.lp.cpl), tick := false, switch := w.1
      missed := w.2, featMt := t.params.featMt, mt := t.params.featMt && t.bg.thr.started
      thread1 := s.thread1, ivaOffShift := s.params.ivaOffShift, n := n }
  match t.lp.ev.flow with
  | some e => if e.kind = .rfi then { f with rseSource := sourceAt (n + 140) (rfiTarget t e.target) none } else f
  | none => f

/-- 70 R1383: a logical processor that has not started begins to run when the environment says so, at the address it gives; one
with no bit below 4. A model without multithreading has none (log 31). -/
def startThread (p : Params) (n : Nat) (lp : LP) : LP :=
  if lp.thr.started || !p.featMt then lp
  else match environmentStart n with
    | none => lp
    | some a => { lp with ip := alignDown a 4, thr := { lp.thr with started := true } }

/-- The threads and clocks after the step from `s` to `t`: the monitors, the timer vectors, the resource utilization
counter, the urgency, the arming of the ALAT switch event, and the waking of the background thread. -/
def elapse (n : Nat) (s t : State) : State :=
  let ticks := ticksOf s.params n
  let p := pmuTick (factsOf n s t) ticks t.bg
  let lp := timerTick (decide (s.itc ≠ t.itc ∨ s.lp.cr.itm ≠ t.lp.cr.itm)) t.itc ticks t.lp
  let bg := startThread t.params n (timerTick (decide (s.itc ≠ t.itc)) t.itc ticks t.bg)
  { t with
    lp := { lp with
      pmu := p.1, ar := { lp.ar with ruc := lp.ar.ruc + BitVec.ofNat 64 (rucOf s.params n t.rucAhead) }
      thr := { lp.thr with armed := lp.thr.armed || lp.ev.pause, urgency := urgencyNext n } }
    bg := ({ bg with pmu := p.2, thr := { bg.thr with urgency := urgencyNext (n + 1) } } : LP).wake
    itc := t.itc + BitVec.ofNat 64 ticks
    uncore := uncoreTick s.params.socketId n t.uncore, remote := remoteTick s.params.socketId n t.remote
    rucAhead := rucNext s.params n t.rucAhead, free := n + 512 }

/-- 60 R1343: the background thread comes to the foreground, no longer armed. -/
def swapThreads (s : State) : State :=
  { s with lp := { s.bg with thr := { s.bg.thr with armed := false } }, bg := s.lp, thread1 := !s.thread1 }

/-- The end of the step that began in `s` and whose instruction left `t`. -/
def endStep (s t : State) : State :=
  let u := elapse t.free s t
  if (switchOf t.free s t).1.isSome then swapThreads u else u

/-- The state with the record of the last step cleared. -/
def beginStep (s : State) : State := s.setLp { s.lp with ev := StepEvent.none }

/-- A whole step. -/
def cycle (s : State) : Result :=
  let s0 := beginStep s
  match runThread s0 with
  | .next t => .next (endStep s0 t)
  | .fault f => .fault f
  | .refused r => .refused r

/-! ## Placing an instruction -/

/-- The state with a bundle stored where the next fetch reads it, and slot `k` the next. -/
def placeFetch (s : State) (b : Bundle) (k : Nat) : State :=
  match translateAddr s s.lp.fetchIp .fetch with
  | .ok (pa, _) => { s with mem := writeLE s.mem pa 16 b.toNat, lp := s.lp.setRi (BitVec.ofNat 2 k) }
  | .error _ => s

end Sys2Proof.Machine

end
end

