-- ==== Sys2Proof/Machine/Step.lean ====
section
/-!
DEFINITION. One step of the machine (30 R455: instructions run one at a time in slot order), and the placing of a table word
where the next step fetches (log 5, log 22).
-/

noncomputable section

namespace Sys2Proof.Machine

/-- One step: one instruction slot of the foreground thread, or the interrupt before it, and the clocks after it. -/
def step (s : State) : Host.Outcome State Fault Refusal := cycle s

/-- The state with the instruction of a table word where the next step fetches it. -/
def State.withFetchWord (s : State) (nbits w : Nat) : State :=
  placeFetch s (tableBundle nbits w).1 (tableBundle nbits w).2

end Sys2Proof.Machine

end
end

