-- ==== Sys2Proof/Safety.lean ====
section
/-!
DEFINITION. The terms the statements use: when an instruction ends without a trap, where it leaves the machine, when memory is
plainly accessible, and what a step keeps.
-/

namespace Sys2Proof.Machine

open Sys2Proof.Config

/-! ## Steps -/

/-- The step from a state gives a next state. -/
def Proceeds (s : State) : Prop := ∃ t, step s = .next t

/-- A property that every step keeps. -/
def KeptByStep (inv : State → Prop) : Prop := ∀ s t, inv s → step s = .next t → inv t

/-! ## The end of an instruction -/

/-- The state after an instruction that falls through, with its effects in `u`: the next slot, the one-shot bits of the
processor status cleared (10 R56, log 26). -/
def fallThrough (s u : State) : State := advance s u {}

/-- The same for an instruction of the X unit, which takes slots 1 and 2. -/
def fallThroughWide (s u : State) : State := advance s u { wide := true }

/-- The state after a taken branch. -/
def branchTo (s u : State) (target : Word) : State := advance s u { target := some target }

/-- The same for a long branch. -/
def branchToWide (s u : State) (target : Word) : State := advance s u { target := some target, wide := true }

/-- The next instruction, here or in the next bundle, has an implemented address, and single stepping is off (60 R1307). -/
def Untrapped (s : State) : Prop :=
  s.lp.psrBit 40 = false ∧ unimplementedIp s s.lp.ip = false ∧ unimplementedIp s (s.lp.ip + 16#64) = false

/-- A taken branch to a target ends in no trap: single stepping and branch traps are off and the target is implemented. -/
def Reachable (s : State) (target : Word) : Prop :=
  s.lp.psrBit 40 = false ∧ s.lp.psrBit 26 = false ∧ s.lp.psrBit 25 = false
    ∧ unimplementedIp s (alignDown target 4) = false

/-- The state after a fault of an instruction (60 R1306). -/
def faultTo (s : State) (e : Exc) : State := deliver e s.lp.ri s

/-! ## Memory -/

/-- `n` bytes at `va` are main memory that the core reads and writes without a fault: data translation and data
breakpoints off, cacheable, aligned, inside main memory and outside the register window of the uncore. -/
def PlainData (s : State) (va : Word) (n : Nat) : Prop :=
  s.lp.psrBit 17 = false ∧ s.lp.psrBit 24 = false ∧ va.toNat < 2 ^ 63 ∧ va.toNat < 2 ^ s.params.paBits
    ∧ va.toNat % n = 0 ∧ inAperture va.toNat = false ∧ inRam s.params va.toNat n = true

/-- The same for an access of the register stack engine (`PSR.rt` off). -/
def PlainRse (s : State) (va : Word) : Prop :=
  s.lp.psrBit 27 = false ∧ s.lp.psrBit 24 = false ∧ va.toNat < 2 ^ 63 ∧ va.toNat < 2 ^ s.params.paBits
    ∧ va.toNat % 8 = 0 ∧ inAperture va.toNat = false ∧ inRam s.params va.toNat 8 = true

/-! ## Operands -/

/-- A general register that may be read and whose NaT bit is 0. -/
def Usable (s : State) (r : BitVec 7) : Prop := s.lp.grReadable r = true ∧ (s.lp.gr? r).nat = false

/-- A floating-point register that may be written: neither `f0` nor `f1`, and not disabled. -/
def FrWritable (s : State) (f : BitVec 7) : Prop := 2 ≤ f.toNat ∧ s.lp.frEnabled f = true

/-- Every floating-point trap and fault is disabled in `AR.FPSR` bits 5:0. -/
def FpTrapsOff (s : State) : Prop := s.lp.ar.fpsr.setWidth 6 = BitVec.allOnes 6

/-! ## Invariants -/

/-- The parts of the processor status that no step makes illegal: reserved bits 0 (10 R63), a slot number below 3, and
`is` and `vm` 0 (92 D17, D23). -/
def statusLegal (psr : Word) : Bool :=
  decide (psr &&& psrReserved = 0#64) && decide (field psr 41 2 ≠ 3#64) && !psr.getLsbD 34 && !psr.getLsbD 46

/-- A thread whose processor status is legal, whose instruction pointer is the address of a bundle, and whose predicate 0
is 1. -/
def LP.legal (lp : LP) : Bool := statusLegal lp.psr && decide (lp.ip &&& 0xF#64 = 0#64) && lp.pr.getLsbD 0

/-- Both threads are legal. -/
def ThreadsLegal (s : State) : Prop := s.lp.legal = true ∧ s.bg.legal = true

/-- Main memory is in its canonical form. -/
def MemoryCanonical (s : State) : Prop := Memory.wf s.mem = true

end Sys2Proof.Machine
end

