-- ==== Sys2Proof/Forms.lean ====
section
/-!
DEFINITION. The shapes of the statements about instructions: what it is for an instruction to complete with a result of a
kind, for every state and operands that meet the conditions. Each shape says the whole next state, by an equation or by
naming every part that changes.
-/

namespace Sys2Proof.Machine

open Sys2Proof.Config

/-! ## Encodings (30 R450 to R452) -/

/-- A slot of a unit is an instruction, whatever stands in the L slot. -/
def Encodes (u : ExecUnit) (w : Slot) (i : Instr) : Prop := ∀ l, decodeSlot u w l = .ok i

/-- An A-type instruction is encoded identically in an M and in an I slot (40 R500). -/
def EncodesA (w : Slot) (i : Instr) : Prop := Encodes .m w i ∧ Encodes .i w i

/-! The slots of some formats, field by field from bit 40 down (40, 41, 43; 30 R452). -/

def slotA1 (x4 : BitVec 4) (x2b : BitVec 2) (o : OpA1) : Slot :=
  8#4 ++ 0#1 ++ 0#2 ++ 0#1 ++ x4 ++ x2b ++ o.r3 ++ o.r2 ++ o.r1 ++ o.qp
def slotA2 (x4 : BitVec 4) (o : OpA2) : Slot :=
  8#4 ++ 0#1 ++ 0#2 ++ 0#1 ++ x4 ++ o.ct2d ++ o.r3 ++ o.r2 ++ o.r1 ++ o.qp
def slotA3 (x4 : BitVec 4) (x2b : BitVec 2) (o : OpA3) : Slot :=
  8#4 ++ o.imm8.extractLsb' 7 1 ++ 0#2 ++ 0#1 ++ x4 ++ x2b ++ o.r3 ++ o.imm8.extractLsb' 0 7 ++ o.r1 ++ o.qp
def slotA4 (x2a : BitVec 2) (o : OpA4) : Slot :=
  8#4 ++ o.imm14.extractLsb' 13 1 ++ x2a ++ 0#1 ++ o.imm14.extractLsb' 7 6 ++ o.r3 ++ o.imm14.extractLsb' 0 7 ++ o.r1
    ++ o.qp
def slotA5 (o : OpA5) : Slot :=
  9#4 ++ o.imm22.extractLsb' 21 1 ++ o.imm22.extractLsb' 7 9 ++ o.imm22.extractLsb' 16 5 ++ o.r3
    ++ o.imm22.extractLsb' 0 7 ++ o.r1 ++ o.qp
def slotA6 (major : BitVec 4) (x2 : BitVec 2) (ta c : BitVec 1) (o : OpA6) : Slot :=
  major ++ 0#1 ++ x2 ++ ta ++ o.p2 ++ o.r3 ++ o.r2 ++ c ++ o.p1 ++ o.qp
def slotA7 (major : BitVec 4) (x2 : BitVec 2) (ta c : BitVec 1) (o : OpA7) : Slot :=
  major ++ 1#1 ++ x2 ++ ta ++ o.p2 ++ o.r3 ++ 0#7 ++ c ++ o.p1 ++ o.qp
def slotA8 (major : BitVec 4) (x2 : BitVec 2) (ta c : BitVec 1) (o : OpA8) : Slot :=
  major ++ o.imm8.extractLsb' 7 1 ++ x2 ++ ta ++ o.p2 ++ o.r3 ++ o.imm8.extractLsb' 0 7 ++ c ++ o.p1 ++ o.qp
def slotA9 (za zb : BitVec 1) (x4 : BitVec 4) (x2b : BitVec 2) (o : OpA1) : Slot :=
  8#4 ++ za ++ 1#2 ++ zb ++ x4 ++ x2b ++ o.r3 ++ o.r2 ++ o.r1 ++ o.qp
def slotA10 (x4 : BitVec 4) (o : OpA2) : Slot :=
  8#4 ++ 0#1 ++ 1#2 ++ 1#1 ++ x4 ++ o.ct2d ++ o.r3 ++ o.r2 ++ o.r1 ++ o.qp
/-- Formats I5 and I7 of the 64-bit shifts; the rules give bit 27 no place, nor bit 36 of formats I10 to I12. -/
def slotI5 (x2c x2b : BitVec 2) (b27 : BitVec 1) (o : OpA1) : Slot :=
  7#4 ++ 1#1 ++ 0#2 ++ 1#1 ++ 0#1 ++ x2c ++ x2b ++ b27 ++ o.r3 ++ o.r2 ++ o.r1 ++ o.qp
def slotI10 (b36 : BitVec 1) (o : OpI10) : Slot := 5#4 ++ b36 ++ 3#2 ++ 0#1 ++ o.count6d ++ o.r3 ++ o.r2 ++ o.r1 ++ o.qp
def slotI11 (b36 y : BitVec 1) (o : OpI11) : Slot :=
  5#4 ++ b36 ++ 1#2 ++ 0#1 ++ o.len6d ++ o.r3 ++ o.pos6b ++ y ++ o.r1 ++ o.qp
def slotI12 (b36 : BitVec 1) (o : OpI12) : Slot :=
  5#4 ++ b36 ++ 1#2 ++ 1#1 ++ o.len6d ++ 0#1 ++ o.cpos6c ++ o.r2 ++ o.r1 ++ o.qp
def slotI13 (o : OpI13) : Slot :=
  5#4 ++ o.imm8.extractLsb' 7 1 ++ 1#2 ++ 1#1 ++ o.len6d ++ 1#1 ++ o.cpos6c ++ o.imm8.extractLsb' 0 7 ++ o.r1 ++ o.qp
def slotI14 (o : OpI14) : Slot :=
  5#4 ++ o.imm1 ++ 3#2 ++ 1#1 ++ o.len6d ++ o.r3 ++ o.cpos6b ++ 0#1 ++ o.r1 ++ o.qp
def slotI15 (o : OpI15) : Slot := 4#4 ++ o.cpos6d ++ o.len4d ++ o.r3 ++ o.r2 ++ o.r1 ++ o.qp
def slotI16 (ta tb c : BitVec 1) (o : OpI16) : Slot :=
  5#4 ++ tb ++ 0#2 ++ ta ++ o.p2 ++ o.r3 ++ o.pos6b ++ 0#1 ++ c ++ o.p1 ++ o.qp
/-- Format I17; bits 19:14 are ignored. -/
def slotI17 (ta tb c : BitVec 1) (ignored : BitVec 6) (o : OpA7) : Slot :=
  5#4 ++ tb ++ 0#2 ++ ta ++ o.p2 ++ o.r3 ++ ignored ++ 1#1 ++ c ++ o.p1 ++ o.qp
/-- Format I29; the rule gives bits 36 and 19:13 no place. -/
def slotI29 (b36 : BitVec 1) (x6 : BitVec 6) (b19 : BitVec 7) (o : OpI29) : Slot :=
  0#4 ++ b36 ++ 0#3 ++ x6 ++ o.r3 ++ b19 ++ o.r1 ++ o.qp
/-- Format B8; the predicate field is ignored. -/
def slotB8 (x6 : BitVec 6) (qp : BitVec 6) : Slot := 0#4 ++ 0#4 ++ x6 ++ 0#21 ++ qp
def slotX2 (o : OpX2) : Slot :=
  6#4 ++ o.i ++ o.imm9d ++ o.imm5c ++ o.ic ++ 0#1 ++ o.imm7b ++ o.r1 ++ o.qp

/-- Formats B1 and B2; the rules give bits 11:9 no place, nor bits 11:9 of B3, B4 and B5, bit 36 of B4 and
B5, bits 26:16 of B4 and bits 31:16 of B5. -/
def slotB1 (btype x : BitVec 3) (o : OpB1) : Slot :=
  4#4 ++ o.target25.extractLsb' 20 1 ++ o.d ++ o.wh ++ o.target25.extractLsb' 0 20 ++ o.p ++ x ++ btype ++ o.qp
def slotB3 (x : BitVec 3) (o : OpB3) : Slot :=
  5#4 ++ o.target25.extractLsb' 20 1 ++ o.d ++ o.wh ++ o.target25.extractLsb' 0 20 ++ o.p ++ x ++ o.b1 ++ o.qp
def slotB4 (b36 : BitVec 1) (x6 : BitVec 6) (y : BitVec 11) (x btype : BitVec 3) (o : OpB4) : Slot :=
  0#4 ++ b36 ++ o.d ++ o.wh ++ x6 ++ y ++ o.b2 ++ o.p ++ x ++ btype ++ o.qp
def slotB5 (b36 : BitVec 1) (y : BitVec 16) (x : BitVec 3) (o : OpB5) : Slot :=
  1#4 ++ b36 ++ o.d ++ o.wh ++ y ++ o.b2 ++ o.p ++ x ++ o.b1 ++ o.qp
def slotX3 (x : BitVec 3) (o : OpX3) : Slot :=
  0xC#4 ++ o.i ++ o.d ++ o.wh ++ o.imm20b ++ o.p ++ x ++ 0#3 ++ o.qp
def slotX4 (x : BitVec 3) (o : OpX4) : Slot :=
  0xD#4 ++ o.i ++ o.d ++ o.wh ++ o.imm20b ++ o.p ++ x ++ o.b1 ++ o.qp

/-- The state after an instruction whose qualifying predicate is 0 (30 R456). -/
def skipped (s : State) (wide : Bool := false) : State :=
  advance s (s.setLp { s.lp with ev := { s.lp.ev with squashed := true } }) { wide := wide }

/-! ## General-register results (40, 41) -/

/-- `GR[r1] <- f GR[r2] GR[r3]`, NaT if a source is NaT; nothing else changes. A destination that is `r0` or outside the
frame is an Illegal Operation; with `PR[qp]` = 0 nothing happens. -/
def Result2 (i : Instr) (qp : BitVec 6) (r1 r2 r3 : BitVec 7) (f : Word → Word → Word) : Prop :=
  ∀ s : State,
    (s.lp.readPr qp = true → s.lp.grWritable r1 = true → s.lp.grReadable r2 = true → s.lp.grReadable r3 = true →
      Untrapped s → exec i s = .next (fallThrough s (s.setGr r1
        ⟨f (s.lp.gr? r2).val (s.lp.gr? r3).val, (s.lp.gr? r2).nat || (s.lp.gr? r3).nat⟩)))
    ∧ (s.lp.readPr qp = true → s.lp.grWritable r1 = false → exec i s = .next (faultTo s illegalOperation))
    ∧ (s.lp.readPr qp = false → Untrapped s → exec i s = .next (skipped s))

/-- `GR[r1] <- f GR[r3]`, NaT if the source is NaT; nothing else changes. -/
def Result1 (i : Instr) (qp : BitVec 6) (r1 r3 : BitVec 7) (f : Word → Word) : Prop :=
  ∀ s : State,
    (s.lp.readPr qp = true → s.lp.grWritable r1 = true → s.lp.grReadable r3 = true → Untrapped s →
      exec i s = .next (fallThrough s (s.setGr r1 ⟨f (s.lp.gr? r3).val, (s.lp.gr? r3).nat⟩)))
    ∧ (s.lp.readPr qp = true → s.lp.grWritable r1 = false → exec i s = .next (faultTo s illegalOperation))
    ∧ (s.lp.readPr qp = false → Untrapped s → exec i s = .next (skipped s))

/-- `GR[r1] <- v` of the state, never NaT; nothing else changes. -/
def Result0 (i : Instr) (qp : BitVec 6) (r1 : BitVec 7) (v : State → Word) : Prop :=
  ∀ s : State,
    (s.lp.readPr qp = true → s.lp.grWritable r1 = true → Untrapped s →
      exec i s = .next (fallThrough s (s.setGr r1 ⟨v s, false⟩)))
    ∧ (s.lp.readPr qp = true → s.lp.grWritable r1 = false → exec i s = .next (faultTo s illegalOperation))
    ∧ (s.lp.readPr qp = false → Untrapped s → exec i s = .next (skipped s))

/-! ## Other effects -/

/-- The instruction completes with an effect that is a function of the state. -/
def Effect (i : Instr) (qp : BitVec 6) (pre : State → Prop) (f : State → State) : Prop :=
  ∀ s : State,
    (s.lp.readPr qp = true → pre s → Untrapped s → exec i s = .next (fallThrough s (f s)))
    ∧ (s.lp.readPr qp = false → Untrapped s → exec i s = .next (skipped s))

/-- The same for an instruction of the X unit. -/
def EffectWide (i : Instr) (qp : BitVec 6) (pre : State → Prop) (f : State → State) : Prop :=
  ∀ s : State,
    (s.lp.readPr qp = true → pre s → Untrapped s → exec i s = .next (fallThroughWide s (f s)))
    ∧ (s.lp.readPr qp = false → Untrapped s → exec i s = .next (skipped s true))

/-- The same for an instruction that is not predicated. -/
def EffectAlways (i : Instr) (pre : State → Prop) (f : State → State) : Prop :=
  ∀ s : State, pre s → Untrapped s → exec i s = .next (fallThrough s (f s))

/-- The instruction takes an exception. -/
def Traps (i : Instr) (qp : BitVec 6) (pre : State → Prop) (e : State → Exc) : Prop :=
  ∀ s : State, s.lp.readPr qp = true → pre s → exec i s = .next (faultTo s (e s))

/-- With `PR[qp]` = 0 the instruction does nothing (30 R456). -/
def Skips (i : Instr) (qp : BitVec 6) : Prop :=
  ∀ s : State, s.lp.readPr qp = false → Untrapped s → exec i s = .next (skipped s)

/-- The instruction branches to `target` if a test fails, else it falls through; `note` is the state with the test
recorded. -/
def Checks (i : Instr) (qp : BitVec 6) (pre : State → Prop) (failed : State → Bool) (note : State → State)
    (target : State → Word) : Prop :=
  ∀ s : State, s.lp.readPr qp = true → pre s →
    (failed s = true → Reachable s (target s) →
      exec i s = .next (branchTo s ((note s).noteFlow .check true (target s)) (target s)))
    ∧ (failed s = false → Untrapped s → exec i s = .next (fallThrough s (note s)))

/-- The same where the test reads the ALAT, which may have lost an entry (log 32). -/
def ChecksAlat (i : Instr) (qp : BitVec 6) (failed : State → Bool) (note : State → State) (target : State → Word) : Prop :=
  ∀ s : State, s.lp.readPr qp = true → Reachable s (target s) → Untrapped s →
    exec i s = .next (if failed s then branchTo s ((note s).noteFlow .check true (target s)) (target s)
      else fallThrough s (note s))

/-- 42 R614: a probe with data translation on: the translation of the access at the level decides. A missing translation and an
unimplemented address are the faults of the access; denied rights and keys give 0, a dirty or accessed bit that is 0 and the
attribute of the page do not matter, and for a page that is not present the answer is `open_` (log 14). -/
def ProbesTranslated (i : Instr) (kind : AccessKind) (qp : BitVec 6) (r1 r3 : BitVec 7) (pre : State → Prop)
    (level : State → BitVec 2) (open_ : XlatContext → Word → BitVec 2 → Bool) : Prop :=
  ∀ s : State, s.lp.readPr qp = true → s.lp.grWritable r1 = true → pre s → Usable s r3 → s.lp.psrBit 17 = true →
    Untrapped s → ∀ (va : Word) (u : State) (answer : Bool → State), va = (s.lp.gr? r3).val → u = s.atLevel (level s) →
    (∀ b, answer b = fallThrough s (s.setGr r1 ⟨if b then 1#64 else 0#64, false⟩)) →
    exec i s = .next (match translateAddr u va kind with
      | .ok _ => answer true
      | .error .unimplemented => faultTo s (memExc s va kind (accessBits .nonAccess ||| accessBits kind) .unimplemented)
      | .error (.xlat f a b e) =>
        if f = .vhptTranslation ∨ f = .tlbMiss ∨ f = .altTlbMiss then
          faultTo s (memExc s va kind (accessBits .nonAccess ||| accessBits kind) (.xlat f a b e))
        else if f = .keyPermission ∨ f = .accessRights ∨ f = .keyMiss then answer false
        else if f = .dirtyBit ∨ f = .accessBit then answer true
        else answer (open_ (xlatContext u kind) va (level s))
      | .error _ => answer true)

/-! ## Compares (40 R520) -/

/-- A compare with relation `rel` and NaT input `nat` of the state. Equal predicate destinations are an Illegal Operation
when the compare runs, and always for `unc`; with `PR[qp]` = 0 `unc` clears both predicates and the others do nothing. -/
def Compares (i : Instr) (ct : CType) (qp p1 p2 : BitVec 6) (pre : State → Prop) (rel nat : State → Bool) : Prop :=
  ∀ s : State,
    (s.lp.readPr qp = true → p1 ≠ p2 → pre s → Untrapped s →
      exec i s = .next (fallThrough s (writeCompare ct s p1 p2 (rel s) (nat s))))
    ∧ (s.lp.readPr qp = true ∨ ct = .unc → p1 = p2 → exec i s = .next (faultTo s illegalOperation))
    ∧ (s.lp.readPr qp = false → ct ≠ .unc → Untrapped s → exec i s = .next (skipped s))
    ∧ (s.lp.readPr qp = false → ct = .unc → p1 ≠ p2 → Untrapped s →
      ∃ t, exec i s = .next t ∧ t.lp.pr = (s.setPr2 p1 p2 false false).lp.pr
        ∧ t = { skipped s with lp := { (skipped s).lp with pr := t.lp.pr } })

/-- 40 R521: a compare of two registers. -/
def ComparesReg (i : Instr) (ct : CType) (o : OpA6) (rel : Word → Word → Bool) : Prop :=
  Compares i ct o.qp o.p1 o.p2 (fun s => s.lp.grReadable o.r2 = true ∧ s.lp.grReadable o.r3 = true)
    (fun s => rel (s.lp.gr? o.r2).val (s.lp.gr? o.r3).val) (fun s => (s.lp.gr? o.r2).nat || (s.lp.gr? o.r3).nat)

/-- 40 R522: a compare of zero with a register. -/
def ComparesZero (i : Instr) (ct : CType) (o : OpA7) (rel : Word → Word → Bool) : Prop :=
  Compares i ct o.qp o.p1 o.p2 (fun s => s.lp.grReadable o.r3 = true)
    (fun s => rel 0#64 (s.lp.gr? o.r3).val) (fun s => (s.lp.gr? o.r3).nat)

/-- 40 R523: a compare of a sign-extended immediate with a register. -/
def ComparesImm (i : Instr) (ct : CType) (o : OpA8) (rel : Word → Word → Bool) : Prop :=
  Compares i ct o.qp o.p1 o.p2 (fun s => s.lp.grReadable o.r3 = true)
    (fun s => rel (o.imm8.signExtend 64) (s.lp.gr? o.r3).val) (fun s => (s.lp.gr? o.r3).nat)

/-- 41 R546: a test of a bit. -/
def TestsBit (i : Instr) (ct : CType) (o : OpI16) (value : Bool) : Prop :=
  Compares i ct o.qp o.p1 o.p2 (fun s => s.lp.grReadable o.r3 = true)
    (fun s => (s.lp.gr? o.r3).val.getLsbD o.pos6b.toNat == value) (fun s => (s.lp.gr? o.r3).nat)

/-- 41 R547: a test of a NaT bit. -/
def TestsNat (i : Instr) (ct : CType) (o : OpA7) (value : Bool) : Prop :=
  Compares i ct o.qp o.p1 o.p2 (fun s => s.lp.grReadable o.r3 = true)
    (fun s => (s.lp.gr? o.r3).nat == value) (fun _ => false)

/-- The low 32 bits of a word, sign-extended (`cmp4`). -/
def low32 (w : Word) : Word := (w.setWidth 32).signExtend 64
/-- The low 32 bits of a word, zero-extended. -/
def low32u (w : Word) : Word := (w.setWidth 32).setWidth 64

/-! ## What a memory instruction leaves -/

/-- Every general register outside some places is unchanged, in both banks and outside the frame too. -/
def OtherGrs (s t : State) (ps : List GrPlace) : Prop :=
  (∀ p, p ∉ ps → t.lp.grAt p = s.lp.grAt p) ∧ t.lp.gr.bof = s.lp.gr.bof ∧ t.lp.gr.ndirty = s.lp.gr.ndirty

/-- Every floating-point register but the listed ones is unchanged. -/
def OtherFrs (s t : State) (fs : List (BitVec 7)) : Prop := ∀ f, f ∉ fs → t.lp.fr? f = s.lp.fr? f

/-- The thread is at the place it has after an instruction that falls through with the processor status of `u`. -/
def Passed (s u t : State) : Prop :=
  t.lp.ip = (fallThrough s u).lp.ip ∧ t.lp.lastIp = (fallThrough s u).lp.lastIp
    ∧ t.lp.psr = (fallThrough s u).lp.psr

/-- The increment register of a post-increment form. -/
def incReg (s : State) : Inc → Reg
  | .none => ⟨0#64, false⟩
  | .reg r => s.lp.gr? r
  | .imm w => ⟨w, false⟩

/-- The registers of a post-increment form may be read and written. -/
def IncOk (s : State) (r3 : BitVec 7) : Inc → Prop
  | .none => True
  | .reg r => s.lp.grReadable r = true ∧ s.lp.grWritable r3 = true
  | .imm _ => s.lp.grWritable r3 = true

/-- 42 R580: a post-increment form adds the increment to the base register. -/
def BaseUpdated (s t : State) (r3 : BitVec 7) (inc : Inc) : Prop :=
  inc.updates = true → t.lp.gr? r3 =
    ⟨(s.lp.gr? r3).val + (incReg s inc).val, (s.lp.gr? r3).nat || (incReg s inc).nat⟩

/-- The place of the base register of a form that updates it. -/
def basePlaces (s : State) (r3 : BitVec 7) (inc : Inc) : List GrPlace :=
  if inc.updates then [s.lp.grPlace r3.toNat] else []

/-- No ALAT entry of a register. -/
def NoEntry (s : State) (fp : Bool) (r : BitVec 7) : Prop :=
  (s.lp.alat.any fun e => e.fp == fp && e.reg == s.lp.alatKey fp r) = false

/-- Nothing but general registers, the ALAT, the record of the step and the place of the thread has changed. -/
def OnlyGrs (s t : State) : Prop :=
  t = { s with
    lp := { s.lp with gr := t.lp.gr, alat := t.lp.alat, ev := t.lp.ev, ip := t.lp.ip, lastIp := t.lp.lastIp,
                      psr := t.lp.psr },
    free := t.free }

/-- The same with the floating-point registers. -/
def OnlyRegs (s t : State) : Prop :=
  t = { s with
    lp := { s.lp with gr := t.lp.gr, fr := t.lp.fr, alat := t.lp.alat, ev := t.lp.ev, ip := t.lp.ip,
                      lastIp := t.lp.lastIp, psr := t.lp.psr },
    free := t.free }

/-! ## Loads (42 R580, R582, R585, R587) -/

/-- What an integer load needs. -/
def LoadReady (s : State) (qp : BitVec 6) (r1 r3 : BitVec 7) (inc : Inc) : Prop :=
  s.lp.readPr qp = true ∧ s.lp.grWritable r1 = true ∧ s.lp.grReadable r3 = true ∧ IncOk s r3 inc
    ∧ (inc.updates = true → r1 ≠ r3 ∧ s.lp.grPlace r1.toNat ≠ s.lp.grPlace r3.toNat) ∧ Untrapped s

/-- Whether a load that reads memory allocates an ALAT entry: the advanced forms, and `.c.nc` (42 R580). -/
def allocates (f : LoadForm) : Bool := if f.check then !f.clr else f.adv

/-- The ALAT after a load of `n` bytes at `va` to a register: an entry of the register if the form allocates one and the
table has room for any, else as it was. -/
def AlatAfterLoad (s t : State) (f : LoadForm) (fp : Bool) (r : BitVec 7) (va : Word) (n : Nat) : Prop :=
  if allocates f then
    0 < s.params.alatEntries → ⟨fp, s.lp.alatKey fp r, va.toNat, n⟩ ∈ t.lp.alat
  else t.lp.alat = s.lp.alat

/-- 42 R580: an integer load of `n` bytes from plain memory: the bytes zero-extended, the NaT bit `nat`; a check form
that finds no ALAT entry loads too. -/
def LoadsInt (i : Instr) (f : LoadForm) (n : Nat) (qp : BitVec 6) (r1 r3 : BitVec 7) (inc : Inc)
    (nat : State → Bool) : Prop :=
  ∀ s : State, LoadReady s qp r1 r3 inc → (s.lp.gr? r3).nat = false → PlainData s (s.lp.gr? r3).val n →
    (f.spec = true → s.lp.psrBit 43 = false) → (f.check = true → NoEntry s false r1) →
    ∃ t, exec i s = .next t
      ∧ t.lp.gr? r1 = ⟨BitVec.ofNat 64 (memRead s.bigData s.mem (s.lp.gr? r3).val.toNat n), nat s⟩
      ∧ BaseUpdated s t r3 inc ∧ OtherGrs s t (s.lp.grPlace r1.toNat :: basePlaces s r3 inc)
      ∧ AlatAfterLoad s t f false r1 (s.lp.gr? r3).val n ∧ Passed s s t ∧ OnlyGrs s t

/-- 42 R580: a speculative load from a NaT address writes a NaT, and `.sa` removes the ALAT entry of the register. -/
def LoadsNat (i : Instr) (f : LoadForm) (qp : BitVec 6) (r1 r3 : BitVec 7) (inc : Inc) : Prop :=
  ∀ s : State, LoadReady s qp r1 r3 inc → (s.lp.gr? r3).nat = true →
    ∃ t, exec i s = .next t ∧ t.lp.gr? r1 = ⟨0#64, true⟩
      ∧ BaseUpdated s t r3 inc ∧ OtherGrs s t (s.lp.grPlace r1.toNat :: basePlaces s r3 inc)
      ∧ t.lp.alat = (if f.adv then alatWithout s.lp.alat false (s.lp.alatKey false r1) else s.lp.alat)
      ∧ Passed s s t ∧ OnlyGrs s t

/-- 42 R580: the ALAT after a check load of `n` bytes at `va` that found the entry of its register: `.clr` has removed it; `.nc` keeps
it, and allocates it anew if the table has lost it and has room for any. -/
def AlatAfterCheck (s t : State) (kept clr fp : Bool) (r : BitVec 7) (va : Word) (n : Nat) : Prop :=
  if clr then t.lp.alat = alatWithout s.lp.alat fp (s.lp.alatKey fp r)
  else if kept then t.lp.alat = s.lp.alat
  else 0 < s.params.alatEntries → ⟨fp, s.lp.alatKey fp r, va.toNat, n⟩ ∈ t.lp.alat

/-- 42 R580: a check load that finds the ALAT entry of its register keeps the register, or, if the table has lost the
entry, loads; either way the register is as it was or holds the bytes. -/
def ChecksLoad (i : Instr) (clr : Bool) (n : Nat) (qp : BitVec 6) (r1 r3 : BitVec 7) (inc : Inc) : Prop :=
  ∀ s : State, LoadReady s qp r1 r3 inc → (s.lp.gr? r3).nat = false → PlainData s (s.lp.gr? r3).val n →
    ¬ NoEntry s false r1 →
    ∃ t, exec i s = .next t
      ∧ ((t.lp.gr? r1 = s.lp.gr? r1 ∧ AlatAfterCheck s t true clr false r1 (s.lp.gr? r3).val n)
        ∨ (t.lp.gr? r1 = ⟨BitVec.ofNat 64 (memRead s.bigData s.mem (s.lp.gr? r3).val.toNat n), false⟩
          ∧ AlatAfterCheck s t false clr false r1 (s.lp.gr? r3).val n))
      ∧ BaseUpdated s t r3 inc ∧ OtherGrs s t (s.lp.grPlace r1.toNat :: basePlaces s r3 inc)
      ∧ Passed s s t ∧ OnlyGrs s t

/-- 42 R582: the 16-byte load: the low half to the register, the high half to `AR.CSD`. -/
def Loads16 (i : Instr) (qp : BitVec 6) (r1 r3 : BitVec 7) : Prop :=
  ∀ s : State, LoadReady s qp r1 r3 .none → (s.lp.gr? r3).nat = false → PlainData s (s.lp.gr? r3).val 16 →
    ∃ t, exec i s = .next t
      ∧ t.lp.gr? r1 =
        ⟨BitVec.ofNat 64 (halves s.bigData 8 (memRead s.bigData s.mem (s.lp.gr? r3).val.toNat 16)).1, false⟩
      ∧ t.lp.ar = { s.lp.ar with
          csd := BitVec.ofNat 64 (halves s.bigData 8 (memRead s.bigData s.mem (s.lp.gr? r3).val.toNat 16)).2 }
      ∧ OtherGrs s t [s.lp.grPlace r1.toNat] ∧ Passed s s t
      ∧ t = { s with lp := { s.lp with gr := t.lp.gr, ar := t.lp.ar, ev := t.lp.ev, ip := t.lp.ip,
                                       lastIp := t.lp.lastIp, psr := t.lp.psr } }

/-- What a floating-point load needs. -/
def FpLoadReady (s : State) (qp : BitVec 6) (r3 : BitVec 7) (inc : Inc) : Prop :=
  s.lp.readPr qp = true ∧ Usable s r3 ∧ IncOk s r3 inc ∧ Untrapped s

/-- 42 R585: a floating-point load from plain memory: the bytes converted to the register format; the write is recorded
in `PSR.mfl` or `PSR.mfh`. -/
def LoadsFp (i : Instr) (f : LoadForm) (m : FpFormat) (qp : BitVec 6) (f1 r3 : BitVec 7) (inc : Inc) : Prop :=
  ∀ s : State, FpLoadReady s qp r3 inc → FrWritable s f1 → PlainData s (s.lp.gr? r3).val m.size →
    (f.spec = true → s.lp.psrBit 43 = false) → (f.check = true → NoEntry s true f1) →
    ∃ t, exec i s = .next t
      ∧ t.lp.fr? f1 = fromMemory m (memRead s.bigData s.mem (s.lp.gr? r3).val.toNat m.size)
      ∧ OtherFrs s t [f1] ∧ BaseUpdated s t r3 inc ∧ OtherGrs s t (basePlaces s r3 inc)
      ∧ AlatAfterLoad s t f true f1 (s.lp.gr? r3).val m.size
      ∧ Passed s (s.setFr f1 0#82) t ∧ OnlyRegs s t

/-- What a speculative floating-point load from a NaT address needs. -/
def FpNatReady (s : State) (qp : BitVec 6) (r3 : BitVec 7) (inc : Inc) : Prop :=
  s.lp.readPr qp = true ∧ s.lp.grReadable r3 = true ∧ (s.lp.gr? r3).nat = true ∧ IncOk s r3 inc ∧ Untrapped s

/-- 42 R585: a speculative floating-point load from a NaT address writes NaTVal, and `.sa` removes the ALAT entry. -/
def LoadsFpNat (i : Instr) (f : LoadForm) (qp : BitVec 6) (f1 r3 : BitVec 7) (inc : Inc) : Prop :=
  ∀ s : State, FpNatReady s qp r3 inc → FrWritable s f1 →
    ∃ t, exec i s = .next t ∧ t.lp.fr? f1 = natVal
      ∧ OtherFrs s t [f1] ∧ BaseUpdated s t r3 inc ∧ OtherGrs s t (basePlaces s r3 inc)
      ∧ t.lp.alat = (if f.adv then alatWithout s.lp.alat true (s.lp.alatKey true f1) else s.lp.alat)
      ∧ Passed s (s.setFr f1 0#82) t ∧ OnlyRegs s t

/-- 42 R585: a floating-point check load that finds the entry of its register keeps it, or loads. -/
def ChecksFp (i : Instr) (clr : Bool) (m : FpFormat) (qp : BitVec 6) (f1 r3 : BitVec 7) (inc : Inc) : Prop :=
  ∀ s : State, FpLoadReady s qp r3 inc → FrWritable s f1 → PlainData s (s.lp.gr? r3).val m.size →
    ¬ NoEntry s true f1 →
    ∃ t, exec i s = .next t
      ∧ ((t.lp.fr? f1 = s.lp.fr? f1 ∧ Passed s s t ∧ AlatAfterCheck s t true clr true f1 (s.lp.gr? r3).val m.size)
        ∨ (t.lp.fr? f1 = fromMemory m (memRead s.bigData s.mem (s.lp.gr? r3).val.toNat m.size)
          ∧ Passed s (s.setFr f1 0#82) t ∧ AlatAfterCheck s t false clr true f1 (s.lp.gr? r3).val m.size))
      ∧ OtherFrs s t [f1] ∧ BaseUpdated s t r3 inc ∧ OtherGrs s t (basePlaces s r3 inc) ∧ OnlyRegs s t

/-- 42 R587: a load of a pair of two elements from plain memory. -/
def LoadsPair (i : Instr) (f : LoadForm) (m : FpFormat) (qp : BitVec 6) (f1 f2 r3 : BitVec 7) (inc : Inc) : Prop :=
  ∀ s : State, FpLoadReady s qp r3 inc → FrWritable s f1 → FrWritable s f2 → f1.toNat % 2 ≠ f2.toNat % 2 →
    PlainData s (s.lp.gr? r3).val (2 * m.size) →
    (f.spec = true → s.lp.psrBit 43 = false) → (f.check = true → NoEntry s true f1) →
    ∃ t, exec i s = .next t
      ∧ t.lp.fr? f1 = fromMemory m
          (halves s.bigData m.size (memRead s.bigData s.mem (s.lp.gr? r3).val.toNat (2 * m.size))).1
      ∧ t.lp.fr? f2 = fromMemory m
          (halves s.bigData m.size (memRead s.bigData s.mem (s.lp.gr? r3).val.toNat (2 * m.size))).2
      ∧ OtherFrs s t [f1, f2] ∧ BaseUpdated s t r3 inc ∧ OtherGrs s t (basePlaces s r3 inc)
      ∧ AlatAfterLoad s t f true f1 (s.lp.gr? r3).val (2 * m.size)
      ∧ Passed s ((s.setFr f1 0#82).setFr f2 0#82) t ∧ OnlyRegs s t

/-- 42 R587: a speculative pair load from a NaT address. -/
def LoadsPairNat (i : Instr) (f : LoadForm) (qp : BitVec 6) (f1 f2 r3 : BitVec 7) (inc : Inc) : Prop :=
  ∀ s : State, FpNatReady s qp r3 inc → FrWritable s f1 → FrWritable s f2 → f1.toNat % 2 ≠ f2.toNat % 2 →
    ∃ t, exec i s = .next t ∧ t.lp.fr? f1 = natVal ∧ t.lp.fr? f2 = natVal
      ∧ OtherFrs s t [f1, f2] ∧ BaseUpdated s t r3 inc ∧ OtherGrs s t (basePlaces s r3 inc)
      ∧ t.lp.alat = (if f.adv then alatWithout s.lp.alat true (s.lp.alatKey true f1) else s.lp.alat)
      ∧ Passed s ((s.setFr f1 0#82).setFr f2 0#82) t ∧ OnlyRegs s t

/-- 42 R587: a pair check load that finds the entry of its first register keeps the registers, or loads. -/
def ChecksPair (i : Instr) (clr : Bool) (m : FpFormat) (qp : BitVec 6) (f1 f2 r3 : BitVec 7) (inc : Inc) : Prop :=
  ∀ s : State, FpLoadReady s qp r3 inc → FrWritable s f1 → FrWritable s f2 → f1.toNat % 2 ≠ f2.toNat % 2 →
    PlainData s (s.lp.gr? r3).val (2 * m.size) → ¬ NoEntry s true f1 →
    ∃ t, exec i s = .next t
      ∧ ((t.lp.fr? f1 = s.lp.fr? f1 ∧ t.lp.fr? f2 = s.lp.fr? f2 ∧ Passed s s t
          ∧ AlatAfterCheck s t true clr true f1 (s.lp.gr? r3).val (2 * m.size))
        ∨ (t.lp.fr? f1 = fromMemory m
              (halves s.bigData m.size (memRead s.bigData s.mem (s.lp.gr? r3).val.toNat (2 * m.size))).1
          ∧ t.lp.fr? f2 = fromMemory m
              (halves s.bigData m.size (memRead s.bigData s.mem (s.lp.gr? r3).val.toNat (2 * m.size))).2
          ∧ Passed s ((s.setFr f1 0#82).setFr f2 0#82) t
          ∧ AlatAfterCheck s t false clr true f1 (s.lp.gr? r3).val (2 * m.size)))
      ∧ OtherFrs s t [f1, f2] ∧ BaseUpdated s t r3 inc ∧ OtherGrs s t (basePlaces s r3 inc) ∧ OnlyRegs s t

/-- 42 R588: a prefetch: nothing but the post-increment; the `.fault` forms need memory that can be read. -/
def Prefetches (i : Instr) (fault : Bool) (qp : BitVec 6) (r3 : BitVec 7) (inc : Inc) : Prop :=
  ∀ s : State, FpLoadReady s qp r3 inc → (fault = true → PlainData s (s.lp.gr? r3).val 1) →
    ∃ t, exec i s = .next t ∧ BaseUpdated s t r3 inc ∧ OtherGrs s t (basePlaces s r3 inc)
      ∧ t.lp.alat = s.lp.alat ∧ Passed s s t ∧ OnlyGrs s t

/-! ## Stores (42 R583, R584, R586) -/

/-- `n` bytes at the address in `r3` hold `v`, in the byte order of data; every byte outside them reads as before. -/
def Stored (s t : State) (va : Word) (n v : Nat) : Prop :=
  memRead s.bigData t.mem va.toNat n = v % 256 ^ n
    ∧ ∀ a, (a < va.toNat ∨ va.toNat + n ≤ a) → memByte t.mem a = memByte s.mem a

/-- 20 R418: the overlapping ALAT entries of both threads are gone. -/
def AlatsAfterStore (s t : State) (va : Word) (n : Nat) : Prop :=
  t.lp.alat = alatAfterStore s.lp.alat va.toNat n
    ∧ t.bg = { s.bg with alat := alatAfterStore s.bg.alat va.toNat n }

/-- Nothing but memory, the ALATs, general registers, `AR.UNAT`, the record of the step and the place of the thread has
changed. -/
def OnlyStore (s t : State) (unat : Word) : Prop :=
  t = { s with
    lp := { s.lp with gr := t.lp.gr, ar := { s.lp.ar with unat := unat }, alat := t.lp.alat, ev := t.lp.ev,
                      ip := t.lp.ip, lastIp := t.lp.lastIp, psr := t.lp.psr },
    bg := t.bg, mem := t.mem }

/-- 42 R583: a store of the low `n` bytes of a register to plain memory; a spill saves the NaT bit in `AR.UNAT`. -/
def StoresInt (i : Instr) (n : Nat) (spill : Bool) (qp : BitVec 6) (r3 r2 : BitVec 7) (inc : Inc) : Prop :=
  ∀ s : State, FpLoadReady s qp r3 inc → s.lp.grReadable r2 = true → (spill = true ∨ (s.lp.gr? r2).nat = false) →
    PlainData s (s.lp.gr? r3).val n → MemoryCanonical s →
    ∃ t, exec i s = .next t ∧ Stored s t (s.lp.gr? r3).val n (s.lp.gr? r2).val.toNat
      ∧ AlatsAfterStore s t (s.lp.gr? r3).val n ∧ BaseUpdated s t r3 inc ∧ OtherGrs s t (basePlaces s r3 inc)
      ∧ Passed s s t
      ∧ OnlyStore s t (if spill then
          setBit s.lp.ar.unat (field (s.lp.gr? r3).val 3 6).toNat (s.lp.gr? r2).nat else s.lp.ar.unat)

/-- 42 R584: the 16-byte store of a register and `AR.CSD`. -/
def Stores16 (i : Instr) (qp : BitVec 6) (r3 r2 : BitVec 7) : Prop :=
  ∀ s : State, FpLoadReady s qp r3 .none → Usable s r2 → PlainData s (s.lp.gr? r3).val 16 → MemoryCanonical s →
    ∃ t, exec i s = .next t
      ∧ halves s.bigData 8 (memRead s.bigData t.mem (s.lp.gr? r3).val.toNat 16)
        = ((s.lp.gr? r2).val.toNat, s.lp.ar.csd.toNat)
      ∧ (∀ a, (a < (s.lp.gr? r3).val.toNat ∨ (s.lp.gr? r3).val.toNat + 16 ≤ a) →
          memByte t.mem a = memByte s.mem a)
      ∧ AlatsAfterStore s t (s.lp.gr? r3).val 16 ∧ OtherGrs s t [] ∧ Passed s s t ∧ OnlyStore s t s.lp.ar.unat

/-- 42 R586: a floating-point store to plain memory; a NaT base, and NaTVal but in the spill, raise Register NaT Consumption. -/
def StoresFp (i : Instr) (m : FpFormat) (qp : BitVec 6) (r3 f2 : BitVec 7) (inc : Inc) : Prop :=
  Traps i qp (fun s => s.lp.grReadable r3 = true ∧ IncOk s r3 inc ∧ s.lp.frEnabled f2 = true
    ∧ ((s.lp.gr? r3).nat = true ∨ (m ≠ .image ∧ s.lp.fr? f2 = natVal))) (fun _ => registerNatConsumption (accessBits .write))
  ∧ ∀ s : State, FpLoadReady s qp r3 inc → s.lp.frEnabled f2 = true → (m = .image ∨ s.lp.fr? f2 ≠ natVal) →
    PlainData s (s.lp.gr? r3).val m.size → MemoryCanonical s →
    ∃ t, exec i s = .next t ∧ Stored s t (s.lp.gr? r3).val m.size (toMemory m (s.lp.fr? f2))
      ∧ AlatsAfterStore s t (s.lp.gr? r3).val m.size ∧ BaseUpdated s t r3 inc
      ∧ OtherGrs s t (basePlaces s r3 inc) ∧ Passed s s t ∧ OnlyStore s t s.lp.ar.unat

/-! ## Semaphores (42 R590 to R593) -/

/-- A semaphore on `n` bytes of plain memory: the old value goes to `r1`; the new value of the old one, if any, is
stored as `m` bytes at the address with its low bits cleared to the size. -/
def Exchanges (i : Instr) (n m : Nat) (qp : BitVec 6) (r1 r3 : BitVec 7) (pre : State → Prop)
    (new : State → Nat → Option Nat) : Prop :=
  ∀ s : State, s.lp.readPr qp = true → s.lp.grWritable r1 = true → Usable s r3 → pre s →
    PlainData s (s.lp.gr? r3).val n →
    PlainData s (BitVec.ofNat 64 ((s.lp.gr? r3).val.toNat - (s.lp.gr? r3).val.toNat % m)) m →
    MemoryCanonical s → Untrapped s →
    ∃ t, exec i s = .next t
      ∧ t.lp.gr? r1 = ⟨BitVec.ofNat 64 (memRead s.bigData s.mem (s.lp.gr? r3).val.toNat n), false⟩
      ∧ OtherGrs s t [s.lp.grPlace r1.toNat]
      ∧ (match new s (memRead s.bigData s.mem (s.lp.gr? r3).val.toNat n) with
        | none => t.mem = s.mem ∧ t.bg = s.bg ∧ t.lp.alat = s.lp.alat
        | some v => Stored s t (BitVec.ofNat 64 ((s.lp.gr? r3).val.toNat - (s.lp.gr? r3).val.toNat % m)) m v
          ∧ AlatsAfterStore s t (BitVec.ofNat 64 ((s.lp.gr? r3).val.toNat - (s.lp.gr? r3).val.toNat % m)) m)
      ∧ Passed s s t ∧ OnlyStore s t s.lp.ar.unat

/-! ## Floating point (43 R680 to R688) -/

/-- A rounding operation with every trap disabled: the result and flags of the free function, or NaTVal. -/
def FpResults (i : Instr) (op : FpOp) (prec : FpPrec) (sf : BitVec 2) (qp : BitVec 6) (f1 a b c : BitVec 7) : Prop :=
  ∀ s : State, s.lp.readPr qp = true → FrWritable s f1 → s.lp.frEnabled a = true → s.lp.frEnabled b = true →
    s.lp.frEnabled c = true → FpTrapsOff s → Untrapped s →
    ∃ t, exec i s = .next t
      ∧ (if s.lp.fr? a = natVal ∨ s.lp.fr? b = natVal ∨ s.lp.fr? c = natVal then
          t.lp.fr? f1 = natVal ∧ t.lp.ar = s.lp.ar
        else
          t.lp.fr? f1 = (fpOp op prec sf s.lp.ar.fpsr (s.lp.fr? a) (s.lp.fr? b) (s.lp.fr? c)).value
          ∧ t.lp.ar = { s.lp.ar with
              fpsr := setSfFlags s.lp.ar.fpsr sf (sfFlags s.lp.ar.fpsr sf ||| (fpOp op prec sf s.lp.ar.fpsr (s.lp.fr? a) (s.lp.fr? b) (s.lp.fr? c)).flags) })
      ∧ OtherFrs s t [f1] ∧ Passed s (s.setFr f1 0#82) t
      ∧ t = { s with lp := { s.lp with fr := t.lp.fr, ar := t.lp.ar, ev := t.lp.ev, ip := t.lp.ip,
                                       lastIp := t.lp.lastIp, psr := t.lp.psr } }

/-- 60 R1301: a rounding operation answers a next state whatever traps are enabled; where the free function gives an enabled V, D
or Z, it takes the Floating-point Fault and writes nothing; where it gives an enabled O, U or I and none of those, the result and
the flags are written and the Floating-point Trap follows, delivered from the state after the instruction. -/
def FpFaults (i : Instr) (op : FpOp) (prec : FpPrec) (sf : BitVec 2) (qp : BitVec 6) (f1 a b c : BitVec 7) : Prop :=
  ∀ s : State, s.lp.readPr qp = true → FrWritable s f1 → s.lp.frEnabled a = true → s.lp.frEnabled b = true →
    s.lp.frEnabled c = true → s.lp.fr? a ≠ natVal → s.lp.fr? b ≠ natVal → s.lp.fr? c ≠ natVal →
    ∃ t, exec i s = .next t
      ∧ (enabledFlags s.lp.ar.fpsr sf (fpOp op prec sf s.lp.ar.fpsr (s.lp.fr? a) (s.lp.fr? b) (s.lp.fr? c)).flags &&& 7#6
          ≠ 0#6 →
        t = faultTo s (fpFault (enabledFlags s.lp.ar.fpsr sf
          (fpOp op prec sf s.lp.ar.fpsr (s.lp.fr? a) (s.lp.fr? b) (s.lp.fr? c)).flags)))
      ∧ (∀ r, r = fpOp op prec sf s.lp.ar.fpsr (s.lp.fr? a) (s.lp.fr? b) (s.lp.fr? c) →
        enabledFlags s.lp.ar.fpsr sf r.flags &&& 7#6 = 0#6 → enabledFlags s.lp.ar.fpsr sf r.flags ≠ 0#6 →
        unimplementedIp s s.lp.ip = false → unimplementedIp s (s.lp.ip + 16#64) = false →
        ∃ (u : State) (x : Exc), x.offset = 0x5D00 ∧ x.ifa = none ∧ t = deliver x s.lp.ri u
          ∧ u.lp.fr? f1 = r.value ∧ OtherFrs s u [f1] ∧ Passed s (s.setFr f1 0#82) u
          ∧ u.lp.ar = { s.lp.ar with fpsr := setSfFlags s.lp.ar.fpsr sf (sfFlags s.lp.ar.fpsr sf ||| r.flags) }
          ∧ u = { s with lp := { s.lp with fr := u.lp.fr, ar := u.lp.ar, ev := u.lp.ev, ip := u.lp.ip,
                                           lastIp := u.lp.lastIp, psr := u.lp.psr } })

/-- An approximation with every trap disabled: the result and the predicate of the free function. -/
def Approximates (i : Instr) (op : FpOp) (sf : BitVec 2) (qp p2 : BitVec 6) (f1 a b : BitVec 7) : Prop :=
  ∀ s : State, s.lp.readPr qp = true → FrWritable s f1 → s.lp.frEnabled a = true → s.lp.frEnabled b = true →
    FpTrapsOff s → Untrapped s →
    ∃ t, exec i s = .next t
      ∧ (if s.lp.fr? a = natVal ∨ s.lp.fr? b = natVal then
          t.lp.fr? f1 = natVal ∧ t.lp.pr = (s.lp.setPr p2 false).pr ∧ t.lp.ar = s.lp.ar
        else
          t.lp.fr? f1 = (fpOp op .dynamic sf s.lp.ar.fpsr (s.lp.fr? a) (s.lp.fr? b) 0#82).value
          ∧ t.lp.pr = (s.lp.setPr p2 (fpOp op .dynamic sf s.lp.ar.fpsr (s.lp.fr? a) (s.lp.fr? b) 0#82).pred).pr
          ∧ t.lp.ar = { s.lp.ar with
              fpsr := setSfFlags s.lp.ar.fpsr sf (sfFlags s.lp.ar.fpsr sf ||| (fpOp op .dynamic sf s.lp.ar.fpsr (s.lp.fr? a) (s.lp.fr? b) 0#82).flags) })
      ∧ OtherFrs s t [f1] ∧ Passed s (s.setFr f1 0#82) t
      ∧ t = { s with lp := { s.lp with fr := t.lp.fr, pr := t.lp.pr, ar := t.lp.ar, ev := t.lp.ev, ip := t.lp.ip,
                                       lastIp := t.lp.lastIp, psr := t.lp.psr } }

/-- A register written with a function of three floating-point registers; NaTVal in gives NaTVal. -/
def FpMoves (i : Instr) (qp : BitVec 6) (f1 a b c : BitVec 7) (f : FReg → FReg → FReg → FReg) : Prop :=
  Effect i qp
    (fun s => FrWritable s f1 ∧ s.lp.frEnabled a = true ∧ s.lp.frEnabled b = true ∧ s.lp.frEnabled c = true)
    (fun s => s.setFr f1
      (if s.lp.fr? a = natVal ∨ s.lp.fr? b = natVal ∨ s.lp.fr? c = natVal then natVal
       else f (s.lp.fr? a) (s.lp.fr? b) (s.lp.fr? c)))

/-- A floating-point compare or class test whose qualifying predicate is 0: if the free `typeUnc` makes it `unc`, equal
destinations are an Illegal Operation and both predicates are cleared; else it does nothing (40 R520, 43 R683). -/
def CompareOff (i : Instr) (s : State) (qp p1 p2 : BitVec 6) (ta : BitVec 1) : Prop :=
  s.lp.readPr qp = false → Untrapped s →
    (p1 = p2 → exec i s = .next (if typeUnc ta then faultTo s illegalOperation else skipped s))
    ∧ (p1 ≠ p2 → ∃ t, exec i s = .next t
      ∧ t.lp.pr = (if typeUnc ta then (s.setPr2 p1 p2 false false).lp.pr else s.lp.pr)
      ∧ t = { skipped s with lp := { (skipped s).lp with pr := t.lp.pr } })

/-- 43 R683: a floating-point compare with every trap disabled: the relation and flags of the free function, both
predicates cleared for NaTVal; the predicate rules are those of `none` and `unc` (40 R520). -/
def FpCompares (i : Instr) (o : OpF4) : Prop :=
  ∀ s : State,
    (s.lp.readPr o.qp = true → o.p1 ≠ o.p2 → s.lp.frEnabled o.f2 = true → s.lp.frEnabled o.f3 = true → FpTrapsOff s →
      Untrapped s → ∃ t, exec i s = .next t
        ∧ (if s.lp.fr? o.f2 = natVal ∨ s.lp.fr? o.f3 = natVal then
            t.lp.pr = (s.setPr2 o.p1 o.p2 false false).lp.pr ∧ t.lp.ar = s.lp.ar
          else
            t.lp.pr = (s.setPr2 o.p1 o.p2
              (fpCompare (fcmpRel o.ra o.rb) o.sf s.lp.ar.fpsr (s.lp.fr? o.f2) (s.lp.fr? o.f3)).1
              (!(fpCompare (fcmpRel o.ra o.rb) o.sf s.lp.ar.fpsr (s.lp.fr? o.f2) (s.lp.fr? o.f3)).1)).lp.pr
            ∧ t.lp.ar = { s.lp.ar with fpsr := setSfFlags s.lp.ar.fpsr o.sf (sfFlags s.lp.ar.fpsr o.sf
                ||| (fpCompare (fcmpRel o.ra o.rb) o.sf s.lp.ar.fpsr (s.lp.fr? o.f2) (s.lp.fr? o.f3)).2) })
        ∧ Passed s s t
        ∧ t = { s with lp := { s.lp with pr := t.lp.pr, ar := t.lp.ar, ev := t.lp.ev, ip := t.lp.ip,
                                         lastIp := t.lp.lastIp, psr := t.lp.psr } })
    ∧ (s.lp.readPr o.qp = true → o.p1 = o.p2 → exec i s = .next (faultTo s illegalOperation))
    ∧ CompareOff i s o.qp o.p1 o.p2 o.ta

/-- A state with floating-point operations recorded and flags added to a status field. -/
def fpNoted (s : State) (n : Nat) (sf : BitVec 2) (flags : BitVec 6) : State :=
  (s.noteFpOps n).setLp { (s.noteFpOps n).lp with ar := { s.lp.ar with
    fpsr := setSfFlags s.lp.ar.fpsr sf (sfFlags s.lp.ar.fpsr sf ||| flags) } }

/-- 43 R683: the effect of a compare: the relation and its complement in two predicates, both 0 for NaTVal. -/
def fpCompared (o : OpF4) (s : State) : State :=
  let r := fpCompare (fcmpRel o.ra o.rb) o.sf s.lp.ar.fpsr (s.lp.fr? o.f2) (s.lp.fr? o.f3)
  if s.lp.fr? o.f2 = natVal ∨ s.lp.fr? o.f3 = natVal then (s.noteFpOps 1).setPr2 o.p1 o.p2 false false
  else (fpNoted s 1 o.sf r.2).setPr2 o.p1 o.p2 r.1 (!r.1)

/-- 43 R683: the effect of a class test. -/
def fpClassed (o : OpF5) (s : State) : State :=
  let hit := fclassHit s.free (s.lp.fr? o.f2)
  if s.lp.fr? o.f2 = natVal then ({ s with free := s.free + 1 } : State).setPr2 o.p1 o.p2 false false
  else ({ s with free := s.free + 1 } : State).setPr2 o.p1 o.p2 hit (!hit)

/-- 43 R684: the effect of an approximation of `n` operations: a result and a predicate, NaTVal and 0 for NaTVal. -/
def fpApproximated (op : FpOp) (n : Nat) (sf : BitVec 2) (p2 : BitVec 6) (f1 a b : BitVec 7) (s : State) : State :=
  let r := fpOp op .dynamic sf s.lp.ar.fpsr (s.lp.fr? a) (s.lp.fr? b) 0#82
  let u := if s.lp.fr? a = natVal ∨ s.lp.fr? b = natVal then (s.noteFpOps n).setFr f1 natVal
    else (fpNoted s n sf r.flags).setFr f1 r.value
  u.setLp (u.lp.setPr p2 (!decide (s.lp.fr? a = natVal ∨ s.lp.fr? b = natVal) && r.pred))

/-- 43 R684: an approximation completes with every trap disabled. -/
def ApproximationCompletes (i : Instr) (op : FpOp) (n : Nat) (sf : BitVec 2) (qp p2 : BitVec 6) (f1 a b : BitVec 7) : Prop :=
  ∀ s : State, s.lp.readPr qp = true → FrWritable s f1 → s.lp.frEnabled a = true → s.lp.frEnabled b = true →
    FpTrapsOff s → Untrapped s → exec i s = .next (fallThrough s (fpApproximated op n sf p2 f1 a b s))

/-- A significand as an integer value of a register (43 R682). -/
def integerFr (w : Word) : FReg := 0#1 ++ 0x1003E#17 ++ w
/-- Two singles packed in a significand. -/
def packedFr (l r : BitVec 32) : FReg := 0#1 ++ 0x1003E#17 ++ l ++ r
/-- The left and the right single, and the significand, of a register. -/
def leftSingle (f : FReg) : BitVec 32 := f.extractLsb' 32 32
def rightSingle (f : FReg) : BitVec 32 := f.extractLsb' 0 32
def significand (f : FReg) : Word := f.extractLsb' 0 64

/-- 30 R456: a predicated-off approximation clears its predicate and does nothing else. -/
def ApproximationOff (i : Instr) (qp p2 : BitVec 6) : Prop :=
  ∀ s : State, s.lp.readPr qp = false → Untrapped s →
    ∃ t, exec i s = .next t ∧ t.lp.pr = (s.lp.setPr p2 false).pr
      ∧ t = { skipped s with lp := { (skipped s).lp with pr := t.lp.pr } }

/-! ## Translation inserts (42 R620 to R623) -/

/-- 20 R394, R395: the page size in `CR.ITIR` is one the TLBs have, 4 KB to 4 GB. -/
def PageSizeLegal (s : State) : Prop := 12 ≤ s.lp.cr.itir.toNat / 4 % 64 ∧ s.lp.cr.itir.toNat / 4 % 64 ≤ 32

/-! ## Branches (43 R661 to R666) -/

/-- A predicated branch with an effect `f` besides the transfer: taken when its predicate is 1, else the next slot. -/
def Branches (i : Instr) (wide : Bool) (k : FlowKind) (qp : BitVec 6) (pre : State → Prop) (target : State → Word)
    (f : State → State) : Prop :=
  ∀ s : State,
    (s.lp.readPr qp = true → pre s → Reachable s (target s) → exec i s =
      .next (advance s ((f s).noteFlow k true (target s)) { target := some (target s), wide := wide }))
    ∧ (s.lp.readPr qp = false → Untrapped s →
      exec i s = .next { skipped s wide with
        lp := { (skipped s wide).lp with ev := { s.lp.ev with
          squashed := true, flow := some { kind := k, taken := false, target := target s } } } })

/-- A loop branch in slot 2: taken to its target or not, with an effect `f`. -/
def Loops (i : Instr) (target : State → Word) (pre : State → Prop) (taken : State → Bool) (f : State → State) : Prop :=
  ∀ s : State, pre s → s.lp.ri = 2#2 → Untrapped s → Reachable s (target s) →
    exec i s = .next (advance s ((f s).noteFlow .ipRelative (taken s) (target s))
      { target := if taken s then some (target s) else none })

/-! ## The registers of the uncore (12, 13) -/

/-- Whether a register is one of the socket: two B- and Z-Boxes, four cores, twelve ports with two match sets each. -/
def csrExists : Csr → Bool
  | .dbxMisc | .rGblCfg => true
  | .qearDat0 c | .qearDat1 c | .qearCtl c => decide (c < 4)
  | .bCtl0 b | .bCtl1 b | .bCtl2 b | .bCtl3 b | .bIob b | .bBz b | .bArb0 b | .bArb1 b | .bImt b => decide (b < 2)
  | .bCnt b i => decide (b < 2 ∧ i < 8)
  | .rCnt i | .rCtl i => decide (i < 16)
  | .rIperf0 p | .rIperf1 p | .rArb p => decide (p < 12)
  | .rMatchLsb m | .rMatchMsb m | .rMaskLsb m | .rMaskMsb m | .rMmCfg m => decide (m < 24)
  | .zPgt b | .zDsp b | .zIss b | .zThr b | .zStatus b | .zPld b | .zFvc b => decide (b < 2)
  | .zCtl b i | .zCnt b i => decide (b < 2 ∧ i < 5)

/-- 13 R304: where a port's registers begin on its side of the R-Box: the right side holds ports 5 to 10, the left side the others,
port 11 in slot 5. -/
def portBase (right left stride p : Nat) : Nat :=
  if 5 ≤ p ∧ p ≤ 10 then right + stride * (p - 5) else left + stride * (if p = 11 then 5 else p)

/-- 12 R224, R230, R252, 13 R304, R340: the offset of a register in its socket window. -/
def csrOffset : Csr → Nat
  | .dbxMisc => 0xFA00
  | .qearDat0 c => 0x8100 + 0x1000 * c
  | .qearDat1 c => 0x8108 + 0x1000 * c
  | .qearCtl c => 0x8110 + 0x1000 * c
  | .bCtl0 b => 0xC080 + 0x1000 * b
  | .bCtl1 b => 0xC088 + 0x1000 * b
  | .bCtl2 b => 0xC090 + 0x1000 * b
  | .bCtl3 b => 0xC098 + 0x1000 * b
  | .bCnt b i => 0xC0A8 + 0x1000 * b + 8 * i
  | .bIob b => 0xC128 + 0x1000 * b
  | .bBz b => 0xC130 + 0x1000 * b
  | .bArb0 b => 0xC138 + 0x1000 * b
  | .bArb1 b => 0xC140 + 0x1000 * b
  | .bImt b => 0xC408 + 0x1000 * b
  | .rGblCfg => 0x4F00
  | .rCnt i => 0x4E00 + 0x10 * i
  | .rCtl i => 0x4E08 + 0x10 * i
  | .rIperf0 p => 0x7080 + 0x100 * p
  | .rIperf1 p => 0x7088 + 0x100 * p
  | .rArb p => portBase 0x4490 0x4290 8 p
  | .rMatchLsb m => portBase 0x4C00 0x4A00 0x28 (m / 2) + 0x100 * (m % 2)
  | .rMatchMsb m => portBase 0x4C00 0x4A00 0x28 (m / 2) + 0x100 * (m % 2) + 0x08
  | .rMaskLsb m => portBase 0x4C00 0x4A00 0x28 (m / 2) + 0x100 * (m % 2) + 0x10
  | .rMaskMsb m => portBase 0x4C00 0x4A00 0x28 (m / 2) + 0x100 * (m % 2) + 0x18
  | .rMmCfg m => portBase 0x4C00 0x4A00 0x28 (m / 2) + 0x100 * (m % 2) + 0x20
  | .zPgt b => 0xCF00 + 0x1000 * b
  | .zDsp b => 0xCEA8 + 0x1000 * b
  | .zIss b => 0xCE38 + 0x1000 * b
  | .zThr b => 0xCCA8 + 0x1000 * b
  | .zStatus b => 0xCC98 + 0x1000 * b
  | .zCtl b i => 0xCC90 + 0x1000 * b - 8 * i
  | .zCnt b i => 0xCC60 + 0x1000 * b - 8 * i
  | .zPld b => 0xCB08 + 0x1000 * b
  | .zFvc b => 0xC818 + 0x1000 * b

/-- 12, 13: the bits a store writes, for a register whose other bits are 0 after it. -/
def csrReplaced : Csr → Option Word
  | .dbxMisc => some 0x3FC3#64
  | .qearCtl _ => some 0x1FFFF#64
  | .bCtl0 _ => some 0x1FFFFFFFF#64
  | .bCtl1 _ => some 0xFFFFFFFFFFFF#64
  | .bCtl2 _ => some 0xFFFFFFFFFFF#64
  | .bCtl3 _ => some 0xFFFFFFFFFFFFFFFF#64
  | .bCnt _ _ => some 0x1FFFFFFFFFF#64
  | .rCtl _ => some 0x1FFFFFF#64
  | .rCnt _ | .rIperf0 _ | .rIperf1 _ | .rMatchLsb _ | .rMatchMsb _ | .rMaskLsb _ | .rMaskMsb _ | .zCnt _ _ =>
    some 0xFFFFFFFF#64
  | .rArb _ => some 0xFF00FF#64
  | .rMmCfg _ => some 0x3FFFFF#64
  | .zPgt _ => some 0x3BF#64
  | .zDsp _ => some 0x400#64
  | .zIss _ => some 0x3FF#64
  | .zThr _ => some 0x7F8#64
  | .zPld _ => some 0x3FFF#64
  | .zFvc _ => some 0xFFFFE0#64
  | _ => none

/-- 12 R262 to R266, R233: the bits a store writes, for a register that keeps its other bits. -/
def csrMerged : Csr → Option Word
  | .bIob _ => some 0x1FFFFF#64
  | .bBz _ | .bImt _ => some 0x7F#64
  | .bArb0 _ => some 0x3FF#64
  | .bArb1 _ => some 0x7FF#64
  | .qearDat1 _ => some 0#64
  | _ => none

end Sys2Proof.Machine

/-- The instructions that may write memory: the stores, the semaphores, and those for which the register stack engine may
store dirty registers (42 R583 to R592, R603, R610; 43 R666, R671). -/
def Sys2Proof.Instr.mayStore (i : Instr) : Bool :=
  match i with
  | .st1R3R2 _ | .st1R3R2Imm9 _ | .st2R3R2 _ | .st2R3R2Imm9 _ | .st4R3R2 _ | .st4R3R2Imm9 _ | .st8R3R2 _ |
    .st8R3R2Imm9 _ | .st1RelR3R2 _ | .st1RelR3R2Imm9 _ | .st2RelR3R2 _ | .st2RelR3R2Imm9 _ | .st4RelR3R2 _ |
    .st4RelR3R2Imm9 _ | .st8RelR3R2 _ | .st8RelR3R2Imm9 _ | .st8SpillR3R2 _ | .st8SpillR3R2Imm9 _ | .st16R3R2ArCsd _
    | .st16RelR3R2ArCsd _ | .stfeR3F2 _ | .stfeR3F2Imm9 _ | .stf8R3F2 _ | .stf8R3F2Imm9 _ | .stfsR3F2 _ |
    .stfsR3F2Imm9 _ | .stfdR3F2 _ | .stfdR3F2Imm9 _ | .stfSpillR3F2 _ | .stfSpillR3F2Imm9 _ | .cmpxchg1Acq _ |
    .cmpxchg1Rel _ | .xchg1 _ | .cmpxchg2Acq _ | .cmpxchg2Rel _ | .xchg2 _ | .cmpxchg4Acq _ | .cmpxchg4Rel _ |
    .xchg4 _ | .cmpxchg8Acq _ | .cmpxchg8Rel _ | .xchg8 _ | .cmp8xchg16Acq _ | .cmp8xchg16Rel _ | .fetchadd4Acq _ |
    .fetchadd8Acq _ | .fetchadd4Rel _ | .fetchadd8Rel _ | .allocR1ArPfsILOR _ | .flushrs _ | .brRetB2 _ | .rfi =>
    true
  | _ => false

/-- The ten forms whose encoding the spec does not give (92 D11). -/
def Sys2Proof.Instr.unencoded (i : Instr) : Bool :=
  match i with
  | .pmpyshr2 _ | .pmpy2 _ | .mixPack _ | .mux1 _ | .mux2 _ | .pshrVar _ | .pshrFix _ | .pshlVar _ | .pshlFix _ |
    .popcnt _ => true
  | _ => false
end

