-- ==== Sys2Proof/Certificates/Slice0/Obligations.lean ====
section
/-!
DEFINITION. The statements for the provers. Each says in its docstring the rules it formalises, or that it states a choice of the model.
-/

open Sys2Proof Sys2Proof.Machine Sys2Proof.Config

/-- R501 to R511: the encodings and the whole effect of the register forms. -/
def Obligations.IntegerArithmetic : Prop :=
  (∀ o : OpA1,
    EncodesA (slotA1 0 0 o) (.add o)
    ∧ Result2 (.add o) o.qp o.r1 o.r2 o.r3 (fun a b => a + b)
    ∧ EncodesA (slotA1 0 1 o) (.addR1R2R31 o)
    ∧ Result2 (.addR1R2R31 o) o.qp o.r1 o.r2 o.r3 (fun a b => a + b + 1#64)
    ∧ EncodesA (slotA1 1 1 o) (.sub o)
    ∧ Result2 (.sub o) o.qp o.r1 o.r2 o.r3 (fun a b => a - b)
    ∧ EncodesA (slotA1 1 0 o) (.subR1R2R31 o)
    ∧ Result2 (.subR1R2R31 o) o.qp o.r1 o.r2 o.r3 (fun a b => a - b - 1#64)
    ∧ EncodesA (slotA1 2 0 o) (.addp4 o)
    ∧ Result2 (.addp4 o) o.qp o.r1 o.r2 o.r3 (fun a b => ((a + b) &&& 0xFFFFFFFF#64) ||| (((b >>> 30) &&& 3#64) <<< 61))
    ∧ EncodesA (slotA1 3 0 o) (.and o)
    ∧ Result2 (.and o) o.qp o.r1 o.r2 o.r3 (fun a b => a &&& b)
    ∧ EncodesA (slotA1 3 1 o) (.andcm o)
    ∧ Result2 (.andcm o) o.qp o.r1 o.r2 o.r3 (fun a b => a &&& ~~~b)
    ∧ EncodesA (slotA1 3 2 o) (.or o)
    ∧ Result2 (.or o) o.qp o.r1 o.r2 o.r3 (fun a b => a ||| b)
    ∧ EncodesA (slotA1 3 3 o) (.xor o)
    ∧ Result2 (.xor o) o.qp o.r1 o.r2 o.r3 (fun a b => a ^^^ b))
  ∧ (∀ o : OpA2,
    EncodesA (slotA2 4 o) (.shladd o)
    ∧ Result2 (.shladd o) o.qp o.r1 o.r2 o.r3 (fun a b => (a <<< (o.ct2d.toNat + 1)) + b)
    ∧ EncodesA (slotA2 6 o) (.shladdp4 o)
    ∧ Result2 (.shladdp4 o) o.qp o.r1 o.r2 o.r3 (fun a b => (((a <<< (o.ct2d.toNat + 1)) + b) &&& 0xFFFFFFFF#64) ||| (((b >>> 30) &&& 3#64) <<< 61)))

/-- R512 to R519: the encodings and the whole effect of the immediate forms. -/
def Obligations.IntegerImmediates : Prop :=
  (∀ o : OpA3,
    EncodesA (slotA3 9 1 o) (.subR1Imm8R3 o)
    ∧ Result1 (.subR1Imm8R3 o) o.qp o.r1 o.r3 (fun a => o.imm8.signExtend 64 - a)
    ∧ EncodesA (slotA3 0xB 0 o) (.andR1Imm8R3 o)
    ∧ Result1 (.andR1Imm8R3 o) o.qp o.r1 o.r3 (fun a => o.imm8.signExtend 64 &&& a)
    ∧ EncodesA (slotA3 0xB 1 o) (.andcmR1Imm8R3 o)
    ∧ Result1 (.andcmR1Imm8R3 o) o.qp o.r1 o.r3 (fun a => o.imm8.signExtend 64 &&& ~~~a)
    ∧ EncodesA (slotA3 0xB 2 o) (.orR1Imm8R3 o)
    ∧ Result1 (.orR1Imm8R3 o) o.qp o.r1 o.r3 (fun a => o.imm8.signExtend 64 ||| a)
    ∧ EncodesA (slotA3 0xB 3 o) (.xorR1Imm8R3 o)
    ∧ Result1 (.xorR1Imm8R3 o) o.qp o.r1 o.r3 (fun a => o.imm8.signExtend 64 ^^^ a))
  ∧ (∀ o : OpA4,
    EncodesA (slotA4 2 o) (.adds o)
    ∧ Result1 (.adds o) o.qp o.r1 o.r3 (fun a => o.imm14.signExtend 64 + a)
    ∧ EncodesA (slotA4 3 o) (.addp4R1Imm14R3 o)
    ∧ Result1 (.addp4R1Imm14R3 o) o.qp o.r1 o.r3 (fun a => ((o.imm14.signExtend 64 + a) &&& 0xFFFFFFFF#64) ||| (((a >>> 30) &&& 3#64) <<< 61)))
  ∧ (∀ o : OpA5,
    EncodesA (slotA5 o) (.addl o)
    ∧ Result1 (.addl o) o.qp o.r1 (o.r3.setWidth 7) (fun a => o.imm22.signExtend 64 + a))

/-- R521: the table of the register form and the whole effect of each entry. -/
def Obligations.CompareRegisters : Prop :=
  (∀ o : OpA6,
    EncodesA (slotA6 0xC 0 0 0 o) (.cmpLtP1P2R2R3 o)
    ∧ ComparesReg (.cmpLtP1P2R2R3 o) .none o (fun a b => a.slt b)
    ∧ EncodesA (slotA6 0xC 1 0 0 o) (.cmp4LtP1P2R2R3 o)
    ∧ ComparesReg (.cmp4LtP1P2R2R3 o) .none o (fun a b => (low32 a).slt (low32 b))
    ∧ EncodesA (slotA6 0xC 0 0 1 o) (.cmpLtUncP1P2R2R3 o)
    ∧ ComparesReg (.cmpLtUncP1P2R2R3 o) .unc o (fun a b => a.slt b)
    ∧ EncodesA (slotA6 0xC 1 0 1 o) (.cmp4LtUncP1P2R2R3 o)
    ∧ ComparesReg (.cmp4LtUncP1P2R2R3 o) .unc o (fun a b => (low32 a).slt (low32 b))
    ∧ EncodesA (slotA6 0xC 0 1 0 o) (.cmpEqAndP1P2R2R3 o)
    ∧ ComparesReg (.cmpEqAndP1P2R2R3 o) .and o (fun a b => a == b)
    ∧ EncodesA (slotA6 0xC 1 1 0 o) (.cmp4EqAndP1P2R2R3 o)
    ∧ ComparesReg (.cmp4EqAndP1P2R2R3 o) .and o (fun a b => (low32 a) == (low32 b))
    ∧ EncodesA (slotA6 0xC 0 1 1 o) (.cmpNeAndP1P2R2R3 o)
    ∧ ComparesReg (.cmpNeAndP1P2R2R3 o) .and o (fun a b => a != b)
    ∧ EncodesA (slotA6 0xC 1 1 1 o) (.cmp4NeAndP1P2R2R3 o)
    ∧ ComparesReg (.cmp4NeAndP1P2R2R3 o) .and o (fun a b => (low32 a) != (low32 b))
    ∧ EncodesA (slotA6 0xD 0 0 0 o) (.cmpLtuP1P2R2R3 o)
    ∧ ComparesReg (.cmpLtuP1P2R2R3 o) .none o (fun a b => a.ult b)
    ∧ EncodesA (slotA6 0xD 1 0 0 o) (.cmp4LtuP1P2R2R3 o)
    ∧ ComparesReg (.cmp4LtuP1P2R2R3 o) .none o (fun a b => (low32u a).ult (low32u b))
    ∧ EncodesA (slotA6 0xD 0 0 1 o) (.cmpLtuUncP1P2R2R3 o)
    ∧ ComparesReg (.cmpLtuUncP1P2R2R3 o) .unc o (fun a b => a.ult b)
    ∧ EncodesA (slotA6 0xD 1 0 1 o) (.cmp4LtuUncP1P2R2R3 o)
    ∧ ComparesReg (.cmp4LtuUncP1P2R2R3 o) .unc o (fun a b => (low32u a).ult (low32u b))
    ∧ EncodesA (slotA6 0xD 0 1 0 o) (.cmpEqOrP1P2R2R3 o)
    ∧ ComparesReg (.cmpEqOrP1P2R2R3 o) .or o (fun a b => a == b)
    ∧ EncodesA (slotA6 0xD 1 1 0 o) (.cmp4EqOrP1P2R2R3 o)
    ∧ ComparesReg (.cmp4EqOrP1P2R2R3 o) .or o (fun a b => (low32 a) == (low32 b))
    ∧ EncodesA (slotA6 0xD 0 1 1 o) (.cmpNeOrP1P2R2R3 o)
    ∧ ComparesReg (.cmpNeOrP1P2R2R3 o) .or o (fun a b => a != b)
    ∧ EncodesA (slotA6 0xD 1 1 1 o) (.cmp4NeOrP1P2R2R3 o)
    ∧ ComparesReg (.cmp4NeOrP1P2R2R3 o) .or o (fun a b => (low32 a) != (low32 b))
    ∧ EncodesA (slotA6 0xE 0 0 0 o) (.cmpEqP1P2R2R3 o)
    ∧ ComparesReg (.cmpEqP1P2R2R3 o) .none o (fun a b => a == b)
    ∧ EncodesA (slotA6 0xE 1 0 0 o) (.cmp4EqP1P2R2R3 o)
    ∧ ComparesReg (.cmp4EqP1P2R2R3 o) .none o (fun a b => (low32 a) == (low32 b))
    ∧ EncodesA (slotA6 0xE 0 0 1 o) (.cmpEqUncP1P2R2R3 o)
    ∧ ComparesReg (.cmpEqUncP1P2R2R3 o) .unc o (fun a b => a == b)
    ∧ EncodesA (slotA6 0xE 1 0 1 o) (.cmp4EqUncP1P2R2R3 o)
    ∧ ComparesReg (.cmp4EqUncP1P2R2R3 o) .unc o (fun a b => (low32 a) == (low32 b))
    ∧ EncodesA (slotA6 0xE 0 1 0 o) (.cmpEqOrAndcmP1P2R2R3 o)
    ∧ ComparesReg (.cmpEqOrAndcmP1P2R2R3 o) .orAndcm o (fun a b => a == b)
    ∧ EncodesA (slotA6 0xE 1 1 0 o) (.cmp4EqOrAndcmP1P2R2R3 o)
    ∧ ComparesReg (.cmp4EqOrAndcmP1P2R2R3 o) .orAndcm o (fun a b => (low32 a) == (low32 b))
    ∧ EncodesA (slotA6 0xE 0 1 1 o) (.cmpNeOrAndcmP1P2R2R3 o)
    ∧ ComparesReg (.cmpNeOrAndcmP1P2R2R3 o) .orAndcm o (fun a b => a != b)
    ∧ EncodesA (slotA6 0xE 1 1 1 o) (.cmp4NeOrAndcmP1P2R2R3 o)
    ∧ ComparesReg (.cmp4NeOrAndcmP1P2R2R3 o) .orAndcm o (fun a b => (low32 a) != (low32 b)))

/-- R522: the table of the compare-to-zero form and the whole effect of each entry. -/
def Obligations.CompareZero : Prop :=
  (∀ o : OpA7,
    EncodesA (slotA7 0xC 0 0 0 o) (.cmpGtAndP1P2R0R3 o)
    ∧ ComparesZero (.cmpGtAndP1P2R0R3 o) .and o (fun a b => b.slt a)
    ∧ EncodesA (slotA7 0xC 1 0 0 o) (.cmp4GtAndP1P2R0R3 o)
    ∧ ComparesZero (.cmp4GtAndP1P2R0R3 o) .and o (fun a b => (low32 b).slt (low32 a))
    ∧ EncodesA (slotA7 0xC 0 0 1 o) (.cmpLeAndP1P2R0R3 o)
    ∧ ComparesZero (.cmpLeAndP1P2R0R3 o) .and o (fun a b => a.sle b)
    ∧ EncodesA (slotA7 0xC 1 0 1 o) (.cmp4LeAndP1P2R0R3 o)
    ∧ ComparesZero (.cmp4LeAndP1P2R0R3 o) .and o (fun a b => (low32 a).sle (low32 b))
    ∧ EncodesA (slotA7 0xC 0 1 0 o) (.cmpGeAndP1P2R0R3 o)
    ∧ ComparesZero (.cmpGeAndP1P2R0R3 o) .and o (fun a b => b.sle a)
    ∧ EncodesA (slotA7 0xC 1 1 0 o) (.cmp4GeAndP1P2R0R3 o)
    ∧ ComparesZero (.cmp4GeAndP1P2R0R3 o) .and o (fun a b => (low32 b).sle (low32 a))
    ∧ EncodesA (slotA7 0xC 0 1 1 o) (.cmpLtAndP1P2R0R3 o)
    ∧ ComparesZero (.cmpLtAndP1P2R0R3 o) .and o (fun a b => a.slt b)
    ∧ EncodesA (slotA7 0xC 1 1 1 o) (.cmp4LtAndP1P2R0R3 o)
    ∧ ComparesZero (.cmp4LtAndP1P2R0R3 o) .and o (fun a b => (low32 a).slt (low32 b))
    ∧ EncodesA (slotA7 0xD 0 0 0 o) (.cmpGtOrP1P2R0R3 o)
    ∧ ComparesZero (.cmpGtOrP1P2R0R3 o) .or o (fun a b => b.slt a)
    ∧ EncodesA (slotA7 0xD 1 0 0 o) (.cmp4GtOrP1P2R0R3 o)
    ∧ ComparesZero (.cmp4GtOrP1P2R0R3 o) .or o (fun a b => (low32 b).slt (low32 a))
    ∧ EncodesA (slotA7 0xD 0 0 1 o) (.cmpLeOrP1P2R0R3 o)
    ∧ ComparesZero (.cmpLeOrP1P2R0R3 o) .or o (fun a b => a.sle b)
    ∧ EncodesA (slotA7 0xD 1 0 1 o) (.cmp4LeOrP1P2R0R3 o)
    ∧ ComparesZero (.cmp4LeOrP1P2R0R3 o) .or o (fun a b => (low32 a).sle (low32 b))
    ∧ EncodesA (slotA7 0xD 0 1 0 o) (.cmpGeOrP1P2R0R3 o)
    ∧ ComparesZero (.cmpGeOrP1P2R0R3 o) .or o (fun a b => b.sle a)
    ∧ EncodesA (slotA7 0xD 1 1 0 o) (.cmp4GeOrP1P2R0R3 o)
    ∧ ComparesZero (.cmp4GeOrP1P2R0R3 o) .or o (fun a b => (low32 b).sle (low32 a))
    ∧ EncodesA (slotA7 0xD 0 1 1 o) (.cmpLtOrP1P2R0R3 o)
    ∧ ComparesZero (.cmpLtOrP1P2R0R3 o) .or o (fun a b => a.slt b)
    ∧ EncodesA (slotA7 0xD 1 1 1 o) (.cmp4LtOrP1P2R0R3 o)
    ∧ ComparesZero (.cmp4LtOrP1P2R0R3 o) .or o (fun a b => (low32 a).slt (low32 b))
    ∧ EncodesA (slotA7 0xE 0 0 0 o) (.cmpGtOrAndcmP1P2R0R3 o)
    ∧ ComparesZero (.cmpGtOrAndcmP1P2R0R3 o) .orAndcm o (fun a b => b.slt a)
    ∧ EncodesA (slotA7 0xE 1 0 0 o) (.cmp4GtOrAndcmP1P2R0R3 o)
    ∧ ComparesZero (.cmp4GtOrAndcmP1P2R0R3 o) .orAndcm o (fun a b => (low32 b).slt (low32 a))
    ∧ EncodesA (slotA7 0xE 0 0 1 o) (.cmpLeOrAndcmP1P2R0R3 o)
    ∧ ComparesZero (.cmpLeOrAndcmP1P2R0R3 o) .orAndcm o (fun a b => a.sle b)
    ∧ EncodesA (slotA7 0xE 1 0 1 o) (.cmp4LeOrAndcmP1P2R0R3 o)
    ∧ ComparesZero (.cmp4LeOrAndcmP1P2R0R3 o) .orAndcm o (fun a b => (low32 a).sle (low32 b))
    ∧ EncodesA (slotA7 0xE 0 1 0 o) (.cmpGeOrAndcmP1P2R0R3 o)
    ∧ ComparesZero (.cmpGeOrAndcmP1P2R0R3 o) .orAndcm o (fun a b => b.sle a)
    ∧ EncodesA (slotA7 0xE 1 1 0 o) (.cmp4GeOrAndcmP1P2R0R3 o)
    ∧ ComparesZero (.cmp4GeOrAndcmP1P2R0R3 o) .orAndcm o (fun a b => (low32 b).sle (low32 a))
    ∧ EncodesA (slotA7 0xE 0 1 1 o) (.cmpLtOrAndcmP1P2R0R3 o)
    ∧ ComparesZero (.cmpLtOrAndcmP1P2R0R3 o) .orAndcm o (fun a b => a.slt b)
    ∧ EncodesA (slotA7 0xE 1 1 1 o) (.cmp4LtOrAndcmP1P2R0R3 o)
    ∧ ComparesZero (.cmp4LtOrAndcmP1P2R0R3 o) .orAndcm o (fun a b => (low32 a).slt (low32 b)))

/-- R523: the immediate form and the whole effect of each entry. -/
def Obligations.CompareImmediates : Prop :=
  (∀ o : OpA8,
    EncodesA (slotA8 0xC 2 0 0 o) (.cmpLtP1P2Imm8R3 o)
    ∧ ComparesImm (.cmpLtP1P2Imm8R3 o) .none o (fun a b => a.slt b)
    ∧ EncodesA (slotA8 0xC 3 0 0 o) (.cmp4LtP1P2Imm8R3 o)
    ∧ ComparesImm (.cmp4LtP1P2Imm8R3 o) .none o (fun a b => (low32 a).slt (low32 b))
    ∧ EncodesA (slotA8 0xC 2 0 1 o) (.cmpLtUncP1P2Imm8R3 o)
    ∧ ComparesImm (.cmpLtUncP1P2Imm8R3 o) .unc o (fun a b => a.slt b)
    ∧ EncodesA (slotA8 0xC 3 0 1 o) (.cmp4LtUncP1P2Imm8R3 o)
    ∧ ComparesImm (.cmp4LtUncP1P2Imm8R3 o) .unc o (fun a b => (low32 a).slt (low32 b))
    ∧ EncodesA (slotA8 0xC 2 1 0 o) (.cmpEqAndP1P2Imm8R3 o)
    ∧ ComparesImm (.cmpEqAndP1P2Imm8R3 o) .and o (fun a b => a == b)
    ∧ EncodesA (slotA8 0xC 3 1 0 o) (.cmp4EqAndP1P2Imm8R3 o)
    ∧ ComparesImm (.cmp4EqAndP1P2Imm8R3 o) .and o (fun a b => (low32 a) == (low32 b))
    ∧ EncodesA (slotA8 0xC 2 1 1 o) (.cmpNeAndP1P2Imm8R3 o)
    ∧ ComparesImm (.cmpNeAndP1P2Imm8R3 o) .and o (fun a b => a != b)
    ∧ EncodesA (slotA8 0xC 3 1 1 o) (.cmp4NeAndP1P2Imm8R3 o)
    ∧ ComparesImm (.cmp4NeAndP1P2Imm8R3 o) .and o (fun a b => (low32 a) != (low32 b))
    ∧ EncodesA (slotA8 0xD 2 0 0 o) (.cmpLtuP1P2Imm8R3 o)
    ∧ ComparesImm (.cmpLtuP1P2Imm8R3 o) .none o (fun a b => a.ult b)
    ∧ EncodesA (slotA8 0xD 3 0 0 o) (.cmp4LtuP1P2Imm8R3 o)
    ∧ ComparesImm (.cmp4LtuP1P2Imm8R3 o) .none o (fun a b => (low32u a).ult (low32u b))
    ∧ EncodesA (slotA8 0xD 2 0 1 o) (.cmpLtuUncP1P2Imm8R3 o)
    ∧ ComparesImm (.cmpLtuUncP1P2Imm8R3 o) .unc o (fun a b => a.ult b)
    ∧ EncodesA (slotA8 0xD 3 0 1 o) (.cmp4LtuUncP1P2Imm8R3 o)
    ∧ ComparesImm (.cmp4LtuUncP1P2Imm8R3 o) .unc o (fun a b => (low32u a).ult (low32u b))
    ∧ EncodesA (slotA8 0xD 2 1 0 o) (.cmpEqOrP1P2Imm8R3 o)
    ∧ ComparesImm (.cmpEqOrP1P2Imm8R3 o) .or o (fun a b => a == b)
    ∧ EncodesA (slotA8 0xD 3 1 0 o) (.cmp4EqOrP1P2Imm8R3 o)
    ∧ ComparesImm (.cmp4EqOrP1P2Imm8R3 o) .or o (fun a b => (low32 a) == (low32 b))
    ∧ EncodesA (slotA8 0xD 2 1 1 o) (.cmpNeOrP1P2Imm8R3 o)
    ∧ ComparesImm (.cmpNeOrP1P2Imm8R3 o) .or o (fun a b => a != b)
    ∧ EncodesA (slotA8 0xD 3 1 1 o) (.cmp4NeOrP1P2Imm8R3 o)
    ∧ ComparesImm (.cmp4NeOrP1P2Imm8R3 o) .or o (fun a b => (low32 a) != (low32 b))
    ∧ EncodesA (slotA8 0xE 2 0 0 o) (.cmpEqP1P2Imm8R3 o)
    ∧ ComparesImm (.cmpEqP1P2Imm8R3 o) .none o (fun a b => a == b)
    ∧ EncodesA (slotA8 0xE 3 0 0 o) (.cmp4EqP1P2Imm8R3 o)
    ∧ ComparesImm (.cmp4EqP1P2Imm8R3 o) .none o (fun a b => (low32 a) == (low32 b))
    ∧ EncodesA (slotA8 0xE 2 0 1 o) (.cmpEqUncP1P2Imm8R3 o)
    ∧ ComparesImm (.cmpEqUncP1P2Imm8R3 o) .unc o (fun a b => a == b)
    ∧ EncodesA (slotA8 0xE 3 0 1 o) (.cmp4EqUncP1P2Imm8R3 o)
    ∧ ComparesImm (.cmp4EqUncP1P2Imm8R3 o) .unc o (fun a b => (low32 a) == (low32 b))
    ∧ EncodesA (slotA8 0xE 2 1 0 o) (.cmpEqOrAndcmP1P2Imm8R3 o)
    ∧ ComparesImm (.cmpEqOrAndcmP1P2Imm8R3 o) .orAndcm o (fun a b => a == b)
    ∧ EncodesA (slotA8 0xE 3 1 0 o) (.cmp4EqOrAndcmP1P2Imm8R3 o)
    ∧ ComparesImm (.cmp4EqOrAndcmP1P2Imm8R3 o) .orAndcm o (fun a b => (low32 a) == (low32 b))
    ∧ EncodesA (slotA8 0xE 2 1 1 o) (.cmpNeOrAndcmP1P2Imm8R3 o)
    ∧ ComparesImm (.cmpNeOrAndcmP1P2Imm8R3 o) .orAndcm o (fun a b => a != b)
    ∧ EncodesA (slotA8 0xE 3 1 1 o) (.cmp4NeOrAndcmP1P2Imm8R3 o)
    ∧ ComparesImm (.cmp4NeOrAndcmP1P2Imm8R3 o) .orAndcm o (fun a b => (low32 a) != (low32 b)))

/-- R524 to R529: the encodings, the effect of every form, and each element of the result. R528 and R529 give the shift counts 1 to
3: the clause for a count of 4 is the model's choice (log 21). -/
def Obligations.ParallelArithmetic : Prop :=
  (∀ o : OpA1,
    EncodesA (slotA9 0 0 0 0 o) (.padd1 o)
    ∧ Result2 (.padd1 o) o.qp o.r1 o.r2 o.r3 (paddOf .modulo 8)
    ∧ EncodesA (slotA9 0 0 0 1 o) (.padd1Sss o)
    ∧ Result2 (.padd1Sss o) o.qp o.r1 o.r2 o.r3 (paddOf .sss 8)
    ∧ EncodesA (slotA9 0 0 0 2 o) (.padd1Uuu o)
    ∧ Result2 (.padd1Uuu o) o.qp o.r1 o.r2 o.r3 (paddOf .uuu 8)
    ∧ EncodesA (slotA9 0 0 0 3 o) (.padd1Uus o)
    ∧ Result2 (.padd1Uus o) o.qp o.r1 o.r2 o.r3 (paddOf .uus 8)
    ∧ EncodesA (slotA9 0 1 0 0 o) (.padd2 o)
    ∧ Result2 (.padd2 o) o.qp o.r1 o.r2 o.r3 (paddOf .modulo 16)
    ∧ EncodesA (slotA9 0 1 0 1 o) (.padd2Sss o)
    ∧ Result2 (.padd2Sss o) o.qp o.r1 o.r2 o.r3 (paddOf .sss 16)
    ∧ EncodesA (slotA9 0 1 0 2 o) (.padd2Uuu o)
    ∧ Result2 (.padd2Uuu o) o.qp o.r1 o.r2 o.r3 (paddOf .uuu 16)
    ∧ EncodesA (slotA9 0 1 0 3 o) (.padd2Uus o)
    ∧ Result2 (.padd2Uus o) o.qp o.r1 o.r2 o.r3 (paddOf .uus 16)
    ∧ EncodesA (slotA9 1 0 0 0 o) (.padd4 o)
    ∧ Result2 (.padd4 o) o.qp o.r1 o.r2 o.r3 (paddOf .modulo 32)
    ∧ EncodesA (slotA9 0 0 1 0 o) (.psub1 o)
    ∧ Result2 (.psub1 o) o.qp o.r1 o.r2 o.r3 (psubOf .modulo 8)
    ∧ EncodesA (slotA9 0 0 1 1 o) (.psub1Sss o)
    ∧ Result2 (.psub1Sss o) o.qp o.r1 o.r2 o.r3 (psubOf .sss 8)
    ∧ EncodesA (slotA9 0 0 1 2 o) (.psub1Uuu o)
    ∧ Result2 (.psub1Uuu o) o.qp o.r1 o.r2 o.r3 (psubOf .uuu 8)
    ∧ EncodesA (slotA9 0 0 1 3 o) (.psub1Uus o)
    ∧ Result2 (.psub1Uus o) o.qp o.r1 o.r2 o.r3 (psubOf .uus 8)
    ∧ EncodesA (slotA9 0 1 1 0 o) (.psub2 o)
    ∧ Result2 (.psub2 o) o.qp o.r1 o.r2 o.r3 (psubOf .modulo 16)
    ∧ EncodesA (slotA9 0 1 1 1 o) (.psub2Sss o)
    ∧ Result2 (.psub2Sss o) o.qp o.r1 o.r2 o.r3 (psubOf .sss 16)
    ∧ EncodesA (slotA9 0 1 1 2 o) (.psub2Uuu o)
    ∧ Result2 (.psub2Uuu o) o.qp o.r1 o.r2 o.r3 (psubOf .uuu 16)
    ∧ EncodesA (slotA9 0 1 1 3 o) (.psub2Uus o)
    ∧ Result2 (.psub2Uus o) o.qp o.r1 o.r2 o.r3 (psubOf .uus 16)
    ∧ EncodesA (slotA9 1 0 1 0 o) (.psub4 o)
    ∧ Result2 (.psub4 o) o.qp o.r1 o.r2 o.r3 (psubOf .modulo 32)
    ∧ EncodesA (slotA9 0 0 2 2 o) (.pavg1 o)
    ∧ Result2 (.pavg1 o) o.qp o.r1 o.r2 o.r3 (pavgOf false 8)
    ∧ EncodesA (slotA9 0 0 2 3 o) (.pavg1Raz o)
    ∧ Result2 (.pavg1Raz o) o.qp o.r1 o.r2 o.r3 (pavgOf true 8)
    ∧ EncodesA (slotA9 0 0 3 2 o) (.pavgsub1 o)
    ∧ Result2 (.pavgsub1 o) o.qp o.r1 o.r2 o.r3 (pavgsubOf 8)
    ∧ EncodesA (slotA9 0 1 2 2 o) (.pavg2 o)
    ∧ Result2 (.pavg2 o) o.qp o.r1 o.r2 o.r3 (pavgOf false 16)
    ∧ EncodesA (slotA9 0 1 2 3 o) (.pavg2Raz o)
    ∧ Result2 (.pavg2Raz o) o.qp o.r1 o.r2 o.r3 (pavgOf true 16)
    ∧ EncodesA (slotA9 0 1 3 2 o) (.pavgsub2 o)
    ∧ Result2 (.pavgsub2 o) o.qp o.r1 o.r2 o.r3 (pavgsubOf 16)
    ∧ EncodesA (slotA9 0 0 9 0 o) (.pcmp1Eq o)
    ∧ Result2 (.pcmp1Eq o) o.qp o.r1 o.r2 o.r3 (pcmpOf false 8)
    ∧ EncodesA (slotA9 0 0 9 1 o) (.pcmp1Gt o)
    ∧ Result2 (.pcmp1Gt o) o.qp o.r1 o.r2 o.r3 (pcmpOf true 8)
    ∧ EncodesA (slotA9 0 1 9 0 o) (.pcmp2Eq o)
    ∧ Result2 (.pcmp2Eq o) o.qp o.r1 o.r2 o.r3 (pcmpOf false 16)
    ∧ EncodesA (slotA9 0 1 9 1 o) (.pcmp2Gt o)
    ∧ Result2 (.pcmp2Gt o) o.qp o.r1 o.r2 o.r3 (pcmpOf true 16)
    ∧ EncodesA (slotA9 1 0 9 0 o) (.pcmp4Eq o)
    ∧ Result2 (.pcmp4Eq o) o.qp o.r1 o.r2 o.r3 (pcmpOf false 32)
    ∧ EncodesA (slotA9 1 0 9 1 o) (.pcmp4Gt o)
    ∧ Result2 (.pcmp4Gt o) o.qp o.r1 o.r2 o.r3 (pcmpOf true 32))
  ∧ (∀ o : OpA2,
    EncodesA (slotA10 4 o) (.pshladd2 o)
    ∧ Result2 (.pshladd2 o) o.qp o.r1 o.r2 o.r3 (pshladd2Of (o.ct2d.toNat + 1))
    ∧ EncodesA (slotA10 6 o) (.pshradd2 o)
    ∧ Result2 (.pshradd2 o) o.qp o.r1 o.r2 o.r3 (pshradd2Of (o.ct2d.toNat + 1)))
  ∧ (∀ (n : Nat) (a b : Word), (n = 8 ∨ n = 16 ∨ n = 32) → ∀ i, i < 64 / n →
    element n (paddOf .modulo n a b) i = element n a i + element n b i
    ∧ (element n (paddOf .sss n a b) i).toInt =
      clampInt (-(2 ^ (n - 1))) (2 ^ (n - 1) - 1) ((element n a i).toInt + (element n b i).toInt)
    ∧ ((element n (paddOf .uuu n a b) i).toNat : Int) =
      clampInt 0 (2 ^ n - 1) ((element n a i).toNat + (element n b i).toNat)
    ∧ ((element n (paddOf .uus n a b) i).toNat : Int) =
      clampInt 0 (2 ^ n - 1) ((element n a i).toNat + (element n b i).toInt)
    ∧ element n (psubOf .modulo n a b) i = element n a i - element n b i
    ∧ (element n (psubOf .sss n a b) i).toInt =
      clampInt (-(2 ^ (n - 1))) (2 ^ (n - 1) - 1) ((element n a i).toInt - (element n b i).toInt)
    ∧ ((element n (psubOf .uuu n a b) i).toNat : Int) =
      clampInt 0 (2 ^ n - 1) ((element n a i).toNat - (element n b i).toNat)
    ∧ ((element n (psubOf .uus n a b) i).toNat : Int) =
      clampInt 0 (2 ^ n - 1) ((element n a i).toNat - (element n b i).toInt)
    ∧ (element n (pavgOf false n a b) i).toNat =
      ((element n a i).toNat + (element n b i).toNat) / 2 ||| ((element n a i).toNat + (element n b i).toNat) % 2
    ∧ (element n (pavgOf true n a b) i).toNat = ((element n a i).toNat + (element n b i).toNat + 1) / 2
    ∧ ((element n (pavgsubOf n a b) i).toNat : Int) =
      ((((element n a i).toNat - (element n b i).toNat : Int) % 2 ^ (n + 1)) / 2).toNat
        ||| (((element n a i).toNat - (element n b i).toNat : Int) % 2).toNat
    ∧ element n (pcmpOf false n a b) i =
      (if element n a i = element n b i then BitVec.allOnes n else 0#n)
    ∧ element n (pcmpOf true n a b) i =
      (if (element n b i).toInt < (element n a i).toInt then BitVec.allOnes n else 0#n))
  ∧ (∀ (c : Nat) (a b : Word), 1 ≤ c → c ≤ 4 → ∀ i, i < 4 →
    (element 16 (pshladd2Of c a b) i).toInt =
      clampInt (-32768) 32767 (clampInt (-32768) 32767 ((element 16 a i).toInt * 2 ^ c) + (element 16 b i).toInt)
    ∧ (element 16 (pshradd2Of c a b) i).toInt =
      clampInt (-32768) 32767 ((element 16 a i).toInt / 2 ^ c + (element 16 b i).toInt))

/-- R531 to R535: the effect of the rows without an encoding, with the elements of their results; the byte orders of
`mux1` are the model's choice (log 20). -/
def Obligations.MultimediaOperations : Prop :=
  (∀ o : OpPmpy, Result2 (.pmpy2 o) o.qp o.r1 o.r2 o.r3 (pmpy2Of o.left))
  ∧ (∀ o : OpPmpyshr, o.wellFormed = true →
    Result2 (.pmpyshr2 o) o.qp o.r1 o.r2 o.r3 (pmpyshr2Of o.unsigned o.count2.toNat))
  ∧ (∀ o : OpI2, Result2 (.mixPack o) o.qp o.r1 o.r2 o.r3 (i2Of o.op))
  ∧ (∀ o : OpMux1, Result1 (.mux1 o) o.qp o.r1 o.r2 (mux1Of o.mbtype))
  ∧ (∀ o : OpMux2, Result1 (.mux2 o) o.qp o.r1 o.r2 (mux2Of o.mhtype))
  ∧ (∀ o : OpPshVar, Result2 (.pshrVar o) o.qp o.r1 o.r2 o.r3 (fun n a => pshrOf o.size o.unsigned (shiftCount n) a))
  ∧ (∀ o : OpPshrFix, Result1 (.pshrFix o) o.qp o.r1 o.r3 (pshrOf o.size o.unsigned o.count5.toNat))
  ∧ (∀ o : OpPshlVar, Result2 (.pshlVar o) o.qp o.r1 o.r2 o.r3 (fun a n => pshlOf o.size (shiftCount n) a))
  ∧ (∀ o : OpPshlFix, Result1 (.pshlFix o) o.qp o.r1 o.r2 (pshlOf o.size o.count5.toNat))
  ∧ (∀ o : OpPopcnt, Result1 (.popcnt o) o.qp o.r1 o.r3
    (fun a => BitVec.ofNat 64 ((List.range 64).countP fun i => a.getLsbD i)))
  ∧ (∀ (a b : Word) (j : Nat), j < 2 →
    (element 32 (pmpy2Of false a b) j).toInt = (element 16 a (2 * j)).toInt * (element 16 b (2 * j)).toInt
    ∧ (element 32 (pmpy2Of true a b) j).toInt = (element 16 a (2 * j + 1)).toInt * (element 16 b (2 * j + 1)).toInt)
  ∧ (∀ (a b : Word) (c i : Nat), c ≤ 16 → i < 4 →
    element 16 (pmpyshr2Of true c a b) i =
      BitVec.ofNat 16 ((element 16 a i).toNat * (element 16 b i).toNat / 2 ^ c)
    ∧ element 16 (pmpyshr2Of false c a b) i =
      BitVec.ofInt 16 ((element 16 a i).toInt * (element 16 b i).toInt / 2 ^ c))
  ∧ (∀ (a : Word) (i : Nat), i < 8 →
    element 8 (mux1Of .rev a) i = element 8 a (7 - i)
    ∧ element 8 (mux1Of .mix a) i = element 8 a ([0, 4, 2, 6, 1, 5, 3, 7].getD i 0)
    ∧ element 8 (mux1Of .shuf a) i = element 8 a ([0, 4, 1, 5, 2, 6, 3, 7].getD i 0)
    ∧ element 8 (mux1Of .alt a) i = element 8 a ([0, 2, 4, 6, 1, 3, 5, 7].getD i 0)
    ∧ element 8 (mux1Of .brcst a) i = element 8 a 0)
  ∧ (∀ (a : Word) (m : BitVec 8) (i : Nat), i < 4 →
    element 16 (mux2Of m a) i = element 16 a ((m >>> (2 * i)).setWidth 2 : BitVec 2).toNat)
  ∧ (∀ (a : Word) (c i : Nat), i < 4 →
    element 16 (pshlOf .two c a) i = element 16 a i <<< c
    ∧ element 16 (pshrOf .two true c a) i = element 16 a i >>> c
    ∧ element 16 (pshrOf .two false c a) i = (element 16 a i).sshiftRight c)
  ∧ (∀ (a : Word) (c i : Nat), i < 2 →
    element 32 (pshlOf .four c a) i = element 32 a i <<< c
    ∧ element 32 (pshrOf .four true c a) i = element 32 a i >>> c
    ∧ element 32 (pshrOf .four false c a) i = (element 32 a i).sshiftRight c)

/-- R532, element by element; which source comes first in `mix` and `unpack` is the model's choice (log 20). -/
def Obligations.ElementRearrangements : Prop :=
  (∀ (n : Nat) (mixL mixR unpackH unpackL : I2Op) (a b : Word),
    (n, mixL, mixR, unpackH, unpackL) ∈ [(8, .mix1l, .mix1r, .unpack1h, .unpack1l),
      (16, .mix2l, .mix2r, .unpack2h, .unpack2l), (32, .mix4l, .mix4r, .unpack4h, .unpack4l)] → ∀ i, i < 64 / n / 2 →
    element n (i2Of mixL a b) (2 * i) = element n b (2 * i + 1)
    ∧ element n (i2Of mixL a b) (2 * i + 1) = element n a (2 * i + 1)
    ∧ element n (i2Of mixR a b) (2 * i) = element n b (2 * i)
    ∧ element n (i2Of mixR a b) (2 * i + 1) = element n a (2 * i)
    ∧ element n (i2Of unpackH a b) (2 * i) = element n b (i + 64 / n / 2)
    ∧ element n (i2Of unpackH a b) (2 * i + 1) = element n a (i + 64 / n / 2)
    ∧ element n (i2Of unpackL a b) (2 * i) = element n b i
    ∧ element n (i2Of unpackL a b) (2 * i + 1) = element n a i)
  ∧ (∀ (a b : Word) (i : Nat), i < 4 →
    (element 8 (i2Of .pack2sss a b) i).toInt = clampInt (-128) 127 (element 16 a i).toInt
    ∧ (element 8 (i2Of .pack2sss a b) (i + 4)).toInt = clampInt (-128) 127 (element 16 b i).toInt
    ∧ ((element 8 (i2Of .pack2uss a b) i).toNat : Int) = clampInt 0 255 (element 16 a i).toInt
    ∧ ((element 8 (i2Of .pack2uss a b) (i + 4)).toNat : Int) = clampInt 0 255 (element 16 b i).toInt)
  ∧ (∀ (a b : Word) (i : Nat), i < 2 →
    (element 16 (i2Of .pack4sss a b) i).toInt = clampInt (-32768) 32767 (element 32 a i).toInt
    ∧ (element 16 (i2Of .pack4sss a b) (i + 2)).toInt = clampInt (-32768) 32767 (element 32 b i).toInt)
  ∧ (∀ (a b : Word) (i : Nat), i < 8 →
    (element 8 (i2Of .pmin1u a b) i).toNat = min (element 8 a i).toNat (element 8 b i).toNat
    ∧ (element 8 (i2Of .pmax1u a b) i).toNat = max (element 8 a i).toNat (element 8 b i).toNat)
  ∧ (∀ (a b : Word) (i : Nat), i < 4 →
    (element 16 (i2Of .pmin2 a b) i).toInt = min (element 16 a i).toInt (element 16 b i).toInt
    ∧ (element 16 (i2Of .pmax2 a b) i).toInt = max (element 16 a i).toInt (element 16 b i).toInt)
  ∧ (∀ a b : Word, (i2Of .psad1 a b).toNat =
    ((List.range 8).map fun i => ((element 8 a i).toNat - (element 8 b i).toNat : Int).natAbs).sum)

/-- R536 to R545: the encodings and the whole effect. That the bits no field of a format covers (bit 27 of I5, bit 36 of I10 to I12) are
ignored is the model's choice (log 21). -/
def Obligations.ShiftsAndFields : Prop :=
  (∀ o : OpA1,
    (∀ b27, Encodes .i (slotI5 0 2 b27 o) (.shr o))
    ∧ Result2 (.shr o) o.qp o.r1 o.r2 o.r3
      (fun n a => if 63 < n.toNat then (if a.getLsbD 63 then BitVec.allOnes 64 else 0#64) else a.sshiftRight n.toNat)
    ∧ (∀ b27, Encodes .i (slotI5 0 0 b27 o) (.shrU o))
    ∧ Result2 (.shrU o) o.qp o.r1 o.r2 o.r3 (fun n a => if 63 < n.toNat then 0#64 else a >>> n.toNat)
    ∧ (∀ b27, Encodes .i (slotI5 1 0 b27 o) (.shl o))
    ∧ Result2 (.shl o) o.qp o.r1 o.r2 o.r3 (fun a n => if 63 < n.toNat then 0#64 else a <<< n.toNat))
  ∧ (∀ o : OpI10,
    (∀ b36, Encodes .i (slotI10 b36 o) (.shrp o))
    ∧ Result2 (.shrp o) o.qp o.r1 o.r2 o.r3 (fun a b => (a ++ b).extractLsb' o.count6d.toNat 64))
  ∧ (∀ o : OpI11,
    (∀ b36, Encodes .i (slotI11 b36 1 o) (.extr o))
    ∧ Result1 (.extr o) o.qp o.r1 o.r3 (fun a =>
      (a.extractLsb' o.pos6b.toNat (min (o.len6d.toNat + 1) (64 - o.pos6b.toNat))).signExtend 64)
    ∧ (∀ b36, Encodes .i (slotI11 b36 0 o) (.extrU o))
    ∧ Result1 (.extrU o) o.qp o.r1 o.r3 (fun a =>
      (a.extractLsb' o.pos6b.toNat (min (o.len6d.toNat + 1) (64 - o.pos6b.toNat))).setWidth 64))
  ∧ (∀ o : OpI12,
    (∀ b36, Encodes .i (slotI12 b36 o) (.depZ o))
    ∧ Result1 (.depZ o) o.qp o.r1 o.r2 (fun a =>
      (a.extractLsb' 0 (o.len6d.toNat + 1)).setWidth 64 <<< (63 - o.cpos6c.toNat)))
  ∧ (∀ o : OpI13,
    Encodes .i (slotI13 o) (.depZR1Imm8 o)
    ∧ Result0 (.depZR1Imm8 o) o.qp o.r1 (fun _ =>
      ((o.imm8.signExtend 64).extractLsb' 0 (o.len6d.toNat + 1)).setWidth 64 <<< (63 - o.cpos6c.toNat)))
  ∧ (∀ o : OpI14,
    Encodes .i (slotI14 o) (.depR1Imm1R3 o)
    ∧ ∃ f, Result1 (.depR1Imm1R3 o) o.qp o.r1 o.r3 f ∧ ∀ a i, i < 64 → (f a).getLsbD i =
      if 63 - o.cpos6b.toNat ≤ i ∧ i ≤ 63 - o.cpos6b.toNat + o.len6d.toNat then o.imm1.getLsbD 0 else a.getLsbD i)
  ∧ (∀ o : OpI15,
    Encodes .i (slotI15 o) (.dep o)
    ∧ ∃ f, Result2 (.dep o) o.qp o.r1 o.r2 o.r3 f ∧ ∀ b a i, i < 64 → (f b a).getLsbD i =
      if 63 - o.cpos6d.toNat ≤ i ∧ i ≤ 63 - o.cpos6d.toNat + o.len4d.toNat then
        b.getLsbD (i - (63 - o.cpos6d.toNat)) else a.getLsbD i)

/-- R546 and R547: the table and the whole effect of each entry. -/
def Obligations.TestBits : Prop :=
  (∀ o : OpI16,
    Encodes .i (slotI16 0 0 0 o) (.tbitZ o)
    ∧ TestsBit (.tbitZ o) .none o false
    ∧ Encodes .i (slotI16 0 0 1 o) (.tbitZUnc o)
    ∧ TestsBit (.tbitZUnc o) .unc o false
    ∧ Encodes .i (slotI16 0 1 0 o) (.tbitZAnd o)
    ∧ TestsBit (.tbitZAnd o) .and o false
    ∧ Encodes .i (slotI16 0 1 1 o) (.tbitNzAnd o)
    ∧ TestsBit (.tbitNzAnd o) .and o true
    ∧ Encodes .i (slotI16 1 0 0 o) (.tbitZOr o)
    ∧ TestsBit (.tbitZOr o) .or o false
    ∧ Encodes .i (slotI16 1 0 1 o) (.tbitNzOr o)
    ∧ TestsBit (.tbitNzOr o) .or o true
    ∧ Encodes .i (slotI16 1 1 0 o) (.tbitZOrAndcm o)
    ∧ TestsBit (.tbitZOrAndcm o) .orAndcm o false
    ∧ Encodes .i (slotI16 1 1 1 o) (.tbitNzOrAndcm o)
    ∧ TestsBit (.tbitNzOrAndcm o) .orAndcm o true)
  ∧ (∀ o : OpA7,
    (∀ x, Encodes .i (slotI17 0 0 0 x o) (.tnatZ o))
    ∧ TestsNat (.tnatZ o) .none o false
    ∧ (∀ x, Encodes .i (slotI17 0 0 1 x o) (.tnatZUnc o))
    ∧ TestsNat (.tnatZUnc o) .unc o false
    ∧ (∀ x, Encodes .i (slotI17 0 1 0 x o) (.tnatZAnd o))
    ∧ TestsNat (.tnatZAnd o) .and o false
    ∧ (∀ x, Encodes .i (slotI17 0 1 1 x o) (.tnatNzAnd o))
    ∧ TestsNat (.tnatNzAnd o) .and o true
    ∧ (∀ x, Encodes .i (slotI17 1 0 0 x o) (.tnatZOr o))
    ∧ TestsNat (.tnatZOr o) .or o false
    ∧ (∀ x, Encodes .i (slotI17 1 0 1 x o) (.tnatNzOr o))
    ∧ TestsNat (.tnatNzOr o) .or o true
    ∧ (∀ x, Encodes .i (slotI17 1 1 0 x o) (.tnatZOrAndcm o))
    ∧ TestsNat (.tnatZOrAndcm o) .orAndcm o false
    ∧ (∀ x, Encodes .i (slotI17 1 1 1 x o) (.tnatNzOrAndcm o))
    ∧ TestsNat (.tnatNzOrAndcm o) .orAndcm o true)

/-- R561 to R563: the encodings and the whole effect. That bits 36 and 19:13 of I29, which no field covers, are ignored is the model's
choice (log 21). -/
def Obligations.Extensions : Prop :=
  (∀ o : OpI29,
    (∀ x y, Encodes .i (slotI29 x 0x14 y o) (.sxt1 o))
    ∧ Result1 (.sxt1 o) o.qp o.r1 o.r3 (fun a => (a.extractLsb' 0 8).signExtend 64)
    ∧ (∀ x y, Encodes .i (slotI29 x 0x15 y o) (.sxt2 o))
    ∧ Result1 (.sxt2 o) o.qp o.r1 o.r3 (fun a => (a.extractLsb' 0 16).signExtend 64)
    ∧ (∀ x y, Encodes .i (slotI29 x 0x16 y o) (.sxt4 o))
    ∧ Result1 (.sxt4 o) o.qp o.r1 o.r3 (fun a => (a.extractLsb' 0 32).signExtend 64)
    ∧ (∀ x y, Encodes .i (slotI29 x 0x10 y o) (.zxt1 o))
    ∧ Result1 (.zxt1 o) o.qp o.r1 o.r3 (fun a => (a.extractLsb' 0 8).setWidth 64)
    ∧ (∀ x y, Encodes .i (slotI29 x 0x11 y o) (.zxt2 o))
    ∧ Result1 (.zxt2 o) o.qp o.r1 o.r3 (fun a => (a.extractLsb' 0 16).setWidth 64)
    ∧ (∀ x y, Encodes .i (slotI29 x 0x12 y o) (.zxt4 o))
    ∧ Result1 (.zxt4 o) o.qp o.r1 o.r3 (fun a => (a.extractLsb' 0 32).setWidth 64)
    ∧ (∀ x y, Encodes .i (slotI29 x 0x18 y o) (.czx1L o))
    ∧ (∃ f : Word → Nat, Result1 (.czx1L o) o.qp o.r1 o.r3 (fun a => BitVec.ofNat 64 (f a)) ∧ ∀ a : Word, f a ≤ 8
      ∧ (∀ i, i < f a → element 8 a (7 - i) ≠ 0#8) ∧ (f a < 8 → element 8 a (7 - f a) = 0#8))
    ∧ (∀ x y, Encodes .i (slotI29 x 0x19 y o) (.czx2L o))
    ∧ (∃ f : Word → Nat, Result1 (.czx2L o) o.qp o.r1 o.r3 (fun a => BitVec.ofNat 64 (f a)) ∧ ∀ a : Word, f a ≤ 4
      ∧ (∀ i, i < f a → element 16 a (3 - i) ≠ 0#16) ∧ (f a < 4 → element 16 a (3 - f a) = 0#16))
    ∧ (∀ x y, Encodes .i (slotI29 x 0x1C y o) (.czx1R o))
    ∧ (∃ f : Word → Nat, Result1 (.czx1R o) o.qp o.r1 o.r3 (fun a => BitVec.ofNat 64 (f a)) ∧ ∀ a : Word, f a ≤ 8
      ∧ (∀ i, i < f a → element 8 a (i) ≠ 0#8) ∧ (f a < 8 → element 8 a (f a) = 0#8))
    ∧ (∀ x y, Encodes .i (slotI29 x 0x1D y o) (.czx2R o))
    ∧ (∃ f : Word → Nat, Result1 (.czx2R o) o.qp o.r1 o.r3 (fun a => BitVec.ofNat 64 (f a)) ∧ ∀ a : Word, f a ≤ 4
      ∧ (∀ i, i < f a → element 16 a (i) ≠ 0#16) ∧ (f a < 4 → element 16 a (f a) = 0#16)))

/-- R550 to R555: the whole effect, and the predicates one by one. -/
def Obligations.BranchAndPredicateMoves : Prop :=
  (∀ o : OpI21, Effect (.movB1R2 o) o.qp (fun s => Usable s o.r2) (fun s => s.setBr o.b1 (s.lp.gr? o.r2).val)
    ∧ Traps (.movB1R2 o) o.qp (fun s => s.lp.grReadable o.r2 = true ∧ (s.lp.gr? o.r2).nat = true)
      (fun _ => registerNatConsumption 0#64))
  ∧ (∀ o : OpI22, Result0 (.movR1B2 o) o.qp o.r1 (fun s => s.lp.br? o.b2))
  ∧ (∀ o : OpI23, Effect (.movPrR2Mask17 o) o.qp (fun s => Usable s o.r2)
      (fun s => s.setPrs (o.mask17.signExtend 64 <<< 1) (s.lp.gr? o.r2).val)
    ∧ Traps (.movPrR2Mask17 o) o.qp (fun s => s.lp.grReadable o.r2 = true ∧ (s.lp.gr? o.r2).nat = true)
      (fun _ => registerNatConsumption 0#64))
  ∧ (∀ o : OpI24, Effect (.movPrRotImm44 o) o.qp (fun _ => True)
      (fun s => s.setPrs 0xFFFFFFFFFFFF0000#64 (o.imm44.signExtend 64 <<< 16)))
  ∧ (∀ o : OpI25, Result0 (.movR1Ip o) o.qp o.r1 (fun s => s.lp.ip)
    ∧ Result0 (.movR1Pr o) o.qp o.r1 (fun s => s.lp.pr ||| 1#64))
  ∧ (∀ (s : State) (b c : BitVec 3) (v : Word),
    (s.setBr b v).lp.br? c = (if c = b then v else s.lp.br? c)
    ∧ s.setBr b v = { s with lp := { s.lp with br := (s.setBr b v).lp.br } })
  ∧ (∀ (s : State) (m v : Word) (i : Nat), i < 64 →
    (s.setPrs m v).lp.pr.getLsbD i = (if i ≠ 0 ∧ m.getLsbD i = true then v.getLsbD i else s.lp.pr.getLsbD i)
    ∧ s.setPrs m v = { s with lp := { s.lp with pr := (s.setPrs m v).lp.pr } })

/-- R556, R557, R606 and R607 with the register list of R76. The model's choices: the reserved fields of `AR.RSC`, `AR.FPSR` and
`AR.PFS` (log 3, log 16), and that an ignored register reads 0 (log 56). -/
def Obligations.ApplicationRegisters : Prop :=
  (∀ o : OpI26,
    Effect (.movIAr3R2 o) o.qp
      (fun s => Usable s o.r2 ∧ arWritable true o.ar3.toNat s = true ∧ (s.lp.gr? o.r2).val &&& arReserved o.ar3.toNat = 0#64
        ∧ (arPrivileged o.ar3.toNat = true → s.lp.cpl = 0#2))
      (fun s => setArValue s o.ar3.toNat (s.lp.gr? o.r2).val)
    ∧ Effect (.movMAr3R2 o) o.qp
      (fun s => Usable s o.r2 ∧ arWritable false o.ar3.toNat s = true ∧ (s.lp.gr? o.r2).val &&& arReserved o.ar3.toNat = 0#64
        ∧ (arPrivileged o.ar3.toNat = true → s.lp.cpl = 0#2))
      (fun s => setArValue s o.ar3.toNat (s.lp.gr? o.r2).val)
    ∧ Traps (.movIAr3R2 o) o.qp (fun s => arWritable true o.ar3.toNat s = false) (fun _ => illegalOperation)
    ∧ Traps (.movMAr3R2 o) o.qp (fun s => arWritable false o.ar3.toNat s = false) (fun _ => illegalOperation)
    ∧ Traps (.movMAr3R2 o) o.qp
      (fun s => Usable s o.r2 ∧ arWritable false o.ar3.toNat s = true ∧ (s.lp.gr? o.r2).val &&& arReserved o.ar3.toNat = 0#64
        ∧ (o.ar3.toNat < 8 ∨ o.ar3.toNat = 44 ∨ o.ar3.toNat = 45) ∧ s.lp.cpl ≠ 0#2) (fun _ => privilegedRegister)
    ∧ (∀ (iUnit : Bool) (i : Instr), i = (if iUnit then .movIAr3R2 o else .movMAr3R2 o) →
      Traps i o.qp (fun s => arWritable iUnit o.ar3.toNat s = true ∧ s.lp.grReadable o.r2 = false) (fun _ => illegalOperation)
      ∧ Traps i o.qp (fun s => arWritable iUnit o.ar3.toNat s = true ∧ s.lp.grReadable o.r2 = true
        ∧ (s.lp.gr? o.r2).nat = true) (fun _ => registerNatConsumption 0#64)
      ∧ Traps i o.qp (fun s => arWritable iUnit o.ar3.toNat s = true ∧ Usable s o.r2
        ∧ (s.lp.gr? o.r2).val &&& arReserved o.ar3.toNat ≠ 0#64) (fun _ => reservedRegisterField)))
  ∧ (∀ (o : OpI27) (iUnit : Bool) (i : Instr), i = (if iUnit then .movIAr3Imm8 o else .movMAr3Imm8 o) →
    Traps i o.qp (fun s => arWritable iUnit o.ar3.toNat s = false) (fun _ => illegalOperation)
    ∧ Traps i o.qp (fun s => arWritable iUnit o.ar3.toNat s = true
      ∧ o.imm8.signExtend 64 &&& arReserved o.ar3.toNat ≠ 0#64) (fun _ => reservedRegisterField)
    ∧ Traps i o.qp (fun s => arWritable iUnit o.ar3.toNat s = true ∧ o.imm8.signExtend 64 &&& arReserved o.ar3.toNat = 0#64
      ∧ arPrivileged o.ar3.toNat = true ∧ s.lp.cpl ≠ 0#2) (fun _ => privilegedRegister))
  ∧ (∀ (s : State) (n : Nat) (iUnit : Bool),
    (arIgnored n = true ↔ (48 ≤ n ∧ n ≤ 63) ∨ 112 ≤ n)
    ∧ (arExists n = true ↔ n < 8 ∨ n ∈ [16, 17, 18, 19, 21, 24, 25, 26, 27, 28, 29, 30, 32, 36, 40, 44, 45, 64, 65, 66]
      ∨ arIgnored n = true)
    ∧ (arWritable iUnit n s = true ↔ (if iUnit then 48 ≤ n else n < 64) ∧ arExists n = true ∧ n ≠ 17
      ∧ (n = 18 ∨ n = 19 → s.lp.ar.rsc &&& 3#64 = 0#64))
    ∧ arReserved n = (if n = 16 then 0xFFFFFFFFC000FFE0#64 else if n = 40 then 0xFC00000000000000#64
      else if n = 64 then 0x3C0FFFC000000000#64 else 0#64)
    ∧ (arPrivileged n = true ↔ n < 8 ∨ n = 44 ∨ n = 45))
  ∧ (∀ o : OpI27,
    Effect (.movIAr3Imm8 o) o.qp
      (fun s => arWritable true o.ar3.toNat s = true ∧ o.imm8.signExtend 64 &&& arReserved o.ar3.toNat = 0#64
        ∧ (arPrivileged o.ar3.toNat = true → s.lp.cpl = 0#2))
      (fun s => setArValue s o.ar3.toNat (o.imm8.signExtend 64))
    ∧ Effect (.movMAr3Imm8 o) o.qp
      (fun s => arWritable false o.ar3.toNat s = true ∧ o.imm8.signExtend 64 &&& arReserved o.ar3.toNat = 0#64
        ∧ (arPrivileged o.ar3.toNat = true → s.lp.cpl = 0#2))
      (fun s => setArValue s o.ar3.toNat (o.imm8.signExtend 64)))
  ∧ (∀ o : OpI28,
    Effect (.movIR1Ar3 o) o.qp
      (fun s => s.lp.grWritable o.r1 = true ∧ 48 ≤ o.ar3.toNat ∧ arExists o.ar3.toNat = true)
      (fun s => s.setGr o.r1 ⟨arValue s o.ar3.toNat, false⟩)
    ∧ Effect (.movMR1Ar3 o) o.qp
      (fun s => s.lp.grWritable o.r1 = true ∧ o.ar3.toNat < 64 ∧ arExists o.ar3.toNat = true
        ∧ (o.ar3.toNat = 44 ∨ o.ar3.toNat = 45 → s.lp.psrBit 23 = true → s.lp.cpl = 0#2))
      (fun s => s.setGr o.r1 ⟨arValue s o.ar3.toNat, false⟩)
    ∧ Traps (.movIR1Ar3 o) o.qp
      (fun s => s.lp.grWritable o.r1 = false ∨ o.ar3.toNat < 48 ∨ arExists o.ar3.toNat = false) (fun _ => illegalOperation)
    ∧ Traps (.movMR1Ar3 o) o.qp
      (fun s => s.lp.grWritable o.r1 = false ∨ 64 ≤ o.ar3.toNat ∨ arExists o.ar3.toNat = false) (fun _ => illegalOperation)
    ∧ Traps (.movMR1Ar3 o) o.qp
      (fun s => s.lp.grWritable o.r1 = true ∧ (o.ar3.toNat = 44 ∨ o.ar3.toNat = 45) ∧ s.lp.psrBit 23 = true
        ∧ s.lp.cpl ≠ 0#2) (fun _ => privilegedRegister))
  ∧ (∀ (s : State) (n : Nat) (v : Word), arExists n = true → arIgnored n = false → n ≠ 16 → n ≠ 17 → n ≠ 18 → n ≠ 66 →
    arValue (setArValue s n v) n = v)
  ∧ (∀ (s : State) (v : Word), arValue (setArValue s 66 v) 66 = v &&& 0x3F#64
    ∧ arValue (setArValue s 18 v) 18 = v &&& ~~~7#64)
  ∧ (∀ (s : State) (n m : Nat) (v : Word), arExists m = true → m ≠ n → ¬ (m = 17 ∧ n = 18) →
    arValue (setArValue s n v) m = arValue s m)
  ∧ (∀ (s : State) (n : Nat) (v : Word), arIgnored n = true → setArValue s n v = s ∧ arValue s n = 0#64)

/-- R580 and R582: what an integer load leaves, from memory that is plainly accessible. That the ALAT may lose an entry at
any time is R597 (log 32). That a speculative load with a NaT address and a check load that finds its entry still increment the
base is the model's choice (log 47). -/
def Obligations.IntegerLoads : Prop :=
  (∀ o : OpM1,
    LoadsInt (.ld1R1R3 o) {} 1 o.qp o.r1 o.r3 .none (fun _ => false)
    ∧ LoadsInt (.ld2R1R3 o) {} 2 o.qp o.r1 o.r3 .none (fun _ => false)
    ∧ LoadsInt (.ld4R1R3 o) {} 4 o.qp o.r1 o.r3 .none (fun _ => false)
    ∧ LoadsInt (.ld8R1R3 o) {} 8 o.qp o.r1 o.r3 .none (fun _ => false)
    ∧ LoadsInt (.ld1SR1R3 o) { spec := true } 1 o.qp o.r1 o.r3 .none (fun _ => false)
    ∧ LoadsNat (.ld1SR1R3 o) { spec := true } o.qp o.r1 o.r3 .none
    ∧ LoadsInt (.ld2SR1R3 o) { spec := true } 2 o.qp o.r1 o.r3 .none (fun _ => false)
    ∧ LoadsNat (.ld2SR1R3 o) { spec := true } o.qp o.r1 o.r3 .none
    ∧ LoadsInt (.ld4SR1R3 o) { spec := true } 4 o.qp o.r1 o.r3 .none (fun _ => false)
    ∧ LoadsNat (.ld4SR1R3 o) { spec := true } o.qp o.r1 o.r3 .none
    ∧ LoadsInt (.ld8SR1R3 o) { spec := true } 8 o.qp o.r1 o.r3 .none (fun _ => false)
    ∧ LoadsNat (.ld8SR1R3 o) { spec := true } o.qp o.r1 o.r3 .none
    ∧ LoadsInt (.ld1AR1R3 o) { adv := true } 1 o.qp o.r1 o.r3 .none (fun _ => false)
    ∧ LoadsInt (.ld2AR1R3 o) { adv := true } 2 o.qp o.r1 o.r3 .none (fun _ => false)
    ∧ LoadsInt (.ld4AR1R3 o) { adv := true } 4 o.qp o.r1 o.r3 .none (fun _ => false)
    ∧ LoadsInt (.ld8AR1R3 o) { adv := true } 8 o.qp o.r1 o.r3 .none (fun _ => false)
    ∧ LoadsInt (.ld1SaR1R3 o) { spec := true, adv := true } 1 o.qp o.r1 o.r3 .none (fun _ => false)
    ∧ LoadsNat (.ld1SaR1R3 o) { spec := true, adv := true } o.qp o.r1 o.r3 .none
    ∧ LoadsInt (.ld2SaR1R3 o) { spec := true, adv := true } 2 o.qp o.r1 o.r3 .none (fun _ => false)
    ∧ LoadsNat (.ld2SaR1R3 o) { spec := true, adv := true } o.qp o.r1 o.r3 .none
    ∧ LoadsInt (.ld4SaR1R3 o) { spec := true, adv := true } 4 o.qp o.r1 o.r3 .none (fun _ => false)
    ∧ LoadsNat (.ld4SaR1R3 o) { spec := true, adv := true } o.qp o.r1 o.r3 .none
    ∧ LoadsInt (.ld8SaR1R3 o) { spec := true, adv := true } 8 o.qp o.r1 o.r3 .none (fun _ => false)
    ∧ LoadsNat (.ld8SaR1R3 o) { spec := true, adv := true } o.qp o.r1 o.r3 .none
    ∧ LoadsInt (.ld1BiasR1R3 o) {} 1 o.qp o.r1 o.r3 .none (fun _ => false)
    ∧ LoadsInt (.ld2BiasR1R3 o) {} 2 o.qp o.r1 o.r3 .none (fun _ => false)
    ∧ LoadsInt (.ld4BiasR1R3 o) {} 4 o.qp o.r1 o.r3 .none (fun _ => false)
    ∧ LoadsInt (.ld8BiasR1R3 o) {} 8 o.qp o.r1 o.r3 .none (fun _ => false)
    ∧ LoadsInt (.ld1AcqR1R3 o) {} 1 o.qp o.r1 o.r3 .none (fun _ => false)
    ∧ LoadsInt (.ld2AcqR1R3 o) {} 2 o.qp o.r1 o.r3 .none (fun _ => false)
    ∧ LoadsInt (.ld4AcqR1R3 o) {} 4 o.qp o.r1 o.r3 .none (fun _ => false)
    ∧ LoadsInt (.ld8AcqR1R3 o) {} 8 o.qp o.r1 o.r3 .none (fun _ => false))
  ∧ (∀ o : OpM2,
    LoadsInt (.ld1R1R3R2 o) {} 1 o.qp o.r1 o.r3 (.reg o.r2) (fun _ => false)
    ∧ LoadsInt (.ld2R1R3R2 o) {} 2 o.qp o.r1 o.r3 (.reg o.r2) (fun _ => false)
    ∧ LoadsInt (.ld4R1R3R2 o) {} 4 o.qp o.r1 o.r3 (.reg o.r2) (fun _ => false)
    ∧ LoadsInt (.ld8R1R3R2 o) {} 8 o.qp o.r1 o.r3 (.reg o.r2) (fun _ => false)
    ∧ LoadsInt (.ld1SR1R3R2 o) { spec := true } 1 o.qp o.r1 o.r3 (.reg o.r2) (fun _ => false)
    ∧ LoadsNat (.ld1SR1R3R2 o) { spec := true } o.qp o.r1 o.r3 (.reg o.r2)
    ∧ LoadsInt (.ld2SR1R3R2 o) { spec := true } 2 o.qp o.r1 o.r3 (.reg o.r2) (fun _ => false)
    ∧ LoadsNat (.ld2SR1R3R2 o) { spec := true } o.qp o.r1 o.r3 (.reg o.r2)
    ∧ LoadsInt (.ld4SR1R3R2 o) { spec := true } 4 o.qp o.r1 o.r3 (.reg o.r2) (fun _ => false)
    ∧ LoadsNat (.ld4SR1R3R2 o) { spec := true } o.qp o.r1 o.r3 (.reg o.r2)
    ∧ LoadsInt (.ld8SR1R3R2 o) { spec := true } 8 o.qp o.r1 o.r3 (.reg o.r2) (fun _ => false)
    ∧ LoadsNat (.ld8SR1R3R2 o) { spec := true } o.qp o.r1 o.r3 (.reg o.r2)
    ∧ LoadsInt (.ld1AR1R3R2 o) { adv := true } 1 o.qp o.r1 o.r3 (.reg o.r2) (fun _ => false)
    ∧ LoadsInt (.ld2AR1R3R2 o) { adv := true } 2 o.qp o.r1 o.r3 (.reg o.r2) (fun _ => false)
    ∧ LoadsInt (.ld4AR1R3R2 o) { adv := true } 4 o.qp o.r1 o.r3 (.reg o.r2) (fun _ => false)
    ∧ LoadsInt (.ld8AR1R3R2 o) { adv := true } 8 o.qp o.r1 o.r3 (.reg o.r2) (fun _ => false)
    ∧ LoadsInt (.ld1SaR1R3R2 o) { spec := true, adv := true } 1 o.qp o.r1 o.r3 (.reg o.r2) (fun _ => false)
    ∧ LoadsNat (.ld1SaR1R3R2 o) { spec := true, adv := true } o.qp o.r1 o.r3 (.reg o.r2)
    ∧ LoadsInt (.ld2SaR1R3R2 o) { spec := true, adv := true } 2 o.qp o.r1 o.r3 (.reg o.r2) (fun _ => false)
    ∧ LoadsNat (.ld2SaR1R3R2 o) { spec := true, adv := true } o.qp o.r1 o.r3 (.reg o.r2)
    ∧ LoadsInt (.ld4SaR1R3R2 o) { spec := true, adv := true } 4 o.qp o.r1 o.r3 (.reg o.r2) (fun _ => false)
    ∧ LoadsNat (.ld4SaR1R3R2 o) { spec := true, adv := true } o.qp o.r1 o.r3 (.reg o.r2)
    ∧ LoadsInt (.ld8SaR1R3R2 o) { spec := true, adv := true } 8 o.qp o.r1 o.r3 (.reg o.r2) (fun _ => false)
    ∧ LoadsNat (.ld8SaR1R3R2 o) { spec := true, adv := true } o.qp o.r1 o.r3 (.reg o.r2)
    ∧ LoadsInt (.ld1BiasR1R3R2 o) {} 1 o.qp o.r1 o.r3 (.reg o.r2) (fun _ => false)
    ∧ LoadsInt (.ld2BiasR1R3R2 o) {} 2 o.qp o.r1 o.r3 (.reg o.r2) (fun _ => false)
    ∧ LoadsInt (.ld4BiasR1R3R2 o) {} 4 o.qp o.r1 o.r3 (.reg o.r2) (fun _ => false)
    ∧ LoadsInt (.ld8BiasR1R3R2 o) {} 8 o.qp o.r1 o.r3 (.reg o.r2) (fun _ => false)
    ∧ LoadsInt (.ld1AcqR1R3R2 o) {} 1 o.qp o.r1 o.r3 (.reg o.r2) (fun _ => false)
    ∧ LoadsInt (.ld2AcqR1R3R2 o) {} 2 o.qp o.r1 o.r3 (.reg o.r2) (fun _ => false)
    ∧ LoadsInt (.ld4AcqR1R3R2 o) {} 4 o.qp o.r1 o.r3 (.reg o.r2) (fun _ => false)
    ∧ LoadsInt (.ld8AcqR1R3R2 o) {} 8 o.qp o.r1 o.r3 (.reg o.r2) (fun _ => false))
  ∧ (∀ o : OpM3,
    LoadsInt (.ld1R1R3Imm9 o) {} 1 o.qp o.r1 o.r3 (.imm (o.imm9.signExtend 64)) (fun _ => false)
    ∧ LoadsInt (.ld2R1R3Imm9 o) {} 2 o.qp o.r1 o.r3 (.imm (o.imm9.signExtend 64)) (fun _ => false)
    ∧ LoadsInt (.ld4R1R3Imm9 o) {} 4 o.qp o.r1 o.r3 (.imm (o.imm9.signExtend 64)) (fun _ => false)
    ∧ LoadsInt (.ld8R1R3Imm9 o) {} 8 o.qp o.r1 o.r3 (.imm (o.imm9.signExtend 64)) (fun _ => false)
    ∧ LoadsInt (.ld1SR1R3Imm9 o) { spec := true } 1 o.qp o.r1 o.r3 (.imm (o.imm9.signExtend 64)) (fun _ => false)
    ∧ LoadsNat (.ld1SR1R3Imm9 o) { spec := true } o.qp o.r1 o.r3 (.imm (o.imm9.signExtend 64))
    ∧ LoadsInt (.ld2SR1R3Imm9 o) { spec := true } 2 o.qp o.r1 o.r3 (.imm (o.imm9.signExtend 64)) (fun _ => false)
    ∧ LoadsNat (.ld2SR1R3Imm9 o) { spec := true } o.qp o.r1 o.r3 (.imm (o.imm9.signExtend 64))
    ∧ LoadsInt (.ld4SR1R3Imm9 o) { spec := true } 4 o.qp o.r1 o.r3 (.imm (o.imm9.signExtend 64)) (fun _ => false)
    ∧ LoadsNat (.ld4SR1R3Imm9 o) { spec := true } o.qp o.r1 o.r3 (.imm (o.imm9.signExtend 64))
    ∧ LoadsInt (.ld8SR1R3Imm9 o) { spec := true } 8 o.qp o.r1 o.r3 (.imm (o.imm9.signExtend 64)) (fun _ => false)
    ∧ LoadsNat (.ld8SR1R3Imm9 o) { spec := true } o.qp o.r1 o.r3 (.imm (o.imm9.signExtend 64))
    ∧ LoadsInt (.ld1AR1R3Imm9 o) { adv := true } 1 o.qp o.r1 o.r3 (.imm (o.imm9.signExtend 64)) (fun _ => false)
    ∧ LoadsInt (.ld2AR1R3Imm9 o) { adv := true } 2 o.qp o.r1 o.r3 (.imm (o.imm9.signExtend 64)) (fun _ => false)
    ∧ LoadsInt (.ld4AR1R3Imm9 o) { adv := true } 4 o.qp o.r1 o.r3 (.imm (o.imm9.signExtend 64)) (fun _ => false)
    ∧ LoadsInt (.ld8AR1R3Imm9 o) { adv := true } 8 o.qp o.r1 o.r3 (.imm (o.imm9.signExtend 64)) (fun _ => false)
    ∧ LoadsInt (.ld1SaR1R3Imm9 o) { spec := true, adv := true } 1 o.qp o.r1 o.r3 (.imm (o.imm9.signExtend 64)) (fun _ => false)
    ∧ LoadsNat (.ld1SaR1R3Imm9 o) { spec := true, adv := true } o.qp o.r1 o.r3 (.imm (o.imm9.signExtend 64))
    ∧ LoadsInt (.ld2SaR1R3Imm9 o) { spec := true, adv := true } 2 o.qp o.r1 o.r3 (.imm (o.imm9.signExtend 64)) (fun _ => false)
    ∧ LoadsNat (.ld2SaR1R3Imm9 o) { spec := true, adv := true } o.qp o.r1 o.r3 (.imm (o.imm9.signExtend 64))
    ∧ LoadsInt (.ld4SaR1R3Imm9 o) { spec := true, adv := true } 4 o.qp o.r1 o.r3 (.imm (o.imm9.signExtend 64)) (fun _ => false)
    ∧ LoadsNat (.ld4SaR1R3Imm9 o) { spec := true, adv := true } o.qp o.r1 o.r3 (.imm (o.imm9.signExtend 64))
    ∧ LoadsInt (.ld8SaR1R3Imm9 o) { spec := true, adv := true } 8 o.qp o.r1 o.r3 (.imm (o.imm9.signExtend 64)) (fun _ => false)
    ∧ LoadsNat (.ld8SaR1R3Imm9 o) { spec := true, adv := true } o.qp o.r1 o.r3 (.imm (o.imm9.signExtend 64))
    ∧ LoadsInt (.ld1BiasR1R3Imm9 o) {} 1 o.qp o.r1 o.r3 (.imm (o.imm9.signExtend 64)) (fun _ => false)
    ∧ LoadsInt (.ld2BiasR1R3Imm9 o) {} 2 o.qp o.r1 o.r3 (.imm (o.imm9.signExtend 64)) (fun _ => false)
    ∧ LoadsInt (.ld4BiasR1R3Imm9 o) {} 4 o.qp o.r1 o.r3 (.imm (o.imm9.signExtend 64)) (fun _ => false)
    ∧ LoadsInt (.ld8BiasR1R3Imm9 o) {} 8 o.qp o.r1 o.r3 (.imm (o.imm9.signExtend 64)) (fun _ => false)
    ∧ LoadsInt (.ld1AcqR1R3Imm9 o) {} 1 o.qp o.r1 o.r3 (.imm (o.imm9.signExtend 64)) (fun _ => false)
    ∧ LoadsInt (.ld2AcqR1R3Imm9 o) {} 2 o.qp o.r1 o.r3 (.imm (o.imm9.signExtend 64)) (fun _ => false)
    ∧ LoadsInt (.ld4AcqR1R3Imm9 o) {} 4 o.qp o.r1 o.r3 (.imm (o.imm9.signExtend 64)) (fun _ => false)
    ∧ LoadsInt (.ld8AcqR1R3Imm9 o) {} 8 o.qp o.r1 o.r3 (.imm (o.imm9.signExtend 64)) (fun _ => false))
  ∧ (∀ o : OpM1,
    LoadsInt (.ld8FillR1R3 o) {} 8 o.qp o.r1 o.r3 .none (fun s => s.lp.ar.unat.getLsbD ((s.lp.gr? o.r3).val.toNat / 8 % 64))
    ∧ Loads16 (.ld16R1ArCsdR3 o) o.qp o.r1 o.r3
    ∧ Loads16 (.ld16AcqR1ArCsdR3 o) o.qp o.r1 o.r3)
  ∧ (∀ o : OpM2,
    LoadsInt (.ld8FillR1R3R2 o) {} 8 o.qp o.r1 o.r3 (.reg o.r2) (fun s => s.lp.ar.unat.getLsbD ((s.lp.gr? o.r3).val.toNat / 8 % 64)))
  ∧ (∀ o : OpM3,
    LoadsInt (.ld8FillR1R3Imm9 o) {} 8 o.qp o.r1 o.r3 (.imm (o.imm9.signExtend 64)) (fun s => s.lp.ar.unat.getLsbD ((s.lp.gr? o.r3).val.toNat / 8 % 64)))
  ∧ (∀ o : OpM1,
    LoadsInt (.ld1CClrR1R3 o) { check := true, clr := true } 1 o.qp o.r1 o.r3 .none (fun _ => false)
    ∧ ChecksLoad (.ld1CClrR1R3 o) true 1 o.qp o.r1 o.r3 .none
    ∧ LoadsInt (.ld2CClrR1R3 o) { check := true, clr := true } 2 o.qp o.r1 o.r3 .none (fun _ => false)
    ∧ ChecksLoad (.ld2CClrR1R3 o) true 2 o.qp o.r1 o.r3 .none
    ∧ LoadsInt (.ld4CClrR1R3 o) { check := true, clr := true } 4 o.qp o.r1 o.r3 .none (fun _ => false)
    ∧ ChecksLoad (.ld4CClrR1R3 o) true 4 o.qp o.r1 o.r3 .none
    ∧ LoadsInt (.ld8CClrR1R3 o) { check := true, clr := true } 8 o.qp o.r1 o.r3 .none (fun _ => false)
    ∧ ChecksLoad (.ld8CClrR1R3 o) true 8 o.qp o.r1 o.r3 .none
    ∧ LoadsInt (.ld1CNcR1R3 o) { check := true } 1 o.qp o.r1 o.r3 .none (fun _ => false)
    ∧ ChecksLoad (.ld1CNcR1R3 o) false 1 o.qp o.r1 o.r3 .none
    ∧ LoadsInt (.ld2CNcR1R3 o) { check := true } 2 o.qp o.r1 o.r3 .none (fun _ => false)
    ∧ ChecksLoad (.ld2CNcR1R3 o) false 2 o.qp o.r1 o.r3 .none
    ∧ LoadsInt (.ld4CNcR1R3 o) { check := true } 4 o.qp o.r1 o.r3 .none (fun _ => false)
    ∧ ChecksLoad (.ld4CNcR1R3 o) false 4 o.qp o.r1 o.r3 .none
    ∧ LoadsInt (.ld8CNcR1R3 o) { check := true } 8 o.qp o.r1 o.r3 .none (fun _ => false)
    ∧ ChecksLoad (.ld8CNcR1R3 o) false 8 o.qp o.r1 o.r3 .none
    ∧ LoadsInt (.ld1CClrAcqR1R3 o) { check := true, clr := true } 1 o.qp o.r1 o.r3 .none (fun _ => false)
    ∧ ChecksLoad (.ld1CClrAcqR1R3 o) true 1 o.qp o.r1 o.r3 .none
    ∧ LoadsInt (.ld2CClrAcqR1R3 o) { check := true, clr := true } 2 o.qp o.r1 o.r3 .none (fun _ => false)
    ∧ ChecksLoad (.ld2CClrAcqR1R3 o) true 2 o.qp o.r1 o.r3 .none
    ∧ LoadsInt (.ld4CClrAcqR1R3 o) { check := true, clr := true } 4 o.qp o.r1 o.r3 .none (fun _ => false)
    ∧ ChecksLoad (.ld4CClrAcqR1R3 o) true 4 o.qp o.r1 o.r3 .none
    ∧ LoadsInt (.ld8CClrAcqR1R3 o) { check := true, clr := true } 8 o.qp o.r1 o.r3 .none (fun _ => false)
    ∧ ChecksLoad (.ld8CClrAcqR1R3 o) true 8 o.qp o.r1 o.r3 .none)
  ∧ (∀ o : OpM2,
    LoadsInt (.ld1CClrR1R3R2 o) { check := true, clr := true } 1 o.qp o.r1 o.r3 (.reg o.r2) (fun _ => false)
    ∧ ChecksLoad (.ld1CClrR1R3R2 o) true 1 o.qp o.r1 o.r3 (.reg o.r2)
    ∧ LoadsInt (.ld2CClrR1R3R2 o) { check := true, clr := true } 2 o.qp o.r1 o.r3 (.reg o.r2) (fun _ => false)
    ∧ ChecksLoad (.ld2CClrR1R3R2 o) true 2 o.qp o.r1 o.r3 (.reg o.r2)
    ∧ LoadsInt (.ld4CClrR1R3R2 o) { check := true, clr := true } 4 o.qp o.r1 o.r3 (.reg o.r2) (fun _ => false)
    ∧ ChecksLoad (.ld4CClrR1R3R2 o) true 4 o.qp o.r1 o.r3 (.reg o.r2)
    ∧ LoadsInt (.ld8CClrR1R3R2 o) { check := true, clr := true } 8 o.qp o.r1 o.r3 (.reg o.r2) (fun _ => false)
    ∧ ChecksLoad (.ld8CClrR1R3R2 o) true 8 o.qp o.r1 o.r3 (.reg o.r2)
    ∧ LoadsInt (.ld1CNcR1R3R2 o) { check := true } 1 o.qp o.r1 o.r3 (.reg o.r2) (fun _ => false)
    ∧ ChecksLoad (.ld1CNcR1R3R2 o) false 1 o.qp o.r1 o.r3 (.reg o.r2)
    ∧ LoadsInt (.ld2CNcR1R3R2 o) { check := true } 2 o.qp o.r1 o.r3 (.reg o.r2) (fun _ => false)
    ∧ ChecksLoad (.ld2CNcR1R3R2 o) false 2 o.qp o.r1 o.r3 (.reg o.r2)
    ∧ LoadsInt (.ld4CNcR1R3R2 o) { check := true } 4 o.qp o.r1 o.r3 (.reg o.r2) (fun _ => false)
    ∧ ChecksLoad (.ld4CNcR1R3R2 o) false 4 o.qp o.r1 o.r3 (.reg o.r2)
    ∧ LoadsInt (.ld8CNcR1R3R2 o) { check := true } 8 o.qp o.r1 o.r3 (.reg o.r2) (fun _ => false)
    ∧ ChecksLoad (.ld8CNcR1R3R2 o) false 8 o.qp o.r1 o.r3 (.reg o.r2)
    ∧ LoadsInt (.ld1CClrAcqR1R3R2 o) { check := true, clr := true } 1 o.qp o.r1 o.r3 (.reg o.r2) (fun _ => false)
    ∧ ChecksLoad (.ld1CClrAcqR1R3R2 o) true 1 o.qp o.r1 o.r3 (.reg o.r2)
    ∧ LoadsInt (.ld2CClrAcqR1R3R2 o) { check := true, clr := true } 2 o.qp o.r1 o.r3 (.reg o.r2) (fun _ => false)
    ∧ ChecksLoad (.ld2CClrAcqR1R3R2 o) true 2 o.qp o.r1 o.r3 (.reg o.r2)
    ∧ LoadsInt (.ld4CClrAcqR1R3R2 o) { check := true, clr := true } 4 o.qp o.r1 o.r3 (.reg o.r2) (fun _ => false)
    ∧ ChecksLoad (.ld4CClrAcqR1R3R2 o) true 4 o.qp o.r1 o.r3 (.reg o.r2)
    ∧ LoadsInt (.ld8CClrAcqR1R3R2 o) { check := true, clr := true } 8 o.qp o.r1 o.r3 (.reg o.r2) (fun _ => false)
    ∧ ChecksLoad (.ld8CClrAcqR1R3R2 o) true 8 o.qp o.r1 o.r3 (.reg o.r2))
  ∧ (∀ o : OpM3,
    LoadsInt (.ld1CClrR1R3Imm9 o) { check := true, clr := true } 1 o.qp o.r1 o.r3 (.imm (o.imm9.signExtend 64)) (fun _ => false)
    ∧ ChecksLoad (.ld1CClrR1R3Imm9 o) true 1 o.qp o.r1 o.r3 (.imm (o.imm9.signExtend 64))
    ∧ LoadsInt (.ld2CClrR1R3Imm9 o) { check := true, clr := true } 2 o.qp o.r1 o.r3 (.imm (o.imm9.signExtend 64)) (fun _ => false)
    ∧ ChecksLoad (.ld2CClrR1R3Imm9 o) true 2 o.qp o.r1 o.r3 (.imm (o.imm9.signExtend 64))
    ∧ LoadsInt (.ld4CClrR1R3Imm9 o) { check := true, clr := true } 4 o.qp o.r1 o.r3 (.imm (o.imm9.signExtend 64)) (fun _ => false)
    ∧ ChecksLoad (.ld4CClrR1R3Imm9 o) true 4 o.qp o.r1 o.r3 (.imm (o.imm9.signExtend 64))
    ∧ LoadsInt (.ld8CClrR1R3Imm9 o) { check := true, clr := true } 8 o.qp o.r1 o.r3 (.imm (o.imm9.signExtend 64)) (fun _ => false)
    ∧ ChecksLoad (.ld8CClrR1R3Imm9 o) true 8 o.qp o.r1 o.r3 (.imm (o.imm9.signExtend 64))
    ∧ LoadsInt (.ld1CNcR1R3Imm9 o) { check := true } 1 o.qp o.r1 o.r3 (.imm (o.imm9.signExtend 64)) (fun _ => false)
    ∧ ChecksLoad (.ld1CNcR1R3Imm9 o) false 1 o.qp o.r1 o.r3 (.imm (o.imm9.signExtend 64))
    ∧ LoadsInt (.ld2CNcR1R3Imm9 o) { check := true } 2 o.qp o.r1 o.r3 (.imm (o.imm9.signExtend 64)) (fun _ => false)
    ∧ ChecksLoad (.ld2CNcR1R3Imm9 o) false 2 o.qp o.r1 o.r3 (.imm (o.imm9.signExtend 64))
    ∧ LoadsInt (.ld4CNcR1R3Imm9 o) { check := true } 4 o.qp o.r1 o.r3 (.imm (o.imm9.signExtend 64)) (fun _ => false)
    ∧ ChecksLoad (.ld4CNcR1R3Imm9 o) false 4 o.qp o.r1 o.r3 (.imm (o.imm9.signExtend 64))
    ∧ LoadsInt (.ld8CNcR1R3Imm9 o) { check := true } 8 o.qp o.r1 o.r3 (.imm (o.imm9.signExtend 64)) (fun _ => false)
    ∧ ChecksLoad (.ld8CNcR1R3Imm9 o) false 8 o.qp o.r1 o.r3 (.imm (o.imm9.signExtend 64))
    ∧ LoadsInt (.ld1CClrAcqR1R3Imm9 o) { check := true, clr := true } 1 o.qp o.r1 o.r3 (.imm (o.imm9.signExtend 64)) (fun _ => false)
    ∧ ChecksLoad (.ld1CClrAcqR1R3Imm9 o) true 1 o.qp o.r1 o.r3 (.imm (o.imm9.signExtend 64))
    ∧ LoadsInt (.ld2CClrAcqR1R3Imm9 o) { check := true, clr := true } 2 o.qp o.r1 o.r3 (.imm (o.imm9.signExtend 64)) (fun _ => false)
    ∧ ChecksLoad (.ld2CClrAcqR1R3Imm9 o) true 2 o.qp o.r1 o.r3 (.imm (o.imm9.signExtend 64))
    ∧ LoadsInt (.ld4CClrAcqR1R3Imm9 o) { check := true, clr := true } 4 o.qp o.r1 o.r3 (.imm (o.imm9.signExtend 64)) (fun _ => false)
    ∧ ChecksLoad (.ld4CClrAcqR1R3Imm9 o) true 4 o.qp o.r1 o.r3 (.imm (o.imm9.signExtend 64))
    ∧ LoadsInt (.ld8CClrAcqR1R3Imm9 o) { check := true, clr := true } 8 o.qp o.r1 o.r3 (.imm (o.imm9.signExtend 64)) (fun _ => false)
    ∧ ChecksLoad (.ld8CClrAcqR1R3Imm9 o) true 8 o.qp o.r1 o.r3 (.imm (o.imm9.signExtend 64)))

/-- R580, R583 and R1311: the operands on which an integer load or store traps. -/
def Obligations.IntegerOperandTraps : Prop :=
  (∀ o : OpM1,
    Traps (.ld1R1R3 o) o.qp (fun s => s.lp.grWritable o.r1 = false) (fun _ => illegalOperation)
    ∧ Traps (.ld1R1R3 o) o.qp (fun s => s.lp.grWritable o.r1 = true ∧ s.lp.grReadable o.r3 = true ∧ IncOk s o.r3 .none
      ∧ (s.lp.gr? o.r3).nat = true) (fun _ => registerNatConsumption (accessBits .read))
    ∧ Skips (.ld1R1R3 o) o.qp
    ∧ Traps (.ld2R1R3 o) o.qp (fun s => s.lp.grWritable o.r1 = false) (fun _ => illegalOperation)
    ∧ Traps (.ld2R1R3 o) o.qp (fun s => s.lp.grWritable o.r1 = true ∧ s.lp.grReadable o.r3 = true ∧ IncOk s o.r3 .none
      ∧ (s.lp.gr? o.r3).nat = true) (fun _ => registerNatConsumption (accessBits .read))
    ∧ Skips (.ld2R1R3 o) o.qp
    ∧ Traps (.ld4R1R3 o) o.qp (fun s => s.lp.grWritable o.r1 = false) (fun _ => illegalOperation)
    ∧ Traps (.ld4R1R3 o) o.qp (fun s => s.lp.grWritable o.r1 = true ∧ s.lp.grReadable o.r3 = true ∧ IncOk s o.r3 .none
      ∧ (s.lp.gr? o.r3).nat = true) (fun _ => registerNatConsumption (accessBits .read))
    ∧ Skips (.ld4R1R3 o) o.qp
    ∧ Traps (.ld8R1R3 o) o.qp (fun s => s.lp.grWritable o.r1 = false) (fun _ => illegalOperation)
    ∧ Traps (.ld8R1R3 o) o.qp (fun s => s.lp.grWritable o.r1 = true ∧ s.lp.grReadable o.r3 = true ∧ IncOk s o.r3 .none
      ∧ (s.lp.gr? o.r3).nat = true) (fun _ => registerNatConsumption (accessBits .read))
    ∧ Skips (.ld8R1R3 o) o.qp
    ∧ Traps (.ld1SR1R3 o) o.qp (fun s => s.lp.grWritable o.r1 = false) (fun _ => illegalOperation)
    ∧ Skips (.ld1SR1R3 o) o.qp
    ∧ Traps (.ld2SR1R3 o) o.qp (fun s => s.lp.grWritable o.r1 = false) (fun _ => illegalOperation)
    ∧ Skips (.ld2SR1R3 o) o.qp
    ∧ Traps (.ld4SR1R3 o) o.qp (fun s => s.lp.grWritable o.r1 = false) (fun _ => illegalOperation)
    ∧ Skips (.ld4SR1R3 o) o.qp
    ∧ Traps (.ld8SR1R3 o) o.qp (fun s => s.lp.grWritable o.r1 = false) (fun _ => illegalOperation)
    ∧ Skips (.ld8SR1R3 o) o.qp
    ∧ Traps (.ld1AR1R3 o) o.qp (fun s => s.lp.grWritable o.r1 = false) (fun _ => illegalOperation)
    ∧ Traps (.ld1AR1R3 o) o.qp (fun s => s.lp.grWritable o.r1 = true ∧ s.lp.grReadable o.r3 = true ∧ IncOk s o.r3 .none
      ∧ (s.lp.gr? o.r3).nat = true) (fun _ => registerNatConsumption (accessBits .read))
    ∧ Skips (.ld1AR1R3 o) o.qp
    ∧ Traps (.ld2AR1R3 o) o.qp (fun s => s.lp.grWritable o.r1 = false) (fun _ => illegalOperation)
    ∧ Traps (.ld2AR1R3 o) o.qp (fun s => s.lp.grWritable o.r1 = true ∧ s.lp.grReadable o.r3 = true ∧ IncOk s o.r3 .none
      ∧ (s.lp.gr? o.r3).nat = true) (fun _ => registerNatConsumption (accessBits .read))
    ∧ Skips (.ld2AR1R3 o) o.qp
    ∧ Traps (.ld4AR1R3 o) o.qp (fun s => s.lp.grWritable o.r1 = false) (fun _ => illegalOperation)
    ∧ Traps (.ld4AR1R3 o) o.qp (fun s => s.lp.grWritable o.r1 = true ∧ s.lp.grReadable o.r3 = true ∧ IncOk s o.r3 .none
      ∧ (s.lp.gr? o.r3).nat = true) (fun _ => registerNatConsumption (accessBits .read))
    ∧ Skips (.ld4AR1R3 o) o.qp
    ∧ Traps (.ld8AR1R3 o) o.qp (fun s => s.lp.grWritable o.r1 = false) (fun _ => illegalOperation)
    ∧ Traps (.ld8AR1R3 o) o.qp (fun s => s.lp.grWritable o.r1 = true ∧ s.lp.grReadable o.r3 = true ∧ IncOk s o.r3 .none
      ∧ (s.lp.gr? o.r3).nat = true) (fun _ => registerNatConsumption (accessBits .read))
    ∧ Skips (.ld8AR1R3 o) o.qp
    ∧ Traps (.ld1SaR1R3 o) o.qp (fun s => s.lp.grWritable o.r1 = false) (fun _ => illegalOperation)
    ∧ Skips (.ld1SaR1R3 o) o.qp
    ∧ Traps (.ld2SaR1R3 o) o.qp (fun s => s.lp.grWritable o.r1 = false) (fun _ => illegalOperation)
    ∧ Skips (.ld2SaR1R3 o) o.qp
    ∧ Traps (.ld4SaR1R3 o) o.qp (fun s => s.lp.grWritable o.r1 = false) (fun _ => illegalOperation)
    ∧ Skips (.ld4SaR1R3 o) o.qp
    ∧ Traps (.ld8SaR1R3 o) o.qp (fun s => s.lp.grWritable o.r1 = false) (fun _ => illegalOperation)
    ∧ Skips (.ld8SaR1R3 o) o.qp
    ∧ Traps (.ld1BiasR1R3 o) o.qp (fun s => s.lp.grWritable o.r1 = false) (fun _ => illegalOperation)
    ∧ Traps (.ld1BiasR1R3 o) o.qp (fun s => s.lp.grWritable o.r1 = true ∧ s.lp.grReadable o.r3 = true ∧ IncOk s o.r3 .none
      ∧ (s.lp.gr? o.r3).nat = true) (fun _ => registerNatConsumption (accessBits .read))
    ∧ Skips (.ld1BiasR1R3 o) o.qp
    ∧ Traps (.ld2BiasR1R3 o) o.qp (fun s => s.lp.grWritable o.r1 = false) (fun _ => illegalOperation)
    ∧ Traps (.ld2BiasR1R3 o) o.qp (fun s => s.lp.grWritable o.r1 = true ∧ s.lp.grReadable o.r3 = true ∧ IncOk s o.r3 .none
      ∧ (s.lp.gr? o.r3).nat = true) (fun _ => registerNatConsumption (accessBits .read))
    ∧ Skips (.ld2BiasR1R3 o) o.qp
    ∧ Traps (.ld4BiasR1R3 o) o.qp (fun s => s.lp.grWritable o.r1 = false) (fun _ => illegalOperation)
    ∧ Traps (.ld4BiasR1R3 o) o.qp (fun s => s.lp.grWritable o.r1 = true ∧ s.lp.grReadable o.r3 = true ∧ IncOk s o.r3 .none
      ∧ (s.lp.gr? o.r3).nat = true) (fun _ => registerNatConsumption (accessBits .read))
    ∧ Skips (.ld4BiasR1R3 o) o.qp
    ∧ Traps (.ld8BiasR1R3 o) o.qp (fun s => s.lp.grWritable o.r1 = false) (fun _ => illegalOperation)
    ∧ Traps (.ld8BiasR1R3 o) o.qp (fun s => s.lp.grWritable o.r1 = true ∧ s.lp.grReadable o.r3 = true ∧ IncOk s o.r3 .none
      ∧ (s.lp.gr? o.r3).nat = true) (fun _ => registerNatConsumption (accessBits .read))
    ∧ Skips (.ld8BiasR1R3 o) o.qp
    ∧ Traps (.ld1AcqR1R3 o) o.qp (fun s => s.lp.grWritable o.r1 = false) (fun _ => illegalOperation)
    ∧ Traps (.ld1AcqR1R3 o) o.qp (fun s => s.lp.grWritable o.r1 = true ∧ s.lp.grReadable o.r3 = true ∧ IncOk s o.r3 .none
      ∧ (s.lp.gr? o.r3).nat = true) (fun _ => registerNatConsumption (accessBits .read))
    ∧ Skips (.ld1AcqR1R3 o) o.qp
    ∧ Traps (.ld2AcqR1R3 o) o.qp (fun s => s.lp.grWritable o.r1 = false) (fun _ => illegalOperation)
    ∧ Traps (.ld2AcqR1R3 o) o.qp (fun s => s.lp.grWritable o.r1 = true ∧ s.lp.grReadable o.r3 = true ∧ IncOk s o.r3 .none
      ∧ (s.lp.gr? o.r3).nat = true) (fun _ => registerNatConsumption (accessBits .read))
    ∧ Skips (.ld2AcqR1R3 o) o.qp
    ∧ Traps (.ld4AcqR1R3 o) o.qp (fun s => s.lp.grWritable o.r1 = false) (fun _ => illegalOperation)
    ∧ Traps (.ld4AcqR1R3 o) o.qp (fun s => s.lp.grWritable o.r1 = true ∧ s.lp.grReadable o.r3 = true ∧ IncOk s o.r3 .none
      ∧ (s.lp.gr? o.r3).nat = true) (fun _ => registerNatConsumption (accessBits .read))
    ∧ Skips (.ld4AcqR1R3 o) o.qp
    ∧ Traps (.ld8AcqR1R3 o) o.qp (fun s => s.lp.grWritable o.r1 = false) (fun _ => illegalOperation)
    ∧ Traps (.ld8AcqR1R3 o) o.qp (fun s => s.lp.grWritable o.r1 = true ∧ s.lp.grReadable o.r3 = true ∧ IncOk s o.r3 .none
      ∧ (s.lp.gr? o.r3).nat = true) (fun _ => registerNatConsumption (accessBits .read))
    ∧ Skips (.ld8AcqR1R3 o) o.qp
    ∧ Traps (.ld1CClrR1R3 o) o.qp (fun s => s.lp.grWritable o.r1 = false) (fun _ => illegalOperation)
    ∧ Traps (.ld1CClrR1R3 o) o.qp (fun s => s.lp.grWritable o.r1 = true ∧ s.lp.grReadable o.r3 = true ∧ IncOk s o.r3 .none
      ∧ (s.lp.gr? o.r3).nat = true) (fun _ => registerNatConsumption (accessBits .read))
    ∧ Skips (.ld1CClrR1R3 o) o.qp
    ∧ Traps (.ld2CClrR1R3 o) o.qp (fun s => s.lp.grWritable o.r1 = false) (fun _ => illegalOperation)
    ∧ Traps (.ld2CClrR1R3 o) o.qp (fun s => s.lp.grWritable o.r1 = true ∧ s.lp.grReadable o.r3 = true ∧ IncOk s o.r3 .none
      ∧ (s.lp.gr? o.r3).nat = true) (fun _ => registerNatConsumption (accessBits .read))
    ∧ Skips (.ld2CClrR1R3 o) o.qp
    ∧ Traps (.ld4CClrR1R3 o) o.qp (fun s => s.lp.grWritable o.r1 = false) (fun _ => illegalOperation)
    ∧ Traps (.ld4CClrR1R3 o) o.qp (fun s => s.lp.grWritable o.r1 = true ∧ s.lp.grReadable o.r3 = true ∧ IncOk s o.r3 .none
      ∧ (s.lp.gr? o.r3).nat = true) (fun _ => registerNatConsumption (accessBits .read))
    ∧ Skips (.ld4CClrR1R3 o) o.qp
    ∧ Traps (.ld8CClrR1R3 o) o.qp (fun s => s.lp.grWritable o.r1 = false) (fun _ => illegalOperation)
    ∧ Traps (.ld8CClrR1R3 o) o.qp (fun s => s.lp.grWritable o.r1 = true ∧ s.lp.grReadable o.r3 = true ∧ IncOk s o.r3 .none
      ∧ (s.lp.gr? o.r3).nat = true) (fun _ => registerNatConsumption (accessBits .read))
    ∧ Skips (.ld8CClrR1R3 o) o.qp
    ∧ Traps (.ld1CNcR1R3 o) o.qp (fun s => s.lp.grWritable o.r1 = false) (fun _ => illegalOperation)
    ∧ Traps (.ld1CNcR1R3 o) o.qp (fun s => s.lp.grWritable o.r1 = true ∧ s.lp.grReadable o.r3 = true ∧ IncOk s o.r3 .none
      ∧ (s.lp.gr? o.r3).nat = true) (fun _ => registerNatConsumption (accessBits .read))
    ∧ Skips (.ld1CNcR1R3 o) o.qp
    ∧ Traps (.ld2CNcR1R3 o) o.qp (fun s => s.lp.grWritable o.r1 = false) (fun _ => illegalOperation)
    ∧ Traps (.ld2CNcR1R3 o) o.qp (fun s => s.lp.grWritable o.r1 = true ∧ s.lp.grReadable o.r3 = true ∧ IncOk s o.r3 .none
      ∧ (s.lp.gr? o.r3).nat = true) (fun _ => registerNatConsumption (accessBits .read))
    ∧ Skips (.ld2CNcR1R3 o) o.qp
    ∧ Traps (.ld4CNcR1R3 o) o.qp (fun s => s.lp.grWritable o.r1 = false) (fun _ => illegalOperation)
    ∧ Traps (.ld4CNcR1R3 o) o.qp (fun s => s.lp.grWritable o.r1 = true ∧ s.lp.grReadable o.r3 = true ∧ IncOk s o.r3 .none
      ∧ (s.lp.gr? o.r3).nat = true) (fun _ => registerNatConsumption (accessBits .read))
    ∧ Skips (.ld4CNcR1R3 o) o.qp
    ∧ Traps (.ld8CNcR1R3 o) o.qp (fun s => s.lp.grWritable o.r1 = false) (fun _ => illegalOperation)
    ∧ Traps (.ld8CNcR1R3 o) o.qp (fun s => s.lp.grWritable o.r1 = true ∧ s.lp.grReadable o.r3 = true ∧ IncOk s o.r3 .none
      ∧ (s.lp.gr? o.r3).nat = true) (fun _ => registerNatConsumption (accessBits .read))
    ∧ Skips (.ld8CNcR1R3 o) o.qp
    ∧ Traps (.ld1CClrAcqR1R3 o) o.qp (fun s => s.lp.grWritable o.r1 = false) (fun _ => illegalOperation)
    ∧ Traps (.ld1CClrAcqR1R3 o) o.qp (fun s => s.lp.grWritable o.r1 = true ∧ s.lp.grReadable o.r3 = true ∧ IncOk s o.r3 .none
      ∧ (s.lp.gr? o.r3).nat = true) (fun _ => registerNatConsumption (accessBits .read))
    ∧ Skips (.ld1CClrAcqR1R3 o) o.qp
    ∧ Traps (.ld2CClrAcqR1R3 o) o.qp (fun s => s.lp.grWritable o.r1 = false) (fun _ => illegalOperation)
    ∧ Traps (.ld2CClrAcqR1R3 o) o.qp (fun s => s.lp.grWritable o.r1 = true ∧ s.lp.grReadable o.r3 = true ∧ IncOk s o.r3 .none
      ∧ (s.lp.gr? o.r3).nat = true) (fun _ => registerNatConsumption (accessBits .read))
    ∧ Skips (.ld2CClrAcqR1R3 o) o.qp
    ∧ Traps (.ld4CClrAcqR1R3 o) o.qp (fun s => s.lp.grWritable o.r1 = false) (fun _ => illegalOperation)
    ∧ Traps (.ld4CClrAcqR1R3 o) o.qp (fun s => s.lp.grWritable o.r1 = true ∧ s.lp.grReadable o.r3 = true ∧ IncOk s o.r3 .none
      ∧ (s.lp.gr? o.r3).nat = true) (fun _ => registerNatConsumption (accessBits .read))
    ∧ Skips (.ld4CClrAcqR1R3 o) o.qp
    ∧ Traps (.ld8CClrAcqR1R3 o) o.qp (fun s => s.lp.grWritable o.r1 = false) (fun _ => illegalOperation)
    ∧ Traps (.ld8CClrAcqR1R3 o) o.qp (fun s => s.lp.grWritable o.r1 = true ∧ s.lp.grReadable o.r3 = true ∧ IncOk s o.r3 .none
      ∧ (s.lp.gr? o.r3).nat = true) (fun _ => registerNatConsumption (accessBits .read))
    ∧ Skips (.ld8CClrAcqR1R3 o) o.qp
    ∧ Traps (.ld8FillR1R3 o) o.qp (fun s => s.lp.grWritable o.r1 = false) (fun _ => illegalOperation)
    ∧ Traps (.ld8FillR1R3 o) o.qp (fun s => s.lp.grWritable o.r1 = true ∧ s.lp.grReadable o.r3 = true ∧ IncOk s o.r3 .none
      ∧ (s.lp.gr? o.r3).nat = true) (fun _ => registerNatConsumption (accessBits .read))
    ∧ Skips (.ld8FillR1R3 o) o.qp)
  ∧ (∀ o : OpM2,
    Traps (.ld1R1R3R2 o) o.qp (fun s => s.lp.grWritable o.r1 = false ∨ s.lp.grWritable o.r3 = false ∨ o.r1 = o.r3)
      (fun _ => illegalOperation)
    ∧ Traps (.ld1R1R3R2 o) o.qp (fun s => s.lp.grWritable o.r1 = true ∧ s.lp.grReadable o.r3 = true ∧ IncOk s o.r3 (.reg o.r2) ∧ o.r1 ≠ o.r3
      ∧ (s.lp.gr? o.r3).nat = true) (fun _ => registerNatConsumption (accessBits .read))
    ∧ Skips (.ld1R1R3R2 o) o.qp
    ∧ Traps (.ld2R1R3R2 o) o.qp (fun s => s.lp.grWritable o.r1 = false ∨ s.lp.grWritable o.r3 = false ∨ o.r1 = o.r3)
      (fun _ => illegalOperation)
    ∧ Traps (.ld2R1R3R2 o) o.qp (fun s => s.lp.grWritable o.r1 = true ∧ s.lp.grReadable o.r3 = true ∧ IncOk s o.r3 (.reg o.r2) ∧ o.r1 ≠ o.r3
      ∧ (s.lp.gr? o.r3).nat = true) (fun _ => registerNatConsumption (accessBits .read))
    ∧ Skips (.ld2R1R3R2 o) o.qp
    ∧ Traps (.ld4R1R3R2 o) o.qp (fun s => s.lp.grWritable o.r1 = false ∨ s.lp.grWritable o.r3 = false ∨ o.r1 = o.r3)
      (fun _ => illegalOperation)
    ∧ Traps (.ld4R1R3R2 o) o.qp (fun s => s.lp.grWritable o.r1 = true ∧ s.lp.grReadable o.r3 = true ∧ IncOk s o.r3 (.reg o.r2) ∧ o.r1 ≠ o.r3
      ∧ (s.lp.gr? o.r3).nat = true) (fun _ => registerNatConsumption (accessBits .read))
    ∧ Skips (.ld4R1R3R2 o) o.qp
    ∧ Traps (.ld8R1R3R2 o) o.qp (fun s => s.lp.grWritable o.r1 = false ∨ s.lp.grWritable o.r3 = false ∨ o.r1 = o.r3)
      (fun _ => illegalOperation)
    ∧ Traps (.ld8R1R3R2 o) o.qp (fun s => s.lp.grWritable o.r1 = true ∧ s.lp.grReadable o.r3 = true ∧ IncOk s o.r3 (.reg o.r2) ∧ o.r1 ≠ o.r3
      ∧ (s.lp.gr? o.r3).nat = true) (fun _ => registerNatConsumption (accessBits .read))
    ∧ Skips (.ld8R1R3R2 o) o.qp
    ∧ Traps (.ld1SR1R3R2 o) o.qp (fun s => s.lp.grWritable o.r1 = false ∨ s.lp.grWritable o.r3 = false ∨ o.r1 = o.r3)
      (fun _ => illegalOperation)
    ∧ Skips (.ld1SR1R3R2 o) o.qp
    ∧ Traps (.ld2SR1R3R2 o) o.qp (fun s => s.lp.grWritable o.r1 = false ∨ s.lp.grWritable o.r3 = false ∨ o.r1 = o.r3)
      (fun _ => illegalOperation)
    ∧ Skips (.ld2SR1R3R2 o) o.qp
    ∧ Traps (.ld4SR1R3R2 o) o.qp (fun s => s.lp.grWritable o.r1 = false ∨ s.lp.grWritable o.r3 = false ∨ o.r1 = o.r3)
      (fun _ => illegalOperation)
    ∧ Skips (.ld4SR1R3R2 o) o.qp
    ∧ Traps (.ld8SR1R3R2 o) o.qp (fun s => s.lp.grWritable o.r1 = false ∨ s.lp.grWritable o.r3 = false ∨ o.r1 = o.r3)
      (fun _ => illegalOperation)
    ∧ Skips (.ld8SR1R3R2 o) o.qp
    ∧ Traps (.ld1AR1R3R2 o) o.qp (fun s => s.lp.grWritable o.r1 = false ∨ s.lp.grWritable o.r3 = false ∨ o.r1 = o.r3)
      (fun _ => illegalOperation)
    ∧ Traps (.ld1AR1R3R2 o) o.qp (fun s => s.lp.grWritable o.r1 = true ∧ s.lp.grReadable o.r3 = true ∧ IncOk s o.r3 (.reg o.r2) ∧ o.r1 ≠ o.r3
      ∧ (s.lp.gr? o.r3).nat = true) (fun _ => registerNatConsumption (accessBits .read))
    ∧ Skips (.ld1AR1R3R2 o) o.qp
    ∧ Traps (.ld2AR1R3R2 o) o.qp (fun s => s.lp.grWritable o.r1 = false ∨ s.lp.grWritable o.r3 = false ∨ o.r1 = o.r3)
      (fun _ => illegalOperation)
    ∧ Traps (.ld2AR1R3R2 o) o.qp (fun s => s.lp.grWritable o.r1 = true ∧ s.lp.grReadable o.r3 = true ∧ IncOk s o.r3 (.reg o.r2) ∧ o.r1 ≠ o.r3
      ∧ (s.lp.gr? o.r3).nat = true) (fun _ => registerNatConsumption (accessBits .read))
    ∧ Skips (.ld2AR1R3R2 o) o.qp
    ∧ Traps (.ld4AR1R3R2 o) o.qp (fun s => s.lp.grWritable o.r1 = false ∨ s.lp.grWritable o.r3 = false ∨ o.r1 = o.r3)
      (fun _ => illegalOperation)
    ∧ Traps (.ld4AR1R3R2 o) o.qp (fun s => s.lp.grWritable o.r1 = true ∧ s.lp.grReadable o.r3 = true ∧ IncOk s o.r3 (.reg o.r2) ∧ o.r1 ≠ o.r3
      ∧ (s.lp.gr? o.r3).nat = true) (fun _ => registerNatConsumption (accessBits .read))
    ∧ Skips (.ld4AR1R3R2 o) o.qp
    ∧ Traps (.ld8AR1R3R2 o) o.qp (fun s => s.lp.grWritable o.r1 = false ∨ s.lp.grWritable o.r3 = false ∨ o.r1 = o.r3)
      (fun _ => illegalOperation)
    ∧ Traps (.ld8AR1R3R2 o) o.qp (fun s => s.lp.grWritable o.r1 = true ∧ s.lp.grReadable o.r3 = true ∧ IncOk s o.r3 (.reg o.r2) ∧ o.r1 ≠ o.r3
      ∧ (s.lp.gr? o.r3).nat = true) (fun _ => registerNatConsumption (accessBits .read))
    ∧ Skips (.ld8AR1R3R2 o) o.qp
    ∧ Traps (.ld1SaR1R3R2 o) o.qp (fun s => s.lp.grWritable o.r1 = false ∨ s.lp.grWritable o.r3 = false ∨ o.r1 = o.r3)
      (fun _ => illegalOperation)
    ∧ Skips (.ld1SaR1R3R2 o) o.qp
    ∧ Traps (.ld2SaR1R3R2 o) o.qp (fun s => s.lp.grWritable o.r1 = false ∨ s.lp.grWritable o.r3 = false ∨ o.r1 = o.r3)
      (fun _ => illegalOperation)
    ∧ Skips (.ld2SaR1R3R2 o) o.qp
    ∧ Traps (.ld4SaR1R3R2 o) o.qp (fun s => s.lp.grWritable o.r1 = false ∨ s.lp.grWritable o.r3 = false ∨ o.r1 = o.r3)
      (fun _ => illegalOperation)
    ∧ Skips (.ld4SaR1R3R2 o) o.qp
    ∧ Traps (.ld8SaR1R3R2 o) o.qp (fun s => s.lp.grWritable o.r1 = false ∨ s.lp.grWritable o.r3 = false ∨ o.r1 = o.r3)
      (fun _ => illegalOperation)
    ∧ Skips (.ld8SaR1R3R2 o) o.qp
    ∧ Traps (.ld1BiasR1R3R2 o) o.qp (fun s => s.lp.grWritable o.r1 = false ∨ s.lp.grWritable o.r3 = false ∨ o.r1 = o.r3)
      (fun _ => illegalOperation)
    ∧ Traps (.ld1BiasR1R3R2 o) o.qp (fun s => s.lp.grWritable o.r1 = true ∧ s.lp.grReadable o.r3 = true ∧ IncOk s o.r3 (.reg o.r2) ∧ o.r1 ≠ o.r3
      ∧ (s.lp.gr? o.r3).nat = true) (fun _ => registerNatConsumption (accessBits .read))
    ∧ Skips (.ld1BiasR1R3R2 o) o.qp
    ∧ Traps (.ld2BiasR1R3R2 o) o.qp (fun s => s.lp.grWritable o.r1 = false ∨ s.lp.grWritable o.r3 = false ∨ o.r1 = o.r3)
      (fun _ => illegalOperation)
    ∧ Traps (.ld2BiasR1R3R2 o) o.qp (fun s => s.lp.grWritable o.r1 = true ∧ s.lp.grReadable o.r3 = true ∧ IncOk s o.r3 (.reg o.r2) ∧ o.r1 ≠ o.r3
      ∧ (s.lp.gr? o.r3).nat = true) (fun _ => registerNatConsumption (accessBits .read))
    ∧ Skips (.ld2BiasR1R3R2 o) o.qp
    ∧ Traps (.ld4BiasR1R3R2 o) o.qp (fun s => s.lp.grWritable o.r1 = false ∨ s.lp.grWritable o.r3 = false ∨ o.r1 = o.r3)
      (fun _ => illegalOperation)
    ∧ Traps (.ld4BiasR1R3R2 o) o.qp (fun s => s.lp.grWritable o.r1 = true ∧ s.lp.grReadable o.r3 = true ∧ IncOk s o.r3 (.reg o.r2) ∧ o.r1 ≠ o.r3
      ∧ (s.lp.gr? o.r3).nat = true) (fun _ => registerNatConsumption (accessBits .read))
    ∧ Skips (.ld4BiasR1R3R2 o) o.qp
    ∧ Traps (.ld8BiasR1R3R2 o) o.qp (fun s => s.lp.grWritable o.r1 = false ∨ s.lp.grWritable o.r3 = false ∨ o.r1 = o.r3)
      (fun _ => illegalOperation)
    ∧ Traps (.ld8BiasR1R3R2 o) o.qp (fun s => s.lp.grWritable o.r1 = true ∧ s.lp.grReadable o.r3 = true ∧ IncOk s o.r3 (.reg o.r2) ∧ o.r1 ≠ o.r3
      ∧ (s.lp.gr? o.r3).nat = true) (fun _ => registerNatConsumption (accessBits .read))
    ∧ Skips (.ld8BiasR1R3R2 o) o.qp
    ∧ Traps (.ld1AcqR1R3R2 o) o.qp (fun s => s.lp.grWritable o.r1 = false ∨ s.lp.grWritable o.r3 = false ∨ o.r1 = o.r3)
      (fun _ => illegalOperation)
    ∧ Traps (.ld1AcqR1R3R2 o) o.qp (fun s => s.lp.grWritable o.r1 = true ∧ s.lp.grReadable o.r3 = true ∧ IncOk s o.r3 (.reg o.r2) ∧ o.r1 ≠ o.r3
      ∧ (s.lp.gr? o.r3).nat = true) (fun _ => registerNatConsumption (accessBits .read))
    ∧ Skips (.ld1AcqR1R3R2 o) o.qp
    ∧ Traps (.ld2AcqR1R3R2 o) o.qp (fun s => s.lp.grWritable o.r1 = false ∨ s.lp.grWritable o.r3 = false ∨ o.r1 = o.r3)
      (fun _ => illegalOperation)
    ∧ Traps (.ld2AcqR1R3R2 o) o.qp (fun s => s.lp.grWritable o.r1 = true ∧ s.lp.grReadable o.r3 = true ∧ IncOk s o.r3 (.reg o.r2) ∧ o.r1 ≠ o.r3
      ∧ (s.lp.gr? o.r3).nat = true) (fun _ => registerNatConsumption (accessBits .read))
    ∧ Skips (.ld2AcqR1R3R2 o) o.qp
    ∧ Traps (.ld4AcqR1R3R2 o) o.qp (fun s => s.lp.grWritable o.r1 = false ∨ s.lp.grWritable o.r3 = false ∨ o.r1 = o.r3)
      (fun _ => illegalOperation)
    ∧ Traps (.ld4AcqR1R3R2 o) o.qp (fun s => s.lp.grWritable o.r1 = true ∧ s.lp.grReadable o.r3 = true ∧ IncOk s o.r3 (.reg o.r2) ∧ o.r1 ≠ o.r3
      ∧ (s.lp.gr? o.r3).nat = true) (fun _ => registerNatConsumption (accessBits .read))
    ∧ Skips (.ld4AcqR1R3R2 o) o.qp
    ∧ Traps (.ld8AcqR1R3R2 o) o.qp (fun s => s.lp.grWritable o.r1 = false ∨ s.lp.grWritable o.r3 = false ∨ o.r1 = o.r3)
      (fun _ => illegalOperation)
    ∧ Traps (.ld8AcqR1R3R2 o) o.qp (fun s => s.lp.grWritable o.r1 = true ∧ s.lp.grReadable o.r3 = true ∧ IncOk s o.r3 (.reg o.r2) ∧ o.r1 ≠ o.r3
      ∧ (s.lp.gr? o.r3).nat = true) (fun _ => registerNatConsumption (accessBits .read))
    ∧ Skips (.ld8AcqR1R3R2 o) o.qp
    ∧ Traps (.ld1CClrR1R3R2 o) o.qp (fun s => s.lp.grWritable o.r1 = false ∨ s.lp.grWritable o.r3 = false ∨ o.r1 = o.r3)
      (fun _ => illegalOperation)
    ∧ Traps (.ld1CClrR1R3R2 o) o.qp (fun s => s.lp.grWritable o.r1 = true ∧ s.lp.grReadable o.r3 = true ∧ IncOk s o.r3 (.reg o.r2) ∧ o.r1 ≠ o.r3
      ∧ (s.lp.gr? o.r3).nat = true) (fun _ => registerNatConsumption (accessBits .read))
    ∧ Skips (.ld1CClrR1R3R2 o) o.qp
    ∧ Traps (.ld2CClrR1R3R2 o) o.qp (fun s => s.lp.grWritable o.r1 = false ∨ s.lp.grWritable o.r3 = false ∨ o.r1 = o.r3)
      (fun _ => illegalOperation)
    ∧ Traps (.ld2CClrR1R3R2 o) o.qp (fun s => s.lp.grWritable o.r1 = true ∧ s.lp.grReadable o.r3 = true ∧ IncOk s o.r3 (.reg o.r2) ∧ o.r1 ≠ o.r3
      ∧ (s.lp.gr? o.r3).nat = true) (fun _ => registerNatConsumption (accessBits .read))
    ∧ Skips (.ld2CClrR1R3R2 o) o.qp
    ∧ Traps (.ld4CClrR1R3R2 o) o.qp (fun s => s.lp.grWritable o.r1 = false ∨ s.lp.grWritable o.r3 = false ∨ o.r1 = o.r3)
      (fun _ => illegalOperation)
    ∧ Traps (.ld4CClrR1R3R2 o) o.qp (fun s => s.lp.grWritable o.r1 = true ∧ s.lp.grReadable o.r3 = true ∧ IncOk s o.r3 (.reg o.r2) ∧ o.r1 ≠ o.r3
      ∧ (s.lp.gr? o.r3).nat = true) (fun _ => registerNatConsumption (accessBits .read))
    ∧ Skips (.ld4CClrR1R3R2 o) o.qp
    ∧ Traps (.ld8CClrR1R3R2 o) o.qp (fun s => s.lp.grWritable o.r1 = false ∨ s.lp.grWritable o.r3 = false ∨ o.r1 = o.r3)
      (fun _ => illegalOperation)
    ∧ Traps (.ld8CClrR1R3R2 o) o.qp (fun s => s.lp.grWritable o.r1 = true ∧ s.lp.grReadable o.r3 = true ∧ IncOk s o.r3 (.reg o.r2) ∧ o.r1 ≠ o.r3
      ∧ (s.lp.gr? o.r3).nat = true) (fun _ => registerNatConsumption (accessBits .read))
    ∧ Skips (.ld8CClrR1R3R2 o) o.qp
    ∧ Traps (.ld1CNcR1R3R2 o) o.qp (fun s => s.lp.grWritable o.r1 = false ∨ s.lp.grWritable o.r3 = false ∨ o.r1 = o.r3)
      (fun _ => illegalOperation)
    ∧ Traps (.ld1CNcR1R3R2 o) o.qp (fun s => s.lp.grWritable o.r1 = true ∧ s.lp.grReadable o.r3 = true ∧ IncOk s o.r3 (.reg o.r2) ∧ o.r1 ≠ o.r3
      ∧ (s.lp.gr? o.r3).nat = true) (fun _ => registerNatConsumption (accessBits .read))
    ∧ Skips (.ld1CNcR1R3R2 o) o.qp
    ∧ Traps (.ld2CNcR1R3R2 o) o.qp (fun s => s.lp.grWritable o.r1 = false ∨ s.lp.grWritable o.r3 = false ∨ o.r1 = o.r3)
      (fun _ => illegalOperation)
    ∧ Traps (.ld2CNcR1R3R2 o) o.qp (fun s => s.lp.grWritable o.r1 = true ∧ s.lp.grReadable o.r3 = true ∧ IncOk s o.r3 (.reg o.r2) ∧ o.r1 ≠ o.r3
      ∧ (s.lp.gr? o.r3).nat = true) (fun _ => registerNatConsumption (accessBits .read))
    ∧ Skips (.ld2CNcR1R3R2 o) o.qp
    ∧ Traps (.ld4CNcR1R3R2 o) o.qp (fun s => s.lp.grWritable o.r1 = false ∨ s.lp.grWritable o.r3 = false ∨ o.r1 = o.r3)
      (fun _ => illegalOperation)
    ∧ Traps (.ld4CNcR1R3R2 o) o.qp (fun s => s.lp.grWritable o.r1 = true ∧ s.lp.grReadable o.r3 = true ∧ IncOk s o.r3 (.reg o.r2) ∧ o.r1 ≠ o.r3
      ∧ (s.lp.gr? o.r3).nat = true) (fun _ => registerNatConsumption (accessBits .read))
    ∧ Skips (.ld4CNcR1R3R2 o) o.qp
    ∧ Traps (.ld8CNcR1R3R2 o) o.qp (fun s => s.lp.grWritable o.r1 = false ∨ s.lp.grWritable o.r3 = false ∨ o.r1 = o.r3)
      (fun _ => illegalOperation)
    ∧ Traps (.ld8CNcR1R3R2 o) o.qp (fun s => s.lp.grWritable o.r1 = true ∧ s.lp.grReadable o.r3 = true ∧ IncOk s o.r3 (.reg o.r2) ∧ o.r1 ≠ o.r3
      ∧ (s.lp.gr? o.r3).nat = true) (fun _ => registerNatConsumption (accessBits .read))
    ∧ Skips (.ld8CNcR1R3R2 o) o.qp
    ∧ Traps (.ld1CClrAcqR1R3R2 o) o.qp (fun s => s.lp.grWritable o.r1 = false ∨ s.lp.grWritable o.r3 = false ∨ o.r1 = o.r3)
      (fun _ => illegalOperation)
    ∧ Traps (.ld1CClrAcqR1R3R2 o) o.qp (fun s => s.lp.grWritable o.r1 = true ∧ s.lp.grReadable o.r3 = true ∧ IncOk s o.r3 (.reg o.r2) ∧ o.r1 ≠ o.r3
      ∧ (s.lp.gr? o.r3).nat = true) (fun _ => registerNatConsumption (accessBits .read))
    ∧ Skips (.ld1CClrAcqR1R3R2 o) o.qp
    ∧ Traps (.ld2CClrAcqR1R3R2 o) o.qp (fun s => s.lp.grWritable o.r1 = false ∨ s.lp.grWritable o.r3 = false ∨ o.r1 = o.r3)
      (fun _ => illegalOperation)
    ∧ Traps (.ld2CClrAcqR1R3R2 o) o.qp (fun s => s.lp.grWritable o.r1 = true ∧ s.lp.grReadable o.r3 = true ∧ IncOk s o.r3 (.reg o.r2) ∧ o.r1 ≠ o.r3
      ∧ (s.lp.gr? o.r3).nat = true) (fun _ => registerNatConsumption (accessBits .read))
    ∧ Skips (.ld2CClrAcqR1R3R2 o) o.qp
    ∧ Traps (.ld4CClrAcqR1R3R2 o) o.qp (fun s => s.lp.grWritable o.r1 = false ∨ s.lp.grWritable o.r3 = false ∨ o.r1 = o.r3)
      (fun _ => illegalOperation)
    ∧ Traps (.ld4CClrAcqR1R3R2 o) o.qp (fun s => s.lp.grWritable o.r1 = true ∧ s.lp.grReadable o.r3 = true ∧ IncOk s o.r3 (.reg o.r2) ∧ o.r1 ≠ o.r3
      ∧ (s.lp.gr? o.r3).nat = true) (fun _ => registerNatConsumption (accessBits .read))
    ∧ Skips (.ld4CClrAcqR1R3R2 o) o.qp
    ∧ Traps (.ld8CClrAcqR1R3R2 o) o.qp (fun s => s.lp.grWritable o.r1 = false ∨ s.lp.grWritable o.r3 = false ∨ o.r1 = o.r3)
      (fun _ => illegalOperation)
    ∧ Traps (.ld8CClrAcqR1R3R2 o) o.qp (fun s => s.lp.grWritable o.r1 = true ∧ s.lp.grReadable o.r3 = true ∧ IncOk s o.r3 (.reg o.r2) ∧ o.r1 ≠ o.r3
      ∧ (s.lp.gr? o.r3).nat = true) (fun _ => registerNatConsumption (accessBits .read))
    ∧ Skips (.ld8CClrAcqR1R3R2 o) o.qp
    ∧ Traps (.ld8FillR1R3R2 o) o.qp (fun s => s.lp.grWritable o.r1 = false ∨ s.lp.grWritable o.r3 = false ∨ o.r1 = o.r3)
      (fun _ => illegalOperation)
    ∧ Traps (.ld8FillR1R3R2 o) o.qp (fun s => s.lp.grWritable o.r1 = true ∧ s.lp.grReadable o.r3 = true ∧ IncOk s o.r3 (.reg o.r2) ∧ o.r1 ≠ o.r3
      ∧ (s.lp.gr? o.r3).nat = true) (fun _ => registerNatConsumption (accessBits .read))
    ∧ Skips (.ld8FillR1R3R2 o) o.qp)
  ∧ (∀ o : OpM3,
    Traps (.ld1R1R3Imm9 o) o.qp (fun s => s.lp.grWritable o.r1 = false ∨ s.lp.grWritable o.r3 = false ∨ o.r1 = o.r3)
      (fun _ => illegalOperation)
    ∧ Traps (.ld1R1R3Imm9 o) o.qp (fun s => s.lp.grWritable o.r1 = true ∧ s.lp.grReadable o.r3 = true ∧ IncOk s o.r3 (.imm (o.imm9.signExtend 64)) ∧ o.r1 ≠ o.r3
      ∧ (s.lp.gr? o.r3).nat = true) (fun _ => registerNatConsumption (accessBits .read))
    ∧ Skips (.ld1R1R3Imm9 o) o.qp
    ∧ Traps (.ld2R1R3Imm9 o) o.qp (fun s => s.lp.grWritable o.r1 = false ∨ s.lp.grWritable o.r3 = false ∨ o.r1 = o.r3)
      (fun _ => illegalOperation)
    ∧ Traps (.ld2R1R3Imm9 o) o.qp (fun s => s.lp.grWritable o.r1 = true ∧ s.lp.grReadable o.r3 = true ∧ IncOk s o.r3 (.imm (o.imm9.signExtend 64)) ∧ o.r1 ≠ o.r3
      ∧ (s.lp.gr? o.r3).nat = true) (fun _ => registerNatConsumption (accessBits .read))
    ∧ Skips (.ld2R1R3Imm9 o) o.qp
    ∧ Traps (.ld4R1R3Imm9 o) o.qp (fun s => s.lp.grWritable o.r1 = false ∨ s.lp.grWritable o.r3 = false ∨ o.r1 = o.r3)
      (fun _ => illegalOperation)
    ∧ Traps (.ld4R1R3Imm9 o) o.qp (fun s => s.lp.grWritable o.r1 = true ∧ s.lp.grReadable o.r3 = true ∧ IncOk s o.r3 (.imm (o.imm9.signExtend 64)) ∧ o.r1 ≠ o.r3
      ∧ (s.lp.gr? o.r3).nat = true) (fun _ => registerNatConsumption (accessBits .read))
    ∧ Skips (.ld4R1R3Imm9 o) o.qp
    ∧ Traps (.ld8R1R3Imm9 o) o.qp (fun s => s.lp.grWritable o.r1 = false ∨ s.lp.grWritable o.r3 = false ∨ o.r1 = o.r3)
      (fun _ => illegalOperation)
    ∧ Traps (.ld8R1R3Imm9 o) o.qp (fun s => s.lp.grWritable o.r1 = true ∧ s.lp.grReadable o.r3 = true ∧ IncOk s o.r3 (.imm (o.imm9.signExtend 64)) ∧ o.r1 ≠ o.r3
      ∧ (s.lp.gr? o.r3).nat = true) (fun _ => registerNatConsumption (accessBits .read))
    ∧ Skips (.ld8R1R3Imm9 o) o.qp
    ∧ Traps (.ld1SR1R3Imm9 o) o.qp (fun s => s.lp.grWritable o.r1 = false ∨ s.lp.grWritable o.r3 = false ∨ o.r1 = o.r3)
      (fun _ => illegalOperation)
    ∧ Skips (.ld1SR1R3Imm9 o) o.qp
    ∧ Traps (.ld2SR1R3Imm9 o) o.qp (fun s => s.lp.grWritable o.r1 = false ∨ s.lp.grWritable o.r3 = false ∨ o.r1 = o.r3)
      (fun _ => illegalOperation)
    ∧ Skips (.ld2SR1R3Imm9 o) o.qp
    ∧ Traps (.ld4SR1R3Imm9 o) o.qp (fun s => s.lp.grWritable o.r1 = false ∨ s.lp.grWritable o.r3 = false ∨ o.r1 = o.r3)
      (fun _ => illegalOperation)
    ∧ Skips (.ld4SR1R3Imm9 o) o.qp
    ∧ Traps (.ld8SR1R3Imm9 o) o.qp (fun s => s.lp.grWritable o.r1 = false ∨ s.lp.grWritable o.r3 = false ∨ o.r1 = o.r3)
      (fun _ => illegalOperation)
    ∧ Skips (.ld8SR1R3Imm9 o) o.qp
    ∧ Traps (.ld1AR1R3Imm9 o) o.qp (fun s => s.lp.grWritable o.r1 = false ∨ s.lp.grWritable o.r3 = false ∨ o.r1 = o.r3)
      (fun _ => illegalOperation)
    ∧ Traps (.ld1AR1R3Imm9 o) o.qp (fun s => s.lp.grWritable o.r1 = true ∧ s.lp.grReadable o.r3 = true ∧ IncOk s o.r3 (.imm (o.imm9.signExtend 64)) ∧ o.r1 ≠ o.r3
      ∧ (s.lp.gr? o.r3).nat = true) (fun _ => registerNatConsumption (accessBits .read))
    ∧ Skips (.ld1AR1R3Imm9 o) o.qp
    ∧ Traps (.ld2AR1R3Imm9 o) o.qp (fun s => s.lp.grWritable o.r1 = false ∨ s.lp.grWritable o.r3 = false ∨ o.r1 = o.r3)
      (fun _ => illegalOperation)
    ∧ Traps (.ld2AR1R3Imm9 o) o.qp (fun s => s.lp.grWritable o.r1 = true ∧ s.lp.grReadable o.r3 = true ∧ IncOk s o.r3 (.imm (o.imm9.signExtend 64)) ∧ o.r1 ≠ o.r3
      ∧ (s.lp.gr? o.r3).nat = true) (fun _ => registerNatConsumption (accessBits .read))
    ∧ Skips (.ld2AR1R3Imm9 o) o.qp
    ∧ Traps (.ld4AR1R3Imm9 o) o.qp (fun s => s.lp.grWritable o.r1 = false ∨ s.lp.grWritable o.r3 = false ∨ o.r1 = o.r3)
      (fun _ => illegalOperation)
    ∧ Traps (.ld4AR1R3Imm9 o) o.qp (fun s => s.lp.grWritable o.r1 = true ∧ s.lp.grReadable o.r3 = true ∧ IncOk s o.r3 (.imm (o.imm9.signExtend 64)) ∧ o.r1 ≠ o.r3
      ∧ (s.lp.gr? o.r3).nat = true) (fun _ => registerNatConsumption (accessBits .read))
    ∧ Skips (.ld4AR1R3Imm9 o) o.qp
    ∧ Traps (.ld8AR1R3Imm9 o) o.qp (fun s => s.lp.grWritable o.r1 = false ∨ s.lp.grWritable o.r3 = false ∨ o.r1 = o.r3)
      (fun _ => illegalOperation)
    ∧ Traps (.ld8AR1R3Imm9 o) o.qp (fun s => s.lp.grWritable o.r1 = true ∧ s.lp.grReadable o.r3 = true ∧ IncOk s o.r3 (.imm (o.imm9.signExtend 64)) ∧ o.r1 ≠ o.r3
      ∧ (s.lp.gr? o.r3).nat = true) (fun _ => registerNatConsumption (accessBits .read))
    ∧ Skips (.ld8AR1R3Imm9 o) o.qp
    ∧ Traps (.ld1SaR1R3Imm9 o) o.qp (fun s => s.lp.grWritable o.r1 = false ∨ s.lp.grWritable o.r3 = false ∨ o.r1 = o.r3)
      (fun _ => illegalOperation)
    ∧ Skips (.ld1SaR1R3Imm9 o) o.qp
    ∧ Traps (.ld2SaR1R3Imm9 o) o.qp (fun s => s.lp.grWritable o.r1 = false ∨ s.lp.grWritable o.r3 = false ∨ o.r1 = o.r3)
      (fun _ => illegalOperation)
    ∧ Skips (.ld2SaR1R3Imm9 o) o.qp
    ∧ Traps (.ld4SaR1R3Imm9 o) o.qp (fun s => s.lp.grWritable o.r1 = false ∨ s.lp.grWritable o.r3 = false ∨ o.r1 = o.r3)
      (fun _ => illegalOperation)
    ∧ Skips (.ld4SaR1R3Imm9 o) o.qp
    ∧ Traps (.ld8SaR1R3Imm9 o) o.qp (fun s => s.lp.grWritable o.r1 = false ∨ s.lp.grWritable o.r3 = false ∨ o.r1 = o.r3)
      (fun _ => illegalOperation)
    ∧ Skips (.ld8SaR1R3Imm9 o) o.qp
    ∧ Traps (.ld1BiasR1R3Imm9 o) o.qp (fun s => s.lp.grWritable o.r1 = false ∨ s.lp.grWritable o.r3 = false ∨ o.r1 = o.r3)
      (fun _ => illegalOperation)
    ∧ Traps (.ld1BiasR1R3Imm9 o) o.qp (fun s => s.lp.grWritable o.r1 = true ∧ s.lp.grReadable o.r3 = true ∧ IncOk s o.r3 (.imm (o.imm9.signExtend 64)) ∧ o.r1 ≠ o.r3
      ∧ (s.lp.gr? o.r3).nat = true) (fun _ => registerNatConsumption (accessBits .read))
    ∧ Skips (.ld1BiasR1R3Imm9 o) o.qp
    ∧ Traps (.ld2BiasR1R3Imm9 o) o.qp (fun s => s.lp.grWritable o.r1 = false ∨ s.lp.grWritable o.r3 = false ∨ o.r1 = o.r3)
      (fun _ => illegalOperation)
    ∧ Traps (.ld2BiasR1R3Imm9 o) o.qp (fun s => s.lp.grWritable o.r1 = true ∧ s.lp.grReadable o.r3 = true ∧ IncOk s o.r3 (.imm (o.imm9.signExtend 64)) ∧ o.r1 ≠ o.r3
      ∧ (s.lp.gr? o.r3).nat = true) (fun _ => registerNatConsumption (accessBits .read))
    ∧ Skips (.ld2BiasR1R3Imm9 o) o.qp
    ∧ Traps (.ld4BiasR1R3Imm9 o) o.qp (fun s => s.lp.grWritable o.r1 = false ∨ s.lp.grWritable o.r3 = false ∨ o.r1 = o.r3)
      (fun _ => illegalOperation)
    ∧ Traps (.ld4BiasR1R3Imm9 o) o.qp (fun s => s.lp.grWritable o.r1 = true ∧ s.lp.grReadable o.r3 = true ∧ IncOk s o.r3 (.imm (o.imm9.signExtend 64)) ∧ o.r1 ≠ o.r3
      ∧ (s.lp.gr? o.r3).nat = true) (fun _ => registerNatConsumption (accessBits .read))
    ∧ Skips (.ld4BiasR1R3Imm9 o) o.qp
    ∧ Traps (.ld8BiasR1R3Imm9 o) o.qp (fun s => s.lp.grWritable o.r1 = false ∨ s.lp.grWritable o.r3 = false ∨ o.r1 = o.r3)
      (fun _ => illegalOperation)
    ∧ Traps (.ld8BiasR1R3Imm9 o) o.qp (fun s => s.lp.grWritable o.r1 = true ∧ s.lp.grReadable o.r3 = true ∧ IncOk s o.r3 (.imm (o.imm9.signExtend 64)) ∧ o.r1 ≠ o.r3
      ∧ (s.lp.gr? o.r3).nat = true) (fun _ => registerNatConsumption (accessBits .read))
    ∧ Skips (.ld8BiasR1R3Imm9 o) o.qp
    ∧ Traps (.ld1AcqR1R3Imm9 o) o.qp (fun s => s.lp.grWritable o.r1 = false ∨ s.lp.grWritable o.r3 = false ∨ o.r1 = o.r3)
      (fun _ => illegalOperation)
    ∧ Traps (.ld1AcqR1R3Imm9 o) o.qp (fun s => s.lp.grWritable o.r1 = true ∧ s.lp.grReadable o.r3 = true ∧ IncOk s o.r3 (.imm (o.imm9.signExtend 64)) ∧ o.r1 ≠ o.r3
      ∧ (s.lp.gr? o.r3).nat = true) (fun _ => registerNatConsumption (accessBits .read))
    ∧ Skips (.ld1AcqR1R3Imm9 o) o.qp
    ∧ Traps (.ld2AcqR1R3Imm9 o) o.qp (fun s => s.lp.grWritable o.r1 = false ∨ s.lp.grWritable o.r3 = false ∨ o.r1 = o.r3)
      (fun _ => illegalOperation)
    ∧ Traps (.ld2AcqR1R3Imm9 o) o.qp (fun s => s.lp.grWritable o.r1 = true ∧ s.lp.grReadable o.r3 = true ∧ IncOk s o.r3 (.imm (o.imm9.signExtend 64)) ∧ o.r1 ≠ o.r3
      ∧ (s.lp.gr? o.r3).nat = true) (fun _ => registerNatConsumption (accessBits .read))
    ∧ Skips (.ld2AcqR1R3Imm9 o) o.qp
    ∧ Traps (.ld4AcqR1R3Imm9 o) o.qp (fun s => s.lp.grWritable o.r1 = false ∨ s.lp.grWritable o.r3 = false ∨ o.r1 = o.r3)
      (fun _ => illegalOperation)
    ∧ Traps (.ld4AcqR1R3Imm9 o) o.qp (fun s => s.lp.grWritable o.r1 = true ∧ s.lp.grReadable o.r3 = true ∧ IncOk s o.r3 (.imm (o.imm9.signExtend 64)) ∧ o.r1 ≠ o.r3
      ∧ (s.lp.gr? o.r3).nat = true) (fun _ => registerNatConsumption (accessBits .read))
    ∧ Skips (.ld4AcqR1R3Imm9 o) o.qp
    ∧ Traps (.ld8AcqR1R3Imm9 o) o.qp (fun s => s.lp.grWritable o.r1 = false ∨ s.lp.grWritable o.r3 = false ∨ o.r1 = o.r3)
      (fun _ => illegalOperation)
    ∧ Traps (.ld8AcqR1R3Imm9 o) o.qp (fun s => s.lp.grWritable o.r1 = true ∧ s.lp.grReadable o.r3 = true ∧ IncOk s o.r3 (.imm (o.imm9.signExtend 64)) ∧ o.r1 ≠ o.r3
      ∧ (s.lp.gr? o.r3).nat = true) (fun _ => registerNatConsumption (accessBits .read))
    ∧ Skips (.ld8AcqR1R3Imm9 o) o.qp
    ∧ Traps (.ld1CClrR1R3Imm9 o) o.qp (fun s => s.lp.grWritable o.r1 = false ∨ s.lp.grWritable o.r3 = false ∨ o.r1 = o.r3)
      (fun _ => illegalOperation)
    ∧ Traps (.ld1CClrR1R3Imm9 o) o.qp (fun s => s.lp.grWritable o.r1 = true ∧ s.lp.grReadable o.r3 = true ∧ IncOk s o.r3 (.imm (o.imm9.signExtend 64)) ∧ o.r1 ≠ o.r3
      ∧ (s.lp.gr? o.r3).nat = true) (fun _ => registerNatConsumption (accessBits .read))
    ∧ Skips (.ld1CClrR1R3Imm9 o) o.qp
    ∧ Traps (.ld2CClrR1R3Imm9 o) o.qp (fun s => s.lp.grWritable o.r1 = false ∨ s.lp.grWritable o.r3 = false ∨ o.r1 = o.r3)
      (fun _ => illegalOperation)
    ∧ Traps (.ld2CClrR1R3Imm9 o) o.qp (fun s => s.lp.grWritable o.r1 = true ∧ s.lp.grReadable o.r3 = true ∧ IncOk s o.r3 (.imm (o.imm9.signExtend 64)) ∧ o.r1 ≠ o.r3
      ∧ (s.lp.gr? o.r3).nat = true) (fun _ => registerNatConsumption (accessBits .read))
    ∧ Skips (.ld2CClrR1R3Imm9 o) o.qp
    ∧ Traps (.ld4CClrR1R3Imm9 o) o.qp (fun s => s.lp.grWritable o.r1 = false ∨ s.lp.grWritable o.r3 = false ∨ o.r1 = o.r3)
      (fun _ => illegalOperation)
    ∧ Traps (.ld4CClrR1R3Imm9 o) o.qp (fun s => s.lp.grWritable o.r1 = true ∧ s.lp.grReadable o.r3 = true ∧ IncOk s o.r3 (.imm (o.imm9.signExtend 64)) ∧ o.r1 ≠ o.r3
      ∧ (s.lp.gr? o.r3).nat = true) (fun _ => registerNatConsumption (accessBits .read))
    ∧ Skips (.ld4CClrR1R3Imm9 o) o.qp
    ∧ Traps (.ld8CClrR1R3Imm9 o) o.qp (fun s => s.lp.grWritable o.r1 = false ∨ s.lp.grWritable o.r3 = false ∨ o.r1 = o.r3)
      (fun _ => illegalOperation)
    ∧ Traps (.ld8CClrR1R3Imm9 o) o.qp (fun s => s.lp.grWritable o.r1 = true ∧ s.lp.grReadable o.r3 = true ∧ IncOk s o.r3 (.imm (o.imm9.signExtend 64)) ∧ o.r1 ≠ o.r3
      ∧ (s.lp.gr? o.r3).nat = true) (fun _ => registerNatConsumption (accessBits .read))
    ∧ Skips (.ld8CClrR1R3Imm9 o) o.qp
    ∧ Traps (.ld1CNcR1R3Imm9 o) o.qp (fun s => s.lp.grWritable o.r1 = false ∨ s.lp.grWritable o.r3 = false ∨ o.r1 = o.r3)
      (fun _ => illegalOperation)
    ∧ Traps (.ld1CNcR1R3Imm9 o) o.qp (fun s => s.lp.grWritable o.r1 = true ∧ s.lp.grReadable o.r3 = true ∧ IncOk s o.r3 (.imm (o.imm9.signExtend 64)) ∧ o.r1 ≠ o.r3
      ∧ (s.lp.gr? o.r3).nat = true) (fun _ => registerNatConsumption (accessBits .read))
    ∧ Skips (.ld1CNcR1R3Imm9 o) o.qp
    ∧ Traps (.ld2CNcR1R3Imm9 o) o.qp (fun s => s.lp.grWritable o.r1 = false ∨ s.lp.grWritable o.r3 = false ∨ o.r1 = o.r3)
      (fun _ => illegalOperation)
    ∧ Traps (.ld2CNcR1R3Imm9 o) o.qp (fun s => s.lp.grWritable o.r1 = true ∧ s.lp.grReadable o.r3 = true ∧ IncOk s o.r3 (.imm (o.imm9.signExtend 64)) ∧ o.r1 ≠ o.r3
      ∧ (s.lp.gr? o.r3).nat = true) (fun _ => registerNatConsumption (accessBits .read))
    ∧ Skips (.ld2CNcR1R3Imm9 o) o.qp
    ∧ Traps (.ld4CNcR1R3Imm9 o) o.qp (fun s => s.lp.grWritable o.r1 = false ∨ s.lp.grWritable o.r3 = false ∨ o.r1 = o.r3)
      (fun _ => illegalOperation)
    ∧ Traps (.ld4CNcR1R3Imm9 o) o.qp (fun s => s.lp.grWritable o.r1 = true ∧ s.lp.grReadable o.r3 = true ∧ IncOk s o.r3 (.imm (o.imm9.signExtend 64)) ∧ o.r1 ≠ o.r3
      ∧ (s.lp.gr? o.r3).nat = true) (fun _ => registerNatConsumption (accessBits .read))
    ∧ Skips (.ld4CNcR1R3Imm9 o) o.qp
    ∧ Traps (.ld8CNcR1R3Imm9 o) o.qp (fun s => s.lp.grWritable o.r1 = false ∨ s.lp.grWritable o.r3 = false ∨ o.r1 = o.r3)
      (fun _ => illegalOperation)
    ∧ Traps (.ld8CNcR1R3Imm9 o) o.qp (fun s => s.lp.grWritable o.r1 = true ∧ s.lp.grReadable o.r3 = true ∧ IncOk s o.r3 (.imm (o.imm9.signExtend 64)) ∧ o.r1 ≠ o.r3
      ∧ (s.lp.gr? o.r3).nat = true) (fun _ => registerNatConsumption (accessBits .read))
    ∧ Skips (.ld8CNcR1R3Imm9 o) o.qp
    ∧ Traps (.ld1CClrAcqR1R3Imm9 o) o.qp (fun s => s.lp.grWritable o.r1 = false ∨ s.lp.grWritable o.r3 = false ∨ o.r1 = o.r3)
      (fun _ => illegalOperation)
    ∧ Traps (.ld1CClrAcqR1R3Imm9 o) o.qp (fun s => s.lp.grWritable o.r1 = true ∧ s.lp.grReadable o.r3 = true ∧ IncOk s o.r3 (.imm (o.imm9.signExtend 64)) ∧ o.r1 ≠ o.r3
      ∧ (s.lp.gr? o.r3).nat = true) (fun _ => registerNatConsumption (accessBits .read))
    ∧ Skips (.ld1CClrAcqR1R3Imm9 o) o.qp
    ∧ Traps (.ld2CClrAcqR1R3Imm9 o) o.qp (fun s => s.lp.grWritable o.r1 = false ∨ s.lp.grWritable o.r3 = false ∨ o.r1 = o.r3)
      (fun _ => illegalOperation)
    ∧ Traps (.ld2CClrAcqR1R3Imm9 o) o.qp (fun s => s.lp.grWritable o.r1 = true ∧ s.lp.grReadable o.r3 = true ∧ IncOk s o.r3 (.imm (o.imm9.signExtend 64)) ∧ o.r1 ≠ o.r3
      ∧ (s.lp.gr? o.r3).nat = true) (fun _ => registerNatConsumption (accessBits .read))
    ∧ Skips (.ld2CClrAcqR1R3Imm9 o) o.qp
    ∧ Traps (.ld4CClrAcqR1R3Imm9 o) o.qp (fun s => s.lp.grWritable o.r1 = false ∨ s.lp.grWritable o.r3 = false ∨ o.r1 = o.r3)
      (fun _ => illegalOperation)
    ∧ Traps (.ld4CClrAcqR1R3Imm9 o) o.qp (fun s => s.lp.grWritable o.r1 = true ∧ s.lp.grReadable o.r3 = true ∧ IncOk s o.r3 (.imm (o.imm9.signExtend 64)) ∧ o.r1 ≠ o.r3
      ∧ (s.lp.gr? o.r3).nat = true) (fun _ => registerNatConsumption (accessBits .read))
    ∧ Skips (.ld4CClrAcqR1R3Imm9 o) o.qp
    ∧ Traps (.ld8CClrAcqR1R3Imm9 o) o.qp (fun s => s.lp.grWritable o.r1 = false ∨ s.lp.grWritable o.r3 = false ∨ o.r1 = o.r3)
      (fun _ => illegalOperation)
    ∧ Traps (.ld8CClrAcqR1R3Imm9 o) o.qp (fun s => s.lp.grWritable o.r1 = true ∧ s.lp.grReadable o.r3 = true ∧ IncOk s o.r3 (.imm (o.imm9.signExtend 64)) ∧ o.r1 ≠ o.r3
      ∧ (s.lp.gr? o.r3).nat = true) (fun _ => registerNatConsumption (accessBits .read))
    ∧ Skips (.ld8CClrAcqR1R3Imm9 o) o.qp
    ∧ Traps (.ld8FillR1R3Imm9 o) o.qp (fun s => s.lp.grWritable o.r1 = false ∨ s.lp.grWritable o.r3 = false ∨ o.r1 = o.r3)
      (fun _ => illegalOperation)
    ∧ Traps (.ld8FillR1R3Imm9 o) o.qp (fun s => s.lp.grWritable o.r1 = true ∧ s.lp.grReadable o.r3 = true ∧ IncOk s o.r3 (.imm (o.imm9.signExtend 64)) ∧ o.r1 ≠ o.r3
      ∧ (s.lp.gr? o.r3).nat = true) (fun _ => registerNatConsumption (accessBits .read))
    ∧ Skips (.ld8FillR1R3Imm9 o) o.qp)
  ∧ (∀ o : OpM4,
    Traps (.st1R3R2 o) o.qp (fun s => s.lp.grReadable o.r3 = true ∧ s.lp.grReadable o.r2 = true ∧ IncOk s o.r3 .none
      ∧ ((s.lp.gr? o.r3).nat = true ∨ (s.lp.gr? o.r2).nat = true)) (fun _ => registerNatConsumption (accessBits .write))
    ∧ Skips (.st1R3R2 o) o.qp
    ∧ Traps (.st2R3R2 o) o.qp (fun s => s.lp.grReadable o.r3 = true ∧ s.lp.grReadable o.r2 = true ∧ IncOk s o.r3 .none
      ∧ ((s.lp.gr? o.r3).nat = true ∨ (s.lp.gr? o.r2).nat = true)) (fun _ => registerNatConsumption (accessBits .write))
    ∧ Skips (.st2R3R2 o) o.qp
    ∧ Traps (.st4R3R2 o) o.qp (fun s => s.lp.grReadable o.r3 = true ∧ s.lp.grReadable o.r2 = true ∧ IncOk s o.r3 .none
      ∧ ((s.lp.gr? o.r3).nat = true ∨ (s.lp.gr? o.r2).nat = true)) (fun _ => registerNatConsumption (accessBits .write))
    ∧ Skips (.st4R3R2 o) o.qp
    ∧ Traps (.st8R3R2 o) o.qp (fun s => s.lp.grReadable o.r3 = true ∧ s.lp.grReadable o.r2 = true ∧ IncOk s o.r3 .none
      ∧ ((s.lp.gr? o.r3).nat = true ∨ (s.lp.gr? o.r2).nat = true)) (fun _ => registerNatConsumption (accessBits .write))
    ∧ Skips (.st8R3R2 o) o.qp
    ∧ Traps (.st1RelR3R2 o) o.qp (fun s => s.lp.grReadable o.r3 = true ∧ s.lp.grReadable o.r2 = true ∧ IncOk s o.r3 .none
      ∧ ((s.lp.gr? o.r3).nat = true ∨ (s.lp.gr? o.r2).nat = true)) (fun _ => registerNatConsumption (accessBits .write))
    ∧ Skips (.st1RelR3R2 o) o.qp
    ∧ Traps (.st2RelR3R2 o) o.qp (fun s => s.lp.grReadable o.r3 = true ∧ s.lp.grReadable o.r2 = true ∧ IncOk s o.r3 .none
      ∧ ((s.lp.gr? o.r3).nat = true ∨ (s.lp.gr? o.r2).nat = true)) (fun _ => registerNatConsumption (accessBits .write))
    ∧ Skips (.st2RelR3R2 o) o.qp
    ∧ Traps (.st4RelR3R2 o) o.qp (fun s => s.lp.grReadable o.r3 = true ∧ s.lp.grReadable o.r2 = true ∧ IncOk s o.r3 .none
      ∧ ((s.lp.gr? o.r3).nat = true ∨ (s.lp.gr? o.r2).nat = true)) (fun _ => registerNatConsumption (accessBits .write))
    ∧ Skips (.st4RelR3R2 o) o.qp
    ∧ Traps (.st8RelR3R2 o) o.qp (fun s => s.lp.grReadable o.r3 = true ∧ s.lp.grReadable o.r2 = true ∧ IncOk s o.r3 .none
      ∧ ((s.lp.gr? o.r3).nat = true ∨ (s.lp.gr? o.r2).nat = true)) (fun _ => registerNatConsumption (accessBits .write))
    ∧ Skips (.st8RelR3R2 o) o.qp
    ∧ Traps (.st8SpillR3R2 o) o.qp (fun s => s.lp.grReadable o.r3 = true ∧ s.lp.grReadable o.r2 = true ∧ IncOk s o.r3 .none
      ∧ ((s.lp.gr? o.r3).nat = true)) (fun _ => registerNatConsumption (accessBits .write))
    ∧ Skips (.st8SpillR3R2 o) o.qp)
  ∧ (∀ o : OpM5,
    Traps (.st1R3R2Imm9 o) o.qp (fun s => s.lp.grWritable o.r3 = false) (fun _ => illegalOperation)
    ∧ Traps (.st1R3R2Imm9 o) o.qp (fun s => s.lp.grReadable o.r3 = true ∧ s.lp.grReadable o.r2 = true ∧ IncOk s o.r3 (.imm (o.imm9.signExtend 64))
      ∧ ((s.lp.gr? o.r3).nat = true ∨ (s.lp.gr? o.r2).nat = true)) (fun _ => registerNatConsumption (accessBits .write))
    ∧ Skips (.st1R3R2Imm9 o) o.qp
    ∧ Traps (.st2R3R2Imm9 o) o.qp (fun s => s.lp.grWritable o.r3 = false) (fun _ => illegalOperation)
    ∧ Traps (.st2R3R2Imm9 o) o.qp (fun s => s.lp.grReadable o.r3 = true ∧ s.lp.grReadable o.r2 = true ∧ IncOk s o.r3 (.imm (o.imm9.signExtend 64))
      ∧ ((s.lp.gr? o.r3).nat = true ∨ (s.lp.gr? o.r2).nat = true)) (fun _ => registerNatConsumption (accessBits .write))
    ∧ Skips (.st2R3R2Imm9 o) o.qp
    ∧ Traps (.st4R3R2Imm9 o) o.qp (fun s => s.lp.grWritable o.r3 = false) (fun _ => illegalOperation)
    ∧ Traps (.st4R3R2Imm9 o) o.qp (fun s => s.lp.grReadable o.r3 = true ∧ s.lp.grReadable o.r2 = true ∧ IncOk s o.r3 (.imm (o.imm9.signExtend 64))
      ∧ ((s.lp.gr? o.r3).nat = true ∨ (s.lp.gr? o.r2).nat = true)) (fun _ => registerNatConsumption (accessBits .write))
    ∧ Skips (.st4R3R2Imm9 o) o.qp
    ∧ Traps (.st8R3R2Imm9 o) o.qp (fun s => s.lp.grWritable o.r3 = false) (fun _ => illegalOperation)
    ∧ Traps (.st8R3R2Imm9 o) o.qp (fun s => s.lp.grReadable o.r3 = true ∧ s.lp.grReadable o.r2 = true ∧ IncOk s o.r3 (.imm (o.imm9.signExtend 64))
      ∧ ((s.lp.gr? o.r3).nat = true ∨ (s.lp.gr? o.r2).nat = true)) (fun _ => registerNatConsumption (accessBits .write))
    ∧ Skips (.st8R3R2Imm9 o) o.qp
    ∧ Traps (.st1RelR3R2Imm9 o) o.qp (fun s => s.lp.grWritable o.r3 = false) (fun _ => illegalOperation)
    ∧ Traps (.st1RelR3R2Imm9 o) o.qp (fun s => s.lp.grReadable o.r3 = true ∧ s.lp.grReadable o.r2 = true ∧ IncOk s o.r3 (.imm (o.imm9.signExtend 64))
      ∧ ((s.lp.gr? o.r3).nat = true ∨ (s.lp.gr? o.r2).nat = true)) (fun _ => registerNatConsumption (accessBits .write))
    ∧ Skips (.st1RelR3R2Imm9 o) o.qp
    ∧ Traps (.st2RelR3R2Imm9 o) o.qp (fun s => s.lp.grWritable o.r3 = false) (fun _ => illegalOperation)
    ∧ Traps (.st2RelR3R2Imm9 o) o.qp (fun s => s.lp.grReadable o.r3 = true ∧ s.lp.grReadable o.r2 = true ∧ IncOk s o.r3 (.imm (o.imm9.signExtend 64))
      ∧ ((s.lp.gr? o.r3).nat = true ∨ (s.lp.gr? o.r2).nat = true)) (fun _ => registerNatConsumption (accessBits .write))
    ∧ Skips (.st2RelR3R2Imm9 o) o.qp
    ∧ Traps (.st4RelR3R2Imm9 o) o.qp (fun s => s.lp.grWritable o.r3 = false) (fun _ => illegalOperation)
    ∧ Traps (.st4RelR3R2Imm9 o) o.qp (fun s => s.lp.grReadable o.r3 = true ∧ s.lp.grReadable o.r2 = true ∧ IncOk s o.r3 (.imm (o.imm9.signExtend 64))
      ∧ ((s.lp.gr? o.r3).nat = true ∨ (s.lp.gr? o.r2).nat = true)) (fun _ => registerNatConsumption (accessBits .write))
    ∧ Skips (.st4RelR3R2Imm9 o) o.qp
    ∧ Traps (.st8RelR3R2Imm9 o) o.qp (fun s => s.lp.grWritable o.r3 = false) (fun _ => illegalOperation)
    ∧ Traps (.st8RelR3R2Imm9 o) o.qp (fun s => s.lp.grReadable o.r3 = true ∧ s.lp.grReadable o.r2 = true ∧ IncOk s o.r3 (.imm (o.imm9.signExtend 64))
      ∧ ((s.lp.gr? o.r3).nat = true ∨ (s.lp.gr? o.r2).nat = true)) (fun _ => registerNatConsumption (accessBits .write))
    ∧ Skips (.st8RelR3R2Imm9 o) o.qp
    ∧ Traps (.st8SpillR3R2Imm9 o) o.qp (fun s => s.lp.grWritable o.r3 = false) (fun _ => illegalOperation)
    ∧ Traps (.st8SpillR3R2Imm9 o) o.qp (fun s => s.lp.grReadable o.r3 = true ∧ s.lp.grReadable o.r2 = true ∧ IncOk s o.r3 (.imm (o.imm9.signExtend 64))
      ∧ ((s.lp.gr? o.r3).nat = true)) (fun _ => registerNatConsumption (accessBits .write))
    ∧ Skips (.st8SpillR3R2Imm9 o) o.qp)

/-- R583, R584 and R418: what an integer store leaves, in memory that is plainly accessible. -/
def Obligations.IntegerStores : Prop :=
  (∀ o : OpM4,
    StoresInt (.st1R3R2 o) 1 false o.qp o.r3 o.r2 .none
    ∧ StoresInt (.st2R3R2 o) 2 false o.qp o.r3 o.r2 .none
    ∧ StoresInt (.st4R3R2 o) 4 false o.qp o.r3 o.r2 .none
    ∧ StoresInt (.st8R3R2 o) 8 false o.qp o.r3 o.r2 .none
    ∧ StoresInt (.st1RelR3R2 o) 1 false o.qp o.r3 o.r2 .none
    ∧ StoresInt (.st2RelR3R2 o) 2 false o.qp o.r3 o.r2 .none
    ∧ StoresInt (.st4RelR3R2 o) 4 false o.qp o.r3 o.r2 .none
    ∧ StoresInt (.st8RelR3R2 o) 8 false o.qp o.r3 o.r2 .none
    ∧ StoresInt (.st8SpillR3R2 o) 8 true o.qp o.r3 o.r2 .none
    ∧ Stores16 (.st16R3R2ArCsd o) o.qp o.r3 o.r2
    ∧ Stores16 (.st16RelR3R2ArCsd o) o.qp o.r3 o.r2)
  ∧ (∀ o : OpM5,
    StoresInt (.st1R3R2Imm9 o) 1 false o.qp o.r3 o.r2 (.imm (o.imm9.signExtend 64))
    ∧ StoresInt (.st2R3R2Imm9 o) 2 false o.qp o.r3 o.r2 (.imm (o.imm9.signExtend 64))
    ∧ StoresInt (.st4R3R2Imm9 o) 4 false o.qp o.r3 o.r2 (.imm (o.imm9.signExtend 64))
    ∧ StoresInt (.st8R3R2Imm9 o) 8 false o.qp o.r3 o.r2 (.imm (o.imm9.signExtend 64))
    ∧ StoresInt (.st1RelR3R2Imm9 o) 1 false o.qp o.r3 o.r2 (.imm (o.imm9.signExtend 64))
    ∧ StoresInt (.st2RelR3R2Imm9 o) 2 false o.qp o.r3 o.r2 (.imm (o.imm9.signExtend 64))
    ∧ StoresInt (.st4RelR3R2Imm9 o) 4 false o.qp o.r3 o.r2 (.imm (o.imm9.signExtend 64))
    ∧ StoresInt (.st8RelR3R2Imm9 o) 8 false o.qp o.r3 o.r2 (.imm (o.imm9.signExtend 64))
    ∧ StoresInt (.st8SpillR3R2Imm9 o) 8 true o.qp o.r3 o.r2 (.imm (o.imm9.signExtend 64)))

/-- R585 to R587: what a floating-point load or store leaves. The formats are the family's (log 18); that the ALAT may
lose an entry is log 32. The model's choices: the entry of an advanced or check load pair is that of `f1` alone (log 32); with
`PSR.be` = 1 each element of a pair is big-endian in its own half (log 10); a speculative load with a NaT address and a check load
that finds its entry still increment the base (log 47). -/
def Obligations.FpLoadsAndStores : Prop :=
  (∀ o : OpM6,
    LoadsFp (.ldfeF1R3 o) {} .extended o.qp o.f1 o.r3 .none
    ∧ LoadsFp (.ldf8F1R3 o) {} .integer o.qp o.f1 o.r3 .none
    ∧ LoadsFp (.ldfsF1R3 o) {} .single o.qp o.f1 o.r3 .none
    ∧ LoadsFp (.ldfdF1R3 o) {} .double o.qp o.f1 o.r3 .none
    ∧ LoadsFp (.ldfeSF1R3 o) { spec := true } .extended o.qp o.f1 o.r3 .none
    ∧ LoadsFpNat (.ldfeSF1R3 o) { spec := true } o.qp o.f1 o.r3 .none
    ∧ LoadsFp (.ldf8SF1R3 o) { spec := true } .integer o.qp o.f1 o.r3 .none
    ∧ LoadsFpNat (.ldf8SF1R3 o) { spec := true } o.qp o.f1 o.r3 .none
    ∧ LoadsFp (.ldfsSF1R3 o) { spec := true } .single o.qp o.f1 o.r3 .none
    ∧ LoadsFpNat (.ldfsSF1R3 o) { spec := true } o.qp o.f1 o.r3 .none
    ∧ LoadsFp (.ldfdSF1R3 o) { spec := true } .double o.qp o.f1 o.r3 .none
    ∧ LoadsFpNat (.ldfdSF1R3 o) { spec := true } o.qp o.f1 o.r3 .none
    ∧ LoadsFp (.ldfeAF1R3 o) { adv := true } .extended o.qp o.f1 o.r3 .none
    ∧ LoadsFp (.ldf8AF1R3 o) { adv := true } .integer o.qp o.f1 o.r3 .none
    ∧ LoadsFp (.ldfsAF1R3 o) { adv := true } .single o.qp o.f1 o.r3 .none
    ∧ LoadsFp (.ldfdAF1R3 o) { adv := true } .double o.qp o.f1 o.r3 .none
    ∧ LoadsFp (.ldfeSaF1R3 o) { spec := true, adv := true } .extended o.qp o.f1 o.r3 .none
    ∧ LoadsFpNat (.ldfeSaF1R3 o) { spec := true, adv := true } o.qp o.f1 o.r3 .none
    ∧ LoadsFp (.ldf8SaF1R3 o) { spec := true, adv := true } .integer o.qp o.f1 o.r3 .none
    ∧ LoadsFpNat (.ldf8SaF1R3 o) { spec := true, adv := true } o.qp o.f1 o.r3 .none
    ∧ LoadsFp (.ldfsSaF1R3 o) { spec := true, adv := true } .single o.qp o.f1 o.r3 .none
    ∧ LoadsFpNat (.ldfsSaF1R3 o) { spec := true, adv := true } o.qp o.f1 o.r3 .none
    ∧ LoadsFp (.ldfdSaF1R3 o) { spec := true, adv := true } .double o.qp o.f1 o.r3 .none
    ∧ LoadsFpNat (.ldfdSaF1R3 o) { spec := true, adv := true } o.qp o.f1 o.r3 .none
    ∧ LoadsFp (.ldfFillF1R3 o) {} .image o.qp o.f1 o.r3 .none)
  ∧ (∀ o : OpM7,
    LoadsFp (.ldfeF1R3R2 o) {} .extended o.qp o.f1 o.r3 (.reg o.r2)
    ∧ LoadsFp (.ldf8F1R3R2 o) {} .integer o.qp o.f1 o.r3 (.reg o.r2)
    ∧ LoadsFp (.ldfsF1R3R2 o) {} .single o.qp o.f1 o.r3 (.reg o.r2)
    ∧ LoadsFp (.ldfdF1R3R2 o) {} .double o.qp o.f1 o.r3 (.reg o.r2)
    ∧ LoadsFp (.ldfeSF1R3R2 o) { spec := true } .extended o.qp o.f1 o.r3 (.reg o.r2)
    ∧ LoadsFpNat (.ldfeSF1R3R2 o) { spec := true } o.qp o.f1 o.r3 (.reg o.r2)
    ∧ LoadsFp (.ldf8SF1R3R2 o) { spec := true } .integer o.qp o.f1 o.r3 (.reg o.r2)
    ∧ LoadsFpNat (.ldf8SF1R3R2 o) { spec := true } o.qp o.f1 o.r3 (.reg o.r2)
    ∧ LoadsFp (.ldfsSF1R3R2 o) { spec := true } .single o.qp o.f1 o.r3 (.reg o.r2)
    ∧ LoadsFpNat (.ldfsSF1R3R2 o) { spec := true } o.qp o.f1 o.r3 (.reg o.r2)
    ∧ LoadsFp (.ldfdSF1R3R2 o) { spec := true } .double o.qp o.f1 o.r3 (.reg o.r2)
    ∧ LoadsFpNat (.ldfdSF1R3R2 o) { spec := true } o.qp o.f1 o.r3 (.reg o.r2)
    ∧ LoadsFp (.ldfeAF1R3R2 o) { adv := true } .extended o.qp o.f1 o.r3 (.reg o.r2)
    ∧ LoadsFp (.ldf8AF1R3R2 o) { adv := true } .integer o.qp o.f1 o.r3 (.reg o.r2)
    ∧ LoadsFp (.ldfsAF1R3R2 o) { adv := true } .single o.qp o.f1 o.r3 (.reg o.r2)
    ∧ LoadsFp (.ldfdAF1R3R2 o) { adv := true } .double o.qp o.f1 o.r3 (.reg o.r2)
    ∧ LoadsFp (.ldfeSaF1R3R2 o) { spec := true, adv := true } .extended o.qp o.f1 o.r3 (.reg o.r2)
    ∧ LoadsFpNat (.ldfeSaF1R3R2 o) { spec := true, adv := true } o.qp o.f1 o.r3 (.reg o.r2)
    ∧ LoadsFp (.ldf8SaF1R3R2 o) { spec := true, adv := true } .integer o.qp o.f1 o.r3 (.reg o.r2)
    ∧ LoadsFpNat (.ldf8SaF1R3R2 o) { spec := true, adv := true } o.qp o.f1 o.r3 (.reg o.r2)
    ∧ LoadsFp (.ldfsSaF1R3R2 o) { spec := true, adv := true } .single o.qp o.f1 o.r3 (.reg o.r2)
    ∧ LoadsFpNat (.ldfsSaF1R3R2 o) { spec := true, adv := true } o.qp o.f1 o.r3 (.reg o.r2)
    ∧ LoadsFp (.ldfdSaF1R3R2 o) { spec := true, adv := true } .double o.qp o.f1 o.r3 (.reg o.r2)
    ∧ LoadsFpNat (.ldfdSaF1R3R2 o) { spec := true, adv := true } o.qp o.f1 o.r3 (.reg o.r2)
    ∧ LoadsFp (.ldfFillF1R3R2 o) {} .image o.qp o.f1 o.r3 (.reg o.r2))
  ∧ (∀ o : OpM8,
    LoadsFp (.ldfeF1R3Imm9 o) {} .extended o.qp o.f1 o.r3 (.imm (o.imm9.signExtend 64))
    ∧ LoadsFp (.ldf8F1R3Imm9 o) {} .integer o.qp o.f1 o.r3 (.imm (o.imm9.signExtend 64))
    ∧ LoadsFp (.ldfsF1R3Imm9 o) {} .single o.qp o.f1 o.r3 (.imm (o.imm9.signExtend 64))
    ∧ LoadsFp (.ldfdF1R3Imm9 o) {} .double o.qp o.f1 o.r3 (.imm (o.imm9.signExtend 64))
    ∧ LoadsFp (.ldfeSF1R3Imm9 o) { spec := true } .extended o.qp o.f1 o.r3 (.imm (o.imm9.signExtend 64))
    ∧ LoadsFpNat (.ldfeSF1R3Imm9 o) { spec := true } o.qp o.f1 o.r3 (.imm (o.imm9.signExtend 64))
    ∧ LoadsFp (.ldf8SF1R3Imm9 o) { spec := true } .integer o.qp o.f1 o.r3 (.imm (o.imm9.signExtend 64))
    ∧ LoadsFpNat (.ldf8SF1R3Imm9 o) { spec := true } o.qp o.f1 o.r3 (.imm (o.imm9.signExtend 64))
    ∧ LoadsFp (.ldfsSF1R3Imm9 o) { spec := true } .single o.qp o.f1 o.r3 (.imm (o.imm9.signExtend 64))
    ∧ LoadsFpNat (.ldfsSF1R3Imm9 o) { spec := true } o.qp o.f1 o.r3 (.imm (o.imm9.signExtend 64))
    ∧ LoadsFp (.ldfdSF1R3Imm9 o) { spec := true } .double o.qp o.f1 o.r3 (.imm (o.imm9.signExtend 64))
    ∧ LoadsFpNat (.ldfdSF1R3Imm9 o) { spec := true } o.qp o.f1 o.r3 (.imm (o.imm9.signExtend 64))
    ∧ LoadsFp (.ldfeAF1R3Imm9 o) { adv := true } .extended o.qp o.f1 o.r3 (.imm (o.imm9.signExtend 64))
    ∧ LoadsFp (.ldf8AF1R3Imm9 o) { adv := true } .integer o.qp o.f1 o.r3 (.imm (o.imm9.signExtend 64))
    ∧ LoadsFp (.ldfsAF1R3Imm9 o) { adv := true } .single o.qp o.f1 o.r3 (.imm (o.imm9.signExtend 64))
    ∧ LoadsFp (.ldfdAF1R3Imm9 o) { adv := true } .double o.qp o.f1 o.r3 (.imm (o.imm9.signExtend 64))
    ∧ LoadsFp (.ldfeSaF1R3Imm9 o) { spec := true, adv := true } .extended o.qp o.f1 o.r3 (.imm (o.imm9.signExtend 64))
    ∧ LoadsFpNat (.ldfeSaF1R3Imm9 o) { spec := true, adv := true } o.qp o.f1 o.r3 (.imm (o.imm9.signExtend 64))
    ∧ LoadsFp (.ldf8SaF1R3Imm9 o) { spec := true, adv := true } .integer o.qp o.f1 o.r3 (.imm (o.imm9.signExtend 64))
    ∧ LoadsFpNat (.ldf8SaF1R3Imm9 o) { spec := true, adv := true } o.qp o.f1 o.r3 (.imm (o.imm9.signExtend 64))
    ∧ LoadsFp (.ldfsSaF1R3Imm9 o) { spec := true, adv := true } .single o.qp o.f1 o.r3 (.imm (o.imm9.signExtend 64))
    ∧ LoadsFpNat (.ldfsSaF1R3Imm9 o) { spec := true, adv := true } o.qp o.f1 o.r3 (.imm (o.imm9.signExtend 64))
    ∧ LoadsFp (.ldfdSaF1R3Imm9 o) { spec := true, adv := true } .double o.qp o.f1 o.r3 (.imm (o.imm9.signExtend 64))
    ∧ LoadsFpNat (.ldfdSaF1R3Imm9 o) { spec := true, adv := true } o.qp o.f1 o.r3 (.imm (o.imm9.signExtend 64))
    ∧ LoadsFp (.ldfFillF1R3Imm9 o) {} .image o.qp o.f1 o.r3 (.imm (o.imm9.signExtend 64)))
  ∧ (∀ o : OpM6,
    LoadsFp (.ldfeCClrF1R3 o) { check := true, clr := true } .extended o.qp o.f1 o.r3 .none
    ∧ ChecksFp (.ldfeCClrF1R3 o) true .extended o.qp o.f1 o.r3 .none
    ∧ LoadsFp (.ldf8CClrF1R3 o) { check := true, clr := true } .integer o.qp o.f1 o.r3 .none
    ∧ ChecksFp (.ldf8CClrF1R3 o) true .integer o.qp o.f1 o.r3 .none
    ∧ LoadsFp (.ldfsCClrF1R3 o) { check := true, clr := true } .single o.qp o.f1 o.r3 .none
    ∧ ChecksFp (.ldfsCClrF1R3 o) true .single o.qp o.f1 o.r3 .none
    ∧ LoadsFp (.ldfdCClrF1R3 o) { check := true, clr := true } .double o.qp o.f1 o.r3 .none
    ∧ ChecksFp (.ldfdCClrF1R3 o) true .double o.qp o.f1 o.r3 .none
    ∧ LoadsFp (.ldfeCNcF1R3 o) { check := true } .extended o.qp o.f1 o.r3 .none
    ∧ ChecksFp (.ldfeCNcF1R3 o) false .extended o.qp o.f1 o.r3 .none
    ∧ LoadsFp (.ldf8CNcF1R3 o) { check := true } .integer o.qp o.f1 o.r3 .none
    ∧ ChecksFp (.ldf8CNcF1R3 o) false .integer o.qp o.f1 o.r3 .none
    ∧ LoadsFp (.ldfsCNcF1R3 o) { check := true } .single o.qp o.f1 o.r3 .none
    ∧ ChecksFp (.ldfsCNcF1R3 o) false .single o.qp o.f1 o.r3 .none
    ∧ LoadsFp (.ldfdCNcF1R3 o) { check := true } .double o.qp o.f1 o.r3 .none
    ∧ ChecksFp (.ldfdCNcF1R3 o) false .double o.qp o.f1 o.r3 .none)
  ∧ (∀ o : OpM7,
    LoadsFp (.ldfeCClrF1R3R2 o) { check := true, clr := true } .extended o.qp o.f1 o.r3 (.reg o.r2)
    ∧ ChecksFp (.ldfeCClrF1R3R2 o) true .extended o.qp o.f1 o.r3 (.reg o.r2)
    ∧ LoadsFp (.ldf8CClrF1R3R2 o) { check := true, clr := true } .integer o.qp o.f1 o.r3 (.reg o.r2)
    ∧ ChecksFp (.ldf8CClrF1R3R2 o) true .integer o.qp o.f1 o.r3 (.reg o.r2)
    ∧ LoadsFp (.ldfsCClrF1R3R2 o) { check := true, clr := true } .single o.qp o.f1 o.r3 (.reg o.r2)
    ∧ ChecksFp (.ldfsCClrF1R3R2 o) true .single o.qp o.f1 o.r3 (.reg o.r2)
    ∧ LoadsFp (.ldfdCClrF1R3R2 o) { check := true, clr := true } .double o.qp o.f1 o.r3 (.reg o.r2)
    ∧ ChecksFp (.ldfdCClrF1R3R2 o) true .double o.qp o.f1 o.r3 (.reg o.r2)
    ∧ LoadsFp (.ldfeCNcF1R3R2 o) { check := true } .extended o.qp o.f1 o.r3 (.reg o.r2)
    ∧ ChecksFp (.ldfeCNcF1R3R2 o) false .extended o.qp o.f1 o.r3 (.reg o.r2)
    ∧ LoadsFp (.ldf8CNcF1R3R2 o) { check := true } .integer o.qp o.f1 o.r3 (.reg o.r2)
    ∧ ChecksFp (.ldf8CNcF1R3R2 o) false .integer o.qp o.f1 o.r3 (.reg o.r2)
    ∧ LoadsFp (.ldfsCNcF1R3R2 o) { check := true } .single o.qp o.f1 o.r3 (.reg o.r2)
    ∧ ChecksFp (.ldfsCNcF1R3R2 o) false .single o.qp o.f1 o.r3 (.reg o.r2)
    ∧ LoadsFp (.ldfdCNcF1R3R2 o) { check := true } .double o.qp o.f1 o.r3 (.reg o.r2)
    ∧ ChecksFp (.ldfdCNcF1R3R2 o) false .double o.qp o.f1 o.r3 (.reg o.r2))
  ∧ (∀ o : OpM8,
    LoadsFp (.ldfeCClrF1R3Imm9 o) { check := true, clr := true } .extended o.qp o.f1 o.r3 (.imm (o.imm9.signExtend 64))
    ∧ ChecksFp (.ldfeCClrF1R3Imm9 o) true .extended o.qp o.f1 o.r3 (.imm (o.imm9.signExtend 64))
    ∧ LoadsFp (.ldf8CClrF1R3Imm9 o) { check := true, clr := true } .integer o.qp o.f1 o.r3 (.imm (o.imm9.signExtend 64))
    ∧ ChecksFp (.ldf8CClrF1R3Imm9 o) true .integer o.qp o.f1 o.r3 (.imm (o.imm9.signExtend 64))
    ∧ LoadsFp (.ldfsCClrF1R3Imm9 o) { check := true, clr := true } .single o.qp o.f1 o.r3 (.imm (o.imm9.signExtend 64))
    ∧ ChecksFp (.ldfsCClrF1R3Imm9 o) true .single o.qp o.f1 o.r3 (.imm (o.imm9.signExtend 64))
    ∧ LoadsFp (.ldfdCClrF1R3Imm9 o) { check := true, clr := true } .double o.qp o.f1 o.r3 (.imm (o.imm9.signExtend 64))
    ∧ ChecksFp (.ldfdCClrF1R3Imm9 o) true .double o.qp o.f1 o.r3 (.imm (o.imm9.signExtend 64))
    ∧ LoadsFp (.ldfeCNcF1R3Imm9 o) { check := true } .extended o.qp o.f1 o.r3 (.imm (o.imm9.signExtend 64))
    ∧ ChecksFp (.ldfeCNcF1R3Imm9 o) false .extended o.qp o.f1 o.r3 (.imm (o.imm9.signExtend 64))
    ∧ LoadsFp (.ldf8CNcF1R3Imm9 o) { check := true } .integer o.qp o.f1 o.r3 (.imm (o.imm9.signExtend 64))
    ∧ ChecksFp (.ldf8CNcF1R3Imm9 o) false .integer o.qp o.f1 o.r3 (.imm (o.imm9.signExtend 64))
    ∧ LoadsFp (.ldfsCNcF1R3Imm9 o) { check := true } .single o.qp o.f1 o.r3 (.imm (o.imm9.signExtend 64))
    ∧ ChecksFp (.ldfsCNcF1R3Imm9 o) false .single o.qp o.f1 o.r3 (.imm (o.imm9.signExtend 64))
    ∧ LoadsFp (.ldfdCNcF1R3Imm9 o) { check := true } .double o.qp o.f1 o.r3 (.imm (o.imm9.signExtend 64))
    ∧ ChecksFp (.ldfdCNcF1R3Imm9 o) false .double o.qp o.f1 o.r3 (.imm (o.imm9.signExtend 64)))
  ∧ (∀ o : OpM11,
    LoadsPair (.ldfp8F1F2R3 o) {} .integer o.qp o.f1 o.f2 o.r3 .none
    ∧ LoadsPair (.ldfp8F1F2R316 o) {} .integer o.qp o.f1 o.f2 o.r3 (.imm 16#64)
    ∧ LoadsPair (.ldfpsF1F2R3 o) {} .single o.qp o.f1 o.f2 o.r3 .none
    ∧ LoadsPair (.ldfpsF1F2R38 o) {} .single o.qp o.f1 o.f2 o.r3 (.imm 8#64)
    ∧ LoadsPair (.ldfpdF1F2R3 o) {} .double o.qp o.f1 o.f2 o.r3 .none
    ∧ LoadsPair (.ldfpdF1F2R316 o) {} .double o.qp o.f1 o.f2 o.r3 (.imm 16#64)
    ∧ LoadsPair (.ldfp8SF1F2R3 o) { spec := true } .integer o.qp o.f1 o.f2 o.r3 .none
    ∧ LoadsPairNat (.ldfp8SF1F2R3 o) { spec := true } o.qp o.f1 o.f2 o.r3 .none
    ∧ LoadsPair (.ldfp8SF1F2R316 o) { spec := true } .integer o.qp o.f1 o.f2 o.r3 (.imm 16#64)
    ∧ LoadsPairNat (.ldfp8SF1F2R316 o) { spec := true } o.qp o.f1 o.f2 o.r3 (.imm 16#64)
    ∧ LoadsPair (.ldfpsSF1F2R3 o) { spec := true } .single o.qp o.f1 o.f2 o.r3 .none
    ∧ LoadsPairNat (.ldfpsSF1F2R3 o) { spec := true } o.qp o.f1 o.f2 o.r3 .none
    ∧ LoadsPair (.ldfpsSF1F2R38 o) { spec := true } .single o.qp o.f1 o.f2 o.r3 (.imm 8#64)
    ∧ LoadsPairNat (.ldfpsSF1F2R38 o) { spec := true } o.qp o.f1 o.f2 o.r3 (.imm 8#64)
    ∧ LoadsPair (.ldfpdSF1F2R3 o) { spec := true } .double o.qp o.f1 o.f2 o.r3 .none
    ∧ LoadsPairNat (.ldfpdSF1F2R3 o) { spec := true } o.qp o.f1 o.f2 o.r3 .none
    ∧ LoadsPair (.ldfpdSF1F2R316 o) { spec := true } .double o.qp o.f1 o.f2 o.r3 (.imm 16#64)
    ∧ LoadsPairNat (.ldfpdSF1F2R316 o) { spec := true } o.qp o.f1 o.f2 o.r3 (.imm 16#64)
    ∧ LoadsPair (.ldfp8AF1F2R3 o) { adv := true } .integer o.qp o.f1 o.f2 o.r3 .none
    ∧ LoadsPair (.ldfp8AF1F2R316 o) { adv := true } .integer o.qp o.f1 o.f2 o.r3 (.imm 16#64)
    ∧ LoadsPair (.ldfpsAF1F2R3 o) { adv := true } .single o.qp o.f1 o.f2 o.r3 .none
    ∧ LoadsPair (.ldfpsAF1F2R38 o) { adv := true } .single o.qp o.f1 o.f2 o.r3 (.imm 8#64)
    ∧ LoadsPair (.ldfpdAF1F2R3 o) { adv := true } .double o.qp o.f1 o.f2 o.r3 .none
    ∧ LoadsPair (.ldfpdAF1F2R316 o) { adv := true } .double o.qp o.f1 o.f2 o.r3 (.imm 16#64)
    ∧ LoadsPair (.ldfp8SaF1F2R3 o) { spec := true, adv := true } .integer o.qp o.f1 o.f2 o.r3 .none
    ∧ LoadsPairNat (.ldfp8SaF1F2R3 o) { spec := true, adv := true } o.qp o.f1 o.f2 o.r3 .none
    ∧ LoadsPair (.ldfp8SaF1F2R316 o) { spec := true, adv := true } .integer o.qp o.f1 o.f2 o.r3 (.imm 16#64)
    ∧ LoadsPairNat (.ldfp8SaF1F2R316 o) { spec := true, adv := true } o.qp o.f1 o.f2 o.r3 (.imm 16#64)
    ∧ LoadsPair (.ldfpsSaF1F2R3 o) { spec := true, adv := true } .single o.qp o.f1 o.f2 o.r3 .none
    ∧ LoadsPairNat (.ldfpsSaF1F2R3 o) { spec := true, adv := true } o.qp o.f1 o.f2 o.r3 .none
    ∧ LoadsPair (.ldfpsSaF1F2R38 o) { spec := true, adv := true } .single o.qp o.f1 o.f2 o.r3 (.imm 8#64)
    ∧ LoadsPairNat (.ldfpsSaF1F2R38 o) { spec := true, adv := true } o.qp o.f1 o.f2 o.r3 (.imm 8#64)
    ∧ LoadsPair (.ldfpdSaF1F2R3 o) { spec := true, adv := true } .double o.qp o.f1 o.f2 o.r3 .none
    ∧ LoadsPairNat (.ldfpdSaF1F2R3 o) { spec := true, adv := true } o.qp o.f1 o.f2 o.r3 .none
    ∧ LoadsPair (.ldfpdSaF1F2R316 o) { spec := true, adv := true } .double o.qp o.f1 o.f2 o.r3 (.imm 16#64)
    ∧ LoadsPairNat (.ldfpdSaF1F2R316 o) { spec := true, adv := true } o.qp o.f1 o.f2 o.r3 (.imm 16#64)
    ∧ LoadsPair (.ldfp8CClrF1F2R3 o) { check := true, clr := true } .integer o.qp o.f1 o.f2 o.r3 .none
    ∧ ChecksPair (.ldfp8CClrF1F2R3 o) true .integer o.qp o.f1 o.f2 o.r3 .none
    ∧ LoadsPair (.ldfp8CClrF1F2R316 o) { check := true, clr := true } .integer o.qp o.f1 o.f2 o.r3 (.imm 16#64)
    ∧ ChecksPair (.ldfp8CClrF1F2R316 o) true .integer o.qp o.f1 o.f2 o.r3 (.imm 16#64)
    ∧ LoadsPair (.ldfpsCClrF1F2R3 o) { check := true, clr := true } .single o.qp o.f1 o.f2 o.r3 .none
    ∧ ChecksPair (.ldfpsCClrF1F2R3 o) true .single o.qp o.f1 o.f2 o.r3 .none
    ∧ LoadsPair (.ldfpsCClrF1F2R38 o) { check := true, clr := true } .single o.qp o.f1 o.f2 o.r3 (.imm 8#64)
    ∧ ChecksPair (.ldfpsCClrF1F2R38 o) true .single o.qp o.f1 o.f2 o.r3 (.imm 8#64)
    ∧ LoadsPair (.ldfpdCClrF1F2R3 o) { check := true, clr := true } .double o.qp o.f1 o.f2 o.r3 .none
    ∧ ChecksPair (.ldfpdCClrF1F2R3 o) true .double o.qp o.f1 o.f2 o.r3 .none
    ∧ LoadsPair (.ldfpdCClrF1F2R316 o) { check := true, clr := true } .double o.qp o.f1 o.f2 o.r3 (.imm 16#64)
    ∧ ChecksPair (.ldfpdCClrF1F2R316 o) true .double o.qp o.f1 o.f2 o.r3 (.imm 16#64)
    ∧ LoadsPair (.ldfp8CNcF1F2R3 o) { check := true } .integer o.qp o.f1 o.f2 o.r3 .none
    ∧ ChecksPair (.ldfp8CNcF1F2R3 o) false .integer o.qp o.f1 o.f2 o.r3 .none
    ∧ LoadsPair (.ldfp8CNcF1F2R316 o) { check := true } .integer o.qp o.f1 o.f2 o.r3 (.imm 16#64)
    ∧ ChecksPair (.ldfp8CNcF1F2R316 o) false .integer o.qp o.f1 o.f2 o.r3 (.imm 16#64)
    ∧ LoadsPair (.ldfpsCNcF1F2R3 o) { check := true } .single o.qp o.f1 o.f2 o.r3 .none
    ∧ ChecksPair (.ldfpsCNcF1F2R3 o) false .single o.qp o.f1 o.f2 o.r3 .none
    ∧ LoadsPair (.ldfpsCNcF1F2R38 o) { check := true } .single o.qp o.f1 o.f2 o.r3 (.imm 8#64)
    ∧ ChecksPair (.ldfpsCNcF1F2R38 o) false .single o.qp o.f1 o.f2 o.r3 (.imm 8#64)
    ∧ LoadsPair (.ldfpdCNcF1F2R3 o) { check := true } .double o.qp o.f1 o.f2 o.r3 .none
    ∧ ChecksPair (.ldfpdCNcF1F2R3 o) false .double o.qp o.f1 o.f2 o.r3 .none
    ∧ LoadsPair (.ldfpdCNcF1F2R316 o) { check := true } .double o.qp o.f1 o.f2 o.r3 (.imm 16#64)
    ∧ ChecksPair (.ldfpdCNcF1F2R316 o) false .double o.qp o.f1 o.f2 o.r3 (.imm 16#64))
  ∧ (∀ o : OpM9,
    StoresFp (.stfeR3F2 o) .extended o.qp o.r3 o.f2 .none
    ∧ StoresFp (.stf8R3F2 o) .integer o.qp o.r3 o.f2 .none
    ∧ StoresFp (.stfsR3F2 o) .single o.qp o.r3 o.f2 .none
    ∧ StoresFp (.stfdR3F2 o) .double o.qp o.r3 o.f2 .none
    ∧ StoresFp (.stfSpillR3F2 o) .image o.qp o.r3 o.f2 .none)
  ∧ (∀ o : OpM10,
    StoresFp (.stfeR3F2Imm9 o) .extended o.qp o.r3 o.f2 (.imm (o.imm9.signExtend 64))
    ∧ StoresFp (.stf8R3F2Imm9 o) .integer o.qp o.r3 o.f2 (.imm (o.imm9.signExtend 64))
    ∧ StoresFp (.stfsR3F2Imm9 o) .single o.qp o.r3 o.f2 (.imm (o.imm9.signExtend 64))
    ∧ StoresFp (.stfdR3F2Imm9 o) .double o.qp o.r3 o.f2 (.imm (o.imm9.signExtend 64))
    ∧ StoresFp (.stfSpillR3F2Imm9 o) .image o.qp o.r3 o.f2 (.imm (o.imm9.signExtend 64)))

/-- R590 to R593: the semaphores on plain memory. -/
def Obligations.Semaphores : Prop :=
  (∀ o : OpM2,
    Exchanges (.cmpxchg1Acq o) 1 1 o.qp o.r1 o.r3 (fun s => Usable s o.r2)
      (fun s old => if old = s.lp.ar.ccv.toNat % 256 ^ 1 then some (s.lp.gr? o.r2).val.toNat else none)
    ∧ Exchanges (.cmpxchg1Rel o) 1 1 o.qp o.r1 o.r3 (fun s => Usable s o.r2)
      (fun s old => if old = s.lp.ar.ccv.toNat % 256 ^ 1 then some (s.lp.gr? o.r2).val.toNat else none)
    ∧ Exchanges (.xchg1 o) 1 1 o.qp o.r1 o.r3 (fun s => Usable s o.r2)
      (fun s _ => some (s.lp.gr? o.r2).val.toNat)
    ∧ Exchanges (.cmpxchg2Acq o) 2 2 o.qp o.r1 o.r3 (fun s => Usable s o.r2)
      (fun s old => if old = s.lp.ar.ccv.toNat % 256 ^ 2 then some (s.lp.gr? o.r2).val.toNat else none)
    ∧ Exchanges (.cmpxchg2Rel o) 2 2 o.qp o.r1 o.r3 (fun s => Usable s o.r2)
      (fun s old => if old = s.lp.ar.ccv.toNat % 256 ^ 2 then some (s.lp.gr? o.r2).val.toNat else none)
    ∧ Exchanges (.xchg2 o) 2 2 o.qp o.r1 o.r3 (fun s => Usable s o.r2)
      (fun s _ => some (s.lp.gr? o.r2).val.toNat)
    ∧ Exchanges (.cmpxchg4Acq o) 4 4 o.qp o.r1 o.r3 (fun s => Usable s o.r2)
      (fun s old => if old = s.lp.ar.ccv.toNat % 256 ^ 4 then some (s.lp.gr? o.r2).val.toNat else none)
    ∧ Exchanges (.cmpxchg4Rel o) 4 4 o.qp o.r1 o.r3 (fun s => Usable s o.r2)
      (fun s old => if old = s.lp.ar.ccv.toNat % 256 ^ 4 then some (s.lp.gr? o.r2).val.toNat else none)
    ∧ Exchanges (.xchg4 o) 4 4 o.qp o.r1 o.r3 (fun s => Usable s o.r2)
      (fun s _ => some (s.lp.gr? o.r2).val.toNat)
    ∧ Exchanges (.cmpxchg8Acq o) 8 8 o.qp o.r1 o.r3 (fun s => Usable s o.r2)
      (fun s old => if old = s.lp.ar.ccv.toNat % 256 ^ 8 then some (s.lp.gr? o.r2).val.toNat else none)
    ∧ Exchanges (.cmpxchg8Rel o) 8 8 o.qp o.r1 o.r3 (fun s => Usable s o.r2)
      (fun s old => if old = s.lp.ar.ccv.toNat % 256 ^ 8 then some (s.lp.gr? o.r2).val.toNat else none)
    ∧ Exchanges (.xchg8 o) 8 8 o.qp o.r1 o.r3 (fun s => Usable s o.r2)
      (fun s _ => some (s.lp.gr? o.r2).val.toNat)
    ∧ Exchanges (.cmp8xchg16Acq o) 8 16 o.qp o.r1 o.r3 (fun s => Usable s o.r2)
      (fun s old => if old = s.lp.ar.ccv.toNat then
        some (joinHalves s.bigData 8 (s.lp.gr? o.r2).val.toNat s.lp.ar.csd.toNat) else none)
    ∧ Exchanges (.cmp8xchg16Rel o) 8 16 o.qp o.r1 o.r3 (fun s => Usable s o.r2)
      (fun s old => if old = s.lp.ar.ccv.toNat then
        some (joinHalves s.bigData 8 (s.lp.gr? o.r2).val.toNat s.lp.ar.csd.toNat) else none))
  ∧ (∀ o : OpM17,
    Exchanges (.fetchadd4Acq o) 4 4 o.qp o.r1 o.r3 (fun _ => True)
      (fun _ old => some (((old : Int) + inc3 o.s o.i2b) % (256 ^ 4 : Nat)).toNat)
    ∧ Exchanges (.fetchadd8Acq o) 8 8 o.qp o.r1 o.r3 (fun _ => True)
      (fun _ old => some (((old : Int) + inc3 o.s o.i2b) % (256 ^ 8 : Nat)).toNat)
    ∧ Exchanges (.fetchadd4Rel o) 4 4 o.qp o.r1 o.r3 (fun _ => True)
      (fun _ old => some (((old : Int) + inc3 o.s o.i2b) % (256 ^ 4 : Nat)).toNat)
    ∧ Exchanges (.fetchadd8Rel o) 8 8 o.qp o.r1 o.r3 (fun _ => True)
      (fun _ old => some (((old : Int) + inc3 o.s o.i2b) % (256 ^ 8 : Nat)).toNat))

/-- R594 and R595: the whole effect. The conversions are the family's (log 18); that `getf` of NaTVal writes the value of the field
under the NaT bit is the model's choice (log 47). -/
def Obligations.RegisterFileTransfers : Prop :=
  (∀ o : OpM18,
    Effect (.setfSig o) o.qp (fun s => FrWritable s o.f1 ∧ s.lp.grReadable o.r2 = true)
      (fun s => s.setFr o.f1 (if (s.lp.gr? o.r2).nat then natVal else 0#1 ++ 0x1003E#17 ++ (s.lp.gr? o.r2).val))
    ∧ Effect (.setfExp o) o.qp (fun s => FrWritable s o.f1 ∧ s.lp.grReadable o.r2 = true)
      (fun s => s.setFr o.f1 (if (s.lp.gr? o.r2).nat then natVal else BitVec.ofBool ((s.lp.gr? o.r2).val.getLsbD 17) ++ (s.lp.gr? o.r2).val.extractLsb' 0 17 ++ 0x8000000000000000#64))
    ∧ Effect (.setfS o) o.qp (fun s => FrWritable s o.f1 ∧ s.lp.grReadable o.r2 = true)
      (fun s => s.setFr o.f1 (if (s.lp.gr? o.r2).nat then natVal else fromMemory .single ((s.lp.gr? o.r2).val.toNat % 2 ^ 32)))
    ∧ Effect (.setfD o) o.qp (fun s => FrWritable s o.f1 ∧ s.lp.grReadable o.r2 = true)
      (fun s => s.setFr o.f1 (if (s.lp.gr? o.r2).nat then natVal else fromMemory .double (s.lp.gr? o.r2).val.toNat)))
  ∧ (∀ o : OpM19,
    Effect (.getfSig o) o.qp (fun s => s.lp.grWritable o.r1 = true ∧ s.lp.frEnabled o.f2 = true)
      (fun s => s.setGr o.r1 ⟨(s.lp.fr? o.f2).extractLsb' 0 64, decide (s.lp.fr? o.f2 = natVal)⟩)
    ∧ Effect (.getfExp o) o.qp (fun s => s.lp.grWritable o.r1 = true ∧ s.lp.frEnabled o.f2 = true)
      (fun s => s.setGr o.r1 ⟨((s.lp.fr? o.f2).extractLsb' 81 1 ++ (s.lp.fr? o.f2).extractLsb' 64 17).setWidth 64, decide (s.lp.fr? o.f2 = natVal)⟩)
    ∧ Effect (.getfS o) o.qp (fun s => s.lp.grWritable o.r1 = true ∧ s.lp.frEnabled o.f2 = true)
      (fun s => s.setGr o.r1 ⟨BitVec.ofNat 64 (toMemory .single (s.lp.fr? o.f2)), decide (s.lp.fr? o.f2 = natVal)⟩)
    ∧ Effect (.getfD o) o.qp (fun s => s.lp.grWritable o.r1 = true ∧ s.lp.frEnabled o.f2 = true)
      (fun s => s.setGr o.r1 ⟨BitVec.ofNat 64 (toMemory .double (s.lp.fr? o.f2)), decide (s.lp.fr? o.f2 = natVal)⟩))
  ∧ (∀ w : Word, w.toNat < 2 ^ 32 → toMemory .single (fromMemory .single w.toNat) = w.toNat)
  ∧ (∀ w : Word, toMemory .double (fromMemory .double w.toNat) = w.toNat)

/-- R549, R596 and R597: both ends of each check. -/
def Obligations.SpeculationChecks : Prop :=
  (∀ o : OpI20,
    Checks (.chkSI o) o.qp (fun s => s.lp.grReadable o.r2 = true) (fun s => (s.lp.gr? o.r2).nat)
      (fun s => s.noteCheck false false false false (s.lp.gr? o.r2).nat) (fun s => s.lp.ip + (o.target25.signExtend 64 <<< 4))
    ∧ Checks (.chkSMR2 o) o.qp (fun s => s.lp.grReadable o.r2 = true) (fun s => (s.lp.gr? o.r2).nat)
      (fun s => s.noteCheck false false false false (s.lp.gr? o.r2).nat) (fun s => s.lp.ip + (o.target25.signExtend 64 <<< 4)))
  ∧ (∀ o : OpM21,
    Checks (.chkSF2 o) o.qp (fun s => s.lp.frEnabled o.f2 = true) (fun s => decide (s.lp.fr? o.f2 = natVal))
      (fun s => s.noteCheck false false true false (decide (s.lp.fr? o.f2 = natVal))) (fun s => s.lp.ip + (o.target25.signExtend 64 <<< 4)))
  ∧ (∀ o : OpM22,
    ChecksAlat (.chkANcR1 o) o.qp (fun s => !(checkAlat s false o.r1).1)
      (fun s => (checkAlat s false o.r1).2.noteCheck true false false false (!(checkAlat s false o.r1).1))
      (fun s => s.lp.ip + (o.target25.signExtend 64 <<< 4))
    ∧ ChecksAlat (.chkAClrR1 o) o.qp (fun s => !(checkAlat s false o.r1).1)
      (fun s => if (checkAlat s false o.r1).1 then ((checkAlat s false o.r1).2.noteCheck true false false true (!(checkAlat s false o.r1).1)).removeAlat false o.r1 else (checkAlat s false o.r1).2.noteCheck true false false true (!(checkAlat s false o.r1).1))
      (fun s => s.lp.ip + (o.target25.signExtend 64 <<< 4)))
  ∧ (∀ o : OpM23,
    ChecksAlat (.chkANcF1 o) o.qp (fun s => !(checkAlat s true o.f1).1)
      (fun s => (checkAlat s true o.f1).2.noteCheck true false true false (!(checkAlat s true o.f1).1))
      (fun s => s.lp.ip + (o.target25.signExtend 64 <<< 4))
    ∧ ChecksAlat (.chkAClrF1 o) o.qp (fun s => !(checkAlat s true o.f1).1)
      (fun s => if (checkAlat s true o.f1).1 then ((checkAlat s true o.f1).2.noteCheck true false true true (!(checkAlat s true o.f1).1)).removeAlat true o.f1 else (checkAlat s true o.f1).2.noteCheck true false true true (!(checkAlat s true o.f1).1))
      (fun s => s.lp.ip + (o.target25.signExtend 64 <<< 4)))
  ∧ (∀ (s : State) (fp : Bool) (r : BitVec 7),
    (NoEntry s fp r → checkAlat s fp r = (false, s))
    ∧ (¬ NoEntry s fp r → checkAlat s fp r = (true, { s with free := s.free + 1 })
      ∨ checkAlat s fp r = (false, { s.removeAlat fp r with free := s.free + 1 })))

/-- R611, R612 and R633 to R636. What becomes of the reserved bit 0 is the model's choice (log 4). -/
def Obligations.ProcessorStatusMoves : Prop :=
  (∀ o : OpM44,
    Effect (.sum o) o.qp (fun _ => o.imm24 &&& ~~~0x3F#24 = 0#24) (fun s => s.setUserMask ((s.lp.psr &&& 0x3F#64) ||| (o.imm24.setWidth 64 &&& 0x3E#64)))
    ∧ Traps (.sum o) o.qp (fun _ => o.imm24 &&& ~~~0x3F#24 ≠ 0#24) (fun _ => reservedRegisterField)
    ∧ Effect (.rum o) o.qp (fun _ => o.imm24 &&& ~~~0x3F#24 = 0#24) (fun s => s.setUserMask ((s.lp.psr &&& 0x3F#64) &&& ~~~(o.imm24.setWidth 64 &&& 0x3E#64)))
    ∧ Traps (.rum o) o.qp (fun _ => o.imm24 &&& ~~~0x3F#24 ≠ 0#24) (fun _ => reservedRegisterField)
    ∧ Effect (.ssm o) o.qp (fun s => s.lp.cpl = 0#2 ∧ o.imm24.setWidth 64 &&& psrReserved = 0#64)
      (fun s => s.setLp { s.lp with psr := s.lp.psr ||| o.imm24.setWidth 64 })
    ∧ Effect (.rsm o) o.qp (fun s => s.lp.cpl = 0#2) (fun s => s.setLp { s.lp with psr := s.lp.psr &&& ~~~(o.imm24.setWidth 64) })
    ∧ Traps (.ssm o) o.qp (fun s => s.lp.cpl ≠ 0#2) (fun _ => privilegedOperation)
    ∧ Traps (.rsm o) o.qp (fun s => s.lp.cpl ≠ 0#2) (fun _ => privilegedOperation)
    ∧ Traps (.ssm o) o.qp (fun s => s.lp.cpl = 0#2 ∧ o.imm24.setWidth 64 &&& psrReserved ≠ 0#64) (fun _ => reservedRegisterField))
  ∧ (∀ o : OpM41,
    Effect (.movPsrLR2 o) o.qp
      (fun s => s.lp.cpl = 0#2 ∧ Usable s o.r2 ∧ (s.lp.gr? o.r2).val &&& 0xFFFFFFFF#64 &&& psrReserved = 0#64)
      (fun s => s.setLp { s.lp with psr := (s.lp.psr &&& 0xFFFFFFFF00000000#64) ||| ((s.lp.gr? o.r2).val &&& 0xFFFFFFFF#64) })
    ∧ Traps (.movPsrLR2 o) o.qp (fun s => s.lp.grReadable o.r2 = false) (fun _ => illegalOperation)
    ∧ Traps (.movPsrLR2 o) o.qp (fun s => s.lp.grReadable o.r2 = true ∧ s.lp.cpl ≠ 0#2) (fun _ => privilegedOperation)
    ∧ Effect (.movPsrUmR2 o) o.qp (fun s => Usable s o.r2 ∧ (s.lp.gr? o.r2).val.getLsbD 0 = false)
      (fun s => s.setUserMask ((s.lp.gr? o.r2).val &&& 0x3F#64)))
  ∧ (∀ o : OpI25,
    Effect (.movR1Psr o) o.qp (fun s => s.lp.grWritable o.r1 = true ∧ s.lp.cpl = 0#2)
      (fun s => s.setGr o.r1 ⟨s.lp.psr &&& 0x18FFFFFFFF#64, false⟩)
    ∧ Traps (.movR1Psr o) o.qp (fun s => s.lp.grWritable o.r1 = true ∧ s.lp.cpl ≠ 0#2) (fun _ => privilegedOperation)
    ∧ Result0 (.movR1PsrUm o) o.qp o.r1 (fun s => if s.lp.psr.getLsbD 20 then s.lp.psr &&& 0x3B#64 else s.lp.psr &&& 0x3F#64))
  ∧ (∀ (s : State) (um : Word) (i : Nat),
    (s.setUserMask um).lp.psr.getLsbD i =
      (if i < 6 ∧ ¬ (i = 2 ∧ s.lp.psr.getLsbD 20 = true) then um.getLsbD i else s.lp.psr.getLsbD i)
    ∧ s.setUserMask um = { s with lp := { s.lp with psr := (s.setUserMask um).lp.psr } })

/-- R588, R598 to R605 and R640: the instructions without effect on the model's state, and the ALAT instructions. -/
def Obligations.FencesPrefetchesAndAlat : Prop :=
  (∀ o : OpM24,
    Effect (.fwb o) o.qp (fun _ => True) (fun s => s)
    ∧ Effect (.mf o) o.qp (fun _ => True) (fun s => s)
    ∧ Effect (.mfA o) o.qp (fun _ => True) (fun s => s)
    ∧ Effect (.syncI o) o.qp (fun _ => True) (fun s => s)
    ∧ Effect (.srlzD o) o.qp (fun _ => True) (fun s => s)
    ∧ Effect (.srlzI o) o.qp (fun _ => True) (fun s => s.setLp { s.lp with ev := { s.lp.ev with serialize := true } })
    ∧ Effect (.invala o) o.qp (fun _ => True) (fun s => s.setLp { s.lp with alat := [] }))
  ∧ (∀ o : OpI25,
    Effect (.invalaER1 o) o.qp (fun _ => True) (fun s => s.setLp { s.lp with alat := s.lp.alat.filter fun e => !(e.fp == false && e.reg == s.lp.alatKey false o.r1) }))
  ∧ (∀ o : OpM27,
    Effect (.invalaEF1 o) o.qp (fun _ => True) (fun s => s.setLp { s.lp with alat := s.lp.alat.filter fun e => !(e.fp == true && e.reg == s.lp.alatKey true o.f1) }))
  ∧ (∀ o : OpM47,
    Effect (.fcR3 o) o.qp (fun s => Usable s o.r3 ∧ ∃ a, translateAddr s (s.lp.gr? o.r3).val .read = .ok a) (fun s => s)
    ∧ Traps (.fcR3 o) o.qp (fun s => s.lp.grReadable o.r3 = true ∧ (s.lp.gr? o.r3).nat = true)
      (fun _ => registerNatConsumption (accessBits .nonAccess ||| accessBits .read))
    ∧ Effect (.fcIR3 o) o.qp (fun s => Usable s o.r3 ∧ ∃ a, translateAddr s (s.lp.gr? o.r3).val .read = .ok a) (fun s => s)
    ∧ Traps (.fcIR3 o) o.qp (fun s => s.lp.grReadable o.r3 = true ∧ (s.lp.gr? o.r3).nat = true)
      (fun _ => registerNatConsumption (accessBits .nonAccess ||| accessBits .read)))
  ∧ (∀ o : OpM13,
    Prefetches (.lfetchR3 o) false o.qp o.r3 .none
    ∧ Skips (.lfetchR3 o) o.qp
    ∧ Prefetches (.lfetchExclR3 o) false o.qp o.r3 .none
    ∧ Skips (.lfetchExclR3 o) o.qp
    ∧ Prefetches (.lfetchFaultR3 o) true o.qp o.r3 .none
    ∧ Skips (.lfetchFaultR3 o) o.qp
    ∧ Prefetches (.lfetchFaultExclR3 o) true o.qp o.r3 .none
    ∧ Skips (.lfetchFaultExclR3 o) o.qp)
  ∧ (∀ o : OpM4,
    Prefetches (.lfetchR3R2 o) false o.qp o.r3 (.reg o.r2)
    ∧ Skips (.lfetchR3R2 o) o.qp
    ∧ Prefetches (.lfetchExclR3R2 o) false o.qp o.r3 (.reg o.r2)
    ∧ Skips (.lfetchExclR3R2 o) o.qp
    ∧ Prefetches (.lfetchFaultR3R2 o) true o.qp o.r3 (.reg o.r2)
    ∧ Skips (.lfetchFaultR3R2 o) o.qp
    ∧ Prefetches (.lfetchFaultExclR3R2 o) true o.qp o.r3 (.reg o.r2)
    ∧ Skips (.lfetchFaultExclR3R2 o) o.qp)
  ∧ (∀ o : OpM15,
    Prefetches (.lfetchR3Imm9 o) false o.qp o.r3 (.imm (o.imm9.signExtend 64))
    ∧ Skips (.lfetchR3Imm9 o) o.qp
    ∧ Prefetches (.lfetchExclR3Imm9 o) false o.qp o.r3 (.imm (o.imm9.signExtend 64))
    ∧ Skips (.lfetchExclR3Imm9 o) o.qp
    ∧ Prefetches (.lfetchFaultR3Imm9 o) true o.qp o.r3 (.imm (o.imm9.signExtend 64))
    ∧ Skips (.lfetchFaultR3Imm9 o) o.qp
    ∧ Prefetches (.lfetchFaultExclR3Imm9 o) true o.qp o.r3 (.imm (o.imm9.signExtend 64))
    ∧ Skips (.lfetchFaultExclR3Imm9 o) o.qp)

/-- R608 and R609 with the list of R65; the reserved fields of `DCR`, `PMV`, `TPR` and `ISR` are those of R66, R73, R74 and R1303.
The model's choices: the reserved fields of `IPSR` (log 4), of `LRR0` and `LRR1` (log 7), of `ITV`, `CMCV` and `IFS`, and that no other
control register has one (log 59); a read of `EOI` gives 0 (log 53); `IVA` and `TPR` do not hold their ignored low bits (log 56). -/
def Obligations.ControlRegisters : Prop :=
  (∀ o : OpM32,
    Effect (.movCr3R2 o) o.qp
      (fun s => crWritable s o.cr3.toNat = true ∧ s.lp.cpl = 0#2 ∧ Usable s o.r2
        ∧ (s.lp.gr? o.r2).val &&& crReserved o.cr3.toNat = 0#64)
      (fun s => setCrValue s o.cr3.toNat (s.lp.gr? o.r2).val)
    ∧ Traps (.movCr3R2 o) o.qp (fun s => crExists o.cr3.toNat = false ∨ o.cr3.toNat = 65 ∨ (68 ≤ o.cr3.toNat ∧ o.cr3.toNat ≤ 71)
      ∨ (s.lp.psrBit 13 = true ∧ 16 ≤ o.cr3.toNat ∧ o.cr3.toNat ≤ 27) ∨ s.lp.grReadable o.r2 = false)
      (fun _ => illegalOperation)
    ∧ Traps (.movCr3R2 o) o.qp (fun s => crWritable s o.cr3.toNat = true ∧ s.lp.grReadable o.r2 = true ∧ s.lp.cpl ≠ 0#2)
      (fun _ => privilegedOperation)
    ∧ Traps (.movCr3R2 o) o.qp (fun s => crWritable s o.cr3.toNat = true ∧ s.lp.cpl = 0#2 ∧ Usable s o.r2
      ∧ (s.lp.gr? o.r2).val &&& crReserved o.cr3.toNat ≠ 0#64) (fun _ => reservedRegisterField))
  ∧ (∀ o : OpM33,
    Effect (.movR1Cr3 o) o.qp (fun s => s.lp.grWritable o.r1 = true ∧ crExists o.cr3.toNat = true ∧ s.lp.cpl = 0#2)
      (fun s => (readCr s o.cr3.toNat).2.setGr o.r1 ⟨(readCr s o.cr3.toNat).1, false⟩)
    ∧ Traps (.movR1Cr3 o) o.qp (fun s => s.lp.grWritable o.r1 = true ∧ crExists o.cr3.toNat = false)
      (fun _ => illegalOperation)
    ∧ Traps (.movR1Cr3 o) o.qp (fun s => s.lp.grWritable o.r1 = true ∧ crExists o.cr3.toNat = true ∧ s.lp.cpl ≠ 0#2)
      (fun _ => privilegedOperation))
  ∧ (∀ (s : State) (n : Nat),
    (crExists n = true ↔ n ∈ [0, 1, 2, 8, 16, 17, 81] ∨ (19 ≤ n ∧ n ≤ 27) ∨ (64 ≤ n ∧ n ≤ 74) ∨ n = 80)
    ∧ (crWritable s n = true ↔ crExists n = true ∧ n ≠ 65 ∧ ¬ (68 ≤ n ∧ n ≤ 71) ∧ ¬ (s.lp.psrBit 13 = true ∧ 16 ≤ n ∧ n ≤ 27))
    ∧ crReserved n = (if n = 0 then 0xFFFFFFFFFFFF80F8#64 else if n = 16 then 0xFFFF8000F0011FC1#64
      else if n = 17 then 0xFFFFF000FF000000#64 else if n = 23 then 0x7FFFFFC000000000#64
      else if n = 66 ∨ n = 72 ∨ n = 73 ∨ n = 74 then 0xFFFFFFFFFFFEFF00#64
      else if n = 80 ∨ n = 81 then 0xFFFFFFFFFFFE5800#64 else 0#64))
  ∧ (∀ (s : State) (n : Nat) (v : Word),
    (crExists n = true → n ≠ 2 → ¬ (65 ≤ n ∧ n ≤ 71) → crValue (setCrValue s n v) n = v)
    ∧ (crValue (setCrValue s 2 v) 2 = v &&& ~~~0x7FFF#64 ∧ crValue (setCrValue s 66 v) 66 = v &&& ~~~0xF#64)
    ∧ (∀ m, m ≠ n → n ≠ 67 → ¬ (n = 73 ∧ 68 ≤ m ∧ m ≤ 71) → crValue (setCrValue s n v) m = crValue s m)
    ∧ (n ≠ 67 → setCrValue s n v = { s with lp := { s.lp with cr := (setCrValue s n v).lp.cr } })
    ∧ (n ≠ 65 → readCr s n = (crValue s n, s)) ∧ readCr s 65 = readIvr s ∧ setCrValue s 67 v = endOfInterrupt s)

/-- R603, R604 and R610, where no register is stored or loaded; the stores are stated by BackingStore. The destination of
`alloc` is checked in the new frame (log 16); `loadrs` and `flushrs` ignore their predicate (log 52). -/
def Obligations.RegisterStackControl : Prop :=
  (∀ (o : OpM34) (s : State),
    (o.qp = 0#6 → o.sof.toNat ≤ 96 → o.sol.toNat ≤ o.sof.toNat → 8 * o.sor.toNat ≤ o.sof.toNat →
      (o.sor.toNat = s.lp.sor ∨ (s.lp.rrbGr = 0 ∧ s.lp.rrbFr = 0 ∧ s.lp.rrbPr = 0)) →
      s.lp.gr.ndirty + o.sof.toNat ≤ 96 → Untrapped s →
      ∀ c, c = mkCfm o.sof.toNat o.sol.toNat o.sor.toNat s.lp.rrbGr s.lp.rrbFr s.lp.rrbPr →
      ({ s.lp with cfm := c } : LP).grWritable o.r1 = true →
      exec (.allocR1ArPfsILOR o) s = .next (fallThrough s
        ((s.noteRse.setLp { s.noteRse.lp with cfm := c }).setGr o.r1 ⟨s.lp.ar.pfs, false⟩)))
    ∧ (o.qp ≠ 0#6 ∨ 96 < o.sof.toNat ∨ o.sof.toNat < o.sol.toNat ∨ o.sof.toNat < 8 * o.sor.toNat
        ∨ (o.sor.toNat ≠ s.lp.sor ∧ (s.lp.rrbGr ≠ 0 ∨ s.lp.rrbFr ≠ 0 ∨ s.lp.rrbPr ≠ 0)) →
      exec (.allocR1ArPfsILOR o) s = .next (faultTo s illegalOperation)))
  ∧ (∀ o : OpM24, (∀ s : State, s.lp.sof ≠ 0 → exec (.loadrs o) s = .next (faultTo s illegalOperation))
    ∧ EffectAlways (.loadrs o) (fun s => s.lp.sof = 0 ∧ (s.lp.ar.rsc >>> 16) &&& 0x3FFF#64 = 0#64 ∧ s.lp.gr.ndirty ≤ 96)
      (fun s => (s.noteRse.setAr { s.lp.ar with bspstore := s.lp.bsp }).setGrFile { s.lp.gr with ndirty := 0 })
    ∧ EffectAlways (.flushrs o) (fun s => s.lp.gr.ndirty = 0) (fun s => s.noteRse))

/-- The rules of nop and hint, R465 for `hint @pause`, and R667. -/
def Obligations.NoOperations : Prop :=
  (∀ o : OpI19,
    Effect (.nopI o) o.qp (fun _ => True) (fun s => s.setLp { s.lp with ev := { s.lp.ev with nop := true } })
    ∧ Effect (.nopM o) o.qp (fun _ => True) (fun s => s.setLp { s.lp with ev := { s.lp.ev with nop := true } })
    ∧ Effect (.nopF o) o.qp (fun _ => True) (fun s => s.setLp { s.lp with ev := { s.lp.ev with nop := true } })
    ∧ Effect (.nopB o) o.qp (fun _ => True) (fun s => s.setLp { s.lp with ev := { s.lp.ev with nop := true } })
    ∧ Effect (.hintB o) o.qp (fun _ => True) (fun s => s.setLp { s.lp with ev := { s.lp.ev with nop := true } })
    ∧ Effect (.hintI o) o.qp (fun _ => True) (fun s => s.setLp { s.lp with ev := { s.lp.ev with nop := true, pause := decide (o.imm21 = 0#21) } })
    ∧ Effect (.hintM o) o.qp (fun _ => True) (fun s => s.setLp { s.lp with ev := { s.lp.ev with nop := true, pause := decide (o.imm21 = 0#21) } })
    ∧ Effect (.hintF o) o.qp (fun _ => True) (fun s => s.setLp { s.lp with ev := { s.lp.ev with nop := true, pause := decide (o.imm21 = 0#21) } }))
  ∧ (∀ o : OpX1,
    EffectWide (.nopX o) o.qp (fun _ => True) (fun s => s.setLp { s.lp with ev := { s.lp.ev with nop := true } })
    ∧ EffectWide (.hintX o) o.qp (fun _ => True)
      (fun s => s.setLp { s.lp with ev := { s.lp.ev with nop := true, pause := decide (o.imm21 = 0#21 ∧ o.imm41 = 0#41) } }))
  ∧ EffectAlways .brpTarget25Tag13 (fun _ => True) (fun s => s)
  ∧ EffectAlways .brpB2Tag13 (fun _ => True) (fun s => s)
  ∧ EffectAlways .brpRetB2Tag13 (fun _ => True) (fun s => s)

/-- R548, R613, R675, R690, R693, R666 and R674: what these instructions raise. That virtualization stays off, so
that `vmsw` is illegal at every level, is 92 D23 (log 42). -/
def Obligations.BreakInstructions : Prop :=
  (∀ o : OpI19,
    Traps (.breakI o) o.qp (fun _ => True) (fun _ => { offset := 0x2C00, iim := some (o.imm21.setWidth 64) })
    ∧ Traps (.breakM o) o.qp (fun _ => True) (fun _ => { offset := 0x2C00, iim := some (o.imm21.setWidth 64) })
    ∧ Traps (.breakF o) o.qp (fun _ => True) (fun _ => { offset := 0x2C00, iim := some (o.imm21.setWidth 64) })
    ∧ Traps (.breakB o) o.qp (fun _ => True) (fun _ => { offset := 0x2C00, iim := some 0#64 })
    ∧ Skips (.breakI o) o.qp
    ∧ Skips (.breakM o) o.qp
    ∧ Skips (.breakF o) o.qp
    ∧ Skips (.breakB o) o.qp)
  ∧ (∀ o : OpX1,
    Traps (.breakX o) o.qp (fun _ => True) (fun _ => { offset := 0x2C00, iim := some (o.imm21.setWidth 64) })
    ∧ (∀ s : State, s.lp.readPr o.qp = false → Untrapped s → exec (.breakX o) s = .next (skipped s true)))
  ∧ (∀ o : OpB4,
    Traps (.brIaB2 o) o.qp (fun _ => True) (fun _ => disabledInstructionSet)
    ∧ (∀ s : State, s.lp.readPr o.qp = false → Untrapped s → exec (.brIaB2 o) s = .next { skipped s with
        lp := { (skipped s).lp with ev := { s.lp.ev with
          squashed := true, flow := some { kind := .indirect, taken := false, target := s.lp.br? o.b2 } } } }))
  ∧ (∀ o : OpM24,
    Traps (.vmsw0 o) o.qp (fun _ => True) (fun _ => illegalOperation)
    ∧ Traps (.vmsw1 o) o.qp (fun _ => True) (fun _ => illegalOperation)
    ∧ Skips (.vmsw0 o) o.qp
    ∧ Skips (.vmsw1 o) o.qp)

/-- R691: the encoding and the whole effect. -/
def Obligations.LongImmediate : Prop :=
  ∀ o : OpX2, (decodeSlot .x (slotX2 o) o.imm41 = .ok (.movl o))
  ∧ ∀ s : State,
    (s.lp.readPr o.qp = true → s.lp.grWritable o.r1 = true → Untrapped s → exec (.movl o) s = .next (fallThroughWide s
      (s.setGr o.r1 ⟨o.i ++ o.imm41 ++ o.ic ++ o.imm5c ++ o.imm9d ++ o.imm7b, false⟩)))
    ∧ (s.lp.readPr o.qp = true → s.lp.grWritable o.r1 = false → exec (.movl o) s = .next (faultTo s illegalOperation))
    ∧ (s.lp.readPr o.qp = false → Untrapped s → exec (.movl o) s = .next (skipped s true))

/-- R632, R81 to R83, R62, R121, R122, R124, R125, R140 and R142. The files have the numbers of registers and widths of log 2; which bits of a region or key
register are reserved, and that the ignored bits of an odd breakpoint register read 0, is the model's choice (log 55); a change of
the reserved bits of PMC38 or PMC41 is refused (93 U7), and a data register without a value reads as a free one (93 U3, U4, U5). That
the largest CPUID register is 4 is log 46. -/
def Obligations.IndirectRegisters : Prop :=
  (∀ o : OpM42,
    Effect (.movRrR3R2 o) o.qp (fun s => s.lp.cpl = 0#2 ∧ Usable s o.r2 ∧ Usable s o.r3 ∧ (s.lp.gr? o.r2).val &&& IndirectFile.reserved .rr s.params = 0#64)
      (fun s => s.setLp { s.lp with rr := s.lp.rr.setIfInBounds ((s.lp.gr? o.r3).val.toNat / 2 ^ 61) (s.lp.gr? o.r2).val })
    ∧ Effect (.movPkrR3R2 o) o.qp (fun s => s.lp.cpl = 0#2 ∧ Usable s o.r2 ∧ Usable s o.r3 ∧ ((s.lp.gr? o.r3).val.toNat % 256) < s.lp.pkr.length
        ∧ (s.lp.gr? o.r2).val &&& IndirectFile.reserved .pkr s.params = 0#64)
      (fun s => s.setLp { s.lp with pkr := s.lp.pkr.set ((s.lp.gr? o.r3).val.toNat % 256) (s.lp.gr? o.r2).val })
    ∧ Effect (.movDbrR3R2 o) o.qp (fun s => s.lp.cpl = 0#2 ∧ Usable s o.r2 ∧ Usable s o.r3 ∧ ((s.lp.gr? o.r3).val.toNat % 256) < s.lp.dbr.length)
      (fun s => s.setLp { s.lp with dbr := s.lp.dbr.set ((s.lp.gr? o.r3).val.toNat % 256) (if ((s.lp.gr? o.r3).val.toNat % 256) % 2 = 1 then (s.lp.gr? o.r2).val &&& ~~~0x3000000000000000#64 else (s.lp.gr? o.r2).val) })
    ∧ Effect (.movIbrR3R2 o) o.qp (fun s => s.lp.cpl = 0#2 ∧ Usable s o.r2 ∧ Usable s o.r3 ∧ ((s.lp.gr? o.r3).val.toNat % 256) < s.lp.ibr.length)
      (fun s => s.setLp { s.lp with ibr := s.lp.ibr.set ((s.lp.gr? o.r3).val.toNat % 256) (if ((s.lp.gr? o.r3).val.toNat % 256) % 2 = 1 then (s.lp.gr? o.r2).val &&& ~~~0x7000000000000000#64 else (s.lp.gr? o.r2).val) })
    ∧ Effect (.movPmdR3R2 o) o.qp (fun s => s.lp.cpl = 0#2 ∧ Usable s o.r2 ∧ Usable s o.r3)
      (fun s => writePmd s ((s.lp.gr? o.r3).val.toNat % 256) (s.lp.gr? o.r2).val)
    ∧ Effect (.movPmcR3R2 o) o.qp (fun s => s.lp.cpl = 0#2 ∧ Usable s o.r2 ∧ Usable s o.r3
        ∧ ¬ ((((s.lp.gr? o.r3).val.toNat % 256) = 38 ∨ ((s.lp.gr? o.r3).val.toNat % 256) = 41)
          ∧ ((s.lp.gr? o.r2).val ^^^ pmcAt s.lp.pmu ((s.lp.gr? o.r3).val.toNat % 256)) &&& ~~~pmcWritable ((s.lp.gr? o.r3).val.toNat % 256) ≠ 0#64))
      (fun s => match writePmc s ((s.lp.gr? o.r3).val.toNat % 256) (s.lp.gr? o.r2).val with
        | .ok t => t
        | .error _ => s)
    ∧ (∀ s : State, s.lp.readPr o.qp = true → s.lp.cpl = 0#2 ∧ Usable s o.r2 ∧ Usable s o.r3 → (((s.lp.gr? o.r3).val.toNat % 256) = 38 ∨ ((s.lp.gr? o.r3).val.toNat % 256) = 41) →
      ((s.lp.gr? o.r2).val ^^^ pmcAt s.lp.pmu ((s.lp.gr? o.r3).val.toNat % 256)) &&& ~~~pmcWritable ((s.lp.gr? o.r3).val.toNat % 256) ≠ 0#64 →
      exec (.movPmcR3R2 o) s = .refused (.pmcReservedBits ((s.lp.gr? o.r3).val.toNat % 256)))
    ∧ Traps (.movRrR3R2 o) o.qp (fun s => s.lp.grReadable o.r2 = false ∨ s.lp.grReadable o.r3 = false) (fun _ => illegalOperation)
    ∧ Traps (.movRrR3R2 o) o.qp (fun s => s.lp.grReadable o.r2 = true ∧ s.lp.grReadable o.r3 = true ∧ s.lp.cpl ≠ 0#2)
      (fun _ => privilegedOperation)
    ∧ Traps (.movPkrR3R2 o) o.qp (fun s => s.lp.grReadable o.r2 = false ∨ s.lp.grReadable o.r3 = false) (fun _ => illegalOperation)
    ∧ Traps (.movPkrR3R2 o) o.qp (fun s => s.lp.grReadable o.r2 = true ∧ s.lp.grReadable o.r3 = true ∧ s.lp.cpl ≠ 0#2)
      (fun _ => privilegedOperation)
    ∧ Traps (.movDbrR3R2 o) o.qp (fun s => s.lp.grReadable o.r2 = false ∨ s.lp.grReadable o.r3 = false) (fun _ => illegalOperation)
    ∧ Traps (.movDbrR3R2 o) o.qp (fun s => s.lp.grReadable o.r2 = true ∧ s.lp.grReadable o.r3 = true ∧ s.lp.cpl ≠ 0#2)
      (fun _ => privilegedOperation)
    ∧ Traps (.movIbrR3R2 o) o.qp (fun s => s.lp.grReadable o.r2 = false ∨ s.lp.grReadable o.r3 = false) (fun _ => illegalOperation)
    ∧ Traps (.movIbrR3R2 o) o.qp (fun s => s.lp.grReadable o.r2 = true ∧ s.lp.grReadable o.r3 = true ∧ s.lp.cpl ≠ 0#2)
      (fun _ => privilegedOperation)
    ∧ Traps (.movPmcR3R2 o) o.qp (fun s => s.lp.grReadable o.r2 = false ∨ s.lp.grReadable o.r3 = false) (fun _ => illegalOperation)
    ∧ Traps (.movPmcR3R2 o) o.qp (fun s => s.lp.grReadable o.r2 = true ∧ s.lp.grReadable o.r3 = true ∧ s.lp.cpl ≠ 0#2)
      (fun _ => privilegedOperation)
    ∧ Traps (.movPmdR3R2 o) o.qp (fun s => s.lp.grReadable o.r2 = false ∨ s.lp.grReadable o.r3 = false) (fun _ => illegalOperation)
    ∧ Traps (.movPmdR3R2 o) o.qp (fun s => s.lp.grReadable o.r2 = true ∧ s.lp.grReadable o.r3 = true ∧ s.lp.cpl ≠ 0#2)
      (fun _ => privilegedOperation)
    ∧ Traps (.movPkrR3R2 o) o.qp (fun s => s.lp.cpl = 0#2 ∧ Usable s o.r2 ∧ Usable s o.r3 ∧ s.lp.pkr.length ≤ ((s.lp.gr? o.r3).val.toNat % 256))
      (fun _ => reservedRegisterField)
    ∧ Traps (.movDbrR3R2 o) o.qp (fun s => s.lp.cpl = 0#2 ∧ Usable s o.r2 ∧ Usable s o.r3 ∧ s.lp.dbr.length ≤ ((s.lp.gr? o.r3).val.toNat % 256))
      (fun _ => reservedRegisterField)
    ∧ Traps (.movIbrR3R2 o) o.qp (fun s => s.lp.cpl = 0#2 ∧ Usable s o.r2 ∧ Usable s o.r3 ∧ s.lp.ibr.length ≤ ((s.lp.gr? o.r3).val.toNat % 256))
      (fun _ => reservedRegisterField)
    ∧ Traps (.movRrR3R2 o) o.qp (fun s => s.lp.cpl = 0#2 ∧ Usable s o.r2 ∧ Usable s o.r3
      ∧ (s.lp.gr? o.r2).val &&& IndirectFile.reserved .rr s.params ≠ 0#64) (fun _ => reservedRegisterField)
    ∧ Traps (.movPkrR3R2 o) o.qp (fun s => s.lp.cpl = 0#2 ∧ Usable s o.r2 ∧ Usable s o.r3
      ∧ (s.lp.gr? o.r2).val &&& IndirectFile.reserved .pkr s.params ≠ 0#64) (fun _ => reservedRegisterField))
  ∧ (∀ (p : Params) (i : Nat), i < 64 →
    ((IndirectFile.reserved .rr p).getLsbD i = true ↔ i = 1 ∨ 8 + p.ridBits ≤ i)
    ∧ ((IndirectFile.reserved .pkr p).getLsbD i = true ↔ (4 ≤ i ∧ i ≤ 7) ∨ 8 + p.keyBits ≤ i))
  ∧ (∀ o : OpI29,
    Traps (.movR1RrR3 o) o.qp (fun s => s.lp.grWritable o.r1 = false ∨ s.lp.grReadable o.r3 = false) (fun _ => illegalOperation)
    ∧ Effect (.movR1RrR3 o) o.qp (fun s => s.lp.grWritable o.r1 = true ∧ s.lp.cpl = 0#2 ∧ Usable s o.r3)
      (fun s => s.setGr o.r1 ⟨s.lp.rr.getD ((s.lp.gr? o.r3).val.toNat / 2 ^ 61) 0#64, false⟩)
    ∧ Traps (.movR1PkrR3 o) o.qp (fun s => s.lp.grWritable o.r1 = false ∨ s.lp.grReadable o.r3 = false) (fun _ => illegalOperation)
    ∧ Effect (.movR1PkrR3 o) o.qp (fun s => s.lp.grWritable o.r1 = true ∧ s.lp.cpl = 0#2 ∧ Usable s o.r3 ∧ ((s.lp.gr? o.r3).val.toNat % 256) < s.lp.pkr.length)
      (fun s => s.setGr o.r1 ⟨s.lp.pkr.getD ((s.lp.gr? o.r3).val.toNat % 256) 0#64, false⟩)
    ∧ Traps (.movR1DbrR3 o) o.qp (fun s => s.lp.grWritable o.r1 = false ∨ s.lp.grReadable o.r3 = false) (fun _ => illegalOperation)
    ∧ Effect (.movR1DbrR3 o) o.qp (fun s => s.lp.grWritable o.r1 = true ∧ s.lp.cpl = 0#2 ∧ Usable s o.r3 ∧ ((s.lp.gr? o.r3).val.toNat % 256) < s.lp.dbr.length)
      (fun s => s.setGr o.r1 ⟨s.lp.dbr.getD ((s.lp.gr? o.r3).val.toNat % 256) 0#64, false⟩)
    ∧ Traps (.movR1IbrR3 o) o.qp (fun s => s.lp.grWritable o.r1 = false ∨ s.lp.grReadable o.r3 = false) (fun _ => illegalOperation)
    ∧ Effect (.movR1IbrR3 o) o.qp (fun s => s.lp.grWritable o.r1 = true ∧ s.lp.cpl = 0#2 ∧ Usable s o.r3 ∧ ((s.lp.gr? o.r3).val.toNat % 256) < s.lp.ibr.length)
      (fun s => s.setGr o.r1 ⟨s.lp.ibr.getD ((s.lp.gr? o.r3).val.toNat % 256) 0#64, false⟩)
    ∧ Traps (.movR1PmcR3 o) o.qp (fun s => s.lp.grWritable o.r1 = false ∨ s.lp.grReadable o.r3 = false) (fun _ => illegalOperation)
    ∧ Effect (.movR1PmcR3 o) o.qp (fun s => s.lp.grWritable o.r1 = true ∧ s.lp.cpl = 0#2 ∧ Usable s o.r3)
      (fun s => (readPmc s ((s.lp.gr? o.r3).val.toNat % 256)).2.setGr o.r1 ⟨(readPmc s ((s.lp.gr? o.r3).val.toNat % 256)).1, false⟩)
    ∧ Traps (.movR1PmdR3 o) o.qp (fun s => s.lp.grWritable o.r1 = false ∨ s.lp.grReadable o.r3 = false) (fun _ => illegalOperation)
    ∧ Effect (.movR1PmdR3 o) o.qp (fun s => s.lp.grWritable o.r1 = true ∧ Usable s o.r3)
      (fun s => (readPmd s ((s.lp.gr? o.r3).val.toNat % 256)).2.setGr o.r1 ⟨(readPmd s ((s.lp.gr? o.r3).val.toNat % 256)).1, false⟩)
    ∧ Traps (.movR1CpuidR3 o) o.qp (fun s => s.lp.grWritable o.r1 = false ∨ s.lp.grReadable o.r3 = false) (fun _ => illegalOperation)
    ∧ Effect (.movR1CpuidR3 o) o.qp (fun s => s.lp.grWritable o.r1 = true ∧ Usable s o.r3 ∧ ((s.lp.gr? o.r3).val.toNat % 256) ≤ 4)
      (fun s => s.setGr o.r1 ⟨cpuidValue s.params ((s.lp.gr? o.r3).val.toNat % 256), false⟩)
    ∧ Traps (.movR1CpuidR3 o) o.qp (fun s => s.lp.grWritable o.r1 = true ∧ Usable s o.r3 ∧ 4 < ((s.lp.gr? o.r3).val.toNat % 256)) (fun _ => reservedRegisterField)
    ∧ Traps (.movR1RrR3 o) o.qp (fun s => s.lp.grWritable o.r1 = true ∧ s.lp.grReadable o.r3 = true ∧ s.lp.cpl ≠ 0#2)
      (fun _ => privilegedOperation)
    ∧ Traps (.movR1PkrR3 o) o.qp (fun s => s.lp.grWritable o.r1 = true ∧ s.lp.cpl = 0#2 ∧ Usable s o.r3 ∧ s.lp.pkr.length ≤ ((s.lp.gr? o.r3).val.toNat % 256))
      (fun _ => reservedRegisterField)
    ∧ Traps (.movR1PkrR3 o) o.qp (fun s => s.lp.grWritable o.r1 = true ∧ s.lp.grReadable o.r3 = true ∧ s.lp.cpl ≠ 0#2)
      (fun _ => privilegedOperation)
    ∧ Traps (.movR1DbrR3 o) o.qp (fun s => s.lp.grWritable o.r1 = true ∧ s.lp.cpl = 0#2 ∧ Usable s o.r3 ∧ s.lp.dbr.length ≤ ((s.lp.gr? o.r3).val.toNat % 256))
      (fun _ => reservedRegisterField)
    ∧ Traps (.movR1DbrR3 o) o.qp (fun s => s.lp.grWritable o.r1 = true ∧ s.lp.grReadable o.r3 = true ∧ s.lp.cpl ≠ 0#2)
      (fun _ => privilegedOperation)
    ∧ Traps (.movR1IbrR3 o) o.qp (fun s => s.lp.grWritable o.r1 = true ∧ s.lp.cpl = 0#2 ∧ Usable s o.r3 ∧ s.lp.ibr.length ≤ ((s.lp.gr? o.r3).val.toNat % 256))
      (fun _ => reservedRegisterField)
    ∧ Traps (.movR1IbrR3 o) o.qp (fun s => s.lp.grWritable o.r1 = true ∧ s.lp.grReadable o.r3 = true ∧ s.lp.cpl ≠ 0#2)
      (fun _ => privilegedOperation)
    ∧ Traps (.movR1PmcR3 o) o.qp (fun s => s.lp.grWritable o.r1 = true ∧ s.lp.grReadable o.r3 = true ∧ s.lp.cpl ≠ 0#2)
      (fun _ => privilegedOperation))
  ∧ (∀ (s t : State) (i : Nat) (v : Word),
    (writePmc s i v = .ok t → i < 44 →
      pmcAt t.lp.pmu i = (pmcAt s.lp.pmu i &&& ~~~pmcWritable i) ||| (v &&& pmcWritable i)
      ∧ (∀ j, j ≠ i → pmcAt t.lp.pmu j = pmcAt s.lp.pmu j)
      ∧ t = { s with lp := { s.lp with pmu := t.lp.pmu }, free := t.free })
    ∧ (i < 64 → ¬ (4 ≤ i ∧ i ≤ 15 ∧ v.getLsbD 47 = true) → (i = 39 → traceMode s.lp.pmu ≠ 0) →
      pmdAt (writePmd s i v).lp.pmu i = v &&& pmdWritable i)
    ∧ (traceMode s.lp.pmu = 0 → pmdAt (writePmd s 39 v).lp.pmu 39
      = (pmdAt s.lp.pmu 39 &&& 0xCCCCCCCCCCCCCCCC#64) ||| (v &&& 0x3333333333333333#64))
    ∧ (i ≠ 33 → i ≠ 35 → readPmc s i = (pmcAt s.lp.pmu i, s))
    ∧ (i = 33 ∨ i = 35 → (readPmc s i).1.setWidth 41 = (pmcAt s.lp.pmu i).setWidth 41
      ∧ (readPmc s i).2 = { s with free := s.free + 1 }))
  ∧ (∀ (s : State) (p : PMU) (j c : Nat), p = s.lp.pmu →
    pmdConfig p j = (if 4 ≤ j ∧ j ≤ 15 then some j else if j = 34 ∨ j = 35 then some 37
      else if j = 32 ∨ j = 33 ∨ j = 36 then some 40
      else if j = 38 ∨ j = 39 ∨ (48 ≤ j ∧ j ≤ 63) then some (if traceMode p = 0 then 39 else 42) else none)
    ∧ (pmdConfig p j = none → readPmd s j = (0#64, s))
    ∧ (pmcAt p c &&& 0xF#64 = 0#64 → configOpen s.params.featMt p c = true)
    ∧ ((4 ≤ c ∧ c ≤ 15) ∨ c = 40 → (pmcAt p c >>> 24) &&& 3#64 ≠ 2#64 → configOpen s.params.featMt p c = true)
    ∧ (pmdConfig p j = some c →
      (s.lp.cpl ≠ 0#2 → s.lp.psr.getLsbD 20 = true ∨ (pmcAt p c).getLsbD (if c = 37 then 4 else 6) = true →
        readPmd s j = (0#64, s))
      ∧ (s.lp.cpl = 0#2 ∨ (s.lp.psr.getLsbD 20 = false ∧ (pmcAt p c).getLsbD (if c = 37 then 4 else 6) = false) →
        (configOpen s.params.featMt p c = false → j ≤ 15 → readPmd s j = (((pmdAt p j).setWidth 47).signExtend 64, s))
        ∧ (configOpen s.params.featMt p c = false → 32 ≤ j → j ∉ [34, 35, 39] → (pmcAt p 0).getLsbD 0 = true →
          readPmd s j = (pmdAt p j, s))
        ∧ (configOpen s.params.featMt p c = true ∨ (32 ≤ j ∧ (pmcAt p 0).getLsbD 0 = false) →
          (readPmd s j).2 = { s with free := s.free + 1 })
        ∧ (j ≤ 15 → ∃ w : BitVec 47, (readPmd s j).1 = w.signExtend 64))))
  ∧ (∀ p : Params, cpuidValue p 0 = 0x49656E69756E6547#64 ∧ cpuidValue p 1 = 0x6C65746E#64 ∧ cpuidValue p 2 = 0#64
    ∧ (cpuidValue p 3).extractLsb' 0 8 = 4#8 ∧ (cpuidValue p 3).extractLsb' 8 8 = p.cpuidRevision
    ∧ (cpuidValue p 3).extractLsb' 16 8 = 0x02#8 ∧ (cpuidValue p 3).extractLsb' 24 8 = 0x20#8
    ∧ (cpuidValue p 3).extractLsb' 32 8 = p.cpuidArchrev ∧ (cpuidValue p 3).extractLsb' 40 24 = 0#24)

/-- R614, R620 to R623 and R625 to R630. What a translation gives, the hashes, and a probe of a page that is not present
are the free functions of log 13 and log 14; that an insert with `PSR.ic` = 1 is an Illegal Operation, before the privilege is looked at, and that a
purge takes any page size are the model's choices (log 15); which entry a full cache loses, what `ptc.e` purges and which ALAT
entries lie in a purged range are free (log 15). -/
def Obligations.TranslationInstructions : Prop :=
  (∀ o : OpM39,
    Effect (.probeRR1R3Imm2 o) o.qp (fun s => s.lp.grWritable o.r1 = true ∧ Usable s o.r3 ∧ s.lp.psrBit 17 = false)
      (fun s => s.setGr o.r1 ⟨1#64, false⟩)
    ∧ ProbesTranslated (.probeRR1R3Imm2 o) .read o.qp o.r1 o.r3 (fun _ => True) (fun _ => o.i2b) probeRead
    ∧ Effect (.probeWR1R3Imm2 o) o.qp (fun s => s.lp.grWritable o.r1 = true ∧ Usable s o.r3 ∧ s.lp.psrBit 17 = false)
      (fun s => s.setGr o.r1 ⟨1#64, false⟩)
    ∧ ProbesTranslated (.probeWR1R3Imm2 o) .write o.qp o.r1 o.r3 (fun _ => True) (fun _ => o.i2b) probeWrite)
  ∧ (∀ o : OpA1,
    Effect (.probeRR1R3R2 o) o.qp (fun s => s.lp.grWritable o.r1 = true ∧ Usable s o.r2 ∧ Usable s o.r3 ∧ s.lp.psrBit 17 = false)
      (fun s => s.setGr o.r1 ⟨1#64, false⟩)
    ∧ ProbesTranslated (.probeRR1R3R2 o) .read o.qp o.r1 o.r3 (fun s => Usable s o.r2) (fun s => ((s.lp.gr? o.r2).val.setWidth 2)) probeRead
    ∧ Effect (.probeWR1R3R2 o) o.qp (fun s => s.lp.grWritable o.r1 = true ∧ Usable s o.r2 ∧ Usable s o.r3 ∧ s.lp.psrBit 17 = false)
      (fun s => s.setGr o.r1 ⟨1#64, false⟩)
    ∧ ProbesTranslated (.probeWR1R3R2 o) .write o.qp o.r1 o.r3 (fun s => Usable s o.r2) (fun s => ((s.lp.gr? o.r2).val.setWidth 2)) probeWrite)
  ∧ (∀ o : OpM40,
    Effect (.probeRwFaultR3Imm2 o) o.qp (fun s => Usable s o.r3
        ∧ ∃ a, dataAccess (s.atLevel o.i2b) .readWrite (s.lp.gr? o.r3).val 1 false = .ok a) (fun s => s)
    ∧ Effect (.probeRFaultR3Imm2 o) o.qp (fun s => Usable s o.r3
        ∧ ∃ a, dataAccess (s.atLevel o.i2b) .read (s.lp.gr? o.r3).val 1 false = .ok a) (fun s => s)
    ∧ Effect (.probeWFaultR3Imm2 o) o.qp (fun s => Usable s o.r3
        ∧ ∃ a, dataAccess (s.atLevel o.i2b) .write (s.lp.gr? o.r3).val 1 false = .ok a) (fun s => s))
  ∧ (∀ o : OpI29,
    Effect (.thash o) o.qp (fun s => s.lp.grWritable o.r1 = true ∧ s.lp.grReadable o.r3 = true)
      (fun s => s.setGr o.r1 ⟨thash s.lp.cr.pta (s.lp.rr.getD ((s.lp.gr? o.r3).val.toNat / 2 ^ 61) 0#64) (s.lp.gr? o.r3).val, (s.lp.gr? o.r3).nat⟩)
    ∧ Effect (.ttag o) o.qp (fun s => s.lp.grWritable o.r1 = true ∧ s.lp.grReadable o.r3 = true)
      (fun s => s.setGr o.r1 ⟨ttag (s.lp.rr.getD ((s.lp.gr? o.r3).val.toNat / 2 ^ 61) 0#64) (s.lp.gr? o.r3).val, (s.lp.gr? o.r3).nat⟩)
    ∧ (∀ (s : State) (a : Nat) (m : MemAttr), s.lp.readPr o.qp = true → s.lp.grWritable o.r1 = true → s.lp.cpl = 0#2 → Usable s o.r3 →
      Untrapped s → translateAddr s (s.lp.gr? o.r3).val .nonAccess = .ok (a, m) →
      exec (.tpa o) s = .next (fallThrough s (s.setGr o.r1 ⟨BitVec.ofNat 64 a, false⟩)))
    ∧ Effect (.tak o) o.qp (fun s => s.lp.grWritable o.r1 = true ∧ s.lp.cpl = 0#2 ∧ Usable s o.r3)
      (fun s => s.setGr o.r1 ⟨if (tak (xlatContext s .nonAccess) (s.lp.gr? o.r3).val).getLsbD 0 then 1#64
        else tak (xlatContext s .nonAccess) (s.lp.gr? o.r3).val &&& 0xFFFFFF00#64, false⟩)
    ∧ Traps (.tpa o) o.qp (fun s => s.lp.grWritable o.r1 = true ∧ s.lp.grReadable o.r3 = true ∧ s.lp.cpl ≠ 0#2)
      (fun _ => privilegedOperation)
    ∧ Traps (.tpa o) o.qp (fun s => s.lp.grWritable o.r1 = false ∨ s.lp.grReadable o.r3 = false) (fun _ => illegalOperation)
    ∧ Traps (.tak o) o.qp (fun s => s.lp.grWritable o.r1 = true ∧ s.lp.grReadable o.r3 = true ∧ s.lp.cpl ≠ 0#2)
      (fun _ => privilegedOperation)
    ∧ Traps (.tak o) o.qp (fun s => s.lp.grWritable o.r1 = false ∨ s.lp.grReadable o.r3 = false) (fun _ => illegalOperation))
  ∧ (∀ o : OpM41,
    Effect (.itcDR2 o) o.qp (fun s => s.lp.psrBit 13 = false ∧ s.lp.cpl = 0#2 ∧ Usable s o.r2 ∧ PageSizeLegal s)
      (fun s => { s with dtc := tcInsert s.free (128 - s.dtr.countP Option.isSome) s.dtc ⟨s.lp.cr.ifa, (s.lp.rr.getD (s.lp.cr.ifa.toNat / 2 ^ 61) 0#64 >>> 8) &&& 0xFFFFFF#64, s.lp.cr.itir,
          (s.lp.gr? o.r2).val⟩, free := s.free + 1 })
    ∧ Effect (.itcIR2 o) o.qp (fun s => s.lp.psrBit 13 = false ∧ s.lp.cpl = 0#2 ∧ Usable s o.r2 ∧ PageSizeLegal s)
      (fun s => { s with itcache := tcInsert s.free (128 - s.itr.countP Option.isSome) s.itcache ⟨s.lp.cr.ifa, (s.lp.rr.getD (s.lp.cr.ifa.toNat / 2 ^ 61) 0#64 >>> 8) &&& 0xFFFFFF#64, s.lp.cr.itir,
          (s.lp.gr? o.r2).val⟩, free := s.free + 1 })
    ∧ Traps (.itcDR2 o) o.qp (fun s => s.lp.psrBit 13 = false ∧ s.lp.cpl = 0#2 ∧ Usable s o.r2 ∧ ¬ PageSizeLegal s) (fun _ => reservedRegisterField)
    ∧ Traps (.itcDR2 o) o.qp (fun s => s.lp.psrBit 13 = true ∨ s.lp.grReadable o.r2 = false) (fun _ => illegalOperation)
    ∧ Traps (.itcIR2 o) o.qp (fun s => s.lp.psrBit 13 = false ∧ s.lp.cpl = 0#2 ∧ Usable s o.r2 ∧ ¬ PageSizeLegal s) (fun _ => reservedRegisterField)
    ∧ Traps (.itcIR2 o) o.qp (fun s => s.lp.psrBit 13 = true ∨ s.lp.grReadable o.r2 = false) (fun _ => illegalOperation)
    ∧ Traps (.itcDR2 o) o.qp (fun s => s.lp.psrBit 13 = false ∧ s.lp.grReadable o.r2 = true ∧ s.lp.cpl ≠ 0#2)
      (fun _ => privilegedOperation)
    ∧ Traps (.itcIR2 o) o.qp (fun s => s.lp.psrBit 13 = false ∧ s.lp.grReadable o.r2 = true ∧ s.lp.cpl ≠ 0#2)
      (fun _ => privilegedOperation))
  ∧ (∀ o : OpM42,
    Effect (.itrDDtrR3R2 o) o.qp (fun s => s.lp.psrBit 13 = false ∧ s.lp.cpl = 0#2 ∧ Usable s o.r2 ∧ Usable s o.r3 ∧ ((s.lp.gr? o.r3).val.toNat % 256) < s.dtr.length ∧ PageSizeLegal s)
      (fun s => { s with
        dtr := s.dtr.set ((s.lp.gr? o.r3).val.toNat % 256) (some ⟨s.lp.cr.ifa, (s.lp.rr.getD (s.lp.cr.ifa.toNat / 2 ^ 61) 0#64 >>> 8) &&& 0xFFFFFF#64, s.lp.cr.itir,
          (s.lp.gr? o.r2).val⟩)
        dtc := tcFit s.free (128 - (s.dtr.set ((s.lp.gr? o.r3).val.toNat % 256) (some ⟨s.lp.cr.ifa, (s.lp.rr.getD (s.lp.cr.ifa.toNat / 2 ^ 61) 0#64 >>> 8) &&& 0xFFFFFF#64, s.lp.cr.itir,
          (s.lp.gr? o.r2).val⟩)).countP Option.isSome) s.dtc
        free := s.free + 1 })
    ∧ Effect (.itrIItrR3R2 o) o.qp (fun s => s.lp.psrBit 13 = false ∧ s.lp.cpl = 0#2 ∧ Usable s o.r2 ∧ Usable s o.r3 ∧ ((s.lp.gr? o.r3).val.toNat % 256) < s.itr.length ∧ PageSizeLegal s)
      (fun s => { s with
        itr := s.itr.set ((s.lp.gr? o.r3).val.toNat % 256) (some ⟨s.lp.cr.ifa, (s.lp.rr.getD (s.lp.cr.ifa.toNat / 2 ^ 61) 0#64 >>> 8) &&& 0xFFFFFF#64, s.lp.cr.itir,
          (s.lp.gr? o.r2).val⟩)
        itcache := tcFit s.free (128 - (s.itr.set ((s.lp.gr? o.r3).val.toNat % 256) (some ⟨s.lp.cr.ifa, (s.lp.rr.getD (s.lp.cr.ifa.toNat / 2 ^ 61) 0#64 >>> 8) &&& 0xFFFFFF#64, s.lp.cr.itir,
          (s.lp.gr? o.r2).val⟩)).countP Option.isSome) s.itcache
        free := s.free + 1 })
    ∧ Traps (.itrDDtrR3R2 o) o.qp (fun s => s.lp.psrBit 13 = false ∧ s.lp.cpl = 0#2 ∧ Usable s o.r2 ∧ Usable s o.r3 ∧ (s.dtr.length ≤ ((s.lp.gr? o.r3).val.toNat % 256) ∨ ¬ PageSizeLegal s)) (fun _ => reservedRegisterField)
    ∧ Traps (.itrIItrR3R2 o) o.qp (fun s => s.lp.psrBit 13 = false ∧ s.lp.cpl = 0#2 ∧ Usable s o.r2 ∧ Usable s o.r3 ∧ (s.itr.length ≤ ((s.lp.gr? o.r3).val.toNat % 256) ∨ ¬ PageSizeLegal s)) (fun _ => reservedRegisterField)
    ∧ Traps (.itrDDtrR3R2 o) o.qp (fun s => s.lp.psrBit 13 = true ∨ s.lp.grReadable o.r2 = false ∨ s.lp.grReadable o.r3 = false)
      (fun _ => illegalOperation)
    ∧ Traps (.itrDDtrR3R2 o) o.qp (fun s => s.lp.psrBit 13 = false ∧ s.lp.grReadable o.r2 = true ∧ s.lp.grReadable o.r3 = true
      ∧ s.lp.cpl ≠ 0#2) (fun _ => privilegedOperation)
    ∧ Traps (.itrIItrR3R2 o) o.qp (fun s => s.lp.psrBit 13 = true ∨ s.lp.grReadable o.r2 = false ∨ s.lp.grReadable o.r3 = false)
      (fun _ => illegalOperation)
    ∧ Traps (.itrIItrR3R2 o) o.qp (fun s => s.lp.psrBit 13 = false ∧ s.lp.grReadable o.r2 = true ∧ s.lp.grReadable o.r3 = true
      ∧ s.lp.cpl ≠ 0#2) (fun _ => privilegedOperation)
    ∧ Effect (.ptcLR3R2 o) o.qp (fun s => s.lp.cpl = 0#2 ∧ Usable s o.r2 ∧ Usable s o.r3)
      (fun s => { s with
        dtc := s.dtc.filter fun e => !purged s (s.lp.gr? o.r3).val (s.lp.gr? o.r2).val e
        itcache := s.itcache.filter fun e => !purged s (s.lp.gr? o.r3).val (s.lp.gr? o.r2).val e })
    ∧ Effect (.ptcGR3R2 o) o.qp (fun s => s.lp.cpl = 0#2 ∧ Usable s o.r2 ∧ Usable s o.r3)
      (fun s => { s with
        dtc := s.dtc.filter fun e => !purged s (s.lp.gr? o.r3).val (s.lp.gr? o.r2).val e
        itcache := s.itcache.filter fun e => !purged s (s.lp.gr? o.r3).val (s.lp.gr? o.r2).val e })
    ∧ Effect (.ptcGaR3R2 o) o.qp (fun s => s.lp.cpl = 0#2 ∧ Usable s o.r2 ∧ Usable s o.r3)
      (fun s => { s with
        dtc := s.dtc.filter fun e => !purged s (s.lp.gr? o.r3).val (s.lp.gr? o.r2).val e
        itcache := s.itcache.filter fun e => !purged s (s.lp.gr? o.r3).val (s.lp.gr? o.r2).val e
        bg := { s.bg with alat := s.bg.alat.filter fun e => !alatPurged e.pa e.size (s.lp.gr? o.r3).val ((s.lp.gr? o.r2).val.toNat / 4 % 64) ((s.lp.rr.getD ((s.lp.gr? o.r3).val.toNat / 2 ^ 61) 0#64 >>> 8) &&& 0xFFFFFF#64) } })
    ∧ Effect (.ptrDR3R2 o) o.qp (fun s => s.lp.cpl = 0#2 ∧ Usable s o.r2 ∧ Usable s o.r3)
      (fun s => { s with
        dtr := s.dtr.map fun x => x.filter fun e => !purged s (s.lp.gr? o.r3).val (s.lp.gr? o.r2).val e
        dtc := s.dtc.filter fun e => !purged s (s.lp.gr? o.r3).val (s.lp.gr? o.r2).val e })
    ∧ Effect (.ptrIR3R2 o) o.qp (fun s => s.lp.cpl = 0#2 ∧ Usable s o.r2 ∧ Usable s o.r3)
      (fun s => { s with
        itr := s.itr.map fun x => x.filter fun e => !purged s (s.lp.gr? o.r3).val (s.lp.gr? o.r2).val e
        itcache := s.itcache.filter fun e => !purged s (s.lp.gr? o.r3).val (s.lp.gr? o.r2).val e })
    ∧ Traps (.ptcLR3R2 o) o.qp (fun s => s.lp.grReadable o.r2 = true ∧ s.lp.grReadable o.r3 = true ∧ s.lp.cpl ≠ 0#2)
      (fun _ => privilegedOperation)
    ∧ Traps (.ptcLR3R2 o) o.qp (fun s => s.lp.grReadable o.r2 = false ∨ s.lp.grReadable o.r3 = false) (fun _ => illegalOperation)
    ∧ Traps (.ptcGR3R2 o) o.qp (fun s => s.lp.grReadable o.r2 = true ∧ s.lp.grReadable o.r3 = true ∧ s.lp.cpl ≠ 0#2)
      (fun _ => privilegedOperation)
    ∧ Traps (.ptcGR3R2 o) o.qp (fun s => s.lp.grReadable o.r2 = false ∨ s.lp.grReadable o.r3 = false) (fun _ => illegalOperation)
    ∧ Traps (.ptcGaR3R2 o) o.qp (fun s => s.lp.grReadable o.r2 = true ∧ s.lp.grReadable o.r3 = true ∧ s.lp.cpl ≠ 0#2)
      (fun _ => privilegedOperation)
    ∧ Traps (.ptcGaR3R2 o) o.qp (fun s => s.lp.grReadable o.r2 = false ∨ s.lp.grReadable o.r3 = false) (fun _ => illegalOperation)
    ∧ Traps (.ptrDR3R2 o) o.qp (fun s => s.lp.grReadable o.r2 = true ∧ s.lp.grReadable o.r3 = true ∧ s.lp.cpl ≠ 0#2)
      (fun _ => privilegedOperation)
    ∧ Traps (.ptrDR3R2 o) o.qp (fun s => s.lp.grReadable o.r2 = false ∨ s.lp.grReadable o.r3 = false) (fun _ => illegalOperation)
    ∧ Traps (.ptrIR3R2 o) o.qp (fun s => s.lp.grReadable o.r2 = true ∧ s.lp.grReadable o.r3 = true ∧ s.lp.cpl ≠ 0#2)
      (fun _ => privilegedOperation)
    ∧ Traps (.ptrIR3R2 o) o.qp (fun s => s.lp.grReadable o.r2 = false ∨ s.lp.grReadable o.r3 = false) (fun _ => illegalOperation))
  ∧ (∀ o : OpM47,
    Effect (.ptcER3 o) o.qp (fun s => s.lp.cpl = 0#2 ∧ Usable s o.r3)
      (fun s => { s with
        dtc := s.dtc.filter fun e => !purgePart e (s.lp.gr? o.r3).val
        itcache := s.itcache.filter fun e => !purgePart e (s.lp.gr? o.r3).val })
    ∧ Traps (.ptcER3 o) o.qp (fun s => s.lp.grReadable o.r3 = true ∧ s.lp.cpl ≠ 0#2) (fun _ => privilegedOperation)
    ∧ Traps (.ptcER3 o) o.qp (fun s => s.lp.grReadable o.r3 = false) (fun _ => illegalOperation))
  ∧ (∀ (n cap : Nat) (l : List TlbEntry) (e : TlbEntry),
    (∃ k, tcInsert n cap l e = e :: k ∧ k.length ≤ cap - 1 ∧ ∀ x, x ∈ k → x ∈ l ∧ overlapsEntry x e = false)
    ∧ ((l.filter fun x => !overlapsEntry x e).length < cap → tcInsert n cap l e = e :: l.filter fun x => !overlapsEntry x e)
    ∧ (l.length ≤ cap → tcFit n cap l = l) ∧ (tcFit n cap l).length ≤ cap ∧ (∀ x, x ∈ tcFit n cap l → x ∈ l))
  ∧ (∀ (s : State) (va size : Word) (e : TlbEntry), purged s va size e = true ↔
    e.rid = (s.lp.rr.getD (va.toNat / 2 ^ 61) 0#64 >>> 8) &&& 0xFFFFFF#64 ∧ ∃ x, pageStart e ≤ x
      ∧ x < pageStart e + 2 ^ (e.itir.toNat / 4 % 64) ∧ va.toNat % 2 ^ 61 ≤ x
      ∧ x < va.toNat % 2 ^ 61 + 2 ^ (size.toNat / 4 % 64))

/-- R662, R665, R666 and R694: the encodings, the targets, and the whole effect of the plain branches and calls. That the bits no field
of a format covers (bits 11:9 of every format here, 36 and 26:16 of B4, 36 and 31:16 of B5) are ignored is the model's choice (log 21). -/
def Obligations.PlainBranches : Prop :=
  (∀ (o : OpB1),
    (∀ x, Encodes .b (slotB1 0 x o) (.brCondTarget25 o))
    ∧ Branches (.brCondTarget25 o) false .ipRelative o.qp (fun _ => True) (fun s => s.lp.ip + (o.target25.signExtend 64 <<< 4)) (fun s => s))
  ∧ (∀ (o : OpB4),
    (∀ b y x, Encodes .b (slotB4 b 0x20 y x 0 o) (.brCondB2 o))
    ∧ Branches (.brCondB2 o) false .indirect o.qp (fun _ => True) (fun s => s.lp.br? o.b2) (fun s => s))
  ∧ (∀ (s u : State) (t : Word) (w : Bool),
    (advance s u { target := some t, wide := w }).lp.ip = t &&& ~~~0xF#64
    ∧ (advance s u { target := some t, wide := w }).lp.ri = 0#2)
  ∧ (∀ (o : OpB3),
    (∀ x, Encodes .b (slotB3 x o) (.brCallB1Target25 o))
    ∧ Branches (.brCallB1Target25 o) false .ipRelative o.qp (fun _ => True) (fun s => s.lp.ip + (o.target25.signExtend 64 <<< 4))
      (fun s => (s.noteRse.setLp { s.noteRse.lp with
        gr := { s.lp.gr with bof := (s.lp.gr.bof + s.lp.sol) % 96, ndirty := s.lp.gr.ndirty + s.lp.sol }
        cfm := mkCfm (s.lp.sof - s.lp.sol) 0 0 0 0 0
        ar := { s.lp.ar with pfs := s.lp.cfm.setWidth 64 ||| (s.lp.ar.ec.setWidth 64 <<< 52) ||| (s.lp.cpl.setWidth 64 <<< 62) }
        }).setBr o.b1 (s.lp.ip + 16#64)))
  ∧ (∀ (o : OpB5),
    (∀ b y x, Encodes .b (slotB5 b y x o) (.brCallB1B2 o))
    ∧ Branches (.brCallB1B2 o) false .indirect o.qp (fun _ => True) (fun s => s.lp.br? o.b2)
      (fun s => (s.noteRse.setLp { s.noteRse.lp with
        gr := { s.lp.gr with bof := (s.lp.gr.bof + s.lp.sol) % 96, ndirty := s.lp.gr.ndirty + s.lp.sol }
        cfm := mkCfm (s.lp.sof - s.lp.sol) 0 0 0 0 0
        ar := { s.lp.ar with pfs := s.lp.cfm.setWidth 64 ||| (s.lp.ar.ec.setWidth 64 <<< 52) ||| (s.lp.cpl.setWidth 64 <<< 62) }
        }).setBr o.b1 (s.lp.ip + 16#64)))
  ∧ (∀ (o : OpX3),
    (∀ x, decodeSlot .x (slotX3 x o) o.imm41 = .ok (.brlCondTarget64 o))
    ∧ Branches (.brlCondTarget64 o) true .ipRelative o.qp (fun _ => True) (fun s => s.lp.ip + (o.i ++ o.imm41.extractLsb' 2 39 ++ o.imm20b ++ 0#4)) (fun s => s))
  ∧ (∀ (o : OpX4),
    (∀ x, decodeSlot .x (slotX4 x o) o.imm41 = .ok (.brlCallB1Target64 o))
    ∧ Branches (.brlCallB1Target64 o) true .ipRelative o.qp (fun _ => True) (fun s => s.lp.ip + (o.i ++ o.imm41.extractLsb' 2 39 ++ o.imm20b ++ 0#4))
      (fun s => (s.noteRse.setLp { s.noteRse.lp with
        gr := { s.lp.gr with bof := (s.lp.gr.bof + s.lp.sol) % 96, ndirty := s.lp.gr.ndirty + s.lp.sol }
        cfm := mkCfm (s.lp.sof - s.lp.sol) 0 0 0 0 0
        ar := { s.lp.ar with pfs := s.lp.cfm.setWidth 64 ||| (s.lp.ar.ec.setWidth 64 <<< 52) ||| (s.lp.cpl.setWidth 64 <<< 62) }
        }).setBr o.b1 (s.lp.ip + 16#64)))

/-- R663 and R664: the encodings and each case of the loops, with what `rotate` does to the rename bases. The model's choices: bits
11:9 of formats B1 and B2, which no field covers, are ignored (log 21); the
written predicate 63 is that of the rotated file (log 49), and a loop branch in another slot, or with another predicate than 0 where
the rule asks for 0, is an Illegal Operation (log 56). -/
def Obligations.LoopBranches : Prop :=
  (∀ (o : OpB1),
    (∀ x, Encodes .b (slotB1 3 x o) (.brWtopTarget25 o) ∧ Encodes .b (slotB1 2 x o) (.brWexitTarget25 o))
    ∧ Loops (.brWtopTarget25 o) (fun s => s.lp.ip + (o.target25.signExtend 64 <<< 4)) (fun _ => True) (fun s => s.lp.readPr o.qp || decide (1 < s.lp.ar.ec.toNat))
      (fun s => if s.lp.readPr o.qp = true then s.rotated false
        else if 1 < s.lp.ar.ec.toNat then (s.setEc (s.lp.ar.ec - 1#6)).rotated false
        else if s.lp.ar.ec = 1#6 then (s.setEc 0#6).rotated false
        else s.setLp (s.lp.setPr 63#6 false))
    ∧ Loops (.brWexitTarget25 o) (fun s => s.lp.ip + (o.target25.signExtend 64 <<< 4)) (fun _ => True) (fun s => !(s.lp.readPr o.qp || decide (1 < s.lp.ar.ec.toNat)))
      (fun s => if s.lp.readPr o.qp = true then s.rotated false
        else if 1 < s.lp.ar.ec.toNat then (s.setEc (s.lp.ar.ec - 1#6)).rotated false
        else if s.lp.ar.ec = 1#6 then (s.setEc 0#6).rotated false
        else s.setLp (s.lp.setPr 63#6 false))
    ∧ (∀ s : State, s.lp.ri ≠ 2#2 → exec (.brWtopTarget25 o) s = .next (faultTo s illegalOperation))
    ∧ (∀ s : State, s.lp.ri ≠ 2#2 → exec (.brWexitTarget25 o) s = .next (faultTo s illegalOperation)))
  ∧ (∀ (s : State) (b : Bool),
    (s.rotated b).lp.readPr 63#6 = b
    ∧ s.rotated b = { s with lp := { s.lp with cfm := (s.rotated b).lp.cfm, pr := (s.rotated b).lp.pr } }
    ∧ (s.lp.sor = 0 → (s.rotated b).lp.rrbGr = s.lp.rrbGr)
    ∧ (0 < s.lp.sor → s.lp.rrbGr < 8 * s.lp.sor →
      (s.rotated b).lp.rrbGr = (s.lp.rrbGr + 8 * s.lp.sor - 1) % (8 * s.lp.sor))
    ∧ (s.rotated b).lp.rrbFr = (s.lp.rrbFr + 95) % 96 ∧ (s.rotated b).lp.rrbPr = (s.lp.rrbPr + 47) % 48
    ∧ (s.rotated b).lp.sof = s.lp.sof ∧ (s.rotated b).lp.sol = s.lp.sol ∧ (s.rotated b).lp.sor = s.lp.sor)
  ∧ (∀ (o : OpB1),
    (∀ x, Encodes .b (slotB1 5 x o) (.brCloopTarget25 o) ∧ Encodes .b (slotB1 6 x o) (.brCexitTarget25 o)
      ∧ Encodes .b (slotB1 7 x o) (.brCtopTarget25 o))
    ∧ Loops (.brCloopTarget25 o) (fun s => s.lp.ip + (o.target25.signExtend 64 <<< 4)) (fun _ => o.qp = 0#6) (fun s => decide (s.lp.ar.lc ≠ 0#64))
      (fun s => if s.lp.ar.lc ≠ 0#64 then s.setLc (s.lp.ar.lc - 1#64) else s)
    ∧ Loops (.brCtopTarget25 o) (fun s => s.lp.ip + (o.target25.signExtend 64 <<< 4)) (fun _ => o.qp = 0#6) (fun s => decide (s.lp.ar.lc ≠ 0#64) || decide (1 < s.lp.ar.ec.toNat))
      (fun s => if s.lp.ar.lc ≠ 0#64 then (s.setLc (s.lp.ar.lc - 1#64)).rotated true
        else if 1 < s.lp.ar.ec.toNat then (s.setEc (s.lp.ar.ec - 1#6)).rotated false
        else if s.lp.ar.ec = 1#6 then (s.setEc 0#6).rotated false
        else s.setLp (s.lp.setPr 63#6 false))
    ∧ Loops (.brCexitTarget25 o) (fun s => s.lp.ip + (o.target25.signExtend 64 <<< 4)) (fun _ => o.qp = 0#6) (fun s => !(decide (s.lp.ar.lc ≠ 0#64) || decide (1 < s.lp.ar.ec.toNat)))
      (fun s => if s.lp.ar.lc ≠ 0#64 then (s.setLc (s.lp.ar.lc - 1#64)).rotated true
        else if 1 < s.lp.ar.ec.toNat then (s.setEc (s.lp.ar.ec - 1#6)).rotated false
        else if s.lp.ar.ec = 1#6 then (s.setEc 0#6).rotated false
        else s.setLp (s.lp.setPr 63#6 false))
    ∧ (∀ s : State, s.lp.ri ≠ 2#2 ∨ o.qp ≠ 0#6 → exec (.brCloopTarget25 o) s = .next (faultTo s illegalOperation))
    ∧ (∀ s : State, s.lp.ri ≠ 2#2 ∨ o.qp ≠ 0#6 → exec (.brCtopTarget25 o) s = .next (faultTo s illegalOperation))
    ∧ (∀ s : State, s.lp.ri ≠ 2#2 ∨ o.qp ≠ 0#6 → exec (.brCexitTarget25 o) s = .next (faultTo s illegalOperation)))

/-- R665 and R666: a return that needs no load of the register stack engine, the outputs of the caller as the first
registers of the callee, and the frame that comes back. -/
def Obligations.Returns : Prop :=
  (∀ (o : OpB4) (s : State) (c : BitVec 38) (p : BitVec 2), c = s.lp.ar.pfs.setWidth 38 → p = (s.lp.ar.pfs >>> 62).setWidth 2 →
    (s.lp.readPr o.qp = true → c.toNat % 128 ≤ 96 → c.toNat / 128 % 128 ≤ c.toNat % 128 →
      c.toNat / 128 % 128 ≤ s.lp.gr.ndirty → s.lp.gr.ndirty + c.toNat % 128 ≤ 96 + c.toNat / 128 % 128 →
      Reachable s (s.lp.br? o.b2) →
      ∃ t, exec (.brRetB2 o) s = .next t ∧ t.lp.ip = s.lp.br? o.b2 &&& ~~~0xF#64 ∧ t.lp.ri = 0#2 ∧ t.lp.cfm = c
        ∧ t.lp.ar = { s.lp.ar with ec := (s.lp.ar.pfs >>> 52).setWidth 6 }
        ∧ t.lp.cpl = (if s.lp.cpl < p then p else s.lp.cpl)
        ∧ (∀ i, i ∉ [32, 33, 37, 38, 39, 41, 42, 43, 45] → t.lp.psr.getLsbD i = s.lp.psr.getLsbD i)
        ∧ t.lp.gr = { s.lp.gr with
            bof := (s.lp.gr.bof + 96 - c.toNat / 128 % 128) % 96, ndirty := s.lp.gr.ndirty - c.toNat / 128 % 128 }
        ∧ t = { s with lp := { s.lp with ip := t.lp.ip, lastIp := s.lp.ip, psr := t.lp.psr, cfm := t.lp.cfm,
                                         gr := t.lp.gr, ar := t.lp.ar, ev := t.lp.ev } })
    ∧ (s.lp.readPr o.qp = false → Untrapped s →
      ∃ t, exec (.brRetB2 o) s = .next t ∧ t = { skipped s with lp := { (skipped s).lp with ev := t.lp.ev } }))
  ∧ (∀ (s t : State) (k : Nat), t.lp.gr = { s.lp.gr with bof := (s.lp.gr.bof + s.lp.sol) % 96, ndirty := s.lp.gr.ndirty + s.lp.sol } →
    t.lp.cfm = mkCfm (s.lp.sof - s.lp.sol) 0 0 0 0 0 → t.lp.psr = s.lp.psr → s.lp.sof ≤ 96 → 8 * s.lp.sor ≤ s.lp.sol →
    k < s.lp.sof - s.lp.sol →
    t.lp.gr? (BitVec.ofNat 7 (32 + k)) = s.lp.gr? (BitVec.ofNat 7 (32 + s.lp.sol + k)))
  ∧ (∀ s : State, s.lp.gr.bof < 96 → s.lp.sol ≤ s.lp.sof → s.lp.gr.ndirty + s.lp.sof ≤ 96 →
    popFrame s.lp.sol s.lp.sof (enterFrame s) = .ok { enterFrame s with lp := { (enterFrame s).lp with gr := s.lp.gr } }
    ∧ (enterFrame s).lp.ar.pfs.setWidth 38 = s.lp.cfm ∧ ((enterFrame s).lp.ar.pfs >>> 52).setWidth 6 = s.lp.ar.ec
    ∧ ((enterFrame s).lp.ar.pfs >>> 62).setWidth 2 = s.lp.cpl)

/-- R669, R670 and R672: the encodings, the whole effect, and which bank is seen. -/
def Obligations.FramesRenameAndBanks : Prop :=
  (∀ x, Encodes .b (slotB8 0x02 x) .cover ∧ Encodes .b (slotB8 0x04 x) .clrrrb ∧ Encodes .b (slotB8 0x05 x) .clrrrbPr)
  ∧ (EffectAlways .cover (fun _ => True) (fun s => s.noteRse.setLp { s.noteRse.lp with
      gr := { s.lp.gr with bof := (s.lp.gr.bof + s.lp.sof) % 96, ndirty := s.lp.gr.ndirty + s.lp.sof }
      cfm := 0#38
      cr := if s.lp.psrBit 13 then s.lp.cr else { s.lp.cr with ifs := (1#64 <<< 63) ||| s.lp.cfm.setWidth 64 } }))
  ∧ (EffectAlways .clrrrb (fun _ => True) (fun s => s.setLp { s.lp with cfm := s.lp.cfm &&& 0x3FFFF#38 }))
  ∧ (EffectAlways .clrrrbPr (fun _ => True) (fun s => s.setLp { s.lp with cfm := s.lp.cfm &&& 0xFFFFFFFF#38 }))
  ∧ (∀ x, Encodes .b (slotB8 0x0C x) .bsw0 ∧ Encodes .b (slotB8 0x0D x) .bsw1)
  ∧ (EffectAlways .bsw0 (fun s => s.lp.cpl = 0#2) (fun s => s.setLp { s.lp with psr := s.lp.psr &&& ~~~(1#64 <<< 44) }))
  ∧ (EffectAlways .bsw1 (fun s => s.lp.cpl = 0#2) (fun s => s.setLp { s.lp with psr := s.lp.psr ||| (1#64 <<< 44) }))
  ∧ (∀ s : State, s.lp.cpl ≠ 0#2 → exec .bsw0 s = .next (faultTo s privilegedOperation)
    ∧ exec .bsw1 s = .next (faultTo s privilegedOperation))
  ∧ (∀ (s : State) (r : BitVec 7), 16 ≤ r.toNat → r.toNat < 32 →
    s.lp.gr? r = if s.lp.psr.getLsbD 44 then s.lp.gr.bank1.getD (r.toNat - 16) .zero
      else s.lp.gr.bank0.getD (r.toNat - 16) .zero)

/-- R673 and R671 with R1308: a return that needs no load of the register stack engine. What a page grants is the free
function of log 14; that `is` and `vm` stay 0 is 92 D17 and D23. -/
def Obligations.PrivilegedCodeAndReturn : Prop :=
  (EffectAlways .epc (fun s => s.lp.cpl ≤ (s.lp.ar.pfs >>> 62).setWidth 2 ∧ s.lp.psrBit 36 = false) (fun s => s.atLevel 0#2))
  ∧ (EffectAlways .epc (fun s => s.lp.cpl ≤ (s.lp.ar.pfs >>> 62).setWidth 2 ∧ s.lp.psrBit 36 = true)
    (fun s => match epcLevel (xlatContext s .fetch) s.lp.ip with
      | some l => if l < s.lp.cpl then s.atLevel l else s
      | none => s))
  ∧ (∀ s : State, (s.lp.ar.pfs >>> 62).setWidth 2 < s.lp.cpl → exec .epc s = .next (faultTo s illegalOperation))
  ∧ (∀ (s : State) (l : BitVec 2), (s.atLevel l).lp.cpl = l
    ∧ s.atLevel l = { s with lp := { s.lp with psr := (s.atLevel l).lp.psr } }
    ∧ ∀ i, i ≠ 32 → i ≠ 33 → (s.atLevel l).lp.psr.getLsbD i = s.lp.psr.getLsbD i)
  ∧ (∀ s : State,
    (s.lp.cpl ≠ 0#2 → exec .rfi s = .next (faultTo s privilegedOperation))
    ∧ (s.lp.cpl = 0#2 → s.lp.cr.ipsr &&& psrReserved ≠ 0#64 → exec .rfi s = .next (faultTo s reservedRegisterField))
    ∧ (s.lp.cpl = 0#2 → statusLegal s.lp.cr.ipsr = true → s.lp.cr.ifs.getLsbD 63 = false →
      unimplementedIp { s with lp := { s.lp with psr := s.lp.cr.ipsr } } (s.lp.cr.iip &&& ~~~0xF#64) = false →
      ∃ t, exec .rfi s = .next t ∧ t = { s with lp := { s.lp with
        psr := s.lp.cr.ipsr, ip := s.lp.cr.iip &&& ~~~0xF#64, lastIp := s.lp.ip, ev := t.lp.ev } })
    ∧ (∀ n, n = s.lp.cr.ifs.toNat % 128 → s.lp.cpl = 0#2 → statusLegal s.lp.cr.ipsr = true →
      s.lp.cr.ifs.getLsbD 63 = true → n ≤ 96 → n ≤ s.lp.gr.ndirty → s.lp.gr.ndirty ≤ 96 →
      unimplementedIp { s with lp := { s.lp with psr := s.lp.cr.ipsr } } (s.lp.cr.iip &&& ~~~0xF#64) = false →
      ∃ t, exec .rfi s = .next t ∧ t = { s with lp := { s.lp with
        psr := s.lp.cr.ipsr, ip := s.lp.cr.iip &&& ~~~0xF#64, lastIp := s.lp.ip, ev := t.lp.ev
        cfm := s.lp.cr.ifs.setWidth 38
        gr := { s.lp.gr with bof := (s.lp.gr.bof + 96 - n) % 96, ndirty := s.lp.gr.ndirty - n } } }))

/-- R681, R686, R688 and R1301: which registers an operation reads and writes, for every value of the free function `fpOp` (log
17), whose rounding the spec leaves uninterpreted. -/
def Obligations.FloatArithmetic : Prop :=
  (∀ o : OpF1,
    FpResults (.fma o) .fma .dynamic o.sf o.qp o.f1 o.f3 o.f4 o.f2
    ∧ FpFaults (.fma o) .fma .dynamic o.sf o.qp o.f1 o.f3 o.f4 o.f2
    ∧ Skips (.fma o) o.qp
    ∧ FpResults (.fmaS o) .fma .single o.sf o.qp o.f1 o.f3 o.f4 o.f2
    ∧ FpFaults (.fmaS o) .fma .single o.sf o.qp o.f1 o.f3 o.f4 o.f2
    ∧ Skips (.fmaS o) o.qp
    ∧ FpResults (.fmaD o) .fma .double o.sf o.qp o.f1 o.f3 o.f4 o.f2
    ∧ FpFaults (.fmaD o) .fma .double o.sf o.qp o.f1 o.f3 o.f4 o.f2
    ∧ Skips (.fmaD o) o.qp
    ∧ FpResults (.fpma o) .fpma .dynamic o.sf o.qp o.f1 o.f3 o.f4 o.f2
    ∧ FpFaults (.fpma o) .fpma .dynamic o.sf o.qp o.f1 o.f3 o.f4 o.f2
    ∧ Skips (.fpma o) o.qp
    ∧ FpResults (.fms o) .fms .dynamic o.sf o.qp o.f1 o.f3 o.f4 o.f2
    ∧ FpFaults (.fms o) .fms .dynamic o.sf o.qp o.f1 o.f3 o.f4 o.f2
    ∧ Skips (.fms o) o.qp
    ∧ FpResults (.fmsS o) .fms .single o.sf o.qp o.f1 o.f3 o.f4 o.f2
    ∧ FpFaults (.fmsS o) .fms .single o.sf o.qp o.f1 o.f3 o.f4 o.f2
    ∧ Skips (.fmsS o) o.qp
    ∧ FpResults (.fmsD o) .fms .double o.sf o.qp o.f1 o.f3 o.f4 o.f2
    ∧ FpFaults (.fmsD o) .fms .double o.sf o.qp o.f1 o.f3 o.f4 o.f2
    ∧ Skips (.fmsD o) o.qp
    ∧ FpResults (.fpms o) .fpms .dynamic o.sf o.qp o.f1 o.f3 o.f4 o.f2
    ∧ FpFaults (.fpms o) .fpms .dynamic o.sf o.qp o.f1 o.f3 o.f4 o.f2
    ∧ Skips (.fpms o) o.qp
    ∧ FpResults (.fnma o) .fnma .dynamic o.sf o.qp o.f1 o.f3 o.f4 o.f2
    ∧ FpFaults (.fnma o) .fnma .dynamic o.sf o.qp o.f1 o.f3 o.f4 o.f2
    ∧ Skips (.fnma o) o.qp
    ∧ FpResults (.fnmaS o) .fnma .single o.sf o.qp o.f1 o.f3 o.f4 o.f2
    ∧ FpFaults (.fnmaS o) .fnma .single o.sf o.qp o.f1 o.f3 o.f4 o.f2
    ∧ Skips (.fnmaS o) o.qp
    ∧ FpResults (.fnmaD o) .fnma .double o.sf o.qp o.f1 o.f3 o.f4 o.f2
    ∧ FpFaults (.fnmaD o) .fnma .double o.sf o.qp o.f1 o.f3 o.f4 o.f2
    ∧ Skips (.fnmaD o) o.qp
    ∧ FpResults (.fpnma o) .fpnma .dynamic o.sf o.qp o.f1 o.f3 o.f4 o.f2
    ∧ FpFaults (.fpnma o) .fpnma .dynamic o.sf o.qp o.f1 o.f3 o.f4 o.f2
    ∧ Skips (.fpnma o) o.qp)
  ∧ (∀ o : OpF8,
    FpResults (.fmin o) .fmin .dynamic o.sf o.qp o.f1 o.f2 o.f3 0#7
    ∧ FpFaults (.fmin o) .fmin .dynamic o.sf o.qp o.f1 o.f2 o.f3 0#7
    ∧ Skips (.fmin o) o.qp
    ∧ FpResults (.fmax o) .fmax .dynamic o.sf o.qp o.f1 o.f2 o.f3 0#7
    ∧ FpFaults (.fmax o) .fmax .dynamic o.sf o.qp o.f1 o.f2 o.f3 0#7
    ∧ Skips (.fmax o) o.qp
    ∧ FpResults (.famin o) .famin .dynamic o.sf o.qp o.f1 o.f2 o.f3 0#7
    ∧ FpFaults (.famin o) .famin .dynamic o.sf o.qp o.f1 o.f2 o.f3 0#7
    ∧ Skips (.famin o) o.qp
    ∧ FpResults (.famax o) .famax .dynamic o.sf o.qp o.f1 o.f2 o.f3 0#7
    ∧ FpFaults (.famax o) .famax .dynamic o.sf o.qp o.f1 o.f2 o.f3 0#7
    ∧ Skips (.famax o) o.qp
    ∧ FpResults (.fpmin o) .fpmin .dynamic o.sf o.qp o.f1 o.f2 o.f3 0#7
    ∧ FpFaults (.fpmin o) .fpmin .dynamic o.sf o.qp o.f1 o.f2 o.f3 0#7
    ∧ Skips (.fpmin o) o.qp
    ∧ FpResults (.fpmax o) .fpmax .dynamic o.sf o.qp o.f1 o.f2 o.f3 0#7
    ∧ FpFaults (.fpmax o) .fpmax .dynamic o.sf o.qp o.f1 o.f2 o.f3 0#7
    ∧ Skips (.fpmax o) o.qp
    ∧ FpResults (.fpamin o) .fpamin .dynamic o.sf o.qp o.f1 o.f2 o.f3 0#7
    ∧ FpFaults (.fpamin o) .fpamin .dynamic o.sf o.qp o.f1 o.f2 o.f3 0#7
    ∧ Skips (.fpamin o) o.qp
    ∧ FpResults (.fpamax o) .fpamax .dynamic o.sf o.qp o.f1 o.f2 o.f3 0#7
    ∧ FpFaults (.fpamax o) .fpamax .dynamic o.sf o.qp o.f1 o.f2 o.f3 0#7
    ∧ Skips (.fpamax o) o.qp
    ∧ FpResults (.fpcmpFrelCode0 o) (.fpcmp 0#3) .dynamic o.sf o.qp o.f1 o.f2 o.f3 0#7
    ∧ FpFaults (.fpcmpFrelCode0 o) (.fpcmp 0#3) .dynamic o.sf o.qp o.f1 o.f2 o.f3 0#7
    ∧ Skips (.fpcmpFrelCode0 o) o.qp
    ∧ FpResults (.fpcmpFrelCode1 o) (.fpcmp 1#3) .dynamic o.sf o.qp o.f1 o.f2 o.f3 0#7
    ∧ FpFaults (.fpcmpFrelCode1 o) (.fpcmp 1#3) .dynamic o.sf o.qp o.f1 o.f2 o.f3 0#7
    ∧ Skips (.fpcmpFrelCode1 o) o.qp
    ∧ FpResults (.fpcmpFrelCode2 o) (.fpcmp 2#3) .dynamic o.sf o.qp o.f1 o.f2 o.f3 0#7
    ∧ FpFaults (.fpcmpFrelCode2 o) (.fpcmp 2#3) .dynamic o.sf o.qp o.f1 o.f2 o.f3 0#7
    ∧ Skips (.fpcmpFrelCode2 o) o.qp
    ∧ FpResults (.fpcmpFrelCode3 o) (.fpcmp 3#3) .dynamic o.sf o.qp o.f1 o.f2 o.f3 0#7
    ∧ FpFaults (.fpcmpFrelCode3 o) (.fpcmp 3#3) .dynamic o.sf o.qp o.f1 o.f2 o.f3 0#7
    ∧ Skips (.fpcmpFrelCode3 o) o.qp
    ∧ FpResults (.fpcmpFrelCode4 o) (.fpcmp 4#3) .dynamic o.sf o.qp o.f1 o.f2 o.f3 0#7
    ∧ FpFaults (.fpcmpFrelCode4 o) (.fpcmp 4#3) .dynamic o.sf o.qp o.f1 o.f2 o.f3 0#7
    ∧ Skips (.fpcmpFrelCode4 o) o.qp
    ∧ FpResults (.fpcmpFrelCode5 o) (.fpcmp 5#3) .dynamic o.sf o.qp o.f1 o.f2 o.f3 0#7
    ∧ FpFaults (.fpcmpFrelCode5 o) (.fpcmp 5#3) .dynamic o.sf o.qp o.f1 o.f2 o.f3 0#7
    ∧ Skips (.fpcmpFrelCode5 o) o.qp
    ∧ FpResults (.fpcmpFrelCode6 o) (.fpcmp 6#3) .dynamic o.sf o.qp o.f1 o.f2 o.f3 0#7
    ∧ FpFaults (.fpcmpFrelCode6 o) (.fpcmp 6#3) .dynamic o.sf o.qp o.f1 o.f2 o.f3 0#7
    ∧ Skips (.fpcmpFrelCode6 o) o.qp
    ∧ FpResults (.fpcmpFrelCode7 o) (.fpcmp 7#3) .dynamic o.sf o.qp o.f1 o.f2 o.f3 0#7
    ∧ FpFaults (.fpcmpFrelCode7 o) (.fpcmp 7#3) .dynamic o.sf o.qp o.f1 o.f2 o.f3 0#7
    ∧ Skips (.fpcmpFrelCode7 o) o.qp)
  ∧ (∀ o : OpF10,
    FpResults (.fcvtFx o) .fcvtFx .dynamic o.sf o.qp o.f1 o.f2 0#7 0#7
    ∧ FpFaults (.fcvtFx o) .fcvtFx .dynamic o.sf o.qp o.f1 o.f2 0#7 0#7
    ∧ Skips (.fcvtFx o) o.qp
    ∧ FpResults (.fpcvtFx o) .fpcvtFx .dynamic o.sf o.qp o.f1 o.f2 0#7 0#7
    ∧ FpFaults (.fpcvtFx o) .fpcvtFx .dynamic o.sf o.qp o.f1 o.f2 0#7 0#7
    ∧ Skips (.fpcvtFx o) o.qp
    ∧ FpResults (.fcvtFxu o) .fcvtFxu .dynamic o.sf o.qp o.f1 o.f2 0#7 0#7
    ∧ FpFaults (.fcvtFxu o) .fcvtFxu .dynamic o.sf o.qp o.f1 o.f2 0#7 0#7
    ∧ Skips (.fcvtFxu o) o.qp
    ∧ FpResults (.fpcvtFxu o) .fpcvtFxu .dynamic o.sf o.qp o.f1 o.f2 0#7 0#7
    ∧ FpFaults (.fpcvtFxu o) .fpcvtFxu .dynamic o.sf o.qp o.f1 o.f2 0#7 0#7
    ∧ Skips (.fpcvtFxu o) o.qp
    ∧ FpResults (.fcvtFxTrunc o) .fcvtFxTrunc .dynamic o.sf o.qp o.f1 o.f2 0#7 0#7
    ∧ FpFaults (.fcvtFxTrunc o) .fcvtFxTrunc .dynamic o.sf o.qp o.f1 o.f2 0#7 0#7
    ∧ Skips (.fcvtFxTrunc o) o.qp
    ∧ FpResults (.fpcvtFxTrunc o) .fpcvtFxTrunc .dynamic o.sf o.qp o.f1 o.f2 0#7 0#7
    ∧ FpFaults (.fpcvtFxTrunc o) .fpcvtFxTrunc .dynamic o.sf o.qp o.f1 o.f2 0#7 0#7
    ∧ Skips (.fpcvtFxTrunc o) o.qp
    ∧ FpResults (.fcvtFxuTrunc o) .fcvtFxuTrunc .dynamic o.sf o.qp o.f1 o.f2 0#7 0#7
    ∧ FpFaults (.fcvtFxuTrunc o) .fcvtFxuTrunc .dynamic o.sf o.qp o.f1 o.f2 0#7 0#7
    ∧ Skips (.fcvtFxuTrunc o) o.qp
    ∧ FpResults (.fpcvtFxuTrunc o) .fpcvtFxuTrunc .dynamic o.sf o.qp o.f1 o.f2 0#7 0#7
    ∧ FpFaults (.fpcvtFxuTrunc o) .fpcvtFxuTrunc .dynamic o.sf o.qp o.f1 o.f2 0#7 0#7
    ∧ Skips (.fpcvtFxuTrunc o) o.qp)

/-- R682, R687 and R688. The element orders of fmix, fsxt and fswap, the form field and the addend of xma.h are the
model's (log 19), and so are the sign 0 and the exponent 0x1003E of what fselect, fmix, fsxt, fpack, fswap and fpmerge write, and
what fswap.nl, fswap.nr and fsxt compute from their names; the singles of fpack those of log 18. -/
def Obligations.FloatMoves : Prop :=
  (∀ o : OpF9,
    FpMoves (.fmergeS o) o.qp o.f1 o.f2 o.f3 0#7 (fun x y _ => x.extractLsb' 81 1 ++ y.extractLsb' 0 81)
    ∧ FpMoves (.fmergeNs o) o.qp o.f1 o.f2 o.f3 0#7 (fun x y _ => ~~~(x.extractLsb' 81 1) ++ y.extractLsb' 0 81)
    ∧ FpMoves (.fmergeSe o) o.qp o.f1 o.f2 o.f3 0#7 (fun x y _ => x.extractLsb' 64 18 ++ y.extractLsb' 0 64)
    ∧ FpMoves (.fmixLr o) o.qp o.f1 o.f2 o.f3 0#7 (fun x y _ => packedFr (leftSingle x) (rightSingle y))
    ∧ FpMoves (.fmixR o) o.qp o.f1 o.f2 o.f3 0#7 (fun x y _ => packedFr (rightSingle x) (rightSingle y))
    ∧ FpMoves (.fmixL o) o.qp o.f1 o.f2 o.f3 0#7 (fun x y _ => packedFr (leftSingle x) (leftSingle y))
    ∧ FpMoves (.fsxtR o) o.qp o.f1 o.f2 o.f3 0#7 (fun x y _ => packedFr (((rightSingle x).extractLsb' 31 1).signExtend 32) (rightSingle y))
    ∧ FpMoves (.fsxtL o) o.qp o.f1 o.f2 o.f3 0#7 (fun x y _ => packedFr (((leftSingle x).extractLsb' 31 1).signExtend 32) (leftSingle y))
    ∧ FpMoves (.fpack o) o.qp o.f1 o.f2 o.f3 0#7 (fun x y _ => packedFr (BitVec.ofNat 32 (toMemory .single x)) (BitVec.ofNat 32 (toMemory .single y)))
    ∧ FpMoves (.fswap o) o.qp o.f1 o.f2 o.f3 0#7 (fun x y _ => packedFr (rightSingle y) (leftSingle x))
    ∧ FpMoves (.fswapNl o) o.qp o.f1 o.f2 o.f3 0#7 (fun x y _ => packedFr (rightSingle y ^^^ 0x80000000#32) (leftSingle x))
    ∧ FpMoves (.fswapNr o) o.qp o.f1 o.f2 o.f3 0#7 (fun x y _ => packedFr (rightSingle y) (leftSingle x ^^^ 0x80000000#32))
    ∧ FpMoves (.fand o) o.qp o.f1 o.f2 o.f3 0#7 (fun x y _ => integerFr (significand x &&& significand y))
    ∧ FpMoves (.fandcm o) o.qp o.f1 o.f2 o.f3 0#7 (fun x y _ => integerFr (significand x &&& ~~~significand y))
    ∧ FpMoves (.fOr o) o.qp o.f1 o.f2 o.f3 0#7 (fun x y _ => integerFr (significand x ||| significand y))
    ∧ FpMoves (.fxor o) o.qp o.f1 o.f2 o.f3 0#7 (fun x y _ => integerFr (significand x ^^^ significand y))
    ∧ FpMoves (.fpmergeS o) o.qp o.f1 o.f2 o.f3 0#7 (fun x y _ => packedFr ((leftSingle x).extractLsb' 31 1 ++ (leftSingle y).extractLsb' 0 31)
        ((rightSingle x).extractLsb' 31 1 ++ (rightSingle y).extractLsb' 0 31))
    ∧ FpMoves (.fpmergeNs o) o.qp o.f1 o.f2 o.f3 0#7 (fun x y _ => packedFr (~~~((leftSingle x).extractLsb' 31 1) ++ (leftSingle y).extractLsb' 0 31)
        (~~~((rightSingle x).extractLsb' 31 1) ++ (rightSingle y).extractLsb' 0 31))
    ∧ FpMoves (.fpmergeSe o) o.qp o.f1 o.f2 o.f3 0#7 (fun x y _ => packedFr ((leftSingle x).extractLsb' 23 9 ++ (leftSingle y).extractLsb' 0 23)
        ((rightSingle x).extractLsb' 23 9 ++ (rightSingle y).extractLsb' 0 23)))
  ∧ (∀ o : OpF11,
    FpMoves (.fcvtXf o) o.qp o.f1 o.f2 0#7 0#7 (fun x _ _ => if x.getLsbD 63 then
        1#1 ++ 0x1003E#17 ++ (-(significand x)) else integerFr (significand x)))
  ∧ (∀ o : OpF2,
    FpMoves (.xma o) o.qp o.f1 o.f3 o.f4 o.f2
      (fun x y z => integerFr (xmaValue (xmaForm o.x2) (significand x) (significand y) (significand z))))
  ∧ (∀ o : OpF3,
    FpMoves (.fselect o) o.qp o.f1 o.f3 o.f4 o.f2
      (fun x y z => integerFr ((significand x &&& significand z) ||| (significand y &&& ~~~significand z))))
  ∧ (∀ a b c : Word, xmaValue .low a b c = a * b + c
    ∧ (xmaValue .highUnsigned a b c).toNat = (a.toNat * b.toNat + c.toNat) / 2 ^ 64
    ∧ ((xmaValue .high a b c).toInt = (a.toInt * b.toInt + c.toInt) / 2 ^ 64
      ∨ xmaValue .high a b c = BitVec.ofInt 64 ((a.toInt * b.toInt + (c.toNat : Int)) / 2 ^ 64)))

/-- R683, R684 and R456, for every value of the free functions of log 17 and log 19; the class fclass asks for has no
place in the spec. -/
def Obligations.FloatComparesAndApproximations : Prop :=
  (∀ o : OpF6,
    Approximates (.frcpa o) .frcpa o.sf o.qp o.p2 o.f1 o.f2 o.f3
    ∧ ApproximationOff (.frcpa o) o.qp o.p2
    ∧ Approximates (.fprcpa o) .fprcpa o.sf o.qp o.p2 o.f1 o.f2 o.f3
    ∧ ApproximationOff (.fprcpa o) o.qp o.p2)
  ∧ (∀ o : OpF7,
    Approximates (.frsqrta o) .frsqrta o.sf o.qp o.p2 o.f1 o.f3 0#7
    ∧ ApproximationOff (.frsqrta o) o.qp o.p2
    ∧ Approximates (.fprsqrta o) .fprsqrta o.sf o.qp o.p2 o.f1 o.f3 0#7
    ∧ ApproximationOff (.fprsqrta o) o.qp o.p2)
  ∧ (∀ o : OpF4,
    FpCompares (.fcmp o) o)
  ∧ (∀ (o : OpF5) (s : State),
    (s.lp.readPr o.qp = true → o.p1 ≠ o.p2 → s.lp.frEnabled o.f2 = true → Untrapped s →
      ∃ hit, exec (.fclassM o) s = .next (fallThrough s
        (writeCompare .none { s with free := s.free + 1 } o.p1 o.p2 hit (decide (s.lp.fr? o.f2 = natVal)))))
    ∧ (s.lp.readPr o.qp = true → o.p1 = o.p2 → exec (.fclassM o) s = .next (faultTo s illegalOperation))
    ∧ CompareOff (.fclassM o) s o.qp o.p1 o.p2 o.ta)

/-- R683: fcmp and fclass.m complete, with the whole next state. The relation, its flags and the class are the free functions of
log 17 and log 19. -/
def Obligations.FloatComparesComplete : Prop :=
  (∀ (o : OpF4) (s : State), s.lp.readPr o.qp = true → o.p1 ≠ o.p2 → s.lp.frEnabled o.f2 = true →
    s.lp.frEnabled o.f3 = true → FpTrapsOff s → Untrapped s → exec (.fcmp o) s = .next (fallThrough s (fpCompared o s)))
  ∧ (∀ (o : OpF5) (s : State), s.lp.readPr o.qp = true → o.p1 ≠ o.p2 → s.lp.frEnabled o.f2 = true → Untrapped s →
    exec (.fclassM o) s = .next (fallThrough s (fpClassed o s)))

/-- R684: frcpa, frsqrta and their parallel forms complete, with the whole next state. The result, its flags and its predicate
are the free function of log 17. -/
def Obligations.FloatApproximationsComplete : Prop :=
  (∀ o : OpF6, ApproximationCompletes (.frcpa o) .frcpa 1 o.sf o.qp o.p2 o.f1 o.f2 o.f3
    ∧ ApproximationCompletes (.fprcpa o) .fprcpa 2 o.sf o.qp o.p2 o.f1 o.f2 o.f3)
  ∧ (∀ o : OpF7, ApproximationCompletes (.frsqrta o) .frsqrta 1 o.sf o.qp o.p2 o.f1 o.f3 0#7
    ∧ ApproximationCompletes (.fprsqrta o) .fprsqrta 2 o.sf o.qp o.p2 o.f1 o.f3 0#7)

/-- R689. When fchkf fails is the reading of log 44. -/
def Obligations.FloatStatus : Prop :=
  (∀ o : OpF12,
    Effect (.fsetc o) o.qp (fun _ => True) (fun s => s.setLp { s.lp with ar := { s.lp.ar with
      fpsr := setSfControls s.lp.ar.fpsr o.sf ((sfControls s.lp.ar.fpsr 0#2 &&& o.amask7b) ||| o.omask7c) } }))
  ∧ (∀ o : OpF13,
    Effect (.fclrf o) o.qp (fun _ => True) (fun s => s.setLp { s.lp with ar := { s.lp.ar with
      fpsr := setSfFlags s.lp.ar.fpsr o.sf 0#6 } }))
  ∧ (∀ o : OpF14,
    Checks (.fchkf o) o.qp (fun _ => True) (fun s => flagsFail s.lp.ar.fpsr o.sf)
      (fun s => s.setLp { s.lp with ev := { s.lp.ev with fchkfFailed := flagsFail s.lp.ar.fpsr o.sf } })
      (fun s => s.lp.ip + (o.target25.signExtend 64 <<< 4)))
  ∧ (∀ (w : Word) (sf : BitVec 2),
    (flagsFail w sf = true ↔ ∃ i, (sfFlags w sf).getLsbD i = true
      ∧ (w.getLsbD i = false ∨ (sfFlags w 0#2).getLsbD i = false)))
  ∧ (∀ (w : Word) (sf tf : BitVec 2) (c : BitVec 7) (f : BitVec 6),
    sfControls (setSfControls w sf c) tf = (if tf = sf then c else sfControls w tf)
    ∧ sfFlags (setSfControls w sf c) tf = sfFlags w tf
    ∧ sfFlags (setSfFlags w sf f) tf = (if tf = sf then f else sfFlags w tf)
    ∧ sfControls (setSfFlags w sf f) tf = sfControls w tf
    ∧ (∀ i, i < 6 ∨ 58 ≤ i → (setSfControls w sf c).getLsbD i = w.getLsbD i ∧ (setSfFlags w sf f).getLsbD i = w.getLsbD i))

/-- R520, for every compare: the predicates one by one, and the rest. -/
def Obligations.CompareWrites : Prop :=
  ∀ (ct : CType) (qp p1 p2 : BitVec 6) (s : State) (rel nat : Bool), Untrapped s →
    (p1 = p2 → s.lp.readPr qp = true ∨ ct = .unc →
      compare ct qp p1 p2 s (.ok (rel, nat, s)) = .next (faultTo s illegalOperation))
    ∧ (p1 = p2 → s.lp.readPr qp = false → ct ≠ .unc → compare ct qp p1 p2 s (.ok (rel, nat, s)) = .next (skipped s))
    ∧ (p1 ≠ p2 → ∃ t, compare ct qp p1 p2 s (.ok (rel, nat, s)) = .next t
      ∧ (∀ q, t.lp.readPr q =
          if q = 0#6 then true
          else match (match ct with
              | .none => if s.lp.readPr qp then some (if nat then (false, false) else (rel, !rel)) else none
              | .unc => some (if s.lp.readPr qp && !nat then (rel, !rel) else (false, false))
              | .and => if s.lp.readPr qp && (nat || !rel) then some (false, false) else none
              | .or => if s.lp.readPr qp && !nat && rel then some (true, true) else none
              | .orAndcm => if s.lp.readPr qp && !nat && rel then some (true, false) else none : Option (Bool × Bool)) with
            | none => s.lp.readPr q
            | some (a, b) => if q = p2 then b else if q = p1 then a else s.lp.readPr q)
      ∧ Passed s s t
      ∧ t = { s with lp := { s.lp with pr := t.lp.pr, ev := t.lp.ev, ip := t.lp.ip, lastIp := t.lp.lastIp,
                                       psr := t.lp.psr } })

/-- R53, R57, R58, R59 and R457: the register files as the rules describe them, for frames the rules allow. That a write of
predicate 0 outside a compare is discarded, where R457 speaks of an Illegal Operation, is the model's choice (log 51). -/
def Obligations.RegisterFiles : Prop :=
  (∀ l : LP, l.gr? 0#7 = ⟨0#64, false⟩ ∧ l.fr? 0#7 = 0#82 ∧ l.fr? 1#7 = 0#1 ++ 0xFFFF#17 ++ 0x8000000000000000#64
    ∧ l.readPr 0#6 = true ∧ ∀ b, l.setPr 0#6 b = l)
  ∧ (∀ (l : LP) (r : BitVec 7), (l.grReadable r = true ↔ r.toNat < 32 + l.sof)
    ∧ (l.grWritable r = true ↔ r.toNat ≠ 0 ∧ r.toNat < 32 + l.sof))
  ∧ (∀ (s : State) (r q : BitVec 7) (v : Reg), s.lp.sof ≤ 96 → 8 * s.lp.sor ≤ s.lp.sof → s.lp.grWritable r = true →
    s.lp.grReadable q = true → (s.setGr r v).lp.gr? q = (if q = r then v else s.lp.gr? q)
    ∧ s.setGr r v = { s with lp := { s.lp with gr := (s.setGr r v).lp.gr } })
  ∧ (∀ (s : State) (f g : BitVec 7) (v : FReg), 2 ≤ f.toNat →
    (s.setFr f v).lp.fr? g = (if g = f then v else s.lp.fr? g)
    ∧ (∀ i, (s.setFr f v).lp.psr.getLsbD i =
        (if i = 4 ∧ f.toNat < 32 ∨ i = 5 ∧ 32 ≤ f.toNat then true else s.lp.psr.getLsbD i))
    ∧ s.setFr f v = { s with lp := { s.lp with fr := (s.setFr f v).lp.fr, psr := (s.setFr f v).lp.psr } })
  ∧ (∀ (l : LP) (p q : BitVec 6) (b : Bool), p ≠ 0#6 →
    (l.setPr p b).readPr q = (if q = p then b else l.readPr q) ∧ l.setPr p b = { l with pr := (l.setPr p b).pr })
  ∧ (∀ (s : State) (b : Bool) (k : Nat),
    (8 * s.lp.sor ≤ s.lp.sof → s.lp.rrbGr < 8 * s.lp.sor → k + 1 < 8 * s.lp.sor → k + 33 < 128 →
      (s.rotated b).lp.gr? (BitVec.ofNat 7 (33 + k)) = s.lp.gr? (BitVec.ofNat 7 (32 + k)))
    ∧ (k < 95 → s.lp.rrbFr < 96 → (s.rotated b).lp.fr? (BitVec.ofNat 7 (33 + k)) = s.lp.fr? (BitVec.ofNat 7 (32 + k)))
    ∧ (k < 46 → s.lp.rrbPr < 48 → (s.rotated b).lp.readPr (BitVec.ofNat 6 (17 + k)) = s.lp.readPr (BitVec.ofNat 6 (16 + k))))

/-- R401 and R440: the two byte orders of data. The canonical form is the model's (log 8). -/
def Obligations.MemoryBytes : Prop :=
  (∀ (big : Bool) (m : List Host.Cell) (a n v : Nat), Memory.wf m = true →
    memRead big (memWrite big m a n v) a n = v % 256 ^ n ∧ Memory.wf (memWrite big m a n v) = true
    ∧ ∀ x, (x < a ∨ a + n ≤ x) → memByte (memWrite big m a n v) x = memByte m x)
  ∧ (∀ (m : List Host.Cell) (a n k : Nat), k < n →
    memRead false m a n / 256 ^ k % 256 = (memByte m (a + k)).toNat
    ∧ memRead true m a n / 256 ^ k % 256 = (memByte m (a + (n - 1 - k))).toNat)
  ∧ (∀ m k : List Host.Cell, Memory.wf m = true → Memory.wf k = true → (∀ a, memByte m a = memByte k a) → m = k)

/-- R402, R404 and R440, the vectors of R1302 and the bit `ed` of R1303. What a translation gives is the free function of log 13.
The vector 0x5400 of an unimplemented data address, which R1302 does not list, is the model's choice (log 25). -/
def Obligations.DataAccesses : Prop :=
  (∀ (s : State) (va : Word) (k : AccessKind),
    (s.lp.translates k = false → va.toNat % 2 ^ 63 < 2 ^ s.params.paBits →
      translateAddr s va k = .ok (va.toNat % 2 ^ 63, if va.getLsbD 63 then .uc else .wb))
    ∧ (s.lp.translates k = false → 2 ^ s.params.paBits ≤ va.toNat % 2 ^ 63 → translateAddr s va k = .error .unimplemented)
    ∧ (s.lp.translates k = true → va.toNat < 2 ^ s.params.vaBits →
      translateAddr s va k = match translate (xlatContext s k) va k with
        | .ok pa a itir iha ed => if a = .natPage then .error (.natPage itir iha ed) else .ok (pa.toNat, a)
        | .fault f itir iha ed => .error (.xlat f itir iha ed)))
  ∧ (∀ (s : State) (va : Word) (n pa : Nat) (k : AccessKind) (a : MemAttr), translateAddr s va k = .ok (pa, a) →
    s.lp.psrBit 24 = false →
    (va.toNat % n = 0 → dataAccess s k va n false = .ok (pa, a))
    ∧ (va.toNat % n ≠ 0 → k = .read → dataAccess s k va n false =
      if s.lp.psrBit 3 = false ∧ a = .wb ∧ va.toNat / 8 = (va.toNat + n - 1) / 8 then .ok (pa, a)
      else .error (.unaligned (pageEd s va k)))
    ∧ (va.toNat % n ≠ 0 → k = .write → dataAccess s k va n false =
      if s.lp.psrBit 3 = false ∧ a = .wb ∧ va.toNat / 16 = (va.toNat + n - 1) / 16 then .ok (pa, a)
      else .error (.unaligned (pageEd s va k)))
    ∧ (va.toNat % n ≠ 0 → k = .readWrite → dataAccess s k va n false = .error (.unaligned (pageEd s va k))))
  ∧ (∀ (s : State) (va acc : Word) (k : AccessKind) (f : MemFault),
    (memExc s va k acc f).ifa = some va ∧ (memExc s va k acc f).offset = match f with
      | .unimplemented => 0x5400
      | .xlat .vhptTranslation _ _ _ => 0x0000
      | .xlat .tlbMiss _ _ _ => if k = .fetch then 0x0400 else if s.lp.psrBit 13 then 0x0800 else 0x1400
      | .xlat .altTlbMiss _ _ _ => if k = .fetch then 0x0C00 else if s.lp.psrBit 13 then 0x1000 else 0x1400
      | .xlat .keyMiss _ _ _ => if k = .fetch then 0x1800 else 0x1C00
      | .xlat .dirtyBit _ _ _ => 0x2000
      | .xlat .accessBit _ _ _ => if k = .fetch then 0x2400 else 0x2800
      | .xlat .pageNotPresent _ _ _ => 0x5000
      | .xlat .keyPermission _ _ _ => 0x5100
      | .xlat .accessRights _ _ _ => if k = .fetch then 0x5200 else 0x5300
      | .natPage _ _ _ => 0x5600
      | .debug _ => 0x5900
      | .unaligned _ => 0x5A00
      | .unsupported _ => 0x5B00)
  ∧ (∀ (s : State) (va acc : Word) (k : AccessKind) (f : MemFault), acc.getLsbD 43 = false →
    match f with
      | .unimplemented => (memExc s va k acc f).isr.getLsbD 43 = false
      | .xlat _ itir iha ed | .natPage itir iha ed => (memExc s va k acc f).isr.getLsbD 43 = ed
        ∧ (memExc s va k acc f).itir = some itir ∧ (memExc s va k acc f).iha = some iha
      | .debug ed | .unaligned ed | .unsupported ed => (memExc s va k acc f).isr.getLsbD 43 = ed)
  ∧ (∀ (s : State) (va : Word) (k : AccessKind), pageEd s va k = (s.lp.translates k &&
    match translate (xlatContext s k) va k with
    | .ok _ _ _ _ ed | .fault _ _ _ ed => ed))
  ∧ (∀ (o : OpM1) (s : State) (f : MemFault), s.lp.readPr o.qp = true → s.lp.grWritable o.r1 = true → Usable s o.r3 →
(dataAccess s .read (s.lp.gr? o.r3).val 1 false = .error f →
      exec (.ld1R1R3 o) s = .next (faultTo s (memExc s (s.lp.gr? o.r3).val .read (accessBits .read) f)))
    ∧ (dataAccess s .read (s.lp.gr? o.r3).val 2 false = .error f →
      exec (.ld2R1R3 o) s = .next (faultTo s (memExc s (s.lp.gr? o.r3).val .read (accessBits .read) f)))
    ∧ (dataAccess s .read (s.lp.gr? o.r3).val 4 false = .error f →
      exec (.ld4R1R3 o) s = .next (faultTo s (memExc s (s.lp.gr? o.r3).val .read (accessBits .read) f)))
    ∧ (dataAccess s .read (s.lp.gr? o.r3).val 8 false = .error f →
      exec (.ld8R1R3 o) s = .next (faultTo s (memExc s (s.lp.gr? o.r3).val .read (accessBits .read) f))))
  ∧ (∀ (o : OpM4) (s : State) (f : MemFault), s.lp.readPr o.qp = true → Usable s o.r3 → Usable s o.r2 →
(dataAccess s .write (s.lp.gr? o.r3).val 1 false = .error f →
      exec (.st1R3R2 o) s = .next (faultTo s (memExc s (s.lp.gr? o.r3).val .write (accessBits .write) f)))
    ∧ (dataAccess s .write (s.lp.gr? o.r3).val 2 false = .error f →
      exec (.st2R3R2 o) s = .next (faultTo s (memExc s (s.lp.gr? o.r3).val .write (accessBits .write) f)))
    ∧ (dataAccess s .write (s.lp.gr? o.r3).val 4 false = .error f →
      exec (.st4R3R2 o) s = .next (faultTo s (memExc s (s.lp.gr? o.r3).val .write (accessBits .write) f)))
    ∧ (dataAccess s .write (s.lp.gr? o.r3).val 8 false = .error f →
      exec (.st8R3R2 o) s = .next (faultTo s (memExc s (s.lp.gr? o.r3).val .write (accessBits .write) f))))

/-- R431 for physical addressing, whichever socket the address reaches, and the registers of 12 and 13: their places, what a store
leaves, what is refused (93 U20, U23, U32). The aperture, the numbers of the sockets and the refusal of one that is absent are the
model's choices (log 33); that no byte order turns the number of a register round is log 10. -/
def Obligations.UncoreRegisters : Prop :=
  (∀ (o : OpM1) (s : State) (pa : Nat) (c : Csr), s.lp.readPr o.qp = true → s.lp.grWritable o.r1 = true → Usable s o.r3 →
    Untrapped s → s.lp.psrBit 17 = false → s.lp.psrBit 24 = false → (s.lp.gr? o.r3).val.getLsbD 63 = true →
    pa = (s.lp.gr? o.r3).val.toNat % 2 ^ 63 → pa < 2 ^ s.params.paBits → pa % 8 = 0 → inAperture pa = true →
    csrAt pa = .ok c →
    (s.uncoreOf (csrSocket s.params pa) = none → exec (.ld8R1R3 o) s = .refused (.csrOtherSocket (csrWindow pa)))
    ∧ (∀ u, s.uncoreOf (csrSocket s.params pa) = some u →
      ∃ t, exec (.ld8R1R3 o) s = .next t
        ∧ (∃ w, t.lp.gr? o.r1 = ⟨csrValue u c ||| (w &&& csrUndescribed c), false⟩)
        ∧ OtherGrs s t [s.lp.grPlace o.r1.toNat] ∧ Passed s s t ∧ OnlyGrs s t))
  ∧ (∀ (o : OpM4) (s : State) (pa : Nat) (c : Csr) (u : Uncore), s.lp.readPr o.qp = true → Usable s o.r2 → Usable s o.r3 →
    Untrapped s → s.lp.psrBit 17 = false → s.lp.psrBit 24 = false → (s.lp.gr? o.r3).val.getLsbD 63 = true →
    pa = (s.lp.gr? o.r3).val.toNat % 2 ^ 63 → pa < 2 ^ s.params.paBits → pa % 8 = 0 → inAperture pa = true →
    csrAt pa = .ok c → s.uncoreOf (csrSocket s.params pa) = some u →
    (∀ r, csrWriteValue u pa (s.lp.gr? o.r2).val c = .error r → exec (.st8R3R2 o) s = .refused r)
    ∧ (∀ v, csrWriteValue u pa (s.lp.gr? o.r2).val c = .ok v →
      ∃ t, exec (.st8R3R2 o) s = .next t ∧ Passed s s t ∧ AlatsAfterStore s t (BitVec.ofNat 64 pa) 8
        ∧ t = { s.setUncoreOf v (csrSocket s.params pa) with
            lp := { s.lp with alat := t.lp.alat, ev := t.lp.ev, ip := t.lp.ip, lastIp := t.lp.lastIp, psr := t.lp.psr }
            bg := t.bg }))
  ∧ (∀ (s : State) (v : Uncore) (k : Nat), s.setUncoreOf v none = { s with uncore := v }
    ∧ s.setUncoreOf v (some k) = { s with remote := s.remote.set k v }
    ∧ s.uncoreOf none = some s.uncore ∧ s.uncoreOf (some k) = s.remote[k]?)
  ∧ (∀ (c : Csr) (w : Nat), csrExists c = true → (w = 0xFEB00000 ∨ ∃ k, k < 256 ∧ w = 0xFC000000 + 0x10000 * k) →
    csrAt (0x3FFFB00000000 + w + csrOffset c) = .ok c)
  ∧ (∀ (pa : Nat) (c : Csr), csrAt pa = .ok c → csrExists c = true
    ∧ ∃ w, (w = 0xFEB00000 ∨ ∃ k, k < 256 ∧ w = 0xFC000000 + 0x10000 * k) ∧ pa = 0x3FFFB00000000 + w + csrOffset c)
  ∧ (∀ (pa : Nat) (e : Refusal), csrAt pa = .error e → e = .csrUndescribed pa)
  ∧ (∀ (p : Params) (k r : Nat), k < 256 → r < 0x10000 → csrSocket p (0x3FFFBFEB00000 + r) = none
    ∧ csrSocket p (0x3FFFBFC000000 + 0x10000 * k + r) =
      (if k = p.socketId then none else some (if k < p.socketId then k else k - 1)))
  ∧ (∀ (u : Uncore) (pa : Nat) (v : Word) (c : Csr), csrWriteValue u pa v c =
    (if v &&& csrMustBeZero c ≠ 0#64 then .error (.csrReservedBits pa)
     else if csrFreezeConflict u v c then .error (.csrFreezeConflict pa) else .ok (csrUpdate u v c))
    ∧ (csrFreezeConflict u v c = true ↔
      (c = .dbxMisc ∧ v.getLsbD 6 = true ∧ v.getLsbD 7 = true ∧ u.dbx.getLsbD 6 = false ∧ u.dbx.getLsbD 7 = false)
      ∨ (c = .rGblCfg ∧ v.getLsbD 11 = true ∧ v.getLsbD 9 = true)
      ∨ (∃ b, c = .zStatus b ∧ v.getLsbD 31 = true ∧ v.getLsbD 30 = true)))
  ∧ (∀ (u : Uncore) (v m : Word) (c : Csr), csrExists c = true →
    (csrReplaced c = some m → csrValue (csrUpdate u v c) c = v &&& m)
    ∧ (csrMerged c = some m → csrValue (csrUpdate u v c) c = (csrValue u c &&& ~~~m) ||| (v &&& m)))
  ∧ (∀ (u : Uncore) (v : Word) (b i : Nat),
    csrValue (csrUpdate u v .rGblCfg) .rGblCfg = (v &&& 0x9F#64) ||| (if v.getLsbD 11 = true ∨ (v.getLsbD 9 = false
        ∧ u.rbox.frozen = true) then 0x100#64 else 0#64)
    ∧ (v.getLsbD 10 = true → ∀ j, j < 16 → csrValue (csrUpdate u v .rGblCfg) (.rCnt j) = 0#64)
    ∧ (v.getLsbD 10 = false → (csrUpdate u v .rGblCfg).rbox.cnt = u.rbox.cnt)
    ∧ (b < 2 → csrValue (csrUpdate u v (.zStatus b)) (.zStatus b) = (csrValue u (.zStatus b) &&& 0x1F#64 &&& ~~~v)
      ||| (if v.getLsbD 31 = true ∨ (v.getLsbD 30 = false ∧ (u.z b).frozen = true) then 0x80000000#64 else 0#64))
    ∧ (b < 2 → i < 5 → v.getLsbD 22 = false ∨ i ≠ 0 → csrValue (csrUpdate u v (.zCtl b i)) (.zCtl b i) =
      (if v.getLsbD 23 = true then (csrValue u (.zCtl b i) &&& 0x3FF#64) ||| (v &&& 0xFF000000#64)
       else (csrValue u (.zCtl b i) &&& 0xFF000000#64) ||| (v &&& 0x3FF#64)))
    ∧ (b < 2 → v.getLsbD 22 = true → v.getLsbD 23 = false →
      (∀ j, j < 5 → csrValue (csrUpdate u v (.zCtl b 0)) (.zCnt b j) = 0#64)
      ∧ csrValue (csrUpdate u v (.zCtl b 0)) (.zStatus b) = csrValue u (.zStatus b) &&& 0x80000000#64)
    ∧ (b < 2 → csrValue (csrUpdate u v (.bCtl3 b)) (.bIob b) = csrValue u (.bIob b) &&& ~~~0x1FF800#64)
    ∧ (b < 2 → csrValue (csrUpdate u v (.bCtl2 b)) (.bBz b) = csrValue u (.bBz b) &&&
      (if (v >>> 21) &&& 0xFFFF#64 = (csrValue u (.bCtl2 b) >>> 21) &&& 0xFFFF#64 then ~~~0#64 else 0x7F#64))
    ∧ (u.dbx.getLsbD 6 = false → u.dbx.getLsbD 7 = false → v.getLsbD 6 = true → v.getLsbD 7 = false →
      (csrUpdate u v .dbxMisc).rbox.frozen = true
      ∧ (b < 2 → ((csrUpdate u v .dbxMisc).z b).frozen = true ∧ ((csrUpdate u v .dbxMisc).b b).ctl0.getLsbD 32 = true))
    ∧ (u.dbx.getLsbD 6 = false → u.dbx.getLsbD 7 = false → v.getLsbD 6 = false → v.getLsbD 7 = true →
      (csrUpdate u v .dbxMisc).rbox.frozen = false
      ∧ (b < 2 → ((csrUpdate u v .dbxMisc).z b).frozen = false
        ∧ ((csrUpdate u v .dbxMisc).b b).ctl0.getLsbD 32 = false)))

/-- R702 to R704, R792 and R123. The increment is the value of the event above the threshold rule; programmings the source
restricts leave the count free (93 U10). Which mask counts the changes of privilege is free (93 U17). -/
def Obligations.PerformanceCounters : Prop :=
  ∀ (f : StepFacts) (c : Captures) (bg psr : LP) (isBg : Bool) (p : PMU) (i : Nat),
    (4 ≤ i → i ≤ 15 → counting f isBg psr p i = true → restricted f.featMt p i = false →
      ∀ n, n = increment p i (counterValue f c bg isBg p i) → 0 < n →
        pmdAt (countAll f c bg isBg psr p) i = BitVec.ofNat 64 (((pmdAt p i).toNat + n) % 2 ^ 47)
        ∧ (2 ^ 47 ≤ (pmdAt p i).toNat + n → (pmcAt (countAll f c bg isBg psr p) 0).getLsbD i = true
          ∧ (pmcOi (pmcAt p i) = true → frozen (countAll f c bg isBg psr p) = true)))
    ∧ (4 ≤ i → i ≤ 15 → restricted f.featMt p i = false → increment p i (counterValue f c bg isBg p i) = 0 →
      pmdAt (countAll f c bg isBg psr p) i = pmdAt p i)
    ∧ (counting f isBg psr p i = false ∨ i < 4 ∨ 15 < i →
      pmdAt (countAll f c bg isBg psr p) i = pmdAt p i)
    ∧ (∀ r, eventInfo (pmcEs (pmcAt p i)) = some r → counterValue f c bg isBg p i ≤ r.max)
    ∧ (frozen p = true → countAll f c bg isBg psr p = p)
    ∧ (0 < i → pmcAt (countAll f c bg isBg psr p) i = pmcAt p i)
    ∧ (∀ v, increment p i v = (if pmcThreshold (pmcAt p i) = 0 then v else if pmcThreshold (pmcAt p i) < v then 1 else 0))
    ∧ (pmcEs (pmcAt p i) ≠ 0x13 → (counting f isBg psr p i = true ↔ monitorEnable psr p i = true ∧ (isBg = true → i ≤ 9)
      ∧ (psr.thr.halted = true → pmcEs (pmcAt p i) = 0x18)))
    ∧ (monitorEnable psr p i = true ↔ (pmcAt p 0).getLsbD 0 = false
      ∧ (pmcAt p i).getLsbD psr.cpl.toNat = true ∧ ((4 ≤ i ∧ i ≤ 15) ∨ i = 40 → (pmcAt p i >>> 24) &&& 3#64 = 2#64)
      ∧ (if (pmcAt p i).getLsbD (if i = 37 then 4 else 6) then psr.psr.getLsbD 21 else psr.psr.getLsbD 2) = true)

/-- R603, R604, R610 and R432 where neither place is that of a NaT collection. The engine in its architectural view is 92 D13; what
`loadrs` gives up and what it leaves in `AR.BSPSTORE` is the model's choice (log 16), and so are the layout of the backing store (log
16, PRESUMED: R432 says it is not in the source), that is, the place of the NaT collections, where address bits 8:3 are all ones, and
the bit of `AR.RNAT` that a register has, and that `flushrs` runs whatever its
qualifying predicate is (log 52). -/
def Obligations.BackingStore : Prop :=
  (∀ (o : OpM24) (s : State) (a : Word), a = s.lp.ar.bspstore → s.lp.gr.ndirty = 1 →
    s.lp.gr.bof < 96 → PlainRse s a → a.toNat / 8 % 64 < 62 → MemoryCanonical s → Untrapped s →
    ∃ t r, r = s.lp.gr.stk.getD ((s.lp.gr.bof + 95) % 96) .zero ∧ exec (.flushrs o) s = .next t
      ∧ memRead s.lp.bigRse t.mem a.toNat 8 = r.val.toNat
      ∧ (∀ x, (x < a.toNat ∨ a.toNat + 8 ≤ x) → memByte t.mem x = memByte s.mem x)
      ∧ t.lp.ar = { s.lp.ar with bspstore := a + 8#64, rnat := setBit s.lp.ar.rnat (a.toNat / 8 % 64) r.nat }
      ∧ t.lp.gr = { s.lp.gr with ndirty := 0 } ∧ AlatsAfterStore s t a 8 ∧ Passed s s t
      ∧ t = { s with
          lp := { s.lp with gr := t.lp.gr, ar := t.lp.ar, alat := t.lp.alat, ev := t.lp.ev, ip := t.lp.ip,
                            lastIp := t.lp.lastIp, psr := t.lp.psr },
          bg := t.bg, mem := t.mem })
  ∧ (∀ (s : State) (a : Word), a = s.lp.ar.bspstore - 8#64 → PlainRse s a → a.toNat / 8 % 64 ≠ 63 →
    s.lp.gr.bof < 96 → s.lp.gr.ndirty < 96 →
    ∃ t, fillOne s = .ok t ∧ t.lp.ar = { s.lp.ar with bspstore := a }
      ∧ t.lp.gr = { s.lp.gr with
          stk := s.lp.gr.stk.setIfInBounds ((s.lp.gr.bof + 95 - s.lp.gr.ndirty) % 96)
            ⟨BitVec.ofNat 64 (memRead s.lp.bigRse s.mem a.toNat 8), s.lp.ar.rnat.getLsbD (a.toNat / 8 % 64)⟩
          ndirty := s.lp.gr.ndirty + 1 }
      ∧ t = { s with lp := { s.lp with gr := t.lp.gr, ar := t.lp.ar, ev := t.lp.ev } })
  ∧ (∀ (a : Word) (n : Nat), a.toNat / 8 % 64 < 63 →
    growBsp a n = a + BitVec.ofNat 64 (8 * (n + (a.toNat / 8 % 64 + n) / 63)))
  ∧ (∀ (s t : State) (bsp : Word) (bytes n : Nat), bytes % 8 = 0 → bytes < 2 ^ 64 → bsp.toNat % 8 = 0 →
    s.lp.ar.bspstore.toNat % 8 = 0 → (bsp - s.lp.ar.bspstore).toNat ≤ bytes → fillDownTo bsp bytes n s = .ok t →
    (t.lp.gr.ndirty ≠ 0 → t.lp.ar.bspstore = bsp - BitVec.ofNat 64 bytes)
    ∧ (t.lp.gr.ndirty = 0 → t.lp.ar.bspstore = s.lp.ar.bspstore))
  ∧ (∀ (s t : State) (bytes : Nat), s.lp.gr.ndirty ≤ 96 → bytes < (s.lp.bsp - s.lp.ar.bspstore).toNat → t = dropBelow s.lp.bsp bytes s.lp.gr.ndirty s →
    t.lp.bsp = s.lp.bsp ∧ (s.lp.bsp - t.lp.ar.bspstore).toNat ≤ bytes ∧ (t.lp.gr.ndirty = 0 → t.lp.ar.bspstore = s.lp.bsp)
    ∧ t = { s with lp := { s.lp with
        ar := { s.lp.ar with bspstore := t.lp.ar.bspstore }, gr := { s.lp.gr with ndirty := t.lp.gr.ndirty } } })

/-- R1306 with the vectors of R1302: the whole effect of a delivery. That an external interrupt does not load `CR.IIB` is
92 D14. -/
def Obligations.InterruptionDelivery : Prop :=
  ∀ (e : Exc) (ei : BitVec 2) (s : State),
    (s.lp.psr.getLsbD 13 = true → (deliver e ei s).lp.cr = { s.lp.cr with
      ipsr := s.lp.psr, iip := s.lp.ip, iipa := s.lp.lastIp, isr := e.isr ||| (ei.setWidth 64 <<< 41)
      ifs := s.lp.cr.ifs &&& 0x7FFFFFFFFFFFFFFF#64
      ifa := e.ifa.getD s.lp.cr.ifa, itir := e.itir.getD s.lp.cr.itir, iha := e.iha.getD s.lp.cr.iha
      iim := e.iim.getD s.lp.cr.iim
      iib0 := if e.arch then s.lp.bundle.extractLsb' 0 64 else s.lp.cr.iib0
      iib1 := if e.arch then s.lp.bundle.extractLsb' 64 64 else s.lp.cr.iib1 })
    ∧ (s.lp.psr.getLsbD 13 = false → (deliver e ei s).lp.cr = s.lp.cr)
    ∧ (∀ i, (deliver e ei s).lp.psr.getLsbD i =
      if i = 1 then s.lp.cr.dcr.getLsbD 1 else if i = 21 then s.lp.cr.dcr.getLsbD 0
      else decide (i ∈ [2, 4, 5, 15, 17, 27, 35, 36]) && s.lp.psr.getLsbD i)
    ∧ (deliver e ei s).lp.cpl = 0#2 ∧ (deliver e ei s).lp.ri = 0#2
    ∧ (e.offset % 256 = 0 → e.offset < 0x8000 →
      (deliver e ei s).lp.ip = (s.lp.cr.iva &&& ~~~0x7FFF#64) ||| BitVec.ofNat 64 e.offset)
    ∧ deliver e ei s = { s with lp := { s.lp with
        cr := (deliver e ei s).lp.cr, psr := (deliver e ei s).lp.psr, ip := (deliver e ei s).lp.ip
        ev := (deliver e ei s).lp.ev } }
    ∧ externalInterrupt.arch = false ∧ externalInterrupt.offset = 0x3000

/-- R1301, R1302 and R1307: every instruction but `rfi` that answers a next state takes a fault from the state it began in, or ends as
`retire` says, with the trap of highest priority if there is one; then the traps of a nop and of a plain branch, one at a time. The
model's choices: the trap code bits in
`CR.ISR` (log 24), the vector 0x5E00 of the unimplemented instruction address trap (log 25), and that the one-shot bits of the
status are cleared by every instruction that completes (log 26). -/
def Obligations.TrapsAfterInstructions : Prop :=
  (∀ (i : Instr) (s t : State), i ≠ .rfi → exec i s = .next t →
    (∃ x : Exc, t = faultTo s x) ∨ ∃ (u : State) (e : Ending), t = retire s u e)
  ∧ (∀ (s u v : State) (e : Ending) (code : Word), v = advance s u e →
    code = e.fpTrap ||| (if e.fpTrap ≠ 0#64 then 1#64 else 0#64)
      ||| (if e.lowered = true ∧ s.lp.psr.getLsbD 25 = true then 2#64 else 0#64)
      ||| (if e.target ≠ none ∧ s.lp.psr.getLsbD 26 = true then 4#64 else 0#64)
      ||| (if s.lp.psr.getLsbD 40 = true then 8#64 else 0#64) →
    retire s u e = if unimplementedIp v v.lp.ip = true then deliver { offset := 0x5E00, isr := code ||| 0x10#64 } s.lp.ri v
      else if e.fpTrap ≠ 0#64 then deliver { offset := 0x5D00, isr := code } s.lp.ri v
      else if e.lowered = true ∧ s.lp.psr.getLsbD 25 = true then deliver { offset := 0x5E00, isr := code } s.lp.ri v
      else if e.target ≠ none ∧ s.lp.psr.getLsbD 26 = true then deliver { offset := 0x5F00, isr := code } s.lp.ri v
      else if s.lp.psr.getLsbD 40 = true then deliver { offset := 0x6000, isr := code } s.lp.ri v
      else v)
  ∧ (∀ (o : OpI19) (s : State), s.lp.readPr o.qp = true → s.lp.psrBit 40 = true → unimplementedIp s s.lp.ip = false →
    unimplementedIp s (s.lp.ip + 16#64) = false →
    exec (.nopM o) s = .next (deliver { offset := 0x6000, isr := 8#64 } s.lp.ri
      (fallThrough s (s.setLp { s.lp with ev := { s.lp.ev with nop := true } }))))
  ∧ (∀ (o : OpB1) (s : State) (t : Word), t = s.lp.ip + (o.target25.signExtend 64 <<< 4) → s.lp.readPr o.qp = true →
    s.lp.psrBit 40 = false → s.lp.psrBit 26 = true → unimplementedIp s (alignDown t 4) = false →
    exec (.brCondTarget25 o) s = .next (deliver { offset := 0x5F00, isr := 4#64 } s.lp.ri
      (branchTo s (s.noteFlow .ipRelative true t) t)))
  ∧ (∀ (o : OpB1) (s : State) (t : Word), t = s.lp.ip + (o.target25.signExtend 64 <<< 4) → s.lp.readPr o.qp = true →
    s.lp.psrBit 40 = false → s.lp.psrBit 26 = false → unimplementedIp s (alignDown t 4) = true →
    ∃ x, x.offset = 0x5E00 ∧ exec (.brCondTarget25 o) s = .next (deliver x s.lp.ri
      (branchTo s (s.noteFlow .ipRelative true t) t)))
  ∧ (∀ (s u : State) (e : Ending), (advance s u e).lp.lastIp = s.lp.ip
    ∧ (e.target = none → e.wide = false → s.lp.ri.toNat < 2 →
      (advance s u e).lp.ip = s.lp.ip ∧ (advance s u e).lp.ri = s.lp.ri + 1#2)
    ∧ (e.target = none → (e.wide = true ∨ 2 ≤ s.lp.ri.toNat) →
      (advance s u e).lp.ip = s.lp.ip + 16#64 ∧ (advance s u e).lp.ri = 0#2)
    ∧ (∀ i, i ∉ [37, 38, 39, 41, 42, 43, 45] → (advance s u e).lp.psr.getLsbD i = u.lp.psr.getLsbD i)
    ∧ (∀ i, i ∈ [37, 38, 39, 43, 45] → (advance s u e).lp.psr.getLsbD i = false))

/-- R1320, R1321 and R1307, both ways: what an interrupt needs, and that it is then taken. The sampling after the faults of the next
instruction, and that ExtINT asks nothing of `TPR.mic`, is log 27; the vector of the monitor is log 29. -/
def Obligations.ExternalInterrupts : Prop :=
  (∀ (s s0 : State), s0 = beginStep s → s0.lp.running = true → s0.lp.interrupted = true → faulted (runNext s0) = false →
    step s = .next (endStep s0 (interrupt s0)))
  ∧ (∀ (s : State) (b : Bundle), fetch s = .ok b →
    interrupt s = deliver externalInterrupt (atSlot s b).lp.ri (atSlot s b))
  ∧ (∀ (s : State) (e : Abort), fetch s = .error e → interrupt s = deliver externalInterrupt s.lp.ri s)
  ∧ (∀ l : LP, l.psr.getLsbD 14 = false → l.interrupted = false)
  ∧ (∀ l : LP, l.interrupted = true → ∃ v, l.unmasked v = true ∧ l.pending.getLsbD v = true)
  ∧ (∀ (l : LP) (v : Nat), l.psr.getLsbD 14 = true → (v = 2 ∨ v = 0 ∨ (16 ≤ v ∧ v < 256)) →
    l.cr.irr.getLsbD v = true ∨ (l.psr.getLsbD 13 = true ∧ l.pending.getLsbD v = true) → l.unmasked v = true →
    l.interrupted = true)
  ∧ (∀ (l : LP) (v : Nat), v < 256 → (l.pending.getLsbD v = true ↔ l.cr.irr.getLsbD v = true
    ∨ (l.cr.pmv.toNat % 256 = v ∧ l.cr.pmv.getLsbD 16 = false ∧ pmiPending l.pmu = true)))
  ∧ (∀ p : PMU, pmiPending p = true ↔ (pmcAt p 0).getLsbD 0 = true
    ∧ ∃ i, 4 ≤ i ∧ i ≤ 15 ∧ (pmcAt p 0).getLsbD i = true ∧ (pmcAt p i).getLsbD 5 = true)
  ∧ (∀ l : LP, (l.unmasked 2 = true ↔ highestVector l.cr.inService ≠ some 2)
    ∧ (l.unmasked 0 = true ↔ l.cr.tpr.getLsbD 16 = false ∧ highestVector l.cr.inService ≠ some 2
      ∧ highestVector l.cr.inService ≠ some 0))
  ∧ (∀ (m : BitVec 256) (v : Nat), highestVector m = some v → (v = 2 ∨ v = 0 ∨ (16 ≤ v ∧ v < 256)) ∧ m.getLsbD v = true
    ∧ (m.getLsbD 2 = true → v = 2) ∧ (m.getLsbD 2 = false → m.getLsbD 0 = true → v = 0)
    ∧ (m.getLsbD 2 = false → m.getLsbD 0 = false → ∀ w, v < w → m.getLsbD w = false))
  ∧ (∀ (l : LP) (v : Nat), 16 ≤ v → v < 256 → (l.unmasked v = true ↔ l.cr.tpr.getLsbD 16 = false
    ∧ ((l.cr.tpr >>> 4) &&& 0xF#64).toNat < v / 16
    ∧ ∀ w, highestVector l.cr.inService = some w → w ≠ 0 ∧ w ≠ 2 ∧ w / 16 < v / 16))
  ∧ (∀ s : State, (s.lp.candidate s.lp.pending = none → readIvr s = (15#64, s))
    ∧ (∀ v, s.lp.candidate s.lp.pending = some v → readIvr s = (BitVec.ofNat 64 v,
      s.setLp { s.lp with cr := { s.lp.cr with
        irr := s.lp.cr.irr &&& ~~~(1#256 <<< v), inService := s.lp.cr.inService ||| (1#256 <<< v) } }))
    ∧ (∀ v, highestVector s.lp.cr.inService = some v → endOfInterrupt s =
      s.setLp { s.lp with cr := { s.lp.cr with inService := s.lp.cr.inService &&& ~~~(1#256 <<< v) } })
    ∧ (highestVector s.lp.cr.inService = none → endOfInterrupt s = s))

/-- R453, R455 and R458: a step, and what it adds around exec (log 23). Refused are the forms of 92 D11. -/
def Obligations.StepRunsDecoded : Prop :=
  (∀ (s s0 t : State) (b : Bundle), s0 = beginStep s → s0.lp.running = true → s0.lp.interrupted = false →
    fetch s0 = .ok b → t = atSlot (s0.withBundle b) b → instrBreak t = false →
    (∀ i, decodeBundle b t.lp.ri.toNat = .ok i → step s = match exec i t with
      | .next u => .next (endStep s0 u)
      | .fault f => .fault f
      | .refused r => .refused r)
    ∧ (∀ e, decodeBundle b t.lp.ri.toNat = .error e → e ≠ .notGiven →
      step s = .next (endStep s0 (deliver illegalOperation t.lp.ri t)))
    ∧ (decodeBundle b t.lp.ri.toNat = .error .notGiven →
      step s = .refused (.encodingNotGiven (bundleSlot b t.lp.ri.toNat))))
  ∧ (∀ (s : State) (pa : Nat), s.lp.psrBit 36 = false → pa = (s.lp.ip &&& ~~~0xF#64).toNat % 2 ^ 63 →
    pa < 2 ^ s.params.paBits → inAperture pa = false → inRam s.params pa 16 = true →
    fetch s = .ok (BitVec.ofNat 128 (readLE s.mem pa 16)))
  ∧ (∀ (s : State) (b : Bundle), (bundleUnit b s.lp.ri.toNat = .ok .x → atSlot s b = s.setLp (s.lp.setRi 1#2))
    ∧ (bundleUnit b s.lp.ri.toNat ≠ .ok .x → atSlot s b = s))
  ∧ (∀ s t : State, (switchOf t.free s t).1 = none →
    ∃ pmu ruc irr thr bg unc rem ahead, thr.halted = t.lp.thr.halted ∧ thr.started = t.lp.thr.started
      ∧ endStep s t = { t with
        lp := { t.lp with pmu := pmu, ar := { t.lp.ar with ruc := ruc }, cr := { t.lp.cr with irr := irr }, thr := thr },
        bg := bg, itc := t.itc + BitVec.ofNat 64 (ticksOf s.params t.free), uncore := unc, remote := rem
        rucAhead := ahead, free := t.free + 512 })

/-- R1340, R1343, R1344, R1322, R72, R79, R67 and R1383, whatever the free values decide of the switches and of the start of the second
logical processor (log 31) and of the rates of the time base and of the utilization counters (log 30). That the time base advances in
every step, and that the two resource counters together are never more than 2 ticks ahead of it, are the model's choices (log 30). That
only the edge makes the
timer vector pending, and that a write which makes the two equal does, is the model's choice (log 28). -/
def Obligations.ThreadsAndTime : Prop :=
  (∀ (n : Nat) (s t : State), t.bg.thr.started = false → (switchOf n s t).1 = none)
  ∧ (∀ s t : State, (switchOf t.free s t).1.isSome = true →
    ∃ pmu irr thr pmu' ruc' irr' thr' unc rem ahead, thr.armed = false
      ∧ thr.halted = (t.bg.thr.halted && !((endStep s t).lp.candidate (endStep s t).lp.pending).isSome)
      ∧ thr'.halted = t.lp.thr.halted
      ∧ endStep s t = { t with
        lp := { t.bg with pmu := pmu, cr := { t.bg.cr with irr := irr }, thr := thr },
        bg := { t.lp with pmu := pmu', ar := { t.lp.ar with ruc := ruc' }, cr := { t.lp.cr with irr := irr' }, thr := thr' },
        thread1 := !t.thread1, itc := t.itc + BitVec.ofNat 64 (ticksOf s.params t.free), uncore := unc, remote := rem
        rucAhead := ahead, free := t.free + 512 })
  ∧ (∀ s t : State, (switchOf t.free s t).1 = none → (endStep s t).lp.cr.irr =
    if t.lp.cr.itv.getLsbD 16 = false
        ∧ (1 ≤ (t.lp.cr.itm - t.itc).toNat ∨ s.itc ≠ t.itc ∨ s.lp.cr.itm ≠ t.lp.cr.itm)
        ∧ (t.lp.cr.itm - t.itc).toNat ≤ ticksOf s.params t.free then
      t.lp.cr.irr ||| (1#256 <<< (t.lp.cr.itv &&& 0xFF#64).toNat) else t.lp.cr.irr)
  ∧ (∀ s t : State, (switchOf t.free s t).1 = none →
    (endStep s t).lp.ar.ruc = t.lp.ar.ruc + BitVec.ofNat 64 (rucOf s.params t.free t.rucAhead)
    ∧ (endStep s t).bg.ar.ruc = t.bg.ar.ruc ∧ (endStep s t).rucAhead = rucNext s.params t.free t.rucAhead)
  ∧ (∀ (p : Params) (n e : Nat), p.wf = true → 0 < ticksOf p n ∧ ticksOf p n < 2 ^ 64 ∧ ticksOf p n % p.itcRatio = 0
    ∧ rucOf p n e + e = ticksOf p n + rucNext p n e ∧ (e ≤ 2 → rucNext p n e ≤ 2))
  ∧ (∀ s t : State, (switchOf t.free s t).1 = none → (t.bg.thr.started = true ∨ t.params.featMt = false →
      (endStep s t).bg.thr.started = t.bg.thr.started ∧ (endStep s t).bg.ip = t.bg.ip)
    ∧ ((endStep s t).bg.thr.started = true → t.bg.thr.started = false → t.params.featMt = true ∧ ∃ a,
      environmentStart t.free = some a ∧ (endStep s t).bg.ip = a &&& ~~~0xF#64)
    ∧ (endStep s t).bg.thr.halted =
      (t.bg.thr.halted && !((endStep s t).bg.candidate (endStep s t).bg.pending).isSome))
  ∧ (∀ s s0 : State, s0 = beginStep s → s0.lp.running = false → step s = .next (endStep s0 (idle s0)))
  ∧ (∀ s u : State, u = s.setLp { s.lp with thr := { s.lp.thr with halted := false } } →
    (s.lp.thr.halted = true → (s.lp.candidate s.lp.pending).isSome = true →
      idle s = if s.lp.interrupted then interrupt u else u)
    ∧ (s.lp.thr.halted = false ∨ s.lp.candidate s.lp.pending = none → idle s = s))

/-- R1381, R1382, R1384 and R1385: the values the spec gives. `PSR.bn` is the default of 92 D20 (log 4), PAL's writes are
log 6. The model's choices: that PMC32 to PMC35 hold ones in every bit that can be written (log 38) and that no byte of memory
differs from what an unlisted address reads as (log 8). -/
def Obligations.ResetState : Prop :=
  State.reset.lp.psr = 0x100000000000#64
  ∧ (∀ i : Fin 44, 4 ≤ i.val → i.val ≤ 15 → (pmcAt State.reset.lp.pmu i).getLsbD 5 = false
    ∧ (pmcAt State.reset.lp.pmu i).getLsbD 4 = false)
  ∧ frozen State.reset.lp.pmu = false ∧ State.reset.lp.cr.pmv.getLsbD 16 = true
  ∧ (∀ i : Fin 44, 32 ≤ i.val → i.val ≤ 35 → pmcAt State.reset.lp.pmu i = pmcWritable i)
  ∧ pmcAt State.reset.lp.pmu 38 = 0xdb6#64 ∧ pmcAt State.reset.lp.pmu 41 = 0x2078fefefefe#64
  ∧ pmcAt State.reset.lp.pmu 36 &&& 0xF#64 = 0#64
  ∧ State.reset.lp.alat = [] ∧ State.reset.lp.cr.irr = 0#256 ∧ State.reset.lp.cr.inService = 0#256
  ∧ State.reset.dtc = [] ∧ State.reset.itcache = [] ∧ (∀ e ∈ State.reset.dtr, e = none) ∧ (∀ e ∈ State.reset.itr, e = none)
  ∧ State.reset.lp.thr.started = true ∧ State.reset.bg.thr.started = false
  ∧ State.reset.lp.thr.armed = false ∧ State.reset.lp.thr.halted = false
  ∧ State.reset.lp.gr? 0#7 = ⟨0#64, false⟩ ∧ State.reset.lp.fr? 0#7 = 0#82
  ∧ State.reset.lp.fr? 1#7 = 0#1 ++ 0xFFFF#17 ++ 0x8000000000000000#64 ∧ State.reset.lp.readPr 0#6 = true
  ∧ State.reset.lp.sol ≤ State.reset.lp.sof ∧ State.reset.lp.sof ≤ 96 ∧ 8 * State.reset.lp.sor ≤ State.reset.lp.sof
  ∧ State.reset.uncore.rbox.frozen = false ∧ State.reset.mem = []

/-- The invariants of StepKeepsThreadsLegal and StepKeepsMemoryCanonical hold at reset; the parameters are those of log 2. -/
def Obligations.ResetMeetsInvariants : Prop :=
  ThreadsLegal State.reset ∧ MemoryCanonical State.reset ∧ State.reset.params.wf = true

/-- The canonical form of the model (log 8) is an invariant of the step. -/
def Obligations.StepKeepsMemoryCanonical : Prop :=
  KeptByStep MemoryCanonical

/-- R63, R55, R56 and R57 as an invariant of every step; `is` and `vm` stay 0 by 92 D17 and D23. -/
def Obligations.StepKeepsThreadsLegal : Prop :=
  KeptByStep ThreadsLegal

/-- R432 and R440: the instructions that access memory to write; delivery writes nothing to memory. -/
def Obligations.OnlyStoresWriteMemory : Prop :=
  ∀ (i : Instr) (s t : State), i.mayStore = false → exec i s = .next t → t.mem = s.mem

/-- R1330 and R673: no other instruction lowers the number of the current privilege level; a delivery does, and is
recorded in the step. -/
def Obligations.OnlyEpcRaisesPrivilege : Prop :=
  ∀ (i : Instr) (s t : State), s.lp.ev.vector = none → exec i s = .next t → t.lp.ev.vector = none → t.lp.cpl < s.lp.cpl → i = .epc

/-- R450 to R454 and R458. Which bit is which field is stated by the encodings of the other statements; the ten forms are
log 20. -/
def Obligations.DecodeEncode : Prop :=
  (∀ (i : Instr) (e : SlotWord), i.wellFormed = true → encode i = some e →
    decodeSlot e.slotUnit e.word e.lword = .ok i
    ∧ decodeBundle (placeBundle e.unit e.word e.lword) (placeOf e.unit).2 = .ok i
    ∧ (e.unit = .a → decodeSlot .i e.word e.lword = .ok i))
  ∧ (∀ i : Instr, encode i = none ↔ i.unencoded = true)
  ∧ (∀ (b : Bundle) (k : Nat), decodeBytes (bundleBytes b) k = decodeBundle b k)

/-- A few words of the formats A1, A6, I29, M1, M4, B1, F1, X2; a sanity statement. -/
def Obligations.DecodingIsRight : Prop :=
  (decodeSlot .m 0x1004101e380#41 0#41 = .ok (
      .addp4 { qp := 0#6, r1 := 14#7, r2 := 15#7, r3 := 16#7 }))
  ∧ (decodeSlot .i 0x1004101e380#41 0#41 = .ok (
      .addp4 { qp := 0#6, r1 := 14#7, r2 := 15#7, r3 := 16#7 }))
  ∧ (decodeSlot .i 0x000b0f00380#41 0#41 = .ok (
      .sxt4 { qp := 0#6, r1 := 14#7, r3 := 15#7 }))
  ∧ (decodeSlot .m 0x0b0c8ff0380#41 0#41 = .ok (
      .ld8R1R3Imm9 { qp := 0#6, r1 := 14#7, r3 := 15#7, imm9 := 0x1F8#9, hint := 0#2 }))
  ∧ (decodeSlot .m 0x08cc0f20000#41 0#41 = .ok (
      .st8R3R2 { qp := 0#6, r2 := 16#7, r3 := 15#7, hint := 0#2 }))
  ∧ (decodeSlot .b 0x091ffffe006#41 0#41 = .ok (
      .brCondTarget25 { qp := 6#6, p := 0#1, wh := 0#2, d := 0#1, target25 := 0x1FFFFF#21 }))
  ∧ (decodeSlot .f 0x0008080e180#41 0#41 = .ok (
      .fmergeS { qp := 0#6, f1 := 6#7, f2 := 7#7, f3 := 8#7 }))
  ∧ (decodeSlot .x 0x0dc0c200380#41 0x0000fffeffa#41 = .ok (
      .movl { qp := 0#6, r1 := 14#7, imm7b := 0#7, ic := 1#1, imm5c := 16#5, imm9d := 0x181#9, i := 1#1, imm41 := 0x0000fffeffa#41 }))
  ∧ (∀ k, k < 3 → decodeBytes (0x01 :: (List.replicate 3 0x00 ++ 0x01 :: (List.replicate 4 0x00 ++ [0x02, 0, 0, 0, 0, 4, 0]))) k = .ok
    (if k = 0 then .nopM ⟨0#21, 0#6⟩ else .nopI ⟨0#21, 0#6⟩))
  ∧ (∀ k, k < 3 → decodeBytes (List.replicate 16 0x00) k = .ok
    (if k = 0 then .breakM ⟨0#21, 0#6⟩ else .breakI ⟨0#21, 0#6⟩))
end

