-- ==== Sys2Proof/Laws/State.lean ====
section
/-!
SUPPORT. One lemma per field per update of the state: what every named update of `State` and `LP` leaves and what it changes.
-/

namespace Sys2Proof.Machine

open Sys2Proof.Config

/-! ## `State.setLp` -/

@[simp] theorem setLp_lp (s : State) (l : LP) : (s.setLp l).lp = l := rfl
@[simp] theorem setLp_bg (s : State) (l : LP) : (s.setLp l).bg = s.bg := rfl
@[simp] theorem setLp_thread1 (s : State) (l : LP) : (s.setLp l).thread1 = s.thread1 := rfl
@[simp] theorem setLp_itc (s : State) (l : LP) : (s.setLp l).itc = s.itc := rfl
@[simp] theorem setLp_dtr (s : State) (l : LP) : (s.setLp l).dtr = s.dtr := rfl
@[simp] theorem setLp_itr (s : State) (l : LP) : (s.setLp l).itr = s.itr := rfl
@[simp] theorem setLp_dtc (s : State) (l : LP) : (s.setLp l).dtc = s.dtc := rfl
@[simp] theorem setLp_itcache (s : State) (l : LP) : (s.setLp l).itcache = s.itcache := rfl
@[simp] theorem setLp_mem (s : State) (l : LP) : (s.setLp l).mem = s.mem := rfl
@[simp] theorem setLp_uncore (s : State) (l : LP) : (s.setLp l).uncore = s.uncore := rfl
@[simp] theorem setLp_remote (s : State) (l : LP) : (s.setLp l).remote = s.remote := rfl
@[simp] theorem setLp_coherenceOpt (s : State) (l : LP) : (s.setLp l).coherenceOpt = s.coherenceOpt := rfl
@[simp] theorem setLp_params (s : State) (l : LP) : (s.setLp l).params = s.params := rfl
@[simp] theorem setLp_free (s : State) (l : LP) : (s.setLp l).free = s.free := rfl
@[simp] theorem setLp_rucAhead (s : State) (l : LP) : (s.setLp l).rucAhead = s.rucAhead := rfl
@[simp] theorem setLp_setLp (s : State) (l k : LP) : (s.setLp l).setLp k = s.setLp k := rfl

/-! ## `LP.setGrAt`: only the general registers change -/

@[simp] theorem setGrAt_ip (l : LP) (p : GrPlace) (v : Reg) :
    (l.setGrAt p v).ip = l.ip := by
  unfold LP.setGrAt; split <;> rfl
@[simp] theorem setGrAt_psr (l : LP) (p : GrPlace) (v : Reg) :
    (l.setGrAt p v).psr = l.psr := by
  unfold LP.setGrAt; split <;> rfl
@[simp] theorem setGrAt_cfm (l : LP) (p : GrPlace) (v : Reg) :
    (l.setGrAt p v).cfm = l.cfm := by
  unfold LP.setGrAt; split <;> rfl
@[simp] theorem setGrAt_fr (l : LP) (p : GrPlace) (v : Reg) :
    (l.setGrAt p v).fr = l.fr := by
  unfold LP.setGrAt; split <;> rfl
@[simp] theorem setGrAt_pr (l : LP) (p : GrPlace) (v : Reg) :
    (l.setGrAt p v).pr = l.pr := by
  unfold LP.setGrAt; split <;> rfl
@[simp] theorem setGrAt_br (l : LP) (p : GrPlace) (v : Reg) :
    (l.setGrAt p v).br = l.br := by
  unfold LP.setGrAt; split <;> rfl
@[simp] theorem setGrAt_ar (l : LP) (p : GrPlace) (v : Reg) :
    (l.setGrAt p v).ar = l.ar := by
  unfold LP.setGrAt; split <;> rfl
@[simp] theorem setGrAt_cr (l : LP) (p : GrPlace) (v : Reg) :
    (l.setGrAt p v).cr = l.cr := by
  unfold LP.setGrAt; split <;> rfl
@[simp] theorem setGrAt_rr (l : LP) (p : GrPlace) (v : Reg) :
    (l.setGrAt p v).rr = l.rr := by
  unfold LP.setGrAt; split <;> rfl
@[simp] theorem setGrAt_pkr (l : LP) (p : GrPlace) (v : Reg) :
    (l.setGrAt p v).pkr = l.pkr := by
  unfold LP.setGrAt; split <;> rfl
@[simp] theorem setGrAt_ibr (l : LP) (p : GrPlace) (v : Reg) :
    (l.setGrAt p v).ibr = l.ibr := by
  unfold LP.setGrAt; split <;> rfl
@[simp] theorem setGrAt_dbr (l : LP) (p : GrPlace) (v : Reg) :
    (l.setGrAt p v).dbr = l.dbr := by
  unfold LP.setGrAt; split <;> rfl
@[simp] theorem setGrAt_pmu (l : LP) (p : GrPlace) (v : Reg) :
    (l.setGrAt p v).pmu = l.pmu := by
  unfold LP.setGrAt; split <;> rfl
@[simp] theorem setGrAt_alat (l : LP) (p : GrPlace) (v : Reg) :
    (l.setGrAt p v).alat = l.alat := by
  unfold LP.setGrAt; split <;> rfl
@[simp] theorem setGrAt_thr (l : LP) (p : GrPlace) (v : Reg) :
    (l.setGrAt p v).thr = l.thr := by
  unfold LP.setGrAt; split <;> rfl
@[simp] theorem setGrAt_lastIp (l : LP) (p : GrPlace) (v : Reg) :
    (l.setGrAt p v).lastIp = l.lastIp := by
  unfold LP.setGrAt; split <;> rfl
@[simp] theorem setGrAt_bundle (l : LP) (p : GrPlace) (v : Reg) :
    (l.setGrAt p v).bundle = l.bundle := by
  unfold LP.setGrAt; split <;> rfl
@[simp] theorem setGrAt_ev (l : LP) (p : GrPlace) (v : Reg) :
    (l.setGrAt p v).ev = l.ev := by
  unfold LP.setGrAt; split <;> rfl
@[simp] theorem setGrAt_gr_bof (l : LP) (p : GrPlace) (v : Reg) :
    (l.setGrAt p v).gr.bof = l.gr.bof := by
  unfold LP.setGrAt; split <;> rfl
@[simp] theorem setGrAt_gr_ndirty (l : LP) (p : GrPlace) (v : Reg) :
    (l.setGrAt p v).gr.ndirty = l.gr.ndirty := by
  unfold LP.setGrAt; split <;> rfl

/-! ## Updates of the foreground thread: everything outside it stays -/

@[simp] theorem setGr_bg (s : State) (r : BitVec 7) (v : Reg) : (s.setGr r v).bg = s.bg := rfl
@[simp] theorem setGr_thread1 (s : State) (r : BitVec 7) (v : Reg) : (s.setGr r v).thread1 = s.thread1 := rfl
@[simp] theorem setGr_itc (s : State) (r : BitVec 7) (v : Reg) : (s.setGr r v).itc = s.itc := rfl
@[simp] theorem setGr_dtr (s : State) (r : BitVec 7) (v : Reg) : (s.setGr r v).dtr = s.dtr := rfl
@[simp] theorem setGr_itr (s : State) (r : BitVec 7) (v : Reg) : (s.setGr r v).itr = s.itr := rfl
@[simp] theorem setGr_dtc (s : State) (r : BitVec 7) (v : Reg) : (s.setGr r v).dtc = s.dtc := rfl
@[simp] theorem setGr_itcache (s : State) (r : BitVec 7) (v : Reg) : (s.setGr r v).itcache = s.itcache := rfl
@[simp] theorem setGr_mem (s : State) (r : BitVec 7) (v : Reg) : (s.setGr r v).mem = s.mem := rfl
@[simp] theorem setGr_uncore (s : State) (r : BitVec 7) (v : Reg) : (s.setGr r v).uncore = s.uncore := rfl
@[simp] theorem setGr_remote (s : State) (r : BitVec 7) (v : Reg) : (s.setGr r v).remote = s.remote := rfl
@[simp] theorem setGr_coherenceOpt (s : State) (r : BitVec 7) (v : Reg) :
    (s.setGr r v).coherenceOpt = s.coherenceOpt := rfl
@[simp] theorem setGr_params (s : State) (r : BitVec 7) (v : Reg) : (s.setGr r v).params = s.params := rfl
@[simp] theorem setGr_free (s : State) (r : BitVec 7) (v : Reg) : (s.setGr r v).free = s.free := rfl
@[simp] theorem setGr_rucAhead (s : State) (r : BitVec 7) (v : Reg) : (s.setGr r v).rucAhead = s.rucAhead := rfl

@[simp] theorem setFr_bg (s : State) (f : BitVec 7) (v : FReg) : (s.setFr f v).bg = s.bg := rfl
@[simp] theorem setFr_thread1 (s : State) (f : BitVec 7) (v : FReg) : (s.setFr f v).thread1 = s.thread1 := rfl
@[simp] theorem setFr_itc (s : State) (f : BitVec 7) (v : FReg) : (s.setFr f v).itc = s.itc := rfl
@[simp] theorem setFr_dtr (s : State) (f : BitVec 7) (v : FReg) : (s.setFr f v).dtr = s.dtr := rfl
@[simp] theorem setFr_itr (s : State) (f : BitVec 7) (v : FReg) : (s.setFr f v).itr = s.itr := rfl
@[simp] theorem setFr_dtc (s : State) (f : BitVec 7) (v : FReg) : (s.setFr f v).dtc = s.dtc := rfl
@[simp] theorem setFr_itcache (s : State) (f : BitVec 7) (v : FReg) : (s.setFr f v).itcache = s.itcache := rfl
@[simp] theorem setFr_mem (s : State) (f : BitVec 7) (v : FReg) : (s.setFr f v).mem = s.mem := rfl
@[simp] theorem setFr_uncore (s : State) (f : BitVec 7) (v : FReg) : (s.setFr f v).uncore = s.uncore := rfl
@[simp] theorem setFr_remote (s : State) (f : BitVec 7) (v : FReg) : (s.setFr f v).remote = s.remote := rfl
@[simp] theorem setFr_coherenceOpt (s : State) (f : BitVec 7) (v : FReg) :
    (s.setFr f v).coherenceOpt = s.coherenceOpt := rfl
@[simp] theorem setFr_params (s : State) (f : BitVec 7) (v : FReg) : (s.setFr f v).params = s.params := rfl
@[simp] theorem setFr_free (s : State) (f : BitVec 7) (v : FReg) : (s.setFr f v).free = s.free := rfl
@[simp] theorem setFr_rucAhead (s : State) (f : BitVec 7) (v : FReg) : (s.setFr f v).rucAhead = s.rucAhead := rfl

@[simp] theorem setBr_bg (s : State) (b : BitVec 3) (v : Word) : (s.setBr b v).bg = s.bg := rfl
@[simp] theorem setBr_thread1 (s : State) (b : BitVec 3) (v : Word) : (s.setBr b v).thread1 = s.thread1 := rfl
@[simp] theorem setBr_itc (s : State) (b : BitVec 3) (v : Word) : (s.setBr b v).itc = s.itc := rfl
@[simp] theorem setBr_dtr (s : State) (b : BitVec 3) (v : Word) : (s.setBr b v).dtr = s.dtr := rfl
@[simp] theorem setBr_itr (s : State) (b : BitVec 3) (v : Word) : (s.setBr b v).itr = s.itr := rfl
@[simp] theorem setBr_dtc (s : State) (b : BitVec 3) (v : Word) : (s.setBr b v).dtc = s.dtc := rfl
@[simp] theorem setBr_itcache (s : State) (b : BitVec 3) (v : Word) : (s.setBr b v).itcache = s.itcache := rfl
@[simp] theorem setBr_mem (s : State) (b : BitVec 3) (v : Word) : (s.setBr b v).mem = s.mem := rfl
@[simp] theorem setBr_uncore (s : State) (b : BitVec 3) (v : Word) : (s.setBr b v).uncore = s.uncore := rfl
@[simp] theorem setBr_remote (s : State) (b : BitVec 3) (v : Word) : (s.setBr b v).remote = s.remote := rfl
@[simp] theorem setBr_coherenceOpt (s : State) (b : BitVec 3) (v : Word) :
    (s.setBr b v).coherenceOpt = s.coherenceOpt := rfl
@[simp] theorem setBr_params (s : State) (b : BitVec 3) (v : Word) : (s.setBr b v).params = s.params := rfl
@[simp] theorem setBr_free (s : State) (b : BitVec 3) (v : Word) : (s.setBr b v).free = s.free := rfl
@[simp] theorem setBr_rucAhead (s : State) (b : BitVec 3) (v : Word) : (s.setBr b v).rucAhead = s.rucAhead := rfl

@[simp] theorem setPr2_bg (s : State) (p q : BitVec 6) (a b : Bool) : (s.setPr2 p q a b).bg = s.bg := rfl
@[simp] theorem setPr2_thread1 (s : State) (p q : BitVec 6) (a b : Bool) :
    (s.setPr2 p q a b).thread1 = s.thread1 := rfl
@[simp] theorem setPr2_itc (s : State) (p q : BitVec 6) (a b : Bool) : (s.setPr2 p q a b).itc = s.itc := rfl
@[simp] theorem setPr2_dtr (s : State) (p q : BitVec 6) (a b : Bool) : (s.setPr2 p q a b).dtr = s.dtr := rfl
@[simp] theorem setPr2_itr (s : State) (p q : BitVec 6) (a b : Bool) : (s.setPr2 p q a b).itr = s.itr := rfl
@[simp] theorem setPr2_dtc (s : State) (p q : BitVec 6) (a b : Bool) : (s.setPr2 p q a b).dtc = s.dtc := rfl
@[simp] theorem setPr2_itcache (s : State) (p q : BitVec 6) (a b : Bool) :
    (s.setPr2 p q a b).itcache = s.itcache := rfl
@[simp] theorem setPr2_mem (s : State) (p q : BitVec 6) (a b : Bool) : (s.setPr2 p q a b).mem = s.mem := rfl
@[simp] theorem setPr2_uncore (s : State) (p q : BitVec 6) (a b : Bool) : (s.setPr2 p q a b).uncore = s.uncore := rfl
@[simp] theorem setPr2_remote (s : State) (p q : BitVec 6) (a b : Bool) : (s.setPr2 p q a b).remote = s.remote := rfl
@[simp] theorem setPr2_coherenceOpt (s : State) (p q : BitVec 6) (a b : Bool) :
    (s.setPr2 p q a b).coherenceOpt = s.coherenceOpt := rfl
@[simp] theorem setPr2_params (s : State) (p q : BitVec 6) (a b : Bool) : (s.setPr2 p q a b).params = s.params := rfl
@[simp] theorem setPr2_free (s : State) (p q : BitVec 6) (a b : Bool) : (s.setPr2 p q a b).free = s.free := rfl
@[simp] theorem setPr2_rucAhead (s : State) (p q : BitVec 6) (a b : Bool) : (s.setPr2 p q a b).rucAhead = s.rucAhead := rfl

@[simp] theorem setPrs_bg (s : State) (m v : Word) : (s.setPrs m v).bg = s.bg := rfl
@[simp] theorem setPrs_thread1 (s : State) (m v : Word) : (s.setPrs m v).thread1 = s.thread1 := rfl
@[simp] theorem setPrs_itc (s : State) (m v : Word) : (s.setPrs m v).itc = s.itc := rfl
@[simp] theorem setPrs_dtr (s : State) (m v : Word) : (s.setPrs m v).dtr = s.dtr := rfl
@[simp] theorem setPrs_itr (s : State) (m v : Word) : (s.setPrs m v).itr = s.itr := rfl
@[simp] theorem setPrs_dtc (s : State) (m v : Word) : (s.setPrs m v).dtc = s.dtc := rfl
@[simp] theorem setPrs_itcache (s : State) (m v : Word) : (s.setPrs m v).itcache = s.itcache := rfl
@[simp] theorem setPrs_mem (s : State) (m v : Word) : (s.setPrs m v).mem = s.mem := rfl
@[simp] theorem setPrs_uncore (s : State) (m v : Word) : (s.setPrs m v).uncore = s.uncore := rfl
@[simp] theorem setPrs_remote (s : State) (m v : Word) : (s.setPrs m v).remote = s.remote := rfl
@[simp] theorem setPrs_coherenceOpt (s : State) (m v : Word) : (s.setPrs m v).coherenceOpt = s.coherenceOpt := rfl
@[simp] theorem setPrs_params (s : State) (m v : Word) : (s.setPrs m v).params = s.params := rfl
@[simp] theorem setPrs_free (s : State) (m v : Word) : (s.setPrs m v).free = s.free := rfl
@[simp] theorem setPrs_rucAhead (s : State) (m v : Word) : (s.setPrs m v).rucAhead = s.rucAhead := rfl

@[simp] theorem setAr_bg (s : State) (a : ARFile) : (s.setAr a).bg = s.bg := rfl
@[simp] theorem setAr_thread1 (s : State) (a : ARFile) : (s.setAr a).thread1 = s.thread1 := rfl
@[simp] theorem setAr_itc (s : State) (a : ARFile) : (s.setAr a).itc = s.itc := rfl
@[simp] theorem setAr_dtr (s : State) (a : ARFile) : (s.setAr a).dtr = s.dtr := rfl
@[simp] theorem setAr_itr (s : State) (a : ARFile) : (s.setAr a).itr = s.itr := rfl
@[simp] theorem setAr_dtc (s : State) (a : ARFile) : (s.setAr a).dtc = s.dtc := rfl
@[simp] theorem setAr_itcache (s : State) (a : ARFile) : (s.setAr a).itcache = s.itcache := rfl
@[simp] theorem setAr_mem (s : State) (a : ARFile) : (s.setAr a).mem = s.mem := rfl
@[simp] theorem setAr_uncore (s : State) (a : ARFile) : (s.setAr a).uncore = s.uncore := rfl
@[simp] theorem setAr_remote (s : State) (a : ARFile) : (s.setAr a).remote = s.remote := rfl
@[simp] theorem setAr_coherenceOpt (s : State) (a : ARFile) : (s.setAr a).coherenceOpt = s.coherenceOpt := rfl
@[simp] theorem setAr_params (s : State) (a : ARFile) : (s.setAr a).params = s.params := rfl
@[simp] theorem setAr_free (s : State) (a : ARFile) : (s.setAr a).free = s.free := rfl
@[simp] theorem setAr_rucAhead (s : State) (a : ARFile) : (s.setAr a).rucAhead = s.rucAhead := rfl

@[simp] theorem setGrFile_bg (s : State) (g : GRFile) : (s.setGrFile g).bg = s.bg := rfl
@[simp] theorem setGrFile_thread1 (s : State) (g : GRFile) : (s.setGrFile g).thread1 = s.thread1 := rfl
@[simp] theorem setGrFile_itc (s : State) (g : GRFile) : (s.setGrFile g).itc = s.itc := rfl
@[simp] theorem setGrFile_dtr (s : State) (g : GRFile) : (s.setGrFile g).dtr = s.dtr := rfl
@[simp] theorem setGrFile_itr (s : State) (g : GRFile) : (s.setGrFile g).itr = s.itr := rfl
@[simp] theorem setGrFile_dtc (s : State) (g : GRFile) : (s.setGrFile g).dtc = s.dtc := rfl
@[simp] theorem setGrFile_itcache (s : State) (g : GRFile) : (s.setGrFile g).itcache = s.itcache := rfl
@[simp] theorem setGrFile_mem (s : State) (g : GRFile) : (s.setGrFile g).mem = s.mem := rfl
@[simp] theorem setGrFile_uncore (s : State) (g : GRFile) : (s.setGrFile g).uncore = s.uncore := rfl
@[simp] theorem setGrFile_remote (s : State) (g : GRFile) : (s.setGrFile g).remote = s.remote := rfl
@[simp] theorem setGrFile_coherenceOpt (s : State) (g : GRFile) : (s.setGrFile g).coherenceOpt = s.coherenceOpt := rfl
@[simp] theorem setGrFile_params (s : State) (g : GRFile) : (s.setGrFile g).params = s.params := rfl
@[simp] theorem setGrFile_free (s : State) (g : GRFile) : (s.setGrFile g).free = s.free := rfl
@[simp] theorem setGrFile_rucAhead (s : State) (g : GRFile) : (s.setGrFile g).rucAhead = s.rucAhead := rfl

@[simp] theorem setEc_bg (s : State) (e : BitVec 6) : (s.setEc e).bg = s.bg := rfl
@[simp] theorem setEc_thread1 (s : State) (e : BitVec 6) : (s.setEc e).thread1 = s.thread1 := rfl
@[simp] theorem setEc_itc (s : State) (e : BitVec 6) : (s.setEc e).itc = s.itc := rfl
@[simp] theorem setEc_dtr (s : State) (e : BitVec 6) : (s.setEc e).dtr = s.dtr := rfl
@[simp] theorem setEc_itr (s : State) (e : BitVec 6) : (s.setEc e).itr = s.itr := rfl
@[simp] theorem setEc_dtc (s : State) (e : BitVec 6) : (s.setEc e).dtc = s.dtc := rfl
@[simp] theorem setEc_itcache (s : State) (e : BitVec 6) : (s.setEc e).itcache = s.itcache := rfl
@[simp] theorem setEc_mem (s : State) (e : BitVec 6) : (s.setEc e).mem = s.mem := rfl
@[simp] theorem setEc_uncore (s : State) (e : BitVec 6) : (s.setEc e).uncore = s.uncore := rfl
@[simp] theorem setEc_remote (s : State) (e : BitVec 6) : (s.setEc e).remote = s.remote := rfl
@[simp] theorem setEc_coherenceOpt (s : State) (e : BitVec 6) : (s.setEc e).coherenceOpt = s.coherenceOpt := rfl
@[simp] theorem setEc_params (s : State) (e : BitVec 6) : (s.setEc e).params = s.params := rfl
@[simp] theorem setEc_free (s : State) (e : BitVec 6) : (s.setEc e).free = s.free := rfl
@[simp] theorem setEc_rucAhead (s : State) (e : BitVec 6) : (s.setEc e).rucAhead = s.rucAhead := rfl

@[simp] theorem setLc_bg (s : State) (e : Word) : (s.setLc e).bg = s.bg := rfl
@[simp] theorem setLc_thread1 (s : State) (e : Word) : (s.setLc e).thread1 = s.thread1 := rfl
@[simp] theorem setLc_itc (s : State) (e : Word) : (s.setLc e).itc = s.itc := rfl
@[simp] theorem setLc_dtr (s : State) (e : Word) : (s.setLc e).dtr = s.dtr := rfl
@[simp] theorem setLc_itr (s : State) (e : Word) : (s.setLc e).itr = s.itr := rfl
@[simp] theorem setLc_dtc (s : State) (e : Word) : (s.setLc e).dtc = s.dtc := rfl
@[simp] theorem setLc_itcache (s : State) (e : Word) : (s.setLc e).itcache = s.itcache := rfl
@[simp] theorem setLc_mem (s : State) (e : Word) : (s.setLc e).mem = s.mem := rfl
@[simp] theorem setLc_uncore (s : State) (e : Word) : (s.setLc e).uncore = s.uncore := rfl
@[simp] theorem setLc_remote (s : State) (e : Word) : (s.setLc e).remote = s.remote := rfl
@[simp] theorem setLc_coherenceOpt (s : State) (e : Word) : (s.setLc e).coherenceOpt = s.coherenceOpt := rfl
@[simp] theorem setLc_params (s : State) (e : Word) : (s.setLc e).params = s.params := rfl
@[simp] theorem setLc_free (s : State) (e : Word) : (s.setLc e).free = s.free := rfl
@[simp] theorem setLc_rucAhead (s : State) (e : Word) : (s.setLc e).rucAhead = s.rucAhead := rfl

@[simp] theorem setFpsr_bg (s : State) (w : Word) : (s.setFpsr w).bg = s.bg := rfl
@[simp] theorem setFpsr_thread1 (s : State) (w : Word) : (s.setFpsr w).thread1 = s.thread1 := rfl
@[simp] theorem setFpsr_itc (s : State) (w : Word) : (s.setFpsr w).itc = s.itc := rfl
@[simp] theorem setFpsr_dtr (s : State) (w : Word) : (s.setFpsr w).dtr = s.dtr := rfl
@[simp] theorem setFpsr_itr (s : State) (w : Word) : (s.setFpsr w).itr = s.itr := rfl
@[simp] theorem setFpsr_dtc (s : State) (w : Word) : (s.setFpsr w).dtc = s.dtc := rfl
@[simp] theorem setFpsr_itcache (s : State) (w : Word) : (s.setFpsr w).itcache = s.itcache := rfl
@[simp] theorem setFpsr_mem (s : State) (w : Word) : (s.setFpsr w).mem = s.mem := rfl
@[simp] theorem setFpsr_uncore (s : State) (w : Word) : (s.setFpsr w).uncore = s.uncore := rfl
@[simp] theorem setFpsr_remote (s : State) (w : Word) : (s.setFpsr w).remote = s.remote := rfl
@[simp] theorem setFpsr_coherenceOpt (s : State) (w : Word) : (s.setFpsr w).coherenceOpt = s.coherenceOpt := rfl
@[simp] theorem setFpsr_params (s : State) (w : Word) : (s.setFpsr w).params = s.params := rfl
@[simp] theorem setFpsr_free (s : State) (w : Word) : (s.setFpsr w).free = s.free := rfl
@[simp] theorem setFpsr_rucAhead (s : State) (w : Word) : (s.setFpsr w).rucAhead = s.rucAhead := rfl

@[simp] theorem setUserMask_bg (s : State) (w : Word) : (s.setUserMask w).bg = s.bg := rfl
@[simp] theorem setUserMask_thread1 (s : State) (w : Word) : (s.setUserMask w).thread1 = s.thread1 := rfl
@[simp] theorem setUserMask_itc (s : State) (w : Word) : (s.setUserMask w).itc = s.itc := rfl
@[simp] theorem setUserMask_dtr (s : State) (w : Word) : (s.setUserMask w).dtr = s.dtr := rfl
@[simp] theorem setUserMask_itr (s : State) (w : Word) : (s.setUserMask w).itr = s.itr := rfl
@[simp] theorem setUserMask_dtc (s : State) (w : Word) : (s.setUserMask w).dtc = s.dtc := rfl
@[simp] theorem setUserMask_itcache (s : State) (w : Word) : (s.setUserMask w).itcache = s.itcache := rfl
@[simp] theorem setUserMask_mem (s : State) (w : Word) : (s.setUserMask w).mem = s.mem := rfl
@[simp] theorem setUserMask_uncore (s : State) (w : Word) : (s.setUserMask w).uncore = s.uncore := rfl
@[simp] theorem setUserMask_remote (s : State) (w : Word) : (s.setUserMask w).remote = s.remote := rfl
@[simp] theorem setUserMask_coherenceOpt (s : State) (w : Word) :
    (s.setUserMask w).coherenceOpt = s.coherenceOpt := rfl
@[simp] theorem setUserMask_params (s : State) (w : Word) : (s.setUserMask w).params = s.params := rfl
@[simp] theorem setUserMask_free (s : State) (w : Word) : (s.setUserMask w).free = s.free := rfl
@[simp] theorem setUserMask_rucAhead (s : State) (w : Word) : (s.setUserMask w).rucAhead = s.rucAhead := rfl

@[simp] theorem atLevel_bg (s : State) (p : BitVec 2) : (s.atLevel p).bg = s.bg := rfl
@[simp] theorem atLevel_thread1 (s : State) (p : BitVec 2) : (s.atLevel p).thread1 = s.thread1 := rfl
@[simp] theorem atLevel_itc (s : State) (p : BitVec 2) : (s.atLevel p).itc = s.itc := rfl
@[simp] theorem atLevel_dtr (s : State) (p : BitVec 2) : (s.atLevel p).dtr = s.dtr := rfl
@[simp] theorem atLevel_itr (s : State) (p : BitVec 2) : (s.atLevel p).itr = s.itr := rfl
@[simp] theorem atLevel_dtc (s : State) (p : BitVec 2) : (s.atLevel p).dtc = s.dtc := rfl
@[simp] theorem atLevel_itcache (s : State) (p : BitVec 2) : (s.atLevel p).itcache = s.itcache := rfl
@[simp] theorem atLevel_mem (s : State) (p : BitVec 2) : (s.atLevel p).mem = s.mem := rfl
@[simp] theorem atLevel_uncore (s : State) (p : BitVec 2) : (s.atLevel p).uncore = s.uncore := rfl
@[simp] theorem atLevel_remote (s : State) (p : BitVec 2) : (s.atLevel p).remote = s.remote := rfl
@[simp] theorem atLevel_coherenceOpt (s : State) (p : BitVec 2) : (s.atLevel p).coherenceOpt = s.coherenceOpt := rfl
@[simp] theorem atLevel_params (s : State) (p : BitVec 2) : (s.atLevel p).params = s.params := rfl
@[simp] theorem atLevel_free (s : State) (p : BitVec 2) : (s.atLevel p).free = s.free := rfl
@[simp] theorem atLevel_rucAhead (s : State) (p : BitVec 2) : (s.atLevel p).rucAhead = s.rucAhead := rfl

@[simp] theorem removeAlat_bg (s : State) (fp : Bool) (r : BitVec 7) : (s.removeAlat fp r).bg = s.bg := rfl
@[simp] theorem removeAlat_thread1 (s : State) (fp : Bool) (r : BitVec 7) :
    (s.removeAlat fp r).thread1 = s.thread1 := rfl
@[simp] theorem removeAlat_itc (s : State) (fp : Bool) (r : BitVec 7) : (s.removeAlat fp r).itc = s.itc := rfl
@[simp] theorem removeAlat_dtr (s : State) (fp : Bool) (r : BitVec 7) : (s.removeAlat fp r).dtr = s.dtr := rfl
@[simp] theorem removeAlat_itr (s : State) (fp : Bool) (r : BitVec 7) : (s.removeAlat fp r).itr = s.itr := rfl
@[simp] theorem removeAlat_dtc (s : State) (fp : Bool) (r : BitVec 7) : (s.removeAlat fp r).dtc = s.dtc := rfl
@[simp] theorem removeAlat_itcache (s : State) (fp : Bool) (r : BitVec 7) :
    (s.removeAlat fp r).itcache = s.itcache := rfl
@[simp] theorem removeAlat_mem (s : State) (fp : Bool) (r : BitVec 7) : (s.removeAlat fp r).mem = s.mem := rfl
@[simp] theorem removeAlat_uncore (s : State) (fp : Bool) (r : BitVec 7) :
    (s.removeAlat fp r).uncore = s.uncore := rfl
@[simp] theorem removeAlat_remote (s : State) (fp : Bool) (r : BitVec 7) :
    (s.removeAlat fp r).remote = s.remote := rfl
@[simp] theorem removeAlat_coherenceOpt (s : State) (fp : Bool) (r : BitVec 7) :
    (s.removeAlat fp r).coherenceOpt = s.coherenceOpt := rfl
@[simp] theorem removeAlat_params (s : State) (fp : Bool) (r : BitVec 7) :
    (s.removeAlat fp r).params = s.params := rfl
@[simp] theorem removeAlat_free (s : State) (fp : Bool) (r : BitVec 7) : (s.removeAlat fp r).free = s.free := rfl
@[simp] theorem removeAlat_rucAhead (s : State) (fp : Bool) (r : BitVec 7) : (s.removeAlat fp r).rucAhead = s.rucAhead := rfl

@[simp] theorem noteFlow_bg (s : State) (k : FlowKind) (t : Bool) (w : Word) : (s.noteFlow k t w).bg = s.bg := rfl
@[simp] theorem noteFlow_thread1 (s : State) (k : FlowKind) (t : Bool) (w : Word) :
    (s.noteFlow k t w).thread1 = s.thread1 := rfl
@[simp] theorem noteFlow_itc (s : State) (k : FlowKind) (t : Bool) (w : Word) : (s.noteFlow k t w).itc = s.itc := rfl
@[simp] theorem noteFlow_dtr (s : State) (k : FlowKind) (t : Bool) (w : Word) : (s.noteFlow k t w).dtr = s.dtr := rfl
@[simp] theorem noteFlow_itr (s : State) (k : FlowKind) (t : Bool) (w : Word) : (s.noteFlow k t w).itr = s.itr := rfl
@[simp] theorem noteFlow_dtc (s : State) (k : FlowKind) (t : Bool) (w : Word) : (s.noteFlow k t w).dtc = s.dtc := rfl
@[simp] theorem noteFlow_itcache (s : State) (k : FlowKind) (t : Bool) (w : Word) :
    (s.noteFlow k t w).itcache = s.itcache := rfl
@[simp] theorem noteFlow_mem (s : State) (k : FlowKind) (t : Bool) (w : Word) : (s.noteFlow k t w).mem = s.mem := rfl
@[simp] theorem noteFlow_uncore (s : State) (k : FlowKind) (t : Bool) (w : Word) :
    (s.noteFlow k t w).uncore = s.uncore := rfl
@[simp] theorem noteFlow_remote (s : State) (k : FlowKind) (t : Bool) (w : Word) :
    (s.noteFlow k t w).remote = s.remote := rfl
@[simp] theorem noteFlow_coherenceOpt (s : State) (k : FlowKind) (t : Bool) (w : Word) :
    (s.noteFlow k t w).coherenceOpt = s.coherenceOpt := rfl
@[simp] theorem noteFlow_params (s : State) (k : FlowKind) (t : Bool) (w : Word) :
    (s.noteFlow k t w).params = s.params := rfl
@[simp] theorem noteFlow_free (s : State) (k : FlowKind) (t : Bool) (w : Word) :
    (s.noteFlow k t w).free = s.free := rfl
@[simp] theorem noteFlow_rucAhead (s : State) (k : FlowKind) (t : Bool) (w : Word) :
    (s.noteFlow k t w).rucAhead = s.rucAhead := rfl

@[simp] theorem noteData_bg (s : State) (k : DataKind) (fp : Bool) (w : Word) (n : Nat) (a : MemAttr) (x : Option Nat) :
    (s.noteData k fp w n a x).bg = s.bg := rfl
@[simp] theorem noteData_thread1 (s : State) (k : DataKind) (fp : Bool) (w : Word) (n : Nat) (a : MemAttr) (x : Option Nat) :
    (s.noteData k fp w n a x).thread1 = s.thread1 := rfl
@[simp] theorem noteData_itc (s : State) (k : DataKind) (fp : Bool) (w : Word) (n : Nat) (a : MemAttr) (x : Option Nat) :
    (s.noteData k fp w n a x).itc = s.itc := rfl
@[simp] theorem noteData_dtr (s : State) (k : DataKind) (fp : Bool) (w : Word) (n : Nat) (a : MemAttr) (x : Option Nat) :
    (s.noteData k fp w n a x).dtr = s.dtr := rfl
@[simp] theorem noteData_itr (s : State) (k : DataKind) (fp : Bool) (w : Word) (n : Nat) (a : MemAttr) (x : Option Nat) :
    (s.noteData k fp w n a x).itr = s.itr := rfl
@[simp] theorem noteData_dtc (s : State) (k : DataKind) (fp : Bool) (w : Word) (n : Nat) (a : MemAttr) (x : Option Nat) :
    (s.noteData k fp w n a x).dtc = s.dtc := rfl
@[simp] theorem noteData_itcache (s : State) (k : DataKind) (fp : Bool) (w : Word) (n : Nat) (a : MemAttr) (x : Option Nat) :
    (s.noteData k fp w n a x).itcache = s.itcache := rfl
@[simp] theorem noteData_mem (s : State) (k : DataKind) (fp : Bool) (w : Word) (n : Nat) (a : MemAttr) (x : Option Nat) :
    (s.noteData k fp w n a x).mem = s.mem := rfl
@[simp] theorem noteData_uncore (s : State) (k : DataKind) (fp : Bool) (w : Word) (n : Nat) (a : MemAttr) (x : Option Nat) :
    (s.noteData k fp w n a x).uncore = s.uncore := rfl
@[simp] theorem noteData_remote (s : State) (k : DataKind) (fp : Bool) (w : Word) (n : Nat) (a : MemAttr) (x : Option Nat) :
    (s.noteData k fp w n a x).remote = s.remote := rfl
@[simp] theorem noteData_coherenceOpt (s : State) (k : DataKind) (fp : Bool) (w : Word) (n : Nat) (a : MemAttr) (x : Option Nat) :
    (s.noteData k fp w n a x).coherenceOpt = s.coherenceOpt := rfl
@[simp] theorem noteData_params (s : State) (k : DataKind) (fp : Bool) (w : Word) (n : Nat) (a : MemAttr) (x : Option Nat) :
    (s.noteData k fp w n a x).params = s.params := rfl
@[simp] theorem noteData_free (s : State) (k : DataKind) (fp : Bool) (w : Word) (n : Nat) (a : MemAttr) (x : Option Nat) :
    (s.noteData k fp w n a x).free = s.free := rfl
@[simp] theorem noteData_rucAhead (s : State) (k : DataKind) (fp : Bool) (w : Word) (n : Nat) (a : MemAttr) (x : Option Nat) :
    (s.noteData k fp w n a x).rucAhead = s.rucAhead := rfl

@[simp] theorem noteCheck_bg (s : State) (a l f c x : Bool) : (s.noteCheck a l f c x).bg = s.bg := rfl
@[simp] theorem noteCheck_thread1 (s : State) (a l f c x : Bool) : (s.noteCheck a l f c x).thread1 = s.thread1 := rfl
@[simp] theorem noteCheck_itc (s : State) (a l f c x : Bool) : (s.noteCheck a l f c x).itc = s.itc := rfl
@[simp] theorem noteCheck_dtr (s : State) (a l f c x : Bool) : (s.noteCheck a l f c x).dtr = s.dtr := rfl
@[simp] theorem noteCheck_itr (s : State) (a l f c x : Bool) : (s.noteCheck a l f c x).itr = s.itr := rfl
@[simp] theorem noteCheck_dtc (s : State) (a l f c x : Bool) : (s.noteCheck a l f c x).dtc = s.dtc := rfl
@[simp] theorem noteCheck_itcache (s : State) (a l f c x : Bool) : (s.noteCheck a l f c x).itcache = s.itcache := rfl
@[simp] theorem noteCheck_mem (s : State) (a l f c x : Bool) : (s.noteCheck a l f c x).mem = s.mem := rfl
@[simp] theorem noteCheck_uncore (s : State) (a l f c x : Bool) : (s.noteCheck a l f c x).uncore = s.uncore := rfl
@[simp] theorem noteCheck_remote (s : State) (a l f c x : Bool) : (s.noteCheck a l f c x).remote = s.remote := rfl
@[simp] theorem noteCheck_coherenceOpt (s : State) (a l f c x : Bool) :
    (s.noteCheck a l f c x).coherenceOpt = s.coherenceOpt := rfl
@[simp] theorem noteCheck_params (s : State) (a l f c x : Bool) : (s.noteCheck a l f c x).params = s.params := rfl
@[simp] theorem noteCheck_free (s : State) (a l f c x : Bool) : (s.noteCheck a l f c x).free = s.free := rfl
@[simp] theorem noteCheck_rucAhead (s : State) (a l f c x : Bool) : (s.noteCheck a l f c x).rucAhead = s.rucAhead := rfl

@[simp] theorem noteFpOps_bg (s : State) (n : Nat) : (s.noteFpOps n).bg = s.bg := rfl
@[simp] theorem noteFpOps_thread1 (s : State) (n : Nat) : (s.noteFpOps n).thread1 = s.thread1 := rfl
@[simp] theorem noteFpOps_itc (s : State) (n : Nat) : (s.noteFpOps n).itc = s.itc := rfl
@[simp] theorem noteFpOps_dtr (s : State) (n : Nat) : (s.noteFpOps n).dtr = s.dtr := rfl
@[simp] theorem noteFpOps_itr (s : State) (n : Nat) : (s.noteFpOps n).itr = s.itr := rfl
@[simp] theorem noteFpOps_dtc (s : State) (n : Nat) : (s.noteFpOps n).dtc = s.dtc := rfl
@[simp] theorem noteFpOps_itcache (s : State) (n : Nat) : (s.noteFpOps n).itcache = s.itcache := rfl
@[simp] theorem noteFpOps_mem (s : State) (n : Nat) : (s.noteFpOps n).mem = s.mem := rfl
@[simp] theorem noteFpOps_uncore (s : State) (n : Nat) : (s.noteFpOps n).uncore = s.uncore := rfl
@[simp] theorem noteFpOps_remote (s : State) (n : Nat) : (s.noteFpOps n).remote = s.remote := rfl
@[simp] theorem noteFpOps_coherenceOpt (s : State) (n : Nat) : (s.noteFpOps n).coherenceOpt = s.coherenceOpt := rfl
@[simp] theorem noteFpOps_params (s : State) (n : Nat) : (s.noteFpOps n).params = s.params := rfl
@[simp] theorem noteFpOps_free (s : State) (n : Nat) : (s.noteFpOps n).free = s.free := rfl
@[simp] theorem noteFpOps_rucAhead (s : State) (n : Nat) : (s.noteFpOps n).rucAhead = s.rucAhead := rfl

@[simp] theorem noteRse_bg (s : State) : (s.noteRse).bg = s.bg := rfl
@[simp] theorem noteRse_thread1 (s : State) : (s.noteRse).thread1 = s.thread1 := rfl
@[simp] theorem noteRse_itc (s : State) : (s.noteRse).itc = s.itc := rfl
@[simp] theorem noteRse_dtr (s : State) : (s.noteRse).dtr = s.dtr := rfl
@[simp] theorem noteRse_itr (s : State) : (s.noteRse).itr = s.itr := rfl
@[simp] theorem noteRse_dtc (s : State) : (s.noteRse).dtc = s.dtc := rfl
@[simp] theorem noteRse_itcache (s : State) : (s.noteRse).itcache = s.itcache := rfl
@[simp] theorem noteRse_mem (s : State) : (s.noteRse).mem = s.mem := rfl
@[simp] theorem noteRse_uncore (s : State) : (s.noteRse).uncore = s.uncore := rfl
@[simp] theorem noteRse_remote (s : State) : (s.noteRse).remote = s.remote := rfl
@[simp] theorem noteRse_coherenceOpt (s : State) : (s.noteRse).coherenceOpt = s.coherenceOpt := rfl
@[simp] theorem noteRse_params (s : State) : (s.noteRse).params = s.params := rfl
@[simp] theorem noteRse_free (s : State) : (s.noteRse).free = s.free := rfl
@[simp] theorem noteRse_rucAhead (s : State) : (s.noteRse).rucAhead = s.rucAhead := rfl

@[simp] theorem deliver_bg (e : Exc) (ei : BitVec 2) (s : State) : (deliver e ei s).bg = s.bg := rfl
@[simp] theorem deliver_thread1 (e : Exc) (ei : BitVec 2) (s : State) : (deliver e ei s).thread1 = s.thread1 := rfl
@[simp] theorem deliver_itc (e : Exc) (ei : BitVec 2) (s : State) : (deliver e ei s).itc = s.itc := rfl
@[simp] theorem deliver_dtr (e : Exc) (ei : BitVec 2) (s : State) : (deliver e ei s).dtr = s.dtr := rfl
@[simp] theorem deliver_itr (e : Exc) (ei : BitVec 2) (s : State) : (deliver e ei s).itr = s.itr := rfl
@[simp] theorem deliver_dtc (e : Exc) (ei : BitVec 2) (s : State) : (deliver e ei s).dtc = s.dtc := rfl
@[simp] theorem deliver_itcache (e : Exc) (ei : BitVec 2) (s : State) : (deliver e ei s).itcache = s.itcache := rfl
@[simp] theorem deliver_mem (e : Exc) (ei : BitVec 2) (s : State) : (deliver e ei s).mem = s.mem := rfl
@[simp] theorem deliver_uncore (e : Exc) (ei : BitVec 2) (s : State) : (deliver e ei s).uncore = s.uncore := rfl
@[simp] theorem deliver_remote (e : Exc) (ei : BitVec 2) (s : State) : (deliver e ei s).remote = s.remote := rfl
@[simp] theorem deliver_coherenceOpt (e : Exc) (ei : BitVec 2) (s : State) :
    (deliver e ei s).coherenceOpt = s.coherenceOpt := rfl
@[simp] theorem deliver_params (e : Exc) (ei : BitVec 2) (s : State) : (deliver e ei s).params = s.params := rfl
@[simp] theorem deliver_free (e : Exc) (ei : BitVec 2) (s : State) : (deliver e ei s).free = s.free := rfl
@[simp] theorem deliver_rucAhead (e : Exc) (ei : BitVec 2) (s : State) : (deliver e ei s).rucAhead = s.rucAhead := rfl

@[simp] theorem advance_bg (s u : State) (e : Ending) : (advance s u e).bg = u.bg := rfl
@[simp] theorem advance_thread1 (s u : State) (e : Ending) : (advance s u e).thread1 = u.thread1 := rfl
@[simp] theorem advance_itc (s u : State) (e : Ending) : (advance s u e).itc = u.itc := rfl
@[simp] theorem advance_dtr (s u : State) (e : Ending) : (advance s u e).dtr = u.dtr := rfl
@[simp] theorem advance_itr (s u : State) (e : Ending) : (advance s u e).itr = u.itr := rfl
@[simp] theorem advance_dtc (s u : State) (e : Ending) : (advance s u e).dtc = u.dtc := rfl
@[simp] theorem advance_itcache (s u : State) (e : Ending) : (advance s u e).itcache = u.itcache := rfl
@[simp] theorem advance_mem (s u : State) (e : Ending) : (advance s u e).mem = u.mem := rfl
@[simp] theorem advance_uncore (s u : State) (e : Ending) : (advance s u e).uncore = u.uncore := rfl
@[simp] theorem advance_remote (s u : State) (e : Ending) : (advance s u e).remote = u.remote := rfl
@[simp] theorem advance_coherenceOpt (s u : State) (e : Ending) : (advance s u e).coherenceOpt = u.coherenceOpt := rfl
@[simp] theorem advance_params (s u : State) (e : Ending) : (advance s u e).params = u.params := rfl
@[simp] theorem advance_free (s u : State) (e : Ending) : (advance s u e).free = u.free := rfl
@[simp] theorem advance_rucAhead (s u : State) (e : Ending) : (advance s u e).rucAhead = u.rucAhead := rfl

@[simp] theorem fallThrough_bg (s u : State) : (fallThrough s u).bg = u.bg := rfl
@[simp] theorem fallThrough_thread1 (s u : State) : (fallThrough s u).thread1 = u.thread1 := rfl
@[simp] theorem fallThrough_itc (s u : State) : (fallThrough s u).itc = u.itc := rfl
@[simp] theorem fallThrough_dtr (s u : State) : (fallThrough s u).dtr = u.dtr := rfl
@[simp] theorem fallThrough_itr (s u : State) : (fallThrough s u).itr = u.itr := rfl
@[simp] theorem fallThrough_dtc (s u : State) : (fallThrough s u).dtc = u.dtc := rfl
@[simp] theorem fallThrough_itcache (s u : State) : (fallThrough s u).itcache = u.itcache := rfl
@[simp] theorem fallThrough_mem (s u : State) : (fallThrough s u).mem = u.mem := rfl
@[simp] theorem fallThrough_uncore (s u : State) : (fallThrough s u).uncore = u.uncore := rfl
@[simp] theorem fallThrough_remote (s u : State) : (fallThrough s u).remote = u.remote := rfl
@[simp] theorem fallThrough_coherenceOpt (s u : State) : (fallThrough s u).coherenceOpt = u.coherenceOpt := rfl
@[simp] theorem fallThrough_params (s u : State) : (fallThrough s u).params = u.params := rfl
@[simp] theorem fallThrough_free (s u : State) : (fallThrough s u).free = u.free := rfl
@[simp] theorem fallThrough_rucAhead (s u : State) : (fallThrough s u).rucAhead = u.rucAhead := rfl

@[simp] theorem restoreContext_bg (s : State) : (restoreContext s).bg = s.bg := rfl
@[simp] theorem restoreContext_thread1 (s : State) : (restoreContext s).thread1 = s.thread1 := rfl
@[simp] theorem restoreContext_itc (s : State) : (restoreContext s).itc = s.itc := rfl
@[simp] theorem restoreContext_dtr (s : State) : (restoreContext s).dtr = s.dtr := rfl
@[simp] theorem restoreContext_itr (s : State) : (restoreContext s).itr = s.itr := rfl
@[simp] theorem restoreContext_dtc (s : State) : (restoreContext s).dtc = s.dtc := rfl
@[simp] theorem restoreContext_itcache (s : State) : (restoreContext s).itcache = s.itcache := rfl
@[simp] theorem restoreContext_mem (s : State) : (restoreContext s).mem = s.mem := rfl
@[simp] theorem restoreContext_uncore (s : State) : (restoreContext s).uncore = s.uncore := rfl
@[simp] theorem restoreContext_remote (s : State) : (restoreContext s).remote = s.remote := rfl
@[simp] theorem restoreContext_coherenceOpt (s : State) : (restoreContext s).coherenceOpt = s.coherenceOpt := rfl
@[simp] theorem restoreContext_params (s : State) : (restoreContext s).params = s.params := rfl
@[simp] theorem restoreContext_free (s : State) : (restoreContext s).free = s.free := rfl
@[simp] theorem restoreContext_rucAhead (s : State) : (restoreContext s).rucAhead = s.rucAhead := rfl

/-! ## Fields of the foreground thread -/

@[simp] theorem setGr_lp_ip (s : State) (r : BitVec 7) (v : Reg) :
    (s.setGr r v).lp.ip = s.lp.ip := by simp [State.setGr]
@[simp] theorem setGr_lp_psr (s : State) (r : BitVec 7) (v : Reg) :
    (s.setGr r v).lp.psr = s.lp.psr := by simp [State.setGr]
@[simp] theorem setGr_lp_cfm (s : State) (r : BitVec 7) (v : Reg) :
    (s.setGr r v).lp.cfm = s.lp.cfm := by simp [State.setGr]
@[simp] theorem setGr_lp_fr (s : State) (r : BitVec 7) (v : Reg) :
    (s.setGr r v).lp.fr = s.lp.fr := by simp [State.setGr]
@[simp] theorem setGr_lp_pr (s : State) (r : BitVec 7) (v : Reg) :
    (s.setGr r v).lp.pr = s.lp.pr := by simp [State.setGr]
@[simp] theorem setGr_lp_br (s : State) (r : BitVec 7) (v : Reg) :
    (s.setGr r v).lp.br = s.lp.br := by simp [State.setGr]
@[simp] theorem setGr_lp_ar (s : State) (r : BitVec 7) (v : Reg) :
    (s.setGr r v).lp.ar = s.lp.ar := by simp [State.setGr]
@[simp] theorem setGr_lp_cr (s : State) (r : BitVec 7) (v : Reg) :
    (s.setGr r v).lp.cr = s.lp.cr := by simp [State.setGr]
@[simp] theorem setGr_lp_rr (s : State) (r : BitVec 7) (v : Reg) :
    (s.setGr r v).lp.rr = s.lp.rr := by simp [State.setGr]
@[simp] theorem setGr_lp_pkr (s : State) (r : BitVec 7) (v : Reg) :
    (s.setGr r v).lp.pkr = s.lp.pkr := by simp [State.setGr]
@[simp] theorem setGr_lp_ibr (s : State) (r : BitVec 7) (v : Reg) :
    (s.setGr r v).lp.ibr = s.lp.ibr := by simp [State.setGr]
@[simp] theorem setGr_lp_dbr (s : State) (r : BitVec 7) (v : Reg) :
    (s.setGr r v).lp.dbr = s.lp.dbr := by simp [State.setGr]
@[simp] theorem setGr_lp_pmu (s : State) (r : BitVec 7) (v : Reg) :
    (s.setGr r v).lp.pmu = s.lp.pmu := by simp [State.setGr]
@[simp] theorem setGr_lp_alat (s : State) (r : BitVec 7) (v : Reg) :
    (s.setGr r v).lp.alat = s.lp.alat := by simp [State.setGr]
@[simp] theorem setGr_lp_thr (s : State) (r : BitVec 7) (v : Reg) :
    (s.setGr r v).lp.thr = s.lp.thr := by simp [State.setGr]
@[simp] theorem setGr_lp_lastIp (s : State) (r : BitVec 7) (v : Reg) :
    (s.setGr r v).lp.lastIp = s.lp.lastIp := by simp [State.setGr]
@[simp] theorem setGr_lp_bundle (s : State) (r : BitVec 7) (v : Reg) :
    (s.setGr r v).lp.bundle = s.lp.bundle := by simp [State.setGr]
@[simp] theorem setGr_lp_ev (s : State) (r : BitVec 7) (v : Reg) :
    (s.setGr r v).lp.ev = s.lp.ev := by simp [State.setGr]

@[simp] theorem setFr_lp_ip (s : State) (f : BitVec 7) (v : FReg) : (s.setFr f v).lp.ip = s.lp.ip := rfl
@[simp] theorem setFr_lp_cfm (s : State) (f : BitVec 7) (v : FReg) : (s.setFr f v).lp.cfm = s.lp.cfm := rfl
@[simp] theorem setFr_lp_gr (s : State) (f : BitVec 7) (v : FReg) : (s.setFr f v).lp.gr = s.lp.gr := rfl
@[simp] theorem setFr_lp_pr (s : State) (f : BitVec 7) (v : FReg) : (s.setFr f v).lp.pr = s.lp.pr := rfl
@[simp] theorem setFr_lp_br (s : State) (f : BitVec 7) (v : FReg) : (s.setFr f v).lp.br = s.lp.br := rfl
@[simp] theorem setFr_lp_ar (s : State) (f : BitVec 7) (v : FReg) : (s.setFr f v).lp.ar = s.lp.ar := rfl
@[simp] theorem setFr_lp_cr (s : State) (f : BitVec 7) (v : FReg) : (s.setFr f v).lp.cr = s.lp.cr := rfl
@[simp] theorem setFr_lp_rr (s : State) (f : BitVec 7) (v : FReg) : (s.setFr f v).lp.rr = s.lp.rr := rfl
@[simp] theorem setFr_lp_pkr (s : State) (f : BitVec 7) (v : FReg) : (s.setFr f v).lp.pkr = s.lp.pkr := rfl
@[simp] theorem setFr_lp_ibr (s : State) (f : BitVec 7) (v : FReg) : (s.setFr f v).lp.ibr = s.lp.ibr := rfl
@[simp] theorem setFr_lp_dbr (s : State) (f : BitVec 7) (v : FReg) : (s.setFr f v).lp.dbr = s.lp.dbr := rfl
@[simp] theorem setFr_lp_pmu (s : State) (f : BitVec 7) (v : FReg) : (s.setFr f v).lp.pmu = s.lp.pmu := rfl
@[simp] theorem setFr_lp_alat (s : State) (f : BitVec 7) (v : FReg) : (s.setFr f v).lp.alat = s.lp.alat := rfl
@[simp] theorem setFr_lp_thr (s : State) (f : BitVec 7) (v : FReg) : (s.setFr f v).lp.thr = s.lp.thr := rfl
@[simp] theorem setFr_lp_lastIp (s : State) (f : BitVec 7) (v : FReg) : (s.setFr f v).lp.lastIp = s.lp.lastIp := rfl
@[simp] theorem setFr_lp_bundle (s : State) (f : BitVec 7) (v : FReg) : (s.setFr f v).lp.bundle = s.lp.bundle := rfl
@[simp] theorem setFr_lp_ev (s : State) (f : BitVec 7) (v : FReg) : (s.setFr f v).lp.ev = s.lp.ev := rfl

@[simp] theorem setBr_lp_ip (s : State) (b : BitVec 3) (v : Word) : (s.setBr b v).lp.ip = s.lp.ip := rfl
@[simp] theorem setBr_lp_psr (s : State) (b : BitVec 3) (v : Word) : (s.setBr b v).lp.psr = s.lp.psr := rfl
@[simp] theorem setBr_lp_cfm (s : State) (b : BitVec 3) (v : Word) : (s.setBr b v).lp.cfm = s.lp.cfm := rfl
@[simp] theorem setBr_lp_gr (s : State) (b : BitVec 3) (v : Word) : (s.setBr b v).lp.gr = s.lp.gr := rfl
@[simp] theorem setBr_lp_fr (s : State) (b : BitVec 3) (v : Word) : (s.setBr b v).lp.fr = s.lp.fr := rfl
@[simp] theorem setBr_lp_pr (s : State) (b : BitVec 3) (v : Word) : (s.setBr b v).lp.pr = s.lp.pr := rfl
@[simp] theorem setBr_lp_ar (s : State) (b : BitVec 3) (v : Word) : (s.setBr b v).lp.ar = s.lp.ar := rfl
@[simp] theorem setBr_lp_cr (s : State) (b : BitVec 3) (v : Word) : (s.setBr b v).lp.cr = s.lp.cr := rfl
@[simp] theorem setBr_lp_rr (s : State) (b : BitVec 3) (v : Word) : (s.setBr b v).lp.rr = s.lp.rr := rfl
@[simp] theorem setBr_lp_pkr (s : State) (b : BitVec 3) (v : Word) : (s.setBr b v).lp.pkr = s.lp.pkr := rfl
@[simp] theorem setBr_lp_ibr (s : State) (b : BitVec 3) (v : Word) : (s.setBr b v).lp.ibr = s.lp.ibr := rfl
@[simp] theorem setBr_lp_dbr (s : State) (b : BitVec 3) (v : Word) : (s.setBr b v).lp.dbr = s.lp.dbr := rfl
@[simp] theorem setBr_lp_pmu (s : State) (b : BitVec 3) (v : Word) : (s.setBr b v).lp.pmu = s.lp.pmu := rfl
@[simp] theorem setBr_lp_alat (s : State) (b : BitVec 3) (v : Word) : (s.setBr b v).lp.alat = s.lp.alat := rfl
@[simp] theorem setBr_lp_thr (s : State) (b : BitVec 3) (v : Word) : (s.setBr b v).lp.thr = s.lp.thr := rfl
@[simp] theorem setBr_lp_lastIp (s : State) (b : BitVec 3) (v : Word) : (s.setBr b v).lp.lastIp = s.lp.lastIp := rfl
@[simp] theorem setBr_lp_bundle (s : State) (b : BitVec 3) (v : Word) : (s.setBr b v).lp.bundle = s.lp.bundle := rfl
@[simp] theorem setBr_lp_ev (s : State) (b : BitVec 3) (v : Word) : (s.setBr b v).lp.ev = s.lp.ev := rfl

@[simp] theorem setPrs_lp_ip (s : State) (m v : Word) : (s.setPrs m v).lp.ip = s.lp.ip := rfl
@[simp] theorem setPrs_lp_psr (s : State) (m v : Word) : (s.setPrs m v).lp.psr = s.lp.psr := rfl
@[simp] theorem setPrs_lp_cfm (s : State) (m v : Word) : (s.setPrs m v).lp.cfm = s.lp.cfm := rfl
@[simp] theorem setPrs_lp_gr (s : State) (m v : Word) : (s.setPrs m v).lp.gr = s.lp.gr := rfl
@[simp] theorem setPrs_lp_fr (s : State) (m v : Word) : (s.setPrs m v).lp.fr = s.lp.fr := rfl
@[simp] theorem setPrs_lp_br (s : State) (m v : Word) : (s.setPrs m v).lp.br = s.lp.br := rfl
@[simp] theorem setPrs_lp_ar (s : State) (m v : Word) : (s.setPrs m v).lp.ar = s.lp.ar := rfl
@[simp] theorem setPrs_lp_cr (s : State) (m v : Word) : (s.setPrs m v).lp.cr = s.lp.cr := rfl
@[simp] theorem setPrs_lp_rr (s : State) (m v : Word) : (s.setPrs m v).lp.rr = s.lp.rr := rfl
@[simp] theorem setPrs_lp_pkr (s : State) (m v : Word) : (s.setPrs m v).lp.pkr = s.lp.pkr := rfl
@[simp] theorem setPrs_lp_ibr (s : State) (m v : Word) : (s.setPrs m v).lp.ibr = s.lp.ibr := rfl
@[simp] theorem setPrs_lp_dbr (s : State) (m v : Word) : (s.setPrs m v).lp.dbr = s.lp.dbr := rfl
@[simp] theorem setPrs_lp_pmu (s : State) (m v : Word) : (s.setPrs m v).lp.pmu = s.lp.pmu := rfl
@[simp] theorem setPrs_lp_alat (s : State) (m v : Word) : (s.setPrs m v).lp.alat = s.lp.alat := rfl
@[simp] theorem setPrs_lp_thr (s : State) (m v : Word) : (s.setPrs m v).lp.thr = s.lp.thr := rfl
@[simp] theorem setPrs_lp_lastIp (s : State) (m v : Word) : (s.setPrs m v).lp.lastIp = s.lp.lastIp := rfl
@[simp] theorem setPrs_lp_bundle (s : State) (m v : Word) : (s.setPrs m v).lp.bundle = s.lp.bundle := rfl
@[simp] theorem setPrs_lp_ev (s : State) (m v : Word) : (s.setPrs m v).lp.ev = s.lp.ev := rfl

@[simp] theorem setAr_lp_ip (s : State) (a : ARFile) : (s.setAr a).lp.ip = s.lp.ip := rfl
@[simp] theorem setAr_lp_psr (s : State) (a : ARFile) : (s.setAr a).lp.psr = s.lp.psr := rfl
@[simp] theorem setAr_lp_cfm (s : State) (a : ARFile) : (s.setAr a).lp.cfm = s.lp.cfm := rfl
@[simp] theorem setAr_lp_gr (s : State) (a : ARFile) : (s.setAr a).lp.gr = s.lp.gr := rfl
@[simp] theorem setAr_lp_fr (s : State) (a : ARFile) : (s.setAr a).lp.fr = s.lp.fr := rfl
@[simp] theorem setAr_lp_pr (s : State) (a : ARFile) : (s.setAr a).lp.pr = s.lp.pr := rfl
@[simp] theorem setAr_lp_br (s : State) (a : ARFile) : (s.setAr a).lp.br = s.lp.br := rfl
@[simp] theorem setAr_lp_cr (s : State) (a : ARFile) : (s.setAr a).lp.cr = s.lp.cr := rfl
@[simp] theorem setAr_lp_rr (s : State) (a : ARFile) : (s.setAr a).lp.rr = s.lp.rr := rfl
@[simp] theorem setAr_lp_pkr (s : State) (a : ARFile) : (s.setAr a).lp.pkr = s.lp.pkr := rfl
@[simp] theorem setAr_lp_ibr (s : State) (a : ARFile) : (s.setAr a).lp.ibr = s.lp.ibr := rfl
@[simp] theorem setAr_lp_dbr (s : State) (a : ARFile) : (s.setAr a).lp.dbr = s.lp.dbr := rfl
@[simp] theorem setAr_lp_pmu (s : State) (a : ARFile) : (s.setAr a).lp.pmu = s.lp.pmu := rfl
@[simp] theorem setAr_lp_alat (s : State) (a : ARFile) : (s.setAr a).lp.alat = s.lp.alat := rfl
@[simp] theorem setAr_lp_thr (s : State) (a : ARFile) : (s.setAr a).lp.thr = s.lp.thr := rfl
@[simp] theorem setAr_lp_lastIp (s : State) (a : ARFile) : (s.setAr a).lp.lastIp = s.lp.lastIp := rfl
@[simp] theorem setAr_lp_bundle (s : State) (a : ARFile) : (s.setAr a).lp.bundle = s.lp.bundle := rfl
@[simp] theorem setAr_lp_ev (s : State) (a : ARFile) : (s.setAr a).lp.ev = s.lp.ev := rfl

@[simp] theorem setGrFile_lp_ip (s : State) (g : GRFile) : (s.setGrFile g).lp.ip = s.lp.ip := rfl
@[simp] theorem setGrFile_lp_psr (s : State) (g : GRFile) : (s.setGrFile g).lp.psr = s.lp.psr := rfl
@[simp] theorem setGrFile_lp_cfm (s : State) (g : GRFile) : (s.setGrFile g).lp.cfm = s.lp.cfm := rfl
@[simp] theorem setGrFile_lp_fr (s : State) (g : GRFile) : (s.setGrFile g).lp.fr = s.lp.fr := rfl
@[simp] theorem setGrFile_lp_pr (s : State) (g : GRFile) : (s.setGrFile g).lp.pr = s.lp.pr := rfl
@[simp] theorem setGrFile_lp_br (s : State) (g : GRFile) : (s.setGrFile g).lp.br = s.lp.br := rfl
@[simp] theorem setGrFile_lp_ar (s : State) (g : GRFile) : (s.setGrFile g).lp.ar = s.lp.ar := rfl
@[simp] theorem setGrFile_lp_cr (s : State) (g : GRFile) : (s.setGrFile g).lp.cr = s.lp.cr := rfl
@[simp] theorem setGrFile_lp_rr (s : State) (g : GRFile) : (s.setGrFile g).lp.rr = s.lp.rr := rfl
@[simp] theorem setGrFile_lp_pkr (s : State) (g : GRFile) : (s.setGrFile g).lp.pkr = s.lp.pkr := rfl
@[simp] theorem setGrFile_lp_ibr (s : State) (g : GRFile) : (s.setGrFile g).lp.ibr = s.lp.ibr := rfl
@[simp] theorem setGrFile_lp_dbr (s : State) (g : GRFile) : (s.setGrFile g).lp.dbr = s.lp.dbr := rfl
@[simp] theorem setGrFile_lp_pmu (s : State) (g : GRFile) : (s.setGrFile g).lp.pmu = s.lp.pmu := rfl
@[simp] theorem setGrFile_lp_alat (s : State) (g : GRFile) : (s.setGrFile g).lp.alat = s.lp.alat := rfl
@[simp] theorem setGrFile_lp_thr (s : State) (g : GRFile) : (s.setGrFile g).lp.thr = s.lp.thr := rfl
@[simp] theorem setGrFile_lp_lastIp (s : State) (g : GRFile) : (s.setGrFile g).lp.lastIp = s.lp.lastIp := rfl
@[simp] theorem setGrFile_lp_bundle (s : State) (g : GRFile) : (s.setGrFile g).lp.bundle = s.lp.bundle := rfl
@[simp] theorem setGrFile_lp_ev (s : State) (g : GRFile) : (s.setGrFile g).lp.ev = s.lp.ev := rfl

@[simp] theorem setEc_lp_ip (s : State) (e : BitVec 6) : (s.setEc e).lp.ip = s.lp.ip := rfl
@[simp] theorem setEc_lp_psr (s : State) (e : BitVec 6) : (s.setEc e).lp.psr = s.lp.psr := rfl
@[simp] theorem setEc_lp_cfm (s : State) (e : BitVec 6) : (s.setEc e).lp.cfm = s.lp.cfm := rfl
@[simp] theorem setEc_lp_gr (s : State) (e : BitVec 6) : (s.setEc e).lp.gr = s.lp.gr := rfl
@[simp] theorem setEc_lp_fr (s : State) (e : BitVec 6) : (s.setEc e).lp.fr = s.lp.fr := rfl
@[simp] theorem setEc_lp_pr (s : State) (e : BitVec 6) : (s.setEc e).lp.pr = s.lp.pr := rfl
@[simp] theorem setEc_lp_br (s : State) (e : BitVec 6) : (s.setEc e).lp.br = s.lp.br := rfl
@[simp] theorem setEc_lp_cr (s : State) (e : BitVec 6) : (s.setEc e).lp.cr = s.lp.cr := rfl
@[simp] theorem setEc_lp_rr (s : State) (e : BitVec 6) : (s.setEc e).lp.rr = s.lp.rr := rfl
@[simp] theorem setEc_lp_pkr (s : State) (e : BitVec 6) : (s.setEc e).lp.pkr = s.lp.pkr := rfl
@[simp] theorem setEc_lp_ibr (s : State) (e : BitVec 6) : (s.setEc e).lp.ibr = s.lp.ibr := rfl
@[simp] theorem setEc_lp_dbr (s : State) (e : BitVec 6) : (s.setEc e).lp.dbr = s.lp.dbr := rfl
@[simp] theorem setEc_lp_pmu (s : State) (e : BitVec 6) : (s.setEc e).lp.pmu = s.lp.pmu := rfl
@[simp] theorem setEc_lp_alat (s : State) (e : BitVec 6) : (s.setEc e).lp.alat = s.lp.alat := rfl
@[simp] theorem setEc_lp_thr (s : State) (e : BitVec 6) : (s.setEc e).lp.thr = s.lp.thr := rfl
@[simp] theorem setEc_lp_lastIp (s : State) (e : BitVec 6) : (s.setEc e).lp.lastIp = s.lp.lastIp := rfl
@[simp] theorem setEc_lp_bundle (s : State) (e : BitVec 6) : (s.setEc e).lp.bundle = s.lp.bundle := rfl
@[simp] theorem setEc_lp_ev (s : State) (e : BitVec 6) : (s.setEc e).lp.ev = s.lp.ev := rfl

@[simp] theorem setLc_lp_ip (s : State) (e : Word) : (s.setLc e).lp.ip = s.lp.ip := rfl
@[simp] theorem setLc_lp_psr (s : State) (e : Word) : (s.setLc e).lp.psr = s.lp.psr := rfl
@[simp] theorem setLc_lp_cfm (s : State) (e : Word) : (s.setLc e).lp.cfm = s.lp.cfm := rfl
@[simp] theorem setLc_lp_gr (s : State) (e : Word) : (s.setLc e).lp.gr = s.lp.gr := rfl
@[simp] theorem setLc_lp_fr (s : State) (e : Word) : (s.setLc e).lp.fr = s.lp.fr := rfl
@[simp] theorem setLc_lp_pr (s : State) (e : Word) : (s.setLc e).lp.pr = s.lp.pr := rfl
@[simp] theorem setLc_lp_br (s : State) (e : Word) : (s.setLc e).lp.br = s.lp.br := rfl
@[simp] theorem setLc_lp_cr (s : State) (e : Word) : (s.setLc e).lp.cr = s.lp.cr := rfl
@[simp] theorem setLc_lp_rr (s : State) (e : Word) : (s.setLc e).lp.rr = s.lp.rr := rfl
@[simp] theorem setLc_lp_pkr (s : State) (e : Word) : (s.setLc e).lp.pkr = s.lp.pkr := rfl
@[simp] theorem setLc_lp_ibr (s : State) (e : Word) : (s.setLc e).lp.ibr = s.lp.ibr := rfl
@[simp] theorem setLc_lp_dbr (s : State) (e : Word) : (s.setLc e).lp.dbr = s.lp.dbr := rfl
@[simp] theorem setLc_lp_pmu (s : State) (e : Word) : (s.setLc e).lp.pmu = s.lp.pmu := rfl
@[simp] theorem setLc_lp_alat (s : State) (e : Word) : (s.setLc e).lp.alat = s.lp.alat := rfl
@[simp] theorem setLc_lp_thr (s : State) (e : Word) : (s.setLc e).lp.thr = s.lp.thr := rfl
@[simp] theorem setLc_lp_lastIp (s : State) (e : Word) : (s.setLc e).lp.lastIp = s.lp.lastIp := rfl
@[simp] theorem setLc_lp_bundle (s : State) (e : Word) : (s.setLc e).lp.bundle = s.lp.bundle := rfl
@[simp] theorem setLc_lp_ev (s : State) (e : Word) : (s.setLc e).lp.ev = s.lp.ev := rfl

@[simp] theorem setFpsr_lp_ip (s : State) (w : Word) : (s.setFpsr w).lp.ip = s.lp.ip := rfl
@[simp] theorem setFpsr_lp_psr (s : State) (w : Word) : (s.setFpsr w).lp.psr = s.lp.psr := rfl
@[simp] theorem setFpsr_lp_cfm (s : State) (w : Word) : (s.setFpsr w).lp.cfm = s.lp.cfm := rfl
@[simp] theorem setFpsr_lp_gr (s : State) (w : Word) : (s.setFpsr w).lp.gr = s.lp.gr := rfl
@[simp] theorem setFpsr_lp_fr (s : State) (w : Word) : (s.setFpsr w).lp.fr = s.lp.fr := rfl
@[simp] theorem setFpsr_lp_pr (s : State) (w : Word) : (s.setFpsr w).lp.pr = s.lp.pr := rfl
@[simp] theorem setFpsr_lp_br (s : State) (w : Word) : (s.setFpsr w).lp.br = s.lp.br := rfl
@[simp] theorem setFpsr_lp_cr (s : State) (w : Word) : (s.setFpsr w).lp.cr = s.lp.cr := rfl
@[simp] theorem setFpsr_lp_rr (s : State) (w : Word) : (s.setFpsr w).lp.rr = s.lp.rr := rfl
@[simp] theorem setFpsr_lp_pkr (s : State) (w : Word) : (s.setFpsr w).lp.pkr = s.lp.pkr := rfl
@[simp] theorem setFpsr_lp_ibr (s : State) (w : Word) : (s.setFpsr w).lp.ibr = s.lp.ibr := rfl
@[simp] theorem setFpsr_lp_dbr (s : State) (w : Word) : (s.setFpsr w).lp.dbr = s.lp.dbr := rfl
@[simp] theorem setFpsr_lp_pmu (s : State) (w : Word) : (s.setFpsr w).lp.pmu = s.lp.pmu := rfl
@[simp] theorem setFpsr_lp_alat (s : State) (w : Word) : (s.setFpsr w).lp.alat = s.lp.alat := rfl
@[simp] theorem setFpsr_lp_thr (s : State) (w : Word) : (s.setFpsr w).lp.thr = s.lp.thr := rfl
@[simp] theorem setFpsr_lp_lastIp (s : State) (w : Word) : (s.setFpsr w).lp.lastIp = s.lp.lastIp := rfl
@[simp] theorem setFpsr_lp_bundle (s : State) (w : Word) : (s.setFpsr w).lp.bundle = s.lp.bundle := rfl
@[simp] theorem setFpsr_lp_ev (s : State) (w : Word) : (s.setFpsr w).lp.ev = s.lp.ev := rfl

@[simp] theorem setUserMask_lp_ip (s : State) (w : Word) : (s.setUserMask w).lp.ip = s.lp.ip := rfl
@[simp] theorem setUserMask_lp_cfm (s : State) (w : Word) : (s.setUserMask w).lp.cfm = s.lp.cfm := rfl
@[simp] theorem setUserMask_lp_gr (s : State) (w : Word) : (s.setUserMask w).lp.gr = s.lp.gr := rfl
@[simp] theorem setUserMask_lp_fr (s : State) (w : Word) : (s.setUserMask w).lp.fr = s.lp.fr := rfl
@[simp] theorem setUserMask_lp_pr (s : State) (w : Word) : (s.setUserMask w).lp.pr = s.lp.pr := rfl
@[simp] theorem setUserMask_lp_br (s : State) (w : Word) : (s.setUserMask w).lp.br = s.lp.br := rfl
@[simp] theorem setUserMask_lp_ar (s : State) (w : Word) : (s.setUserMask w).lp.ar = s.lp.ar := rfl
@[simp] theorem setUserMask_lp_cr (s : State) (w : Word) : (s.setUserMask w).lp.cr = s.lp.cr := rfl
@[simp] theorem setUserMask_lp_rr (s : State) (w : Word) : (s.setUserMask w).lp.rr = s.lp.rr := rfl
@[simp] theorem setUserMask_lp_pkr (s : State) (w : Word) : (s.setUserMask w).lp.pkr = s.lp.pkr := rfl
@[simp] theorem setUserMask_lp_ibr (s : State) (w : Word) : (s.setUserMask w).lp.ibr = s.lp.ibr := rfl
@[simp] theorem setUserMask_lp_dbr (s : State) (w : Word) : (s.setUserMask w).lp.dbr = s.lp.dbr := rfl
@[simp] theorem setUserMask_lp_pmu (s : State) (w : Word) : (s.setUserMask w).lp.pmu = s.lp.pmu := rfl
@[simp] theorem setUserMask_lp_alat (s : State) (w : Word) : (s.setUserMask w).lp.alat = s.lp.alat := rfl
@[simp] theorem setUserMask_lp_thr (s : State) (w : Word) : (s.setUserMask w).lp.thr = s.lp.thr := rfl
@[simp] theorem setUserMask_lp_lastIp (s : State) (w : Word) : (s.setUserMask w).lp.lastIp = s.lp.lastIp := rfl
@[simp] theorem setUserMask_lp_bundle (s : State) (w : Word) : (s.setUserMask w).lp.bundle = s.lp.bundle := rfl
@[simp] theorem setUserMask_lp_ev (s : State) (w : Word) : (s.setUserMask w).lp.ev = s.lp.ev := rfl

@[simp] theorem atLevel_lp_ip (s : State) (p : BitVec 2) : (s.atLevel p).lp.ip = s.lp.ip := rfl
@[simp] theorem atLevel_lp_cfm (s : State) (p : BitVec 2) : (s.atLevel p).lp.cfm = s.lp.cfm := rfl
@[simp] theorem atLevel_lp_gr (s : State) (p : BitVec 2) : (s.atLevel p).lp.gr = s.lp.gr := rfl
@[simp] theorem atLevel_lp_fr (s : State) (p : BitVec 2) : (s.atLevel p).lp.fr = s.lp.fr := rfl
@[simp] theorem atLevel_lp_pr (s : State) (p : BitVec 2) : (s.atLevel p).lp.pr = s.lp.pr := rfl
@[simp] theorem atLevel_lp_br (s : State) (p : BitVec 2) : (s.atLevel p).lp.br = s.lp.br := rfl
@[simp] theorem atLevel_lp_ar (s : State) (p : BitVec 2) : (s.atLevel p).lp.ar = s.lp.ar := rfl
@[simp] theorem atLevel_lp_cr (s : State) (p : BitVec 2) : (s.atLevel p).lp.cr = s.lp.cr := rfl
@[simp] theorem atLevel_lp_rr (s : State) (p : BitVec 2) : (s.atLevel p).lp.rr = s.lp.rr := rfl
@[simp] theorem atLevel_lp_pkr (s : State) (p : BitVec 2) : (s.atLevel p).lp.pkr = s.lp.pkr := rfl
@[simp] theorem atLevel_lp_ibr (s : State) (p : BitVec 2) : (s.atLevel p).lp.ibr = s.lp.ibr := rfl
@[simp] theorem atLevel_lp_dbr (s : State) (p : BitVec 2) : (s.atLevel p).lp.dbr = s.lp.dbr := rfl
@[simp] theorem atLevel_lp_pmu (s : State) (p : BitVec 2) : (s.atLevel p).lp.pmu = s.lp.pmu := rfl
@[simp] theorem atLevel_lp_alat (s : State) (p : BitVec 2) : (s.atLevel p).lp.alat = s.lp.alat := rfl
@[simp] theorem atLevel_lp_thr (s : State) (p : BitVec 2) : (s.atLevel p).lp.thr = s.lp.thr := rfl
@[simp] theorem atLevel_lp_lastIp (s : State) (p : BitVec 2) : (s.atLevel p).lp.lastIp = s.lp.lastIp := rfl
@[simp] theorem atLevel_lp_bundle (s : State) (p : BitVec 2) : (s.atLevel p).lp.bundle = s.lp.bundle := rfl
@[simp] theorem atLevel_lp_ev (s : State) (p : BitVec 2) : (s.atLevel p).lp.ev = s.lp.ev := rfl

@[simp] theorem removeAlat_lp_ip (s : State) (fp : Bool) (r : BitVec 7) : (s.removeAlat fp r).lp.ip = s.lp.ip := rfl
@[simp] theorem removeAlat_lp_psr (s : State) (fp : Bool) (r : BitVec 7) :
    (s.removeAlat fp r).lp.psr = s.lp.psr := rfl
@[simp] theorem removeAlat_lp_cfm (s : State) (fp : Bool) (r : BitVec 7) :
    (s.removeAlat fp r).lp.cfm = s.lp.cfm := rfl
@[simp] theorem removeAlat_lp_gr (s : State) (fp : Bool) (r : BitVec 7) : (s.removeAlat fp r).lp.gr = s.lp.gr := rfl
@[simp] theorem removeAlat_lp_fr (s : State) (fp : Bool) (r : BitVec 7) : (s.removeAlat fp r).lp.fr = s.lp.fr := rfl
@[simp] theorem removeAlat_lp_pr (s : State) (fp : Bool) (r : BitVec 7) : (s.removeAlat fp r).lp.pr = s.lp.pr := rfl
@[simp] theorem removeAlat_lp_br (s : State) (fp : Bool) (r : BitVec 7) : (s.removeAlat fp r).lp.br = s.lp.br := rfl
@[simp] theorem removeAlat_lp_ar (s : State) (fp : Bool) (r : BitVec 7) : (s.removeAlat fp r).lp.ar = s.lp.ar := rfl
@[simp] theorem removeAlat_lp_cr (s : State) (fp : Bool) (r : BitVec 7) : (s.removeAlat fp r).lp.cr = s.lp.cr := rfl
@[simp] theorem removeAlat_lp_rr (s : State) (fp : Bool) (r : BitVec 7) : (s.removeAlat fp r).lp.rr = s.lp.rr := rfl
@[simp] theorem removeAlat_lp_pkr (s : State) (fp : Bool) (r : BitVec 7) :
    (s.removeAlat fp r).lp.pkr = s.lp.pkr := rfl
@[simp] theorem removeAlat_lp_ibr (s : State) (fp : Bool) (r : BitVec 7) :
    (s.removeAlat fp r).lp.ibr = s.lp.ibr := rfl
@[simp] theorem removeAlat_lp_dbr (s : State) (fp : Bool) (r : BitVec 7) :
    (s.removeAlat fp r).lp.dbr = s.lp.dbr := rfl
@[simp] theorem removeAlat_lp_pmu (s : State) (fp : Bool) (r : BitVec 7) :
    (s.removeAlat fp r).lp.pmu = s.lp.pmu := rfl
@[simp] theorem removeAlat_lp_thr (s : State) (fp : Bool) (r : BitVec 7) :
    (s.removeAlat fp r).lp.thr = s.lp.thr := rfl
@[simp] theorem removeAlat_lp_lastIp (s : State) (fp : Bool) (r : BitVec 7) :
    (s.removeAlat fp r).lp.lastIp = s.lp.lastIp := rfl
@[simp] theorem removeAlat_lp_bundle (s : State) (fp : Bool) (r : BitVec 7) :
    (s.removeAlat fp r).lp.bundle = s.lp.bundle := rfl
@[simp] theorem removeAlat_lp_ev (s : State) (fp : Bool) (r : BitVec 7) : (s.removeAlat fp r).lp.ev = s.lp.ev := rfl

@[simp] theorem noteFlow_lp_ip (s : State) (k : FlowKind) (t : Bool) (w : Word) :
    (s.noteFlow k t w).lp.ip = s.lp.ip := rfl
@[simp] theorem noteFlow_lp_psr (s : State) (k : FlowKind) (t : Bool) (w : Word) :
    (s.noteFlow k t w).lp.psr = s.lp.psr := rfl
@[simp] theorem noteFlow_lp_cfm (s : State) (k : FlowKind) (t : Bool) (w : Word) :
    (s.noteFlow k t w).lp.cfm = s.lp.cfm := rfl
@[simp] theorem noteFlow_lp_gr (s : State) (k : FlowKind) (t : Bool) (w : Word) :
    (s.noteFlow k t w).lp.gr = s.lp.gr := rfl
@[simp] theorem noteFlow_lp_fr (s : State) (k : FlowKind) (t : Bool) (w : Word) :
    (s.noteFlow k t w).lp.fr = s.lp.fr := rfl
@[simp] theorem noteFlow_lp_pr (s : State) (k : FlowKind) (t : Bool) (w : Word) :
    (s.noteFlow k t w).lp.pr = s.lp.pr := rfl
@[simp] theorem noteFlow_lp_br (s : State) (k : FlowKind) (t : Bool) (w : Word) :
    (s.noteFlow k t w).lp.br = s.lp.br := rfl
@[simp] theorem noteFlow_lp_ar (s : State) (k : FlowKind) (t : Bool) (w : Word) :
    (s.noteFlow k t w).lp.ar = s.lp.ar := rfl
@[simp] theorem noteFlow_lp_cr (s : State) (k : FlowKind) (t : Bool) (w : Word) :
    (s.noteFlow k t w).lp.cr = s.lp.cr := rfl
@[simp] theorem noteFlow_lp_rr (s : State) (k : FlowKind) (t : Bool) (w : Word) :
    (s.noteFlow k t w).lp.rr = s.lp.rr := rfl
@[simp] theorem noteFlow_lp_pkr (s : State) (k : FlowKind) (t : Bool) (w : Word) :
    (s.noteFlow k t w).lp.pkr = s.lp.pkr := rfl
@[simp] theorem noteFlow_lp_ibr (s : State) (k : FlowKind) (t : Bool) (w : Word) :
    (s.noteFlow k t w).lp.ibr = s.lp.ibr := rfl
@[simp] theorem noteFlow_lp_dbr (s : State) (k : FlowKind) (t : Bool) (w : Word) :
    (s.noteFlow k t w).lp.dbr = s.lp.dbr := rfl
@[simp] theorem noteFlow_lp_pmu (s : State) (k : FlowKind) (t : Bool) (w : Word) :
    (s.noteFlow k t w).lp.pmu = s.lp.pmu := rfl
@[simp] theorem noteFlow_lp_alat (s : State) (k : FlowKind) (t : Bool) (w : Word) :
    (s.noteFlow k t w).lp.alat = s.lp.alat := rfl
@[simp] theorem noteFlow_lp_thr (s : State) (k : FlowKind) (t : Bool) (w : Word) :
    (s.noteFlow k t w).lp.thr = s.lp.thr := rfl
@[simp] theorem noteFlow_lp_lastIp (s : State) (k : FlowKind) (t : Bool) (w : Word) :
    (s.noteFlow k t w).lp.lastIp = s.lp.lastIp := rfl
@[simp] theorem noteFlow_lp_bundle (s : State) (k : FlowKind) (t : Bool) (w : Word) :
    (s.noteFlow k t w).lp.bundle = s.lp.bundle := rfl

@[simp] theorem noteData_lp_ip (s : State) (k : DataKind) (fp : Bool) (w : Word) (n : Nat) (a : MemAttr) (x : Option Nat) :
    (s.noteData k fp w n a x).lp.ip = s.lp.ip := rfl
@[simp] theorem noteData_lp_psr (s : State) (k : DataKind) (fp : Bool) (w : Word) (n : Nat) (a : MemAttr) (x : Option Nat) :
    (s.noteData k fp w n a x).lp.psr = s.lp.psr := rfl
@[simp] theorem noteData_lp_cfm (s : State) (k : DataKind) (fp : Bool) (w : Word) (n : Nat) (a : MemAttr) (x : Option Nat) :
    (s.noteData k fp w n a x).lp.cfm = s.lp.cfm := rfl
@[simp] theorem noteData_lp_gr (s : State) (k : DataKind) (fp : Bool) (w : Word) (n : Nat) (a : MemAttr) (x : Option Nat) :
    (s.noteData k fp w n a x).lp.gr = s.lp.gr := rfl
@[simp] theorem noteData_lp_fr (s : State) (k : DataKind) (fp : Bool) (w : Word) (n : Nat) (a : MemAttr) (x : Option Nat) :
    (s.noteData k fp w n a x).lp.fr = s.lp.fr := rfl
@[simp] theorem noteData_lp_pr (s : State) (k : DataKind) (fp : Bool) (w : Word) (n : Nat) (a : MemAttr) (x : Option Nat) :
    (s.noteData k fp w n a x).lp.pr = s.lp.pr := rfl
@[simp] theorem noteData_lp_br (s : State) (k : DataKind) (fp : Bool) (w : Word) (n : Nat) (a : MemAttr) (x : Option Nat) :
    (s.noteData k fp w n a x).lp.br = s.lp.br := rfl
@[simp] theorem noteData_lp_ar (s : State) (k : DataKind) (fp : Bool) (w : Word) (n : Nat) (a : MemAttr) (x : Option Nat) :
    (s.noteData k fp w n a x).lp.ar = s.lp.ar := rfl
@[simp] theorem noteData_lp_cr (s : State) (k : DataKind) (fp : Bool) (w : Word) (n : Nat) (a : MemAttr) (x : Option Nat) :
    (s.noteData k fp w n a x).lp.cr = s.lp.cr := rfl
@[simp] theorem noteData_lp_rr (s : State) (k : DataKind) (fp : Bool) (w : Word) (n : Nat) (a : MemAttr) (x : Option Nat) :
    (s.noteData k fp w n a x).lp.rr = s.lp.rr := rfl
@[simp] theorem noteData_lp_pkr (s : State) (k : DataKind) (fp : Bool) (w : Word) (n : Nat) (a : MemAttr) (x : Option Nat) :
    (s.noteData k fp w n a x).lp.pkr = s.lp.pkr := rfl
@[simp] theorem noteData_lp_ibr (s : State) (k : DataKind) (fp : Bool) (w : Word) (n : Nat) (a : MemAttr) (x : Option Nat) :
    (s.noteData k fp w n a x).lp.ibr = s.lp.ibr := rfl
@[simp] theorem noteData_lp_dbr (s : State) (k : DataKind) (fp : Bool) (w : Word) (n : Nat) (a : MemAttr) (x : Option Nat) :
    (s.noteData k fp w n a x).lp.dbr = s.lp.dbr := rfl
@[simp] theorem noteData_lp_pmu (s : State) (k : DataKind) (fp : Bool) (w : Word) (n : Nat) (a : MemAttr) (x : Option Nat) :
    (s.noteData k fp w n a x).lp.pmu = s.lp.pmu := rfl
@[simp] theorem noteData_lp_alat (s : State) (k : DataKind) (fp : Bool) (w : Word) (n : Nat) (a : MemAttr) (x : Option Nat) :
    (s.noteData k fp w n a x).lp.alat = s.lp.alat := rfl
@[simp] theorem noteData_lp_thr (s : State) (k : DataKind) (fp : Bool) (w : Word) (n : Nat) (a : MemAttr) (x : Option Nat) :
    (s.noteData k fp w n a x).lp.thr = s.lp.thr := rfl
@[simp] theorem noteData_lp_lastIp (s : State) (k : DataKind) (fp : Bool) (w : Word) (n : Nat) (a : MemAttr) (x : Option Nat) :
    (s.noteData k fp w n a x).lp.lastIp = s.lp.lastIp := rfl
@[simp] theorem noteData_lp_bundle (s : State) (k : DataKind) (fp : Bool) (w : Word) (n : Nat) (a : MemAttr) (x : Option Nat) :
    (s.noteData k fp w n a x).lp.bundle = s.lp.bundle := rfl

@[simp] theorem noteCheck_lp_ip (s : State) (a l f c x : Bool) : (s.noteCheck a l f c x).lp.ip = s.lp.ip := rfl
@[simp] theorem noteCheck_lp_psr (s : State) (a l f c x : Bool) : (s.noteCheck a l f c x).lp.psr = s.lp.psr := rfl
@[simp] theorem noteCheck_lp_cfm (s : State) (a l f c x : Bool) : (s.noteCheck a l f c x).lp.cfm = s.lp.cfm := rfl
@[simp] theorem noteCheck_lp_gr (s : State) (a l f c x : Bool) : (s.noteCheck a l f c x).lp.gr = s.lp.gr := rfl
@[simp] theorem noteCheck_lp_fr (s : State) (a l f c x : Bool) : (s.noteCheck a l f c x).lp.fr = s.lp.fr := rfl
@[simp] theorem noteCheck_lp_pr (s : State) (a l f c x : Bool) : (s.noteCheck a l f c x).lp.pr = s.lp.pr := rfl
@[simp] theorem noteCheck_lp_br (s : State) (a l f c x : Bool) : (s.noteCheck a l f c x).lp.br = s.lp.br := rfl
@[simp] theorem noteCheck_lp_ar (s : State) (a l f c x : Bool) : (s.noteCheck a l f c x).lp.ar = s.lp.ar := rfl
@[simp] theorem noteCheck_lp_cr (s : State) (a l f c x : Bool) : (s.noteCheck a l f c x).lp.cr = s.lp.cr := rfl
@[simp] theorem noteCheck_lp_rr (s : State) (a l f c x : Bool) : (s.noteCheck a l f c x).lp.rr = s.lp.rr := rfl
@[simp] theorem noteCheck_lp_pkr (s : State) (a l f c x : Bool) : (s.noteCheck a l f c x).lp.pkr = s.lp.pkr := rfl
@[simp] theorem noteCheck_lp_ibr (s : State) (a l f c x : Bool) : (s.noteCheck a l f c x).lp.ibr = s.lp.ibr := rfl
@[simp] theorem noteCheck_lp_dbr (s : State) (a l f c x : Bool) : (s.noteCheck a l f c x).lp.dbr = s.lp.dbr := rfl
@[simp] theorem noteCheck_lp_pmu (s : State) (a l f c x : Bool) : (s.noteCheck a l f c x).lp.pmu = s.lp.pmu := rfl
@[simp] theorem noteCheck_lp_alat (s : State) (a l f c x : Bool) : (s.noteCheck a l f c x).lp.alat = s.lp.alat := rfl
@[simp] theorem noteCheck_lp_thr (s : State) (a l f c x : Bool) : (s.noteCheck a l f c x).lp.thr = s.lp.thr := rfl
@[simp] theorem noteCheck_lp_lastIp (s : State) (a l f c x : Bool) :
    (s.noteCheck a l f c x).lp.lastIp = s.lp.lastIp := rfl
@[simp] theorem noteCheck_lp_bundle (s : State) (a l f c x : Bool) :
    (s.noteCheck a l f c x).lp.bundle = s.lp.bundle := rfl

@[simp] theorem noteFpOps_lp_ip (s : State) (n : Nat) : (s.noteFpOps n).lp.ip = s.lp.ip := rfl
@[simp] theorem noteFpOps_lp_psr (s : State) (n : Nat) : (s.noteFpOps n).lp.psr = s.lp.psr := rfl
@[simp] theorem noteFpOps_lp_cfm (s : State) (n : Nat) : (s.noteFpOps n).lp.cfm = s.lp.cfm := rfl
@[simp] theorem noteFpOps_lp_gr (s : State) (n : Nat) : (s.noteFpOps n).lp.gr = s.lp.gr := rfl
@[simp] theorem noteFpOps_lp_fr (s : State) (n : Nat) : (s.noteFpOps n).lp.fr = s.lp.fr := rfl
@[simp] theorem noteFpOps_lp_pr (s : State) (n : Nat) : (s.noteFpOps n).lp.pr = s.lp.pr := rfl
@[simp] theorem noteFpOps_lp_br (s : State) (n : Nat) : (s.noteFpOps n).lp.br = s.lp.br := rfl
@[simp] theorem noteFpOps_lp_ar (s : State) (n : Nat) : (s.noteFpOps n).lp.ar = s.lp.ar := rfl
@[simp] theorem noteFpOps_lp_cr (s : State) (n : Nat) : (s.noteFpOps n).lp.cr = s.lp.cr := rfl
@[simp] theorem noteFpOps_lp_rr (s : State) (n : Nat) : (s.noteFpOps n).lp.rr = s.lp.rr := rfl
@[simp] theorem noteFpOps_lp_pkr (s : State) (n : Nat) : (s.noteFpOps n).lp.pkr = s.lp.pkr := rfl
@[simp] theorem noteFpOps_lp_ibr (s : State) (n : Nat) : (s.noteFpOps n).lp.ibr = s.lp.ibr := rfl
@[simp] theorem noteFpOps_lp_dbr (s : State) (n : Nat) : (s.noteFpOps n).lp.dbr = s.lp.dbr := rfl
@[simp] theorem noteFpOps_lp_pmu (s : State) (n : Nat) : (s.noteFpOps n).lp.pmu = s.lp.pmu := rfl
@[simp] theorem noteFpOps_lp_alat (s : State) (n : Nat) : (s.noteFpOps n).lp.alat = s.lp.alat := rfl
@[simp] theorem noteFpOps_lp_thr (s : State) (n : Nat) : (s.noteFpOps n).lp.thr = s.lp.thr := rfl
@[simp] theorem noteFpOps_lp_lastIp (s : State) (n : Nat) : (s.noteFpOps n).lp.lastIp = s.lp.lastIp := rfl
@[simp] theorem noteFpOps_lp_bundle (s : State) (n : Nat) : (s.noteFpOps n).lp.bundle = s.lp.bundle := rfl

@[simp] theorem noteRse_lp_ip (s : State) : (s.noteRse).lp.ip = s.lp.ip := rfl
@[simp] theorem noteRse_lp_psr (s : State) : (s.noteRse).lp.psr = s.lp.psr := rfl
@[simp] theorem noteRse_lp_cfm (s : State) : (s.noteRse).lp.cfm = s.lp.cfm := rfl
@[simp] theorem noteRse_lp_gr (s : State) : (s.noteRse).lp.gr = s.lp.gr := rfl
@[simp] theorem noteRse_lp_fr (s : State) : (s.noteRse).lp.fr = s.lp.fr := rfl
@[simp] theorem noteRse_lp_pr (s : State) : (s.noteRse).lp.pr = s.lp.pr := rfl
@[simp] theorem noteRse_lp_br (s : State) : (s.noteRse).lp.br = s.lp.br := rfl
@[simp] theorem noteRse_lp_ar (s : State) : (s.noteRse).lp.ar = s.lp.ar := rfl
@[simp] theorem noteRse_lp_cr (s : State) : (s.noteRse).lp.cr = s.lp.cr := rfl
@[simp] theorem noteRse_lp_rr (s : State) : (s.noteRse).lp.rr = s.lp.rr := rfl
@[simp] theorem noteRse_lp_pkr (s : State) : (s.noteRse).lp.pkr = s.lp.pkr := rfl
@[simp] theorem noteRse_lp_ibr (s : State) : (s.noteRse).lp.ibr = s.lp.ibr := rfl
@[simp] theorem noteRse_lp_dbr (s : State) : (s.noteRse).lp.dbr = s.lp.dbr := rfl
@[simp] theorem noteRse_lp_pmu (s : State) : (s.noteRse).lp.pmu = s.lp.pmu := rfl
@[simp] theorem noteRse_lp_alat (s : State) : (s.noteRse).lp.alat = s.lp.alat := rfl
@[simp] theorem noteRse_lp_thr (s : State) : (s.noteRse).lp.thr = s.lp.thr := rfl
@[simp] theorem noteRse_lp_lastIp (s : State) : (s.noteRse).lp.lastIp = s.lp.lastIp := rfl
@[simp] theorem noteRse_lp_bundle (s : State) : (s.noteRse).lp.bundle = s.lp.bundle := rfl

@[simp] theorem deliver_lp_cfm (e : Exc) (ei : BitVec 2) (s : State) : (deliver e ei s).lp.cfm = s.lp.cfm := rfl
@[simp] theorem deliver_lp_gr (e : Exc) (ei : BitVec 2) (s : State) : (deliver e ei s).lp.gr = s.lp.gr := rfl
@[simp] theorem deliver_lp_fr (e : Exc) (ei : BitVec 2) (s : State) : (deliver e ei s).lp.fr = s.lp.fr := rfl
@[simp] theorem deliver_lp_pr (e : Exc) (ei : BitVec 2) (s : State) : (deliver e ei s).lp.pr = s.lp.pr := rfl
@[simp] theorem deliver_lp_br (e : Exc) (ei : BitVec 2) (s : State) : (deliver e ei s).lp.br = s.lp.br := rfl
@[simp] theorem deliver_lp_ar (e : Exc) (ei : BitVec 2) (s : State) : (deliver e ei s).lp.ar = s.lp.ar := rfl
@[simp] theorem deliver_lp_rr (e : Exc) (ei : BitVec 2) (s : State) : (deliver e ei s).lp.rr = s.lp.rr := rfl
@[simp] theorem deliver_lp_pkr (e : Exc) (ei : BitVec 2) (s : State) : (deliver e ei s).lp.pkr = s.lp.pkr := rfl
@[simp] theorem deliver_lp_ibr (e : Exc) (ei : BitVec 2) (s : State) : (deliver e ei s).lp.ibr = s.lp.ibr := rfl
@[simp] theorem deliver_lp_dbr (e : Exc) (ei : BitVec 2) (s : State) : (deliver e ei s).lp.dbr = s.lp.dbr := rfl
@[simp] theorem deliver_lp_pmu (e : Exc) (ei : BitVec 2) (s : State) : (deliver e ei s).lp.pmu = s.lp.pmu := rfl
@[simp] theorem deliver_lp_alat (e : Exc) (ei : BitVec 2) (s : State) : (deliver e ei s).lp.alat = s.lp.alat := rfl
@[simp] theorem deliver_lp_thr (e : Exc) (ei : BitVec 2) (s : State) : (deliver e ei s).lp.thr = s.lp.thr := rfl
@[simp] theorem deliver_lp_lastIp (e : Exc) (ei : BitVec 2) (s : State) :
    (deliver e ei s).lp.lastIp = s.lp.lastIp := rfl
@[simp] theorem deliver_lp_bundle (e : Exc) (ei : BitVec 2) (s : State) :
    (deliver e ei s).lp.bundle = s.lp.bundle := rfl

@[simp] theorem advance_lp_cfm (s u : State) (e : Ending) : (advance s u e).lp.cfm = u.lp.cfm := rfl
@[simp] theorem advance_lp_gr (s u : State) (e : Ending) : (advance s u e).lp.gr = u.lp.gr := rfl
@[simp] theorem advance_lp_fr (s u : State) (e : Ending) : (advance s u e).lp.fr = u.lp.fr := rfl
@[simp] theorem advance_lp_pr (s u : State) (e : Ending) : (advance s u e).lp.pr = u.lp.pr := rfl
@[simp] theorem advance_lp_br (s u : State) (e : Ending) : (advance s u e).lp.br = u.lp.br := rfl
@[simp] theorem advance_lp_ar (s u : State) (e : Ending) : (advance s u e).lp.ar = u.lp.ar := rfl
@[simp] theorem advance_lp_cr (s u : State) (e : Ending) : (advance s u e).lp.cr = u.lp.cr := rfl
@[simp] theorem advance_lp_rr (s u : State) (e : Ending) : (advance s u e).lp.rr = u.lp.rr := rfl
@[simp] theorem advance_lp_pkr (s u : State) (e : Ending) : (advance s u e).lp.pkr = u.lp.pkr := rfl
@[simp] theorem advance_lp_ibr (s u : State) (e : Ending) : (advance s u e).lp.ibr = u.lp.ibr := rfl
@[simp] theorem advance_lp_dbr (s u : State) (e : Ending) : (advance s u e).lp.dbr = u.lp.dbr := rfl
@[simp] theorem advance_lp_pmu (s u : State) (e : Ending) : (advance s u e).lp.pmu = u.lp.pmu := rfl
@[simp] theorem advance_lp_alat (s u : State) (e : Ending) : (advance s u e).lp.alat = u.lp.alat := rfl
@[simp] theorem advance_lp_thr (s u : State) (e : Ending) : (advance s u e).lp.thr = u.lp.thr := rfl
@[simp] theorem advance_lp_bundle (s u : State) (e : Ending) : (advance s u e).lp.bundle = u.lp.bundle := rfl
@[simp] theorem advance_lp_ev (s u : State) (e : Ending) : (advance s u e).lp.ev = u.lp.ev := rfl

@[simp] theorem fallThrough_lp_cfm (s u : State) : (fallThrough s u).lp.cfm = u.lp.cfm := rfl
@[simp] theorem fallThrough_lp_gr (s u : State) : (fallThrough s u).lp.gr = u.lp.gr := rfl
@[simp] theorem fallThrough_lp_fr (s u : State) : (fallThrough s u).lp.fr = u.lp.fr := rfl
@[simp] theorem fallThrough_lp_pr (s u : State) : (fallThrough s u).lp.pr = u.lp.pr := rfl
@[simp] theorem fallThrough_lp_br (s u : State) : (fallThrough s u).lp.br = u.lp.br := rfl
@[simp] theorem fallThrough_lp_ar (s u : State) : (fallThrough s u).lp.ar = u.lp.ar := rfl
@[simp] theorem fallThrough_lp_cr (s u : State) : (fallThrough s u).lp.cr = u.lp.cr := rfl
@[simp] theorem fallThrough_lp_rr (s u : State) : (fallThrough s u).lp.rr = u.lp.rr := rfl
@[simp] theorem fallThrough_lp_pkr (s u : State) : (fallThrough s u).lp.pkr = u.lp.pkr := rfl
@[simp] theorem fallThrough_lp_ibr (s u : State) : (fallThrough s u).lp.ibr = u.lp.ibr := rfl
@[simp] theorem fallThrough_lp_dbr (s u : State) : (fallThrough s u).lp.dbr = u.lp.dbr := rfl
@[simp] theorem fallThrough_lp_pmu (s u : State) : (fallThrough s u).lp.pmu = u.lp.pmu := rfl
@[simp] theorem fallThrough_lp_alat (s u : State) : (fallThrough s u).lp.alat = u.lp.alat := rfl
@[simp] theorem fallThrough_lp_thr (s u : State) : (fallThrough s u).lp.thr = u.lp.thr := rfl
@[simp] theorem fallThrough_lp_bundle (s u : State) : (fallThrough s u).lp.bundle = u.lp.bundle := rfl
@[simp] theorem fallThrough_lp_ev (s u : State) : (fallThrough s u).lp.ev = u.lp.ev := rfl

@[simp] theorem restoreContext_lp_cfm (s : State) : (restoreContext s).lp.cfm = s.lp.cfm := rfl
@[simp] theorem restoreContext_lp_gr (s : State) : (restoreContext s).lp.gr = s.lp.gr := rfl
@[simp] theorem restoreContext_lp_fr (s : State) : (restoreContext s).lp.fr = s.lp.fr := rfl
@[simp] theorem restoreContext_lp_pr (s : State) : (restoreContext s).lp.pr = s.lp.pr := rfl
@[simp] theorem restoreContext_lp_br (s : State) : (restoreContext s).lp.br = s.lp.br := rfl
@[simp] theorem restoreContext_lp_ar (s : State) : (restoreContext s).lp.ar = s.lp.ar := rfl
@[simp] theorem restoreContext_lp_cr (s : State) : (restoreContext s).lp.cr = s.lp.cr := rfl
@[simp] theorem restoreContext_lp_rr (s : State) : (restoreContext s).lp.rr = s.lp.rr := rfl
@[simp] theorem restoreContext_lp_pkr (s : State) : (restoreContext s).lp.pkr = s.lp.pkr := rfl
@[simp] theorem restoreContext_lp_ibr (s : State) : (restoreContext s).lp.ibr = s.lp.ibr := rfl
@[simp] theorem restoreContext_lp_dbr (s : State) : (restoreContext s).lp.dbr = s.lp.dbr := rfl
@[simp] theorem restoreContext_lp_pmu (s : State) : (restoreContext s).lp.pmu = s.lp.pmu := rfl
@[simp] theorem restoreContext_lp_alat (s : State) : (restoreContext s).lp.alat = s.lp.alat := rfl
@[simp] theorem restoreContext_lp_thr (s : State) : (restoreContext s).lp.thr = s.lp.thr := rfl
@[simp] theorem restoreContext_lp_bundle (s : State) : (restoreContext s).lp.bundle = s.lp.bundle := rfl
@[simp] theorem restoreContext_lp_ev (s : State) : (restoreContext s).lp.ev = s.lp.ev := rfl

@[simp] theorem setPr_ip (l : LP) (p : BitVec 6) (b : Bool) :
    (l.setPr p b).ip = l.ip := by
  unfold LP.setPr; split <;> rfl
@[simp] theorem setPr_psr (l : LP) (p : BitVec 6) (b : Bool) :
    (l.setPr p b).psr = l.psr := by
  unfold LP.setPr; split <;> rfl
@[simp] theorem setPr_cfm (l : LP) (p : BitVec 6) (b : Bool) :
    (l.setPr p b).cfm = l.cfm := by
  unfold LP.setPr; split <;> rfl
@[simp] theorem setPr_gr (l : LP) (p : BitVec 6) (b : Bool) :
    (l.setPr p b).gr = l.gr := by
  unfold LP.setPr; split <;> rfl
@[simp] theorem setPr_fr (l : LP) (p : BitVec 6) (b : Bool) :
    (l.setPr p b).fr = l.fr := by
  unfold LP.setPr; split <;> rfl
@[simp] theorem setPr_br (l : LP) (p : BitVec 6) (b : Bool) :
    (l.setPr p b).br = l.br := by
  unfold LP.setPr; split <;> rfl
@[simp] theorem setPr_ar (l : LP) (p : BitVec 6) (b : Bool) :
    (l.setPr p b).ar = l.ar := by
  unfold LP.setPr; split <;> rfl
@[simp] theorem setPr_cr (l : LP) (p : BitVec 6) (b : Bool) :
    (l.setPr p b).cr = l.cr := by
  unfold LP.setPr; split <;> rfl
@[simp] theorem setPr_rr (l : LP) (p : BitVec 6) (b : Bool) :
    (l.setPr p b).rr = l.rr := by
  unfold LP.setPr; split <;> rfl
@[simp] theorem setPr_pkr (l : LP) (p : BitVec 6) (b : Bool) :
    (l.setPr p b).pkr = l.pkr := by
  unfold LP.setPr; split <;> rfl
@[simp] theorem setPr_ibr (l : LP) (p : BitVec 6) (b : Bool) :
    (l.setPr p b).ibr = l.ibr := by
  unfold LP.setPr; split <;> rfl
@[simp] theorem setPr_dbr (l : LP) (p : BitVec 6) (b : Bool) :
    (l.setPr p b).dbr = l.dbr := by
  unfold LP.setPr; split <;> rfl
@[simp] theorem setPr_pmu (l : LP) (p : BitVec 6) (b : Bool) :
    (l.setPr p b).pmu = l.pmu := by
  unfold LP.setPr; split <;> rfl
@[simp] theorem setPr_alat (l : LP) (p : BitVec 6) (b : Bool) :
    (l.setPr p b).alat = l.alat := by
  unfold LP.setPr; split <;> rfl
@[simp] theorem setPr_thr (l : LP) (p : BitVec 6) (b : Bool) :
    (l.setPr p b).thr = l.thr := by
  unfold LP.setPr; split <;> rfl
@[simp] theorem setPr_lastIp (l : LP) (p : BitVec 6) (b : Bool) :
    (l.setPr p b).lastIp = l.lastIp := by
  unfold LP.setPr; split <;> rfl
@[simp] theorem setPr_bundle (l : LP) (p : BitVec 6) (b : Bool) :
    (l.setPr p b).bundle = l.bundle := by
  unfold LP.setPr; split <;> rfl
@[simp] theorem setPr_ev (l : LP) (p : BitVec 6) (b : Bool) :
    (l.setPr p b).ev = l.ev := by
  unfold LP.setPr; split <;> rfl

@[simp] theorem setPr2_lp_ip (s : State) (p q : BitVec 6) (a b : Bool) :
    (s.setPr2 p q a b).lp.ip = s.lp.ip := by
  simp [State.setPr2]
@[simp] theorem setPr2_lp_psr (s : State) (p q : BitVec 6) (a b : Bool) :
    (s.setPr2 p q a b).lp.psr = s.lp.psr := by
  simp [State.setPr2]
@[simp] theorem setPr2_lp_cfm (s : State) (p q : BitVec 6) (a b : Bool) :
    (s.setPr2 p q a b).lp.cfm = s.lp.cfm := by
  simp [State.setPr2]
@[simp] theorem setPr2_lp_gr (s : State) (p q : BitVec 6) (a b : Bool) :
    (s.setPr2 p q a b).lp.gr = s.lp.gr := by
  simp [State.setPr2]
@[simp] theorem setPr2_lp_fr (s : State) (p q : BitVec 6) (a b : Bool) :
    (s.setPr2 p q a b).lp.fr = s.lp.fr := by
  simp [State.setPr2]
@[simp] theorem setPr2_lp_br (s : State) (p q : BitVec 6) (a b : Bool) :
    (s.setPr2 p q a b).lp.br = s.lp.br := by
  simp [State.setPr2]
@[simp] theorem setPr2_lp_ar (s : State) (p q : BitVec 6) (a b : Bool) :
    (s.setPr2 p q a b).lp.ar = s.lp.ar := by
  simp [State.setPr2]
@[simp] theorem setPr2_lp_cr (s : State) (p q : BitVec 6) (a b : Bool) :
    (s.setPr2 p q a b).lp.cr = s.lp.cr := by
  simp [State.setPr2]
@[simp] theorem setPr2_lp_rr (s : State) (p q : BitVec 6) (a b : Bool) :
    (s.setPr2 p q a b).lp.rr = s.lp.rr := by
  simp [State.setPr2]
@[simp] theorem setPr2_lp_pkr (s : State) (p q : BitVec 6) (a b : Bool) :
    (s.setPr2 p q a b).lp.pkr = s.lp.pkr := by
  simp [State.setPr2]
@[simp] theorem setPr2_lp_ibr (s : State) (p q : BitVec 6) (a b : Bool) :
    (s.setPr2 p q a b).lp.ibr = s.lp.ibr := by
  simp [State.setPr2]
@[simp] theorem setPr2_lp_dbr (s : State) (p q : BitVec 6) (a b : Bool) :
    (s.setPr2 p q a b).lp.dbr = s.lp.dbr := by
  simp [State.setPr2]
@[simp] theorem setPr2_lp_pmu (s : State) (p q : BitVec 6) (a b : Bool) :
    (s.setPr2 p q a b).lp.pmu = s.lp.pmu := by
  simp [State.setPr2]
@[simp] theorem setPr2_lp_alat (s : State) (p q : BitVec 6) (a b : Bool) :
    (s.setPr2 p q a b).lp.alat = s.lp.alat := by
  simp [State.setPr2]
@[simp] theorem setPr2_lp_thr (s : State) (p q : BitVec 6) (a b : Bool) :
    (s.setPr2 p q a b).lp.thr = s.lp.thr := by
  simp [State.setPr2]
@[simp] theorem setPr2_lp_lastIp (s : State) (p q : BitVec 6) (a b : Bool) :
    (s.setPr2 p q a b).lp.lastIp = s.lp.lastIp := by
  simp [State.setPr2]
@[simp] theorem setPr2_lp_bundle (s : State) (p q : BitVec 6) (a b : Bool) :
    (s.setPr2 p q a b).lp.bundle = s.lp.bundle := by
  simp [State.setPr2]
@[simp] theorem setPr2_lp_ev (s : State) (p q : BitVec 6) (a b : Bool) :
    (s.setPr2 p q a b).lp.ev = s.lp.ev := by
  simp [State.setPr2]

@[simp] theorem postInc_bg (s : State) (r : BitVec 7) (b i : Reg) (inc : Inc) :
    (s.postInc r b inc i).bg = s.bg := by
  unfold State.postInc; split <;> simp
@[simp] theorem postInc_thread1 (s : State) (r : BitVec 7) (b i : Reg) (inc : Inc) :
    (s.postInc r b inc i).thread1 = s.thread1 := by
  unfold State.postInc; split <;> simp
@[simp] theorem postInc_itc (s : State) (r : BitVec 7) (b i : Reg) (inc : Inc) :
    (s.postInc r b inc i).itc = s.itc := by
  unfold State.postInc; split <;> simp
@[simp] theorem postInc_dtr (s : State) (r : BitVec 7) (b i : Reg) (inc : Inc) :
    (s.postInc r b inc i).dtr = s.dtr := by
  unfold State.postInc; split <;> simp
@[simp] theorem postInc_itr (s : State) (r : BitVec 7) (b i : Reg) (inc : Inc) :
    (s.postInc r b inc i).itr = s.itr := by
  unfold State.postInc; split <;> simp
@[simp] theorem postInc_dtc (s : State) (r : BitVec 7) (b i : Reg) (inc : Inc) :
    (s.postInc r b inc i).dtc = s.dtc := by
  unfold State.postInc; split <;> simp
@[simp] theorem postInc_itcache (s : State) (r : BitVec 7) (b i : Reg) (inc : Inc) :
    (s.postInc r b inc i).itcache = s.itcache := by
  unfold State.postInc; split <;> simp
@[simp] theorem postInc_mem (s : State) (r : BitVec 7) (b i : Reg) (inc : Inc) :
    (s.postInc r b inc i).mem = s.mem := by
  unfold State.postInc; split <;> simp
@[simp] theorem postInc_uncore (s : State) (r : BitVec 7) (b i : Reg) (inc : Inc) :
    (s.postInc r b inc i).uncore = s.uncore := by
  unfold State.postInc; split <;> simp
@[simp] theorem postInc_remote (s : State) (r : BitVec 7) (b i : Reg) (inc : Inc) :
    (s.postInc r b inc i).remote = s.remote := by
  unfold State.postInc; split <;> simp
@[simp] theorem postInc_coherenceOpt (s : State) (r : BitVec 7) (b i : Reg) (inc : Inc) :
    (s.postInc r b inc i).coherenceOpt = s.coherenceOpt := by
  unfold State.postInc; split <;> simp
@[simp] theorem postInc_params (s : State) (r : BitVec 7) (b i : Reg) (inc : Inc) :
    (s.postInc r b inc i).params = s.params := by
  unfold State.postInc; split <;> simp
@[simp] theorem postInc_free (s : State) (r : BitVec 7) (b i : Reg) (inc : Inc) :
    (s.postInc r b inc i).free = s.free := by
  unfold State.postInc; split <;> simp
@[simp] theorem postInc_rucAhead (s : State) (r : BitVec 7) (b i : Reg) (inc : Inc) :
    (s.postInc r b inc i).rucAhead = s.rucAhead := by
  unfold State.postInc; split <;> simp
@[simp] theorem postInc_lp_ip (s : State) (r : BitVec 7) (b i : Reg) (inc : Inc) :
    (s.postInc r b inc i).lp.ip = s.lp.ip := by
  unfold State.postInc; split <;> simp
@[simp] theorem postInc_lp_psr (s : State) (r : BitVec 7) (b i : Reg) (inc : Inc) :
    (s.postInc r b inc i).lp.psr = s.lp.psr := by
  unfold State.postInc; split <;> simp
@[simp] theorem postInc_lp_cfm (s : State) (r : BitVec 7) (b i : Reg) (inc : Inc) :
    (s.postInc r b inc i).lp.cfm = s.lp.cfm := by
  unfold State.postInc; split <;> simp
@[simp] theorem postInc_lp_fr (s : State) (r : BitVec 7) (b i : Reg) (inc : Inc) :
    (s.postInc r b inc i).lp.fr = s.lp.fr := by
  unfold State.postInc; split <;> simp
@[simp] theorem postInc_lp_pr (s : State) (r : BitVec 7) (b i : Reg) (inc : Inc) :
    (s.postInc r b inc i).lp.pr = s.lp.pr := by
  unfold State.postInc; split <;> simp
@[simp] theorem postInc_lp_br (s : State) (r : BitVec 7) (b i : Reg) (inc : Inc) :
    (s.postInc r b inc i).lp.br = s.lp.br := by
  unfold State.postInc; split <;> simp
@[simp] theorem postInc_lp_ar (s : State) (r : BitVec 7) (b i : Reg) (inc : Inc) :
    (s.postInc r b inc i).lp.ar = s.lp.ar := by
  unfold State.postInc; split <;> simp
@[simp] theorem postInc_lp_cr (s : State) (r : BitVec 7) (b i : Reg) (inc : Inc) :
    (s.postInc r b inc i).lp.cr = s.lp.cr := by
  unfold State.postInc; split <;> simp
@[simp] theorem postInc_lp_rr (s : State) (r : BitVec 7) (b i : Reg) (inc : Inc) :
    (s.postInc r b inc i).lp.rr = s.lp.rr := by
  unfold State.postInc; split <;> simp
@[simp] theorem postInc_lp_pkr (s : State) (r : BitVec 7) (b i : Reg) (inc : Inc) :
    (s.postInc r b inc i).lp.pkr = s.lp.pkr := by
  unfold State.postInc; split <;> simp
@[simp] theorem postInc_lp_ibr (s : State) (r : BitVec 7) (b i : Reg) (inc : Inc) :
    (s.postInc r b inc i).lp.ibr = s.lp.ibr := by
  unfold State.postInc; split <;> simp
@[simp] theorem postInc_lp_dbr (s : State) (r : BitVec 7) (b i : Reg) (inc : Inc) :
    (s.postInc r b inc i).lp.dbr = s.lp.dbr := by
  unfold State.postInc; split <;> simp
@[simp] theorem postInc_lp_pmu (s : State) (r : BitVec 7) (b i : Reg) (inc : Inc) :
    (s.postInc r b inc i).lp.pmu = s.lp.pmu := by
  unfold State.postInc; split <;> simp
@[simp] theorem postInc_lp_alat (s : State) (r : BitVec 7) (b i : Reg) (inc : Inc) :
    (s.postInc r b inc i).lp.alat = s.lp.alat := by
  unfold State.postInc; split <;> simp
@[simp] theorem postInc_lp_thr (s : State) (r : BitVec 7) (b i : Reg) (inc : Inc) :
    (s.postInc r b inc i).lp.thr = s.lp.thr := by
  unfold State.postInc; split <;> simp
@[simp] theorem postInc_lp_lastIp (s : State) (r : BitVec 7) (b i : Reg) (inc : Inc) :
    (s.postInc r b inc i).lp.lastIp = s.lp.lastIp := by
  unfold State.postInc; split <;> simp
@[simp] theorem postInc_lp_bundle (s : State) (r : BitVec 7) (b i : Reg) (inc : Inc) :
    (s.postInc r b inc i).lp.bundle = s.lp.bundle := by
  unfold State.postInc; split <;> simp
@[simp] theorem postInc_lp_ev (s : State) (r : BitVec 7) (b i : Reg) (inc : Inc) :
    (s.postInc r b inc i).lp.ev = s.lp.ev := by
  unfold State.postInc; split <;> simp

/-! ## `State.noteHit` and `State.noteRseAccess` -/

@[simp] theorem noteHit_bg (s : State) (w : Word) : (s.noteHit w).bg = s.bg := rfl
@[simp] theorem noteHit_thread1 (s : State) (w : Word) : (s.noteHit w).thread1 = s.thread1 := rfl
@[simp] theorem noteHit_itc (s : State) (w : Word) : (s.noteHit w).itc = s.itc := rfl
@[simp] theorem noteHit_dtr (s : State) (w : Word) : (s.noteHit w).dtr = s.dtr := rfl
@[simp] theorem noteHit_itr (s : State) (w : Word) : (s.noteHit w).itr = s.itr := rfl
@[simp] theorem noteHit_dtc (s : State) (w : Word) : (s.noteHit w).dtc = s.dtc := rfl
@[simp] theorem noteHit_itcache (s : State) (w : Word) : (s.noteHit w).itcache = s.itcache := rfl
@[simp] theorem noteHit_mem (s : State) (w : Word) : (s.noteHit w).mem = s.mem := rfl
@[simp] theorem noteHit_uncore (s : State) (w : Word) : (s.noteHit w).uncore = s.uncore := rfl
@[simp] theorem noteHit_remote (s : State) (w : Word) : (s.noteHit w).remote = s.remote := rfl
@[simp] theorem noteHit_coherenceOpt (s : State) (w : Word) : (s.noteHit w).coherenceOpt = s.coherenceOpt := rfl
@[simp] theorem noteHit_params (s : State) (w : Word) : (s.noteHit w).params = s.params := rfl
@[simp] theorem noteHit_free (s : State) (w : Word) : (s.noteHit w).free = s.free := rfl
@[simp] theorem noteHit_rucAhead (s : State) (w : Word) : (s.noteHit w).rucAhead = s.rucAhead := rfl
@[simp] theorem noteHit_lp_ip (s : State) (w : Word) : (s.noteHit w).lp.ip = s.lp.ip := rfl
@[simp] theorem noteHit_lp_psr (s : State) (w : Word) : (s.noteHit w).lp.psr = s.lp.psr := rfl
@[simp] theorem noteHit_lp_cfm (s : State) (w : Word) : (s.noteHit w).lp.cfm = s.lp.cfm := rfl
@[simp] theorem noteHit_lp_gr (s : State) (w : Word) : (s.noteHit w).lp.gr = s.lp.gr := rfl
@[simp] theorem noteHit_lp_fr (s : State) (w : Word) : (s.noteHit w).lp.fr = s.lp.fr := rfl
@[simp] theorem noteHit_lp_pr (s : State) (w : Word) : (s.noteHit w).lp.pr = s.lp.pr := rfl
@[simp] theorem noteHit_lp_br (s : State) (w : Word) : (s.noteHit w).lp.br = s.lp.br := rfl
@[simp] theorem noteHit_lp_ar (s : State) (w : Word) : (s.noteHit w).lp.ar = s.lp.ar := rfl
@[simp] theorem noteHit_lp_cr (s : State) (w : Word) : (s.noteHit w).lp.cr = s.lp.cr := rfl
@[simp] theorem noteHit_lp_rr (s : State) (w : Word) : (s.noteHit w).lp.rr = s.lp.rr := rfl
@[simp] theorem noteHit_lp_pkr (s : State) (w : Word) : (s.noteHit w).lp.pkr = s.lp.pkr := rfl
@[simp] theorem noteHit_lp_ibr (s : State) (w : Word) : (s.noteHit w).lp.ibr = s.lp.ibr := rfl
@[simp] theorem noteHit_lp_dbr (s : State) (w : Word) : (s.noteHit w).lp.dbr = s.lp.dbr := rfl
@[simp] theorem noteHit_lp_pmu (s : State) (w : Word) : (s.noteHit w).lp.pmu = s.lp.pmu := rfl
@[simp] theorem noteHit_lp_alat (s : State) (w : Word) : (s.noteHit w).lp.alat = s.lp.alat := rfl
@[simp] theorem noteHit_lp_thr (s : State) (w : Word) : (s.noteHit w).lp.thr = s.lp.thr := rfl
@[simp] theorem noteHit_lp_lastIp (s : State) (w : Word) : (s.noteHit w).lp.lastIp = s.lp.lastIp := rfl
@[simp] theorem noteHit_lp_bundle (s : State) (w : Word) : (s.noteHit w).lp.bundle = s.lp.bundle := rfl

@[simp] theorem noteRseAccess_bg (s : State) (st : Bool) (w : Word) (a : MemAttr) :
    (s.noteRseAccess st w a).bg = s.bg := rfl
@[simp] theorem noteRseAccess_thread1 (s : State) (st : Bool) (w : Word) (a : MemAttr) :
    (s.noteRseAccess st w a).thread1 = s.thread1 := rfl
@[simp] theorem noteRseAccess_itc (s : State) (st : Bool) (w : Word) (a : MemAttr) :
    (s.noteRseAccess st w a).itc = s.itc := rfl
@[simp] theorem noteRseAccess_dtr (s : State) (st : Bool) (w : Word) (a : MemAttr) :
    (s.noteRseAccess st w a).dtr = s.dtr := rfl
@[simp] theorem noteRseAccess_itr (s : State) (st : Bool) (w : Word) (a : MemAttr) :
    (s.noteRseAccess st w a).itr = s.itr := rfl
@[simp] theorem noteRseAccess_dtc (s : State) (st : Bool) (w : Word) (a : MemAttr) :
    (s.noteRseAccess st w a).dtc = s.dtc := rfl
@[simp] theorem noteRseAccess_itcache (s : State) (st : Bool) (w : Word) (a : MemAttr) :
    (s.noteRseAccess st w a).itcache = s.itcache := rfl
@[simp] theorem noteRseAccess_mem (s : State) (st : Bool) (w : Word) (a : MemAttr) :
    (s.noteRseAccess st w a).mem = s.mem := rfl
@[simp] theorem noteRseAccess_uncore (s : State) (st : Bool) (w : Word) (a : MemAttr) :
    (s.noteRseAccess st w a).uncore = s.uncore := rfl
@[simp] theorem noteRseAccess_remote (s : State) (st : Bool) (w : Word) (a : MemAttr) :
    (s.noteRseAccess st w a).remote = s.remote := rfl
@[simp] theorem noteRseAccess_coherenceOpt (s : State) (st : Bool) (w : Word) (a : MemAttr) :
    (s.noteRseAccess st w a).coherenceOpt = s.coherenceOpt := rfl
@[simp] theorem noteRseAccess_params (s : State) (st : Bool) (w : Word) (a : MemAttr) :
    (s.noteRseAccess st w a).params = s.params := rfl
@[simp] theorem noteRseAccess_free (s : State) (st : Bool) (w : Word) (a : MemAttr) :
    (s.noteRseAccess st w a).free = s.free := rfl
@[simp] theorem noteRseAccess_rucAhead (s : State) (st : Bool) (w : Word) (a : MemAttr) :
    (s.noteRseAccess st w a).rucAhead = s.rucAhead := rfl
@[simp] theorem noteRseAccess_lp_ip (s : State) (st : Bool) (w : Word) (a : MemAttr) :
    (s.noteRseAccess st w a).lp.ip = s.lp.ip := rfl
@[simp] theorem noteRseAccess_lp_psr (s : State) (st : Bool) (w : Word) (a : MemAttr) :
    (s.noteRseAccess st w a).lp.psr = s.lp.psr := rfl
@[simp] theorem noteRseAccess_lp_cfm (s : State) (st : Bool) (w : Word) (a : MemAttr) :
    (s.noteRseAccess st w a).lp.cfm = s.lp.cfm := rfl
@[simp] theorem noteRseAccess_lp_gr (s : State) (st : Bool) (w : Word) (a : MemAttr) :
    (s.noteRseAccess st w a).lp.gr = s.lp.gr := rfl
@[simp] theorem noteRseAccess_lp_fr (s : State) (st : Bool) (w : Word) (a : MemAttr) :
    (s.noteRseAccess st w a).lp.fr = s.lp.fr := rfl
@[simp] theorem noteRseAccess_lp_pr (s : State) (st : Bool) (w : Word) (a : MemAttr) :
    (s.noteRseAccess st w a).lp.pr = s.lp.pr := rfl
@[simp] theorem noteRseAccess_lp_br (s : State) (st : Bool) (w : Word) (a : MemAttr) :
    (s.noteRseAccess st w a).lp.br = s.lp.br := rfl
@[simp] theorem noteRseAccess_lp_ar (s : State) (st : Bool) (w : Word) (a : MemAttr) :
    (s.noteRseAccess st w a).lp.ar = s.lp.ar := rfl
@[simp] theorem noteRseAccess_lp_cr (s : State) (st : Bool) (w : Word) (a : MemAttr) :
    (s.noteRseAccess st w a).lp.cr = s.lp.cr := rfl
@[simp] theorem noteRseAccess_lp_rr (s : State) (st : Bool) (w : Word) (a : MemAttr) :
    (s.noteRseAccess st w a).lp.rr = s.lp.rr := rfl
@[simp] theorem noteRseAccess_lp_pkr (s : State) (st : Bool) (w : Word) (a : MemAttr) :
    (s.noteRseAccess st w a).lp.pkr = s.lp.pkr := rfl
@[simp] theorem noteRseAccess_lp_ibr (s : State) (st : Bool) (w : Word) (a : MemAttr) :
    (s.noteRseAccess st w a).lp.ibr = s.lp.ibr := rfl
@[simp] theorem noteRseAccess_lp_dbr (s : State) (st : Bool) (w : Word) (a : MemAttr) :
    (s.noteRseAccess st w a).lp.dbr = s.lp.dbr := rfl
@[simp] theorem noteRseAccess_lp_pmu (s : State) (st : Bool) (w : Word) (a : MemAttr) :
    (s.noteRseAccess st w a).lp.pmu = s.lp.pmu := rfl
@[simp] theorem noteRseAccess_lp_alat (s : State) (st : Bool) (w : Word) (a : MemAttr) :
    (s.noteRseAccess st w a).lp.alat = s.lp.alat := rfl
@[simp] theorem noteRseAccess_lp_thr (s : State) (st : Bool) (w : Word) (a : MemAttr) :
    (s.noteRseAccess st w a).lp.thr = s.lp.thr := rfl
@[simp] theorem noteRseAccess_lp_lastIp (s : State) (st : Bool) (w : Word) (a : MemAttr) :
    (s.noteRseAccess st w a).lp.lastIp = s.lp.lastIp := rfl
@[simp] theorem noteRseAccess_lp_bundle (s : State) (st : Bool) (w : Word) (a : MemAttr) :
    (s.noteRseAccess st w a).lp.bundle = s.lp.bundle := rfl

end Sys2Proof.Machine
end

