-- ==== Sys2Proof/Laws/Ops.lean ====
section
/-!
SUPPORT. The small lemmas of the named operations of Machine/Ops.lean: answers, register reads and checks, the end of an
instruction without a trap, and what delivery does.
-/

namespace Sys2Proof.Machine

open Sys2Proof.Config

/-! ## Answers -/

@[simp] theorem ok_bind {α β : Type} (a : α) (f : α → Ans β) : (Except.ok a >>= f : Ans β) = f a := rfl
@[simp] theorem error_bind {α β : Type} (e : Abort) (f : α → Ans β) :
    ((Except.error e : Ans α) >>= f : Ans β) = .error e := rfl
@[simp] theorem ans_pure {α : Type} (a : α) : (pure a : Ans α) = .ok a := rfl
@[simp] theorem map_ok {α β : Type} (f : α → β) (a : α) : Except.map f (Except.ok a : Ans α) = .ok (f a) := rfl
@[simp] theorem map_error {α β : Type} (f : α → β) (e : Abort) :
    Except.map f (Except.error e : Ans α) = .error e := rfl
@[simp] theorem raise_bind {α β : Type} (e : Exc) (f : α → Ans β) : ((raise e : Ans α) >>= f : Ans β) = raise e := rfl
@[simp] theorem map_raise {α β : Type} (f : α → β) (e : Exc) : Except.map f (raise e : Ans α) = raise e := rfl

/-- What an answer that is there was made of. -/
theorem bind_eq_ok {α β : Type} {x : Ans α} {f : α → Ans β} {b : β} :
    x >>= f = .ok b ↔ ∃ a, x = .ok a ∧ f a = .ok b := by
  cases x with
  | error e => simp
  | ok a => simp

@[simp] theorem require_true (e : Exc) : require true e = .ok () := rfl
@[simp] theorem require_false (e : Exc) : require false e = raise e := rfl
theorem require_eq_ok {b : Bool} {e : Exc} {u : Unit} : require b e = .ok u ↔ b = true := by
  cases b <;> simp [require, raise]

@[simp] theorem finish_ok (s t : State) : finish s (.ok t) = .next t := rfl
@[simp] theorem finish_raise (s : State) (e : Exc) : finish s (raise e) = .next (faultTo s e) := rfl

/-! ## Registers -/

@[simp] theorem readGr_ok {s : State} {r : BitVec 7} (h : s.lp.grReadable r = true) :
    readGr s r = .ok (s.lp.gr? r) := by simp [readGr, h]
theorem readGr_outside {s : State} {r : BitVec 7} (h : s.lp.grReadable r = false) :
    readGr s r = raise illegalOperation := by simp [readGr, h]
@[simp] theorem checkGr_ok {s : State} {r : BitVec 7} (h : s.lp.grWritable r = true) : checkGr s r = .ok () := by
  simp [checkGr, h]
theorem checkGr_illegal {s : State} {r : BitVec 7} (h : s.lp.grWritable r = false) :
    checkGr s r = raise illegalOperation := by simp [checkGr, h]
@[simp] theorem readGr2_ok {s : State} {r2 r3 : BitVec 7} (h2 : s.lp.grReadable r2 = true)
    (h3 : s.lp.grReadable r3 = true) : readGr2 s r2 r3 = .ok (s.lp.gr? r2, s.lp.gr? r3) := by
  simp [readGr2, h2, h3]
@[simp] theorem useGr_ok {s : State} {r : BitVec 7} {acc : Word} (h : Usable s r) :
    useGr s r acc = .ok (s.lp.gr? r).val := by
  simp [useGr, h.1, h.2]
theorem useGr_nat {s : State} {r : BitVec 7} {acc : Word} (h : s.lp.grReadable r = true)
    (hn : (s.lp.gr? r).nat = true) : useGr s r acc = raise (registerNatConsumption acc) := by
  simp [useGr, h, hn]
theorem checkSource_ok {s : State} {r : BitVec 7} (h : s.lp.grReadable r = true) : checkSource s r = .ok () := by
  simp [checkSource, h]
theorem checkSource_outside {s : State} {r : BitVec 7} (h : s.lp.grReadable r = false) :
    checkSource s r = raise illegalOperation := by simp [checkSource, h]
@[simp] theorem checkFrNumber_ok {s : State} {f : BitVec 7} (h : FrWritable s f) : checkFrNumber f = .ok () := by
  simp [checkFrNumber, h.1]
@[simp] theorem checkFrEnabled_ok {s : State} {f : BitVec 7} (h : FrWritable s f) : checkFrEnabled s f = .ok () := by
  simp [checkFrEnabled, h.2]
@[simp] theorem checkFr_ok {s : State} {f : BitVec 7} (h : FrWritable s f) : checkFr s f = .ok () := by
  simp [checkFr, checkFrNumber, checkFrEnabled, h.1, h.2]
@[simp] theorem readFr_ok {s : State} {f : BitVec 7} (h : s.lp.frEnabled f = true) :
    readFr s f = .ok (s.lp.fr? f) := by simp [readFr, checkFrEnabled, h]

@[simp] theorem getD_set_same {α : Type} {n : Nat} (v : Vector α n) (i : Nat) (x d : α) (h : i < n) :
    (v.setIfInBounds i x).getD i d = x := by simp [Vector.getD, h]
theorem getD_set_other {α : Type} {n : Nat} (v : Vector α n) (i j : Nat) (x d : α) (h : i ≠ j) :
    (v.setIfInBounds i x).getD j d = v.getD j d := by simp [Vector.getD, h]

/-- Where the numbers of the registers lead: inside the register files. -/
theorem grPlace_bounds (l : LP) (r : BitVec 7) :
    match l.grPlace r.toNat with
    | .low i => i < 15
    | .bank _ i => i < 16
    | .stacked i => i < 96
    | _ => True := by
  have hr := r.isLt
  unfold LP.grPlace
  by_cases h0 : r.toNat = 0
  · simp [h0]
  · by_cases h1 : r.toNat < 16
    · simp [h0, h1]; omega
    · by_cases h2 : r.toNat < 32
      · simp [h0, h1, h2]; omega
      · by_cases h3 : r.toNat - 32 < l.sof
        · simp [h0, h1, h2, h3]; omega
        · simp [h0, h1, h2, h3]

/-- A place is read back after it is written, if it holds a register. -/
theorem grAt_setGrAt_same (l : LP) (r : BitVec 7) (v : Reg) (h : l.grWritable r = true) :
    (l.setGrAt (l.grPlace r.toNat) v).grAt (l.grPlace r.toNat) = v := by
  have hb := grPlace_bounds l r
  unfold LP.grWritable at h
  cases hp : l.grPlace r.toNat with
  | zero => simp [hp] at h
  | outside => simp [hp] at h
  | low i => rw [hp] at hb; simp only [LP.setGrAt, LP.grAt]; exact getD_set_same _ _ _ _ hb
  | bank b i => rw [hp] at hb; cases b <;> exact getD_set_same _ _ _ _ hb
  | stacked i => rw [hp] at hb; exact getD_set_same _ _ _ _ hb

/-- A write of one place leaves every other place alone. -/
theorem grAt_setGrAt_other (l : LP) (p q : GrPlace) (v : Reg) (h : q ≠ p) : (l.setGrAt p v).grAt q = l.grAt q := by
  cases p with
  | zero => rfl
  | outside => rfl
  | low i =>
    cases q <;> try rfl
    exact getD_set_other _ _ _ _ _ (fun e => h (by rw [e]))
  | stacked i =>
    cases q <;> try rfl
    exact getD_set_other _ _ _ _ _ (fun e => h (by rw [e]))
  | bank b i =>
    cases q with
    | bank c j =>
      cases b <;> cases c <;> try rfl
      all_goals exact getD_set_other _ _ _ _ _ (fun e => h (by rw [e]))
    | _ => cases b <;> rfl

/-- Where a register number leads depends on the frame marker, the bottom of the frame and the bank only. -/
theorem grPlace_congr {l k : LP} (r : Nat) (hc : k.cfm = l.cfm) (hb : k.gr.bof = l.gr.bof)
    (hn : k.psrBit 44 = l.psrBit 44) : k.grPlace r = l.grPlace r := by
  unfold LP.grPlace LP.sof LP.sor LP.rrbGr; rw [hc, hb, hn]

theorem setGrAt_grPlace (l : LP) (p : GrPlace) (v : Reg) (r : Nat) : (l.setGrAt p v).grPlace r = l.grPlace r :=
  grPlace_congr r (by simp) (by simp) (by simp [LP.psrBit])

/-! ## The end of an instruction -/

/-- The unimplemented address check depends on the parameters and on `PSR.it`. -/
theorem unimplementedIp_congr {s t : State} (w : Word) (hit : t.lp.psrBit 36 = s.lp.psrBit 36)
    (hp : t.params = s.params) : unimplementedIp t w = unimplementedIp s w := by
  simp only [unimplementedIp, hit, hp]

/-- `advance` leaves `PSR.it` and the other bits that are neither the slot number nor one-shot. -/
theorem advance_psr_bit (s u : State) (e : Ending) (i : Nat) (h1 : i < 41 ∨ 42 < i) (h2 : oneShotBits.getLsbD i = false)
    (h3 : i < 64) : (advance s u e).lp.psrBit i = u.lp.psrBit i := by
  simp only [LP.psrBit, advance, setLp_lp, setField, BitVec.getLsbD_or, BitVec.getLsbD_and, BitVec.getLsbD_not,
    BitVec.getLsbD_shiftLeft, h2, h3]
  rcases h1 with h1 | h1
  · simp [h1]
  · have : ¬ i < 41 := by omega
    have e : (3#64).getLsbD (i - 41) = false := by
      have hk : 2 ≤ i - 41 := by omega
      rw [BitVec.getLsbD_ofNat]
      have : Nat.testBit 3 (i - 41) = false := Nat.testBit_lt_two_pow (by
        calc 3 < 2 ^ 2 := by decide
          _ ≤ 2 ^ (i - 41) := Nat.pow_le_pow_right (by decide) hk)
      simp [this]
    simp [e, this]

/-- Nothing is trapped: no single step, the next address implemented. -/
theorem retire_quiet {s u : State} {e : Ending} (h40 : s.lp.psrBit 40 = false) (hf : e.fpTrap = 0#64)
    (hl : e.lowered = false ∨ s.lp.psrBit 25 = false) (ht : e.target = none ∨ s.lp.psrBit 26 = false)
    (hu : unimplementedIp s (nextPlace s.lp e).1 = false)
    (hit : u.lp.psrBit 36 = s.lp.psrBit 36) (hp : u.params = s.params) : retire s u e = advance s u e := by
  have huia : unimplementedIp (advance s u e) (advance s u e).lp.ip = false := by
    rw [unimplementedIp_congr (s := s) (t := advance s u e)]
    · exact hu
    · rw [advance_psr_bit s u e 36 (by omega) (by decide) (by omega), hit]
    · exact hp
  unfold retire
  simp only [huia]
  have : trapOf s.lp.psr false e = none := by
    simp only [LP.psrBit] at h40 hl ht
    unfold trapOf
    rcases hl with hl | hl <;> rcases ht with ht | ht <;>
      simp [hf, hl, ht, h40, -BitVec.getLsbD_eq_getElem]
  rw [this]

theorem nextPlace_fall (l : LP) (w : Bool) :
    (nextPlace l { wide := w }).1 = l.ip ∨ (nextPlace l { wide := w }).1 = l.ip + 16#64 := by
  unfold nextPlace; simp only; split <;> simp

/-- An instruction that falls through ends without a trap. -/
theorem retire_fall {s u : State} (w : Bool) (h : Untrapped s) (hit : u.lp.psrBit 36 = s.lp.psrBit 36)
    (hp : u.params = s.params) : retire s u { wide := w } = advance s u { wide := w } := by
  refine retire_quiet h.1 rfl (.inl rfl) (.inl rfl) ?_ hit hp
  rcases nextPlace_fall s.lp w with e | e <;> rw [e]
  · exact h.2.1
  · exact h.2.2

/-- A taken branch ends without a trap. -/
theorem retire_branch {s u : State} {t : Word} {w l : Bool} (h : Reachable s t)
    (hit : u.lp.psrBit 36 = s.lp.psrBit 36) (hp : u.params = s.params) :
    retire s u { target := some t, wide := w, lowered := l } = advance s u { target := some t, wide := w, lowered := l } :=
  retire_quiet h.1 rfl (.inr h.2.2.1) (.inr h.2.1) h.2.2.2 hit hp

/-- A predicated instruction whose effect is there. -/
theorem predicated_ok {qp : BitVec 6} {s u : State} {body : Ans State} (hq : s.lp.readPr qp = true)
    (hb : body = .ok u) (h : Untrapped s) (hit : u.lp.psrBit 36 = s.lp.psrBit 36) (hp : u.params = s.params) :
    predicated qp s body = .next (fallThrough s u) := by
  simp only [predicated, hq, hb, map_ok, if_true, finish_ok, retire_fall false h hit hp]; rfl

/-- A predicated instruction whose effect is an exception. -/
theorem predicated_raise {qp : BitVec 6} {s : State} {body : Ans State} {e : Exc} {w : Bool}
    (hq : s.lp.readPr qp = true) (hb : body = raise e) : predicated qp s body w = .next (faultTo s e) := by
  simp [predicated, hq, hb]

/-- A predicated instruction whose predicate is 0. -/
theorem predicated_off {qp : BitVec 6} {s : State} {body : Ans State} {w : Bool} (hq : s.lp.readPr qp = false) :
    predicated qp s body w = .next (squash s w) := by
  simp [predicated, hq]

/-- What a predicated instruction that falls through answers. -/
theorem predicated_cases {qp : BitVec 6} {s u : State} {body : Ans State} {pre : Prop} {w : Bool}
    (hb : pre → body = .ok u) (hit : u.lp.psrBit 36 = s.lp.psrBit 36) (hp : u.params = s.params) :
    (s.lp.readPr qp = true → pre → Untrapped s → predicated qp s body w = .next (advance s u { wide := w }))
    ∧ (s.lp.readPr qp = false → Untrapped s → predicated qp s body w = .next (skipped s w)) := by
  refine ⟨fun hq h hu => ?_, fun hq hu => ?_⟩
  · simp only [predicated, hq, hb h, map_ok, if_true, finish_ok, retire_fall w hu hit hp]
  · rw [predicated_off hq]; exact congrArg _ (retire_fall w hu rfl rfl)

end Sys2Proof.Machine
end

