-- ==== Sys2Proof/Laws/Alu.lean ====
section
/-!
SUPPORT. What the shared operations of the A and I units answer: the three register forms, the compares and the tests.
-/

namespace Sys2Proof.Machine

theorem psrBit36_setGr (s : State) (r : BitVec 7) (v : Reg) : (s.setGr r v).lp.psrBit 36 = s.lp.psrBit 36 := by
  simp [LP.psrBit]

theorem alu2_cases {qp : BitVec 6} {r1 r2 r3 : BitVec 7} {f : Word → Word → Word} {s : State} :
    (s.lp.readPr qp = true → s.lp.grWritable r1 = true → s.lp.grReadable r2 = true → s.lp.grReadable r3 = true →
      Untrapped s → alu2 qp r1 r2 r3 f s = .next (fallThrough s (s.setGr r1
        ⟨f (s.lp.gr? r2).val (s.lp.gr? r3).val, (s.lp.gr? r2).nat || (s.lp.gr? r3).nat⟩)))
    ∧ (s.lp.readPr qp = true → s.lp.grWritable r1 = false →
      alu2 qp r1 r2 r3 f s = .next (faultTo s illegalOperation))
    ∧ (s.lp.readPr qp = false → Untrapped s → alu2 qp r1 r2 r3 f s = .next (skipped s)) :=
  ⟨fun hq h1 h2 h3 hu => predicated_ok hq (by simp [h1, h2, h3]) hu (psrBit36_setGr ..) rfl,
   fun hq h1 => predicated_raise hq (by simp [checkGr_illegal h1]),
   fun hq hu => (predicated_cases (u := s) (pre := False) False.elim rfl rfl).2 hq hu⟩

theorem alu1_cases {qp : BitVec 6} {r1 r3 : BitVec 7} {f : Word → Word} {s : State} :
    (s.lp.readPr qp = true → s.lp.grWritable r1 = true → s.lp.grReadable r3 = true → Untrapped s →
      alu1 qp r1 r3 f s = .next (fallThrough s (s.setGr r1 ⟨f (s.lp.gr? r3).val, (s.lp.gr? r3).nat⟩)))
    ∧ (s.lp.readPr qp = true → s.lp.grWritable r1 = false → alu1 qp r1 r3 f s = .next (faultTo s illegalOperation))
    ∧ (s.lp.readPr qp = false → Untrapped s → alu1 qp r1 r3 f s = .next (skipped s)) :=
  ⟨fun hq h1 h3 hu => predicated_ok hq (by simp [h1, h3]) hu (psrBit36_setGr ..) rfl,
   fun hq h1 => predicated_raise hq (by simp [checkGr_illegal h1]),
   fun hq hu => (predicated_cases (u := s) (pre := False) False.elim rfl rfl).2 hq hu⟩

theorem alu0_cases {qp : BitVec 6} {r1 : BitVec 7} {v : Word} {s : State} :
    (s.lp.readPr qp = true → s.lp.grWritable r1 = true → Untrapped s →
      alu0 qp r1 v s = .next (fallThrough s (s.setGr r1 ⟨v, false⟩)))
    ∧ (s.lp.readPr qp = true → s.lp.grWritable r1 = false → alu0 qp r1 v s = .next (faultTo s illegalOperation))
    ∧ (s.lp.readPr qp = false → Untrapped s → alu0 qp r1 v s = .next (skipped s)) :=
  ⟨fun hq h1 hu => predicated_ok hq (by simp [h1]) hu (psrBit36_setGr ..) rfl,
   fun hq h1 => predicated_raise hq (by simp [checkGr_illegal h1]),
   fun hq hu => (predicated_cases (u := s) (pre := False) False.elim rfl rfl).2 hq hu⟩

/-- The same for an instruction of the X unit. -/
theorem alu0_wide {qp : BitVec 6} {r1 : BitVec 7} {v : Word} {s : State} :
    (s.lp.readPr qp = true → s.lp.grWritable r1 = true → Untrapped s →
      alu0 qp r1 v s true = .next (fallThroughWide s (s.setGr r1 ⟨v, false⟩)))
    ∧ (s.lp.readPr qp = true → s.lp.grWritable r1 = false →
      alu0 qp r1 v s true = .next (faultTo s illegalOperation))
    ∧ (s.lp.readPr qp = false → Untrapped s → alu0 qp r1 v s true = .next (skipped s true)) := by
  have c (b : Ans State) := predicated_cases (qp := qp) (s := s) (u := s.setGr r1 ⟨v, false⟩) (body := b) (w := true)
    (pre := b = .ok (s.setGr r1 ⟨v, false⟩)) id (psrBit36_setGr ..) rfl
  exact ⟨fun hq h1 hu => (c _).1 hq (by simp [h1]) hu, fun hq h1 => predicated_raise hq (by simp [checkGr_illegal h1]),
    fun hq hu => (c _).2 hq hu⟩

/-! ## Compares -/

theorem writeCompare_psr36 (ct : CType) (s : State) (p q : BitVec 6) (a b : Bool) :
    (writeCompare ct s p q a b).lp.psrBit 36 = s.lp.psrBit 36 := by
  cases ct <;> simp only [writeCompare] <;> split <;> simp [LP.psrBit]

theorem writeCompare_params (ct : CType) (s : State) (p q : BitVec 6) (a b : Bool) :
    (writeCompare ct s p q a b).params = s.params := by
  cases ct <;> simp only [writeCompare] <;> split <;> rfl

theorem compare_completes {ct : CType} {qp p1 p2 : BitVec 6} {s s' : State} {x : Ans (Bool × Bool × State)}
    {rel nat : Bool} (hq : s.lp.readPr qp = true) (hp : p1 ≠ p2) (hx : x = .ok (rel, nat, s'))
    (hs : s'.lp.psrBit 36 = s.lp.psrBit 36) (hr : s'.params = s.params) (hu : Untrapped s) :
    compare ct qp p1 p2 s x = .next (fallThrough s (writeCompare ct s' p1 p2 rel nat)) := by
  have := retire_fall false (u := writeCompare ct s' p1 p2 rel nat) hu
    ((writeCompare_psr36 ..).trans hs) ((writeCompare_params ..).trans hr)
  simp only [compare, hq, if_true, decide_eq_true hp, require_true, ok_bind, hx, ans_pure, finish_ok]
  exact congrArg Host.Outcome.next this

/-- What a compare answers. -/
theorem compare_cases {ct : CType} {qp p1 p2 : BitVec 6} {s : State} {x : Ans (Bool × Bool × State)} {rel nat : Bool}
    {pre : Prop} (hx : pre → x = .ok (rel, nat, s)) :
    (s.lp.readPr qp = true → p1 ≠ p2 → pre → Untrapped s →
      compare ct qp p1 p2 s x = .next (fallThrough s (writeCompare ct s p1 p2 rel nat)))
    ∧ (s.lp.readPr qp = true ∨ ct = .unc → p1 = p2 → compare ct qp p1 p2 s x = .next (faultTo s illegalOperation))
    ∧ (s.lp.readPr qp = false → ct ≠ .unc → Untrapped s → compare ct qp p1 p2 s x = .next (skipped s))
    ∧ (s.lp.readPr qp = false → ct = .unc → p1 ≠ p2 → Untrapped s →
      ∃ t, compare ct qp p1 p2 s x = .next t ∧ t.lp.pr = (s.setPr2 p1 p2 false false).lp.pr
        ∧ t = { skipped s with lp := { (skipped s).lp with pr := t.lp.pr } }) := by
  refine ⟨fun hq hp h hu => compare_completes hq hp (hx h) rfl rfl hu, fun hq hp => ?_, fun hq hc hu => ?_,
    fun hq hc hp hu => ?_⟩
  · subst hp
    rcases hq with h | h
    · simp [compare, h]
    · subst h; unfold compare; split <;> simp
  · have : squash s false = skipped s := retire_fall false hu rfl rfl
    cases ct <;> simp_all [compare]
  · subst hc
    have h36 : (s.setPr2 p1 p2 false false).lp.psrBit 36 = s.lp.psrBit 36 := by simp [State.setPr2, LP.psrBit]
    let u := (s.setPr2 p1 p2 false false).setLp
      { (s.setPr2 p1 p2 false false).lp with ev := { s.lp.ev with squashed := true } }
    have hr : retire s u {} = advance s u {} := retire_fall false hu h36 rfl
    refine ⟨advance s u {}, ?_, rfl, ?_⟩
    · rw [← hr]; simp only [compare, hq, Bool.false_eq_true, if_false, decide_eq_true hp, require_true, ok_bind]; rfl
    · unfold skipped advance
      apply State.ext <;> try rfl
      apply LP.ext <;> simp [State.setPr2, u]

theorem compareReg_cases (ct : CType) (r : CRel) (w : Bool) (o : OpA6) (s : State) :
    (s.lp.readPr o.qp = true → o.p1 ≠ o.p2 → (s.lp.grReadable o.r2 = true ∧ s.lp.grReadable o.r3 = true) → Untrapped s →
      compareReg ct r w o s = .next (fallThrough s (writeCompare ct s o.p1 o.p2
        (r.test w (s.lp.gr? o.r2).val (s.lp.gr? o.r3).val) ((s.lp.gr? o.r2).nat || (s.lp.gr? o.r3).nat))))
    ∧ (s.lp.readPr o.qp = true ∨ ct = .unc → o.p1 = o.p2 → compareReg ct r w o s = .next (faultTo s illegalOperation))
    ∧ (s.lp.readPr o.qp = false → ct ≠ .unc → Untrapped s → compareReg ct r w o s = .next (skipped s))
    ∧ (s.lp.readPr o.qp = false → ct = .unc → o.p1 ≠ o.p2 → Untrapped s →
      ∃ t, compareReg ct r w o s = .next t ∧ t.lp.pr = (s.setPr2 o.p1 o.p2 false false).lp.pr
        ∧ t = { skipped s with lp := { (skipped s).lp with pr := t.lp.pr } }) :=
  compare_cases fun h => by simp [h.1, h.2]

theorem compareZero_cases (ct : CType) (r : CRel) (w : Bool) (o : OpA7) (s : State) :
    (s.lp.readPr o.qp = true → o.p1 ≠ o.p2 → s.lp.grReadable o.r3 = true → Untrapped s →
      compareZero ct r w o s = .next (fallThrough s (writeCompare ct s o.p1 o.p2
        (r.test w 0#64 (s.lp.gr? o.r3).val) (s.lp.gr? o.r3).nat)))
    ∧ (s.lp.readPr o.qp = true ∨ ct = .unc → o.p1 = o.p2 → compareZero ct r w o s = .next (faultTo s illegalOperation))
    ∧ (s.lp.readPr o.qp = false → ct ≠ .unc → Untrapped s → compareZero ct r w o s = .next (skipped s))
    ∧ (s.lp.readPr o.qp = false → ct = .unc → o.p1 ≠ o.p2 → Untrapped s →
      ∃ t, compareZero ct r w o s = .next t ∧ t.lp.pr = (s.setPr2 o.p1 o.p2 false false).lp.pr
        ∧ t = { skipped s with lp := { (skipped s).lp with pr := t.lp.pr } }) :=
  compare_cases fun h => by simp [h]

theorem compareImm_cases (ct : CType) (r : CRel) (w : Bool) (o : OpA8) (s : State) :
    (s.lp.readPr o.qp = true → o.p1 ≠ o.p2 → s.lp.grReadable o.r3 = true → Untrapped s →
      compareImm ct r w o s = .next (fallThrough s (writeCompare ct s o.p1 o.p2
        (r.test w (o.imm8.signExtend 64) (s.lp.gr? o.r3).val) (s.lp.gr? o.r3).nat)))
    ∧ (s.lp.readPr o.qp = true ∨ ct = .unc → o.p1 = o.p2 → compareImm ct r w o s = .next (faultTo s illegalOperation))
    ∧ (s.lp.readPr o.qp = false → ct ≠ .unc → Untrapped s → compareImm ct r w o s = .next (skipped s))
    ∧ (s.lp.readPr o.qp = false → ct = .unc → o.p1 ≠ o.p2 → Untrapped s →
      ∃ t, compareImm ct r w o s = .next t ∧ t.lp.pr = (s.setPr2 o.p1 o.p2 false false).lp.pr
        ∧ t = { skipped s with lp := { (skipped s).lp with pr := t.lp.pr } }) :=
  compare_cases fun h => by simp [h, simm]

theorem testBit_cases (ct : CType) (nz : Bool) (o : OpI16) (s : State) :
    (s.lp.readPr o.qp = true → o.p1 ≠ o.p2 → s.lp.grReadable o.r3 = true → Untrapped s →
      testBit ct nz o s = .next (fallThrough s (writeCompare ct s o.p1 o.p2
        ((s.lp.gr? o.r3).val.getLsbD o.pos6b.toNat == nz) (s.lp.gr? o.r3).nat)))
    ∧ (s.lp.readPr o.qp = true ∨ ct = .unc → o.p1 = o.p2 → testBit ct nz o s = .next (faultTo s illegalOperation))
    ∧ (s.lp.readPr o.qp = false → ct ≠ .unc → Untrapped s → testBit ct nz o s = .next (skipped s))
    ∧ (s.lp.readPr o.qp = false → ct = .unc → o.p1 ≠ o.p2 → Untrapped s →
      ∃ t, testBit ct nz o s = .next t ∧ t.lp.pr = (s.setPr2 o.p1 o.p2 false false).lp.pr
        ∧ t = { skipped s with lp := { (skipped s).lp with pr := t.lp.pr } }) :=
  compare_cases fun h => by simp [h]

theorem testNat_cases (ct : CType) (nz : Bool) (o : OpA7) (s : State) :
    (s.lp.readPr o.qp = true → o.p1 ≠ o.p2 → s.lp.grReadable o.r3 = true → Untrapped s →
      testNat ct nz o s = .next (fallThrough s (writeCompare ct s o.p1 o.p2 ((s.lp.gr? o.r3).nat == nz) false)))
    ∧ (s.lp.readPr o.qp = true ∨ ct = .unc → o.p1 = o.p2 → testNat ct nz o s = .next (faultTo s illegalOperation))
    ∧ (s.lp.readPr o.qp = false → ct ≠ .unc → Untrapped s → testNat ct nz o s = .next (skipped s))
    ∧ (s.lp.readPr o.qp = false → ct = .unc → o.p1 ≠ o.p2 → Untrapped s →
      ∃ t, testNat ct nz o s = .next t ∧ t.lp.pr = (s.setPr2 o.p1 o.p2 false false).lp.pr
        ∧ t = { skipped s with lp := { (skipped s).lp with pr := t.lp.pr } }) :=
  compare_cases fun h => by simp [h]

end Sys2Proof.Machine
end

