-- ==== Sys2Proof/Laws/Decode.lean ====
section
/-!
SUPPORT. Decoding is unambiguous: no slot matches two rows of one unit, so a slot that matches a row is that row's instruction;
and the bits of encoded fields are read back.
-/

namespace Sys2Proof

/-- Two rows that no slot matches both. -/
def Row.apart (r q : Row) : Bool := (r.value &&& q.mask) != (q.value &&& r.mask)

theorem not_hits_of_apart {r q : Row} {w : Slot} (h : r.apart q = true) (hr : r.hits w = true) : q.hits w = false := by
  cases hq : q.hits w with
  | false => rfl
  | true =>
    simp only [Row.hits, beq_iff_eq] at hr hq
    rw [Row.apart, ← hr, ← hq] at h
    simp only [bne_iff_ne, ne_eq] at h
    exact absurd (by ac_rfl) h

/-- No two rows of a list match one slot. -/
def allApart : List Row → Bool
  | [] => true
  | r :: rs => rs.all r.apart && allApart rs

/-- 30 R458: the rows of a unit are disjoint. -/
theorem rows_apart_m : allApart (rowsOf .m) = true := by decide +kernel
theorem rows_apart_i : allApart (rowsOf .i) = true := by decide +kernel
theorem rows_apart_b : allApart (rowsOf .b) = true := by decide +kernel
theorem rows_apart_f : allApart (rowsOf .f) = true := by decide +kernel
theorem rows_apart_x : allApart (rowsOf .x) = true := by decide +kernel
theorem rows_apart_a : allApart (rowsOf .a) = true := by decide +kernel

theorem rows_apart (u : ExecUnit) : allApart (rowsOf u) = true := by
  cases u
  · exact rows_apart_a
  · exact rows_apart_i
  · exact rows_apart_m
  · exact rows_apart_b
  · exact rows_apart_f
  · rfl
  · exact rows_apart_x

theorem find_of_pairwise {l : List Row} {w : Slot} (hp : allApart l = true) :
    ∀ (k : Nat) (r : Row), l[k]? = some r → r.hits w = true → l.find? (·.hits w) = some r := by
  induction l with
  | nil => intro k r h; simp at h
  | cons x xs ih =>
    intro k r h hw
    simp only [allApart, Bool.and_eq_true, List.all_eq_true] at hp
    cases k with
    | zero =>
      simp only [List.getElem?_cons_zero, Option.some.injEq] at h
      subst h; simp [hw]
    | succ k =>
      simp only [List.getElem?_cons_succ] at h
      have hm : r ∈ xs := List.mem_of_getElem? h
      have hx : x.hits w = false := by
        cases hx : x.hits w with
        | false => rfl
        | true => have := not_hits_of_apart (hp.1 r hm) hx; rw [hw] at this; exact absurd this (by simp)
      simp [hx, ih hp.2 k r h hw]

/-- A slot that matches the row at a place of the unit's rows is the instruction of that row. -/
theorem decodeSlot_row {u : ExecUnit} {w l : Slot} (k : Nat) {r : Row} (hk : (rowsOf u)[k]? = some r)
    (hw : r.hits w = true) : decodeSlot u w l = .ok (r.make w l) := by
  unfold decodeSlot; rw [find_of_pairwise (rows_apart u) k r hk hw]

end Sys2Proof
end

