-- ==== Sys2Proof/Laws/Exec.lean ====
section
/-!
SUPPORT. What `exec` is for each constructor: the shared operation its meaning is an instance of.
-/

namespace Sys2Proof.Machine

open Sys2Proof.Config

theorem exec_add (o : OpA1) (s : State) : exec (.add o) s = alu2 o.qp o.r1 o.r2 o.r3 (fun a b => a + b) s := rfl
theorem exec_addR1R2R31 (o : OpA1) (s : State) :
    exec (.addR1R2R31 o) s = alu2 o.qp o.r1 o.r2 o.r3 (fun a b => a + b + 1#64) s := rfl
theorem exec_sub (o : OpA1) (s : State) : exec (.sub o) s = alu2 o.qp o.r1 o.r2 o.r3 (fun a b => a - b) s := rfl
theorem exec_subR1R2R31 (o : OpA1) (s : State) :
    exec (.subR1R2R31 o) s = alu2 o.qp o.r1 o.r2 o.r3 (fun a b => a - b - 1#64) s := rfl
theorem exec_addp4 (o : OpA1) (s : State) :
    exec (.addp4 o) s = alu2 o.qp o.r1 o.r2 o.r3 (fun a b => addp4Of (a + b) b) s := rfl
theorem exec_and (o : OpA1) (s : State) : exec (.and o) s = alu2 o.qp o.r1 o.r2 o.r3 (fun a b => a &&& b) s := rfl
theorem exec_andcm (o : OpA1) (s : State) :
    exec (.andcm o) s = alu2 o.qp o.r1 o.r2 o.r3 (fun a b => a &&& ~~~b) s := rfl
theorem exec_or (o : OpA1) (s : State) : exec (.or o) s = alu2 o.qp o.r1 o.r2 o.r3 (fun a b => a ||| b) s := rfl
theorem exec_xor (o : OpA1) (s : State) : exec (.xor o) s = alu2 o.qp o.r1 o.r2 o.r3 (fun a b => a ^^^ b) s := rfl
theorem exec_shladd (o : OpA2) (s : State) :
    exec (.shladd o) s = alu2 o.qp o.r1 o.r2 o.r3 (fun a b => (a <<< countOf o.ct2d) + b) s := rfl
theorem exec_shladdp4 (o : OpA2) (s : State) :
    exec (.shladdp4 o) s = alu2 o.qp o.r1 o.r2 o.r3 (fun a b => addp4Of ((a <<< countOf o.ct2d) + b) b) s := rfl
theorem exec_subR1Imm8R3 (o : OpA3) (s : State) :
    exec (.subR1Imm8R3 o) s = alu1 o.qp o.r1 o.r3 (fun a => simm o.imm8 - a) s := rfl
theorem exec_andR1Imm8R3 (o : OpA3) (s : State) :
    exec (.andR1Imm8R3 o) s = alu1 o.qp o.r1 o.r3 (fun a => simm o.imm8 &&& a) s := rfl
theorem exec_andcmR1Imm8R3 (o : OpA3) (s : State) :
    exec (.andcmR1Imm8R3 o) s = alu1 o.qp o.r1 o.r3 (fun a => simm o.imm8 &&& ~~~a) s := rfl
theorem exec_orR1Imm8R3 (o : OpA3) (s : State) :
    exec (.orR1Imm8R3 o) s = alu1 o.qp o.r1 o.r3 (fun a => simm o.imm8 ||| a) s := rfl
theorem exec_xorR1Imm8R3 (o : OpA3) (s : State) :
    exec (.xorR1Imm8R3 o) s = alu1 o.qp o.r1 o.r3 (fun a => simm o.imm8 ^^^ a) s := rfl
theorem exec_adds (o : OpA4) (s : State) : exec (.adds o) s = alu1 o.qp o.r1 o.r3 (fun a => simm o.imm14 + a) s := rfl
theorem exec_addp4R1Imm14R3 (o : OpA4) (s : State) :
    exec (.addp4R1Imm14R3 o) s = alu1 o.qp o.r1 o.r3 (fun a => addp4Of (simm o.imm14 + a) a) s := rfl
theorem exec_addl (o : OpA5) (s : State) :
    exec (.addl o) s = alu1 o.qp o.r1 (o.r3.setWidth 7) (fun a => simm o.imm22 + a) s := rfl
theorem exec_cmpLtP1P2R2R3 (o : OpA6) (s : State) : exec (.cmpLtP1P2R2R3 o) s = compareReg .none .lt false o s := rfl
theorem exec_cmpGtAndP1P2R0R3 (o : OpA7) (s : State) :
    exec (.cmpGtAndP1P2R0R3 o) s = compareZero .and .gt false o s := rfl
theorem exec_cmp4LtP1P2R2R3 (o : OpA6) (s : State) : exec (.cmp4LtP1P2R2R3 o) s = compareReg .none .lt true o s := rfl
theorem exec_cmp4GtAndP1P2R0R3 (o : OpA7) (s : State) :
    exec (.cmp4GtAndP1P2R0R3 o) s = compareZero .and .gt true o s := rfl
theorem exec_cmpLtP1P2Imm8R3 (o : OpA8) (s : State) :
    exec (.cmpLtP1P2Imm8R3 o) s = compareImm .none .lt false o s := rfl
theorem exec_cmp4LtP1P2Imm8R3 (o : OpA8) (s : State) :
    exec (.cmp4LtP1P2Imm8R3 o) s = compareImm .none .lt true o s := rfl
theorem exec_cmpLtUncP1P2R2R3 (o : OpA6) (s : State) :
    exec (.cmpLtUncP1P2R2R3 o) s = compareReg .unc .lt false o s := rfl
theorem exec_cmpLeAndP1P2R0R3 (o : OpA7) (s : State) :
    exec (.cmpLeAndP1P2R0R3 o) s = compareZero .and .le false o s := rfl
theorem exec_cmp4LtUncP1P2R2R3 (o : OpA6) (s : State) :
    exec (.cmp4LtUncP1P2R2R3 o) s = compareReg .unc .lt true o s := rfl
theorem exec_cmp4LeAndP1P2R0R3 (o : OpA7) (s : State) :
    exec (.cmp4LeAndP1P2R0R3 o) s = compareZero .and .le true o s := rfl
theorem exec_cmpLtUncP1P2Imm8R3 (o : OpA8) (s : State) :
    exec (.cmpLtUncP1P2Imm8R3 o) s = compareImm .unc .lt false o s := rfl
theorem exec_cmp4LtUncP1P2Imm8R3 (o : OpA8) (s : State) :
    exec (.cmp4LtUncP1P2Imm8R3 o) s = compareImm .unc .lt true o s := rfl
theorem exec_cmpEqAndP1P2R2R3 (o : OpA6) (s : State) :
    exec (.cmpEqAndP1P2R2R3 o) s = compareReg .and .eq false o s := rfl
theorem exec_cmpGeAndP1P2R0R3 (o : OpA7) (s : State) :
    exec (.cmpGeAndP1P2R0R3 o) s = compareZero .and .ge false o s := rfl
theorem exec_cmp4EqAndP1P2R2R3 (o : OpA6) (s : State) :
    exec (.cmp4EqAndP1P2R2R3 o) s = compareReg .and .eq true o s := rfl
theorem exec_cmp4GeAndP1P2R0R3 (o : OpA7) (s : State) :
    exec (.cmp4GeAndP1P2R0R3 o) s = compareZero .and .ge true o s := rfl
theorem exec_cmpEqAndP1P2Imm8R3 (o : OpA8) (s : State) :
    exec (.cmpEqAndP1P2Imm8R3 o) s = compareImm .and .eq false o s := rfl
theorem exec_cmp4EqAndP1P2Imm8R3 (o : OpA8) (s : State) :
    exec (.cmp4EqAndP1P2Imm8R3 o) s = compareImm .and .eq true o s := rfl
theorem exec_cmpNeAndP1P2R2R3 (o : OpA6) (s : State) :
    exec (.cmpNeAndP1P2R2R3 o) s = compareReg .and .ne false o s := rfl
theorem exec_cmpLtAndP1P2R0R3 (o : OpA7) (s : State) :
    exec (.cmpLtAndP1P2R0R3 o) s = compareZero .and .lt false o s := rfl
theorem exec_cmp4NeAndP1P2R2R3 (o : OpA6) (s : State) :
    exec (.cmp4NeAndP1P2R2R3 o) s = compareReg .and .ne true o s := rfl
theorem exec_cmp4LtAndP1P2R0R3 (o : OpA7) (s : State) :
    exec (.cmp4LtAndP1P2R0R3 o) s = compareZero .and .lt true o s := rfl
theorem exec_cmpNeAndP1P2Imm8R3 (o : OpA8) (s : State) :
    exec (.cmpNeAndP1P2Imm8R3 o) s = compareImm .and .ne false o s := rfl
theorem exec_cmp4NeAndP1P2Imm8R3 (o : OpA8) (s : State) :
    exec (.cmp4NeAndP1P2Imm8R3 o) s = compareImm .and .ne true o s := rfl
theorem exec_cmpLtuP1P2R2R3 (o : OpA6) (s : State) : exec (.cmpLtuP1P2R2R3 o) s = compareReg .none .ltu false o s := rfl
theorem exec_cmpGtOrP1P2R0R3 (o : OpA7) (s : State) : exec (.cmpGtOrP1P2R0R3 o) s = compareZero .or .gt false o s := rfl
theorem exec_cmp4LtuP1P2R2R3 (o : OpA6) (s : State) :
    exec (.cmp4LtuP1P2R2R3 o) s = compareReg .none .ltu true o s := rfl
theorem exec_cmp4GtOrP1P2R0R3 (o : OpA7) (s : State) :
    exec (.cmp4GtOrP1P2R0R3 o) s = compareZero .or .gt true o s := rfl
theorem exec_cmpLtuP1P2Imm8R3 (o : OpA8) (s : State) :
    exec (.cmpLtuP1P2Imm8R3 o) s = compareImm .none .ltu false o s := rfl
theorem exec_cmp4LtuP1P2Imm8R3 (o : OpA8) (s : State) :
    exec (.cmp4LtuP1P2Imm8R3 o) s = compareImm .none .ltu true o s := rfl
theorem exec_cmpLtuUncP1P2R2R3 (o : OpA6) (s : State) :
    exec (.cmpLtuUncP1P2R2R3 o) s = compareReg .unc .ltu false o s := rfl
theorem exec_cmpLeOrP1P2R0R3 (o : OpA7) (s : State) : exec (.cmpLeOrP1P2R0R3 o) s = compareZero .or .le false o s := rfl
theorem exec_cmp4LtuUncP1P2R2R3 (o : OpA6) (s : State) :
    exec (.cmp4LtuUncP1P2R2R3 o) s = compareReg .unc .ltu true o s := rfl
theorem exec_cmp4LeOrP1P2R0R3 (o : OpA7) (s : State) :
    exec (.cmp4LeOrP1P2R0R3 o) s = compareZero .or .le true o s := rfl
theorem exec_cmpLtuUncP1P2Imm8R3 (o : OpA8) (s : State) :
    exec (.cmpLtuUncP1P2Imm8R3 o) s = compareImm .unc .ltu false o s := rfl
theorem exec_cmp4LtuUncP1P2Imm8R3 (o : OpA8) (s : State) :
    exec (.cmp4LtuUncP1P2Imm8R3 o) s = compareImm .unc .ltu true o s := rfl
theorem exec_cmpEqOrP1P2R2R3 (o : OpA6) (s : State) : exec (.cmpEqOrP1P2R2R3 o) s = compareReg .or .eq false o s := rfl
theorem exec_cmpGeOrP1P2R0R3 (o : OpA7) (s : State) : exec (.cmpGeOrP1P2R0R3 o) s = compareZero .or .ge false o s := rfl
theorem exec_cmp4EqOrP1P2R2R3 (o : OpA6) (s : State) : exec (.cmp4EqOrP1P2R2R3 o) s = compareReg .or .eq true o s := rfl
theorem exec_cmp4GeOrP1P2R0R3 (o : OpA7) (s : State) :
    exec (.cmp4GeOrP1P2R0R3 o) s = compareZero .or .ge true o s := rfl
theorem exec_cmpEqOrP1P2Imm8R3 (o : OpA8) (s : State) :
    exec (.cmpEqOrP1P2Imm8R3 o) s = compareImm .or .eq false o s := rfl
theorem exec_cmp4EqOrP1P2Imm8R3 (o : OpA8) (s : State) :
    exec (.cmp4EqOrP1P2Imm8R3 o) s = compareImm .or .eq true o s := rfl
theorem exec_cmpNeOrP1P2R2R3 (o : OpA6) (s : State) : exec (.cmpNeOrP1P2R2R3 o) s = compareReg .or .ne false o s := rfl
theorem exec_cmpLtOrP1P2R0R3 (o : OpA7) (s : State) : exec (.cmpLtOrP1P2R0R3 o) s = compareZero .or .lt false o s := rfl
theorem exec_cmp4NeOrP1P2R2R3 (o : OpA6) (s : State) : exec (.cmp4NeOrP1P2R2R3 o) s = compareReg .or .ne true o s := rfl
theorem exec_cmp4LtOrP1P2R0R3 (o : OpA7) (s : State) :
    exec (.cmp4LtOrP1P2R0R3 o) s = compareZero .or .lt true o s := rfl
theorem exec_cmpNeOrP1P2Imm8R3 (o : OpA8) (s : State) :
    exec (.cmpNeOrP1P2Imm8R3 o) s = compareImm .or .ne false o s := rfl
theorem exec_cmp4NeOrP1P2Imm8R3 (o : OpA8) (s : State) :
    exec (.cmp4NeOrP1P2Imm8R3 o) s = compareImm .or .ne true o s := rfl
theorem exec_cmpEqP1P2R2R3 (o : OpA6) (s : State) : exec (.cmpEqP1P2R2R3 o) s = compareReg .none .eq false o s := rfl
theorem exec_cmpGtOrAndcmP1P2R0R3 (o : OpA7) (s : State) :
    exec (.cmpGtOrAndcmP1P2R0R3 o) s = compareZero .orAndcm .gt false o s := rfl
theorem exec_cmp4EqP1P2R2R3 (o : OpA6) (s : State) : exec (.cmp4EqP1P2R2R3 o) s = compareReg .none .eq true o s := rfl
theorem exec_cmp4GtOrAndcmP1P2R0R3 (o : OpA7) (s : State) :
    exec (.cmp4GtOrAndcmP1P2R0R3 o) s = compareZero .orAndcm .gt true o s := rfl
theorem exec_cmpEqP1P2Imm8R3 (o : OpA8) (s : State) :
    exec (.cmpEqP1P2Imm8R3 o) s = compareImm .none .eq false o s := rfl
theorem exec_cmp4EqP1P2Imm8R3 (o : OpA8) (s : State) :
    exec (.cmp4EqP1P2Imm8R3 o) s = compareImm .none .eq true o s := rfl
theorem exec_cmpEqUncP1P2R2R3 (o : OpA6) (s : State) :
    exec (.cmpEqUncP1P2R2R3 o) s = compareReg .unc .eq false o s := rfl
theorem exec_cmpLeOrAndcmP1P2R0R3 (o : OpA7) (s : State) :
    exec (.cmpLeOrAndcmP1P2R0R3 o) s = compareZero .orAndcm .le false o s := rfl
theorem exec_cmp4EqUncP1P2R2R3 (o : OpA6) (s : State) :
    exec (.cmp4EqUncP1P2R2R3 o) s = compareReg .unc .eq true o s := rfl
theorem exec_cmp4LeOrAndcmP1P2R0R3 (o : OpA7) (s : State) :
    exec (.cmp4LeOrAndcmP1P2R0R3 o) s = compareZero .orAndcm .le true o s := rfl
theorem exec_cmpEqUncP1P2Imm8R3 (o : OpA8) (s : State) :
    exec (.cmpEqUncP1P2Imm8R3 o) s = compareImm .unc .eq false o s := rfl
theorem exec_cmp4EqUncP1P2Imm8R3 (o : OpA8) (s : State) :
    exec (.cmp4EqUncP1P2Imm8R3 o) s = compareImm .unc .eq true o s := rfl
theorem exec_cmpEqOrAndcmP1P2R2R3 (o : OpA6) (s : State) :
    exec (.cmpEqOrAndcmP1P2R2R3 o) s = compareReg .orAndcm .eq false o s := rfl
theorem exec_cmpGeOrAndcmP1P2R0R3 (o : OpA7) (s : State) :
    exec (.cmpGeOrAndcmP1P2R0R3 o) s = compareZero .orAndcm .ge false o s := rfl
theorem exec_cmp4EqOrAndcmP1P2R2R3 (o : OpA6) (s : State) :
    exec (.cmp4EqOrAndcmP1P2R2R3 o) s = compareReg .orAndcm .eq true o s := rfl
theorem exec_cmp4GeOrAndcmP1P2R0R3 (o : OpA7) (s : State) :
    exec (.cmp4GeOrAndcmP1P2R0R3 o) s = compareZero .orAndcm .ge true o s := rfl
theorem exec_cmpEqOrAndcmP1P2Imm8R3 (o : OpA8) (s : State) :
    exec (.cmpEqOrAndcmP1P2Imm8R3 o) s = compareImm .orAndcm .eq false o s := rfl
theorem exec_cmp4EqOrAndcmP1P2Imm8R3 (o : OpA8) (s : State) :
    exec (.cmp4EqOrAndcmP1P2Imm8R3 o) s = compareImm .orAndcm .eq true o s := rfl
theorem exec_cmpNeOrAndcmP1P2R2R3 (o : OpA6) (s : State) :
    exec (.cmpNeOrAndcmP1P2R2R3 o) s = compareReg .orAndcm .ne false o s := rfl
theorem exec_cmpLtOrAndcmP1P2R0R3 (o : OpA7) (s : State) :
    exec (.cmpLtOrAndcmP1P2R0R3 o) s = compareZero .orAndcm .lt false o s := rfl
theorem exec_cmp4NeOrAndcmP1P2R2R3 (o : OpA6) (s : State) :
    exec (.cmp4NeOrAndcmP1P2R2R3 o) s = compareReg .orAndcm .ne true o s := rfl
theorem exec_cmp4LtOrAndcmP1P2R0R3 (o : OpA7) (s : State) :
    exec (.cmp4LtOrAndcmP1P2R0R3 o) s = compareZero .orAndcm .lt true o s := rfl
theorem exec_cmpNeOrAndcmP1P2Imm8R3 (o : OpA8) (s : State) :
    exec (.cmpNeOrAndcmP1P2Imm8R3 o) s = compareImm .orAndcm .ne false o s := rfl
theorem exec_cmp4NeOrAndcmP1P2Imm8R3 (o : OpA8) (s : State) :
    exec (.cmp4NeOrAndcmP1P2Imm8R3 o) s = compareImm .orAndcm .ne true o s := rfl
theorem exec_padd1 (o : OpA1) (s : State) : exec (.padd1 o) s = alu2 o.qp o.r1 o.r2 o.r3 (paddOf .modulo 8) s := rfl
theorem exec_padd1Sss (o : OpA1) (s : State) : exec (.padd1Sss o) s = alu2 o.qp o.r1 o.r2 o.r3 (paddOf .sss 8) s := rfl
theorem exec_padd1Uuu (o : OpA1) (s : State) : exec (.padd1Uuu o) s = alu2 o.qp o.r1 o.r2 o.r3 (paddOf .uuu 8) s := rfl
theorem exec_padd1Uus (o : OpA1) (s : State) : exec (.padd1Uus o) s = alu2 o.qp o.r1 o.r2 o.r3 (paddOf .uus 8) s := rfl
theorem exec_padd2 (o : OpA1) (s : State) : exec (.padd2 o) s = alu2 o.qp o.r1 o.r2 o.r3 (paddOf .modulo 16) s := rfl
theorem exec_padd2Sss (o : OpA1) (s : State) : exec (.padd2Sss o) s = alu2 o.qp o.r1 o.r2 o.r3 (paddOf .sss 16) s := rfl
theorem exec_padd2Uuu (o : OpA1) (s : State) : exec (.padd2Uuu o) s = alu2 o.qp o.r1 o.r2 o.r3 (paddOf .uuu 16) s := rfl
theorem exec_padd2Uus (o : OpA1) (s : State) : exec (.padd2Uus o) s = alu2 o.qp o.r1 o.r2 o.r3 (paddOf .uus 16) s := rfl
theorem exec_padd4 (o : OpA1) (s : State) : exec (.padd4 o) s = alu2 o.qp o.r1 o.r2 o.r3 (paddOf .modulo 32) s := rfl
theorem exec_psub1 (o : OpA1) (s : State) : exec (.psub1 o) s = alu2 o.qp o.r1 o.r2 o.r3 (psubOf .modulo 8) s := rfl
theorem exec_psub1Sss (o : OpA1) (s : State) : exec (.psub1Sss o) s = alu2 o.qp o.r1 o.r2 o.r3 (psubOf .sss 8) s := rfl
theorem exec_psub1Uuu (o : OpA1) (s : State) : exec (.psub1Uuu o) s = alu2 o.qp o.r1 o.r2 o.r3 (psubOf .uuu 8) s := rfl
theorem exec_psub1Uus (o : OpA1) (s : State) : exec (.psub1Uus o) s = alu2 o.qp o.r1 o.r2 o.r3 (psubOf .uus 8) s := rfl
theorem exec_psub2 (o : OpA1) (s : State) : exec (.psub2 o) s = alu2 o.qp o.r1 o.r2 o.r3 (psubOf .modulo 16) s := rfl
theorem exec_psub2Sss (o : OpA1) (s : State) : exec (.psub2Sss o) s = alu2 o.qp o.r1 o.r2 o.r3 (psubOf .sss 16) s := rfl
theorem exec_psub2Uuu (o : OpA1) (s : State) : exec (.psub2Uuu o) s = alu2 o.qp o.r1 o.r2 o.r3 (psubOf .uuu 16) s := rfl
theorem exec_psub2Uus (o : OpA1) (s : State) : exec (.psub2Uus o) s = alu2 o.qp o.r1 o.r2 o.r3 (psubOf .uus 16) s := rfl
theorem exec_psub4 (o : OpA1) (s : State) : exec (.psub4 o) s = alu2 o.qp o.r1 o.r2 o.r3 (psubOf .modulo 32) s := rfl
theorem exec_pavg1 (o : OpA1) (s : State) : exec (.pavg1 o) s = alu2 o.qp o.r1 o.r2 o.r3 (pavgOf false 8) s := rfl
theorem exec_pavg1Raz (o : OpA1) (s : State) : exec (.pavg1Raz o) s = alu2 o.qp o.r1 o.r2 o.r3 (pavgOf true 8) s := rfl
theorem exec_pavgsub1 (o : OpA1) (s : State) : exec (.pavgsub1 o) s = alu2 o.qp o.r1 o.r2 o.r3 (pavgsubOf 8) s := rfl
theorem exec_pavg2 (o : OpA1) (s : State) : exec (.pavg2 o) s = alu2 o.qp o.r1 o.r2 o.r3 (pavgOf false 16) s := rfl
theorem exec_pavg2Raz (o : OpA1) (s : State) : exec (.pavg2Raz o) s = alu2 o.qp o.r1 o.r2 o.r3 (pavgOf true 16) s := rfl
theorem exec_pavgsub2 (o : OpA1) (s : State) : exec (.pavgsub2 o) s = alu2 o.qp o.r1 o.r2 o.r3 (pavgsubOf 16) s := rfl
theorem exec_pcmp1Eq (o : OpA1) (s : State) : exec (.pcmp1Eq o) s = alu2 o.qp o.r1 o.r2 o.r3 (pcmpOf false 8) s := rfl
theorem exec_pcmp1Gt (o : OpA1) (s : State) : exec (.pcmp1Gt o) s = alu2 o.qp o.r1 o.r2 o.r3 (pcmpOf true 8) s := rfl
theorem exec_pcmp2Eq (o : OpA1) (s : State) : exec (.pcmp2Eq o) s = alu2 o.qp o.r1 o.r2 o.r3 (pcmpOf false 16) s := rfl
theorem exec_pcmp2Gt (o : OpA1) (s : State) : exec (.pcmp2Gt o) s = alu2 o.qp o.r1 o.r2 o.r3 (pcmpOf true 16) s := rfl
theorem exec_pcmp4Eq (o : OpA1) (s : State) : exec (.pcmp4Eq o) s = alu2 o.qp o.r1 o.r2 o.r3 (pcmpOf false 32) s := rfl
theorem exec_pcmp4Gt (o : OpA1) (s : State) : exec (.pcmp4Gt o) s = alu2 o.qp o.r1 o.r2 o.r3 (pcmpOf true 32) s := rfl
theorem exec_pshladd2 (o : OpA2) (s : State) :
    exec (.pshladd2 o) s = alu2 o.qp o.r1 o.r2 o.r3 (pshladd2Of (countOf o.ct2d)) s := rfl
theorem exec_pshradd2 (o : OpA2) (s : State) :
    exec (.pshradd2 o) s = alu2 o.qp o.r1 o.r2 o.r3 (pshradd2Of (countOf o.ct2d)) s := rfl
theorem exec_pmpyshr2 (o : OpPmpyshr) (s : State) :
    exec (.pmpyshr2 o) s = alu2 o.qp o.r1 o.r2 o.r3 (pmpyshr2Of o.unsigned o.count2.toNat) s := rfl
theorem exec_pmpy2 (o : OpPmpy) (s : State) : exec (.pmpy2 o) s = alu2 o.qp o.r1 o.r2 o.r3 (pmpy2Of o.left) s := rfl
theorem exec_mixPack (o : OpI2) (s : State) : exec (.mixPack o) s = alu2 o.qp o.r1 o.r2 o.r3 (i2Of o.op) s := rfl
theorem exec_mux1 (o : OpMux1) (s : State) : exec (.mux1 o) s = alu1 o.qp o.r1 o.r2 (mux1Of o.mbtype) s := rfl
theorem exec_mux2 (o : OpMux2) (s : State) : exec (.mux2 o) s = alu1 o.qp o.r1 o.r2 (mux2Of o.mhtype) s := rfl
theorem exec_pshrVar (o : OpPshVar) (s : State) :
    exec (.pshrVar o) s = alu2 o.qp o.r1 o.r2 o.r3 (fun n a => pshrOf o.size o.unsigned (shiftCount n) a) s := rfl
theorem exec_pshrFix (o : OpPshrFix) (s : State) :
    exec (.pshrFix o) s = alu1 o.qp o.r1 o.r3 (pshrOf o.size o.unsigned o.count5.toNat) s := rfl
theorem exec_pshlVar (o : OpPshlVar) (s : State) :
    exec (.pshlVar o) s = alu2 o.qp o.r1 o.r2 o.r3 (fun a n => pshlOf o.size (shiftCount n) a) s := rfl
theorem exec_pshlFix (o : OpPshlFix) (s : State) :
    exec (.pshlFix o) s = alu1 o.qp o.r1 o.r2 (pshlOf o.size o.count5.toNat) s := rfl
theorem exec_popcnt (o : OpPopcnt) (s : State) :
    exec (.popcnt o) s = alu1 o.qp o.r1 o.r3 (fun a => BitVec.ofNat 64 (onesBelow a 64)) s := rfl
theorem exec_shr (o : OpA1) (s : State) : exec (.shr o) s = alu2 o.qp o.r1 o.r2 o.r3 (fun n a => shrOf a n) s := rfl
theorem exec_shrU (o : OpA1) (s : State) : exec (.shrU o) s = alu2 o.qp o.r1 o.r2 o.r3 (fun n a => shrUOf a n) s := rfl
theorem exec_shl (o : OpA1) (s : State) : exec (.shl o) s = alu2 o.qp o.r1 o.r2 o.r3 shlOf s := rfl
theorem exec_shrp (o : OpI10) (s : State) :
    exec (.shrp o) s = alu2 o.qp o.r1 o.r2 o.r3 (shrpOf o.count6d.toNat) s := rfl
theorem exec_extr (o : OpI11) (s : State) :
    exec (.extr o) s = alu1 o.qp o.r1 o.r3 (extrOf false o.pos6b.toNat (o.len6d.toNat + 1)) s := rfl
theorem exec_extrU (o : OpI11) (s : State) :
    exec (.extrU o) s = alu1 o.qp o.r1 o.r3 (extrOf true o.pos6b.toNat (o.len6d.toNat + 1)) s := rfl
theorem exec_depZ (o : OpI12) (s : State) :
    exec (.depZ o) s = alu1 o.qp o.r1 o.r2 (depZOf (63 - o.cpos6c.toNat) (o.len6d.toNat + 1)) s := rfl
theorem exec_depZR1Imm8 (o : OpI13) (s : State) :
    exec (.depZR1Imm8 o) s = alu0 o.qp o.r1 (depZOf (63 - o.cpos6c.toNat) (o.len6d.toNat + 1) (simm o.imm8)) s := rfl
theorem exec_depR1Imm1R3 (o : OpI14) (s : State) :
    exec (.depR1Imm1R3 o) s = alu1 o.qp o.r1 o.r3 (depOf (63 - o.cpos6b.toNat) (o.len6d.toNat + 1) (simm o.imm1)) s := rfl
theorem exec_dep (o : OpI15) (s : State) :
    exec (.dep o) s = alu2 o.qp o.r1 o.r2 o.r3 (depOf (63 - o.cpos6d.toNat) (o.len4d.toNat + 1)) s := rfl
theorem exec_tbitZ (o : OpI16) (s : State) : exec (.tbitZ o) s = testBit .none false o s := rfl
theorem exec_tnatZ (o : OpA7) (s : State) : exec (.tnatZ o) s = testNat .none false o s := rfl
theorem exec_tbitZUnc (o : OpI16) (s : State) : exec (.tbitZUnc o) s = testBit .unc false o s := rfl
theorem exec_tnatZUnc (o : OpA7) (s : State) : exec (.tnatZUnc o) s = testNat .unc false o s := rfl
theorem exec_tbitZAnd (o : OpI16) (s : State) : exec (.tbitZAnd o) s = testBit .and false o s := rfl
theorem exec_tnatZAnd (o : OpA7) (s : State) : exec (.tnatZAnd o) s = testNat .and false o s := rfl
theorem exec_tbitNzAnd (o : OpI16) (s : State) : exec (.tbitNzAnd o) s = testBit .and true o s := rfl
theorem exec_tnatNzAnd (o : OpA7) (s : State) : exec (.tnatNzAnd o) s = testNat .and true o s := rfl
theorem exec_tbitZOr (o : OpI16) (s : State) : exec (.tbitZOr o) s = testBit .or false o s := rfl
theorem exec_tnatZOr (o : OpA7) (s : State) : exec (.tnatZOr o) s = testNat .or false o s := rfl
theorem exec_tbitNzOr (o : OpI16) (s : State) : exec (.tbitNzOr o) s = testBit .or true o s := rfl
theorem exec_tnatNzOr (o : OpA7) (s : State) : exec (.tnatNzOr o) s = testNat .or true o s := rfl
theorem exec_tbitZOrAndcm (o : OpI16) (s : State) : exec (.tbitZOrAndcm o) s = testBit .orAndcm false o s := rfl
theorem exec_tnatZOrAndcm (o : OpA7) (s : State) : exec (.tnatZOrAndcm o) s = testNat .orAndcm false o s := rfl
theorem exec_tbitNzOrAndcm (o : OpI16) (s : State) : exec (.tbitNzOrAndcm o) s = testBit .orAndcm true o s := rfl
theorem exec_tnatNzOrAndcm (o : OpA7) (s : State) : exec (.tnatNzOrAndcm o) s = testNat .orAndcm true o s := rfl
theorem exec_breakI (o : OpI19) (s : State) : exec (.breakI o) s = breakOp o.qp (uimm o.imm21) false s := rfl
theorem exec_nopI (o : OpI19) (s : State) : exec (.nopI o) s = nopOp o.qp false s := rfl
theorem exec_hintI (o : OpI19) (s : State) : exec (.hintI o) s = hintOp o.qp (decide (o.imm21 = 0#21)) false s := rfl
theorem exec_chkSI (o : OpI20) (s : State) : exec (.chkSI o) s = chkS o.qp o.r2 o.target25 s := rfl
theorem exec_movB1R2 (o : OpI21) (s : State) : exec (.movB1R2 o) s = movToBr o.qp o.b1 o.r2 s := rfl
theorem exec_movR1B2 (o : OpI22) (s : State) : exec (.movR1B2 o) s = movToGr o.qp o.r1 (s.lp.br? o.b2) s := rfl
theorem exec_movPrR2Mask17 (o : OpI23) (s : State) :
    exec (.movPrR2Mask17 o) s = movToPr o.qp o.r2 (prMask o.mask17) s := rfl
theorem exec_movPrRotImm44 (o : OpI24) (s : State) :
    exec (.movPrRotImm44 o) s = movToPrRot o.qp (prRotImm o.imm44) s := rfl
theorem exec_movR1Ip (o : OpI25) (s : State) : exec (.movR1Ip o) s = movToGr o.qp o.r1 s.lp.ip s := rfl
theorem exec_movR1Pr (o : OpI25) (s : State) : exec (.movR1Pr o) s = movToGr o.qp o.r1 (s.lp.pr ||| 1#64) s := rfl
theorem exec_movIAr3R2 (o : OpI26) (s : State) : exec (.movIAr3R2 o) s = movToAr true o.qp o.ar3 o.r2 s := rfl
theorem exec_movIAr3Imm8 (o : OpI27) (s : State) : exec (.movIAr3Imm8 o) s = movToArImm true o.qp o.ar3 o.imm8 s := rfl
theorem exec_movIR1Ar3 (o : OpI28) (s : State) : exec (.movIR1Ar3 o) s = movFromAr true o.qp o.r1 o.ar3 s := rfl
theorem exec_zxt1 (o : OpI29) (s : State) : exec (.zxt1 o) s = alu1 o.qp o.r1 o.r3 (fun a => zextLow a 8) s := rfl
theorem exec_zxt2 (o : OpI29) (s : State) : exec (.zxt2 o) s = alu1 o.qp o.r1 o.r3 (fun a => zextLow a 16) s := rfl
theorem exec_zxt4 (o : OpI29) (s : State) : exec (.zxt4 o) s = alu1 o.qp o.r1 o.r3 (fun a => zextLow a 32) s := rfl
theorem exec_sxt1 (o : OpI29) (s : State) : exec (.sxt1 o) s = alu1 o.qp o.r1 o.r3 (fun a => sextLow a 8) s := rfl
theorem exec_sxt2 (o : OpI29) (s : State) : exec (.sxt2 o) s = alu1 o.qp o.r1 o.r3 (fun a => sextLow a 16) s := rfl
theorem exec_sxt4 (o : OpI29) (s : State) : exec (.sxt4 o) s = alu1 o.qp o.r1 o.r3 (fun a => sextLow a 32) s := rfl
theorem exec_czx1L (o : OpI29) (s : State) : exec (.czx1L o) s = alu1 o.qp o.r1 o.r3 (czxOf 8 true) s := rfl
theorem exec_czx2L (o : OpI29) (s : State) : exec (.czx2L o) s = alu1 o.qp o.r1 o.r3 (czxOf 16 true) s := rfl
theorem exec_czx1R (o : OpI29) (s : State) : exec (.czx1R o) s = alu1 o.qp o.r1 o.r3 (czxOf 8 false) s := rfl
theorem exec_czx2R (o : OpI29) (s : State) : exec (.czx2R o) s = alu1 o.qp o.r1 o.r3 (czxOf 16 false) s := rfl
theorem exec_ld1R1R3 (o : OpM1) (s : State) : exec (.ld1R1R3 o) s = loadInt {} 1 false o.qp o.r1 o.r3 .none s := rfl
theorem exec_ld1R1R3R2 (o : OpM2) (s : State) :
    exec (.ld1R1R3R2 o) s = loadInt {} 1 false o.qp o.r1 o.r3 (.reg o.r2) s := rfl
theorem exec_ld1R1R3Imm9 (o : OpM3) (s : State) :
    exec (.ld1R1R3Imm9 o) s = loadInt {} 1 false o.qp o.r1 o.r3 (.imm (simm o.imm9)) s := rfl
theorem exec_ld2R1R3 (o : OpM1) (s : State) : exec (.ld2R1R3 o) s = loadInt {} 2 false o.qp o.r1 o.r3 .none s := rfl
theorem exec_ld2R1R3R2 (o : OpM2) (s : State) :
    exec (.ld2R1R3R2 o) s = loadInt {} 2 false o.qp o.r1 o.r3 (.reg o.r2) s := rfl
theorem exec_ld2R1R3Imm9 (o : OpM3) (s : State) :
    exec (.ld2R1R3Imm9 o) s = loadInt {} 2 false o.qp o.r1 o.r3 (.imm (simm o.imm9)) s := rfl
theorem exec_ld4R1R3 (o : OpM1) (s : State) : exec (.ld4R1R3 o) s = loadInt {} 4 false o.qp o.r1 o.r3 .none s := rfl
theorem exec_ld4R1R3R2 (o : OpM2) (s : State) :
    exec (.ld4R1R3R2 o) s = loadInt {} 4 false o.qp o.r1 o.r3 (.reg o.r2) s := rfl
theorem exec_ld4R1R3Imm9 (o : OpM3) (s : State) :
    exec (.ld4R1R3Imm9 o) s = loadInt {} 4 false o.qp o.r1 o.r3 (.imm (simm o.imm9)) s := rfl
theorem exec_ld8R1R3 (o : OpM1) (s : State) : exec (.ld8R1R3 o) s = loadInt {} 8 false o.qp o.r1 o.r3 .none s := rfl
theorem exec_ld8R1R3R2 (o : OpM2) (s : State) :
    exec (.ld8R1R3R2 o) s = loadInt {} 8 false o.qp o.r1 o.r3 (.reg o.r2) s := rfl
theorem exec_ld8R1R3Imm9 (o : OpM3) (s : State) :
    exec (.ld8R1R3Imm9 o) s = loadInt {} 8 false o.qp o.r1 o.r3 (.imm (simm o.imm9)) s := rfl
theorem exec_ld1SR1R3 (o : OpM1) (s : State) :
    exec (.ld1SR1R3 o) s = loadInt { spec := true } 1 false o.qp o.r1 o.r3 .none s := rfl
theorem exec_ld1SR1R3R2 (o : OpM2) (s : State) :
    exec (.ld1SR1R3R2 o) s = loadInt { spec := true } 1 false o.qp o.r1 o.r3 (.reg o.r2) s := rfl
theorem exec_ld1SR1R3Imm9 (o : OpM3) (s : State) :
    exec (.ld1SR1R3Imm9 o) s = loadInt { spec := true } 1 false o.qp o.r1 o.r3 (.imm (simm o.imm9)) s := rfl
theorem exec_ld2SR1R3 (o : OpM1) (s : State) :
    exec (.ld2SR1R3 o) s = loadInt { spec := true } 2 false o.qp o.r1 o.r3 .none s := rfl
theorem exec_ld2SR1R3R2 (o : OpM2) (s : State) :
    exec (.ld2SR1R3R2 o) s = loadInt { spec := true } 2 false o.qp o.r1 o.r3 (.reg o.r2) s := rfl
theorem exec_ld2SR1R3Imm9 (o : OpM3) (s : State) :
    exec (.ld2SR1R3Imm9 o) s = loadInt { spec := true } 2 false o.qp o.r1 o.r3 (.imm (simm o.imm9)) s := rfl
theorem exec_ld4SR1R3 (o : OpM1) (s : State) :
    exec (.ld4SR1R3 o) s = loadInt { spec := true } 4 false o.qp o.r1 o.r3 .none s := rfl
theorem exec_ld4SR1R3R2 (o : OpM2) (s : State) :
    exec (.ld4SR1R3R2 o) s = loadInt { spec := true } 4 false o.qp o.r1 o.r3 (.reg o.r2) s := rfl
theorem exec_ld4SR1R3Imm9 (o : OpM3) (s : State) :
    exec (.ld4SR1R3Imm9 o) s = loadInt { spec := true } 4 false o.qp o.r1 o.r3 (.imm (simm o.imm9)) s := rfl
theorem exec_ld8SR1R3 (o : OpM1) (s : State) :
    exec (.ld8SR1R3 o) s = loadInt { spec := true } 8 false o.qp o.r1 o.r3 .none s := rfl
theorem exec_ld8SR1R3R2 (o : OpM2) (s : State) :
    exec (.ld8SR1R3R2 o) s = loadInt { spec := true } 8 false o.qp o.r1 o.r3 (.reg o.r2) s := rfl
theorem exec_ld8SR1R3Imm9 (o : OpM3) (s : State) :
    exec (.ld8SR1R3Imm9 o) s = loadInt { spec := true } 8 false o.qp o.r1 o.r3 (.imm (simm o.imm9)) s := rfl
theorem exec_ld1AR1R3 (o : OpM1) (s : State) :
    exec (.ld1AR1R3 o) s = loadInt { adv := true } 1 false o.qp o.r1 o.r3 .none s := rfl
theorem exec_ld1AR1R3R2 (o : OpM2) (s : State) :
    exec (.ld1AR1R3R2 o) s = loadInt { adv := true } 1 false o.qp o.r1 o.r3 (.reg o.r2) s := rfl
theorem exec_ld1AR1R3Imm9 (o : OpM3) (s : State) :
    exec (.ld1AR1R3Imm9 o) s = loadInt { adv := true } 1 false o.qp o.r1 o.r3 (.imm (simm o.imm9)) s := rfl
theorem exec_ld2AR1R3 (o : OpM1) (s : State) :
    exec (.ld2AR1R3 o) s = loadInt { adv := true } 2 false o.qp o.r1 o.r3 .none s := rfl
theorem exec_ld2AR1R3R2 (o : OpM2) (s : State) :
    exec (.ld2AR1R3R2 o) s = loadInt { adv := true } 2 false o.qp o.r1 o.r3 (.reg o.r2) s := rfl
theorem exec_ld2AR1R3Imm9 (o : OpM3) (s : State) :
    exec (.ld2AR1R3Imm9 o) s = loadInt { adv := true } 2 false o.qp o.r1 o.r3 (.imm (simm o.imm9)) s := rfl
theorem exec_ld4AR1R3 (o : OpM1) (s : State) :
    exec (.ld4AR1R3 o) s = loadInt { adv := true } 4 false o.qp o.r1 o.r3 .none s := rfl
theorem exec_ld4AR1R3R2 (o : OpM2) (s : State) :
    exec (.ld4AR1R3R2 o) s = loadInt { adv := true } 4 false o.qp o.r1 o.r3 (.reg o.r2) s := rfl
theorem exec_ld4AR1R3Imm9 (o : OpM3) (s : State) :
    exec (.ld4AR1R3Imm9 o) s = loadInt { adv := true } 4 false o.qp o.r1 o.r3 (.imm (simm o.imm9)) s := rfl
theorem exec_ld8AR1R3 (o : OpM1) (s : State) :
    exec (.ld8AR1R3 o) s = loadInt { adv := true } 8 false o.qp o.r1 o.r3 .none s := rfl
theorem exec_ld8AR1R3R2 (o : OpM2) (s : State) :
    exec (.ld8AR1R3R2 o) s = loadInt { adv := true } 8 false o.qp o.r1 o.r3 (.reg o.r2) s := rfl
theorem exec_ld8AR1R3Imm9 (o : OpM3) (s : State) :
    exec (.ld8AR1R3Imm9 o) s = loadInt { adv := true } 8 false o.qp o.r1 o.r3 (.imm (simm o.imm9)) s := rfl
theorem exec_ld1SaR1R3 (o : OpM1) (s : State) :
    exec (.ld1SaR1R3 o) s = loadInt { spec := true, adv := true } 1 false o.qp o.r1 o.r3 .none s := rfl
theorem exec_ld1SaR1R3R2 (o : OpM2) (s : State) :
    exec (.ld1SaR1R3R2 o) s = loadInt { spec := true, adv := true } 1 false o.qp o.r1 o.r3 (.reg o.r2) s := rfl
theorem exec_ld1SaR1R3Imm9 (o : OpM3) (s : State) :
    exec (.ld1SaR1R3Imm9 o) s = loadInt { spec := true, adv := true } 1 false o.qp o.r1 o.r3 (.imm (simm o.imm9)) s := rfl
theorem exec_ld2SaR1R3 (o : OpM1) (s : State) :
    exec (.ld2SaR1R3 o) s = loadInt { spec := true, adv := true } 2 false o.qp o.r1 o.r3 .none s := rfl
theorem exec_ld2SaR1R3R2 (o : OpM2) (s : State) :
    exec (.ld2SaR1R3R2 o) s = loadInt { spec := true, adv := true } 2 false o.qp o.r1 o.r3 (.reg o.r2) s := rfl
theorem exec_ld2SaR1R3Imm9 (o : OpM3) (s : State) :
    exec (.ld2SaR1R3Imm9 o) s = loadInt { spec := true, adv := true } 2 false o.qp o.r1 o.r3 (.imm (simm o.imm9)) s := rfl
theorem exec_ld4SaR1R3 (o : OpM1) (s : State) :
    exec (.ld4SaR1R3 o) s = loadInt { spec := true, adv := true } 4 false o.qp o.r1 o.r3 .none s := rfl
theorem exec_ld4SaR1R3R2 (o : OpM2) (s : State) :
    exec (.ld4SaR1R3R2 o) s = loadInt { spec := true, adv := true } 4 false o.qp o.r1 o.r3 (.reg o.r2) s := rfl
theorem exec_ld4SaR1R3Imm9 (o : OpM3) (s : State) :
    exec (.ld4SaR1R3Imm9 o) s = loadInt { spec := true, adv := true } 4 false o.qp o.r1 o.r3 (.imm (simm o.imm9)) s := rfl
theorem exec_ld8SaR1R3 (o : OpM1) (s : State) :
    exec (.ld8SaR1R3 o) s = loadInt { spec := true, adv := true } 8 false o.qp o.r1 o.r3 .none s := rfl
theorem exec_ld8SaR1R3R2 (o : OpM2) (s : State) :
    exec (.ld8SaR1R3R2 o) s = loadInt { spec := true, adv := true } 8 false o.qp o.r1 o.r3 (.reg o.r2) s := rfl
theorem exec_ld8SaR1R3Imm9 (o : OpM3) (s : State) :
    exec (.ld8SaR1R3Imm9 o) s = loadInt { spec := true, adv := true } 8 false o.qp o.r1 o.r3 (.imm (simm o.imm9)) s := rfl
theorem exec_ld1BiasR1R3 (o : OpM1) (s : State) :
    exec (.ld1BiasR1R3 o) s = loadInt {} 1 false o.qp o.r1 o.r3 .none s := rfl
theorem exec_ld1BiasR1R3R2 (o : OpM2) (s : State) :
    exec (.ld1BiasR1R3R2 o) s = loadInt {} 1 false o.qp o.r1 o.r3 (.reg o.r2) s := rfl
theorem exec_ld1BiasR1R3Imm9 (o : OpM3) (s : State) :
    exec (.ld1BiasR1R3Imm9 o) s = loadInt {} 1 false o.qp o.r1 o.r3 (.imm (simm o.imm9)) s := rfl
theorem exec_ld2BiasR1R3 (o : OpM1) (s : State) :
    exec (.ld2BiasR1R3 o) s = loadInt {} 2 false o.qp o.r1 o.r3 .none s := rfl
theorem exec_ld2BiasR1R3R2 (o : OpM2) (s : State) :
    exec (.ld2BiasR1R3R2 o) s = loadInt {} 2 false o.qp o.r1 o.r3 (.reg o.r2) s := rfl
theorem exec_ld2BiasR1R3Imm9 (o : OpM3) (s : State) :
    exec (.ld2BiasR1R3Imm9 o) s = loadInt {} 2 false o.qp o.r1 o.r3 (.imm (simm o.imm9)) s := rfl
theorem exec_ld4BiasR1R3 (o : OpM1) (s : State) :
    exec (.ld4BiasR1R3 o) s = loadInt {} 4 false o.qp o.r1 o.r3 .none s := rfl
theorem exec_ld4BiasR1R3R2 (o : OpM2) (s : State) :
    exec (.ld4BiasR1R3R2 o) s = loadInt {} 4 false o.qp o.r1 o.r3 (.reg o.r2) s := rfl
theorem exec_ld4BiasR1R3Imm9 (o : OpM3) (s : State) :
    exec (.ld4BiasR1R3Imm9 o) s = loadInt {} 4 false o.qp o.r1 o.r3 (.imm (simm o.imm9)) s := rfl
theorem exec_ld8BiasR1R3 (o : OpM1) (s : State) :
    exec (.ld8BiasR1R3 o) s = loadInt {} 8 false o.qp o.r1 o.r3 .none s := rfl
theorem exec_ld8BiasR1R3R2 (o : OpM2) (s : State) :
    exec (.ld8BiasR1R3R2 o) s = loadInt {} 8 false o.qp o.r1 o.r3 (.reg o.r2) s := rfl
theorem exec_ld8BiasR1R3Imm9 (o : OpM3) (s : State) :
    exec (.ld8BiasR1R3Imm9 o) s = loadInt {} 8 false o.qp o.r1 o.r3 (.imm (simm o.imm9)) s := rfl
theorem exec_ld1AcqR1R3 (o : OpM1) (s : State) :
    exec (.ld1AcqR1R3 o) s = loadInt {} 1 false o.qp o.r1 o.r3 .none s := rfl
theorem exec_ld1AcqR1R3R2 (o : OpM2) (s : State) :
    exec (.ld1AcqR1R3R2 o) s = loadInt {} 1 false o.qp o.r1 o.r3 (.reg o.r2) s := rfl
theorem exec_ld1AcqR1R3Imm9 (o : OpM3) (s : State) :
    exec (.ld1AcqR1R3Imm9 o) s = loadInt {} 1 false o.qp o.r1 o.r3 (.imm (simm o.imm9)) s := rfl
theorem exec_ld2AcqR1R3 (o : OpM1) (s : State) :
    exec (.ld2AcqR1R3 o) s = loadInt {} 2 false o.qp o.r1 o.r3 .none s := rfl
theorem exec_ld2AcqR1R3R2 (o : OpM2) (s : State) :
    exec (.ld2AcqR1R3R2 o) s = loadInt {} 2 false o.qp o.r1 o.r3 (.reg o.r2) s := rfl
theorem exec_ld2AcqR1R3Imm9 (o : OpM3) (s : State) :
    exec (.ld2AcqR1R3Imm9 o) s = loadInt {} 2 false o.qp o.r1 o.r3 (.imm (simm o.imm9)) s := rfl
theorem exec_ld4AcqR1R3 (o : OpM1) (s : State) :
    exec (.ld4AcqR1R3 o) s = loadInt {} 4 false o.qp o.r1 o.r3 .none s := rfl
theorem exec_ld4AcqR1R3R2 (o : OpM2) (s : State) :
    exec (.ld4AcqR1R3R2 o) s = loadInt {} 4 false o.qp o.r1 o.r3 (.reg o.r2) s := rfl
theorem exec_ld4AcqR1R3Imm9 (o : OpM3) (s : State) :
    exec (.ld4AcqR1R3Imm9 o) s = loadInt {} 4 false o.qp o.r1 o.r3 (.imm (simm o.imm9)) s := rfl
theorem exec_ld8AcqR1R3 (o : OpM1) (s : State) :
    exec (.ld8AcqR1R3 o) s = loadInt {} 8 false o.qp o.r1 o.r3 .none s := rfl
theorem exec_ld8AcqR1R3R2 (o : OpM2) (s : State) :
    exec (.ld8AcqR1R3R2 o) s = loadInt {} 8 false o.qp o.r1 o.r3 (.reg o.r2) s := rfl
theorem exec_ld8AcqR1R3Imm9 (o : OpM3) (s : State) :
    exec (.ld8AcqR1R3Imm9 o) s = loadInt {} 8 false o.qp o.r1 o.r3 (.imm (simm o.imm9)) s := rfl
theorem exec_ld1CClrR1R3 (o : OpM1) (s : State) :
    exec (.ld1CClrR1R3 o) s = loadInt { check := true, clr := true } 1 false o.qp o.r1 o.r3 .none s := rfl
theorem exec_ld1CClrR1R3R2 (o : OpM2) (s : State) :
    exec (.ld1CClrR1R3R2 o) s = loadInt { check := true, clr := true } 1 false o.qp o.r1 o.r3 (.reg o.r2) s := rfl
theorem exec_ld1CClrR1R3Imm9 (o : OpM3) (s : State) :
    exec (.ld1CClrR1R3Imm9 o) s = loadInt { check := true, clr := true } 1 false o.qp o.r1 o.r3 (.imm (simm o.imm9)) s := rfl
theorem exec_ld2CClrR1R3 (o : OpM1) (s : State) :
    exec (.ld2CClrR1R3 o) s = loadInt { check := true, clr := true } 2 false o.qp o.r1 o.r3 .none s := rfl
theorem exec_ld2CClrR1R3R2 (o : OpM2) (s : State) :
    exec (.ld2CClrR1R3R2 o) s = loadInt { check := true, clr := true } 2 false o.qp o.r1 o.r3 (.reg o.r2) s := rfl
theorem exec_ld2CClrR1R3Imm9 (o : OpM3) (s : State) :
    exec (.ld2CClrR1R3Imm9 o) s = loadInt { check := true, clr := true } 2 false o.qp o.r1 o.r3 (.imm (simm o.imm9)) s := rfl
theorem exec_ld4CClrR1R3 (o : OpM1) (s : State) :
    exec (.ld4CClrR1R3 o) s = loadInt { check := true, clr := true } 4 false o.qp o.r1 o.r3 .none s := rfl
theorem exec_ld4CClrR1R3R2 (o : OpM2) (s : State) :
    exec (.ld4CClrR1R3R2 o) s = loadInt { check := true, clr := true } 4 false o.qp o.r1 o.r3 (.reg o.r2) s := rfl
theorem exec_ld4CClrR1R3Imm9 (o : OpM3) (s : State) :
    exec (.ld4CClrR1R3Imm9 o) s = loadInt { check := true, clr := true } 4 false o.qp o.r1 o.r3 (.imm (simm o.imm9)) s := rfl
theorem exec_ld8CClrR1R3 (o : OpM1) (s : State) :
    exec (.ld8CClrR1R3 o) s = loadInt { check := true, clr := true } 8 false o.qp o.r1 o.r3 .none s := rfl
theorem exec_ld8CClrR1R3R2 (o : OpM2) (s : State) :
    exec (.ld8CClrR1R3R2 o) s = loadInt { check := true, clr := true } 8 false o.qp o.r1 o.r3 (.reg o.r2) s := rfl
theorem exec_ld8CClrR1R3Imm9 (o : OpM3) (s : State) :
    exec (.ld8CClrR1R3Imm9 o) s = loadInt { check := true, clr := true } 8 false o.qp o.r1 o.r3 (.imm (simm o.imm9)) s := rfl
theorem exec_ld1CNcR1R3 (o : OpM1) (s : State) :
    exec (.ld1CNcR1R3 o) s = loadInt { check := true } 1 false o.qp o.r1 o.r3 .none s := rfl
theorem exec_ld1CNcR1R3R2 (o : OpM2) (s : State) :
    exec (.ld1CNcR1R3R2 o) s = loadInt { check := true } 1 false o.qp o.r1 o.r3 (.reg o.r2) s := rfl
theorem exec_ld1CNcR1R3Imm9 (o : OpM3) (s : State) :
    exec (.ld1CNcR1R3Imm9 o) s = loadInt { check := true } 1 false o.qp o.r1 o.r3 (.imm (simm o.imm9)) s := rfl
theorem exec_ld2CNcR1R3 (o : OpM1) (s : State) :
    exec (.ld2CNcR1R3 o) s = loadInt { check := true } 2 false o.qp o.r1 o.r3 .none s := rfl
theorem exec_ld2CNcR1R3R2 (o : OpM2) (s : State) :
    exec (.ld2CNcR1R3R2 o) s = loadInt { check := true } 2 false o.qp o.r1 o.r3 (.reg o.r2) s := rfl
theorem exec_ld2CNcR1R3Imm9 (o : OpM3) (s : State) :
    exec (.ld2CNcR1R3Imm9 o) s = loadInt { check := true } 2 false o.qp o.r1 o.r3 (.imm (simm o.imm9)) s := rfl
theorem exec_ld4CNcR1R3 (o : OpM1) (s : State) :
    exec (.ld4CNcR1R3 o) s = loadInt { check := true } 4 false o.qp o.r1 o.r3 .none s := rfl
theorem exec_ld4CNcR1R3R2 (o : OpM2) (s : State) :
    exec (.ld4CNcR1R3R2 o) s = loadInt { check := true } 4 false o.qp o.r1 o.r3 (.reg o.r2) s := rfl
theorem exec_ld4CNcR1R3Imm9 (o : OpM3) (s : State) :
    exec (.ld4CNcR1R3Imm9 o) s = loadInt { check := true } 4 false o.qp o.r1 o.r3 (.imm (simm o.imm9)) s := rfl
theorem exec_ld8CNcR1R3 (o : OpM1) (s : State) :
    exec (.ld8CNcR1R3 o) s = loadInt { check := true } 8 false o.qp o.r1 o.r3 .none s := rfl
theorem exec_ld8CNcR1R3R2 (o : OpM2) (s : State) :
    exec (.ld8CNcR1R3R2 o) s = loadInt { check := true } 8 false o.qp o.r1 o.r3 (.reg o.r2) s := rfl
theorem exec_ld8CNcR1R3Imm9 (o : OpM3) (s : State) :
    exec (.ld8CNcR1R3Imm9 o) s = loadInt { check := true } 8 false o.qp o.r1 o.r3 (.imm (simm o.imm9)) s := rfl
theorem exec_ld1CClrAcqR1R3 (o : OpM1) (s : State) :
    exec (.ld1CClrAcqR1R3 o) s = loadInt { check := true, clr := true } 1 false o.qp o.r1 o.r3 .none s := rfl
theorem exec_ld1CClrAcqR1R3R2 (o : OpM2) (s : State) :
    exec (.ld1CClrAcqR1R3R2 o) s = loadInt { check := true, clr := true } 1 false o.qp o.r1 o.r3 (.reg o.r2) s := rfl
theorem exec_ld1CClrAcqR1R3Imm9 (o : OpM3) (s : State) :
    exec (.ld1CClrAcqR1R3Imm9 o) s = loadInt { check := true, clr := true } 1 false o.qp o.r1 o.r3 (.imm (simm o.imm9)) s := rfl
theorem exec_ld2CClrAcqR1R3 (o : OpM1) (s : State) :
    exec (.ld2CClrAcqR1R3 o) s = loadInt { check := true, clr := true } 2 false o.qp o.r1 o.r3 .none s := rfl
theorem exec_ld2CClrAcqR1R3R2 (o : OpM2) (s : State) :
    exec (.ld2CClrAcqR1R3R2 o) s = loadInt { check := true, clr := true } 2 false o.qp o.r1 o.r3 (.reg o.r2) s := rfl
theorem exec_ld2CClrAcqR1R3Imm9 (o : OpM3) (s : State) :
    exec (.ld2CClrAcqR1R3Imm9 o) s = loadInt { check := true, clr := true } 2 false o.qp o.r1 o.r3 (.imm (simm o.imm9)) s := rfl
theorem exec_ld4CClrAcqR1R3 (o : OpM1) (s : State) :
    exec (.ld4CClrAcqR1R3 o) s = loadInt { check := true, clr := true } 4 false o.qp o.r1 o.r3 .none s := rfl
theorem exec_ld4CClrAcqR1R3R2 (o : OpM2) (s : State) :
    exec (.ld4CClrAcqR1R3R2 o) s = loadInt { check := true, clr := true } 4 false o.qp o.r1 o.r3 (.reg o.r2) s := rfl
theorem exec_ld4CClrAcqR1R3Imm9 (o : OpM3) (s : State) :
    exec (.ld4CClrAcqR1R3Imm9 o) s = loadInt { check := true, clr := true } 4 false o.qp o.r1 o.r3 (.imm (simm o.imm9)) s := rfl
theorem exec_ld8CClrAcqR1R3 (o : OpM1) (s : State) :
    exec (.ld8CClrAcqR1R3 o) s = loadInt { check := true, clr := true } 8 false o.qp o.r1 o.r3 .none s := rfl
theorem exec_ld8CClrAcqR1R3R2 (o : OpM2) (s : State) :
    exec (.ld8CClrAcqR1R3R2 o) s = loadInt { check := true, clr := true } 8 false o.qp o.r1 o.r3 (.reg o.r2) s := rfl
theorem exec_ld8CClrAcqR1R3Imm9 (o : OpM3) (s : State) :
    exec (.ld8CClrAcqR1R3Imm9 o) s = loadInt { check := true, clr := true } 8 false o.qp o.r1 o.r3 (.imm (simm o.imm9)) s := rfl
theorem exec_ld8FillR1R3 (o : OpM1) (s : State) :
    exec (.ld8FillR1R3 o) s = loadInt {} 8 true o.qp o.r1 o.r3 .none s := rfl
theorem exec_ld8FillR1R3R2 (o : OpM2) (s : State) :
    exec (.ld8FillR1R3R2 o) s = loadInt {} 8 true o.qp o.r1 o.r3 (.reg o.r2) s := rfl
theorem exec_ld8FillR1R3Imm9 (o : OpM3) (s : State) :
    exec (.ld8FillR1R3Imm9 o) s = loadInt {} 8 true o.qp o.r1 o.r3 (.imm (simm o.imm9)) s := rfl
theorem exec_ld16R1ArCsdR3 (o : OpM1) (s : State) : exec (.ld16R1ArCsdR3 o) s = load16 o.qp o.r1 o.r3 s := rfl
theorem exec_ld16AcqR1ArCsdR3 (o : OpM1) (s : State) : exec (.ld16AcqR1ArCsdR3 o) s = load16 o.qp o.r1 o.r3 s := rfl
theorem exec_st1R3R2 (o : OpM4) (s : State) : exec (.st1R3R2 o) s = storeInt 1 false o.qp o.r3 o.r2 .none s := rfl
theorem exec_st1R3R2Imm9 (o : OpM5) (s : State) :
    exec (.st1R3R2Imm9 o) s = storeInt 1 false o.qp o.r3 o.r2 (.imm (simm o.imm9)) s := rfl
theorem exec_st2R3R2 (o : OpM4) (s : State) : exec (.st2R3R2 o) s = storeInt 2 false o.qp o.r3 o.r2 .none s := rfl
theorem exec_st2R3R2Imm9 (o : OpM5) (s : State) :
    exec (.st2R3R2Imm9 o) s = storeInt 2 false o.qp o.r3 o.r2 (.imm (simm o.imm9)) s := rfl
theorem exec_st4R3R2 (o : OpM4) (s : State) : exec (.st4R3R2 o) s = storeInt 4 false o.qp o.r3 o.r2 .none s := rfl
theorem exec_st4R3R2Imm9 (o : OpM5) (s : State) :
    exec (.st4R3R2Imm9 o) s = storeInt 4 false o.qp o.r3 o.r2 (.imm (simm o.imm9)) s := rfl
theorem exec_st8R3R2 (o : OpM4) (s : State) : exec (.st8R3R2 o) s = storeInt 8 false o.qp o.r3 o.r2 .none s := rfl
theorem exec_st8R3R2Imm9 (o : OpM5) (s : State) :
    exec (.st8R3R2Imm9 o) s = storeInt 8 false o.qp o.r3 o.r2 (.imm (simm o.imm9)) s := rfl
theorem exec_st1RelR3R2 (o : OpM4) (s : State) : exec (.st1RelR3R2 o) s = storeInt 1 false o.qp o.r3 o.r2 .none s := rfl
theorem exec_st1RelR3R2Imm9 (o : OpM5) (s : State) :
    exec (.st1RelR3R2Imm9 o) s = storeInt 1 false o.qp o.r3 o.r2 (.imm (simm o.imm9)) s := rfl
theorem exec_st2RelR3R2 (o : OpM4) (s : State) : exec (.st2RelR3R2 o) s = storeInt 2 false o.qp o.r3 o.r2 .none s := rfl
theorem exec_st2RelR3R2Imm9 (o : OpM5) (s : State) :
    exec (.st2RelR3R2Imm9 o) s = storeInt 2 false o.qp o.r3 o.r2 (.imm (simm o.imm9)) s := rfl
theorem exec_st4RelR3R2 (o : OpM4) (s : State) : exec (.st4RelR3R2 o) s = storeInt 4 false o.qp o.r3 o.r2 .none s := rfl
theorem exec_st4RelR3R2Imm9 (o : OpM5) (s : State) :
    exec (.st4RelR3R2Imm9 o) s = storeInt 4 false o.qp o.r3 o.r2 (.imm (simm o.imm9)) s := rfl
theorem exec_st8RelR3R2 (o : OpM4) (s : State) : exec (.st8RelR3R2 o) s = storeInt 8 false o.qp o.r3 o.r2 .none s := rfl
theorem exec_st8RelR3R2Imm9 (o : OpM5) (s : State) :
    exec (.st8RelR3R2Imm9 o) s = storeInt 8 false o.qp o.r3 o.r2 (.imm (simm o.imm9)) s := rfl
theorem exec_st8SpillR3R2 (o : OpM4) (s : State) :
    exec (.st8SpillR3R2 o) s = storeInt 8 true o.qp o.r3 o.r2 .none s := rfl
theorem exec_st8SpillR3R2Imm9 (o : OpM5) (s : State) :
    exec (.st8SpillR3R2Imm9 o) s = storeInt 8 true o.qp o.r3 o.r2 (.imm (simm o.imm9)) s := rfl
theorem exec_st16R3R2ArCsd (o : OpM4) (s : State) : exec (.st16R3R2ArCsd o) s = store16 o.qp o.r3 o.r2 s := rfl
theorem exec_st16RelR3R2ArCsd (o : OpM4) (s : State) : exec (.st16RelR3R2ArCsd o) s = store16 o.qp o.r3 o.r2 s := rfl
theorem exec_ldfeF1R3 (o : OpM6) (s : State) : exec (.ldfeF1R3 o) s = loadFp {} .extended o.qp o.f1 o.r3 .none s := rfl
theorem exec_ldfeF1R3R2 (o : OpM7) (s : State) :
    exec (.ldfeF1R3R2 o) s = loadFp {} .extended o.qp o.f1 o.r3 (.reg o.r2) s := rfl
theorem exec_ldfeF1R3Imm9 (o : OpM8) (s : State) :
    exec (.ldfeF1R3Imm9 o) s = loadFp {} .extended o.qp o.f1 o.r3 (.imm (simm o.imm9)) s := rfl
theorem exec_ldf8F1R3 (o : OpM6) (s : State) : exec (.ldf8F1R3 o) s = loadFp {} .integer o.qp o.f1 o.r3 .none s := rfl
theorem exec_ldf8F1R3R2 (o : OpM7) (s : State) :
    exec (.ldf8F1R3R2 o) s = loadFp {} .integer o.qp o.f1 o.r3 (.reg o.r2) s := rfl
theorem exec_ldf8F1R3Imm9 (o : OpM8) (s : State) :
    exec (.ldf8F1R3Imm9 o) s = loadFp {} .integer o.qp o.f1 o.r3 (.imm (simm o.imm9)) s := rfl
theorem exec_ldfsF1R3 (o : OpM6) (s : State) : exec (.ldfsF1R3 o) s = loadFp {} .single o.qp o.f1 o.r3 .none s := rfl
theorem exec_ldfsF1R3R2 (o : OpM7) (s : State) :
    exec (.ldfsF1R3R2 o) s = loadFp {} .single o.qp o.f1 o.r3 (.reg o.r2) s := rfl
theorem exec_ldfsF1R3Imm9 (o : OpM8) (s : State) :
    exec (.ldfsF1R3Imm9 o) s = loadFp {} .single o.qp o.f1 o.r3 (.imm (simm o.imm9)) s := rfl
theorem exec_ldfdF1R3 (o : OpM6) (s : State) : exec (.ldfdF1R3 o) s = loadFp {} .double o.qp o.f1 o.r3 .none s := rfl
theorem exec_ldfdF1R3R2 (o : OpM7) (s : State) :
    exec (.ldfdF1R3R2 o) s = loadFp {} .double o.qp o.f1 o.r3 (.reg o.r2) s := rfl
theorem exec_ldfdF1R3Imm9 (o : OpM8) (s : State) :
    exec (.ldfdF1R3Imm9 o) s = loadFp {} .double o.qp o.f1 o.r3 (.imm (simm o.imm9)) s := rfl
theorem exec_ldfeSF1R3 (o : OpM6) (s : State) :
    exec (.ldfeSF1R3 o) s = loadFp { spec := true } .extended o.qp o.f1 o.r3 .none s := rfl
theorem exec_ldfeSF1R3R2 (o : OpM7) (s : State) :
    exec (.ldfeSF1R3R2 o) s = loadFp { spec := true } .extended o.qp o.f1 o.r3 (.reg o.r2) s := rfl
theorem exec_ldfeSF1R3Imm9 (o : OpM8) (s : State) :
    exec (.ldfeSF1R3Imm9 o) s = loadFp { spec := true } .extended o.qp o.f1 o.r3 (.imm (simm o.imm9)) s := rfl
theorem exec_ldf8SF1R3 (o : OpM6) (s : State) :
    exec (.ldf8SF1R3 o) s = loadFp { spec := true } .integer o.qp o.f1 o.r3 .none s := rfl
theorem exec_ldf8SF1R3R2 (o : OpM7) (s : State) :
    exec (.ldf8SF1R3R2 o) s = loadFp { spec := true } .integer o.qp o.f1 o.r3 (.reg o.r2) s := rfl
theorem exec_ldf8SF1R3Imm9 (o : OpM8) (s : State) :
    exec (.ldf8SF1R3Imm9 o) s = loadFp { spec := true } .integer o.qp o.f1 o.r3 (.imm (simm o.imm9)) s := rfl
theorem exec_ldfsSF1R3 (o : OpM6) (s : State) :
    exec (.ldfsSF1R3 o) s = loadFp { spec := true } .single o.qp o.f1 o.r3 .none s := rfl
theorem exec_ldfsSF1R3R2 (o : OpM7) (s : State) :
    exec (.ldfsSF1R3R2 o) s = loadFp { spec := true } .single o.qp o.f1 o.r3 (.reg o.r2) s := rfl
theorem exec_ldfsSF1R3Imm9 (o : OpM8) (s : State) :
    exec (.ldfsSF1R3Imm9 o) s = loadFp { spec := true } .single o.qp o.f1 o.r3 (.imm (simm o.imm9)) s := rfl
theorem exec_ldfdSF1R3 (o : OpM6) (s : State) :
    exec (.ldfdSF1R3 o) s = loadFp { spec := true } .double o.qp o.f1 o.r3 .none s := rfl
theorem exec_ldfdSF1R3R2 (o : OpM7) (s : State) :
    exec (.ldfdSF1R3R2 o) s = loadFp { spec := true } .double o.qp o.f1 o.r3 (.reg o.r2) s := rfl
theorem exec_ldfdSF1R3Imm9 (o : OpM8) (s : State) :
    exec (.ldfdSF1R3Imm9 o) s = loadFp { spec := true } .double o.qp o.f1 o.r3 (.imm (simm o.imm9)) s := rfl
theorem exec_ldfeAF1R3 (o : OpM6) (s : State) :
    exec (.ldfeAF1R3 o) s = loadFp { adv := true } .extended o.qp o.f1 o.r3 .none s := rfl
theorem exec_ldfeAF1R3R2 (o : OpM7) (s : State) :
    exec (.ldfeAF1R3R2 o) s = loadFp { adv := true } .extended o.qp o.f1 o.r3 (.reg o.r2) s := rfl
theorem exec_ldfeAF1R3Imm9 (o : OpM8) (s : State) :
    exec (.ldfeAF1R3Imm9 o) s = loadFp { adv := true } .extended o.qp o.f1 o.r3 (.imm (simm o.imm9)) s := rfl
theorem exec_ldf8AF1R3 (o : OpM6) (s : State) :
    exec (.ldf8AF1R3 o) s = loadFp { adv := true } .integer o.qp o.f1 o.r3 .none s := rfl
theorem exec_ldf8AF1R3R2 (o : OpM7) (s : State) :
    exec (.ldf8AF1R3R2 o) s = loadFp { adv := true } .integer o.qp o.f1 o.r3 (.reg o.r2) s := rfl
theorem exec_ldf8AF1R3Imm9 (o : OpM8) (s : State) :
    exec (.ldf8AF1R3Imm9 o) s = loadFp { adv := true } .integer o.qp o.f1 o.r3 (.imm (simm o.imm9)) s := rfl
theorem exec_ldfsAF1R3 (o : OpM6) (s : State) :
    exec (.ldfsAF1R3 o) s = loadFp { adv := true } .single o.qp o.f1 o.r3 .none s := rfl
theorem exec_ldfsAF1R3R2 (o : OpM7) (s : State) :
    exec (.ldfsAF1R3R2 o) s = loadFp { adv := true } .single o.qp o.f1 o.r3 (.reg o.r2) s := rfl
theorem exec_ldfsAF1R3Imm9 (o : OpM8) (s : State) :
    exec (.ldfsAF1R3Imm9 o) s = loadFp { adv := true } .single o.qp o.f1 o.r3 (.imm (simm o.imm9)) s := rfl
theorem exec_ldfdAF1R3 (o : OpM6) (s : State) :
    exec (.ldfdAF1R3 o) s = loadFp { adv := true } .double o.qp o.f1 o.r3 .none s := rfl
theorem exec_ldfdAF1R3R2 (o : OpM7) (s : State) :
    exec (.ldfdAF1R3R2 o) s = loadFp { adv := true } .double o.qp o.f1 o.r3 (.reg o.r2) s := rfl
theorem exec_ldfdAF1R3Imm9 (o : OpM8) (s : State) :
    exec (.ldfdAF1R3Imm9 o) s = loadFp { adv := true } .double o.qp o.f1 o.r3 (.imm (simm o.imm9)) s := rfl
theorem exec_ldfeSaF1R3 (o : OpM6) (s : State) :
    exec (.ldfeSaF1R3 o) s = loadFp { spec := true, adv := true } .extended o.qp o.f1 o.r3 .none s := rfl
theorem exec_ldfeSaF1R3R2 (o : OpM7) (s : State) :
    exec (.ldfeSaF1R3R2 o) s = loadFp { spec := true, adv := true } .extended o.qp o.f1 o.r3 (.reg o.r2) s := rfl
theorem exec_ldfeSaF1R3Imm9 (o : OpM8) (s : State) :
    exec (.ldfeSaF1R3Imm9 o) s = loadFp { spec := true, adv := true } .extended o.qp o.f1 o.r3 (.imm (simm o.imm9)) s := rfl
theorem exec_ldf8SaF1R3 (o : OpM6) (s : State) :
    exec (.ldf8SaF1R3 o) s = loadFp { spec := true, adv := true } .integer o.qp o.f1 o.r3 .none s := rfl
theorem exec_ldf8SaF1R3R2 (o : OpM7) (s : State) :
    exec (.ldf8SaF1R3R2 o) s = loadFp { spec := true, adv := true } .integer o.qp o.f1 o.r3 (.reg o.r2) s := rfl
theorem exec_ldf8SaF1R3Imm9 (o : OpM8) (s : State) :
    exec (.ldf8SaF1R3Imm9 o) s = loadFp { spec := true, adv := true } .integer o.qp o.f1 o.r3 (.imm (simm o.imm9)) s := rfl
theorem exec_ldfsSaF1R3 (o : OpM6) (s : State) :
    exec (.ldfsSaF1R3 o) s = loadFp { spec := true, adv := true } .single o.qp o.f1 o.r3 .none s := rfl
theorem exec_ldfsSaF1R3R2 (o : OpM7) (s : State) :
    exec (.ldfsSaF1R3R2 o) s = loadFp { spec := true, adv := true } .single o.qp o.f1 o.r3 (.reg o.r2) s := rfl
theorem exec_ldfsSaF1R3Imm9 (o : OpM8) (s : State) :
    exec (.ldfsSaF1R3Imm9 o) s = loadFp { spec := true, adv := true } .single o.qp o.f1 o.r3 (.imm (simm o.imm9)) s := rfl
theorem exec_ldfdSaF1R3 (o : OpM6) (s : State) :
    exec (.ldfdSaF1R3 o) s = loadFp { spec := true, adv := true } .double o.qp o.f1 o.r3 .none s := rfl
theorem exec_ldfdSaF1R3R2 (o : OpM7) (s : State) :
    exec (.ldfdSaF1R3R2 o) s = loadFp { spec := true, adv := true } .double o.qp o.f1 o.r3 (.reg o.r2) s := rfl
theorem exec_ldfdSaF1R3Imm9 (o : OpM8) (s : State) :
    exec (.ldfdSaF1R3Imm9 o) s = loadFp { spec := true, adv := true } .double o.qp o.f1 o.r3 (.imm (simm o.imm9)) s := rfl
theorem exec_ldfeCClrF1R3 (o : OpM6) (s : State) :
    exec (.ldfeCClrF1R3 o) s = loadFp { check := true, clr := true } .extended o.qp o.f1 o.r3 .none s := rfl
theorem exec_ldfeCClrF1R3R2 (o : OpM7) (s : State) :
    exec (.ldfeCClrF1R3R2 o) s = loadFp { check := true, clr := true } .extended o.qp o.f1 o.r3 (.reg o.r2) s := rfl
theorem exec_ldfeCClrF1R3Imm9 (o : OpM8) (s : State) :
    exec (.ldfeCClrF1R3Imm9 o) s = loadFp { check := true, clr := true } .extended o.qp o.f1 o.r3 (.imm (simm o.imm9)) s := rfl
theorem exec_ldf8CClrF1R3 (o : OpM6) (s : State) :
    exec (.ldf8CClrF1R3 o) s = loadFp { check := true, clr := true } .integer o.qp o.f1 o.r3 .none s := rfl
theorem exec_ldf8CClrF1R3R2 (o : OpM7) (s : State) :
    exec (.ldf8CClrF1R3R2 o) s = loadFp { check := true, clr := true } .integer o.qp o.f1 o.r3 (.reg o.r2) s := rfl
theorem exec_ldf8CClrF1R3Imm9 (o : OpM8) (s : State) :
    exec (.ldf8CClrF1R3Imm9 o) s = loadFp { check := true, clr := true } .integer o.qp o.f1 o.r3 (.imm (simm o.imm9)) s := rfl
theorem exec_ldfsCClrF1R3 (o : OpM6) (s : State) :
    exec (.ldfsCClrF1R3 o) s = loadFp { check := true, clr := true } .single o.qp o.f1 o.r3 .none s := rfl
theorem exec_ldfsCClrF1R3R2 (o : OpM7) (s : State) :
    exec (.ldfsCClrF1R3R2 o) s = loadFp { check := true, clr := true } .single o.qp o.f1 o.r3 (.reg o.r2) s := rfl
theorem exec_ldfsCClrF1R3Imm9 (o : OpM8) (s : State) :
    exec (.ldfsCClrF1R3Imm9 o) s = loadFp { check := true, clr := true } .single o.qp o.f1 o.r3 (.imm (simm o.imm9)) s := rfl
theorem exec_ldfdCClrF1R3 (o : OpM6) (s : State) :
    exec (.ldfdCClrF1R3 o) s = loadFp { check := true, clr := true } .double o.qp o.f1 o.r3 .none s := rfl
theorem exec_ldfdCClrF1R3R2 (o : OpM7) (s : State) :
    exec (.ldfdCClrF1R3R2 o) s = loadFp { check := true, clr := true } .double o.qp o.f1 o.r3 (.reg o.r2) s := rfl
theorem exec_ldfdCClrF1R3Imm9 (o : OpM8) (s : State) :
    exec (.ldfdCClrF1R3Imm9 o) s = loadFp { check := true, clr := true } .double o.qp o.f1 o.r3 (.imm (simm o.imm9)) s := rfl
theorem exec_ldfeCNcF1R3 (o : OpM6) (s : State) :
    exec (.ldfeCNcF1R3 o) s = loadFp { check := true } .extended o.qp o.f1 o.r3 .none s := rfl
theorem exec_ldfeCNcF1R3R2 (o : OpM7) (s : State) :
    exec (.ldfeCNcF1R3R2 o) s = loadFp { check := true } .extended o.qp o.f1 o.r3 (.reg o.r2) s := rfl
theorem exec_ldfeCNcF1R3Imm9 (o : OpM8) (s : State) :
    exec (.ldfeCNcF1R3Imm9 o) s = loadFp { check := true } .extended o.qp o.f1 o.r3 (.imm (simm o.imm9)) s := rfl
theorem exec_ldf8CNcF1R3 (o : OpM6) (s : State) :
    exec (.ldf8CNcF1R3 o) s = loadFp { check := true } .integer o.qp o.f1 o.r3 .none s := rfl
theorem exec_ldf8CNcF1R3R2 (o : OpM7) (s : State) :
    exec (.ldf8CNcF1R3R2 o) s = loadFp { check := true } .integer o.qp o.f1 o.r3 (.reg o.r2) s := rfl
theorem exec_ldf8CNcF1R3Imm9 (o : OpM8) (s : State) :
    exec (.ldf8CNcF1R3Imm9 o) s = loadFp { check := true } .integer o.qp o.f1 o.r3 (.imm (simm o.imm9)) s := rfl
theorem exec_ldfsCNcF1R3 (o : OpM6) (s : State) :
    exec (.ldfsCNcF1R3 o) s = loadFp { check := true } .single o.qp o.f1 o.r3 .none s := rfl
theorem exec_ldfsCNcF1R3R2 (o : OpM7) (s : State) :
    exec (.ldfsCNcF1R3R2 o) s = loadFp { check := true } .single o.qp o.f1 o.r3 (.reg o.r2) s := rfl
theorem exec_ldfsCNcF1R3Imm9 (o : OpM8) (s : State) :
    exec (.ldfsCNcF1R3Imm9 o) s = loadFp { check := true } .single o.qp o.f1 o.r3 (.imm (simm o.imm9)) s := rfl
theorem exec_ldfdCNcF1R3 (o : OpM6) (s : State) :
    exec (.ldfdCNcF1R3 o) s = loadFp { check := true } .double o.qp o.f1 o.r3 .none s := rfl
theorem exec_ldfdCNcF1R3R2 (o : OpM7) (s : State) :
    exec (.ldfdCNcF1R3R2 o) s = loadFp { check := true } .double o.qp o.f1 o.r3 (.reg o.r2) s := rfl
theorem exec_ldfdCNcF1R3Imm9 (o : OpM8) (s : State) :
    exec (.ldfdCNcF1R3Imm9 o) s = loadFp { check := true } .double o.qp o.f1 o.r3 (.imm (simm o.imm9)) s := rfl
theorem exec_ldfFillF1R3 (o : OpM6) (s : State) :
    exec (.ldfFillF1R3 o) s = loadFp {} .image o.qp o.f1 o.r3 .none s := rfl
theorem exec_ldfFillF1R3R2 (o : OpM7) (s : State) :
    exec (.ldfFillF1R3R2 o) s = loadFp {} .image o.qp o.f1 o.r3 (.reg o.r2) s := rfl
theorem exec_ldfFillF1R3Imm9 (o : OpM8) (s : State) :
    exec (.ldfFillF1R3Imm9 o) s = loadFp {} .image o.qp o.f1 o.r3 (.imm (simm o.imm9)) s := rfl
theorem exec_stfeR3F2 (o : OpM9) (s : State) : exec (.stfeR3F2 o) s = storeFp .extended o.qp o.r3 o.f2 .none s := rfl
theorem exec_stfeR3F2Imm9 (o : OpM10) (s : State) :
    exec (.stfeR3F2Imm9 o) s = storeFp .extended o.qp o.r3 o.f2 (.imm (simm o.imm9)) s := rfl
theorem exec_stf8R3F2 (o : OpM9) (s : State) : exec (.stf8R3F2 o) s = storeFp .integer o.qp o.r3 o.f2 .none s := rfl
theorem exec_stf8R3F2Imm9 (o : OpM10) (s : State) :
    exec (.stf8R3F2Imm9 o) s = storeFp .integer o.qp o.r3 o.f2 (.imm (simm o.imm9)) s := rfl
theorem exec_stfsR3F2 (o : OpM9) (s : State) : exec (.stfsR3F2 o) s = storeFp .single o.qp o.r3 o.f2 .none s := rfl
theorem exec_stfsR3F2Imm9 (o : OpM10) (s : State) :
    exec (.stfsR3F2Imm9 o) s = storeFp .single o.qp o.r3 o.f2 (.imm (simm o.imm9)) s := rfl
theorem exec_stfdR3F2 (o : OpM9) (s : State) : exec (.stfdR3F2 o) s = storeFp .double o.qp o.r3 o.f2 .none s := rfl
theorem exec_stfdR3F2Imm9 (o : OpM10) (s : State) :
    exec (.stfdR3F2Imm9 o) s = storeFp .double o.qp o.r3 o.f2 (.imm (simm o.imm9)) s := rfl
theorem exec_stfSpillR3F2 (o : OpM9) (s : State) :
    exec (.stfSpillR3F2 o) s = storeFp .image o.qp o.r3 o.f2 .none s := rfl
theorem exec_stfSpillR3F2Imm9 (o : OpM10) (s : State) :
    exec (.stfSpillR3F2Imm9 o) s = storeFp .image o.qp o.r3 o.f2 (.imm (simm o.imm9)) s := rfl
theorem exec_ldfp8F1F2R3 (o : OpM11) (s : State) :
    exec (.ldfp8F1F2R3 o) s = loadPair {} .integer false o.qp o.f1 o.f2 o.r3 s := rfl
theorem exec_ldfp8F1F2R316 (o : OpM11) (s : State) :
    exec (.ldfp8F1F2R316 o) s = loadPair {} .integer true o.qp o.f1 o.f2 o.r3 s := rfl
theorem exec_ldfpsF1F2R3 (o : OpM11) (s : State) :
    exec (.ldfpsF1F2R3 o) s = loadPair {} .single false o.qp o.f1 o.f2 o.r3 s := rfl
theorem exec_ldfpsF1F2R38 (o : OpM11) (s : State) :
    exec (.ldfpsF1F2R38 o) s = loadPair {} .single true o.qp o.f1 o.f2 o.r3 s := rfl
theorem exec_ldfpdF1F2R3 (o : OpM11) (s : State) :
    exec (.ldfpdF1F2R3 o) s = loadPair {} .double false o.qp o.f1 o.f2 o.r3 s := rfl
theorem exec_ldfpdF1F2R316 (o : OpM11) (s : State) :
    exec (.ldfpdF1F2R316 o) s = loadPair {} .double true o.qp o.f1 o.f2 o.r3 s := rfl
theorem exec_ldfp8SF1F2R3 (o : OpM11) (s : State) :
    exec (.ldfp8SF1F2R3 o) s = loadPair { spec := true } .integer false o.qp o.f1 o.f2 o.r3 s := rfl
theorem exec_ldfp8SF1F2R316 (o : OpM11) (s : State) :
    exec (.ldfp8SF1F2R316 o) s = loadPair { spec := true } .integer true o.qp o.f1 o.f2 o.r3 s := rfl
theorem exec_ldfpsSF1F2R3 (o : OpM11) (s : State) :
    exec (.ldfpsSF1F2R3 o) s = loadPair { spec := true } .single false o.qp o.f1 o.f2 o.r3 s := rfl
theorem exec_ldfpsSF1F2R38 (o : OpM11) (s : State) :
    exec (.ldfpsSF1F2R38 o) s = loadPair { spec := true } .single true o.qp o.f1 o.f2 o.r3 s := rfl
theorem exec_ldfpdSF1F2R3 (o : OpM11) (s : State) :
    exec (.ldfpdSF1F2R3 o) s = loadPair { spec := true } .double false o.qp o.f1 o.f2 o.r3 s := rfl
theorem exec_ldfpdSF1F2R316 (o : OpM11) (s : State) :
    exec (.ldfpdSF1F2R316 o) s = loadPair { spec := true } .double true o.qp o.f1 o.f2 o.r3 s := rfl
theorem exec_ldfp8AF1F2R3 (o : OpM11) (s : State) :
    exec (.ldfp8AF1F2R3 o) s = loadPair { adv := true } .integer false o.qp o.f1 o.f2 o.r3 s := rfl
theorem exec_ldfp8AF1F2R316 (o : OpM11) (s : State) :
    exec (.ldfp8AF1F2R316 o) s = loadPair { adv := true } .integer true o.qp o.f1 o.f2 o.r3 s := rfl
theorem exec_ldfpsAF1F2R3 (o : OpM11) (s : State) :
    exec (.ldfpsAF1F2R3 o) s = loadPair { adv := true } .single false o.qp o.f1 o.f2 o.r3 s := rfl
theorem exec_ldfpsAF1F2R38 (o : OpM11) (s : State) :
    exec (.ldfpsAF1F2R38 o) s = loadPair { adv := true } .single true o.qp o.f1 o.f2 o.r3 s := rfl
theorem exec_ldfpdAF1F2R3 (o : OpM11) (s : State) :
    exec (.ldfpdAF1F2R3 o) s = loadPair { adv := true } .double false o.qp o.f1 o.f2 o.r3 s := rfl
theorem exec_ldfpdAF1F2R316 (o : OpM11) (s : State) :
    exec (.ldfpdAF1F2R316 o) s = loadPair { adv := true } .double true o.qp o.f1 o.f2 o.r3 s := rfl
theorem exec_ldfp8SaF1F2R3 (o : OpM11) (s : State) :
    exec (.ldfp8SaF1F2R3 o) s = loadPair { spec := true, adv := true } .integer false o.qp o.f1 o.f2 o.r3 s := rfl
theorem exec_ldfp8SaF1F2R316 (o : OpM11) (s : State) :
    exec (.ldfp8SaF1F2R316 o) s = loadPair { spec := true, adv := true } .integer true o.qp o.f1 o.f2 o.r3 s := rfl
theorem exec_ldfpsSaF1F2R3 (o : OpM11) (s : State) :
    exec (.ldfpsSaF1F2R3 o) s = loadPair { spec := true, adv := true } .single false o.qp o.f1 o.f2 o.r3 s := rfl
theorem exec_ldfpsSaF1F2R38 (o : OpM11) (s : State) :
    exec (.ldfpsSaF1F2R38 o) s = loadPair { spec := true, adv := true } .single true o.qp o.f1 o.f2 o.r3 s := rfl
theorem exec_ldfpdSaF1F2R3 (o : OpM11) (s : State) :
    exec (.ldfpdSaF1F2R3 o) s = loadPair { spec := true, adv := true } .double false o.qp o.f1 o.f2 o.r3 s := rfl
theorem exec_ldfpdSaF1F2R316 (o : OpM11) (s : State) :
    exec (.ldfpdSaF1F2R316 o) s = loadPair { spec := true, adv := true } .double true o.qp o.f1 o.f2 o.r3 s := rfl
theorem exec_ldfp8CClrF1F2R3 (o : OpM11) (s : State) :
    exec (.ldfp8CClrF1F2R3 o) s = loadPair { check := true, clr := true } .integer false o.qp o.f1 o.f2 o.r3 s := rfl
theorem exec_ldfp8CClrF1F2R316 (o : OpM11) (s : State) :
    exec (.ldfp8CClrF1F2R316 o) s = loadPair { check := true, clr := true } .integer true o.qp o.f1 o.f2 o.r3 s := rfl
theorem exec_ldfpsCClrF1F2R3 (o : OpM11) (s : State) :
    exec (.ldfpsCClrF1F2R3 o) s = loadPair { check := true, clr := true } .single false o.qp o.f1 o.f2 o.r3 s := rfl
theorem exec_ldfpsCClrF1F2R38 (o : OpM11) (s : State) :
    exec (.ldfpsCClrF1F2R38 o) s = loadPair { check := true, clr := true } .single true o.qp o.f1 o.f2 o.r3 s := rfl
theorem exec_ldfpdCClrF1F2R3 (o : OpM11) (s : State) :
    exec (.ldfpdCClrF1F2R3 o) s = loadPair { check := true, clr := true } .double false o.qp o.f1 o.f2 o.r3 s := rfl
theorem exec_ldfpdCClrF1F2R316 (o : OpM11) (s : State) :
    exec (.ldfpdCClrF1F2R316 o) s = loadPair { check := true, clr := true } .double true o.qp o.f1 o.f2 o.r3 s := rfl
theorem exec_ldfp8CNcF1F2R3 (o : OpM11) (s : State) :
    exec (.ldfp8CNcF1F2R3 o) s = loadPair { check := true } .integer false o.qp o.f1 o.f2 o.r3 s := rfl
theorem exec_ldfp8CNcF1F2R316 (o : OpM11) (s : State) :
    exec (.ldfp8CNcF1F2R316 o) s = loadPair { check := true } .integer true o.qp o.f1 o.f2 o.r3 s := rfl
theorem exec_ldfpsCNcF1F2R3 (o : OpM11) (s : State) :
    exec (.ldfpsCNcF1F2R3 o) s = loadPair { check := true } .single false o.qp o.f1 o.f2 o.r3 s := rfl
theorem exec_ldfpsCNcF1F2R38 (o : OpM11) (s : State) :
    exec (.ldfpsCNcF1F2R38 o) s = loadPair { check := true } .single true o.qp o.f1 o.f2 o.r3 s := rfl
theorem exec_ldfpdCNcF1F2R3 (o : OpM11) (s : State) :
    exec (.ldfpdCNcF1F2R3 o) s = loadPair { check := true } .double false o.qp o.f1 o.f2 o.r3 s := rfl
theorem exec_ldfpdCNcF1F2R316 (o : OpM11) (s : State) :
    exec (.ldfpdCNcF1F2R316 o) s = loadPair { check := true } .double true o.qp o.f1 o.f2 o.r3 s := rfl
theorem exec_lfetchR3 (o : OpM13) (s : State) : exec (.lfetchR3 o) s = lineFetch false o.qp o.r3 .none s := rfl
theorem exec_lfetchR3R2 (o : OpM4) (s : State) : exec (.lfetchR3R2 o) s = lineFetch false o.qp o.r3 (.reg o.r2) s := rfl
theorem exec_lfetchR3Imm9 (o : OpM15) (s : State) :
    exec (.lfetchR3Imm9 o) s = lineFetch false o.qp o.r3 (.imm (simm o.imm9)) s := rfl
theorem exec_lfetchExclR3 (o : OpM13) (s : State) : exec (.lfetchExclR3 o) s = lineFetch false o.qp o.r3 .none s := rfl
theorem exec_lfetchExclR3R2 (o : OpM4) (s : State) :
    exec (.lfetchExclR3R2 o) s = lineFetch false o.qp o.r3 (.reg o.r2) s := rfl
theorem exec_lfetchExclR3Imm9 (o : OpM15) (s : State) :
    exec (.lfetchExclR3Imm9 o) s = lineFetch false o.qp o.r3 (.imm (simm o.imm9)) s := rfl
theorem exec_lfetchFaultR3 (o : OpM13) (s : State) : exec (.lfetchFaultR3 o) s = lineFetch true o.qp o.r3 .none s := rfl
theorem exec_lfetchFaultR3R2 (o : OpM4) (s : State) :
    exec (.lfetchFaultR3R2 o) s = lineFetch true o.qp o.r3 (.reg o.r2) s := rfl
theorem exec_lfetchFaultR3Imm9 (o : OpM15) (s : State) :
    exec (.lfetchFaultR3Imm9 o) s = lineFetch true o.qp o.r3 (.imm (simm o.imm9)) s := rfl
theorem exec_lfetchFaultExclR3 (o : OpM13) (s : State) :
    exec (.lfetchFaultExclR3 o) s = lineFetch true o.qp o.r3 .none s := rfl
theorem exec_lfetchFaultExclR3R2 (o : OpM4) (s : State) :
    exec (.lfetchFaultExclR3R2 o) s = lineFetch true o.qp o.r3 (.reg o.r2) s := rfl
theorem exec_lfetchFaultExclR3Imm9 (o : OpM15) (s : State) :
    exec (.lfetchFaultExclR3Imm9 o) s = lineFetch true o.qp o.r3 (.imm (simm o.imm9)) s := rfl
theorem exec_cmpxchg1Acq (o : OpM2) (s : State) : exec (.cmpxchg1Acq o) s = cmpxchg 1 o.qp o.r1 o.r3 o.r2 s := rfl
theorem exec_cmpxchg1Rel (o : OpM2) (s : State) : exec (.cmpxchg1Rel o) s = cmpxchg 1 o.qp o.r1 o.r3 o.r2 s := rfl
theorem exec_xchg1 (o : OpM2) (s : State) : exec (.xchg1 o) s = xchg 1 o.qp o.r1 o.r3 o.r2 s := rfl
theorem exec_cmpxchg2Acq (o : OpM2) (s : State) : exec (.cmpxchg2Acq o) s = cmpxchg 2 o.qp o.r1 o.r3 o.r2 s := rfl
theorem exec_cmpxchg2Rel (o : OpM2) (s : State) : exec (.cmpxchg2Rel o) s = cmpxchg 2 o.qp o.r1 o.r3 o.r2 s := rfl
theorem exec_xchg2 (o : OpM2) (s : State) : exec (.xchg2 o) s = xchg 2 o.qp o.r1 o.r3 o.r2 s := rfl
theorem exec_cmpxchg4Acq (o : OpM2) (s : State) : exec (.cmpxchg4Acq o) s = cmpxchg 4 o.qp o.r1 o.r3 o.r2 s := rfl
theorem exec_cmpxchg4Rel (o : OpM2) (s : State) : exec (.cmpxchg4Rel o) s = cmpxchg 4 o.qp o.r1 o.r3 o.r2 s := rfl
theorem exec_xchg4 (o : OpM2) (s : State) : exec (.xchg4 o) s = xchg 4 o.qp o.r1 o.r3 o.r2 s := rfl
theorem exec_cmpxchg8Acq (o : OpM2) (s : State) : exec (.cmpxchg8Acq o) s = cmpxchg 8 o.qp o.r1 o.r3 o.r2 s := rfl
theorem exec_cmpxchg8Rel (o : OpM2) (s : State) : exec (.cmpxchg8Rel o) s = cmpxchg 8 o.qp o.r1 o.r3 o.r2 s := rfl
theorem exec_xchg8 (o : OpM2) (s : State) : exec (.xchg8 o) s = xchg 8 o.qp o.r1 o.r3 o.r2 s := rfl
theorem exec_cmp8xchg16Acq (o : OpM2) (s : State) : exec (.cmp8xchg16Acq o) s = cmp8xchg16 o.qp o.r1 o.r3 o.r2 s := rfl
theorem exec_cmp8xchg16Rel (o : OpM2) (s : State) : exec (.cmp8xchg16Rel o) s = cmp8xchg16 o.qp o.r1 o.r3 o.r2 s := rfl
theorem exec_fetchadd4Acq (o : OpM17) (s : State) :
    exec (.fetchadd4Acq o) s = fetchadd 4 o.qp o.r1 o.r3 (inc3 o.s o.i2b) s := rfl
theorem exec_fetchadd8Acq (o : OpM17) (s : State) :
    exec (.fetchadd8Acq o) s = fetchadd 8 o.qp o.r1 o.r3 (inc3 o.s o.i2b) s := rfl
theorem exec_fetchadd4Rel (o : OpM17) (s : State) :
    exec (.fetchadd4Rel o) s = fetchadd 4 o.qp o.r1 o.r3 (inc3 o.s o.i2b) s := rfl
theorem exec_fetchadd8Rel (o : OpM17) (s : State) :
    exec (.fetchadd8Rel o) s = fetchadd 8 o.qp o.r1 o.r3 (inc3 o.s o.i2b) s := rfl
theorem exec_setfSig (o : OpM18) (s : State) : exec (.setfSig o) s = setfOp o.qp o.f1 o.r2 sigFr s := rfl
theorem exec_getfSig (o : OpM19) (s : State) : exec (.getfSig o) s = getfOp o.qp o.r1 o.f2 frSig s := rfl
theorem exec_setfExp (o : OpM18) (s : State) : exec (.setfExp o) s = setfOp o.qp o.f1 o.r2 expFr s := rfl
theorem exec_getfExp (o : OpM19) (s : State) : exec (.getfExp o) s = getfOp o.qp o.r1 o.f2 frExpWord s := rfl
theorem exec_setfS (o : OpM18) (s : State) :
    exec (.setfS o) s = setfOp o.qp o.f1 o.r2 (fun w => fromMemory .single (w.toNat % 2 ^ 32)) s := rfl
theorem exec_getfS (o : OpM19) (s : State) :
    exec (.getfS o) s = getfOp o.qp o.r1 o.f2 (fun f => BitVec.ofNat 64 (toMemory .single f)) s := rfl
theorem exec_setfD (o : OpM18) (s : State) :
    exec (.setfD o) s = setfOp o.qp o.f1 o.r2 (fun w => fromMemory .double w.toNat) s := rfl
theorem exec_getfD (o : OpM19) (s : State) :
    exec (.getfD o) s = getfOp o.qp o.r1 o.f2 (fun f => BitVec.ofNat 64 (toMemory .double f)) s := rfl
theorem exec_chkSMR2 (o : OpI20) (s : State) : exec (.chkSMR2 o) s = chkS o.qp o.r2 o.target25 s := rfl
theorem exec_chkSF2 (o : OpM21) (s : State) : exec (.chkSF2 o) s = chkSFp o.qp o.f2 o.target25 s := rfl
theorem exec_chkANcR1 (o : OpM22) (s : State) : exec (.chkANcR1 o) s = chkA false false o.qp o.r1 o.target25 s := rfl
theorem exec_chkAClrR1 (o : OpM22) (s : State) : exec (.chkAClrR1 o) s = chkA false true o.qp o.r1 o.target25 s := rfl
theorem exec_chkANcF1 (o : OpM23) (s : State) : exec (.chkANcF1 o) s = chkA true false o.qp o.f1 o.target25 s := rfl
theorem exec_chkAClrF1 (o : OpM23) (s : State) : exec (.chkAClrF1 o) s = chkA true true o.qp o.f1 o.target25 s := rfl
theorem exec_breakM (o : OpI19) (s : State) : exec (.breakM o) s = breakOp o.qp (uimm o.imm21) false s := rfl
theorem exec_invala (o : OpM24) (s : State) : exec (.invala o) s = invalidateAlat o.qp s := rfl
theorem exec_fwb (o : OpM24) (s : State) : exec (.fwb o) s = noEffect o.qp s := rfl
theorem exec_srlzD (o : OpM24) (s : State) : exec (.srlzD o) s = noEffect o.qp s := rfl
theorem exec_nopM (o : OpI19) (s : State) : exec (.nopM o) s = nopOp o.qp false s := rfl
theorem exec_hintM (o : OpI19) (s : State) : exec (.hintM o) s = hintOp o.qp (decide (o.imm21 = 0#21)) false s := rfl
theorem exec_srlzI (o : OpM24) (s : State) : exec (.srlzI o) s = serializeInstr o.qp s := rfl
theorem exec_invalaER1 (o : OpI25) (s : State) : exec (.invalaER1 o) s = invalidateEntry false o.qp o.r1 s := rfl
theorem exec_mf (o : OpM24) (s : State) : exec (.mf o) s = noEffect o.qp s := rfl
theorem exec_invalaEF1 (o : OpM27) (s : State) : exec (.invalaEF1 o) s = invalidateEntry true o.qp o.f1 s := rfl
theorem exec_mfA (o : OpM24) (s : State) : exec (.mfA o) s = noEffect o.qp s := rfl
theorem exec_syncI (o : OpM24) (s : State) : exec (.syncI o) s = noEffect o.qp s := rfl
theorem exec_sum (o : OpM44) (s : State) : exec (.sum o) s = userMask o.qp o.imm24 s (fun w m => w ||| m) := rfl
theorem exec_rum (o : OpM44) (s : State) : exec (.rum o) s = userMask o.qp o.imm24 s (fun w m => w &&& ~~~m) := rfl
theorem exec_ssm (o : OpM44) (s : State) : exec (.ssm o) s = systemMask true o.qp o.imm24 s := rfl
theorem exec_rsm (o : OpM44) (s : State) : exec (.rsm o) s = systemMask false o.qp o.imm24 s := rfl
theorem exec_movMAr3Imm8 (o : OpI27) (s : State) : exec (.movMAr3Imm8 o) s = movToArImm false o.qp o.ar3 o.imm8 s := rfl
theorem exec_loadrs (o : OpM24) (s : State) : exec (.loadrs o) s = loadStack s := rfl
theorem exec_flushrs (o : OpM24) (s : State) : exec (.flushrs o) s = flushStack s := rfl
theorem exec_movRrR3R2 (o : OpM42) (s : State) : exec (.movRrR3R2 o) s = movToIndirect .rr o.qp o.r3 o.r2 s := rfl
theorem exec_movR1RrR3 (o : OpI29) (s : State) : exec (.movR1RrR3 o) s = movFromIndirect .rr o.qp o.r1 o.r3 s := rfl
theorem exec_movDbrR3R2 (o : OpM42) (s : State) : exec (.movDbrR3R2 o) s = movToIndirect .dbr o.qp o.r3 o.r2 s := rfl
theorem exec_movR1DbrR3 (o : OpI29) (s : State) : exec (.movR1DbrR3 o) s = movFromIndirect .dbr o.qp o.r1 o.r3 s := rfl
theorem exec_movIbrR3R2 (o : OpM42) (s : State) : exec (.movIbrR3R2 o) s = movToIndirect .ibr o.qp o.r3 o.r2 s := rfl
theorem exec_movR1IbrR3 (o : OpI29) (s : State) : exec (.movR1IbrR3 o) s = movFromIndirect .ibr o.qp o.r1 o.r3 s := rfl
theorem exec_movPkrR3R2 (o : OpM42) (s : State) : exec (.movPkrR3R2 o) s = movToIndirect .pkr o.qp o.r3 o.r2 s := rfl
theorem exec_movR1PkrR3 (o : OpI29) (s : State) : exec (.movR1PkrR3 o) s = movFromIndirect .pkr o.qp o.r1 o.r3 s := rfl
theorem exec_movPmcR3R2 (o : OpM42) (s : State) : exec (.movPmcR3R2 o) s = movToIndirect .pmc o.qp o.r3 o.r2 s := rfl
theorem exec_movR1PmcR3 (o : OpI29) (s : State) : exec (.movR1PmcR3 o) s = movFromIndirect .pmc o.qp o.r1 o.r3 s := rfl
theorem exec_movPmdR3R2 (o : OpM42) (s : State) : exec (.movPmdR3R2 o) s = movToIndirect .pmd o.qp o.r3 o.r2 s := rfl
theorem exec_movR1PmdR3 (o : OpI29) (s : State) : exec (.movR1PmdR3 o) s = movFromIndirect .pmd o.qp o.r1 o.r3 s := rfl
theorem exec_movR1CpuidR3 (o : OpI29) (s : State) : exec (.movR1CpuidR3 o) s = movFromCpuid o.qp o.r1 o.r3 s := rfl
theorem exec_ptcLR3R2 (o : OpM42) (s : State) : exec (.ptcLR3R2 o) s = purgeCaches o.qp o.r3 o.r2 s := rfl
theorem exec_ptcGR3R2 (o : OpM42) (s : State) : exec (.ptcGR3R2 o) s = purgeCaches o.qp o.r3 o.r2 s := rfl
theorem exec_ptcGaR3R2 (o : OpM42) (s : State) : exec (.ptcGaR3R2 o) s = purgeCachesAlat o.qp o.r3 o.r2 s := rfl
theorem exec_ptrDR3R2 (o : OpM42) (s : State) : exec (.ptrDR3R2 o) s = purgeRegisters false o.qp o.r3 o.r2 s := rfl
theorem exec_ptrIR3R2 (o : OpM42) (s : State) : exec (.ptrIR3R2 o) s = purgeRegisters true o.qp o.r3 o.r2 s := rfl
theorem exec_ptcER3 (o : OpM47) (s : State) : exec (.ptcER3 o) s = purgePartial o.qp o.r3 s := rfl
theorem exec_itrDDtrR3R2 (o : OpM42) (s : State) : exec (.itrDDtrR3R2 o) s = itrInsert false o.qp o.r3 o.r2 s := rfl
theorem exec_itrIItrR3R2 (o : OpM42) (s : State) : exec (.itrIItrR3R2 o) s = itrInsert true o.qp o.r3 o.r2 s := rfl
theorem exec_itcDR2 (o : OpM41) (s : State) : exec (.itcDR2 o) s = itcInsert false o.qp o.r2 s := rfl
theorem exec_itcIR2 (o : OpM41) (s : State) : exec (.itcIR2 o) s = itcInsert true o.qp o.r2 s := rfl
theorem exec_probeRR1R3Imm2 (o : OpM39) (s : State) :
    exec (.probeRR1R3Imm2 o) s = probe false o.qp o.r1 o.r3 (.ok o.i2b) s := rfl
theorem exec_probeWR1R3Imm2 (o : OpM39) (s : State) :
    exec (.probeWR1R3Imm2 o) s = probe true o.qp o.r1 o.r3 (.ok o.i2b) s := rfl
theorem exec_probeRR1R3R2 (o : OpA1) (s : State) :
    exec (.probeRR1R3R2 o) s = probe false o.qp o.r1 o.r3 (probeLevel false s o.r2) s := rfl
theorem exec_probeWR1R3R2 (o : OpA1) (s : State) :
    exec (.probeWR1R3R2 o) s = probe true o.qp o.r1 o.r3 (probeLevel true s o.r2) s := rfl
theorem exec_probeRwFaultR3Imm2 (o : OpM40) (s : State) :
    exec (.probeRwFaultR3Imm2 o) s = probeFault .readWrite o.qp o.r3 o.i2b s := rfl
theorem exec_probeRFaultR3Imm2 (o : OpM40) (s : State) :
    exec (.probeRFaultR3Imm2 o) s = probeFault .read o.qp o.r3 o.i2b s := rfl
theorem exec_probeWFaultR3Imm2 (o : OpM40) (s : State) :
    exec (.probeWFaultR3Imm2 o) s = probeFault .write o.qp o.r3 o.i2b s := rfl
theorem exec_thash (o : OpI29) (s : State) : exec (.thash o) s = hashQuery thash o.qp o.r1 o.r3 s := rfl
theorem exec_ttag (o : OpI29) (s : State) :
    exec (.ttag o) s = hashQuery (fun _ rr va => ttag rr va) o.qp o.r1 o.r3 s := rfl
theorem exec_tpa (o : OpI29) (s : State) : exec (.tpa o) s = tpaQuery o.qp o.r1 o.r3 s := rfl
theorem exec_tak (o : OpI29) (s : State) : exec (.tak o) s = takQuery o.qp o.r1 o.r3 s := rfl
theorem exec_movR1PsrUm (o : OpI25) (s : State) :
    exec (.movR1PsrUm o) s = movToGr o.qp o.r1 (userMaskRead s.lp.psr) s := rfl
theorem exec_movMR1Ar3 (o : OpI28) (s : State) : exec (.movMR1Ar3 o) s = movFromAr false o.qp o.r1 o.ar3 s := rfl
theorem exec_movR1Cr3 (o : OpM33) (s : State) : exec (.movR1Cr3 o) s = movFromCr o.qp o.r1 o.cr3 s := rfl
theorem exec_movR1Psr (o : OpI25) (s : State) : exec (.movR1Psr o) s = movFromPsr o.qp o.r1 s := rfl
theorem exec_movPsrUmR2 (o : OpM41) (s : State) : exec (.movPsrUmR2 o) s = movToPsrUm o.qp o.r2 s := rfl
theorem exec_movMAr3R2 (o : OpI26) (s : State) : exec (.movMAr3R2 o) s = movToAr false o.qp o.ar3 o.r2 s := rfl
theorem exec_movCr3R2 (o : OpM32) (s : State) : exec (.movCr3R2 o) s = movToCr o.qp o.cr3 o.r2 s := rfl
theorem exec_movPsrLR2 (o : OpM41) (s : State) : exec (.movPsrLR2 o) s = movToPsrL o.qp o.r2 s := rfl
theorem exec_fcR3 (o : OpM47) (s : State) : exec (.fcR3 o) s = flushLine o.qp o.r3 s := rfl
theorem exec_fcIR3 (o : OpM47) (s : State) : exec (.fcIR3 o) s = flushLine o.qp o.r3 s := rfl
theorem exec_allocR1ArPfsILOR (o : OpM34) (s : State) :
    exec (.allocR1ArPfsILOR o) s = allocFrame o.qp o.r1 o.sof.toNat o.sol.toNat o.sor.toNat s := rfl
theorem exec_brCondTarget25 (o : OpB1) (s : State) :
    exec (.brCondTarget25 o) s = branchCond .ipRelative false o.qp (ipTarget s.lp.ip o.target25) s := rfl
theorem exec_brWexitTarget25 (o : OpB1) (s : State) :
    exec (.brWexitTarget25 o) s = branchWhile true o.qp (ipTarget s.lp.ip o.target25) s := rfl
theorem exec_brWtopTarget25 (o : OpB1) (s : State) :
    exec (.brWtopTarget25 o) s = branchWhile false o.qp (ipTarget s.lp.ip o.target25) s := rfl
theorem exec_brCloopTarget25 (o : OpB1) (s : State) :
    exec (.brCloopTarget25 o) s = branchCloop o.qp (ipTarget s.lp.ip o.target25) s := rfl
theorem exec_brCexitTarget25 (o : OpB1) (s : State) :
    exec (.brCexitTarget25 o) s = branchCounted true o.qp (ipTarget s.lp.ip o.target25) s := rfl
theorem exec_brCtopTarget25 (o : OpB1) (s : State) :
    exec (.brCtopTarget25 o) s = branchCounted false o.qp (ipTarget s.lp.ip o.target25) s := rfl
theorem exec_brCallB1Target25 (o : OpB3) (s : State) :
    exec (.brCallB1Target25 o) s = branchCall .ipRelative false o.qp o.b1 (ipTarget s.lp.ip o.target25) s := rfl
theorem exec_brCondB2 (o : OpB4) (s : State) :
    exec (.brCondB2 o) s = branchCond .indirect false o.qp (s.lp.br? o.b2) s := rfl
theorem exec_brIaB2 (o : OpB4) (s : State) : exec (.brIaB2 o) s = branchIa o.qp o.b2 s := rfl
theorem exec_brRetB2 (o : OpB4) (s : State) : exec (.brRetB2 o) s = branchRet o.qp o.b2 s := rfl
theorem exec_brCallB1B2 (o : OpB5) (s : State) :
    exec (.brCallB1B2 o) s = branchCall .indirect false o.qp o.b1 (s.lp.br? o.b2) s := rfl
theorem exec_brpTarget25Tag13 (s : State) : exec .brpTarget25Tag13 s = always s (.ok s) := rfl
theorem exec_brpB2Tag13 (s : State) : exec .brpB2Tag13 s = always s (.ok s) := rfl
theorem exec_brpRetB2Tag13 (s : State) : exec .brpRetB2Tag13 s = always s (.ok s) := rfl
theorem exec_cover (s : State) : exec .cover s = always s (.ok (coverFrame s)) := rfl
theorem exec_clrrrb (s : State) : exec .clrrrb s = always s (.ok (clearRename true s)) := rfl
theorem exec_clrrrbPr (s : State) : exec .clrrrbPr s = always s (.ok (clearRename false s)) := rfl
theorem exec_rfi (s : State) : exec .rfi s = returnFromInterruption s := rfl
theorem exec_bsw0 (s : State) : exec .bsw0 s = bankSwitch false s := rfl
theorem exec_bsw1 (s : State) : exec .bsw1 s = bankSwitch true s := rfl
theorem exec_epc (s : State) : exec .epc s = enterPrivileged s := rfl
theorem exec_vmsw0 (o : OpM24) (s : State) : exec (.vmsw0 o) s = switchVirtual o.qp s := rfl
theorem exec_vmsw1 (o : OpM24) (s : State) : exec (.vmsw1 o) s = switchVirtual o.qp s := rfl
theorem exec_breakB (o : OpI19) (s : State) : exec (.breakB o) s = breakOp o.qp 0#64 false s := rfl
theorem exec_nopB (o : OpI19) (s : State) : exec (.nopB o) s = nopOp o.qp false s := rfl
theorem exec_hintB (o : OpI19) (s : State) : exec (.hintB o) s = nopOp o.qp false s := rfl
theorem exec_fma (o : OpF1) (s : State) : exec (.fma o) s = fusedOp .fma .dynamic (fmaWeight o) o s := rfl
theorem exec_fmaS (o : OpF1) (s : State) : exec (.fmaS o) s = fusedOp .fma .single (fmaWeight o) o s := rfl
theorem exec_fmaD (o : OpF1) (s : State) : exec (.fmaD o) s = fusedOp .fma .double (fmaWeight o) o s := rfl
theorem exec_fpma (o : OpF1) (s : State) : exec (.fpma o) s = fusedOp .fpma .dynamic (fpmaWeight o) o s := rfl
theorem exec_fms (o : OpF1) (s : State) : exec (.fms o) s = fusedOp .fms .dynamic (fmaWeight o) o s := rfl
theorem exec_fmsS (o : OpF1) (s : State) : exec (.fmsS o) s = fusedOp .fms .single (fmaWeight o) o s := rfl
theorem exec_fmsD (o : OpF1) (s : State) : exec (.fmsD o) s = fusedOp .fms .double (fmaWeight o) o s := rfl
theorem exec_fpms (o : OpF1) (s : State) : exec (.fpms o) s = fusedOp .fpms .dynamic (fpmaWeight o) o s := rfl
theorem exec_fnma (o : OpF1) (s : State) : exec (.fnma o) s = fusedOp .fnma .dynamic (fmaWeight o) o s := rfl
theorem exec_fnmaS (o : OpF1) (s : State) : exec (.fnmaS o) s = fusedOp .fnma .single (fmaWeight o) o s := rfl
theorem exec_fnmaD (o : OpF1) (s : State) : exec (.fnmaD o) s = fusedOp .fnma .double (fmaWeight o) o s := rfl
theorem exec_fpnma (o : OpF1) (s : State) : exec (.fpnma o) s = fusedOp .fpnma .dynamic (fpmaWeight o) o s := rfl
theorem exec_xma (o : OpF2) (s : State) : exec (.xma o) s = xmaOp o s := rfl
theorem exec_fselect (o : OpF3) (s : State) : exec (.fselect o) s = fselectOp o s := rfl
theorem exec_fcmp (o : OpF4) (s : State) : exec (.fcmp o) s = fpCompareOp o s := rfl
theorem exec_fclassM (o : OpF5) (s : State) : exec (.fclassM o) s = fclassOp o s := rfl
theorem exec_frcpa (o : OpF6) (s : State) :
    exec (.frcpa o) s = approximate .frcpa 1 o.sf o.qp o.p2 o.f1 o.f2 o.f3 s := rfl
theorem exec_fprcpa (o : OpF6) (s : State) :
    exec (.fprcpa o) s = approximate .fprcpa 2 o.sf o.qp o.p2 o.f1 o.f2 o.f3 s := rfl
theorem exec_frsqrta (o : OpF7) (s : State) :
    exec (.frsqrta o) s = approximate .frsqrta 1 o.sf o.qp o.p2 o.f1 o.f3 0#7 s := rfl
theorem exec_fprsqrta (o : OpF7) (s : State) :
    exec (.fprsqrta o) s = approximate .fprsqrta 2 o.sf o.qp o.p2 o.f1 o.f3 0#7 s := rfl
theorem exec_fmin (o : OpF8) (s : State) : exec (.fmin o) s = fpArith2 .fmin 1 o s := rfl
theorem exec_fmax (o : OpF8) (s : State) : exec (.fmax o) s = fpArith2 .fmax 1 o s := rfl
theorem exec_famin (o : OpF8) (s : State) : exec (.famin o) s = fpArith2 .famin 1 o s := rfl
theorem exec_famax (o : OpF8) (s : State) : exec (.famax o) s = fpArith2 .famax 1 o s := rfl
theorem exec_fpmin (o : OpF8) (s : State) : exec (.fpmin o) s = fpArith2 .fpmin 1 o s := rfl
theorem exec_fpmax (o : OpF8) (s : State) : exec (.fpmax o) s = fpArith2 .fpmax 2 o s := rfl
theorem exec_fpamin (o : OpF8) (s : State) : exec (.fpamin o) s = fpArith2 .fpamin 2 o s := rfl
theorem exec_fpamax (o : OpF8) (s : State) : exec (.fpamax o) s = fpArith2 .fpamax 2 o s := rfl
theorem exec_fpcmpFrelCode0 (o : OpF8) (s : State) : exec (.fpcmpFrelCode0 o) s = fpArith2 (.fpcmp 0#3) 2 o s := rfl
theorem exec_fpcmpFrelCode1 (o : OpF8) (s : State) : exec (.fpcmpFrelCode1 o) s = fpArith2 (.fpcmp 1#3) 2 o s := rfl
theorem exec_fpcmpFrelCode2 (o : OpF8) (s : State) : exec (.fpcmpFrelCode2 o) s = fpArith2 (.fpcmp 2#3) 2 o s := rfl
theorem exec_fpcmpFrelCode3 (o : OpF8) (s : State) : exec (.fpcmpFrelCode3 o) s = fpArith2 (.fpcmp 3#3) 2 o s := rfl
theorem exec_fpcmpFrelCode4 (o : OpF8) (s : State) : exec (.fpcmpFrelCode4 o) s = fpArith2 (.fpcmp 4#3) 2 o s := rfl
theorem exec_fpcmpFrelCode5 (o : OpF8) (s : State) : exec (.fpcmpFrelCode5 o) s = fpArith2 (.fpcmp 5#3) 2 o s := rfl
theorem exec_fpcmpFrelCode6 (o : OpF8) (s : State) : exec (.fpcmpFrelCode6 o) s = fpArith2 (.fpcmp 6#3) 2 o s := rfl
theorem exec_fpcmpFrelCode7 (o : OpF8) (s : State) : exec (.fpcmpFrelCode7 o) s = fpArith2 (.fpcmp 7#3) 2 o s := rfl
theorem exec_fmergeS (o : OpF9) (s : State) : exec (.fmergeS o) s = fpMove o fmergeS s := rfl
theorem exec_fmergeNs (o : OpF9) (s : State) : exec (.fmergeNs o) s = fpMove o fmergeNs s := rfl
theorem exec_fmergeSe (o : OpF9) (s : State) : exec (.fmergeSe o) s = fpMove o fmergeSe s := rfl
theorem exec_fmixLr (o : OpF9) (s : State) : exec (.fmixLr o) s = fpMove o fmixLr s := rfl
theorem exec_fmixR (o : OpF9) (s : State) : exec (.fmixR o) s = fpMove o fmixR s := rfl
theorem exec_fmixL (o : OpF9) (s : State) : exec (.fmixL o) s = fpMove o fmixL s := rfl
theorem exec_fsxtR (o : OpF9) (s : State) : exec (.fsxtR o) s = fpMove o fsxtR s := rfl
theorem exec_fsxtL (o : OpF9) (s : State) : exec (.fsxtL o) s = fpMove o fsxtL s := rfl
theorem exec_fpack (o : OpF9) (s : State) : exec (.fpack o) s = fpMove o fpackPair s := rfl
theorem exec_fswap (o : OpF9) (s : State) : exec (.fswap o) s = fpMove o fswapPlain s := rfl
theorem exec_fswapNl (o : OpF9) (s : State) : exec (.fswapNl o) s = fpMove o fswapNl s := rfl
theorem exec_fswapNr (o : OpF9) (s : State) : exec (.fswapNr o) s = fpMove o fswapNr s := rfl
theorem exec_fand (o : OpF9) (s : State) : exec (.fand o) s = fpMove o (fpLogic (fun x y => x &&& y)) s := rfl
theorem exec_fandcm (o : OpF9) (s : State) : exec (.fandcm o) s = fpMove o (fpLogic (fun x y => x &&& ~~~y)) s := rfl
theorem exec_fOr (o : OpF9) (s : State) : exec (.fOr o) s = fpMove o (fpLogic (fun x y => x ||| y)) s := rfl
theorem exec_fxor (o : OpF9) (s : State) : exec (.fxor o) s = fpMove o (fpLogic (fun x y => x ^^^ y)) s := rfl
theorem exec_fpmergeS (o : OpF9) (s : State) : exec (.fpmergeS o) s = fpMove o fpmergeS s := rfl
theorem exec_fpmergeNs (o : OpF9) (s : State) : exec (.fpmergeNs o) s = fpMove o fpmergeNs s := rfl
theorem exec_fpmergeSe (o : OpF9) (s : State) : exec (.fpmergeSe o) s = fpMove o fpmergeSe s := rfl
theorem exec_fcvtFx (o : OpF10) (s : State) : exec (.fcvtFx o) s = fpConvert .fcvtFx 1 o s := rfl
theorem exec_fpcvtFx (o : OpF10) (s : State) : exec (.fpcvtFx o) s = fpConvert .fpcvtFx 2 o s := rfl
theorem exec_fcvtFxu (o : OpF10) (s : State) : exec (.fcvtFxu o) s = fpConvert .fcvtFxu 1 o s := rfl
theorem exec_fpcvtFxu (o : OpF10) (s : State) : exec (.fpcvtFxu o) s = fpConvert .fpcvtFxu 2 o s := rfl
theorem exec_fcvtFxTrunc (o : OpF10) (s : State) : exec (.fcvtFxTrunc o) s = fpConvert .fcvtFxTrunc 1 o s := rfl
theorem exec_fpcvtFxTrunc (o : OpF10) (s : State) : exec (.fpcvtFxTrunc o) s = fpConvert .fpcvtFxTrunc 2 o s := rfl
theorem exec_fcvtFxuTrunc (o : OpF10) (s : State) : exec (.fcvtFxuTrunc o) s = fpConvert .fcvtFxuTrunc 1 o s := rfl
theorem exec_fpcvtFxuTrunc (o : OpF10) (s : State) : exec (.fpcvtFxuTrunc o) s = fpConvert .fpcvtFxuTrunc 2 o s := rfl
theorem exec_fcvtXf (o : OpF11) (s : State) :
    exec (.fcvtXf o) s = fpMove3 o.qp o.f1 o.f2 0#7 0#7 (fun x _ _ => fcvtXf x) s := rfl
theorem exec_fsetc (o : OpF12) (s : State) : exec (.fsetc o) s = setControls o s := rfl
theorem exec_fclrf (o : OpF13) (s : State) : exec (.fclrf o) s = clearFlags o s := rfl
theorem exec_fchkf (o : OpF14) (s : State) : exec (.fchkf o) s = checkFlags o s := rfl
theorem exec_breakF (o : OpI19) (s : State) : exec (.breakF o) s = breakOp o.qp (uimm o.imm21) false s := rfl
theorem exec_nopF (o : OpI19) (s : State) : exec (.nopF o) s = nopOp o.qp false s := rfl
theorem exec_hintF (o : OpI19) (s : State) : exec (.hintF o) s = hintOp o.qp (decide (o.imm21 = 0#21)) false s := rfl
theorem exec_breakX (o : OpX1) (s : State) : exec (.breakX o) s = breakOp o.qp (uimm o.imm21) true s := rfl
theorem exec_nopX (o : OpX1) (s : State) : exec (.nopX o) s = nopOp o.qp true s := rfl
theorem exec_hintX (o : OpX1) (s : State) :
    exec (.hintX o) s = hintOp o.qp (decide (o.imm21 = 0#21 ∧ o.imm41 = 0#41)) true s := rfl
theorem exec_movl (o : OpX2) (s : State) :
    exec (.movl o) s = alu0 o.qp o.r1 (movlImm o.i o.imm41 o.ic o.imm5c o.imm9d o.imm7b) s true := rfl
theorem exec_brlCondTarget64 (o : OpX3) (s : State) :
    exec (.brlCondTarget64 o) s = branchCond .ipRelative true o.qp (longTarget s.lp.ip o.i o.imm41 o.imm20b) s := rfl
theorem exec_brlCallB1Target64 (o : OpX4) (s : State) :
    exec (.brlCallB1Target64 o) s = branchCall .ipRelative true o.qp o.b1 (longTarget s.lp.ip o.i o.imm41 o.imm20b) s := rfl

end Sys2Proof.Machine
end

