-- ==== Sys2Proof/Laws/Memory.lean ====
section
/-!
SUPPORT. The laws of main memory: every write keeps the canonical form, a byte written is read back, every other byte stays,
and the same for several bytes in both byte orders.
-/

namespace Sys2Proof.Machine

open Sys2Proof.Config

/-! ## The canonical form -/

theorem memWfFrom_mono {m : List Host.Cell} {lo lo' : Nat} (h : lo' ≤ lo) (hw : memWfFrom lo m = true) :
    memWfFrom lo' m = true := by
  cases m with
  | nil => rfl
  | cons c cs =>
    simp only [memWfFrom, Bool.and_eq_true, decide_eq_true_eq] at hw ⊢
    exact ⟨⟨by omega, hw.1.2⟩, hw.2⟩

theorem memWfFrom_consCell {m : List Host.Cell} {lo a : Nat} {b : Byte} (h : lo ≤ a) (hw : memWfFrom (a + 1) m = true) :
    memWfFrom lo (consCell a b m) = true := by
  unfold consCell
  split
  · exact memWfFrom_mono (by omega) hw
  · simp [memWfFrom, *]

theorem memWfFrom_setByte {m : List Host.Cell} {lo a : Nat} {b : Byte} (h : lo ≤ a) (hw : memWfFrom lo m = true) :
    memWfFrom lo (setByte m a b) = true := by
  induction m generalizing lo with
  | nil => exact memWfFrom_consCell h rfl
  | cons c cs ih =>
    simp only [memWfFrom, Bool.and_eq_true, decide_eq_true_eq] at hw
    unfold setByte
    split
    · exact memWfFrom_consCell h (by simp [memWfFrom, hw.1.2, hw.2]; omega)
    · split
      · subst a; exact memWfFrom_consCell h hw.2
      · have : c.1 + 1 ≤ a := by omega
        simp [memWfFrom, hw.1.1, hw.1.2, ih this hw.2]

/-- A write of a byte keeps the canonical form. -/
theorem wf_setByte {m : List Host.Cell} (a : Nat) (b : Byte) (h : Memory.wf m = true) :
    Memory.wf (setByte m a b) = true := memWfFrom_setByte (Nat.zero_le a) h

theorem wf_writeLE {m : List Host.Cell} (a n v : Nat) (h : Memory.wf m = true) : Memory.wf (writeLE m a n v) = true := by
  induction n generalizing a v with
  | zero => exact h
  | succ n ih => exact wf_setByte _ _ (ih _ _)

theorem wf_writeBE {m : List Host.Cell} (a n v : Nat) (h : Memory.wf m = true) : Memory.wf (writeBE m a n v) = true := by
  induction n generalizing a with
  | zero => exact h
  | succ n ih => exact wf_setByte _ _ (ih _)

/-- A write of several bytes keeps the canonical form. -/
theorem wf_memWrite {m : List Host.Cell} (big : Bool) (a n v : Nat) (h : Memory.wf m = true) :
    Memory.wf (memWrite big m a n v) = true := by
  cases big
  · exact wf_writeLE _ _ _ h
  · exact wf_writeBE _ _ _ h

/-! ## One byte -/

theorem memByte_below {m : List Host.Cell} {lo a : Nat} (h : memWfFrom lo m = true) (ha : a < lo) :
    memByte m a = unlistedByte := by
  induction m generalizing lo with
  | nil => rfl
  | cons c cs ih =>
    simp only [memWfFrom, Bool.and_eq_true, decide_eq_true_eq] at h
    have : c.1 ≠ a := by omega
    simp only [memByte, this, if_false]
    exact ih h.2 (by omega)

theorem memByte_consCell {m : List Host.Cell} {a x : Nat} {b : Byte} (h : memWfFrom (a + 1) m = true) :
    memByte (consCell a b m) x = if x = a then b else memByte m x := by
  unfold consCell
  split
  · subst b; split
    · subst x; exact memByte_below h (by omega)
    · rfl
  · simp [memByte, eq_comm]

theorem memByte_setByte_from {m : List Host.Cell} {lo a x : Nat} {b : Byte} (hw : memWfFrom lo m = true) :
    memByte (setByte m a b) x = if x = a then b else memByte m x := by
  induction m generalizing lo with
  | nil => exact memByte_consCell rfl
  | cons c cs ih =>
    have hw' := hw
    simp only [memWfFrom, Bool.and_eq_true, decide_eq_true_eq] at hw
    unfold setByte
    split
    · rw [memByte_consCell (by simp [memWfFrom, hw.1.2, hw.2]; omega)]
    · split
      · subst a
        rw [memByte_consCell hw.2]
        split
        · rfl
        · simp only [memByte]; rw [if_neg (by omega)]
      · simp only [memByte]
        split
        · subst x; rw [if_neg (by omega)]
        · exact ih hw.2

/-- What a byte reads as after a byte is written. -/
theorem memByte_setByte {m : List Host.Cell} (a x : Nat) (b : Byte) (h : Memory.wf m = true) :
    memByte (setByte m a b) x = if x = a then b else memByte m x := memByte_setByte_from h

/-! ## Several bytes -/

theorem memByte_writeLE {m : List Host.Cell} (a n v x : Nat) (h : Memory.wf m = true) (hx : x < a ∨ a + n ≤ x) :
    memByte (writeLE m a n v) x = memByte m x := by
  induction n generalizing a v with
  | zero => rfl
  | succ n ih =>
    rw [writeLE, memByte_setByte _ _ _ (wf_writeLE _ _ _ h), if_neg (by omega)]
    exact ih _ _ (by omega)

theorem memByte_writeBE {m : List Host.Cell} (a n v x : Nat) (h : Memory.wf m = true) (hx : x < a ∨ a + n ≤ x) :
    memByte (writeBE m a n v) x = memByte m x := by
  induction n generalizing a with
  | zero => rfl
  | succ n ih =>
    rw [writeBE, memByte_setByte _ _ _ (wf_writeBE _ _ _ h), if_neg (by omega)]
    exact ih _ (by omega)

/-- A write leaves every byte outside it alone. -/
theorem memByte_memWrite {m : List Host.Cell} (big : Bool) (a n v x : Nat) (h : Memory.wf m = true)
    (hx : x < a ∨ a + n ≤ x) : memByte (memWrite big m a n v) x = memByte m x := by
  cases big
  · exact memByte_writeLE _ _ _ _ h hx
  · exact memByte_writeBE _ _ _ _ h hx

theorem readLE_setByte {m : List Host.Cell} (a n x : Nat) (b : Byte) (h : Memory.wf m = true) (hx : x < a) :
    readLE (setByte m x b) a n = readLE m a n := by
  induction n generalizing a with
  | zero => rfl
  | succ n ih => simp only [readLE]; rw [memByte_setByte _ _ _ h, if_neg (by omega), ih _ (by omega)]

theorem readBE_setByte {m : List Host.Cell} (a n x : Nat) (b : Byte) (h : Memory.wf m = true) (hx : x < a) :
    readBE (setByte m x b) a n = readBE m a n := by
  induction n generalizing a with
  | zero => rfl
  | succ n ih => simp only [readBE]; rw [memByte_setByte _ _ _ h, if_neg (by omega), ih _ (by omega)]

theorem readLE_writeLE {m : List Host.Cell} (a n v : Nat) (h : Memory.wf m = true) :
    readLE (writeLE m a n v) a n = v % 256 ^ n := by
  induction n generalizing a v with
  | zero => simp [readLE, Nat.mod_one]
  | succ n ih =>
    simp only [readLE, writeLE]
    rw [memByte_setByte _ _ _ (wf_writeLE _ _ _ h), if_pos rfl,
      readLE_setByte _ _ _ _ (wf_writeLE _ _ _ h) (by omega), ih, BitVec.toNat_ofNat]
    have e : (256 : Nat) ^ (n + 1) = 256 * 256 ^ n := by rw [Nat.pow_succ, Nat.mul_comm]
    rw [e, Nat.mod_mul]

theorem readBE_writeBE {m : List Host.Cell} (a n v : Nat) (h : Memory.wf m = true) :
    readBE (writeBE m a n v) a n = v % 256 ^ n := by
  induction n generalizing a with
  | zero => simp [readBE, Nat.mod_one]
  | succ n ih =>
    simp only [readBE, writeBE]
    rw [memByte_setByte _ _ _ (wf_writeBE _ _ _ h), if_pos rfl,
      readBE_setByte _ _ _ _ (wf_writeBE _ _ _ h) (by omega), ih, BitVec.toNat_ofNat]
    have e : (256 : Nat) ^ (n + 1) = 256 ^ n * 256 := Nat.pow_succ ..
    have e8 : (2 : Nat) ^ 8 = 256 := by decide
    rw [e, Nat.mod_mul, e8, Nat.mul_comm, Nat.add_comm]

/-- A write is read back. -/
theorem memRead_memWrite {m : List Host.Cell} (big : Bool) (a n v : Nat) (h : Memory.wf m = true) :
    memRead big (memWrite big m a n v) a n = v % 256 ^ n := by
  cases big
  · exact readLE_writeLE _ _ _ h
  · exact readBE_writeBE _ _ _ h

/-- What is read has as many bytes as are read. -/
theorem memRead_lt (big : Bool) (m : List Host.Cell) (a n : Nat) : memRead big m a n < 256 ^ n := by
  cases big
  · show readLE m a n < _
    induction n generalizing a with
    | zero => simp [readLE]
    | succ n ih =>
      have := ih (a + 1); have := (memByte m a).isLt
      simp only [readLE, Nat.pow_succ]; omega
  · show readBE m a n < _
    induction n generalizing a with
    | zero => simp [readBE]
    | succ n ih =>
      have := ih (a + 1); have := (memByte m a).isLt
      simp only [readBE, Nat.pow_succ]
      have h1 : (memByte m a).toNat * 256 ^ n ≤ 255 * 256 ^ n := Nat.mul_le_mul_right _ (by omega)
      omega

end Sys2Proof.Machine
end

