-- ==== Sys2Proof/Laws/Registers.lean ====
section
/-!
SUPPORT. Reading the registers of a state after one of them was written, and after an instruction has fallen through.
-/

namespace Sys2Proof.Machine

open Sys2Proof.Config

/-! ## General registers -/

@[simp] theorem setGr_grPlace (s : State) (r : BitVec 7) (v : Reg) (n : Nat) :
    (s.setGr r v).lp.grPlace n = s.lp.grPlace n := by
  simp only [State.setGr, setLp_lp]; exact setGrAt_grPlace ..

@[simp] theorem setGr_grWritable (s : State) (r q : BitVec 7) (v : Reg) :
    (s.setGr r v).lp.grWritable q = s.lp.grWritable q := by
  simp only [LP.grWritable, setGr_grPlace]

/-- A general register that may be written holds what was written. -/
theorem setGr_same {s : State} {r : BitVec 7} (v : Reg) (h : s.lp.grWritable r = true) :
    (s.setGr r v).lp.gr? r = v := by
  simp only [LP.gr?, setGr_grPlace]; exact grAt_setGrAt_same _ _ _ h

/-- Every other register is unchanged. -/
theorem setGr_other {s : State} {r : BitVec 7} {p : GrPlace} (v : Reg) (h : p ≠ s.lp.grPlace r.toNat) :
    (s.setGr r v).lp.grAt p = s.lp.grAt p := grAt_setGrAt_other _ _ _ _ h

/-- Only the general registers of the foreground thread change. -/
theorem setGr_only (s : State) (r : BitVec 7) (v : Reg) :
    s.setGr r v = { s with lp := { s.lp with gr := (s.setGr r v).lp.gr } } := by
  apply State.ext <;> try rfl
  apply LP.ext <;> simp

theorem postInc_none (s : State) (r3 : BitVec 7) (b i : Reg) (inc : Inc) (h : inc.updates = false) :
    s.postInc r3 b inc i = s := by simp [State.postInc, h]
theorem postInc_updates (s : State) (r3 : BitVec 7) (b i : Reg) (inc : Inc) (h : inc.updates = true) :
    s.postInc r3 b inc i = s.setGr r3 ⟨b.val + i.val, b.nat || i.nat⟩ := by simp [State.postInc, h]

@[simp] theorem postInc_grPlace (s : State) (r3 : BitVec 7) (b i : Reg) (inc : Inc) (n : Nat) :
    (s.postInc r3 b inc i).lp.grPlace n = s.lp.grPlace n := by
  unfold State.postInc; split <;> simp

theorem postInc_only (s : State) (r3 : BitVec 7) (b i : Reg) (inc : Inc) :
    s.postInc r3 b inc i = { s with lp := { s.lp with gr := (s.postInc r3 b inc i).lp.gr } } := by
  unfold State.postInc; split
  · exact setGr_only ..
  · rfl

@[simp] theorem setGr_bof (s : State) (r : BitVec 7) (v : Reg) : (s.setGr r v).lp.gr.bof = s.lp.gr.bof := by
  simp [State.setGr]
@[simp] theorem setGr_ndirty (s : State) (r : BitVec 7) (v : Reg) : (s.setGr r v).lp.gr.ndirty = s.lp.gr.ndirty := by
  simp [State.setGr]
@[simp] theorem postInc_bof (s : State) (r3 : BitVec 7) (b i : Reg) (inc : Inc) :
    (s.postInc r3 b inc i).lp.gr.bof = s.lp.gr.bof := by unfold State.postInc; split <;> simp
@[simp] theorem postInc_ndirty (s : State) (r3 : BitVec 7) (b i : Reg) (inc : Inc) :
    (s.postInc r3 b inc i).lp.gr.ndirty = s.lp.gr.ndirty := by unfold State.postInc; split <;> simp

/-! ## After an instruction that fell through -/

@[simp] theorem fallThrough_grAt (s u : State) (p : GrPlace) : (fallThrough s u).lp.grAt p = u.lp.grAt p := by
  cases p <;> rfl

/-- `advance` leaves the register bank in use. -/
theorem advance_bank (s u : State) (e : Ending) : (advance s u e).lp.psrBit 44 = u.lp.psrBit 44 :=
  advance_psr_bit s u e 44 (by omega) (by decide) (by omega)

@[simp] theorem fallThrough_grPlace (s u : State) (n : Nat) : (fallThrough s u).lp.grPlace n = u.lp.grPlace n :=
  grPlace_congr n rfl rfl (advance_bank s u {})

@[simp] theorem fallThrough_gr (s u : State) (r : BitVec 7) : (fallThrough s u).lp.gr? r = u.lp.gr? r := by
  simp [LP.gr?]

@[simp] theorem fallThrough_fr (s u : State) (f : BitVec 7) : (fallThrough s u).lp.fr? f = u.lp.fr? f := rfl

/-! ## Floating-point registers -/

theorem frIndex_lt (l : LP) (f : BitVec 7) (h : 2 ≤ f.toNat) : l.frIndex f.toNat < 126 := by
  have := f.isLt; unfold LP.frIndex; split <;> omega

theorem frIndex_inj (l : LP) (f g : BitVec 7) (hf : 2 ≤ f.toNat) (hg : 2 ≤ g.toNat)
    (h : l.frIndex f.toNat = l.frIndex g.toNat) : f = g := by
  have := f.isLt; have := g.isLt
  apply BitVec.eq_of_toNat_eq
  unfold LP.frIndex at h
  split at h <;> split at h <;> omega

/-- A floating-point register holds what was written. -/
theorem setFr_same {s : State} {f : BitVec 7} (v : FReg) (h : 2 ≤ f.toNat) : (s.setFr f v).lp.fr? f = v := by
  have h0 : f ≠ 0#7 := by rintro rfl; simp at h
  have h1 : f ≠ 1#7 := by rintro rfl; simp at h
  simp only [LP.fr?, h0, h1, if_false]
  exact getD_set_same _ _ _ _ (frIndex_lt s.lp f h)

/-- Every other floating-point register is unchanged. -/
theorem setFr_other {s : State} {f g : BitVec 7} (v : FReg) (h : 2 ≤ f.toNat) (hg : g ≠ f) :
    (s.setFr f v).lp.fr? g = s.lp.fr? g := by
  simp only [LP.fr?]
  split
  · rfl
  · split
    · rfl
    · rename_i h0 h1
      have h2 : 2 ≤ g.toNat := by
        have a : g.toNat ≠ 0 := fun e => h0 (BitVec.eq_of_toNat_eq e)
        have b : g.toNat ≠ 1 := fun e => h1 (BitVec.eq_of_toNat_eq e)
        omega
      exact getD_set_other _ _ _ _ _ fun e => hg (frIndex_inj s.lp f g h h2 e).symm

theorem setFr_only (s : State) (f : BitVec 7) (v : FReg) :
    s.setFr f v = { s with lp := { s.lp with fr := (s.setFr f v).lp.fr, psr := (s.setFr f v).lp.psr } } := rfl

theorem setBit_get (w : Word) (i j : Nat) (b : Bool) (h : j ≠ i) : (setBit w i b).getLsbD j = w.getLsbD j := by
  unfold setBit
  by_cases hj : j < i
  · cases b <;> simp [BitVec.getLsbD_or, BitVec.getLsbD_and, BitVec.getLsbD_not, hj, -BitVec.getLsbD_eq_getElem]
    intro hx; exact BitVec.lt_of_getLsbD hx
  · have h1 : (1#64).getLsbD (j - i) = false := by
      rw [BitVec.getLsbD_one]; simp; omega
    cases b <;> simp [BitVec.getLsbD_or, BitVec.getLsbD_and, BitVec.getLsbD_not, hj, h1,
      -BitVec.getLsbD_eq_getElem, -BitVec.getLsbD_one]
    intro hx; exact BitVec.lt_of_getLsbD hx

/-- A write of a floating-point register leaves every bit of the processor status but `mfl` and `mfh`. -/
theorem setFr_psrBit (s : State) (f : BitVec 7) (v : FReg) (j : Nat) (h : j ≠ 4 ∧ j ≠ 5) :
    (s.setFr f v).lp.psrBit j = s.lp.psrBit j := by
  simp only [LP.psrBit, State.setFr, setLp_lp]
  exact setBit_get _ _ _ _ (by split <;> omega)

/-- The processor status after a floating-point register is written does not depend on the value. -/
theorem setFr_psr (s : State) (f : BitVec 7) (v w : FReg) : (s.setFr f v).lp.psr = (s.setFr f w).lp.psr := rfl

end Sys2Proof.Machine
end

