-- ==== Sys2Proof/Laws/Mem.lean ====
section
/-!
SUPPORT. What the shared operations of the memory instructions answer on plain memory: loads in all their forms, stores,
pairs, prefetches and semaphores.
-/

namespace Sys2Proof.Machine

open Sys2Proof.Config

/-! ## Access to plain memory -/

/-- The conditions of a plain access depend on the processor status and the parameters. -/
theorem plainData_congr {s t : State} {va : Word} {n : Nat} (h : PlainData s va n) (hp : t.lp.psr = s.lp.psr)
    (hr : t.params = s.params) : PlainData t va n := by
  unfold PlainData LP.psrBit at *; rw [hp, hr]; exact h

theorem translate_plain {s : State} {va : Word} {n : Nat} {k : AccessKind} (h : PlainData s va n)
    (hk : s.lp.translates k = s.lp.psrBit 17) : translateAddr s va k = .ok (va.toNat, .wb) := by
  obtain ⟨h1, _, h3, h4, _⟩ := h
  have e : va.toNat % 2 ^ 63 = va.toNat := Nat.mod_eq_of_lt h3
  have b : va.getLsbD 63 = false := by
    rw [BitVec.getLsbD]; exact Nat.testBit_lt_two_pow h3
  simp only [translateAddr, hk, h1, e, b]
  simp; omega

theorem dataAccess_plain {s : State} {va : Word} {n : Nat} {k : AccessKind} (w : Bool) (h : PlainData s va n)
    (hk : s.lp.translates k = s.lp.psrBit 17) : dataAccess s k va n w = .ok (va.toNat, .wb) := by
  have ht := translate_plain h hk
  obtain ⟨_, h2, _, _, h5, _⟩ := h
  have hb : dataBreak s k va n = false := by simp only [dataBreak, h2, Bool.false_and]
  have ha : alignOk s k .wb va.toNat n = true := by simp only [alignOk, h5, if_true]
  simp only [dataAccess, ht]
  show (if _ then _ else _) = _
  simp [hb, ha]

theorem readAt_plain {s : State} {va : Word} {n : Nat} (big : Bool) (a : MemAttr) (h : PlainData s va n) :
    readAt s big va.toNat a n = .ok (memRead big s.mem va.toNat n, s) := by
  obtain ⟨_, _, _, _, _, h6, h7⟩ := h
  simp [readAt, h6, h7]

theorem writeAt_plain {s : State} {va : Word} {n : Nat} (big : Bool) (a : MemAttr) (v : Nat) (h : PlainData s va n) :
    writeAt s big va.toNat a n v = .ok { s.dropAlat va.toNat n with mem := memWrite big s.mem va.toNat n v } := by
  obtain ⟨_, _, _, _, _, h6, h7⟩ := h
  simp [writeAt, h6, h7]

/-- A load from plain memory gives its bytes and changes only the record of the step. -/
theorem load_plain {s : State} {va : Word} {n : Nat} (fp w : Bool) (h : PlainData s va n) :
    load s fp va n w = .ok (memRead s.bigData s.mem va.toNat n, va.toNat, s.noteData .load fp va n .wb none) := by
  simp [load, dataAccess_plain (k := .read) w h rfl, orRaise, readAt_plain _ _ h]

/-- A store to plain memory. -/
theorem store_plain {s : State} {va : Word} {n v : Nat} (fp w : Bool) (h : PlainData s va n) :
    store s fp va n v w = .ok (({ s.dropAlat va.toNat n with mem := memWrite s.bigData s.mem va.toNat n v } :
      State).noteData .store fp va n .wb none) := by
  simp [store, dataAccess_plain (k := .write) w h rfl, orRaise, writeAt_plain _ _ _ h]

/-! ## Loads -/

/-- A state in which only the ALAT, the record of the step and the counter of free values differ. -/
def Seen (s t : State) : Prop := t = { s with lp := { s.lp with alat := t.lp.alat, ev := t.lp.ev }, free := t.free }

theorem seen_refl (s : State) : Seen s s := rfl
theorem seen_trans {s t u : State} (h : Seen s t) (k : Seen t u) : Seen s u := by
  unfold Seen at *; rw [k, h]
theorem seen_noteData (s : State) (k : DataKind) (fp : Bool) (w : Word) (n : Nat) (a : MemAttr) (x : Option Nat) :
    Seen s (s.noteData k fp w n a x) := rfl
theorem seen_noteHit (s : State) (w : Word) : Seen s (s.noteHit w) := rfl
theorem seen_noteCheck (s : State) (a l f c x : Bool) : Seen s (s.noteCheck a l f c x) := rfl
theorem seen_removeAlat (s : State) (fp : Bool) (r : BitVec 7) : Seen s (s.removeAlat fp r) := rfl
theorem seen_allocAlat (s : State) (fp : Bool) (r : BitVec 7) (pa n : Nat) : Seen s (s.allocAlat fp r pa n) := by
  unfold State.allocAlat; simp only; split
  · rfl
  · split <;> rfl
theorem seen_checkAlat (s : State) (fp : Bool) (r : BitVec 7) : Seen s (checkAlat s fp r).2 := by
  unfold checkAlat; split
  · split <;> rfl
  · rfl

theorem seen_psr {s t : State} (h : Seen s t) : t.lp.psr = s.lp.psr := by rw [h]
theorem seen_params {s t : State} (h : Seen s t) : t.params = s.params := by rw [h]
theorem seen_mem {s t : State} (h : Seen s t) : t.mem = s.mem := by rw [h]
theorem seen_big {s t : State} (h : Seen s t) : t.bigData = s.bigData := by
  simp only [State.bigData, LP.psrBit, seen_psr h]
theorem seen_plain {s t : State} {va : Word} {n : Nat} (h : Seen s t) (hp : PlainData s va n) : PlainData t va n :=
  plainData_congr hp (seen_psr h) (seen_params h)

theorem seen_alatKey {s t : State} (h : Seen s t) (fp : Bool) (r : BitVec 7) :
    t.lp.alatKey fp r = s.lp.alatKey fp r := by rw [h]; rfl

/-- An allocated entry is in the table, if the table has room for any. -/
theorem mem_allocAlat {s : State} (fp : Bool) (r : BitVec 7) (pa n : Nat) (h : 0 < s.params.alatEntries) :
    (⟨fp, s.lp.alatKey fp r, pa, n⟩ : AlatEntry) ∈ (s.allocAlat fp r pa n).lp.alat := by
  unfold State.allocAlat; simp only
  split
  · omega
  · split <;> simp

/-- A load of any form from plain memory that is not satisfied by the ALAT reads the bytes. -/
theorem loadForm_plain {s : State} {f : LoadForm} {fp : Bool} {r : BitVec 7} {base : Reg} {n : Nat} (w : Bool)
    (hn : base.nat = false) (hp : PlainData s base.val n) (hs : f.spec = true → s.lp.psrBit 43 = false)
    (hc : f.check = true → NoEntry s fp r) :
    ∃ t, loadForm f fp r base n w s = .ok (.value (memRead s.bigData s.mem base.val.toNat n), t) ∧ Seen s t
      ∧ AlatAfterLoad s t f fp r base.val n := by
  -- the state after the access, with or without an entry allocated
  have fin : ∀ (x : State) (b : Bool), Seen s x → x.lp.alat = s.lp.alat → allocates f = b →
      Seen s (if b then x.allocAlat fp r base.val.toNat n else x)
        ∧ AlatAfterLoad s (if b then x.allocAlat fp r base.val.toNat n else x) f fp r base.val n := by
    intro x b hx ha hb
    unfold AlatAfterLoad; rw [hb]
    cases b with
    | false => exact ⟨hx, ha⟩
    | true =>
      refine ⟨seen_trans hx (seen_allocAlat ..), fun h => ?_⟩
      rw [← seen_alatKey hx]
      exact mem_allocAlat fp r _ n (by rw [seen_params hx]; exact h)
  unfold loadForm
  simp only [hn]
  by_cases hck : f.check = true
  · have hno := hc hck
    have hca : checkAlat s fp r = (false, s) := by
      unfold NoEntry at hno
      simp only [checkAlat, hno]; rfl
    have hl := load_plain fp w (seen_plain (seen_noteCheck s true true fp f.clr true) hp)
    rw [seen_big (seen_noteCheck s true true fp f.clr true)] at hl
    simp only [hck, hca, if_true]
    have := fin ((s.noteCheck true true fp f.clr true).noteData .load fp base.val n .wb none) (!f.clr)
      (seen_trans (seen_noteCheck ..) (seen_noteData ..)) rfl (by simp [allocates, hck])
    refine ⟨_, ?_, this.1, this.2⟩
    cases hcl : f.clr <;> simp [hcl] at hl ⊢ <;> simp [hl]
  · simp only [Bool.not_eq_true] at hck
    have := fin (s.noteData .load fp base.val n .wb none) f.adv (seen_noteData ..) rfl (by simp [allocates, hck])
    refine ⟨_, ?_, this.1, this.2⟩
    by_cases hsp : f.spec = true
    · have hsl : specLoad s fp base.val n w = .ok (some (memRead s.bigData s.mem base.val.toNat n, base.val.toNat),
          s.noteData .load fp base.val n .wb none) := by
        simp [specLoad, hs hsp, translate_plain (k := .read) hp rfl, dataAccess_plain (k := .read) w hp rfl,
          readAt_plain _ _ hp]
      simp [hck, hsp, hsl]
    · simp only [Bool.not_eq_true] at hsp
      simp [hck, hsp, load_plain fp w hp]

/-- A speculative load from a NaT address. -/
theorem loadForm_nat {s : State} {f : LoadForm} {fp : Bool} {r : BitVec 7} {base : Reg} {n : Nat} (w : Bool)
    (hn : base.nat = true) (hs : f.spec = true) :
    loadForm f fp r base n w s =
      .ok (.natted, (if f.adv then s.removeAlat fp r else s).noteData .load fp base.val n .wb (some 4)) := by
  simp [loadForm, hn, hs]

theorem inc_value {s : State} {r3 : BitVec 7} {inc : Inc} (h : IncOk s r3 inc) : inc.value s = .ok (incReg s inc) := by
  cases inc with
  | none => rfl
  | reg r => exact readGr_ok h.1
  | imm w => rfl

theorem checkBase_ok {s : State} {r3 : BitVec 7} {inc : Inc} (h : IncOk s r3 inc) : checkBase s r3 inc = .ok () := by
  cases inc with
  | none => rfl
  | reg r => simp [checkBase, Inc.updates, checkGr_ok h.2]
  | imm w => exact checkGr_ok h

theorem incOk_writable {s : State} {r3 : BitVec 7} {inc : Inc} (h : IncOk s r3 inc) (hu : inc.updates = true) :
    s.lp.grWritable r3 = true := by
  cases inc with
  | none => simp [Inc.updates] at hu
  | reg r => exact h.2
  | imm w => exact h

theorem seen_grAt {s t : State} (h : Seen s t) (p : GrPlace) : t.lp.grAt p = s.lp.grAt p := by
  rw [h]; cases p <;> rfl
theorem seen_grPlace {s t : State} (h : Seen s t) (n : Nat) : t.lp.grPlace n = s.lp.grPlace n := by
  rw [h]; rfl
theorem seen_grWritable {s t : State} (h : Seen s t) (r : BitVec 7) : t.lp.grWritable r = s.lp.grWritable r := by
  simp only [LP.grWritable, seen_grPlace h]

/-- The facts about an instruction that wrote `r1` and then incremented its base register. -/
theorem written_facts {s t : State} {r1 r3 : BitVec 7} {inc : Inc} (v : Reg) (hst : Seen s t)
    (h1 : s.lp.grWritable r1 = true) (hi : IncOk s r3 inc)
    (hd : inc.updates = true → r1 ≠ r3 ∧ s.lp.grPlace r1.toNat ≠ s.lp.grPlace r3.toNat) :
    let u := (t.setGr r1 v).postInc r3 (s.lp.gr? r3) inc (incReg s inc)
    (fallThrough s u).lp.gr? r1 = v ∧ BaseUpdated s (fallThrough s u) r3 inc
      ∧ OtherGrs s (fallThrough s u) (s.lp.grPlace r1.toNat :: basePlaces s r3 inc)
      ∧ Passed s s (fallThrough s u) ∧ OnlyGrs s (fallThrough s u)
      ∧ (fallThrough s u).lp.alat = t.lp.alat := by
  intro u
  have hpl : ∀ n, u.lp.grPlace n = s.lp.grPlace n := fun n => by
    simp only [u, postInc_grPlace, setGr_grPlace, seen_grPlace hst]
  have hw1 : t.lp.grWritable r1 = true := by rw [seen_grWritable hst, h1]
  have hother : ∀ p, p ≠ s.lp.grPlace r1.toNat → (t.setGr r1 v).lp.grAt p = s.lp.grAt p := fun p hp => by
    rw [setGr_other v (by rw [seen_grPlace hst]; exact hp), seen_grAt hst]
  have hun : u = { t with lp := { t.lp with gr := u.lp.gr } } := by
    have e1 := postInc_only (t.setGr r1 v) r3 (s.lp.gr? r3) (incReg s inc) inc
    have e2 := setGr_only t r1 v
    calc u = { t.setGr r1 v with lp := { (t.setGr r1 v).lp with gr := u.lp.gr } } := e1
      _ = _ := by rw [e2]
  have hpsr : u.lp.psr = s.lp.psr := by simp only [u, postInc_lp_psr, setGr_lp_psr, seen_psr hst]
  refine ⟨?_, ?_, ⟨?_, ?_, ?_⟩, ⟨rfl, rfl, ?_⟩, ?_, ?_⟩
  · rw [fallThrough_gr, LP.gr?, hpl]
    cases hu : inc.updates with
    | false =>
      simp only [u, postInc_none _ _ _ _ _ hu]
      have := setGr_same v hw1
      rwa [LP.gr?, setGr_grPlace, seen_grPlace hst] at this
    | true =>
      simp only [u, postInc_updates _ _ _ _ _ hu]
      rw [setGr_other _ (by rw [setGr_grPlace, seen_grPlace hst]; exact (hd hu).2)]
      have := setGr_same v hw1
      rwa [LP.gr?, setGr_grPlace, seen_grPlace hst] at this
  · intro hu
    rw [fallThrough_gr]
    simp only [u, postInc_updates _ _ _ _ _ hu]
    exact setGr_same _ (by rw [setGr_grWritable, seen_grWritable hst]; exact incOk_writable hi hu)
  · intro p hp
    simp only [List.mem_cons, not_or] at hp
    rw [fallThrough_grAt]
    cases hu : inc.updates with
    | false => simp only [u, postInc_none _ _ _ _ _ hu]; exact hother p hp.1
    | true =>
      simp only [basePlaces, hu, if_true, List.mem_singleton] at hp
      simp only [u, postInc_updates _ _ _ _ _ hu]
      rw [setGr_other _ (by rw [setGr_grPlace, seen_grPlace hst]; exact hp.2)]
      exact hother p hp.1
  · show u.lp.gr.bof = _
    simp only [u, postInc_bof, setGr_bof]; rw [hst]
  · show u.lp.gr.ndirty = _
    simp only [u, postInc_ndirty, setGr_ndirty]; rw [hst]
  · show setField (u.lp.psr &&& ~~~oneShotBits) 41 2 _ = setField (s.lp.psr &&& ~~~oneShotBits) 41 2 _
    rw [hpsr]
  · have e : fallThrough s u = fallThrough s { t with lp := { t.lp with gr := u.lp.gr } } := congrArg _ hun
    rw [e, hst]; rfl
  · show u.lp.alat = _
    rw [hun]

/-- The bodies of memory instructions: how the parts of `IncOk` are used. -/
theorem neq_of_distinct {s : State} {r1 r3 : BitVec 7} {inc : Inc}
    (hd : inc.updates = true → r1 ≠ r3 ∧ s.lp.grPlace r1.toNat ≠ s.lp.grPlace r3.toNat) :
    (!(inc.updates && r1 == r3)) = true := by
  cases hu : inc.updates with
  | false => rfl
  | true => simp [(hd hu).1]

theorem loadInt_plain {f : LoadForm} {n : Nat} {fill : Bool} {qp : BitVec 6} {r1 r3 : BitVec 7} {inc : Inc} {s : State}
    (h : LoadReady s qp r1 r3 inc) (hn : (s.lp.gr? r3).nat = false) (hp : PlainData s (s.lp.gr? r3).val n)
    (hs : f.spec = true → s.lp.psrBit 43 = false) (hc : f.check = true → NoEntry s false r1) :
    ∃ t, loadInt f n fill qp r1 r3 inc s = .next t
      ∧ t.lp.gr? r1 = ⟨BitVec.ofNat 64 (memRead s.bigData s.mem (s.lp.gr? r3).val.toNat n),
          fill && s.lp.ar.unat.getLsbD (field (s.lp.gr? r3).val 3 6).toNat⟩
      ∧ BaseUpdated s t r3 inc ∧ OtherGrs s t (s.lp.grPlace r1.toNat :: basePlaces s r3 inc)
      ∧ AlatAfterLoad s t f false r1 (s.lp.gr? r3).val n ∧ Passed s s t ∧ OnlyGrs s t := by
  obtain ⟨hq, h1, h3, hi, hd, hu⟩ := h
  obtain ⟨s1, hl, hseen, ha⟩ := loadForm_plain (r := r1) false hn hp hs hc
  have facts := written_facts (⟨BitVec.ofNat 64 (memRead s.bigData s.mem (s.lp.gr? r3).val.toNat n),
    fill && s.lp.ar.unat.getLsbD (field (s.lp.gr? r3).val 3 6).toNat⟩) hseen h1 hi hd
  obtain ⟨f1, f2, f3, f4, f5, f6⟩ := facts
  refine ⟨_, predicated_ok hq ?_ hu ?_ ?_, f1, f2, f3, ?_, f4, f5⟩
  · simp only [checkGr_ok h1, checkBase_ok hi, neq_of_distinct hd, require_true, readGr_ok h3, inc_value hi, ok_bind, hl]
    rfl
  · simp [LP.psrBit, seen_psr hseen]
  · simp [seen_params hseen]
  · unfold AlatAfterLoad at *; rw [f6]; exact ha

/-- A speculative load from a NaT address. -/
theorem loadInt_nat {f : LoadForm} {n : Nat} {fill : Bool} {qp : BitVec 6} {r1 r3 : BitVec 7} {inc : Inc} {s : State}
    (h : LoadReady s qp r1 r3 inc) (hn : (s.lp.gr? r3).nat = true) (hs : f.spec = true) :
    ∃ t, loadInt f n fill qp r1 r3 inc s = .next t ∧ t.lp.gr? r1 = ⟨0#64, true⟩
      ∧ BaseUpdated s t r3 inc ∧ OtherGrs s t (s.lp.grPlace r1.toNat :: basePlaces s r3 inc)
      ∧ t.lp.alat = (if f.adv then alatWithout s.lp.alat false (s.lp.alatKey false r1) else s.lp.alat)
      ∧ Passed s s t ∧ OnlyGrs s t := by
  obtain ⟨hq, h1, h3, hi, hd, hu⟩ := h
  have hl := loadForm_nat (s := s) (f := f) (fp := false) (r := r1) (n := n) false hn hs
  have hseen : Seen s ((if f.adv then s.removeAlat false r1 else s).noteData .load false (s.lp.gr? r3).val n .wb
      (some 4)) := by split <;> rfl
  obtain ⟨f1, f2, f3, f4, f5, f6⟩ := written_facts (⟨0#64, true⟩ : Reg) hseen h1 hi hd
  refine ⟨_, predicated_ok hq ?_ hu ?_ ?_, f1, f2, f3, ?_, f4, f5⟩
  · simp only [checkGr_ok h1, checkBase_ok hi, neq_of_distinct hd, require_true, readGr_ok h3, inc_value hi, ok_bind, hl]
    rfl
  · simp only [LP.psrBit, postInc_lp_psr, setGr_lp_psr, seen_psr hseen]
  · simp only [postInc_params, setGr_params, seen_params hseen]
  · rw [f6]; split <;> rfl

/-- The facts about an instruction that only increments its base register. -/
theorem base_facts {s x : State} {r3 : BitVec 7} {inc : Inc} (hg : x.lp.gr = s.lp.gr) (hc : x.lp.cfm = s.lp.cfm)
    (hb : x.lp.psrBit 44 = s.lp.psrBit 44) (hi : IncOk s r3 inc) :
    let u := x.postInc r3 (s.lp.gr? r3) inc (incReg s inc)
    BaseUpdated s (fallThrough s u) r3 inc ∧ OtherGrs s (fallThrough s u) (basePlaces s r3 inc) := by
  intro u
  have hpl : ∀ n, x.lp.grPlace n = s.lp.grPlace n := fun n => grPlace_congr n hc (by rw [hg]) hb
  have hat : ∀ p, x.lp.grAt p = s.lp.grAt p := fun p => by cases p <;> simp only [LP.grAt, hg]
  have hw : ∀ r, x.lp.grWritable r = s.lp.grWritable r := fun r => by simp only [LP.grWritable, hpl]
  refine ⟨?_, ?_, ?_, ?_⟩
  · intro hu
    rw [fallThrough_gr]
    simp only [u, postInc_updates _ _ _ _ _ hu]
    exact setGr_same _ (by rw [hw]; exact incOk_writable hi hu)
  · intro p hp
    rw [fallThrough_grAt]
    cases hu : inc.updates with
    | false => simp only [u, postInc_none _ _ _ _ _ hu]; exact hat p
    | true =>
      simp only [basePlaces, hu, if_true, List.mem_singleton] at hp
      simp only [u, postInc_updates _ _ _ _ _ hu]
      rw [setGr_other _ (by rw [hpl]; exact hp)]
      exact hat p
  · show u.lp.gr.bof = _
    simp only [u, postInc_bof, hg]
  · show u.lp.gr.ndirty = _
    simp only [u, postInc_ndirty, hg]

/-- `Passed` from the processor status before the move to the next slot. -/
theorem passed_of {s v u : State} (h : u.lp.psr = v.lp.psr) : Passed s v (fallThrough s u) := by
  refine ⟨rfl, rfl, ?_⟩
  show setField (u.lp.psr &&& ~~~oneShotBits) 41 2 _ = setField (v.lp.psr &&& ~~~oneShotBits) 41 2 _
  rw [h]

theorem onlyGrs_postInc {s x : State} (h : Seen s x) (r : BitVec 7) (b i : Reg) (inc : Inc) :
    OnlyGrs s (fallThrough s (x.postInc r b inc i)) := by
  have e : fallThrough s (x.postInc r b inc i) =
      fallThrough s { x with lp := { x.lp with gr := (x.postInc r b inc i).lp.gr } } :=
    congrArg _ (postInc_only x r b i inc)
  rw [e, h]; rfl

/-- What a check leaves in the ALAT where it finds the entry of its register. -/
theorem checkAlat_alat {s : State} {fp : Bool} {r : BitVec 7} (h : ¬ NoEntry s fp r) :
    (checkAlat s fp r).2.lp.alat =
      if (checkAlat s fp r).1 then s.lp.alat else alatWithout s.lp.alat fp (s.lp.alatKey fp r) := by
  unfold NoEntry at h
  simp only [Bool.not_eq_false] at h
  unfold checkAlat
  rw [if_pos h]
  split <;> rfl

theorem alatAfterCheck_congr {s t u : State} {kept clr fp : Bool} {r : BitVec 7} {va : Word} {n : Nat}
    (h : AlatAfterCheck s t kept clr fp r va n) (e : u.lp.alat = t.lp.alat) : AlatAfterCheck s u kept clr fp r va n := by
  unfold AlatAfterCheck at *; rw [e]; exact h

/-- A check load whose register has an ALAT entry: a hit, or the bytes. -/
theorem loadForm_entry {s : State} {f : LoadForm} {fp : Bool} {r : BitVec 7} {base : Reg} {n : Nat} (w : Bool)
    (hn : base.nat = false) (hp : PlainData s base.val n) (hk : f.check = true) (he : ¬ NoEntry s fp r) :
    ∃ x t, loadForm f fp r base n w s = .ok (x, t) ∧ Seen s t
      ∧ ((x = .hit ∧ AlatAfterCheck s t true f.clr fp r base.val n)
        ∨ (x = .value (memRead s.bigData s.mem base.val.toNat n) ∧ AlatAfterCheck s t false f.clr fp r base.val n)) := by
  have hseen := seen_checkAlat s fp r
  have hal := checkAlat_alat he
  unfold loadForm
  simp only [hn, hk]
  generalize hc : checkAlat s fp r = c at hseen hal
  obtain ⟨hit, s1⟩ := c
  have h2 : Seen s (s1.noteCheck true true fp f.clr (!hit)) := seen_trans hseen (seen_noteCheck ..)
  cases hit with
  | true =>
    simp only [if_true] at hal
    refine ⟨_, _, rfl, ?_, .inl ⟨rfl, ?_⟩⟩
    · refine seen_trans ?_ (seen_noteHit ..)
      simp only [Bool.not_true] at h2
      split
      · exact seen_trans h2 (seen_removeAlat ..)
      · exact h2
    · unfold AlatAfterCheck
      simp only [Bool.not_true, if_true]
      split
      · show alatWithout s1.lp.alat fp (s1.lp.alatKey fp r) = _
        rw [hal, seen_alatKey hseen]
      · exact hal
  | false =>
    simp only [Bool.false_eq_true, if_false] at hal
    have hl := load_plain fp w (seen_plain h2 hp)
    rw [seen_big h2, seen_mem h2] at hl
    simp only [Bool.not_false] at hl h2
    refine ⟨.value (memRead s.bigData s.mem base.val.toNat n),
      if f.clr then (s1.noteCheck true true fp f.clr true).noteData .load fp base.val n .wb none
      else ((s1.noteCheck true true fp f.clr true).noteData .load fp base.val n .wb none).allocAlat fp r
        base.val.toNat n, by simp [hl], ?_, .inr ⟨rfl, ?_⟩⟩
    · split
      · exact seen_trans h2 (seen_noteData ..)
      · exact seen_trans (seen_trans h2 (seen_noteData ..)) (seen_allocAlat ..)
    · unfold AlatAfterCheck
      split
      · exact hal
      · simp only [Bool.false_eq_true, if_false]
        intro h
        have h3 : Seen s ((s1.noteCheck true true fp f.clr true).noteData .load fp base.val n .wb none) :=
          seen_trans h2 (seen_noteData ..)
        rw [← seen_alatKey h3]
        exact mem_allocAlat fp r _ n (by rw [seen_params h3]; exact h)

theorem loadInt_entry {f : LoadForm} {n : Nat} {qp : BitVec 6} {r1 r3 : BitVec 7} {inc : Inc} {s : State}
    (h : LoadReady s qp r1 r3 inc) (hn : (s.lp.gr? r3).nat = false) (hp : PlainData s (s.lp.gr? r3).val n)
    (hk : f.check = true) (he : ¬ NoEntry s false r1) :
    ∃ t, loadInt f n false qp r1 r3 inc s = .next t
      ∧ ((t.lp.gr? r1 = s.lp.gr? r1 ∧ AlatAfterCheck s t true f.clr false r1 (s.lp.gr? r3).val n)
        ∨ (t.lp.gr? r1 = ⟨BitVec.ofNat 64 (memRead s.bigData s.mem (s.lp.gr? r3).val.toNat n), false⟩
          ∧ AlatAfterCheck s t false f.clr false r1 (s.lp.gr? r3).val n))
      ∧ BaseUpdated s t r3 inc ∧ OtherGrs s t (s.lp.grPlace r1.toNat :: basePlaces s r3 inc)
      ∧ Passed s s t ∧ OnlyGrs s t := by
  obtain ⟨hq, h1, h3, hi, hd, hu⟩ := h
  obtain ⟨x, s1, hl, hseen, hx⟩ := loadForm_entry (r := r1) (fp := false) false hn hp hk he
  rcases hx with ⟨rfl, ha⟩ | ⟨rfl, ha⟩
  · have hb := base_facts (x := s1) (inc := inc) (r3 := r3) (s := s) (by rw [hseen]) (by rw [hseen])
      (by simp only [LP.psrBit, seen_psr hseen]) hi
    obtain ⟨b1, b2, b3, b4⟩ := hb
    refine ⟨_, predicated_ok (u := s1.postInc r3 (s.lp.gr? r3) inc (incReg s inc)) hq ?_ hu ?_ ?_,
      .inl ⟨?_, alatAfterCheck_congr ha (by simp only [fallThrough_lp_alat, postInc_lp_alat])⟩, b1,
      ⟨fun p hp => b2 p (by simp only [List.mem_cons, not_or] at hp; exact hp.2), b3, b4⟩, passed_of (by simp [seen_psr hseen]),
      onlyGrs_postInc hseen ..⟩
    · simp only [checkGr_ok h1, checkBase_ok hi, neq_of_distinct hd, require_true, readGr_ok h3, inc_value hi, ok_bind, hl]
      rfl
    · simp [LP.psrBit, seen_psr hseen]
    · simp [seen_params hseen]
    · have hpl : (fallThrough s (s1.postInc r3 (s.lp.gr? r3) inc (incReg s inc))).lp.grPlace r1.toNat
          = s.lp.grPlace r1.toNat := by
        rw [fallThrough_grPlace, postInc_grPlace, seen_grPlace hseen]
      rw [LP.gr?, hpl, b2, ← LP.gr?]
      unfold basePlaces
      split
      · rename_i hup; simp [(hd hup).2]
      · simp
  · obtain ⟨f1, f2, f3, f4, f5, f6⟩ := written_facts
      (⟨BitVec.ofNat 64 (memRead s.bigData s.mem (s.lp.gr? r3).val.toNat n), false⟩ : Reg) hseen h1 hi hd
    refine ⟨_, predicated_ok hq ?_ hu ?_ ?_, .inr ⟨f1, alatAfterCheck_congr ha f6⟩, f2, f3, f4, f5⟩
    · simp only [checkGr_ok h1, checkBase_ok hi, neq_of_distinct hd, require_true, readGr_ok h3, inc_value hi, ok_bind, hl]
      rfl
    · simp [LP.psrBit, seen_psr hseen]
    · simp [seen_params hseen]

theorem incOk_none (s : State) (r3 : BitVec 7) : IncOk s r3 .none := trivial

theorem load16_plain {qp : BitVec 6} {r1 r3 : BitVec 7} {s : State} (h : LoadReady s qp r1 r3 .none)
    (hn : (s.lp.gr? r3).nat = false) (hp : PlainData s (s.lp.gr? r3).val 16) :
    ∃ t, load16 qp r1 r3 s = .next t
      ∧ t.lp.gr? r1 =
        ⟨BitVec.ofNat 64 (halves s.bigData 8 (memRead s.bigData s.mem (s.lp.gr? r3).val.toNat 16)).1, false⟩
      ∧ t.lp.ar = { s.lp.ar with
          csd := BitVec.ofNat 64 (halves s.bigData 8 (memRead s.bigData s.mem (s.lp.gr? r3).val.toNat 16)).2 }
      ∧ OtherGrs s t [s.lp.grPlace r1.toNat] ∧ Passed s s t
      ∧ t = { s with lp := { s.lp with gr := t.lp.gr, ar := t.lp.ar, ev := t.lp.ev, ip := t.lp.ip,
                                       lastIp := t.lp.lastIp, psr := t.lp.psr } } := by
  obtain ⟨hq, h1, h3, _, _, hu⟩ := h
  have hl := load_plain false true hp
  let x := s.noteData .load false (s.lp.gr? r3).val 16 .wb none
  let y := x.setLp { x.lp with ar := { x.lp.ar with
    csd := BitVec.ofNat 64 (halves s.bigData 8 (memRead s.bigData s.mem (s.lp.gr? r3).val.toNat 16)).2 } }
  have hw : y.lp.grWritable r1 = true := h1
  have hpl : y.lp.grPlace r1.toNat = s.lp.grPlace r1.toNat := rfl
  refine ⟨_, predicated_ok (u := y.setGr r1
    ⟨BitVec.ofNat 64 (halves s.bigData 8 (memRead s.bigData s.mem (s.lp.gr? r3).val.toNat 16)).1, false⟩)
    hq ?_ hu ?_ ?_, ?_, ?_, ⟨?_, ?_, ?_⟩, passed_of ?_, ?_⟩
  · simp only [checkGr_ok h1, readGr_ok h3, ok_bind, loadForm, hn, hl]; rfl
  · simp only [LP.psrBit, setGr_lp_psr]; rfl
  · rfl
  · rw [fallThrough_gr]; exact setGr_same _ hw
  · simp only [fallThrough_lp_ar, setGr_lp_ar]; rfl
  · intro p hp
    rw [fallThrough_grAt, setGr_other _ (by rw [hpl]; simpa using hp)]; cases p <;> rfl
  · show (State.setGr _ _ _).lp.gr.bof = _
    rw [setGr_bof]; rfl
  · show (State.setGr _ _ _).lp.gr.ndirty = _
    rw [setGr_ndirty]; rfl
  · rw [setGr_lp_psr]; rfl
  · rw [setGr_only y]; rfl

/-! ## Floating-point loads -/

/-- The end of a floating-point load: registers written from a state in which only the record, the ALAT and the counter
differ. -/
theorem onlyRegs_postInc {s x y : State} (h : Seen s x)
    (hy : y = { x with lp := { x.lp with fr := y.lp.fr, psr := y.lp.psr } }) (r : BitVec 7) (b i : Reg) (inc : Inc) :
    OnlyRegs s (fallThrough s (y.postInc r b inc i)) := by
  have e : fallThrough s (y.postInc r b inc i) =
      fallThrough s { y with lp := { y.lp with gr := (y.postInc r b inc i).lp.gr } } :=
    congrArg _ (postInc_only y r b i inc)
  rw [e, hy, h]; rfl

theorem fallThrough_frOf {s y : State} (r : BitVec 7) (b i : Reg) (inc : Inc) (f : BitVec 7) :
    (fallThrough s (y.postInc r b inc i)).lp.fr? f = y.lp.fr? f := by
  rw [fallThrough_fr]; simp only [LP.fr?, LP.frIndex, LP.rrbFr, postInc_lp_fr, postInc_lp_cfm]

theorem seen_fr {s t : State} (h : Seen s t) (f : BitVec 7) : t.lp.fr? f = s.lp.fr? f := by rw [h]; rfl

theorem seen_setFr_psr {s t : State} (h : Seen s t) (f : BitVec 7) (v w : FReg) :
    (t.setFr f v).lp.psr = (s.setFr f w).lp.psr := by rw [h]; rfl

/-- The facts about a floating-point load that leaves the registers as `y` has them. -/
theorem fp_facts {s s1 y : State} {r3 : BitVec 7} {inc : Inc} (hseen : Seen s s1)
    (hy : y = { s1 with lp := { s1.lp with fr := y.lp.fr, psr := y.lp.psr } })
    (h36 : y.lp.psrBit 36 = s1.lp.psrBit 36) (h44 : y.lp.psrBit 44 = s1.lp.psrBit 44) (hi : IncOk s r3 inc) :
    let u := y.postInc r3 (s.lp.gr? r3) inc (incReg s inc)
    u.lp.psrBit 36 = s.lp.psrBit 36 ∧ u.params = s.params
      ∧ (∀ f, (fallThrough s u).lp.fr? f = y.lp.fr? f)
      ∧ BaseUpdated s (fallThrough s u) r3 inc ∧ OtherGrs s (fallThrough s u) (basePlaces s r3 inc)
      ∧ (fallThrough s u).lp.alat = s1.lp.alat
      ∧ (∀ v : State, y.lp.psr = v.lp.psr → Passed s v (fallThrough s u)) ∧ OnlyRegs s (fallThrough s u) := by
  intro u
  have hgr : y.lp.gr = s.lp.gr := by rw [hy, hseen]
  have hcfm : y.lp.cfm = s.lp.cfm := by rw [hy, hseen]
  have hpar : y.params = s.params := by rw [hy, hseen]
  have hal : y.lp.alat = s1.lp.alat := by rw [hy]
  have e36 : y.lp.psrBit 36 = s.lp.psrBit 36 := by rw [h36]; simp only [LP.psrBit, seen_psr hseen]
  have e44 : y.lp.psrBit 44 = s.lp.psrBit 44 := by rw [h44]; simp only [LP.psrBit, seen_psr hseen]
  obtain ⟨b1, b2⟩ := base_facts (x := y) (inc := inc) (r3 := r3) (s := s) hgr hcfm e44 hi
  refine ⟨?_, ?_, fun f => fallThrough_frOf .., b1, b2, ?_, fun v hv => passed_of ?_, onlyRegs_postInc hseen hy ..⟩
  · rw [← e36]; simp only [u, LP.psrBit, postInc_lp_psr]
  · simp only [u, postInc_params, hpar]
  · simp only [u, fallThrough_lp_alat, postInc_lp_alat, hal]
  · rw [postInc_lp_psr]; exact hv

/-- A floating-point load that writes its register. -/
theorem loadFp_written {f : LoadForm} {m : FpFormat} {qp : BitVec 6} {f1 r3 : BitVec 7} {inc : Inc} {s s1 : State}
    {x : Loaded} {v : FReg} (h : s.lp.readPr qp = true) (h3 : s.lp.grReadable r3 = true) (hi : IncOk s r3 inc)
    (hu : Untrapped s) (hf : FrWritable s f1)
    (hl : loadForm f true f1 (s.lp.gr? r3) m.size m.wbOnly s = .ok (x, s1)) (hseen : Seen s s1)
    (hx : (x = .natted ∧ v = natVal) ∨ ∃ w, x = .value w ∧ v = fromMemory m w) :
    ∃ t, loadFp f m qp f1 r3 inc s = .next t ∧ t.lp.fr? f1 = v
      ∧ OtherFrs s t [f1] ∧ BaseUpdated s t r3 inc ∧ OtherGrs s t (basePlaces s r3 inc)
      ∧ t.lp.alat = s1.lp.alat ∧ Passed s (s.setFr f1 0#82) t ∧ OnlyRegs s t := by
  have fx := fp_facts (y := s1.setFr f1 v) hseen (setFr_only ..) (setFr_psrBit _ _ _ _ (by decide))
    (setFr_psrBit _ _ _ _ (by decide)) hi
  obtain ⟨g1, g2, g3, g4, g5, g6, g7, g8⟩ := fx
  refine ⟨_, predicated_ok h ?_ hu g1 g2, ?_, ?_, g4, g5, g6, g7 _ (seen_setFr_psr hseen _ _ _), g8⟩
  · simp only [checkFrNumber_ok hf, checkFrEnabled_ok hf, checkBase_ok hi, readGr_ok h3, inc_value hi, ok_bind, hl]
    rcases hx with ⟨rfl, rfl⟩ | ⟨w, rfl, rfl⟩ <;> rfl
  · rw [g3]; exact setFr_same _ hf.1
  · intro g hg; rw [g3, setFr_other _ hf.1 (by simpa using hg)]; exact seen_fr hseen g

theorem loadFp_plain {f : LoadForm} {m : FpFormat} {qp : BitVec 6} {f1 r3 : BitVec 7} {inc : Inc} {s : State}
    (h : FpLoadReady s qp r3 inc) (hf : FrWritable s f1) (hp : PlainData s (s.lp.gr? r3).val m.size)
    (hs : f.spec = true → s.lp.psrBit 43 = false) (hc : f.check = true → NoEntry s true f1) :
    ∃ t, loadFp f m qp f1 r3 inc s = .next t
      ∧ t.lp.fr? f1 = fromMemory m (memRead s.bigData s.mem (s.lp.gr? r3).val.toNat m.size)
      ∧ OtherFrs s t [f1] ∧ BaseUpdated s t r3 inc ∧ OtherGrs s t (basePlaces s r3 inc)
      ∧ AlatAfterLoad s t f true f1 (s.lp.gr? r3).val m.size
      ∧ Passed s (s.setFr f1 0#82) t ∧ OnlyRegs s t := by
  obtain ⟨hq, h3, hi, hu⟩ := h
  obtain ⟨s1, hl, hseen, ha⟩ := loadForm_plain (r := f1) m.wbOnly h3.2 hp hs hc
  obtain ⟨t, e, g1, g2, g3, g4, g5, g6, g7⟩ := loadFp_written (qp := qp) hq h3.1 hi hu hf hl hseen (.inr ⟨_, rfl, rfl⟩)
  exact ⟨t, e, g1, g2, g3, g4, by unfold AlatAfterLoad at *; rw [g5]; exact ha, g6, g7⟩

/-- A speculative floating-point load from a NaT address. -/
theorem loadFp_nat {f : LoadForm} {m : FpFormat} {qp : BitVec 6} {f1 r3 : BitVec 7} {inc : Inc} {s : State}
    (h : FpNatReady s qp r3 inc) (hf : FrWritable s f1) (hs : f.spec = true) :
    ∃ t, loadFp f m qp f1 r3 inc s = .next t ∧ t.lp.fr? f1 = natVal
      ∧ OtherFrs s t [f1] ∧ BaseUpdated s t r3 inc ∧ OtherGrs s t (basePlaces s r3 inc)
      ∧ t.lp.alat = (if f.adv then alatWithout s.lp.alat true (s.lp.alatKey true f1) else s.lp.alat)
      ∧ Passed s (s.setFr f1 0#82) t ∧ OnlyRegs s t := by
  obtain ⟨hq, h3, hn, hi, hu⟩ := h
  have hl := loadForm_nat (s := s) (f := f) (fp := true) (r := f1) (n := m.size) m.wbOnly hn hs
  have hseen : Seen s ((if f.adv then s.removeAlat true f1 else s).noteData .load true (s.lp.gr? r3).val m.size .wb
      (some 4)) := by split <;> rfl
  obtain ⟨t, e, g1, g2, g3, g4, g5, g6, g7⟩ := loadFp_written (qp := qp) hq h3 hi hu hf hl hseen (.inl ⟨rfl, rfl⟩)
  exact ⟨t, e, g1, g2, g3, g4, by rw [g5]; split <;> rfl, g6, g7⟩

/-- A floating-point check load whose register has an ALAT entry: a hit, or the bytes. -/
theorem loadFp_entry {f : LoadForm} {m : FpFormat} {qp : BitVec 6} {f1 r3 : BitVec 7} {inc : Inc} {s : State}
    (h : FpLoadReady s qp r3 inc) (hf : FrWritable s f1) (hp : PlainData s (s.lp.gr? r3).val m.size)
    (hk : f.check = true) (he : ¬ NoEntry s true f1) :
    ∃ t, loadFp f m qp f1 r3 inc s = .next t
      ∧ ((t.lp.fr? f1 = s.lp.fr? f1 ∧ Passed s s t ∧ AlatAfterCheck s t true f.clr true f1 (s.lp.gr? r3).val m.size)
        ∨ (t.lp.fr? f1 = fromMemory m (memRead s.bigData s.mem (s.lp.gr? r3).val.toNat m.size)
          ∧ Passed s (s.setFr f1 0#82) t ∧ AlatAfterCheck s t false f.clr true f1 (s.lp.gr? r3).val m.size))
      ∧ OtherFrs s t [f1] ∧ BaseUpdated s t r3 inc ∧ OtherGrs s t (basePlaces s r3 inc) ∧ OnlyRegs s t := by
  obtain ⟨hq, h3, hi, hu⟩ := h
  obtain ⟨x, s1, hl, hseen, hx⟩ := loadForm_entry (r := f1) (fp := true) m.wbOnly h3.2 hp hk he
  rcases hx with ⟨rfl, ha⟩ | ⟨rfl, ha⟩
  · obtain ⟨g1, g2, g3, g4, g5, g6, g7, g8⟩ := fp_facts (y := s1) hseen rfl rfl rfl hi
    refine ⟨_, predicated_ok hq ?_ hu g1 g2, .inl ⟨?_, g7 s (seen_psr hseen), alatAfterCheck_congr ha g6⟩, ?_, g4, g5, g8⟩
    · simp only [checkFrNumber_ok hf, checkFrEnabled_ok hf, checkBase_ok hi, readGr_ok h3.1, inc_value hi, ok_bind, hl]; rfl
    · rw [g3]; exact seen_fr hseen f1
    · intro g _; rw [g3]; exact seen_fr hseen g
  · obtain ⟨t, e, g1, g2, g3, g4, g5, g6, g7⟩ :=
      loadFp_written (qp := qp) hq h3.1 hi hu hf hl hseen (.inr ⟨_, rfl, rfl⟩)
    exact ⟨t, e, .inr ⟨g1, g6, alatAfterCheck_congr ha g5⟩, g2, g3, g4, g7⟩

/-- A pair load that writes its registers. -/
theorem loadPair_written {f : LoadForm} {m : FpFormat} {update : Bool} {qp : BitVec 6} {f1 f2 r3 : BitVec 7} {inc : Inc}
    {s s1 : State} {x : Loaded} {v w : FReg}
    (hinc : inc = if update then Inc.imm (BitVec.ofNat 64 (2 * m.size)) else .none)
    (h : s.lp.readPr qp = true) (h3 : s.lp.grReadable r3 = true) (hi : IncOk s r3 inc) (hu : Untrapped s)
    (hf : FrWritable s f1) (hg : FrWritable s f2) (hne : f1.toNat % 2 ≠ f2.toNat % 2)
    (hl : loadForm f true f1 (s.lp.gr? r3) (2 * m.size) (decide (8 < 2 * m.size)) s = .ok (x, s1)) (hseen : Seen s s1)
    (hx : (x = .natted ∧ v = natVal ∧ w = natVal) ∨ ∃ k, x = .value k ∧ v = fromMemory m (halves s.bigData m.size k).1
      ∧ w = fromMemory m (halves s.bigData m.size k).2) :
    ∃ t, loadPair f m update qp f1 f2 r3 s = .next t ∧ t.lp.fr? f1 = v ∧ t.lp.fr? f2 = w
      ∧ OtherFrs s t [f1, f2] ∧ BaseUpdated s t r3 inc ∧ OtherGrs s t (basePlaces s r3 inc)
      ∧ t.lp.alat = s1.lp.alat ∧ Passed s ((s.setFr f1 0#82).setFr f2 0#82) t ∧ OnlyRegs s t := by
  have hff : f1 ≠ f2 := fun e => hne (by rw [e])
  have fx := fp_facts (y := (s1.setFr f1 v).setFr f2 w) hseen rfl
    (by rw [setFr_psrBit _ _ _ _ (by decide), setFr_psrBit _ _ _ _ (by decide)])
    (by rw [setFr_psrBit _ _ _ _ (by decide), setFr_psrBit _ _ _ _ (by decide)]) hi
  obtain ⟨g1, g2, g3, g4, g5, g6, g7, g8⟩ := fx
  refine ⟨_, predicated_ok h ?_ hu g1 g2, ?_, ?_, ?_, g4, g5, g6, g7 _ ?_, g8⟩
  · simp only [← hinc, checkFrNumber_ok hf, checkFrNumber_ok hg, checkFrEnabled_ok hf, checkFrEnabled_ok hg,
      decide_eq_true hne, require_true, checkBase_ok hi, readGr_ok h3, inc_value hi, ok_bind, hl]
    rcases hx with ⟨rfl, rfl, rfl⟩ | ⟨k, rfl, rfl, rfl⟩ <;> rfl
  · rw [g3, setFr_other _ hg.1 hff]; exact setFr_same _ hf.1
  · rw [g3]; exact setFr_same _ hg.1
  · intro g hgm
    simp only [List.mem_cons, List.not_mem_nil, or_false, not_or] at hgm
    rw [g3, setFr_other _ hg.1 hgm.2, setFr_other _ hf.1 hgm.1]; exact seen_fr hseen g
  · rw [hseen]; rfl

theorem loadPair_plain {f : LoadForm} {m : FpFormat} {update : Bool} {qp : BitVec 6} {f1 f2 r3 : BitVec 7} {inc : Inc}
    {s : State} (hinc : inc = if update then Inc.imm (BitVec.ofNat 64 (2 * m.size)) else .none)
    (h : FpLoadReady s qp r3 inc) (hf : FrWritable s f1) (hg : FrWritable s f2) (hne : f1.toNat % 2 ≠ f2.toNat % 2)
    (hp : PlainData s (s.lp.gr? r3).val (2 * m.size))
    (hs : f.spec = true → s.lp.psrBit 43 = false) (hc : f.check = true → NoEntry s true f1) :
    ∃ t, loadPair f m update qp f1 f2 r3 s = .next t
      ∧ t.lp.fr? f1 = fromMemory m
          (halves s.bigData m.size (memRead s.bigData s.mem (s.lp.gr? r3).val.toNat (2 * m.size))).1
      ∧ t.lp.fr? f2 = fromMemory m
          (halves s.bigData m.size (memRead s.bigData s.mem (s.lp.gr? r3).val.toNat (2 * m.size))).2
      ∧ OtherFrs s t [f1, f2] ∧ BaseUpdated s t r3 inc ∧ OtherGrs s t (basePlaces s r3 inc)
      ∧ AlatAfterLoad s t f true f1 (s.lp.gr? r3).val (2 * m.size)
      ∧ Passed s ((s.setFr f1 0#82).setFr f2 0#82) t ∧ OnlyRegs s t := by
  obtain ⟨hq, h3, hi, hu⟩ := h
  obtain ⟨s1, hl, hseen, ha⟩ := loadForm_plain (r := f1) (decide (8 < 2 * m.size)) h3.2 hp hs hc
  obtain ⟨t, e, g1, g1', g2, g3, g4, g5, g6, g7⟩ :=
    loadPair_written (qp := qp) hinc hq h3.1 hi hu hf hg hne hl hseen (.inr ⟨_, rfl, rfl, rfl⟩)
  exact ⟨t, e, g1, g1', g2, g3, g4, by unfold AlatAfterLoad at *; rw [g5]; exact ha, g6, g7⟩

/-- A speculative pair load from a NaT address. -/
theorem loadPair_nat {f : LoadForm} {m : FpFormat} {update : Bool} {qp : BitVec 6} {f1 f2 r3 : BitVec 7} {inc : Inc}
    {s : State} (hinc : inc = if update then Inc.imm (BitVec.ofNat 64 (2 * m.size)) else .none)
    (h : FpNatReady s qp r3 inc) (hf : FrWritable s f1) (hg : FrWritable s f2) (hne : f1.toNat % 2 ≠ f2.toNat % 2)
    (hs : f.spec = true) :
    ∃ t, loadPair f m update qp f1 f2 r3 s = .next t ∧ t.lp.fr? f1 = natVal ∧ t.lp.fr? f2 = natVal
      ∧ OtherFrs s t [f1, f2] ∧ BaseUpdated s t r3 inc ∧ OtherGrs s t (basePlaces s r3 inc)
      ∧ t.lp.alat = (if f.adv then alatWithout s.lp.alat true (s.lp.alatKey true f1) else s.lp.alat)
      ∧ Passed s ((s.setFr f1 0#82).setFr f2 0#82) t ∧ OnlyRegs s t := by
  obtain ⟨hq, h3, hn, hi, hu⟩ := h
  have hl := loadForm_nat (s := s) (f := f) (fp := true) (r := f1) (n := 2 * m.size) (decide (8 < 2 * m.size)) hn hs
  have hseen : Seen s ((if f.adv then s.removeAlat true f1 else s).noteData .load true (s.lp.gr? r3).val (2 * m.size)
      .wb (some 4)) := by split <;> rfl
  obtain ⟨t, e, g1, g1', g2, g3, g4, g5, g6, g7⟩ :=
    loadPair_written (qp := qp) hinc hq h3 hi hu hf hg hne hl hseen (.inl ⟨rfl, rfl, rfl⟩)
  exact ⟨t, e, g1, g1', g2, g3, g4, by rw [g5]; split <;> rfl, g6, g7⟩

/-- A pair check load whose register has an ALAT entry: a hit, or the bytes. -/
theorem loadPair_entry {f : LoadForm} {m : FpFormat} {update : Bool} {qp : BitVec 6} {f1 f2 r3 : BitVec 7} {inc : Inc}
    {s : State} (hinc : inc = if update then Inc.imm (BitVec.ofNat 64 (2 * m.size)) else .none)
    (h : FpLoadReady s qp r3 inc) (hf : FrWritable s f1) (hg : FrWritable s f2) (hne : f1.toNat % 2 ≠ f2.toNat % 2)
    (hp : PlainData s (s.lp.gr? r3).val (2 * m.size)) (hk : f.check = true) (he : ¬ NoEntry s true f1) :
    ∃ t, loadPair f m update qp f1 f2 r3 s = .next t
      ∧ ((t.lp.fr? f1 = s.lp.fr? f1 ∧ t.lp.fr? f2 = s.lp.fr? f2 ∧ Passed s s t
          ∧ AlatAfterCheck s t true f.clr true f1 (s.lp.gr? r3).val (2 * m.size))
        ∨ (t.lp.fr? f1 = fromMemory m
              (halves s.bigData m.size (memRead s.bigData s.mem (s.lp.gr? r3).val.toNat (2 * m.size))).1
          ∧ t.lp.fr? f2 = fromMemory m
              (halves s.bigData m.size (memRead s.bigData s.mem (s.lp.gr? r3).val.toNat (2 * m.size))).2
          ∧ Passed s ((s.setFr f1 0#82).setFr f2 0#82) t
          ∧ AlatAfterCheck s t false f.clr true f1 (s.lp.gr? r3).val (2 * m.size)))
      ∧ OtherFrs s t [f1, f2] ∧ BaseUpdated s t r3 inc ∧ OtherGrs s t (basePlaces s r3 inc) ∧ OnlyRegs s t := by
  obtain ⟨hq, h3, hi, hu⟩ := h
  obtain ⟨x, s1, hl, hseen, hx⟩ := loadForm_entry (r := f1) (fp := true) (decide (8 < 2 * m.size)) h3.2 hp hk he
  rcases hx with ⟨rfl, ha⟩ | ⟨rfl, ha⟩
  · obtain ⟨g1, g2, g3, g4, g5, g6, g7, g8⟩ := fp_facts (y := s1) hseen rfl rfl rfl hi
    refine ⟨_, predicated_ok hq ?_ hu g1 g2, .inl ⟨?_, ?_, g7 s (seen_psr hseen), alatAfterCheck_congr ha g6⟩, ?_, g4, g5, g8⟩
    · simp only [← hinc, checkFrNumber_ok hf, checkFrNumber_ok hg, checkFrEnabled_ok hf, checkFrEnabled_ok hg,
        decide_eq_true hne, require_true, checkBase_ok hi, readGr_ok h3.1, inc_value hi, ok_bind, hl]; rfl
    · rw [g3]; exact seen_fr hseen f1
    · rw [g3]; exact seen_fr hseen f2
    · intro g _; rw [g3]; exact seen_fr hseen g
  · obtain ⟨t, e, g1, g1', g2, g3, g4, g5, g6, g7⟩ :=
      loadPair_written (qp := qp) hinc hq h3.1 hi hu hf hg hne hl hseen (.inr ⟨_, rfl, rfl, rfl⟩)
    exact ⟨t, e, .inr ⟨g1, g1', g6, alatAfterCheck_congr ha g5⟩, g2, g3, g4, g7⟩

theorem lineFetch_plain {fault : Bool} {qp : BitVec 6} {r3 : BitVec 7} {inc : Inc} {s : State}
    (h : FpLoadReady s qp r3 inc) (hp : fault = true → PlainData s (s.lp.gr? r3).val 1) :
    ∃ t, lineFetch fault qp r3 inc s = .next t ∧ BaseUpdated s t r3 inc ∧ OtherGrs s t (basePlaces s r3 inc)
      ∧ t.lp.alat = s.lp.alat ∧ Passed s s t ∧ OnlyGrs s t := by
  obtain ⟨hq, h3, hi, hu⟩ := h
  let x := s.noteData .lfetch false (s.lp.gr? r3).val 1 .wb none
  obtain ⟨b1, b2⟩ := base_facts (x := x) (inc := inc) (r3 := r3) (s := s) rfl rfl rfl hi
  refine ⟨_, predicated_ok (u := x.postInc r3 (s.lp.gr? r3) inc (incReg s inc)) hq ?_ hu ?_ ?_, b1, b2, ?_, passed_of ?_,
    onlyGrs_postInc (s := s) (x := x) (seen_noteData ..) ..⟩
  · cases fault with
    | false => simp only [checkBase_ok hi, readGr_ok h3.1, inc_value hi, ok_bind, Bool.false_and, Bool.not_false,
        require_true]; rfl
    | true =>
      simp only [checkBase_ok hi, readGr_ok h3.1, inc_value hi, ok_bind, h3.2, Bool.and_false, Bool.not_false,
        require_true, if_true, dataAccess_plain (k := .read) false (hp rfl) rfl, orRaise]; rfl
  · simp only [LP.psrBit, postInc_lp_psr]; rfl
  · simp only [postInc_params]; rfl
  · simp only [fallThrough_lp_alat, postInc_lp_alat]; rfl
  · rw [postInc_lp_psr]; rfl

/-! ## Stores -/

theorem store_facts {s x : State} {va : Word} {n v : Nat} (hm : MemoryCanonical s)
    (hx : x.mem = memWrite s.bigData s.mem va.toNat n v) : Stored s x va n v := by
  refine ⟨?_, fun a ha => ?_⟩
  · rw [hx]; exact memRead_memWrite _ _ _ _ hm
  · rw [hx]; exact memByte_memWrite _ _ _ _ _ hm ha

theorem storeInt_plain {n : Nat} {spill : Bool} {qp : BitVec 6} {r3 r2 : BitVec 7} {inc : Inc} {s : State}
    (h : FpLoadReady s qp r3 inc) (h2 : s.lp.grReadable r2 = true) (hn : spill = true ∨ (s.lp.gr? r2).nat = false)
    (hp : PlainData s (s.lp.gr? r3).val n) (hm : MemoryCanonical s) :
    ∃ t, storeInt n spill qp r3 r2 inc s = .next t ∧ Stored s t (s.lp.gr? r3).val n (s.lp.gr? r2).val.toNat
      ∧ AlatsAfterStore s t (s.lp.gr? r3).val n ∧ BaseUpdated s t r3 inc ∧ OtherGrs s t (basePlaces s r3 inc)
      ∧ Passed s s t
      ∧ OnlyStore s t (if spill then
          setBit s.lp.ar.unat (field (s.lp.gr? r3).val 3 6).toNat (s.lp.gr? r2).nat else s.lp.ar.unat) := by
  obtain ⟨hq, h3, hi, hu⟩ := h
  let s1 := ({ s.dropAlat (s.lp.gr? r3).val.toNat n with
    mem := memWrite s.bigData s.mem (s.lp.gr? r3).val.toNat n (s.lp.gr? r2).val.toNat } : State).noteData .store false
      (s.lp.gr? r3).val n .wb none
  let w : Word := if spill then setBit s.lp.ar.unat (field (s.lp.gr? r3).val 3 6).toNat (s.lp.gr? r2).nat
    else s.lp.ar.unat
  let x := s1.setLp { s1.lp with ar := { s1.lp.ar with unat := w } }
  have hreq : (!(s.lp.gr? r3).nat && (spill || !(s.lp.gr? r2).nat)) = true := by
    rw [h3.2]; rcases hn with e | e <;> simp [e]
  obtain ⟨b1, b2⟩ := base_facts (x := x) (inc := inc) (r3 := r3) (s := s) rfl rfl rfl hi
  refine ⟨_, predicated_ok (u := x.postInc r3 (s.lp.gr? r3) inc (incReg s inc)) hq ?_ hu ?_ ?_, ?_, ⟨?_, ?_⟩, b1, b2,
    passed_of ?_, ?_⟩
  · simp only [checkBase_ok hi, readGr_ok h3.1, readGr_ok h2, inc_value hi, ok_bind, hreq, require_true,
      store_plain false false hp]
    cases spill <;> rfl
  · simp only [LP.psrBit, postInc_lp_psr]; rfl
  · simp only [postInc_params]; rfl
  · exact store_facts hm (by simp only [fallThrough_mem, postInc_mem]; rfl)
  · simp only [fallThrough_lp_alat, postInc_lp_alat]; rfl
  · simp only [fallThrough_bg, postInc_bg]; rfl
  · rw [postInc_lp_psr]; rfl
  · rw [postInc_only x]; rfl

/-- Two numbers below `k` packed in base `k` come apart again. -/
theorem pack_parts {a b k : Nat} (ha : a < k) (hb : b < k) :
    (b * k + a) % (k * k) = b * k + a ∧ (b * k + a) % k = a ∧ (b * k + a) / k = b := by
  have hlt : b * k + a < k * k :=
    calc b * k + a < b * k + k := by omega
      _ = (b + 1) * k := by rw [Nat.add_mul, Nat.one_mul]
      _ ≤ k * k := Nat.mul_le_mul_right _ hb
  refine ⟨Nat.mod_eq_of_lt hlt, ?_, ?_⟩
  · rw [Nat.add_comm, Nat.add_mul_mod_self_right, Nat.mod_eq_of_lt ha]
  · rw [Nat.add_comm, Nat.add_mul_div_right _ _ (by omega), Nat.div_eq_of_lt ha, Nat.zero_add]

theorem halves_joinHalves (big : Bool) (a b : Nat) (ha : a < 256 ^ 8) (hb : b < 256 ^ 8) :
    halves big 8 (joinHalves big 8 a b % 256 ^ 16) = (a, b) := by
  have e : (256 : Nat) ^ 16 = 256 ^ 8 * 256 ^ 8 := by decide
  rw [e]
  simp only [halves, joinHalves, Nat.mod_eq_of_lt ha, Nat.mod_eq_of_lt hb]
  generalize (256 : Nat) ^ 8 = k at *
  obtain ⟨h1, h2, h3⟩ := pack_parts ha hb
  obtain ⟨g1, g2, g3⟩ := pack_parts hb ha
  cases big <;> simp only [Bool.false_eq_true, if_false, if_true, h1, h2, h3, g1, g2, g3]

/-- The facts about a store that leaves the registers alone. -/
theorem store16_plain {qp : BitVec 6} {r3 r2 : BitVec 7} {s : State}
    (h : FpLoadReady s qp r3 .none) (h2 : Usable s r2) (hp : PlainData s (s.lp.gr? r3).val 16) (hm : MemoryCanonical s) :
    ∃ t, store16 qp r3 r2 s = .next t
      ∧ halves s.bigData 8 (memRead s.bigData t.mem (s.lp.gr? r3).val.toNat 16)
        = ((s.lp.gr? r2).val.toNat, s.lp.ar.csd.toNat)
      ∧ (∀ a, (a < (s.lp.gr? r3).val.toNat ∨ (s.lp.gr? r3).val.toNat + 16 ≤ a) →
          memByte t.mem a = memByte s.mem a)
      ∧ AlatsAfterStore s t (s.lp.gr? r3).val 16 ∧ OtherGrs s t [] ∧ Passed s s t ∧ OnlyStore s t s.lp.ar.unat := by
  obtain ⟨hq, h3, _, hu⟩ := h
  let v := joinHalves s.bigData 8 (s.lp.gr? r2).val.toNat s.lp.ar.csd.toNat
  let x := ({ s.dropAlat (s.lp.gr? r3).val.toNat 16 with
    mem := memWrite s.bigData s.mem (s.lp.gr? r3).val.toNat 16 v } : State).noteData .store false
      (s.lp.gr? r3).val 16 .wb none
  have hst : Stored s (fallThrough s x) (s.lp.gr? r3).val 16 v := store_facts hm rfl
  refine ⟨_, predicated_ok (u := x) hq ?_ hu rfl rfl, ?_, hst.2, ⟨rfl, rfl⟩, ⟨?_, rfl, rfl⟩, passed_of rfl, rfl⟩
  · simp only [readGr_ok h3.1, readGr_ok h2.1, ok_bind, h3.2, h2.2, Bool.not_false, Bool.and_self, require_true,
      store_plain false true hp]; rfl
  · rw [hst.1]; exact halves_joinHalves _ _ _ (s.lp.gr? r2).val.isLt s.lp.ar.csd.isLt
  · intro p _; rw [fallThrough_grAt]; cases p <;> rfl

theorem storeFp_plain {m : FpFormat} {qp : BitVec 6} {r3 f2 : BitVec 7} {inc : Inc} {s : State}
    (h : FpLoadReady s qp r3 inc) (h2 : s.lp.frEnabled f2 = true) (hn : m = .image ∨ s.lp.fr? f2 ≠ natVal)
    (hp : PlainData s (s.lp.gr? r3).val m.size) (hm : MemoryCanonical s) :
    ∃ t, storeFp m qp r3 f2 inc s = .next t ∧ Stored s t (s.lp.gr? r3).val m.size (toMemory m (s.lp.fr? f2))
      ∧ AlatsAfterStore s t (s.lp.gr? r3).val m.size ∧ BaseUpdated s t r3 inc
      ∧ OtherGrs s t (basePlaces s r3 inc) ∧ Passed s s t ∧ OnlyStore s t s.lp.ar.unat := by
  obtain ⟨hq, h3, hi, hu⟩ := h
  let x := ({ s.dropAlat (s.lp.gr? r3).val.toNat m.size with
    mem := memWrite s.bigData s.mem (s.lp.gr? r3).val.toNat m.size (toMemory m (s.lp.fr? f2)) } : State).noteData .store
      true (s.lp.gr? r3).val m.size .wb none
  have hreq : (!(s.lp.gr? r3).nat && (decide (m = .image) || decide (s.lp.fr? f2 ≠ natVal))) = true := by
    rw [h3.2]; rcases hn with e | e <;> simp [e]
  obtain ⟨b1, b2⟩ := base_facts (x := x) (inc := inc) (r3 := r3) (s := s) rfl rfl rfl hi
  refine ⟨_, predicated_ok (u := x.postInc r3 (s.lp.gr? r3) inc (incReg s inc)) hq ?_ hu ?_ ?_, ?_, ⟨?_, ?_⟩, b1, b2,
    passed_of ?_, ?_⟩
  · simp only [checkBase_ok hi, readGr_ok h3.1, readFr_ok h2, inc_value hi, ok_bind, hreq, require_true,
      store_plain true m.wbOnly hp]; rfl
  · simp only [LP.psrBit, postInc_lp_psr]; rfl
  · simp only [postInc_params]; rfl
  · exact store_facts hm (by simp only [fallThrough_mem, postInc_mem]; rfl)
  · simp only [fallThrough_lp_alat, postInc_lp_alat]; rfl
  · simp only [fallThrough_bg, postInc_bg]; rfl
  · rw [postInc_lp_psr]; rfl
  · rw [postInc_only x]; rfl

/-! ## Semaphores -/

/-- A semaphore on plain memory; `f` gives the new value of each old one. -/
theorem semaphore_plain {n m : Nat} {qp : BitVec 6} {r1 r3 : BitVec 7} {s : State} {f : Nat → Ans (Option Nat)}
    {new : Nat → Option Nat} (hf : ∀ old, f old = .ok (new old)) (hq : s.lp.readPr qp = true)
    (h1 : s.lp.grWritable r1 = true) (h3 : Usable s r3) (hp : PlainData s (s.lp.gr? r3).val n)
    (hp' : PlainData s (BitVec.ofNat 64 ((s.lp.gr? r3).val.toNat - (s.lp.gr? r3).val.toNat % m)) m)
    (hm : MemoryCanonical s) (hu : Untrapped s) :
    ∃ t, semaphore n m qp r1 r3 s f = .next t
      ∧ t.lp.gr? r1 = ⟨BitVec.ofNat 64 (memRead s.bigData s.mem (s.lp.gr? r3).val.toNat n), false⟩
      ∧ OtherGrs s t [s.lp.grPlace r1.toNat]
      ∧ (match new (memRead s.bigData s.mem (s.lp.gr? r3).val.toNat n) with
        | none => t.mem = s.mem ∧ t.bg = s.bg ∧ t.lp.alat = s.lp.alat
        | some v => Stored s t (BitVec.ofNat 64 ((s.lp.gr? r3).val.toNat - (s.lp.gr? r3).val.toNat % m)) m v
          ∧ AlatsAfterStore s t (BitVec.ofNat 64 ((s.lp.gr? r3).val.toNat - (s.lp.gr? r3).val.toNat % m)) m)
      ∧ Passed s s t ∧ OnlyStore s t s.lp.ar.unat := by
  let va := (s.lp.gr? r3).val
  let a' : Word := BitVec.ofNat 64 (va.toNat - va.toNat % m)
  have ha' : a'.toNat = va.toNat - va.toNat % m := by
    show (BitVec.ofNat 64 _).toNat = _
    rw [BitVec.toNat_ofNat, Nat.mod_eq_of_lt]
    have := va.isLt; omega
  let old := memRead s.bigData s.mem va.toNat n
  have hg : (fun o => match f o with | .ok v => v | .error _ => none) = new := by funext o; rw [hf o]
  -- the state before the register is written
  have key : ∃ x, atomic s va n m new = .ok (old, x)
      ∧ x.lp.gr = s.lp.gr ∧ x.lp.cfm = s.lp.cfm ∧ x.lp.psr = s.lp.psr ∧ x.params = s.params
      ∧ (match new old with
        | none => x.mem = s.mem ∧ x.bg = s.bg ∧ x.lp.alat = s.lp.alat
        | some v => Stored s x a' m v ∧ AlatsAfterStore s x a' m)
      ∧ x = { s with lp := { s.lp with alat := x.lp.alat, ev := x.lp.ev }, bg := x.bg, mem := x.mem } := by
    have hw : ∀ v, writeAt s s.bigData (va.toNat - va.toNat % m) .wb m v
        = .ok { s.dropAlat a'.toNat m with mem := memWrite s.bigData s.mem a'.toNat m v } := fun v => by
      rw [← ha']; exact writeAt_plain s.bigData .wb v hp'
    have hd : dataAccess s .readWrite va n true = .ok (va.toNat, .wb) := dataAccess_plain true hp rfl
    have hr : readAt s s.bigData va.toNat .wb n = .ok (old, s) := readAt_plain _ _ hp
    unfold atomic
    simp only [hd, orRaise, ok_bind, hr]
    cases hn : new old with
    | none => exact ⟨s.noteData .semaphore false va n .wb none, by rfl, rfl, rfl, rfl, rfl,
        ⟨rfl, rfl, rfl⟩, rfl⟩
    | some v =>
      refine ⟨({ s.dropAlat a'.toNat m with mem := memWrite s.bigData s.mem a'.toNat m v } :
        State).noteData .semaphore false va n .wb none, by simp only [hw, ok_bind]; rfl, rfl, rfl, rfl, rfl, ⟨store_facts hm rfl, rfl, rfl⟩, rfl⟩
  obtain ⟨x, hx, g1, g2, g3, g4, g5, g6⟩ := key
  have hpl : ∀ k, x.lp.grPlace k = s.lp.grPlace k := fun k =>
    grPlace_congr k g2 (by rw [g1]) (by simp only [LP.psrBit, g3])
  have hw1 : x.lp.grWritable r1 = true := by simp only [LP.grWritable, hpl] at h1 ⊢; exact h1
  let u := x.setGr r1 ⟨BitVec.ofNat 64 old, false⟩
  refine ⟨_, predicated_ok (u := u) hq ?_ hu ?_ ?_, ?_, ⟨?_, ?_, ?_⟩, ?_, passed_of ?_, ?_⟩
  · simp only [checkGr_ok h1, readGr_ok h3.1, ok_bind, hf 0, h3.2, Bool.not_false, require_true]
    show (do let (old, s1) ← atomic s va n m (fun o => match f o with | .ok v => v | .error _ => none)
             return s1.setGr r1 ⟨BitVec.ofNat 64 old, false⟩ : Ans State) = _
    rw [hg, hx]; rfl
  · simp only [u, LP.psrBit, setGr_lp_psr, g3]
  · simp only [u, setGr_params, g4]
  · rw [fallThrough_gr]; exact setGr_same _ hw1
  · intro p hp
    rw [fallThrough_grAt, setGr_other _ (by rw [hpl]; simpa using hp)]
    cases p <;> simp only [LP.grAt, g1]
  · show u.lp.gr.bof = _
    simp only [u, setGr_bof, g1]
  · show u.lp.gr.ndirty = _
    simp only [u, setGr_ndirty, g1]
  · show (match new old with | none => _ | some v => _)
    cases hn : new old with
    | none =>
      rw [hn] at g5
      simp only [fallThrough_mem, fallThrough_bg, fallThrough_lp_alat, u, setGr_mem, setGr_bg, setGr_lp_alat]
      exact g5
    | some v =>
      rw [hn] at g5
      simp only [Stored, AlatsAfterStore, fallThrough_mem, fallThrough_bg, fallThrough_lp_alat, u, setGr_mem, setGr_bg,
        setGr_lp_alat]
      exact g5
  · simp only [u, setGr_lp_psr, g3]
  · simp only [u]; rw [setGr_only x, g6]; rfl

/-! ## Where they trap -/

/-- The destinations a load may not have. -/
theorem loadInt_illegal {f : LoadForm} {n : Nat} {fill : Bool} {qp : BitVec 6} {r1 r3 : BitVec 7} {inc : Inc} {s : State}
    (hq : s.lp.readPr qp = true)
    (h : s.lp.grWritable r1 = false ∨ (inc.updates = true ∧ (s.lp.grWritable r3 = false ∨ r1 = r3))) :
    loadInt f n fill qp r1 r3 inc s = .next (faultTo s illegalOperation) := by
  refine predicated_raise hq ?_
  cases h1 : s.lp.grWritable r1 with
  | false => simp [checkGr_illegal h1]
  | true =>
    rcases h with h | ⟨hu, h⟩
    · simp [h1] at h
    · cases h3 : s.lp.grWritable r3 with
      | false => simp [h1, checkBase, hu, checkGr_illegal h3]
      | true =>
        rcases h with h | h
        · simp [h3] at h
        · subst h; simp [h1, checkBase, hu]

/-- A load that is not speculative from a NaT address. -/
theorem loadInt_natBase {f : LoadForm} {n : Nat} {fill : Bool} {qp : BitVec 6} {r1 r3 : BitVec 7} {inc : Inc} {s : State}
    (hq : s.lp.readPr qp = true) (h1 : s.lp.grWritable r1 = true) (h3 : s.lp.grReadable r3 = true) (hi : IncOk s r3 inc)
    (hd : inc.updates = true → r1 ≠ r3) (hn : (s.lp.gr? r3).nat = true) (hs : f.spec = false) :
    loadInt f n fill qp r1 r3 inc s = .next (faultTo s (registerNatConsumption (accessBits .read))) := by
  have hreq : (!(inc.updates && r1 == r3)) = true := by
    cases hu : inc.updates with
    | false => rfl
    | true => simp [hd hu]
  refine predicated_raise hq ?_
  simp only [checkGr_ok h1, checkBase_ok hi, hreq, require_true, readGr_ok h3, inc_value hi, ok_bind, loadForm, hn, hs,
    if_true]
  rfl

/-- A store whose base may not be updated. -/
theorem storeInt_illegal {n : Nat} {spill : Bool} {qp : BitVec 6} {r3 r2 : BitVec 7} {inc : Inc} {s : State}
    (hq : s.lp.readPr qp = true) (hu : inc.updates = true) (h3 : s.lp.grWritable r3 = false) :
    storeInt n spill qp r3 r2 inc s = .next (faultTo s illegalOperation) := by
  refine predicated_raise hq ?_
  simp [checkBase, hu, checkGr_illegal h3]

/-- A store of a NaT, or to a NaT address. -/
theorem storeInt_nat {n : Nat} {spill : Bool} {qp : BitVec 6} {r3 r2 : BitVec 7} {inc : Inc} {s : State}
    (hq : s.lp.readPr qp = true) (h3 : s.lp.grReadable r3 = true) (h2 : s.lp.grReadable r2 = true) (hi : IncOk s r3 inc)
    (hn : (s.lp.gr? r3).nat = true ∨ (spill = false ∧ (s.lp.gr? r2).nat = true)) :
    storeInt n spill qp r3 r2 inc s = .next (faultTo s (registerNatConsumption (accessBits .write))) := by
  refine predicated_raise hq ?_
  have hreq : (!(s.lp.gr? r3).nat && (spill || !(s.lp.gr? r2).nat)) = false := by
    rcases hn with e | ⟨e, e'⟩
    · simp [e]
    · simp [e, e']
  simp only [checkBase_ok hi, readGr_ok h3, readGr_ok h2, inc_value hi, ok_bind, hreq, require_false,
    raise_bind]

/-- A floating-point load to a register that may not be written. -/
theorem loadFp_illegal {f : LoadForm} {m : FpFormat} {qp : BitVec 6} {f1 r3 : BitVec 7} {inc : Inc} {s : State}
    (hq : s.lp.readPr qp = true) (h : f1.toNat < 2) :
    loadFp f m qp f1 r3 inc s = .next (faultTo s illegalOperation) := by
  refine predicated_raise hq ?_
  have : decide (2 ≤ f1.toNat) = false := by simp; omega
  simp [checkFrNumber, this]

/-- A floating-point load to a disabled register. -/
theorem loadFp_disabled {f : LoadForm} {m : FpFormat} {qp : BitVec 6} {f1 r3 : BitVec 7} {inc : Inc} {s : State}
    (hq : s.lp.readPr qp = true) (h : 2 ≤ f1.toNat) (h3 : s.lp.grReadable r3 = true) (hi : IncOk s r3 inc)
    (hd : s.lp.frEnabled f1 = false) :
    loadFp f m qp f1 r3 inc s = .next (faultTo s (disabledFpRegister (decide (32 ≤ f1.toNat)))) := by
  refine predicated_raise hq ?_
  simp [checkFrNumber, checkFrEnabled, checkBase_ok hi, readGr_ok h3, inc_value hi, h, hd]

/-- An access that is not aligned, with `PSR.ac` set. -/
theorem dataAccess_unaligned {s : State} {va : Word} {n : Nat} {k : AccessKind} (w : Bool) (h17 : s.lp.psrBit 17 = false)
    (h24 : s.lp.psrBit 24 = false) (hac : s.lp.psrBit 3 = true) (h63 : va.toNat < 2 ^ 63)
    (hpa : va.toNat < 2 ^ s.params.paBits) (ha : va.toNat % n ≠ 0) (hk : s.lp.translates k = s.lp.psrBit 17) :
    dataAccess s k va n w = .error (.unaligned false) := by
  have ht : translateAddr s va k = .ok (va.toNat, .wb) := by
    have e : va.toNat % 2 ^ 63 = va.toNat := Nat.mod_eq_of_lt h63
    have b : va.getLsbD 63 = false := by rw [BitVec.getLsbD]; exact Nat.testBit_lt_two_pow h63
    simp only [translateAddr, hk, h17, e, b]
    simp; omega
  have hb : dataBreak s k va n = false := by simp only [dataBreak, h24, Bool.false_and]
  have hed : pageEd s va k = false := by simp only [pageEd, hk, h17, Bool.false_and]
  simp only [dataAccess, ht]
  show (if _ then _ else _) = _
  simp [hb, hed, alignOk, ha, hac]

end Sys2Proof.Machine
end

