-- ==== Sys2Proof/Laws/Float.lean ====
section
/-!
SUPPORT. What the shared floating-point operations answer: the rounding operations, the approximations, the compares and the
moves, with traps disabled and with a fault.
-/

namespace Sys2Proof.Machine

open Sys2Proof.Config

/-! ## The status field -/

theorem enabledFlags_off {fpsr : Word} (h : fpsr.setWidth 6 = BitVec.allOnes 6) (sf : BitVec 2) (f : BitVec 6) :
    enabledFlags fpsr sf f = 0#6 := by
  unfold enabledFlags; split
  · rfl
  · rw [h]; simp

/-- With every trap disabled the flags are added to the status field. -/
theorem recordFlags_quiet {s : State} (h : s.lp.ar.fpsr.setWidth 6 = BitVec.allOnes 6) (sf : BitVec 2) (f : BitVec 6) :
    recordFlags s sf f = .ok (s.setLp { s.lp with ar := { s.lp.ar with
      fpsr := setSfFlags s.lp.ar.fpsr sf (sfFlags s.lp.ar.fpsr sf ||| f) } }, 0#64) := by
  simp only [recordFlags, enabledFlags_off h]; rfl

/-- Flags of which no V, D or Z is enabled are added to the status field, and the enabled ones give the trap code. -/
theorem recordFlags_trap {s : State} {sf : BitVec 2} {f : BitVec 6} (h : enabledFlags s.lp.ar.fpsr sf f &&& 7#6 = 0#6) :
    recordFlags s sf f = .ok (s.setLp { s.lp with ar := { s.lp.ar with
      fpsr := setSfFlags s.lp.ar.fpsr sf (sfFlags s.lp.ar.fpsr sf ||| f) } }, fpTrapCode (enabledFlags s.lp.ar.fpsr sf f)) := by
  simp only [recordFlags, h]; rfl

/-- An enabled O, U or I without an enabled V, D or Z gives a trap code. -/
theorem fpTrapCode_ne : ∀ f : BitVec 6, f &&& 7#6 = 0#6 → f ≠ 0#6 → fpTrapCode f ≠ 0#64 := by decide +kernel

/-- An enabled V, D or Z is a fault. -/
theorem recordFlags_fault {s : State} {sf : BitVec 2} {f : BitVec 6}
    (h : enabledFlags s.lp.ar.fpsr sf f &&& 7#6 ≠ 0#6) :
    recordFlags s sf f = raise (fpFault (enabledFlags s.lp.ar.fpsr sf f)) := by
  simp only [recordFlags, decide_eq_false h, require_false, raise_bind]

/-! ## Registers -/

@[simp] theorem readFr3_ok {s : State} {f1 a b c : BitVec 7} (h1 : FrWritable s f1) (ha : s.lp.frEnabled a = true)
    (hb : s.lp.frEnabled b = true) (hc : s.lp.frEnabled c = true) :
    readFr3 s f1 a b c = .ok (s.lp.fr? a, s.lp.fr? b, s.lp.fr? c) := by
  simp [readFr3, h1, ha, hb, hc]

theorem frEnabled_zero (l : LP) : l.frEnabled 0#7 = true := rfl

/-! ## Results -/

/-- A state with a floating-point register, the application registers and the predicates replaced, and the operations
recorded. -/
def fpDone (s : State) (n : Nat) (f1 : BitVec 7) (v : FReg) (ar : ARFile) (pr : Word) : State :=
  { (s.noteFpOps n).setFr f1 v with lp := { ((s.noteFpOps n).setFr f1 v).lp with ar := ar, pr := pr } }

/-- An operation that writes one floating-point register ends in the next slot with nothing else changed. -/
theorem fp_done {s : State} (n : Nat) {f1 : BitVec 7} (v : FReg) (ar : ARFile) (pr : Word) (h : FrWritable s f1)
    (hu : Untrapped s) :
    finish s (.ok (retire s (fpDone s n f1 v ar pr) {})) = .next (fallThrough s (fpDone s n f1 v ar pr))
    ∧ (fallThrough s (fpDone s n f1 v ar pr)).lp.fr? f1 = v
    ∧ OtherFrs s (fallThrough s (fpDone s n f1 v ar pr)) [f1]
    ∧ Passed s (s.setFr f1 0#82) (fallThrough s (fpDone s n f1 v ar pr)) := by
  have e : ∀ g, (fallThrough s (fpDone s n f1 v ar pr)).lp.fr? g = (s.setFr f1 v).lp.fr? g := fun g => rfl
  refine ⟨?_, (e f1).trans (setFr_same _ h.1), fun g hg => (e g).trans (setFr_other _ h.1 (by simpa using hg)),
    passed_of rfl⟩
  have h36 : (fpDone s n f1 v ar pr).lp.psrBit 36 = s.lp.psrBit 36 := setFr_psrBit s f1 v 36 (by decide)
  exact congrArg Host.Outcome.next (retire_fall false hu h36 rfl)

/-- A predicate written in a thread with the same predicates and frame marker. -/
theorem setPr_of {l k : LP} (p : BitVec 6) (x : Bool) (hp : k.pr = l.pr) (hm : k.cfm = l.cfm) :
    k.setPr p x = { k with pr := (l.setPr p x).pr } := by
  have e : k.prIndex p.toNat = l.prIndex p.toNat := by unfold LP.prIndex LP.rrbPr; rw [hm]
  unfold LP.setPr
  split
  · rw [← hp]
  · rw [hp, e]

/-- A rounding operation with its traps disabled. -/
theorem fpArith_plain {op : FpOp} {prec : FpPrec} {n : Nat} {sf : BitVec 2} {qp : BitVec 6} {f1 a b c : BitVec 7}
    {i : Instr} (he : ∀ s, exec i s = fpArith op prec n sf qp f1 a b c s) : FpResults i op prec sf qp f1 a b c := by
  intro s hq h1 ha hb hc hoff hu
  rw [he]
  by_cases hn : s.lp.fr? a = natVal ∨ s.lp.fr? b = natVal ∨ s.lp.fr? c = natVal
  · obtain ⟨e, g1, g2, g3⟩ := fp_done n natVal s.lp.ar s.lp.pr h1 hu
    refine ⟨_, ?_, ?_, g2, g3, rfl⟩
    · rw [← e]
      simp only [fpArith, predicatedEnd, hq, if_true, readFr3_ok h1 ha hb hc, ok_bind, hn, ans_pure, map_ok]
      rfl
    · rw [if_pos hn]; exact ⟨g1, rfl⟩
  · generalize hr : fpOp op prec sf s.lp.ar.fpsr (s.lp.fr? a) (s.lp.fr? b) (s.lp.fr? c) = r
    obtain ⟨e, g1, g2, g3⟩ := fp_done n r.value
      { s.lp.ar with fpsr := setSfFlags s.lp.ar.fpsr sf (sfFlags s.lp.ar.fpsr sf ||| r.flags) } s.lp.pr h1 hu
    refine ⟨_, ?_, ?_, g2, g3, rfl⟩
    · rw [← e]
      simp only [fpArith, predicatedEnd, hq, if_true, readFr3_ok h1 ha hb hc, ok_bind, hn, if_false, hr]
      rw [recordFlags_quiet (s := s.noteFpOps n) hoff]
      rfl
    · rw [if_neg hn]; exact ⟨g1, rfl⟩

/-- An instruction that falls through with a floating-point trap ends in the delivery of that trap from the next place. -/
theorem retire_fpTrap {s u : State} {c : Word} (hc : c ≠ 0#64) (hit : u.lp.psrBit 36 = s.lp.psrBit 36) (hp : u.params = s.params)
    (h1 : unimplementedIp s s.lp.ip = false) (h2 : unimplementedIp s (s.lp.ip + 16#64) = false) :
    ∃ x : Exc, x.offset = 0x5D00 ∧ x.ifa = none ∧ retire s u { fpTrap := c } = deliver x s.lp.ri (fallThrough s u) := by
  have hu : unimplementedIp (fallThrough s u) (fallThrough s u).lp.ip = false := by
    have h36 := (advance_psr_bit s u {} 36 (by omega) (by decide) (by omega)).trans hit
    rw [unimplementedIp_congr (s := s) (t := fallThrough s u) _ h36 hp]
    rcases nextPlace_fall s.lp false with e | e
    · exact (congrArg (unimplementedIp s) e).trans h1
    · exact (congrArg (unimplementedIp s) e).trans h2
  have e : advance s u { fpTrap := c } = fallThrough s u := rfl
  simp only [retire, e, hu, trapOf, decide_eq_true hc]
  exact ⟨_, rfl, rfl, rfl⟩

/-- An operation that writes one floating-point register and meets an enabled O, U or I ends in the trap from the next slot. -/
theorem fp_trapped {s : State} (n : Nat) {f1 : BitVec 7} (v : FReg) (ar : ARFile) {c : Word} (hc : c ≠ 0#64) (h : FrWritable s f1)
    (h1 : unimplementedIp s s.lp.ip = false) (h2 : unimplementedIp s (s.lp.ip + 16#64) = false) :
    ∃ (u : State) (x : Exc), x.offset = 0x5D00 ∧ x.ifa = none
      ∧ retire s (fpDone s n f1 v ar s.lp.pr) { fpTrap := c } = deliver x s.lp.ri u
      ∧ u.lp.fr? f1 = v ∧ OtherFrs s u [f1] ∧ Passed s (s.setFr f1 0#82) u ∧ u.lp.ar = ar
      ∧ u = { s with lp := { s.lp with fr := u.lp.fr, ar := u.lp.ar, ev := u.lp.ev, ip := u.lp.ip,
                                       lastIp := u.lp.lastIp, psr := u.lp.psr } } := by
  obtain ⟨x, x1, x2, x3⟩ := retire_fpTrap (u := fpDone s n f1 v ar s.lp.pr) hc (setFr_psrBit s f1 v 36 (by decide)) rfl h1 h2
  have e : ∀ g, (fallThrough s (fpDone s n f1 v ar s.lp.pr)).lp.fr? g = (s.setFr f1 v).lp.fr? g := fun g => rfl
  exact ⟨_, x, x1, x2, x3, (e f1).trans (setFr_same _ h.1),
    fun g hg => (e g).trans (setFr_other _ h.1 (by simpa using hg)), passed_of rfl, rfl, rfl⟩

/-- A rounding operation that meets an enabled V, D or Z is a Floating-point Fault and writes nothing; one that meets an enabled
O, U or I writes its result and ends in a Floating-point Trap. -/
theorem fpArith_fault {op : FpOp} {prec : FpPrec} {n : Nat} {sf : BitVec 2} {qp : BitVec 6} {f1 a b c : BitVec 7}
    {i : Instr} (he : ∀ s, exec i s = fpArith op prec n sf qp f1 a b c s) : FpFaults i op prec sf qp f1 a b c := by
  intro s hq h1 ha hb hc na nb nc
  rw [he]
  have hn : ¬ (s.lp.fr? a = natVal ∨ s.lp.fr? b = natVal ∨ s.lp.fr? c = natVal) := by simp [na, nb, nc]
  simp only [fpArith, predicatedEnd, hq, if_true, readFr3_ok h1 ha hb hc, ok_bind, hn, if_false]
  by_cases hf : enabledFlags s.lp.ar.fpsr sf
      (fpOp op prec sf s.lp.ar.fpsr (s.lp.fr? a) (s.lp.fr? b) (s.lp.fr? c)).flags &&& 7#6 = 0#6
  · refine ⟨_, by rw [recordFlags_trap (s := s.noteFpOps n) hf]; rfl, fun h => absurd hf h, ?_⟩
    rintro r rfl - hx u1 u2
    exact fp_trapped n _ { s.lp.ar with fpsr := setSfFlags s.lp.ar.fpsr sf (sfFlags s.lp.ar.fpsr sf |||
      (fpOp op prec sf s.lp.ar.fpsr (s.lp.fr? a) (s.lp.fr? b) (s.lp.fr? c)).flags) } (fpTrapCode_ne _ hf hx) h1 u1 u2
  · exact ⟨_, by rw [recordFlags_fault (s := s.noteFpOps n) hf]; rfl, fun _ => rfl, fun r hr hz => absurd (hr ▸ hz) hf⟩

/-- An approximation with its traps disabled. -/
theorem approximate_plain {op : FpOp} {n : Nat} {sf : BitVec 2} {qp p2 : BitVec 6} {f1 a b : BitVec 7} {i : Instr}
    (he : ∀ s, exec i s = approximate op n sf qp p2 f1 a b s) : Approximates i op sf qp p2 f1 a b := by
  intro s hq h1 ha hb hoff hu
  have hc : s.lp.frEnabled 0#7 = true := rfl
  rw [he]
  by_cases hn : s.lp.fr? a = natVal ∨ s.lp.fr? b = natVal
  · obtain ⟨e, g1, g2, g3⟩ := fp_done n natVal s.lp.ar (s.lp.setPr p2 false).pr h1 hu
    refine ⟨_, ?_, ?_, g2, g3, rfl⟩
    · rw [← e]
      simp only [approximate, hq, if_true, readFr3_ok h1 ha hb hc, ok_bind, hn, ans_pure]
      rw [setPr_of (l := s.lp) (k := ((s.noteFpOps n).setFr f1 natVal).lp) p2 false rfl rfl]
      rfl
    · rw [if_pos hn]; exact ⟨g1, rfl, rfl⟩
  · generalize hr : fpOp op .dynamic sf s.lp.ar.fpsr (s.lp.fr? a) (s.lp.fr? b) 0#82 = r
    obtain ⟨e, g1, g2, g3⟩ := fp_done n r.value
      { s.lp.ar with fpsr := setSfFlags s.lp.ar.fpsr sf (sfFlags s.lp.ar.fpsr sf ||| r.flags) }
      (s.lp.setPr p2 r.pred).pr h1 hu
    refine ⟨_, ?_, ?_, g2, g3, rfl⟩
    · rw [← e]
      simp only [approximate, hq, if_true, readFr3_ok h1 ha hb hc, ok_bind, hn, if_false, hr]
      have hrec := recordFlags_quiet (s := s.noteFpOps n) hoff sf r.flags
      obtain ⟨v, hv⟩ : ∃ v, v = (s.noteFpOps n).setLp { (s.noteFpOps n).lp with ar := { s.lp.ar with
        fpsr := setSfFlags s.lp.ar.fpsr sf (sfFlags s.lp.ar.fpsr sf ||| r.flags) } } := ⟨_, rfl⟩
      have hrec' : recordFlags (s.noteFpOps n) sf r.flags = .ok (v, 0#64) := hv ▸ hrec
      simp only [hrec', ok_bind, ans_pure]
      rw [setPr_of (l := s.lp) (k := (v.setFr f1 r.value).lp) p2 r.pred (by rw [hv]; rfl) (by rw [hv]; rfl), hv]
      rfl
    · rw [if_neg hn]; exact ⟨g1, rfl, rfl⟩

/-- A move of bits between floating-point registers. -/
theorem fpMove3_effect {qp : BitVec 6} {f1 a b c : BitVec 7} {f g : FReg → FReg → FReg → FReg} {i : Instr}
    (he : ∀ s, exec i s = fpMove3 qp f1 a b c f s) (hfg : ∀ x y z, f x y z = g x y z) : FpMoves i qp f1 a b c g := by
  intro s
  rw [he]
  exact predicated_cases (fun h => by simp [readFr3_ok h.1 h.2.1 h.2.2.1 h.2.2.2, hfg])
    (setFr_psrBit _ _ _ _ (by decide)) rfl

/-- A compare whose type the free `typeUnc` decides, predicated off. -/
theorem compare_off (x : Ans (Bool × Bool × State)) {s : State} {qp p1 p2 : BitVec 6} {ta : BitVec 1}
    (hq : s.lp.readPr qp = false) (hu : Untrapped s) :
    (p1 = p2 → compare (if typeUnc ta then .unc else .none) qp p1 p2 s x
      = .next (if typeUnc ta then faultTo s illegalOperation else skipped s))
    ∧ (p1 ≠ p2 → ∃ t, compare (if typeUnc ta then .unc else .none) qp p1 p2 s x = .next t
      ∧ t.lp.pr = (if typeUnc ta then (s.setPr2 p1 p2 false false).lp.pr else s.lp.pr)
      ∧ t = { skipped s with lp := { (skipped s).lp with pr := t.lp.pr } }) := by
  have c {ct : CType} := compare_cases (ct := ct) (qp := qp) (p1 := p1) (p2 := p2) (s := s) (x := x) (rel := false)
    (nat := false) (pre := x = .ok (false, false, s)) id
  cases ht : typeUnc ta
  · exact ⟨fun _ => c.2.2.1 hq (by decide) hu, fun _ => ⟨_, c.2.2.1 hq (by decide) hu, rfl, rfl⟩⟩
  · exact ⟨fun hp => c.2.1 (.inr rfl) hp, fun hp => c.2.2.2 hq rfl hp hu⟩

/-- A floating-point compare. -/
theorem fpCompareOp_cases {o : OpF4} {i : Instr} (he : ∀ s, exec i s = fpCompareOp o s) : FpCompares i o := by
  intro s
  rw [he]
  refine ⟨fun hq hp h2 h3 hoff hu => ?_, fun hq hp => ?_, ?_⟩
  · have end_ (u : State) (h36 : u.lp.psr = s.lp.psr) (hr : u.params = s.params) :
        finish s (.ok (retire s u {})) = .next (fallThrough s u) :=
      congrArg _ (retire_fall false hu (by simp [LP.psrBit, h36]) hr)
    have setp (u : State) (x y : Bool) (hu : u.lp.pr = s.lp.pr) (hm : u.lp.cfm = s.lp.cfm) :
        (u.setPr2 o.p1 o.p2 x y) = u.setLp { u.lp with pr := (s.setPr2 o.p1 o.p2 x y).lp.pr } := by
      have e1 := setPr_of o.p1 x hu hm
      have e2 := setPr_of (l := s.lp.setPr o.p1 x) (k := u.lp.setPr o.p1 x) o.p2 y (by rw [e1])
        (by rw [e1]; simp [hm])
      simp only [State.setPr2, e2]
      rw [e1]; rfl
    by_cases hn : s.lp.fr? o.f2 = natVal ∨ s.lp.fr? o.f3 = natVal
    · refine ⟨fallThrough s ((s.noteFpOps 1).setLp { (s.noteFpOps 1).lp with pr := (s.setPr2 o.p1 o.p2 false false).lp.pr }),
        ?_, ?_, passed_of rfl, rfl⟩
      · rw [← setp (s.noteFpOps 1) false false rfl rfl, ← end_ ((s.noteFpOps 1).setPr2 o.p1 o.p2 false false)
          (by simp [State.setPr2]) rfl]
        simp only [fpCompareOp, hq, if_true, decide_eq_true hp, require_true, readFr_ok h2, readFr_ok h3, ok_bind, hn,
          ans_pure, writeCompare]
      · rw [if_pos hn]; exact ⟨rfl, rfl⟩
    · generalize hr : fpCompare (fcmpRel o.ra o.rb) o.sf s.lp.ar.fpsr (s.lp.fr? o.f2) (s.lp.fr? o.f3) = r
      let ar := { s.lp.ar with fpsr := setSfFlags s.lp.ar.fpsr o.sf (sfFlags s.lp.ar.fpsr o.sf ||| r.2) }
      let v := (s.noteFpOps 1).setLp { (s.noteFpOps 1).lp with ar := ar }
      refine ⟨fallThrough s (v.setLp { v.lp with pr := (s.setPr2 o.p1 o.p2 r.1 (!r.1)).lp.pr }),
        ?_, ?_, passed_of rfl, rfl⟩
      · rw [← setp v r.1 (!r.1) rfl rfl, ← end_ (v.setPr2 o.p1 o.p2 r.1 (!r.1)) (by simp [State.setPr2]; rfl) rfl]
        simp only [fpCompareOp, hq, if_true, decide_eq_true hp, require_true, readFr_ok h2, readFr_ok h3, ok_bind, hn,
          if_false, hr]
        rw [recordFlags_quiet (s := s.noteFpOps 1) hoff]
        rfl
      · rw [if_neg hn]; exact ⟨rfl, rfl⟩
  · simp [fpCompareOp, hp, hq]
  · intro hq hu
    simp only [he, fpCompareOp, hq, Bool.false_eq_true, if_false]
    exact compare_off _ hq hu

end Sys2Proof.Machine
end

