-- ==== Sys2Proof/Laws/Shapes.lean ====
section
/-!
SUPPORT. The shapes of Forms.lean from the body of a meaning: an effect, a trap, a check, a move between the register files.
-/

namespace Sys2Proof.Machine

open Sys2Proof.Config

theorem effect_of {i : Instr} {qp : BitVec 6} {pre : State → Prop} {f : State → State} {b : State → Ans State}
    (he : ∀ s, exec i s = predicated qp s (b s)) (hb : ∀ s, pre s → b s = .ok (f s))
    (hit : ∀ s, (f s).lp.psrBit 36 = s.lp.psrBit 36) (hp : ∀ s, (f s).params = s.params) : Effect i qp pre f := by
  intro s; rw [he]; exact predicated_cases (hb s) (hit s) (hp s)

theorem effectWide_of {i : Instr} {qp : BitVec 6} {pre : State → Prop} {f : State → State} {b : State → Ans State}
    (he : ∀ s, exec i s = predicated qp s (b s) true) (hb : ∀ s, pre s → b s = .ok (f s))
    (hit : ∀ s, (f s).lp.psrBit 36 = s.lp.psrBit 36) (hp : ∀ s, (f s).params = s.params) : EffectWide i qp pre f := by
  intro s; rw [he]; exact predicated_cases (hb s) (hit s) (hp s)

theorem trap_of {i : Instr} {qp : BitVec 6} {pre : State → Prop} {e : State → Exc} {b : State → Ans State} {w : Bool}
    (he : ∀ s, exec i s = predicated qp s (b s) w) (hb : ∀ s, pre s → b s = raise (e s)) : Traps i qp pre e := by
  intro s hq h; rw [he]; exact predicated_raise hq (hb s h)

theorem skips_of {i : Instr} {qp : BitVec 6} {b : State → Ans State} (he : ∀ s, exec i s = predicated qp s (b s)) :
    Skips i qp := by
  intro s hq hu; rw [he]; exact (predicated_cases (u := s) (pre := False) False.elim rfl rfl).2 hq hu

theorem checks_of {i : Instr} {qp : BitVec 6} {pre : State → Prop} {failed : State → Bool} {note : State → State}
    {target : State → Word} {b : State → Ans (State × Ending)} (he : ∀ s, exec i s = predicatedEnd qp s (b s))
    (hb : ∀ s, pre s → b s = .ok (if failed s then
      ((note s).noteFlow .check true (target s), { target := some (target s) }) else (note s, {})))
    (hp : ∀ s, (note s).lp.psr = s.lp.psr ∧ (note s).params = s.params) : Checks i qp pre failed note target := by
  intro s hq h; rw [he]
  refine ⟨fun hf hr => ?_, fun hf hu => ?_⟩
  · simp only [predicatedEnd, hq, hb s h, hf, if_true, map_ok, finish_ok]
    exact congrArg _ (retire_branch hr (by simp [State.noteFlow, LP.psrBit, (hp s).1]) (by simp [State.noteFlow, (hp s).2]))
  · simp only [predicatedEnd, hq, hb s h, hf, if_true, map_ok, finish_ok]
    exact congrArg _ (retire_fall false hu (by simp [LP.psrBit, (hp s).1]) (hp s).2)

/-- An instruction that is not predicated and falls through. -/
theorem effectAlways_of {i : Instr} {pre : State → Prop} {f : State → State} {b : State → Ans State}
    (he : ∀ s, exec i s = always s (b s)) (hb : ∀ s, pre s → b s = .ok (f s))
    (hit : ∀ s, (f s).lp.psrBit 36 = s.lp.psrBit 36) (hp : ∀ s, (f s).params = s.params) : EffectAlways i pre f := by
  intro s h hu
  rw [he]
  simp only [always, unpredicated, hb s h, map_ok, finish_ok]
  exact congrArg _ (retire_fall false hu (hit s) (hp s))

theorem setf_effect {i : Instr} {qp : BitVec 6} {f1 r2 : BitVec 7} {f g : Word → FReg}
    (he : ∀ s, exec i s = setfOp qp f1 r2 f s) (hfg : ∀ w, f w = g w) :
    Effect i qp (fun s => FrWritable s f1 ∧ s.lp.grReadable r2 = true)
      (fun s => s.setFr f1 (if (s.lp.gr? r2).nat then natVal else g (s.lp.gr? r2).val)) := by
  intro s; rw [he]
  exact predicated_cases (fun h => by simp [checkFrNumber_ok h.1, checkFrEnabled_ok h.1, readGr_ok h.2, hfg]) (setFr_psrBit _ _ _ _ (by decide)) rfl

theorem getf_effect {i : Instr} {qp : BitVec 6} {r1 f2 : BitVec 7} {f g : FReg → Word}
    (he : ∀ s, exec i s = getfOp qp r1 f2 f s) (hfg : ∀ w, f w = g w) :
    Effect i qp (fun s => s.lp.grWritable r1 = true ∧ s.lp.frEnabled f2 = true)
      (fun s => s.setGr r1 ⟨g (s.lp.fr? f2), decide (s.lp.fr? f2 = natVal)⟩) := by
  intro s; rw [he]
  exact predicated_cases (fun h => by simp [h.1, readFr_ok h.2, hfg]) (psrBit36_setGr _ _ _) rfl

theorem checkAlat_psr (s : State) (fp : Bool) (r : BitVec 7) :
    (checkAlat s fp r).2.lp.psr = s.lp.psr ∧ (checkAlat s fp r).2.params = s.params :=
  ⟨seen_psr (seen_checkAlat s fp r), seen_params (seen_checkAlat s fp r)⟩

/-- The user mask holds no bit above bit 5. -/
theorem setUserMask_psrBit (s : State) (w : Word) (i : Nat) (h : 6 ≤ i) (h' : i < 64) :
    (s.setUserMask w).lp.psrBit i = s.lp.psrBit i := by
  have : ((1#64 <<< 6 - 1#64) <<< 0 : Word).getLsbD i = false := by
    interval_cases i <;> decide
  simp only [State.setUserMask, State.setLp, LP.psrBit, setField, BitVec.getLsbD_or, BitVec.getLsbD_and,
    BitVec.getLsbD_not, this, h']
  simp

end Sys2Proof.Machine
end

