-- ==== Sys2Proof/Laws/Frame.lean ====
section
/-!
SUPPORT. The fields of a frame marker made of its fields, the rotation of the registers, and the shapes of the branches and of
the loop branches.
-/

namespace Sys2Proof.Machine

open Sys2Proof.Config

/-! ## The frame marker -/

theorem sof_lt (l : LP) : l.sof < 128 := Nat.mod_lt _ (by decide)
theorem sol_lt (l : LP) : l.sol < 128 := Nat.mod_lt _ (by decide)
theorem sor_lt (l : LP) : l.sor < 16 := Nat.mod_lt _ (by decide)
theorem rrbGr_lt (l : LP) : l.rrbGr < 128 := Nat.mod_lt _ (by decide)
theorem rrbFr_lt (l : LP) : l.rrbFr < 128 := Nat.mod_lt _ (by decide)
theorem rrbPr_lt (l : LP) : l.rrbPr < 64 := Nat.mod_lt _ (by decide)

theorem mkCfm_toNat {a b c d e f : Nat} (ha : a < 128) (hb : b < 128) (hc : c < 16) (hd : d < 128) (he : e < 128)
    (hf : f < 64) :
    (mkCfm a b c d e f).toNat = a + b * 2 ^ 7 + c * 2 ^ 14 + d * 2 ^ 18 + e * 2 ^ 25 + f * 2 ^ 32 := by
  unfold mkCfm
  rw [BitVec.toNat_ofNat, Nat.mod_eq_of_lt ha, Nat.mod_eq_of_lt hb, Nat.mod_eq_of_lt hc, Nat.mod_eq_of_lt hd,
    Nat.mod_eq_of_lt he, Nat.mod_eq_of_lt hf]
  omega

/-- A frame marker made of fields has those fields. -/
theorem cfm_fields {l : LP} {a b c d e f : Nat} (h : l.cfm = mkCfm a b c d e f) (ha : a < 128) (hb : b < 128)
    (hc : c < 16) (hd : d < 128) (he : e < 128) (hf : f < 64) :
    l.sof = a ∧ l.sol = b ∧ l.sor = c ∧ l.rrbGr = d ∧ l.rrbFr = e ∧ l.rrbPr = f := by
  have k := mkCfm_toNat ha hb hc hd he hf
  simp only [LP.sof, LP.sol, LP.sor, LP.rrbGr, LP.rrbFr, LP.rrbPr, h, k]
  refine ⟨?_, ?_, ?_, ?_, ?_, ?_⟩ <;> omega

/-- A predicate is read back after it is written. -/
theorem readPr_setPr (l : LP) (p : BitVec 6) (b : Bool) (h : p ≠ 0#6) : (l.setPr p b).readPr p = b := by
  have hp := p.isLt
  unfold LP.setPr LP.readPr
  simp only [h, if_false]
  show (setBit l.pr (l.prIndex p.toNat) b).getLsbD (l.prIndex p.toNat) = b
  have hi : l.prIndex p.toNat < 64 := by unfold LP.prIndex; split <;> omega
  generalize l.prIndex p.toNat = k at *
  cases b <;> simp [setBit, -BitVec.getLsbD_eq_getElem, hi]

/-- A write of a predicate changes the predicates only. -/
theorem setPr_only (l : LP) (p : BitVec 6) (b : Bool) : l.setPr p b = { l with pr := (l.setPr p b).pr } := by
  unfold LP.setPr; split <;> rfl

/-- A rotation changes the frame marker and the predicates only. -/
theorem rotated_parts (s : State) (b : Bool) :
    ∃ c p, s.rotated b = { s with lp := { s.lp with cfm := c, pr := p } } ∧ c = rotate s.lp := by
  unfold State.rotated
  generalize rotate s.lp = c
  exact ⟨c, _, congrArg s.setLp (setPr_only { s.lp with cfm := c } 63#6 b), rfl⟩

theorem rotated_only (s : State) (b : Bool) :
    s.rotated b = { s with lp := { s.lp with cfm := (s.rotated b).lp.cfm, pr := (s.rotated b).lp.pr } } := by
  obtain ⟨c, p, e, _⟩ := rotated_parts s b
  rw [e]
theorem rotated_cfm (s : State) (b : Bool) : (s.rotated b).lp.cfm = rotate s.lp := by
  obtain ⟨c, p, e, h⟩ := rotated_parts s b
  rw [e, ← h]
theorem rotated_psr (s : State) (b : Bool) : (s.rotated b).lp.psr = s.lp.psr ∧ (s.rotated b).params = s.params := by
  obtain ⟨c, p, e, _⟩ := rotated_parts s b
  rw [e]; exact ⟨rfl, rfl⟩

/-- 43 R663: the rename bases after a rotation. -/
theorem rotated_fields (s : State) (b : Bool) :
    (s.rotated b).lp.sof = s.lp.sof ∧ (s.rotated b).lp.sol = s.lp.sol ∧ (s.rotated b).lp.sor = s.lp.sor
      ∧ (s.rotated b).lp.rrbGr =
        (if s.lp.sor = 0 then s.lp.rrbGr else (s.lp.rrbGr + 8 * s.lp.sor - 1) % (8 * s.lp.sor))
      ∧ (s.rotated b).lp.rrbFr = (s.lp.rrbFr + 95) % 96 ∧ (s.rotated b).lp.rrbPr = (s.lp.rrbPr + 47) % 48 := by
  have hs := sor_lt s.lp
  have hg := rrbGr_lt s.lp
  refine cfm_fields (rotated_cfm s b) (sof_lt _) (sol_lt _) hs ?_ ?_ ?_
  · split
    · exact hg
    · have := Nat.mod_lt (s.lp.rrbGr + 8 * s.lp.sor - 1) (show 0 < 8 * s.lp.sor by omega)
      omega
  · have := Nat.mod_lt (s.lp.rrbFr + 95) (show 0 < 96 by decide); omega
  · have := Nat.mod_lt (s.lp.rrbPr + 47) (show 0 < 48 by decide); omega

/-! ## Branches -/

theorem branches_of {i : Instr} {wide : Bool} {k : FlowKind} {qp : BitVec 6} {pre : State → Prop} {target : State → Word}
    {f : State → State} {b : State → Ans (State × Bool)} (he : ∀ s, exec i s = branchWith k wide qp (target s) s (b s))
    (hb : ∀ s, pre s → ∃ l, b s = .ok (f s, l))
    (hp : ∀ s, (f s).lp.psrBit 36 = s.lp.psrBit 36 ∧ (f s).params = s.params) : Branches i wide k qp pre target f := by
  intro s; rw [he]
  refine ⟨fun hq h hr => ?_, fun hq hu => ?_⟩
  · obtain ⟨l, hl⟩ := hb s h
    simp only [branchWith, hq, if_true, hl, map_ok, finish_ok]
    exact congrArg _ (retire_branch hr (hp s).1 (hp s).2)
  · simp only [branchWith, hq]
    exact congrArg Host.Outcome.next (retire_fall wide hu rfl rfl)

theorem loops_of {i : Instr} {target : State → Word} {pre : State → Prop} {taken : State → Bool} {f : State → State}
    (he : ∀ s, pre s → s.lp.ri = 2#2 → exec i s = .next (loopEnd s (f s) (taken s) (target s)))
    (hp : ∀ s, (f s).lp.psr = s.lp.psr ∧ (f s).params = s.params) : Loops i target pre taken f := by
  intro s h h2 hu hr
  rw [he s h h2]
  have h36 : (f s).lp.psrBit 36 = s.lp.psrBit 36 := by simp only [LP.psrBit, (hp s).1]
  cases htk : taken s
  · exact congrArg _ (retire_fall false hu h36 (hp s).2)
  · exact congrArg _ (retire_branch hr h36 (hp s).2)

theorem epilog_psr (s : State) : (epilog s).1.lp.psr = s.lp.psr ∧ (epilog s).1.params = s.params := by
  unfold epilog; dsimp only; split
  · exact rotated_psr _ _
  · split
    · exact rotated_psr _ _
    · refine ⟨?_, rfl⟩
      show (s.lp.setPr 63#6 false).psr = _
      unfold LP.setPr; split <;> rfl

/-- 43 R663, R664: the epilog case by case. -/
theorem epilog_cases (s : State) : epilog s =
    if 1 < s.lp.ar.ec.toNat then ((s.setEc (s.lp.ar.ec - 1#6)).rotated false, true)
    else if s.lp.ar.ec = 1#6 then ((s.setEc 0#6).rotated false, false)
    else (s.setLp (s.lp.setPr 63#6 false), false) := by
  have h : (1#6 < s.lp.ar.ec) ↔ 1 < s.lp.ar.ec.toNat := by rw [BitVec.lt_def]; rfl
  unfold epilog; simp only [h]

end Sys2Proof.Machine
end

