-- ==== Sys2Proof/Laws/Rse.lean ====
section
/-!
SUPPORT. How far apart the addresses of the backing store lie, and what giving up every dirty register leaves.
-/

namespace Sys2Proof.Machine

theorem skipCollection_cases (a : Word) : skipCollection a = a ∨ skipCollection a = a + 8#64 := by
  unfold skipCollection; split <;> simp

/-- Each register takes 8 to 24 bytes of the backing store. -/
theorem growBsp_distance (n : Nat) : ∀ a : Word, ∃ k, growBsp a n = a + BitVec.ofNat 64 k ∧ 8 * n ≤ k ∧ k ≤ 24 * n := by
  induction n with
  | zero => intro a; exact ⟨0, by simp [growBsp], by omega, by omega⟩
  | succ n ih =>
    intro a
    obtain ⟨k, h, h1, h2⟩ := ih (skipCollection (skipCollection a + 8#64))
    have e : growBsp a (n + 1) = growBsp (skipCollection (skipCollection a + 8#64)) n := rfl
    rw [e, h]
    rcases skipCollection_cases a with e | e <;> rcases skipCollection_cases (skipCollection a + 8#64) with f | f <;> rw [f, e]
    · exact ⟨k + 8, by bv_omega, by omega, by omega⟩
    · exact ⟨k + 16, by bv_omega, by omega, by omega⟩
    · exact ⟨k + 16, by bv_omega, by omega, by omega⟩
    · exact ⟨k + 24, by bv_omega, by omega, by omega⟩

theorem isCollection_iff (a : Word) : isCollection a = true ↔ a.toNat / 8 % 64 = 63 := by
  have e : (field a 3 6).toNat = a.toNat / 8 % 64 := by
    rw [field, BitVec.toNat_and, BitVec.toNat_ushiftRight, Nat.shiftRight_eq_div_pow]
    exact Nat.and_two_pow_sub_one_eq_mod _ 6
  rw [isCollection, decide_eq_true_eq, ← BitVec.toNat_inj, e]; rfl

/-- The place after a NaT collection holds none. -/
theorem skipCollection_skipCollection (a : Word) : skipCollection (skipCollection a) = skipCollection a := by
  by_cases h : isCollection a = true
  · have e : skipCollection a = a + 8#64 := if_pos h
    rw [e, skipCollection, if_neg]
    rw [isCollection_iff] at h ⊢
    bv_omega
  · have e : skipCollection a = a := if_neg h
    rw [e, e]

/-- A register above a NaT collection lies where it lies above the place after it. -/
theorem growBsp_skip (a : Word) (n : Nat) : growBsp (skipCollection a) (n + 1) = growBsp a (n + 1) := by
  simp only [growBsp, skipCollection_skipCollection]

/-- From a place below the next register, every dirty register is given up and `AR.BSPSTORE` moves up to `AR.BSP`. -/
theorem dropBelow_from (bsp : Word) : ∀ (n : Nat) (s : State), n ≤ 96 → bsp = growBsp (skipCollection s.lp.ar.bspstore) n →
    dropBelow bsp 0 n s
      = (s.setAr { s.lp.ar with bspstore := bsp }).setGrFile { s.lp.gr with ndirty := s.lp.gr.ndirty - n } := by
  intro n
  induction n with
  | zero =>
    intro s _ h
    simp only [growBsp] at h
    have e : dropBelow bsp 0 0 s = s.pastCollection := by
      simp only [dropBelow]
      rcases skipCollection_cases s.lp.ar.bspstore with g | g
      · rw [State.pastCollection, g]; split <;> rfl
      · rw [if_pos]; rw [h, g]; unfold LP.bytesBelow; bv_omega
    rw [e, h]; rfl
  | succ n ih =>
    intro s hn h
    obtain ⟨k, e, e1, e2⟩ := growBsp_distance (n + 1) (skipCollection s.lp.ar.bspstore)
    have h1 : 0 < s.lp.bytesBelow bsp := by
      unfold LP.bytesBelow; rw [h, e]
      rcases skipCollection_cases s.lp.ar.bspstore with g | g <;> rw [g] <;> bv_omega
    have h2 : 0 < s.pastCollection.lp.bytesBelow bsp := by
      show 0 < (bsp - skipCollection s.lp.ar.bspstore).toNat
      rw [h, e]; bv_omega
    have hd : s.lp.gr.ndirty - 1 - n = s.lp.gr.ndirty - (n + 1) := by omega
    have hb : bsp = growBsp (skipCollection s.pastCollection.dropRegister.lp.ar.bspstore) n := by
      rw [h, growBsp_skip]; rfl
    rw [dropBelow, if_pos h1]
    simp only [if_pos h2]
    rw [ih _ (by omega) hb]
    simp only [State.setAr, State.setGrFile, State.setLp, State.dropRegister, State.pastCollection]
    rw [hd]

/-- Where no byte of the backing store is asked for, every dirty register is given up and `AR.BSPSTORE` moves up to `AR.BSP`. -/
theorem dropBelow_all (bsp : Word) (n : Nat) (s : State) (hn : n ≤ 96) (h : bsp = growBsp s.lp.ar.bspstore n) :
    dropBelow bsp 0 n s
      = (s.setAr { s.lp.ar with bspstore := bsp }).setGrFile { s.lp.gr with ndirty := s.lp.gr.ndirty - n } := by
  cases n with
  | zero =>
    subst h
    simp only [dropBelow, growBsp, LP.bytesBelow, BitVec.sub_self]
    rfl
  | succ n => exact dropBelow_from bsp (n + 1) s hn (by rw [growBsp_skip, h])

end Sys2Proof.Machine
end

