-- ==== Sys2Proof/Machine/Pal.lean ====
section
/-!
DEFINITION. The PAL procedures the spec names, as oracle functions (60 R1350, 92 D28, log 43): what a call returns and what it
does to the state. No step makes a call: the calling convention and the firmware are outside the model (00_scope.md R10).
-/

namespace Sys2Proof.Machine

open Sys2Proof.Config

/-- A status: 0 success, negative an error (60 R1350). -/
def palSuccess : Int := 0
def palInvalidArgument : Int := -2

/-- 11 R195: what PAL_PERF_MON_INFO returns. -/
structure PerfMonInfo where
  retired : Nat
  cycles : Nat
  width : Nat
  genericPairs : Nat
  pmcMask : BitVec 256
  pmdMask : BitVec 256
  cyclesMask : BitVec 256
  retiredMask : BitVec 256
deriving DecidableEq, Repr

/-- 11 R195: PAL_PERF_MON_INFO. -/
def palPerfMonInfo : PerfMonInfo :=
  { retired := 0x08, cycles := 0x12, width := 48, genericPairs := 12, pmcMask := 0x7FF0000FFF1#256
    pmdMask := 0xFFFF00DF0000FFF0#256, cyclesMask := 0xFFF0#256, retiredMask := 0xFFF0#256 }

/-! ## PAL_BRAND_INFO (60 R1352) -/

/-- A string with its null byte. -/
def nullTerminated (l : List Byte) : List Byte := l ++ [0#8]

/-- Bytes as a number, the first the lowest. -/
def bytesValue : List Byte → Nat
  | [] => 0
  | b :: l => b.toNat + 256 * bytesValue l

/-- The state with bytes stored one after the other at a data address, `none` where one cannot be stored. -/
def putBytes (s : State) (va : Word) : List Byte → Option State
  | [] => some s
  | b :: l => match translateAddr s va .write with
    | .ok (pa, _) =>
      if inRam s.params pa 1 then
        putBytes { s.dropAlat pa 1 with mem := writeLE s.mem pa 1 b.toNat } (va + 1#64) l
      else none
    | .error _ => none

/-- 60 R1352: PAL_BRAND_INFO: the status and `brand_info`. An address at which the string cannot be stored is an invalid argument
(log 43, DESIGN CHOICE). -/
def palBrandInfo (request : Nat) (address : Word) (s : State) : Int × Nat × State :=
  match request with
  | 0 => match putBytes s address (nullTerminated s.params.brandString) with
    | some t => (palSuccess, s.params.brandString.length, t)
    | none => (palInvalidArgument, 0, s)
  | 16 => (palSuccess, s.params.coreFreqHz.toNat, s)
  | 17 => (palSuccess, s.params.cacheSizeBytes.toNat, s)
  | 18 => (palSuccess, bytesValue (nullTerminated s.params.steppingString), s)
  | _ => (palInvalidArgument, 0, s)

/-! ## PAL_PROC_GET_FEATURES, PAL_SET_PROC_FEATURES (60 R1353) -/

/-- 60 R1353: PAL_PROC_GET_FEATURES: the status and the feature word: of set 18 the features of the part, of set 20 bit 5, which
is 1 while the instruction cache coherence optimization is disabled (log 43, DESIGN CHOICE: the polarity). -/
def palGetFeatures (set : Nat) (s : State) : Int × Word :=
  match set with
  | 18 => (palSuccess,
      (ofBool s.params.featMt <<< 18) ||| (ofBool s.params.featLv <<< 17) ||| (ofBool s.params.featDp <<< 16))
  | 20 => (palSuccess, ofBool (!s.coherenceOpt) <<< 5)
  | _ => (palInvalidArgument, 0#64)

/-- 60 R1353: PAL_SET_PROC_FEATURES: only bit 5 of set 20 can be set. -/
def palSetFeatures (set : Nat) (features : Word) (s : State) : Int × State :=
  if set = 20 then (palSuccess, { s with coherenceOpt := !features.getLsbD 5 }) else (palInvalidArgument, s)

/-! ## PAL_LOGICAL_TO_PHYSICAL, PAL_CACHE_SHARED_INFO (60 R1354) -/

/-- Threads per core: 2, or 1 without multi-threading (60 R1340). -/
def threadsPerCore (p : Params) : Nat := if p.featMt then 2 else 1

/-- 60 R1354: what PAL_LOGICAL_TO_PHYSICAL returns for the calling logical processor. -/
structure LogicalToPhysical where
  tpc : Nat
  cpp : Nat
  numLog : Nat
  tid : Nat
  cid : Nat
  ppid : Nat
deriving DecidableEq, Repr

/-- 60 R1354: PAL_LOGICAL_TO_PHYSICAL. -/
def palLogicalToPhysical (s : State) : LogicalToPhysical :=
  { tpc := threadsPerCore s.params, cpp := 4, numLog := 4 * threadsPerCore s.params, tid := s.thread1.toNat
    cid := s.params.coreId, ppid := s.params.socketId }

/-- 60 R1354: PAL_CACHE_SHARED_INFO of a cache level (1 to 3): the number of sharers, which are the threads of the core, and the
thread, core and logical address of sharer `proc`; the logical address is not given (a free value). -/
def palCacheSharedInfo (level proc : Nat) (s : State) : Int × Nat × Nat × Nat × Word :=
  if 1 ≤ level ∧ level ≤ 3 ∧ proc < threadsPerCore s.params then
    (palSuccess, threadsPerCore s.params, proc, s.params.coreId, freeWord proc)
  else (palInvalidArgument, 0, 0, 0, 0#64)

/-! ## PAL_LIGHT_HALT, PAL_COPY_PAL, the ratio of the time base -/

/-- 44 R792, 60 R1344: PAL_LIGHT_HALT: the calling thread enters the low-power halt, in which its monitors count nothing; `PMC0`
keeps its value. -/
def palLightHalt (s : State) : Int × State :=
  (palSuccess, s.setLp { s.lp with thr := { s.lp.thr with halted := true } })

/-- 60 R1355: PAL_COPY_PAL: it makes an IA-32 execution by PAL available that the hardware has no part in. -/
def palCopyPal (s : State) : Int × State := (palSuccess, s)

/-- 10 R79: the ratio of the interval time counter to the system interface clock, which PAL reports. -/
def palItcRatio (s : State) : Nat := s.params.itcRatio

end Sys2Proof.Machine
end

