-- ==== Sys2Proof/Machine/Ports.lean ====
section
/-!
DEFINITION. The issue port of an instruction: an attribute that changes no result (30 R461, R462). The spec gives the ports an
instruction may issue on by its format; which of them it is, is not given (93 U44).
-/

noncomputable section

namespace Sys2Proof.Machine

open Sys2Proof.Config

/-- 30 R461: the eleven functional units. -/
inductive Port where
  | m0 | m1 | m2 | m3 | i0 | i1 | f0 | f1 | b0 | b1 | b2
deriving DecidableEq, Repr

/-- 40 R500: A-type instructions. -/
def aPorts : List Port := [.m0, .m1, .m2, .m3, .i0, .i1]
/-- 30 R462: loads. -/
def loadPorts : List Port := [.m0, .m1]
/-- 30 R462: stores and semaphores. -/
def storePorts : List Port := [.m2, .m3]
/-- 42 R581: the other M-type instructions. -/
def mPorts : List Port := [.m0, .m1, .m2, .m3]
/-- 30 R462: formats I1 to I8. -/
def i0Ports : List Port := [.i0]
/-- 30 R462, 41 R530: the other I-type instructions. -/
def iPorts : List Port := [.i0, .i1]
/-- 30 R461: F-type instructions, for which no table is given. -/
def fPorts : List Port := [.f0, .f1]
/-- 43 R660: B-type instructions. -/
def bPorts : List Port := [.b0, .b1, .b2]
/-- 43 R691: a long instruction takes an I port. -/
def longPorts : List Port := iPorts

/-- The ports an instruction may issue on. -/
def portsOf (i : Instr) : List Port :=
  match i with
  | .add .. | .addR1R2R31 .. | .sub .. | .subR1R2R31 .. | .addp4 .. | .and .. | .andcm .. | .or .. | .xor ..
  | .shladd .. | .shladdp4 .. | .subR1Imm8R3 .. | .andR1Imm8R3 .. | .andcmR1Imm8R3 .. | .orR1Imm8R3 ..
  | .xorR1Imm8R3 .. | .adds .. | .addp4R1Imm14R3 .. | .addl .. | .cmpLtP1P2R2R3 .. | .cmpGtAndP1P2R0R3 ..
  | .cmp4LtP1P2R2R3 .. | .cmp4GtAndP1P2R0R3 .. | .cmpLtP1P2Imm8R3 .. | .cmp4LtP1P2Imm8R3 .. | .cmpLtUncP1P2R2R3 ..
  | .cmpLeAndP1P2R0R3 .. | .cmp4LtUncP1P2R2R3 .. | .cmp4LeAndP1P2R0R3 .. | .cmpLtUncP1P2Imm8R3 ..
  | .cmp4LtUncP1P2Imm8R3 .. | .cmpEqAndP1P2R2R3 .. | .cmpGeAndP1P2R0R3 .. | .cmp4EqAndP1P2R2R3 ..
  | .cmp4GeAndP1P2R0R3 .. | .cmpEqAndP1P2Imm8R3 .. | .cmp4EqAndP1P2Imm8R3 .. | .cmpNeAndP1P2R2R3 ..
  | .cmpLtAndP1P2R0R3 .. | .cmp4NeAndP1P2R2R3 .. | .cmp4LtAndP1P2R0R3 .. | .cmpNeAndP1P2Imm8R3 ..
  | .cmp4NeAndP1P2Imm8R3 .. | .cmpLtuP1P2R2R3 .. | .cmpGtOrP1P2R0R3 .. | .cmp4LtuP1P2R2R3 .. | .cmp4GtOrP1P2R0R3 ..
  | .cmpLtuP1P2Imm8R3 .. | .cmp4LtuP1P2Imm8R3 .. | .cmpLtuUncP1P2R2R3 .. | .cmpLeOrP1P2R0R3 ..
  | .cmp4LtuUncP1P2R2R3 .. | .cmp4LeOrP1P2R0R3 .. | .cmpLtuUncP1P2Imm8R3 .. | .cmp4LtuUncP1P2Imm8R3 ..
  | .cmpEqOrP1P2R2R3 .. | .cmpGeOrP1P2R0R3 .. | .cmp4EqOrP1P2R2R3 .. | .cmp4GeOrP1P2R0R3 .. | .cmpEqOrP1P2Imm8R3 ..
  | .cmp4EqOrP1P2Imm8R3 .. | .cmpNeOrP1P2R2R3 .. | .cmpLtOrP1P2R0R3 .. | .cmp4NeOrP1P2R2R3 ..
  | .cmp4LtOrP1P2R0R3 .. | .cmpNeOrP1P2Imm8R3 .. | .cmp4NeOrP1P2Imm8R3 .. | .cmpEqP1P2R2R3 ..
  | .cmpGtOrAndcmP1P2R0R3 .. | .cmp4EqP1P2R2R3 .. | .cmp4GtOrAndcmP1P2R0R3 .. | .cmpEqP1P2Imm8R3 ..
  | .cmp4EqP1P2Imm8R3 .. | .cmpEqUncP1P2R2R3 .. | .cmpLeOrAndcmP1P2R0R3 .. | .cmp4EqUncP1P2R2R3 ..
  | .cmp4LeOrAndcmP1P2R0R3 .. | .cmpEqUncP1P2Imm8R3 .. | .cmp4EqUncP1P2Imm8R3 .. | .cmpEqOrAndcmP1P2R2R3 ..
  | .cmpGeOrAndcmP1P2R0R3 .. | .cmp4EqOrAndcmP1P2R2R3 .. | .cmp4GeOrAndcmP1P2R0R3 .. | .cmpEqOrAndcmP1P2Imm8R3 ..
  | .cmp4EqOrAndcmP1P2Imm8R3 .. | .cmpNeOrAndcmP1P2R2R3 .. | .cmpLtOrAndcmP1P2R0R3 .. | .cmp4NeOrAndcmP1P2R2R3 ..
  | .cmp4LtOrAndcmP1P2R0R3 .. | .cmpNeOrAndcmP1P2Imm8R3 .. | .cmp4NeOrAndcmP1P2Imm8R3 .. | .padd1 .. | .padd1Sss ..
  | .padd1Uuu .. | .padd1Uus .. | .padd2 .. | .padd2Sss .. | .padd2Uuu .. | .padd2Uus .. | .padd4 .. | .psub1 ..
  | .psub1Sss .. | .psub1Uuu .. | .psub1Uus .. | .psub2 .. | .psub2Sss .. | .psub2Uuu .. | .psub2Uus .. | .psub4 ..
  | .pavg1 .. | .pavg1Raz .. | .pavgsub1 .. | .pavg2 .. | .pavg2Raz .. | .pavgsub2 .. | .pcmp1Eq .. | .pcmp1Gt ..
  | .pcmp2Eq .. | .pcmp2Gt .. | .pcmp4Eq .. | .pcmp4Gt .. | .pshladd2 .. | .pshradd2 .. => aPorts
  | .pmpyshr2 .. | .pmpy2 .. | .mixPack .. | .mux1 .. | .mux2 .. | .pshrVar .. | .pshrFix .. | .pshlVar ..
  | .pshlFix .. | .shr .. | .shrU .. | .shl .. => i0Ports
  | .popcnt .. | .shrp .. | .extr .. | .extrU .. | .depZ .. | .depZR1Imm8 .. | .depR1Imm1R3 .. | .dep ..
  | .tbitZ .. | .tnatZ .. | .tbitZUnc .. | .tnatZUnc .. | .tbitZAnd .. | .tnatZAnd .. | .tbitNzAnd ..
  | .tnatNzAnd .. | .tbitZOr .. | .tnatZOr .. | .tbitNzOr .. | .tnatNzOr .. | .tbitZOrAndcm .. | .tnatZOrAndcm ..
  | .tbitNzOrAndcm .. | .tnatNzOrAndcm .. | .breakI .. | .nopI .. | .hintI .. | .chkSI .. | .movB1R2 ..
  | .movR1B2 .. | .movPrR2Mask17 .. | .movPrRotImm44 .. | .movR1Ip .. | .movR1Pr .. | .movIAr3R2 ..
  | .movIAr3Imm8 .. | .movIR1Ar3 .. | .zxt1 .. | .zxt2 .. | .zxt4 .. | .sxt1 .. | .sxt2 .. | .sxt4 .. | .czx1L ..
  | .czx2L .. | .czx1R .. | .czx2R .. => iPorts
  | .ld1R1R3 .. | .ld1R1R3R2 .. | .ld1R1R3Imm9 .. | .ld2R1R3 .. | .ld2R1R3R2 .. | .ld2R1R3Imm9 .. | .ld4R1R3 ..
  | .ld4R1R3R2 .. | .ld4R1R3Imm9 .. | .ld8R1R3 .. | .ld8R1R3R2 .. | .ld8R1R3Imm9 .. | .ld1SR1R3 .. | .ld1SR1R3R2 ..
  | .ld1SR1R3Imm9 .. | .ld2SR1R3 .. | .ld2SR1R3R2 .. | .ld2SR1R3Imm9 .. | .ld4SR1R3 .. | .ld4SR1R3R2 ..
  | .ld4SR1R3Imm9 .. | .ld8SR1R3 .. | .ld8SR1R3R2 .. | .ld8SR1R3Imm9 .. | .ld1AR1R3 .. | .ld1AR1R3R2 ..
  | .ld1AR1R3Imm9 .. | .ld2AR1R3 .. | .ld2AR1R3R2 .. | .ld2AR1R3Imm9 .. | .ld4AR1R3 .. | .ld4AR1R3R2 ..
  | .ld4AR1R3Imm9 .. | .ld8AR1R3 .. | .ld8AR1R3R2 .. | .ld8AR1R3Imm9 .. | .ld1SaR1R3 .. | .ld1SaR1R3R2 ..
  | .ld1SaR1R3Imm9 .. | .ld2SaR1R3 .. | .ld2SaR1R3R2 .. | .ld2SaR1R3Imm9 .. | .ld4SaR1R3 .. | .ld4SaR1R3R2 ..
  | .ld4SaR1R3Imm9 .. | .ld8SaR1R3 .. | .ld8SaR1R3R2 .. | .ld8SaR1R3Imm9 .. | .ld1BiasR1R3 .. | .ld1BiasR1R3R2 ..
  | .ld1BiasR1R3Imm9 .. | .ld2BiasR1R3 .. | .ld2BiasR1R3R2 .. | .ld2BiasR1R3Imm9 .. | .ld4BiasR1R3 ..
  | .ld4BiasR1R3R2 .. | .ld4BiasR1R3Imm9 .. | .ld8BiasR1R3 .. | .ld8BiasR1R3R2 .. | .ld8BiasR1R3Imm9 ..
  | .ld1AcqR1R3 .. | .ld1AcqR1R3R2 .. | .ld1AcqR1R3Imm9 .. | .ld2AcqR1R3 .. | .ld2AcqR1R3R2 .. | .ld2AcqR1R3Imm9 ..
  | .ld4AcqR1R3 .. | .ld4AcqR1R3R2 .. | .ld4AcqR1R3Imm9 .. | .ld8AcqR1R3 .. | .ld8AcqR1R3R2 .. | .ld8AcqR1R3Imm9 ..
  | .ld1CClrR1R3 .. | .ld1CClrR1R3R2 .. | .ld1CClrR1R3Imm9 .. | .ld2CClrR1R3 .. | .ld2CClrR1R3R2 ..
  | .ld2CClrR1R3Imm9 .. | .ld4CClrR1R3 .. | .ld4CClrR1R3R2 .. | .ld4CClrR1R3Imm9 .. | .ld8CClrR1R3 ..
  | .ld8CClrR1R3R2 .. | .ld8CClrR1R3Imm9 .. | .ld1CNcR1R3 .. | .ld1CNcR1R3R2 .. | .ld1CNcR1R3Imm9 ..
  | .ld2CNcR1R3 .. | .ld2CNcR1R3R2 .. | .ld2CNcR1R3Imm9 .. | .ld4CNcR1R3 .. | .ld4CNcR1R3R2 .. | .ld4CNcR1R3Imm9 ..
  | .ld8CNcR1R3 .. | .ld8CNcR1R3R2 .. | .ld8CNcR1R3Imm9 .. | .ld1CClrAcqR1R3 .. | .ld1CClrAcqR1R3R2 ..
  | .ld1CClrAcqR1R3Imm9 .. | .ld2CClrAcqR1R3 .. | .ld2CClrAcqR1R3R2 .. | .ld2CClrAcqR1R3Imm9 ..
  | .ld4CClrAcqR1R3 .. | .ld4CClrAcqR1R3R2 .. | .ld4CClrAcqR1R3Imm9 .. | .ld8CClrAcqR1R3 .. | .ld8CClrAcqR1R3R2 ..
  | .ld8CClrAcqR1R3Imm9 .. | .ld8FillR1R3 .. | .ld8FillR1R3R2 .. | .ld8FillR1R3Imm9 .. | .ld16R1ArCsdR3 ..
  | .ld16AcqR1ArCsdR3 .. | .ldfeF1R3 .. | .ldfeF1R3R2 .. | .ldfeF1R3Imm9 .. | .ldf8F1R3 .. | .ldf8F1R3R2 ..
  | .ldf8F1R3Imm9 .. | .ldfsF1R3 .. | .ldfsF1R3R2 .. | .ldfsF1R3Imm9 .. | .ldfdF1R3 .. | .ldfdF1R3R2 ..
  | .ldfdF1R3Imm9 .. | .ldfeSF1R3 .. | .ldfeSF1R3R2 .. | .ldfeSF1R3Imm9 .. | .ldf8SF1R3 .. | .ldf8SF1R3R2 ..
  | .ldf8SF1R3Imm9 .. | .ldfsSF1R3 .. | .ldfsSF1R3R2 .. | .ldfsSF1R3Imm9 .. | .ldfdSF1R3 .. | .ldfdSF1R3R2 ..
  | .ldfdSF1R3Imm9 .. | .ldfeAF1R3 .. | .ldfeAF1R3R2 .. | .ldfeAF1R3Imm9 .. | .ldf8AF1R3 .. | .ldf8AF1R3R2 ..
  | .ldf8AF1R3Imm9 .. | .ldfsAF1R3 .. | .ldfsAF1R3R2 .. | .ldfsAF1R3Imm9 .. | .ldfdAF1R3 .. | .ldfdAF1R3R2 ..
  | .ldfdAF1R3Imm9 .. | .ldfeSaF1R3 .. | .ldfeSaF1R3R2 .. | .ldfeSaF1R3Imm9 .. | .ldf8SaF1R3 .. | .ldf8SaF1R3R2 ..
  | .ldf8SaF1R3Imm9 .. | .ldfsSaF1R3 .. | .ldfsSaF1R3R2 .. | .ldfsSaF1R3Imm9 .. | .ldfdSaF1R3 .. | .ldfdSaF1R3R2 ..
  | .ldfdSaF1R3Imm9 .. | .ldfeCClrF1R3 .. | .ldfeCClrF1R3R2 .. | .ldfeCClrF1R3Imm9 .. | .ldf8CClrF1R3 ..
  | .ldf8CClrF1R3R2 .. | .ldf8CClrF1R3Imm9 .. | .ldfsCClrF1R3 .. | .ldfsCClrF1R3R2 .. | .ldfsCClrF1R3Imm9 ..
  | .ldfdCClrF1R3 .. | .ldfdCClrF1R3R2 .. | .ldfdCClrF1R3Imm9 .. | .ldfeCNcF1R3 .. | .ldfeCNcF1R3R2 ..
  | .ldfeCNcF1R3Imm9 .. | .ldf8CNcF1R3 .. | .ldf8CNcF1R3R2 .. | .ldf8CNcF1R3Imm9 .. | .ldfsCNcF1R3 ..
  | .ldfsCNcF1R3R2 .. | .ldfsCNcF1R3Imm9 .. | .ldfdCNcF1R3 .. | .ldfdCNcF1R3R2 .. | .ldfdCNcF1R3Imm9 ..
  | .ldfFillF1R3 .. | .ldfFillF1R3R2 .. | .ldfFillF1R3Imm9 .. | .ldfp8F1F2R3 .. | .ldfp8F1F2R316 ..
  | .ldfpsF1F2R3 .. | .ldfpsF1F2R38 .. | .ldfpdF1F2R3 .. | .ldfpdF1F2R316 .. | .ldfp8SF1F2R3 ..
  | .ldfp8SF1F2R316 .. | .ldfpsSF1F2R3 .. | .ldfpsSF1F2R38 .. | .ldfpdSF1F2R3 .. | .ldfpdSF1F2R316 ..
  | .ldfp8AF1F2R3 .. | .ldfp8AF1F2R316 .. | .ldfpsAF1F2R3 .. | .ldfpsAF1F2R38 .. | .ldfpdAF1F2R3 ..
  | .ldfpdAF1F2R316 .. | .ldfp8SaF1F2R3 .. | .ldfp8SaF1F2R316 .. | .ldfpsSaF1F2R3 .. | .ldfpsSaF1F2R38 ..
  | .ldfpdSaF1F2R3 .. | .ldfpdSaF1F2R316 .. | .ldfp8CClrF1F2R3 .. | .ldfp8CClrF1F2R316 .. | .ldfpsCClrF1F2R3 ..
  | .ldfpsCClrF1F2R38 .. | .ldfpdCClrF1F2R3 .. | .ldfpdCClrF1F2R316 .. | .ldfp8CNcF1F2R3 .. | .ldfp8CNcF1F2R316 ..
  | .ldfpsCNcF1F2R3 .. | .ldfpsCNcF1F2R38 .. | .ldfpdCNcF1F2R3 .. | .ldfpdCNcF1F2R316 .. => loadPorts
  | .st1R3R2 .. | .st1R3R2Imm9 .. | .st2R3R2 .. | .st2R3R2Imm9 .. | .st4R3R2 .. | .st4R3R2Imm9 .. | .st8R3R2 ..
  | .st8R3R2Imm9 .. | .st1RelR3R2 .. | .st1RelR3R2Imm9 .. | .st2RelR3R2 .. | .st2RelR3R2Imm9 .. | .st4RelR3R2 ..
  | .st4RelR3R2Imm9 .. | .st8RelR3R2 .. | .st8RelR3R2Imm9 .. | .st8SpillR3R2 .. | .st8SpillR3R2Imm9 ..
  | .st16R3R2ArCsd .. | .st16RelR3R2ArCsd .. | .stfeR3F2 .. | .stfeR3F2Imm9 .. | .stf8R3F2 .. | .stf8R3F2Imm9 ..
  | .stfsR3F2 .. | .stfsR3F2Imm9 .. | .stfdR3F2 .. | .stfdR3F2Imm9 .. | .stfSpillR3F2 .. | .stfSpillR3F2Imm9 ..
  | .cmpxchg1Acq .. | .cmpxchg1Rel .. | .xchg1 .. | .cmpxchg2Acq .. | .cmpxchg2Rel .. | .xchg2 .. | .cmpxchg4Acq ..
  | .cmpxchg4Rel .. | .xchg4 .. | .cmpxchg8Acq .. | .cmpxchg8Rel .. | .xchg8 .. | .cmp8xchg16Acq ..
  | .cmp8xchg16Rel .. | .fetchadd4Acq .. | .fetchadd8Acq .. | .fetchadd4Rel .. | .fetchadd8Rel .. => storePorts
  | .lfetchR3 .. | .lfetchR3R2 .. | .lfetchR3Imm9 .. | .lfetchExclR3 .. | .lfetchExclR3R2 .. | .lfetchExclR3Imm9 ..
  | .lfetchFaultR3 .. | .lfetchFaultR3R2 .. | .lfetchFaultR3Imm9 .. | .lfetchFaultExclR3 ..
  | .lfetchFaultExclR3R2 .. | .lfetchFaultExclR3Imm9 .. | .setfSig .. | .getfSig .. | .setfExp .. | .getfExp ..
  | .setfS .. | .getfS .. | .setfD .. | .getfD .. | .chkSMR2 .. | .chkSF2 .. | .chkANcR1 .. | .chkAClrR1 ..
  | .chkANcF1 .. | .chkAClrF1 .. | .breakM .. | .invala .. | .fwb .. | .srlzD .. | .nopM .. | .hintM .. | .srlzI ..
  | .invalaER1 .. | .mf .. | .invalaEF1 .. | .mfA .. | .syncI .. | .sum .. | .rum .. | .ssm .. | .rsm ..
  | .movMAr3Imm8 .. | .loadrs .. | .flushrs .. | .movRrR3R2 .. | .movR1RrR3 .. | .movDbrR3R2 .. | .movR1DbrR3 ..
  | .movIbrR3R2 .. | .movR1IbrR3 .. | .movPkrR3R2 .. | .movR1PkrR3 .. | .movPmcR3R2 .. | .movR1PmcR3 ..
  | .movPmdR3R2 .. | .movR1PmdR3 .. | .movR1CpuidR3 .. | .ptcLR3R2 .. | .ptcGR3R2 .. | .ptcGaR3R2 .. | .ptrDR3R2 ..
  | .ptrIR3R2 .. | .ptcER3 .. | .itrDDtrR3R2 .. | .itrIItrR3R2 .. | .itcDR2 .. | .itcIR2 .. | .probeRR1R3Imm2 ..
  | .probeWR1R3Imm2 .. | .probeRR1R3R2 .. | .probeWR1R3R2 .. | .probeRwFaultR3Imm2 .. | .probeRFaultR3Imm2 ..
  | .probeWFaultR3Imm2 .. | .thash .. | .ttag .. | .tpa .. | .tak .. | .movR1PsrUm .. | .movMR1Ar3 ..
  | .movR1Cr3 .. | .movR1Psr .. | .movPsrUmR2 .. | .movMAr3R2 .. | .movCr3R2 .. | .movPsrLR2 .. | .fcR3 ..
  | .fcIR3 .. | .allocR1ArPfsILOR .. => mPorts
  | .brCondTarget25 .. | .brWexitTarget25 .. | .brWtopTarget25 .. | .brCloopTarget25 .. | .brCexitTarget25 ..
  | .brCtopTarget25 .. | .brCallB1Target25 .. | .brCondB2 .. | .brIaB2 .. | .brRetB2 .. | .brCallB1B2 ..
  | .brpTarget25Tag13 .. | .brpB2Tag13 .. | .brpRetB2Tag13 .. | .cover .. | .clrrrb .. | .clrrrbPr .. | .rfi ..
  | .bsw0 .. | .bsw1 .. | .epc .. | .vmsw0 .. | .vmsw1 .. | .breakB .. | .nopB .. | .hintB .. => bPorts
  | .fma .. | .fmaS .. | .fmaD .. | .fpma .. | .fms .. | .fmsS .. | .fmsD .. | .fpms .. | .fnma .. | .fnmaS ..
  | .fnmaD .. | .fpnma .. | .xma .. | .fselect .. | .fcmp .. | .fclassM .. | .frcpa .. | .fprcpa .. | .frsqrta ..
  | .fprsqrta .. | .fmin .. | .fmax .. | .famin .. | .famax .. | .fpmin .. | .fpmax .. | .fpamin .. | .fpamax ..
  | .fpcmpFrelCode0 .. | .fpcmpFrelCode1 .. | .fpcmpFrelCode2 .. | .fpcmpFrelCode3 .. | .fpcmpFrelCode4 ..
  | .fpcmpFrelCode5 .. | .fpcmpFrelCode6 .. | .fpcmpFrelCode7 .. | .fmergeS .. | .fmergeNs .. | .fmergeSe ..
  | .fmixLr .. | .fmixR .. | .fmixL .. | .fsxtR .. | .fsxtL .. | .fpack .. | .fswap .. | .fswapNl .. | .fswapNr ..
  | .fand .. | .fandcm .. | .fOr .. | .fxor .. | .fpmergeS .. | .fpmergeNs .. | .fpmergeSe .. | .fcvtFx ..
  | .fpcvtFx .. | .fcvtFxu .. | .fpcvtFxu .. | .fcvtFxTrunc .. | .fpcvtFxTrunc .. | .fcvtFxuTrunc ..
  | .fpcvtFxuTrunc .. | .fcvtXf .. | .fsetc .. | .fclrf .. | .fchkf .. | .breakF .. | .nopF .. | .hintF .. => fPorts
  | .breakX .. | .nopX .. | .hintX .. | .movl .. | .brlCondTarget64 .. | .brlCallB1Target64 .. => longPorts

/-- 43 R691: the ports of which a long branch takes one beside its I port. -/
def secondPortsOf (i : Instr) : List Port :=
  match i with
  | .brlCondTarget64 .. | .brlCallB1Target64 .. => bPorts
  | _ => []

/-- The second port of an instruction, if it takes one. -/
def secondPort (i : Instr) : Option Port :=
  let l := secondPortsOf i
  l[secondPortPick i % max 1 l.length]?

/-- The port an instruction issues on: one of those its format allows. -/
def port (i : Instr) : Port := (portsOf i).getD (portPick i % (portsOf i).length) .m0

end Sys2Proof.Machine

end
end

