-- ==== Sys2Proof/Tests/Slice0.lean ====
section
/-!
SUPPORT. Tests: words that decode to the instructions they stand for, operands that are refused, single instructions on the
vectors of spec/95_test_vectors.md, a step, and states that meet the hypotheses of the statements.
-/

section

set_option Elab.async false
set_option linter.unusedSimpArgs false
set_option linter.unnecessarySeqFocus false

namespace Sys2Proof.Tests

open Sys2Proof Sys2Proof.Machine Sys2Proof.Config

/-! ## Every encoded constructor

A unit, a word, the L slot, and the instruction; the words are written from the encoding tables of 40 to 43. -/

/-- Whether a slot of a unit decodes to an instruction. -/
noncomputable def decodes (u : ExecUnit) (e : Slot × Slot × Instr) : Bool := decide (decodeSlot u e.1 e.2.1 = .ok e.2.2)

theorem test_decode_a0 : ([
  (0x1000101e385#41, 0x0#41, .add ⟨16#7, 15#7, 14#7, 5#6⟩),
  (0x1000901e385#41, 0x0#41, .addR1R2R31 ⟨16#7, 15#7, 14#7, 5#6⟩),
  (0x1002901e385#41, 0x0#41, .sub ⟨16#7, 15#7, 14#7, 5#6⟩),
  (0x1002101e385#41, 0x0#41, .subR1R2R31 ⟨16#7, 15#7, 14#7, 5#6⟩),
  (0x1004101e385#41, 0x0#41, .addp4 ⟨16#7, 15#7, 14#7, 5#6⟩),
  (0x1006101e385#41, 0x0#41, .and ⟨16#7, 15#7, 14#7, 5#6⟩),
  (0x1006901e385#41, 0x0#41, .andcm ⟨16#7, 15#7, 14#7, 5#6⟩),
  (0x1007101e385#41, 0x0#41, .or ⟨16#7, 15#7, 14#7, 5#6⟩),
  (0x1007901e385#41, 0x0#41, .xor ⟨16#7, 15#7, 14#7, 5#6⟩),
  (0x1009101e385#41, 0x0#41, .shladd ⟨2#2, 16#7, 15#7, 14#7, 5#6⟩),
  (0x100d101e385#41, 0x0#41, .shladdp4 ⟨2#2, 16#7, 15#7, 14#7, 5#6⟩),
  (0x101290b4385#41, 0x0#41, .subR1Imm8R3 ⟨90#8, 16#7, 14#7, 5#6⟩),
  (0x101610b4385#41, 0x0#41, .andR1Imm8R3 ⟨90#8, 16#7, 14#7, 5#6⟩),
  (0x101690b4385#41, 0x0#41, .andcmR1Imm8R3 ⟨90#8, 16#7, 14#7, 5#6⟩),
  (0x101710b4385#41, 0x0#41, .orR1Imm8R3 ⟨90#8, 16#7, 14#7, 5#6⟩),
  (0x101790b4385#41, 0x0#41, .xorR1Imm8R3 ⟨90#8, 16#7, 14#7, 5#6⟩),
  (0x10969072385#41, 0x0#41, .adds ⟨5817#14, 16#7, 14#7, 5#6⟩),
  (0x10d69072385#41, 0x0#41, .addp4R1Imm14R3 ⟨5817#14, 16#7, 14#7, 5#6⟩),
  (0x12b95a74385#41, 0x0#41, .addl ⟨1489210#22, 2#2, 14#7, 5#6⟩),
  (0x1803901e185#41, 0x0#41, .cmpLtP1P2R2R3 ⟨7#6, 16#7, 15#7, 6#6, 5#6⟩),
  (0x19039000185#41, 0x0#41, .cmpGtAndP1P2R0R3 ⟨7#6, 16#7, 6#6, 5#6⟩),
  (0x1843901e185#41, 0x0#41, .cmp4LtP1P2R2R3 ⟨7#6, 16#7, 15#7, 6#6, 5#6⟩),
  (0x19439000185#41, 0x0#41, .cmp4GtAndP1P2R0R3 ⟨7#6, 16#7, 6#6, 5#6⟩),
  (0x188390b4185#41, 0x0#41, .cmpLtP1P2Imm8R3 ⟨90#8, 7#6, 16#7, 6#6, 5#6⟩),
  (0x18c390b4185#41, 0x0#41, .cmp4LtP1P2Imm8R3 ⟨90#8, 7#6, 16#7, 6#6, 5#6⟩),
  (0x1803901f185#41, 0x0#41, .cmpLtUncP1P2R2R3 ⟨7#6, 16#7, 15#7, 6#6, 5#6⟩),
  (0x19039001185#41, 0x0#41, .cmpLeAndP1P2R0R3 ⟨7#6, 16#7, 6#6, 5#6⟩),
  (0x1843901f185#41, 0x0#41, .cmp4LtUncP1P2R2R3 ⟨7#6, 16#7, 15#7, 6#6, 5#6⟩),
  (0x19439001185#41, 0x0#41, .cmp4LeAndP1P2R0R3 ⟨7#6, 16#7, 6#6, 5#6⟩),
  (0x188390b5185#41, 0x0#41, .cmpLtUncP1P2Imm8R3 ⟨90#8, 7#6, 16#7, 6#6, 5#6⟩),
  (0x18c390b5185#41, 0x0#41, .cmp4LtUncP1P2Imm8R3 ⟨90#8, 7#6, 16#7, 6#6, 5#6⟩),
  (0x1823901e185#41, 0x0#41, .cmpEqAndP1P2R2R3 ⟨7#6, 16#7, 15#7, 6#6, 5#6⟩),
  (0x19239000185#41, 0x0#41, .cmpGeAndP1P2R0R3 ⟨7#6, 16#7, 6#6, 5#6⟩),
  (0x1863901e185#41, 0x0#41, .cmp4EqAndP1P2R2R3 ⟨7#6, 16#7, 15#7, 6#6, 5#6⟩),
  (0x19639000185#41, 0x0#41, .cmp4GeAndP1P2R0R3 ⟨7#6, 16#7, 6#6, 5#6⟩),
  (0x18a390b4185#41, 0x0#41, .cmpEqAndP1P2Imm8R3 ⟨90#8, 7#6, 16#7, 6#6, 5#6⟩),
  (0x18e390b4185#41, 0x0#41, .cmp4EqAndP1P2Imm8R3 ⟨90#8, 7#6, 16#7, 6#6, 5#6⟩),
  (0x1823901f185#41, 0x0#41, .cmpNeAndP1P2R2R3 ⟨7#6, 16#7, 15#7, 6#6, 5#6⟩),
  (0x19239001185#41, 0x0#41, .cmpLtAndP1P2R0R3 ⟨7#6, 16#7, 6#6, 5#6⟩),
  (0x1863901f185#41, 0x0#41, .cmp4NeAndP1P2R2R3 ⟨7#6, 16#7, 15#7, 6#6, 5#6⟩),
  (0x19639001185#41, 0x0#41, .cmp4LtAndP1P2R0R3 ⟨7#6, 16#7, 6#6, 5#6⟩),
  (0x18a390b5185#41, 0x0#41, .cmpNeAndP1P2Imm8R3 ⟨90#8, 7#6, 16#7, 6#6, 5#6⟩),
  (0x18e390b5185#41, 0x0#41, .cmp4NeAndP1P2Imm8R3 ⟨90#8, 7#6, 16#7, 6#6, 5#6⟩),
  (0x1a03901e185#41, 0x0#41, .cmpLtuP1P2R2R3 ⟨7#6, 16#7, 15#7, 6#6, 5#6⟩)] : List (Slot × Slot × Instr)).all
    (fun e => decodes .m e && decodes .i e) = true := by decide +kernel

theorem test_decode_a1 : ([
  (0x1b039000185#41, 0x0#41, .cmpGtOrP1P2R0R3 ⟨7#6, 16#7, 6#6, 5#6⟩),
  (0x1a43901e185#41, 0x0#41, .cmp4LtuP1P2R2R3 ⟨7#6, 16#7, 15#7, 6#6, 5#6⟩),
  (0x1b439000185#41, 0x0#41, .cmp4GtOrP1P2R0R3 ⟨7#6, 16#7, 6#6, 5#6⟩),
  (0x1a8390b4185#41, 0x0#41, .cmpLtuP1P2Imm8R3 ⟨90#8, 7#6, 16#7, 6#6, 5#6⟩),
  (0x1ac390b4185#41, 0x0#41, .cmp4LtuP1P2Imm8R3 ⟨90#8, 7#6, 16#7, 6#6, 5#6⟩),
  (0x1a03901f185#41, 0x0#41, .cmpLtuUncP1P2R2R3 ⟨7#6, 16#7, 15#7, 6#6, 5#6⟩),
  (0x1b039001185#41, 0x0#41, .cmpLeOrP1P2R0R3 ⟨7#6, 16#7, 6#6, 5#6⟩),
  (0x1a43901f185#41, 0x0#41, .cmp4LtuUncP1P2R2R3 ⟨7#6, 16#7, 15#7, 6#6, 5#6⟩),
  (0x1b439001185#41, 0x0#41, .cmp4LeOrP1P2R0R3 ⟨7#6, 16#7, 6#6, 5#6⟩),
  (0x1a8390b5185#41, 0x0#41, .cmpLtuUncP1P2Imm8R3 ⟨90#8, 7#6, 16#7, 6#6, 5#6⟩),
  (0x1ac390b5185#41, 0x0#41, .cmp4LtuUncP1P2Imm8R3 ⟨90#8, 7#6, 16#7, 6#6, 5#6⟩),
  (0x1a23901e185#41, 0x0#41, .cmpEqOrP1P2R2R3 ⟨7#6, 16#7, 15#7, 6#6, 5#6⟩),
  (0x1b239000185#41, 0x0#41, .cmpGeOrP1P2R0R3 ⟨7#6, 16#7, 6#6, 5#6⟩),
  (0x1a63901e185#41, 0x0#41, .cmp4EqOrP1P2R2R3 ⟨7#6, 16#7, 15#7, 6#6, 5#6⟩),
  (0x1b639000185#41, 0x0#41, .cmp4GeOrP1P2R0R3 ⟨7#6, 16#7, 6#6, 5#6⟩),
  (0x1aa390b4185#41, 0x0#41, .cmpEqOrP1P2Imm8R3 ⟨90#8, 7#6, 16#7, 6#6, 5#6⟩),
  (0x1ae390b4185#41, 0x0#41, .cmp4EqOrP1P2Imm8R3 ⟨90#8, 7#6, 16#7, 6#6, 5#6⟩),
  (0x1a23901f185#41, 0x0#41, .cmpNeOrP1P2R2R3 ⟨7#6, 16#7, 15#7, 6#6, 5#6⟩),
  (0x1b239001185#41, 0x0#41, .cmpLtOrP1P2R0R3 ⟨7#6, 16#7, 6#6, 5#6⟩),
  (0x1a63901f185#41, 0x0#41, .cmp4NeOrP1P2R2R3 ⟨7#6, 16#7, 15#7, 6#6, 5#6⟩),
  (0x1b639001185#41, 0x0#41, .cmp4LtOrP1P2R0R3 ⟨7#6, 16#7, 6#6, 5#6⟩),
  (0x1aa390b5185#41, 0x0#41, .cmpNeOrP1P2Imm8R3 ⟨90#8, 7#6, 16#7, 6#6, 5#6⟩),
  (0x1ae390b5185#41, 0x0#41, .cmp4NeOrP1P2Imm8R3 ⟨90#8, 7#6, 16#7, 6#6, 5#6⟩),
  (0x1c03901e185#41, 0x0#41, .cmpEqP1P2R2R3 ⟨7#6, 16#7, 15#7, 6#6, 5#6⟩),
  (0x1d039000185#41, 0x0#41, .cmpGtOrAndcmP1P2R0R3 ⟨7#6, 16#7, 6#6, 5#6⟩),
  (0x1c43901e185#41, 0x0#41, .cmp4EqP1P2R2R3 ⟨7#6, 16#7, 15#7, 6#6, 5#6⟩),
  (0x1d439000185#41, 0x0#41, .cmp4GtOrAndcmP1P2R0R3 ⟨7#6, 16#7, 6#6, 5#6⟩),
  (0x1c8390b4185#41, 0x0#41, .cmpEqP1P2Imm8R3 ⟨90#8, 7#6, 16#7, 6#6, 5#6⟩),
  (0x1cc390b4185#41, 0x0#41, .cmp4EqP1P2Imm8R3 ⟨90#8, 7#6, 16#7, 6#6, 5#6⟩),
  (0x1c03901f185#41, 0x0#41, .cmpEqUncP1P2R2R3 ⟨7#6, 16#7, 15#7, 6#6, 5#6⟩),
  (0x1d039001185#41, 0x0#41, .cmpLeOrAndcmP1P2R0R3 ⟨7#6, 16#7, 6#6, 5#6⟩),
  (0x1c43901f185#41, 0x0#41, .cmp4EqUncP1P2R2R3 ⟨7#6, 16#7, 15#7, 6#6, 5#6⟩),
  (0x1d439001185#41, 0x0#41, .cmp4LeOrAndcmP1P2R0R3 ⟨7#6, 16#7, 6#6, 5#6⟩),
  (0x1c8390b5185#41, 0x0#41, .cmpEqUncP1P2Imm8R3 ⟨90#8, 7#6, 16#7, 6#6, 5#6⟩),
  (0x1cc390b5185#41, 0x0#41, .cmp4EqUncP1P2Imm8R3 ⟨90#8, 7#6, 16#7, 6#6, 5#6⟩),
  (0x1c23901e185#41, 0x0#41, .cmpEqOrAndcmP1P2R2R3 ⟨7#6, 16#7, 15#7, 6#6, 5#6⟩),
  (0x1d239000185#41, 0x0#41, .cmpGeOrAndcmP1P2R0R3 ⟨7#6, 16#7, 6#6, 5#6⟩),
  (0x1c63901e185#41, 0x0#41, .cmp4EqOrAndcmP1P2R2R3 ⟨7#6, 16#7, 15#7, 6#6, 5#6⟩),
  (0x1d639000185#41, 0x0#41, .cmp4GeOrAndcmP1P2R0R3 ⟨7#6, 16#7, 6#6, 5#6⟩),
  (0x1ca390b4185#41, 0x0#41, .cmpEqOrAndcmP1P2Imm8R3 ⟨90#8, 7#6, 16#7, 6#6, 5#6⟩),
  (0x1ce390b4185#41, 0x0#41, .cmp4EqOrAndcmP1P2Imm8R3 ⟨90#8, 7#6, 16#7, 6#6, 5#6⟩),
  (0x1c23901f185#41, 0x0#41, .cmpNeOrAndcmP1P2R2R3 ⟨7#6, 16#7, 15#7, 6#6, 5#6⟩),
  (0x1d239001185#41, 0x0#41, .cmpLtOrAndcmP1P2R0R3 ⟨7#6, 16#7, 6#6, 5#6⟩),
  (0x1c63901f185#41, 0x0#41, .cmp4NeOrAndcmP1P2R2R3 ⟨7#6, 16#7, 15#7, 6#6, 5#6⟩)] : List (Slot × Slot × Instr)).all
    (fun e => decodes .m e && decodes .i e) = true := by decide +kernel

theorem test_decode_a2 : ([
  (0x1d639001185#41, 0x0#41, .cmp4LtOrAndcmP1P2R0R3 ⟨7#6, 16#7, 6#6, 5#6⟩),
  (0x1ca390b5185#41, 0x0#41, .cmpNeOrAndcmP1P2Imm8R3 ⟨90#8, 7#6, 16#7, 6#6, 5#6⟩),
  (0x1ce390b5185#41, 0x0#41, .cmp4NeOrAndcmP1P2Imm8R3 ⟨90#8, 7#6, 16#7, 6#6, 5#6⟩),
  (0x1040101e385#41, 0x0#41, .padd1 ⟨16#7, 15#7, 14#7, 5#6⟩),
  (0x1040901e385#41, 0x0#41, .padd1Sss ⟨16#7, 15#7, 14#7, 5#6⟩),
  (0x1041101e385#41, 0x0#41, .padd1Uuu ⟨16#7, 15#7, 14#7, 5#6⟩),
  (0x1041901e385#41, 0x0#41, .padd1Uus ⟨16#7, 15#7, 14#7, 5#6⟩),
  (0x1060101e385#41, 0x0#41, .padd2 ⟨16#7, 15#7, 14#7, 5#6⟩),
  (0x1060901e385#41, 0x0#41, .padd2Sss ⟨16#7, 15#7, 14#7, 5#6⟩),
  (0x1061101e385#41, 0x0#41, .padd2Uuu ⟨16#7, 15#7, 14#7, 5#6⟩),
  (0x1061901e385#41, 0x0#41, .padd2Uus ⟨16#7, 15#7, 14#7, 5#6⟩),
  (0x1140101e385#41, 0x0#41, .padd4 ⟨16#7, 15#7, 14#7, 5#6⟩),
  (0x1042101e385#41, 0x0#41, .psub1 ⟨16#7, 15#7, 14#7, 5#6⟩),
  (0x1042901e385#41, 0x0#41, .psub1Sss ⟨16#7, 15#7, 14#7, 5#6⟩),
  (0x1043101e385#41, 0x0#41, .psub1Uuu ⟨16#7, 15#7, 14#7, 5#6⟩),
  (0x1043901e385#41, 0x0#41, .psub1Uus ⟨16#7, 15#7, 14#7, 5#6⟩),
  (0x1062101e385#41, 0x0#41, .psub2 ⟨16#7, 15#7, 14#7, 5#6⟩),
  (0x1062901e385#41, 0x0#41, .psub2Sss ⟨16#7, 15#7, 14#7, 5#6⟩),
  (0x1063101e385#41, 0x0#41, .psub2Uuu ⟨16#7, 15#7, 14#7, 5#6⟩),
  (0x1063901e385#41, 0x0#41, .psub2Uus ⟨16#7, 15#7, 14#7, 5#6⟩),
  (0x1142101e385#41, 0x0#41, .psub4 ⟨16#7, 15#7, 14#7, 5#6⟩),
  (0x1045101e385#41, 0x0#41, .pavg1 ⟨16#7, 15#7, 14#7, 5#6⟩),
  (0x1045901e385#41, 0x0#41, .pavg1Raz ⟨16#7, 15#7, 14#7, 5#6⟩),
  (0x1047101e385#41, 0x0#41, .pavgsub1 ⟨16#7, 15#7, 14#7, 5#6⟩),
  (0x1065101e385#41, 0x0#41, .pavg2 ⟨16#7, 15#7, 14#7, 5#6⟩),
  (0x1065901e385#41, 0x0#41, .pavg2Raz ⟨16#7, 15#7, 14#7, 5#6⟩),
  (0x1067101e385#41, 0x0#41, .pavgsub2 ⟨16#7, 15#7, 14#7, 5#6⟩),
  (0x1052101e385#41, 0x0#41, .pcmp1Eq ⟨16#7, 15#7, 14#7, 5#6⟩),
  (0x1052901e385#41, 0x0#41, .pcmp1Gt ⟨16#7, 15#7, 14#7, 5#6⟩),
  (0x1072101e385#41, 0x0#41, .pcmp2Eq ⟨16#7, 15#7, 14#7, 5#6⟩),
  (0x1072901e385#41, 0x0#41, .pcmp2Gt ⟨16#7, 15#7, 14#7, 5#6⟩),
  (0x1152101e385#41, 0x0#41, .pcmp4Eq ⟨16#7, 15#7, 14#7, 5#6⟩),
  (0x1152901e385#41, 0x0#41, .pcmp4Gt ⟨16#7, 15#7, 14#7, 5#6⟩),
  (0x1069101e385#41, 0x0#41, .pshladd2 ⟨2#2, 16#7, 15#7, 14#7, 5#6⟩),
  (0x106d101e385#41, 0x0#41, .pshradd2 ⟨2#2, 16#7, 15#7, 14#7, 5#6⟩)] : List (Slot × Slot × Instr)).all
    (fun e => decodes .m e && decodes .i e) = true := by decide +kernel

theorem test_decode_i0 : ([
  (0x0f22101e385#41, 0x0#41, .shr ⟨16#7, 15#7, 14#7, 5#6⟩),
  (0x0f20101e385#41, 0x0#41, .shrU ⟨16#7, 15#7, 14#7, 5#6⟩),
  (0x0f24101e385#41, 0x0#41, .shl ⟨16#7, 15#7, 14#7, 5#6⟩),
  (0x0acb101e385#41, 0x0#41, .shrp ⟨22#6, 16#7, 15#7, 14#7, 5#6⟩),
  (0x0a4b105a385#41, 0x0#41, .extr ⟨22#6, 16#7, 22#6, 14#7, 5#6⟩),
  (0x0a4b1058385#41, 0x0#41, .extrU ⟨22#6, 16#7, 22#6, 14#7, 5#6⟩),
  (0x0a6b161e385#41, 0x0#41, .depZ ⟨22#6, 22#6, 15#7, 14#7, 5#6⟩),
  (0x0a6b56b4385#41, 0x0#41, .depZR1Imm8 ⟨90#8, 22#6, 22#6, 14#7, 5#6⟩),
  (0x0aeb1058385#41, 0x0#41, .depR1Imm1R3 ⟨0#1, 22#6, 16#7, 22#6, 14#7, 5#6⟩),
  (0x08b2901e385#41, 0x0#41, .dep ⟨22#6, 5#4, 16#7, 15#7, 14#7, 5#6⟩),
  (0x0a039058185#41, 0x0#41, .tbitZ ⟨7#6, 16#7, 22#6, 6#6, 5#6⟩),
  (0x0a039002185#41, 0x0#41, .tnatZ ⟨7#6, 16#7, 6#6, 5#6⟩),
  (0x0a039059185#41, 0x0#41, .tbitZUnc ⟨7#6, 16#7, 22#6, 6#6, 5#6⟩),
  (0x0a039003185#41, 0x0#41, .tnatZUnc ⟨7#6, 16#7, 6#6, 5#6⟩),
  (0x0b039058185#41, 0x0#41, .tbitZAnd ⟨7#6, 16#7, 22#6, 6#6, 5#6⟩),
  (0x0b039002185#41, 0x0#41, .tnatZAnd ⟨7#6, 16#7, 6#6, 5#6⟩),
  (0x0b039059185#41, 0x0#41, .tbitNzAnd ⟨7#6, 16#7, 22#6, 6#6, 5#6⟩),
  (0x0b039003185#41, 0x0#41, .tnatNzAnd ⟨7#6, 16#7, 6#6, 5#6⟩),
  (0x0a239058185#41, 0x0#41, .tbitZOr ⟨7#6, 16#7, 22#6, 6#6, 5#6⟩),
  (0x0a239002185#41, 0x0#41, .tnatZOr ⟨7#6, 16#7, 6#6, 5#6⟩),
  (0x0a239059185#41, 0x0#41, .tbitNzOr ⟨7#6, 16#7, 22#6, 6#6, 5#6⟩),
  (0x0a239003185#41, 0x0#41, .tnatNzOr ⟨7#6, 16#7, 6#6, 5#6⟩),
  (0x0b239058185#41, 0x0#41, .tbitZOrAndcm ⟨7#6, 16#7, 22#6, 6#6, 5#6⟩),
  (0x0b239002185#41, 0x0#41, .tnatZOrAndcm ⟨7#6, 16#7, 6#6, 5#6⟩),
  (0x0b239059185#41, 0x0#41, .tbitNzOrAndcm ⟨7#6, 16#7, 22#6, 6#6, 5#6⟩),
  (0x0b239003185#41, 0x0#41, .tnatNzOrAndcm ⟨7#6, 16#7, 6#6, 5#6⟩),
  (0x00002d72745#41, 0x0#41, .breakI ⟨744605#21, 5#6⟩),
  (0x0000ad72745#41, 0x0#41, .nopI ⟨744605#21, 5#6⟩),
  (0x0000ed72745#41, 0x0#41, .hintI ⟨744605#21, 5#6⟩),
  (0x0036b91e745#41, 0x0#41, .chkSI ⟨744605#21, 15#7, 5#6⟩),
  (0x00eb521e0c5#41, 0x0#41, .movB1R2 ⟨15#7, 3#3, 181#9, 0#1, 2#2, 5#6⟩),
  (0x0018800a385#41, 0x0#41, .movR1B2 ⟨5#3, 14#7, 5#6⟩),
  (0x006b501f905#41, 0x0#41, .movPrR2Mask17 ⟨23268#16, 15#7, 5#6⟩),
  (0x0056b93a745#41, 0x0#41, .movPrRotImm44 ⟨95309469#28, 5#6⟩),
  (0x00180000385#41, 0x0#41, .movR1Ip ⟨14#7, 5#6⟩),
  (0x00198000385#41, 0x0#41, .movR1Pr ⟨14#7, 5#6⟩),
  (0x0015421e005#41, 0x0#41, .movIAr3R2 ⟨66#7, 15#7, 5#6⟩),
  (0x000542b4005#41, 0x0#41, .movIAr3Imm8 ⟨66#7, 90#8, 5#6⟩),
  (0x00194200385#41, 0x0#41, .movIR1Ar3 ⟨66#7, 14#7, 5#6⟩),
  (0x00081000385#41, 0x0#41, .zxt1 ⟨16#7, 14#7, 5#6⟩),
  (0x00089000385#41, 0x0#41, .zxt2 ⟨16#7, 14#7, 5#6⟩),
  (0x00091000385#41, 0x0#41, .zxt4 ⟨16#7, 14#7, 5#6⟩),
  (0x000a1000385#41, 0x0#41, .sxt1 ⟨16#7, 14#7, 5#6⟩),
  (0x000a9000385#41, 0x0#41, .sxt2 ⟨16#7, 14#7, 5#6⟩)] : List (Slot × Slot × Instr)).all
    (decodes .i) = true := by decide +kernel

theorem test_decode_i1 : ([
  (0x000b1000385#41, 0x0#41, .sxt4 ⟨16#7, 14#7, 5#6⟩),
  (0x000c1000385#41, 0x0#41, .czx1L ⟨16#7, 14#7, 5#6⟩),
  (0x000c9000385#41, 0x0#41, .czx2L ⟨16#7, 14#7, 5#6⟩),
  (0x000e1000385#41, 0x0#41, .czx1R ⟨16#7, 14#7, 5#6⟩),
  (0x000e9000385#41, 0x0#41, .czx2R ⟨16#7, 14#7, 5#6⟩)] : List (Slot × Slot × Instr)).all
    (decodes .i) = true := by decide +kernel

theorem test_decode_m0 : ([
  (0x08021000385#41, 0x0#41, .ld1R1R3 ⟨2#2, 16#7, 14#7, 5#6⟩),
  (0x0902101e385#41, 0x0#41, .ld1R1R3R2 ⟨2#2, 16#7, 15#7, 14#7, 5#6⟩),
  (0x0a02906a385#41, 0x0#41, .ld1R1R3Imm9 ⟨2#2, 181#9, 16#7, 14#7, 5#6⟩),
  (0x08061000385#41, 0x0#41, .ld2R1R3 ⟨2#2, 16#7, 14#7, 5#6⟩),
  (0x0906101e385#41, 0x0#41, .ld2R1R3R2 ⟨2#2, 16#7, 15#7, 14#7, 5#6⟩),
  (0x0a06906a385#41, 0x0#41, .ld2R1R3Imm9 ⟨2#2, 181#9, 16#7, 14#7, 5#6⟩),
  (0x080a1000385#41, 0x0#41, .ld4R1R3 ⟨2#2, 16#7, 14#7, 5#6⟩),
  (0x090a101e385#41, 0x0#41, .ld4R1R3R2 ⟨2#2, 16#7, 15#7, 14#7, 5#6⟩),
  (0x0a0a906a385#41, 0x0#41, .ld4R1R3Imm9 ⟨2#2, 181#9, 16#7, 14#7, 5#6⟩),
  (0x080e1000385#41, 0x0#41, .ld8R1R3 ⟨2#2, 16#7, 14#7, 5#6⟩),
  (0x090e101e385#41, 0x0#41, .ld8R1R3R2 ⟨2#2, 16#7, 15#7, 14#7, 5#6⟩),
  (0x0a0e906a385#41, 0x0#41, .ld8R1R3Imm9 ⟨2#2, 181#9, 16#7, 14#7, 5#6⟩),
  (0x08121000385#41, 0x0#41, .ld1SR1R3 ⟨2#2, 16#7, 14#7, 5#6⟩),
  (0x0912101e385#41, 0x0#41, .ld1SR1R3R2 ⟨2#2, 16#7, 15#7, 14#7, 5#6⟩),
  (0x0a12906a385#41, 0x0#41, .ld1SR1R3Imm9 ⟨2#2, 181#9, 16#7, 14#7, 5#6⟩),
  (0x08161000385#41, 0x0#41, .ld2SR1R3 ⟨2#2, 16#7, 14#7, 5#6⟩),
  (0x0916101e385#41, 0x0#41, .ld2SR1R3R2 ⟨2#2, 16#7, 15#7, 14#7, 5#6⟩),
  (0x0a16906a385#41, 0x0#41, .ld2SR1R3Imm9 ⟨2#2, 181#9, 16#7, 14#7, 5#6⟩),
  (0x081a1000385#41, 0x0#41, .ld4SR1R3 ⟨2#2, 16#7, 14#7, 5#6⟩),
  (0x091a101e385#41, 0x0#41, .ld4SR1R3R2 ⟨2#2, 16#7, 15#7, 14#7, 5#6⟩),
  (0x0a1a906a385#41, 0x0#41, .ld4SR1R3Imm9 ⟨2#2, 181#9, 16#7, 14#7, 5#6⟩),
  (0x081e1000385#41, 0x0#41, .ld8SR1R3 ⟨2#2, 16#7, 14#7, 5#6⟩),
  (0x091e101e385#41, 0x0#41, .ld8SR1R3R2 ⟨2#2, 16#7, 15#7, 14#7, 5#6⟩),
  (0x0a1e906a385#41, 0x0#41, .ld8SR1R3Imm9 ⟨2#2, 181#9, 16#7, 14#7, 5#6⟩),
  (0x08221000385#41, 0x0#41, .ld1AR1R3 ⟨2#2, 16#7, 14#7, 5#6⟩),
  (0x0922101e385#41, 0x0#41, .ld1AR1R3R2 ⟨2#2, 16#7, 15#7, 14#7, 5#6⟩),
  (0x0a22906a385#41, 0x0#41, .ld1AR1R3Imm9 ⟨2#2, 181#9, 16#7, 14#7, 5#6⟩),
  (0x08261000385#41, 0x0#41, .ld2AR1R3 ⟨2#2, 16#7, 14#7, 5#6⟩),
  (0x0926101e385#41, 0x0#41, .ld2AR1R3R2 ⟨2#2, 16#7, 15#7, 14#7, 5#6⟩),
  (0x0a26906a385#41, 0x0#41, .ld2AR1R3Imm9 ⟨2#2, 181#9, 16#7, 14#7, 5#6⟩),
  (0x082a1000385#41, 0x0#41, .ld4AR1R3 ⟨2#2, 16#7, 14#7, 5#6⟩),
  (0x092a101e385#41, 0x0#41, .ld4AR1R3R2 ⟨2#2, 16#7, 15#7, 14#7, 5#6⟩),
  (0x0a2a906a385#41, 0x0#41, .ld4AR1R3Imm9 ⟨2#2, 181#9, 16#7, 14#7, 5#6⟩),
  (0x082e1000385#41, 0x0#41, .ld8AR1R3 ⟨2#2, 16#7, 14#7, 5#6⟩),
  (0x092e101e385#41, 0x0#41, .ld8AR1R3R2 ⟨2#2, 16#7, 15#7, 14#7, 5#6⟩),
  (0x0a2e906a385#41, 0x0#41, .ld8AR1R3Imm9 ⟨2#2, 181#9, 16#7, 14#7, 5#6⟩),
  (0x08321000385#41, 0x0#41, .ld1SaR1R3 ⟨2#2, 16#7, 14#7, 5#6⟩),
  (0x0932101e385#41, 0x0#41, .ld1SaR1R3R2 ⟨2#2, 16#7, 15#7, 14#7, 5#6⟩),
  (0x0a32906a385#41, 0x0#41, .ld1SaR1R3Imm9 ⟨2#2, 181#9, 16#7, 14#7, 5#6⟩),
  (0x08361000385#41, 0x0#41, .ld2SaR1R3 ⟨2#2, 16#7, 14#7, 5#6⟩),
  (0x0936101e385#41, 0x0#41, .ld2SaR1R3R2 ⟨2#2, 16#7, 15#7, 14#7, 5#6⟩),
  (0x0a36906a385#41, 0x0#41, .ld2SaR1R3Imm9 ⟨2#2, 181#9, 16#7, 14#7, 5#6⟩),
  (0x083a1000385#41, 0x0#41, .ld4SaR1R3 ⟨2#2, 16#7, 14#7, 5#6⟩),
  (0x093a101e385#41, 0x0#41, .ld4SaR1R3R2 ⟨2#2, 16#7, 15#7, 14#7, 5#6⟩)] : List (Slot × Slot × Instr)).all
    (decodes .m) = true := by decide +kernel

theorem test_decode_m1 : ([
  (0x0a3a906a385#41, 0x0#41, .ld4SaR1R3Imm9 ⟨2#2, 181#9, 16#7, 14#7, 5#6⟩),
  (0x083e1000385#41, 0x0#41, .ld8SaR1R3 ⟨2#2, 16#7, 14#7, 5#6⟩),
  (0x093e101e385#41, 0x0#41, .ld8SaR1R3R2 ⟨2#2, 16#7, 15#7, 14#7, 5#6⟩),
  (0x0a3e906a385#41, 0x0#41, .ld8SaR1R3Imm9 ⟨2#2, 181#9, 16#7, 14#7, 5#6⟩),
  (0x08421000385#41, 0x0#41, .ld1BiasR1R3 ⟨2#2, 16#7, 14#7, 5#6⟩),
  (0x0942101e385#41, 0x0#41, .ld1BiasR1R3R2 ⟨2#2, 16#7, 15#7, 14#7, 5#6⟩),
  (0x0a42906a385#41, 0x0#41, .ld1BiasR1R3Imm9 ⟨2#2, 181#9, 16#7, 14#7, 5#6⟩),
  (0x08461000385#41, 0x0#41, .ld2BiasR1R3 ⟨2#2, 16#7, 14#7, 5#6⟩),
  (0x0946101e385#41, 0x0#41, .ld2BiasR1R3R2 ⟨2#2, 16#7, 15#7, 14#7, 5#6⟩),
  (0x0a46906a385#41, 0x0#41, .ld2BiasR1R3Imm9 ⟨2#2, 181#9, 16#7, 14#7, 5#6⟩),
  (0x084a1000385#41, 0x0#41, .ld4BiasR1R3 ⟨2#2, 16#7, 14#7, 5#6⟩),
  (0x094a101e385#41, 0x0#41, .ld4BiasR1R3R2 ⟨2#2, 16#7, 15#7, 14#7, 5#6⟩),
  (0x0a4a906a385#41, 0x0#41, .ld4BiasR1R3Imm9 ⟨2#2, 181#9, 16#7, 14#7, 5#6⟩),
  (0x084e1000385#41, 0x0#41, .ld8BiasR1R3 ⟨2#2, 16#7, 14#7, 5#6⟩),
  (0x094e101e385#41, 0x0#41, .ld8BiasR1R3R2 ⟨2#2, 16#7, 15#7, 14#7, 5#6⟩),
  (0x0a4e906a385#41, 0x0#41, .ld8BiasR1R3Imm9 ⟨2#2, 181#9, 16#7, 14#7, 5#6⟩),
  (0x08521000385#41, 0x0#41, .ld1AcqR1R3 ⟨2#2, 16#7, 14#7, 5#6⟩),
  (0x0952101e385#41, 0x0#41, .ld1AcqR1R3R2 ⟨2#2, 16#7, 15#7, 14#7, 5#6⟩),
  (0x0a52906a385#41, 0x0#41, .ld1AcqR1R3Imm9 ⟨2#2, 181#9, 16#7, 14#7, 5#6⟩),
  (0x08561000385#41, 0x0#41, .ld2AcqR1R3 ⟨2#2, 16#7, 14#7, 5#6⟩),
  (0x0956101e385#41, 0x0#41, .ld2AcqR1R3R2 ⟨2#2, 16#7, 15#7, 14#7, 5#6⟩),
  (0x0a56906a385#41, 0x0#41, .ld2AcqR1R3Imm9 ⟨2#2, 181#9, 16#7, 14#7, 5#6⟩),
  (0x085a1000385#41, 0x0#41, .ld4AcqR1R3 ⟨2#2, 16#7, 14#7, 5#6⟩),
  (0x095a101e385#41, 0x0#41, .ld4AcqR1R3R2 ⟨2#2, 16#7, 15#7, 14#7, 5#6⟩),
  (0x0a5a906a385#41, 0x0#41, .ld4AcqR1R3Imm9 ⟨2#2, 181#9, 16#7, 14#7, 5#6⟩),
  (0x085e1000385#41, 0x0#41, .ld8AcqR1R3 ⟨2#2, 16#7, 14#7, 5#6⟩),
  (0x095e101e385#41, 0x0#41, .ld8AcqR1R3R2 ⟨2#2, 16#7, 15#7, 14#7, 5#6⟩),
  (0x0a5e906a385#41, 0x0#41, .ld8AcqR1R3Imm9 ⟨2#2, 181#9, 16#7, 14#7, 5#6⟩),
  (0x08821000385#41, 0x0#41, .ld1CClrR1R3 ⟨2#2, 16#7, 14#7, 5#6⟩),
  (0x0982101e385#41, 0x0#41, .ld1CClrR1R3R2 ⟨2#2, 16#7, 15#7, 14#7, 5#6⟩),
  (0x0a82906a385#41, 0x0#41, .ld1CClrR1R3Imm9 ⟨2#2, 181#9, 16#7, 14#7, 5#6⟩),
  (0x08861000385#41, 0x0#41, .ld2CClrR1R3 ⟨2#2, 16#7, 14#7, 5#6⟩),
  (0x0986101e385#41, 0x0#41, .ld2CClrR1R3R2 ⟨2#2, 16#7, 15#7, 14#7, 5#6⟩),
  (0x0a86906a385#41, 0x0#41, .ld2CClrR1R3Imm9 ⟨2#2, 181#9, 16#7, 14#7, 5#6⟩),
  (0x088a1000385#41, 0x0#41, .ld4CClrR1R3 ⟨2#2, 16#7, 14#7, 5#6⟩),
  (0x098a101e385#41, 0x0#41, .ld4CClrR1R3R2 ⟨2#2, 16#7, 15#7, 14#7, 5#6⟩),
  (0x0a8a906a385#41, 0x0#41, .ld4CClrR1R3Imm9 ⟨2#2, 181#9, 16#7, 14#7, 5#6⟩),
  (0x088e1000385#41, 0x0#41, .ld8CClrR1R3 ⟨2#2, 16#7, 14#7, 5#6⟩),
  (0x098e101e385#41, 0x0#41, .ld8CClrR1R3R2 ⟨2#2, 16#7, 15#7, 14#7, 5#6⟩),
  (0x0a8e906a385#41, 0x0#41, .ld8CClrR1R3Imm9 ⟨2#2, 181#9, 16#7, 14#7, 5#6⟩),
  (0x08921000385#41, 0x0#41, .ld1CNcR1R3 ⟨2#2, 16#7, 14#7, 5#6⟩),
  (0x0992101e385#41, 0x0#41, .ld1CNcR1R3R2 ⟨2#2, 16#7, 15#7, 14#7, 5#6⟩),
  (0x0a92906a385#41, 0x0#41, .ld1CNcR1R3Imm9 ⟨2#2, 181#9, 16#7, 14#7, 5#6⟩),
  (0x08961000385#41, 0x0#41, .ld2CNcR1R3 ⟨2#2, 16#7, 14#7, 5#6⟩)] : List (Slot × Slot × Instr)).all
    (decodes .m) = true := by decide +kernel

theorem test_decode_m2 : ([
  (0x0996101e385#41, 0x0#41, .ld2CNcR1R3R2 ⟨2#2, 16#7, 15#7, 14#7, 5#6⟩),
  (0x0a96906a385#41, 0x0#41, .ld2CNcR1R3Imm9 ⟨2#2, 181#9, 16#7, 14#7, 5#6⟩),
  (0x089a1000385#41, 0x0#41, .ld4CNcR1R3 ⟨2#2, 16#7, 14#7, 5#6⟩),
  (0x099a101e385#41, 0x0#41, .ld4CNcR1R3R2 ⟨2#2, 16#7, 15#7, 14#7, 5#6⟩),
  (0x0a9a906a385#41, 0x0#41, .ld4CNcR1R3Imm9 ⟨2#2, 181#9, 16#7, 14#7, 5#6⟩),
  (0x089e1000385#41, 0x0#41, .ld8CNcR1R3 ⟨2#2, 16#7, 14#7, 5#6⟩),
  (0x099e101e385#41, 0x0#41, .ld8CNcR1R3R2 ⟨2#2, 16#7, 15#7, 14#7, 5#6⟩),
  (0x0a9e906a385#41, 0x0#41, .ld8CNcR1R3Imm9 ⟨2#2, 181#9, 16#7, 14#7, 5#6⟩),
  (0x08a21000385#41, 0x0#41, .ld1CClrAcqR1R3 ⟨2#2, 16#7, 14#7, 5#6⟩),
  (0x09a2101e385#41, 0x0#41, .ld1CClrAcqR1R3R2 ⟨2#2, 16#7, 15#7, 14#7, 5#6⟩),
  (0x0aa2906a385#41, 0x0#41, .ld1CClrAcqR1R3Imm9 ⟨2#2, 181#9, 16#7, 14#7, 5#6⟩),
  (0x08a61000385#41, 0x0#41, .ld2CClrAcqR1R3 ⟨2#2, 16#7, 14#7, 5#6⟩),
  (0x09a6101e385#41, 0x0#41, .ld2CClrAcqR1R3R2 ⟨2#2, 16#7, 15#7, 14#7, 5#6⟩),
  (0x0aa6906a385#41, 0x0#41, .ld2CClrAcqR1R3Imm9 ⟨2#2, 181#9, 16#7, 14#7, 5#6⟩),
  (0x08aa1000385#41, 0x0#41, .ld4CClrAcqR1R3 ⟨2#2, 16#7, 14#7, 5#6⟩),
  (0x09aa101e385#41, 0x0#41, .ld4CClrAcqR1R3R2 ⟨2#2, 16#7, 15#7, 14#7, 5#6⟩),
  (0x0aaa906a385#41, 0x0#41, .ld4CClrAcqR1R3Imm9 ⟨2#2, 181#9, 16#7, 14#7, 5#6⟩),
  (0x08ae1000385#41, 0x0#41, .ld8CClrAcqR1R3 ⟨2#2, 16#7, 14#7, 5#6⟩),
  (0x09ae101e385#41, 0x0#41, .ld8CClrAcqR1R3R2 ⟨2#2, 16#7, 15#7, 14#7, 5#6⟩),
  (0x0aae906a385#41, 0x0#41, .ld8CClrAcqR1R3Imm9 ⟨2#2, 181#9, 16#7, 14#7, 5#6⟩),
  (0x086e1000385#41, 0x0#41, .ld8FillR1R3 ⟨2#2, 16#7, 14#7, 5#6⟩),
  (0x096e101e385#41, 0x0#41, .ld8FillR1R3R2 ⟨2#2, 16#7, 15#7, 14#7, 5#6⟩),
  (0x0a6e906a385#41, 0x0#41, .ld8FillR1R3Imm9 ⟨2#2, 181#9, 16#7, 14#7, 5#6⟩),
  (0x08a29000385#41, 0x0#41, .ld16R1ArCsdR3 ⟨2#2, 16#7, 14#7, 5#6⟩),
  (0x08b29000385#41, 0x0#41, .ld16AcqR1ArCsdR3 ⟨2#2, 16#7, 14#7, 5#6⟩),
  (0x08c2101e005#41, 0x0#41, .st1R3R2 ⟨2#2, 16#7, 15#7, 5#6⟩),
  (0x0ac2901ed45#41, 0x0#41, .st1R3R2Imm9 ⟨2#2, 181#9, 16#7, 15#7, 5#6⟩),
  (0x08c6101e005#41, 0x0#41, .st2R3R2 ⟨2#2, 16#7, 15#7, 5#6⟩),
  (0x0ac6901ed45#41, 0x0#41, .st2R3R2Imm9 ⟨2#2, 181#9, 16#7, 15#7, 5#6⟩),
  (0x08ca101e005#41, 0x0#41, .st4R3R2 ⟨2#2, 16#7, 15#7, 5#6⟩),
  (0x0aca901ed45#41, 0x0#41, .st4R3R2Imm9 ⟨2#2, 181#9, 16#7, 15#7, 5#6⟩),
  (0x08ce101e005#41, 0x0#41, .st8R3R2 ⟨2#2, 16#7, 15#7, 5#6⟩),
  (0x0ace901ed45#41, 0x0#41, .st8R3R2Imm9 ⟨2#2, 181#9, 16#7, 15#7, 5#6⟩),
  (0x08d2101e005#41, 0x0#41, .st1RelR3R2 ⟨2#2, 16#7, 15#7, 5#6⟩),
  (0x0ad2901ed45#41, 0x0#41, .st1RelR3R2Imm9 ⟨2#2, 181#9, 16#7, 15#7, 5#6⟩),
  (0x08d6101e005#41, 0x0#41, .st2RelR3R2 ⟨2#2, 16#7, 15#7, 5#6⟩),
  (0x0ad6901ed45#41, 0x0#41, .st2RelR3R2Imm9 ⟨2#2, 181#9, 16#7, 15#7, 5#6⟩),
  (0x08da101e005#41, 0x0#41, .st4RelR3R2 ⟨2#2, 16#7, 15#7, 5#6⟩),
  (0x0ada901ed45#41, 0x0#41, .st4RelR3R2Imm9 ⟨2#2, 181#9, 16#7, 15#7, 5#6⟩),
  (0x08de101e005#41, 0x0#41, .st8RelR3R2 ⟨2#2, 16#7, 15#7, 5#6⟩),
  (0x0ade901ed45#41, 0x0#41, .st8RelR3R2Imm9 ⟨2#2, 181#9, 16#7, 15#7, 5#6⟩),
  (0x08ee101e005#41, 0x0#41, .st8SpillR3R2 ⟨2#2, 16#7, 15#7, 5#6⟩),
  (0x0aee901ed45#41, 0x0#41, .st8SpillR3R2Imm9 ⟨2#2, 181#9, 16#7, 15#7, 5#6⟩),
  (0x08c2901e005#41, 0x0#41, .st16R3R2ArCsd ⟨2#2, 16#7, 15#7, 5#6⟩)] : List (Slot × Slot × Instr)).all
    (decodes .m) = true := by decide +kernel

theorem test_decode_m3 : ([
  (0x08d2901e005#41, 0x0#41, .st16RelR3R2ArCsd ⟨2#2, 16#7, 15#7, 5#6⟩),
  (0x0c021001185#41, 0x0#41, .ldfeF1R3 ⟨2#2, 16#7, 70#7, 5#6⟩),
  (0x0d02101f185#41, 0x0#41, .ldfeF1R3R2 ⟨2#2, 16#7, 15#7, 70#7, 5#6⟩),
  (0x0e02906b185#41, 0x0#41, .ldfeF1R3Imm9 ⟨2#2, 181#9, 16#7, 70#7, 5#6⟩),
  (0x0c061001185#41, 0x0#41, .ldf8F1R3 ⟨2#2, 16#7, 70#7, 5#6⟩),
  (0x0d06101f185#41, 0x0#41, .ldf8F1R3R2 ⟨2#2, 16#7, 15#7, 70#7, 5#6⟩),
  (0x0e06906b185#41, 0x0#41, .ldf8F1R3Imm9 ⟨2#2, 181#9, 16#7, 70#7, 5#6⟩),
  (0x0c0a1001185#41, 0x0#41, .ldfsF1R3 ⟨2#2, 16#7, 70#7, 5#6⟩),
  (0x0d0a101f185#41, 0x0#41, .ldfsF1R3R2 ⟨2#2, 16#7, 15#7, 70#7, 5#6⟩),
  (0x0e0a906b185#41, 0x0#41, .ldfsF1R3Imm9 ⟨2#2, 181#9, 16#7, 70#7, 5#6⟩),
  (0x0c0e1001185#41, 0x0#41, .ldfdF1R3 ⟨2#2, 16#7, 70#7, 5#6⟩),
  (0x0d0e101f185#41, 0x0#41, .ldfdF1R3R2 ⟨2#2, 16#7, 15#7, 70#7, 5#6⟩),
  (0x0e0e906b185#41, 0x0#41, .ldfdF1R3Imm9 ⟨2#2, 181#9, 16#7, 70#7, 5#6⟩),
  (0x0c121001185#41, 0x0#41, .ldfeSF1R3 ⟨2#2, 16#7, 70#7, 5#6⟩),
  (0x0d12101f185#41, 0x0#41, .ldfeSF1R3R2 ⟨2#2, 16#7, 15#7, 70#7, 5#6⟩),
  (0x0e12906b185#41, 0x0#41, .ldfeSF1R3Imm9 ⟨2#2, 181#9, 16#7, 70#7, 5#6⟩),
  (0x0c161001185#41, 0x0#41, .ldf8SF1R3 ⟨2#2, 16#7, 70#7, 5#6⟩),
  (0x0d16101f185#41, 0x0#41, .ldf8SF1R3R2 ⟨2#2, 16#7, 15#7, 70#7, 5#6⟩),
  (0x0e16906b185#41, 0x0#41, .ldf8SF1R3Imm9 ⟨2#2, 181#9, 16#7, 70#7, 5#6⟩),
  (0x0c1a1001185#41, 0x0#41, .ldfsSF1R3 ⟨2#2, 16#7, 70#7, 5#6⟩),
  (0x0d1a101f185#41, 0x0#41, .ldfsSF1R3R2 ⟨2#2, 16#7, 15#7, 70#7, 5#6⟩),
  (0x0e1a906b185#41, 0x0#41, .ldfsSF1R3Imm9 ⟨2#2, 181#9, 16#7, 70#7, 5#6⟩),
  (0x0c1e1001185#41, 0x0#41, .ldfdSF1R3 ⟨2#2, 16#7, 70#7, 5#6⟩),
  (0x0d1e101f185#41, 0x0#41, .ldfdSF1R3R2 ⟨2#2, 16#7, 15#7, 70#7, 5#6⟩),
  (0x0e1e906b185#41, 0x0#41, .ldfdSF1R3Imm9 ⟨2#2, 181#9, 16#7, 70#7, 5#6⟩),
  (0x0c221001185#41, 0x0#41, .ldfeAF1R3 ⟨2#2, 16#7, 70#7, 5#6⟩),
  (0x0d22101f185#41, 0x0#41, .ldfeAF1R3R2 ⟨2#2, 16#7, 15#7, 70#7, 5#6⟩),
  (0x0e22906b185#41, 0x0#41, .ldfeAF1R3Imm9 ⟨2#2, 181#9, 16#7, 70#7, 5#6⟩),
  (0x0c261001185#41, 0x0#41, .ldf8AF1R3 ⟨2#2, 16#7, 70#7, 5#6⟩),
  (0x0d26101f185#41, 0x0#41, .ldf8AF1R3R2 ⟨2#2, 16#7, 15#7, 70#7, 5#6⟩),
  (0x0e26906b185#41, 0x0#41, .ldf8AF1R3Imm9 ⟨2#2, 181#9, 16#7, 70#7, 5#6⟩),
  (0x0c2a1001185#41, 0x0#41, .ldfsAF1R3 ⟨2#2, 16#7, 70#7, 5#6⟩),
  (0x0d2a101f185#41, 0x0#41, .ldfsAF1R3R2 ⟨2#2, 16#7, 15#7, 70#7, 5#6⟩),
  (0x0e2a906b185#41, 0x0#41, .ldfsAF1R3Imm9 ⟨2#2, 181#9, 16#7, 70#7, 5#6⟩),
  (0x0c2e1001185#41, 0x0#41, .ldfdAF1R3 ⟨2#2, 16#7, 70#7, 5#6⟩),
  (0x0d2e101f185#41, 0x0#41, .ldfdAF1R3R2 ⟨2#2, 16#7, 15#7, 70#7, 5#6⟩),
  (0x0e2e906b185#41, 0x0#41, .ldfdAF1R3Imm9 ⟨2#2, 181#9, 16#7, 70#7, 5#6⟩),
  (0x0c321001185#41, 0x0#41, .ldfeSaF1R3 ⟨2#2, 16#7, 70#7, 5#6⟩),
  (0x0d32101f185#41, 0x0#41, .ldfeSaF1R3R2 ⟨2#2, 16#7, 15#7, 70#7, 5#6⟩),
  (0x0e32906b185#41, 0x0#41, .ldfeSaF1R3Imm9 ⟨2#2, 181#9, 16#7, 70#7, 5#6⟩),
  (0x0c361001185#41, 0x0#41, .ldf8SaF1R3 ⟨2#2, 16#7, 70#7, 5#6⟩),
  (0x0d36101f185#41, 0x0#41, .ldf8SaF1R3R2 ⟨2#2, 16#7, 15#7, 70#7, 5#6⟩),
  (0x0e36906b185#41, 0x0#41, .ldf8SaF1R3Imm9 ⟨2#2, 181#9, 16#7, 70#7, 5#6⟩),
  (0x0c3a1001185#41, 0x0#41, .ldfsSaF1R3 ⟨2#2, 16#7, 70#7, 5#6⟩)] : List (Slot × Slot × Instr)).all
    (decodes .m) = true := by decide +kernel

theorem test_decode_m4 : ([
  (0x0d3a101f185#41, 0x0#41, .ldfsSaF1R3R2 ⟨2#2, 16#7, 15#7, 70#7, 5#6⟩),
  (0x0e3a906b185#41, 0x0#41, .ldfsSaF1R3Imm9 ⟨2#2, 181#9, 16#7, 70#7, 5#6⟩),
  (0x0c3e1001185#41, 0x0#41, .ldfdSaF1R3 ⟨2#2, 16#7, 70#7, 5#6⟩),
  (0x0d3e101f185#41, 0x0#41, .ldfdSaF1R3R2 ⟨2#2, 16#7, 15#7, 70#7, 5#6⟩),
  (0x0e3e906b185#41, 0x0#41, .ldfdSaF1R3Imm9 ⟨2#2, 181#9, 16#7, 70#7, 5#6⟩),
  (0x0c821001185#41, 0x0#41, .ldfeCClrF1R3 ⟨2#2, 16#7, 70#7, 5#6⟩),
  (0x0d82101f185#41, 0x0#41, .ldfeCClrF1R3R2 ⟨2#2, 16#7, 15#7, 70#7, 5#6⟩),
  (0x0e82906b185#41, 0x0#41, .ldfeCClrF1R3Imm9 ⟨2#2, 181#9, 16#7, 70#7, 5#6⟩),
  (0x0c861001185#41, 0x0#41, .ldf8CClrF1R3 ⟨2#2, 16#7, 70#7, 5#6⟩),
  (0x0d86101f185#41, 0x0#41, .ldf8CClrF1R3R2 ⟨2#2, 16#7, 15#7, 70#7, 5#6⟩),
  (0x0e86906b185#41, 0x0#41, .ldf8CClrF1R3Imm9 ⟨2#2, 181#9, 16#7, 70#7, 5#6⟩),
  (0x0c8a1001185#41, 0x0#41, .ldfsCClrF1R3 ⟨2#2, 16#7, 70#7, 5#6⟩),
  (0x0d8a101f185#41, 0x0#41, .ldfsCClrF1R3R2 ⟨2#2, 16#7, 15#7, 70#7, 5#6⟩),
  (0x0e8a906b185#41, 0x0#41, .ldfsCClrF1R3Imm9 ⟨2#2, 181#9, 16#7, 70#7, 5#6⟩),
  (0x0c8e1001185#41, 0x0#41, .ldfdCClrF1R3 ⟨2#2, 16#7, 70#7, 5#6⟩),
  (0x0d8e101f185#41, 0x0#41, .ldfdCClrF1R3R2 ⟨2#2, 16#7, 15#7, 70#7, 5#6⟩),
  (0x0e8e906b185#41, 0x0#41, .ldfdCClrF1R3Imm9 ⟨2#2, 181#9, 16#7, 70#7, 5#6⟩),
  (0x0c921001185#41, 0x0#41, .ldfeCNcF1R3 ⟨2#2, 16#7, 70#7, 5#6⟩),
  (0x0d92101f185#41, 0x0#41, .ldfeCNcF1R3R2 ⟨2#2, 16#7, 15#7, 70#7, 5#6⟩),
  (0x0e92906b185#41, 0x0#41, .ldfeCNcF1R3Imm9 ⟨2#2, 181#9, 16#7, 70#7, 5#6⟩),
  (0x0c961001185#41, 0x0#41, .ldf8CNcF1R3 ⟨2#2, 16#7, 70#7, 5#6⟩),
  (0x0d96101f185#41, 0x0#41, .ldf8CNcF1R3R2 ⟨2#2, 16#7, 15#7, 70#7, 5#6⟩),
  (0x0e96906b185#41, 0x0#41, .ldf8CNcF1R3Imm9 ⟨2#2, 181#9, 16#7, 70#7, 5#6⟩),
  (0x0c9a1001185#41, 0x0#41, .ldfsCNcF1R3 ⟨2#2, 16#7, 70#7, 5#6⟩),
  (0x0d9a101f185#41, 0x0#41, .ldfsCNcF1R3R2 ⟨2#2, 16#7, 15#7, 70#7, 5#6⟩),
  (0x0e9a906b185#41, 0x0#41, .ldfsCNcF1R3Imm9 ⟨2#2, 181#9, 16#7, 70#7, 5#6⟩),
  (0x0c9e1001185#41, 0x0#41, .ldfdCNcF1R3 ⟨2#2, 16#7, 70#7, 5#6⟩),
  (0x0d9e101f185#41, 0x0#41, .ldfdCNcF1R3R2 ⟨2#2, 16#7, 15#7, 70#7, 5#6⟩),
  (0x0e9e906b185#41, 0x0#41, .ldfdCNcF1R3Imm9 ⟨2#2, 181#9, 16#7, 70#7, 5#6⟩),
  (0x0c6e1001185#41, 0x0#41, .ldfFillF1R3 ⟨2#2, 16#7, 70#7, 5#6⟩),
  (0x0d6e101f185#41, 0x0#41, .ldfFillF1R3R2 ⟨2#2, 16#7, 15#7, 70#7, 5#6⟩),
  (0x0e6e906b185#41, 0x0#41, .ldfFillF1R3Imm9 ⟨2#2, 181#9, 16#7, 70#7, 5#6⟩),
  (0x0cc2108e005#41, 0x0#41, .stfeR3F2 ⟨2#2, 16#7, 71#7, 5#6⟩),
  (0x0ec2908ed45#41, 0x0#41, .stfeR3F2Imm9 ⟨2#2, 181#9, 16#7, 71#7, 5#6⟩),
  (0x0cc6108e005#41, 0x0#41, .stf8R3F2 ⟨2#2, 16#7, 71#7, 5#6⟩),
  (0x0ec6908ed45#41, 0x0#41, .stf8R3F2Imm9 ⟨2#2, 181#9, 16#7, 71#7, 5#6⟩),
  (0x0cca108e005#41, 0x0#41, .stfsR3F2 ⟨2#2, 16#7, 71#7, 5#6⟩),
  (0x0eca908ed45#41, 0x0#41, .stfsR3F2Imm9 ⟨2#2, 181#9, 16#7, 71#7, 5#6⟩),
  (0x0cce108e005#41, 0x0#41, .stfdR3F2 ⟨2#2, 16#7, 71#7, 5#6⟩),
  (0x0ece908ed45#41, 0x0#41, .stfdR3F2Imm9 ⟨2#2, 181#9, 16#7, 71#7, 5#6⟩),
  (0x0cee108e005#41, 0x0#41, .stfSpillR3F2 ⟨2#2, 16#7, 71#7, 5#6⟩),
  (0x0eee908ed45#41, 0x0#41, .stfSpillR3F2Imm9 ⟨2#2, 181#9, 16#7, 71#7, 5#6⟩),
  (0x0c06908f185#41, 0x0#41, .ldfp8F1F2R3 ⟨2#2, 16#7, 71#7, 70#7, 5#6⟩),
  (0x0d06908f185#41, 0x0#41, .ldfp8F1F2R316 ⟨2#2, 16#7, 71#7, 70#7, 5#6⟩)] : List (Slot × Slot × Instr)).all
    (decodes .m) = true := by decide +kernel

theorem test_decode_m5 : ([
  (0x0c0a908f185#41, 0x0#41, .ldfpsF1F2R3 ⟨2#2, 16#7, 71#7, 70#7, 5#6⟩),
  (0x0d0a908f185#41, 0x0#41, .ldfpsF1F2R38 ⟨2#2, 16#7, 71#7, 70#7, 5#6⟩),
  (0x0c0e908f185#41, 0x0#41, .ldfpdF1F2R3 ⟨2#2, 16#7, 71#7, 70#7, 5#6⟩),
  (0x0d0e908f185#41, 0x0#41, .ldfpdF1F2R316 ⟨2#2, 16#7, 71#7, 70#7, 5#6⟩),
  (0x0c16908f185#41, 0x0#41, .ldfp8SF1F2R3 ⟨2#2, 16#7, 71#7, 70#7, 5#6⟩),
  (0x0d16908f185#41, 0x0#41, .ldfp8SF1F2R316 ⟨2#2, 16#7, 71#7, 70#7, 5#6⟩),
  (0x0c1a908f185#41, 0x0#41, .ldfpsSF1F2R3 ⟨2#2, 16#7, 71#7, 70#7, 5#6⟩),
  (0x0d1a908f185#41, 0x0#41, .ldfpsSF1F2R38 ⟨2#2, 16#7, 71#7, 70#7, 5#6⟩),
  (0x0c1e908f185#41, 0x0#41, .ldfpdSF1F2R3 ⟨2#2, 16#7, 71#7, 70#7, 5#6⟩),
  (0x0d1e908f185#41, 0x0#41, .ldfpdSF1F2R316 ⟨2#2, 16#7, 71#7, 70#7, 5#6⟩),
  (0x0c26908f185#41, 0x0#41, .ldfp8AF1F2R3 ⟨2#2, 16#7, 71#7, 70#7, 5#6⟩),
  (0x0d26908f185#41, 0x0#41, .ldfp8AF1F2R316 ⟨2#2, 16#7, 71#7, 70#7, 5#6⟩),
  (0x0c2a908f185#41, 0x0#41, .ldfpsAF1F2R3 ⟨2#2, 16#7, 71#7, 70#7, 5#6⟩),
  (0x0d2a908f185#41, 0x0#41, .ldfpsAF1F2R38 ⟨2#2, 16#7, 71#7, 70#7, 5#6⟩),
  (0x0c2e908f185#41, 0x0#41, .ldfpdAF1F2R3 ⟨2#2, 16#7, 71#7, 70#7, 5#6⟩),
  (0x0d2e908f185#41, 0x0#41, .ldfpdAF1F2R316 ⟨2#2, 16#7, 71#7, 70#7, 5#6⟩),
  (0x0c36908f185#41, 0x0#41, .ldfp8SaF1F2R3 ⟨2#2, 16#7, 71#7, 70#7, 5#6⟩),
  (0x0d36908f185#41, 0x0#41, .ldfp8SaF1F2R316 ⟨2#2, 16#7, 71#7, 70#7, 5#6⟩),
  (0x0c3a908f185#41, 0x0#41, .ldfpsSaF1F2R3 ⟨2#2, 16#7, 71#7, 70#7, 5#6⟩),
  (0x0d3a908f185#41, 0x0#41, .ldfpsSaF1F2R38 ⟨2#2, 16#7, 71#7, 70#7, 5#6⟩),
  (0x0c3e908f185#41, 0x0#41, .ldfpdSaF1F2R3 ⟨2#2, 16#7, 71#7, 70#7, 5#6⟩),
  (0x0d3e908f185#41, 0x0#41, .ldfpdSaF1F2R316 ⟨2#2, 16#7, 71#7, 70#7, 5#6⟩),
  (0x0c86908f185#41, 0x0#41, .ldfp8CClrF1F2R3 ⟨2#2, 16#7, 71#7, 70#7, 5#6⟩),
  (0x0d86908f185#41, 0x0#41, .ldfp8CClrF1F2R316 ⟨2#2, 16#7, 71#7, 70#7, 5#6⟩),
  (0x0c8a908f185#41, 0x0#41, .ldfpsCClrF1F2R3 ⟨2#2, 16#7, 71#7, 70#7, 5#6⟩),
  (0x0d8a908f185#41, 0x0#41, .ldfpsCClrF1F2R38 ⟨2#2, 16#7, 71#7, 70#7, 5#6⟩),
  (0x0c8e908f185#41, 0x0#41, .ldfpdCClrF1F2R3 ⟨2#2, 16#7, 71#7, 70#7, 5#6⟩),
  (0x0d8e908f185#41, 0x0#41, .ldfpdCClrF1F2R316 ⟨2#2, 16#7, 71#7, 70#7, 5#6⟩),
  (0x0c96908f185#41, 0x0#41, .ldfp8CNcF1F2R3 ⟨2#2, 16#7, 71#7, 70#7, 5#6⟩),
  (0x0d96908f185#41, 0x0#41, .ldfp8CNcF1F2R316 ⟨2#2, 16#7, 71#7, 70#7, 5#6⟩),
  (0x0c9a908f185#41, 0x0#41, .ldfpsCNcF1F2R3 ⟨2#2, 16#7, 71#7, 70#7, 5#6⟩),
  (0x0d9a908f185#41, 0x0#41, .ldfpsCNcF1F2R38 ⟨2#2, 16#7, 71#7, 70#7, 5#6⟩),
  (0x0c9e908f185#41, 0x0#41, .ldfpdCNcF1F2R3 ⟨2#2, 16#7, 71#7, 70#7, 5#6⟩),
  (0x0d9e908f185#41, 0x0#41, .ldfpdCNcF1F2R316 ⟨2#2, 16#7, 71#7, 70#7, 5#6⟩),
  (0x0cb21000005#41, 0x0#41, .lfetchR3 ⟨2#2, 16#7, 5#6⟩),
  (0x0db2101e005#41, 0x0#41, .lfetchR3R2 ⟨2#2, 16#7, 15#7, 5#6⟩),
  (0x0eb2906a005#41, 0x0#41, .lfetchR3Imm9 ⟨2#2, 181#9, 16#7, 5#6⟩),
  (0x0cb61000005#41, 0x0#41, .lfetchExclR3 ⟨2#2, 16#7, 5#6⟩),
  (0x0db6101e005#41, 0x0#41, .lfetchExclR3R2 ⟨2#2, 16#7, 15#7, 5#6⟩),
  (0x0eb6906a005#41, 0x0#41, .lfetchExclR3Imm9 ⟨2#2, 181#9, 16#7, 5#6⟩),
  (0x0cba1000005#41, 0x0#41, .lfetchFaultR3 ⟨2#2, 16#7, 5#6⟩),
  (0x0dba101e005#41, 0x0#41, .lfetchFaultR3R2 ⟨2#2, 16#7, 15#7, 5#6⟩),
  (0x0eba906a005#41, 0x0#41, .lfetchFaultR3Imm9 ⟨2#2, 181#9, 16#7, 5#6⟩),
  (0x0cbe1000005#41, 0x0#41, .lfetchFaultExclR3 ⟨2#2, 16#7, 5#6⟩)] : List (Slot × Slot × Instr)).all
    (decodes .m) = true := by decide +kernel

theorem test_decode_m6 : ([
  (0x0dbe101e005#41, 0x0#41, .lfetchFaultExclR3R2 ⟨2#2, 16#7, 15#7, 5#6⟩),
  (0x0ebe906a005#41, 0x0#41, .lfetchFaultExclR3Imm9 ⟨2#2, 181#9, 16#7, 5#6⟩),
  (0x0802901e385#41, 0x0#41, .cmpxchg1Acq ⟨2#2, 16#7, 15#7, 14#7, 5#6⟩),
  (0x0812901e385#41, 0x0#41, .cmpxchg1Rel ⟨2#2, 16#7, 15#7, 14#7, 5#6⟩),
  (0x0822901e385#41, 0x0#41, .xchg1 ⟨2#2, 16#7, 15#7, 14#7, 5#6⟩),
  (0x0806901e385#41, 0x0#41, .cmpxchg2Acq ⟨2#2, 16#7, 15#7, 14#7, 5#6⟩),
  (0x0816901e385#41, 0x0#41, .cmpxchg2Rel ⟨2#2, 16#7, 15#7, 14#7, 5#6⟩),
  (0x0826901e385#41, 0x0#41, .xchg2 ⟨2#2, 16#7, 15#7, 14#7, 5#6⟩),
  (0x080a901e385#41, 0x0#41, .cmpxchg4Acq ⟨2#2, 16#7, 15#7, 14#7, 5#6⟩),
  (0x081a901e385#41, 0x0#41, .cmpxchg4Rel ⟨2#2, 16#7, 15#7, 14#7, 5#6⟩),
  (0x082a901e385#41, 0x0#41, .xchg4 ⟨2#2, 16#7, 15#7, 14#7, 5#6⟩),
  (0x080e901e385#41, 0x0#41, .cmpxchg8Acq ⟨2#2, 16#7, 15#7, 14#7, 5#6⟩),
  (0x081e901e385#41, 0x0#41, .cmpxchg8Rel ⟨2#2, 16#7, 15#7, 14#7, 5#6⟩),
  (0x082e901e385#41, 0x0#41, .xchg8 ⟨2#2, 16#7, 15#7, 14#7, 5#6⟩),
  (0x0882901e385#41, 0x0#41, .cmp8xchg16Acq ⟨2#2, 16#7, 15#7, 14#7, 5#6⟩),
  (0x0892901e385#41, 0x0#41, .cmp8xchg16Rel ⟨2#2, 16#7, 15#7, 14#7, 5#6⟩),
  (0x084a900c385#41, 0x0#41, .fetchadd4Acq ⟨2#2, 16#7, 1#1, 2#2, 14#7, 5#6⟩),
  (0x084e900c385#41, 0x0#41, .fetchadd8Acq ⟨2#2, 16#7, 1#1, 2#2, 14#7, 5#6⟩),
  (0x085a900c385#41, 0x0#41, .fetchadd4Rel ⟨2#2, 16#7, 1#1, 2#2, 14#7, 5#6⟩),
  (0x085e900c385#41, 0x0#41, .fetchadd8Rel ⟨2#2, 16#7, 1#1, 2#2, 14#7, 5#6⟩),
  (0x0c70801f185#41, 0x0#41, .setfSig ⟨15#7, 70#7, 5#6⟩),
  (0x0870808e385#41, 0x0#41, .getfSig ⟨71#7, 14#7, 5#6⟩),
  (0x0c74801f185#41, 0x0#41, .setfExp ⟨15#7, 70#7, 5#6⟩),
  (0x0874808e385#41, 0x0#41, .getfExp ⟨71#7, 14#7, 5#6⟩),
  (0x0c78801f185#41, 0x0#41, .setfS ⟨15#7, 70#7, 5#6⟩),
  (0x0878808e385#41, 0x0#41, .getfS ⟨71#7, 14#7, 5#6⟩),
  (0x0c7c801f185#41, 0x0#41, .setfD ⟨15#7, 70#7, 5#6⟩),
  (0x087c808e385#41, 0x0#41, .getfD ⟨71#7, 14#7, 5#6⟩),
  (0x0236b91e745#41, 0x0#41, .chkSMR2 ⟨744605#21, 15#7, 5#6⟩),
  (0x0276b98e745#41, 0x0#41, .chkSF2 ⟨744605#21, 71#7, 5#6⟩),
  (0x0096b93a385#41, 0x0#41, .chkANcR1 ⟨744605#21, 14#7, 5#6⟩),
  (0x00b6b93a385#41, 0x0#41, .chkAClrR1 ⟨744605#21, 14#7, 5#6⟩),
  (0x00d6b93b185#41, 0x0#41, .chkANcF1 ⟨744605#21, 70#7, 5#6⟩),
  (0x00f6b93b185#41, 0x0#41, .chkAClrF1 ⟨744605#21, 70#7, 5#6⟩),
  (0x00002d72745#41, 0x0#41, .breakM ⟨744605#21, 5#6⟩),
  (0x00080000005#41, 0x0#41, .invala ⟨5#6⟩),
  (0x00100000005#41, 0x0#41, .fwb ⟨5#6⟩),
  (0x00180000005#41, 0x0#41, .srlzD ⟨5#6⟩),
  (0x0000ad72745#41, 0x0#41, .nopM ⟨744605#21, 5#6⟩),
  (0x0000ed72745#41, 0x0#41, .hintM ⟨744605#21, 5#6⟩),
  (0x00188000005#41, 0x0#41, .srlzI ⟨5#6⟩),
  (0x00090000385#41, 0x0#41, .invalaER1 ⟨14#7, 5#6⟩),
  (0x00110000005#41, 0x0#41, .mf ⟨5#6⟩),
  (0x00098001185#41, 0x0#41, .invalaEF1 ⟨70#7, 5#6⟩)] : List (Slot × Slot × Instr)).all
    (decodes .m) = true := by decide +kernel

theorem test_decode_m7 : ([
  (0x00118000005#41, 0x0#41, .mfA ⟨5#6⟩),
  (0x00198000005#41, 0x0#41, .syncI ⟨5#6⟩),
  (0x00126b93a45#41, 0x0#41, .sum ⟨5956841#24, 5#6⟩),
  (0x0012eb93a45#41, 0x0#41, .rum ⟨5956841#24, 5#6⟩),
  (0x00136b93a45#41, 0x0#41, .ssm ⟨5956841#24, 5#6⟩),
  (0x0013eb93a45#41, 0x0#41, .rsm ⟨5956841#24, 5#6⟩),
  (0x001442b4005#41, 0x0#41, .movMAr3Imm8 ⟨66#7, 90#8, 5#6⟩),
  (0x00050000005#41, 0x0#41, .loadrs ⟨5#6⟩),
  (0x00060000005#41, 0x0#41, .flushrs ⟨5#6⟩),
  (0x0200101e005#41, 0x0#41, .movRrR3R2 ⟨16#7, 15#7, 5#6⟩),
  (0x02081000385#41, 0x0#41, .movR1RrR3 ⟨16#7, 14#7, 5#6⟩),
  (0x0200901e005#41, 0x0#41, .movDbrR3R2 ⟨16#7, 15#7, 5#6⟩),
  (0x02089000385#41, 0x0#41, .movR1DbrR3 ⟨16#7, 14#7, 5#6⟩),
  (0x0201101e005#41, 0x0#41, .movIbrR3R2 ⟨16#7, 15#7, 5#6⟩),
  (0x02091000385#41, 0x0#41, .movR1IbrR3 ⟨16#7, 14#7, 5#6⟩),
  (0x0201901e005#41, 0x0#41, .movPkrR3R2 ⟨16#7, 15#7, 5#6⟩),
  (0x02099000385#41, 0x0#41, .movR1PkrR3 ⟨16#7, 14#7, 5#6⟩),
  (0x0202101e005#41, 0x0#41, .movPmcR3R2 ⟨16#7, 15#7, 5#6⟩),
  (0x020a1000385#41, 0x0#41, .movR1PmcR3 ⟨16#7, 14#7, 5#6⟩),
  (0x0202901e005#41, 0x0#41, .movPmdR3R2 ⟨16#7, 15#7, 5#6⟩),
  (0x020a9000385#41, 0x0#41, .movR1PmdR3 ⟨16#7, 14#7, 5#6⟩),
  (0x020b9000385#41, 0x0#41, .movR1CpuidR3 ⟨16#7, 14#7, 5#6⟩),
  (0x0204901e005#41, 0x0#41, .ptcLR3R2 ⟨16#7, 15#7, 5#6⟩),
  (0x0205101e005#41, 0x0#41, .ptcGR3R2 ⟨16#7, 15#7, 5#6⟩),
  (0x0205901e005#41, 0x0#41, .ptcGaR3R2 ⟨16#7, 15#7, 5#6⟩),
  (0x0206101e005#41, 0x0#41, .ptrDR3R2 ⟨16#7, 15#7, 5#6⟩),
  (0x0206901e005#41, 0x0#41, .ptrIR3R2 ⟨16#7, 15#7, 5#6⟩),
  (0x021a1000005#41, 0x0#41, .ptcER3 ⟨16#7, 5#6⟩),
  (0x0207101e005#41, 0x0#41, .itrDDtrR3R2 ⟨16#7, 15#7, 5#6⟩),
  (0x0207901e005#41, 0x0#41, .itrIItrR3R2 ⟨16#7, 15#7, 5#6⟩),
  (0x0217001e005#41, 0x0#41, .itcDR2 ⟨15#7, 5#6⟩),
  (0x0217801e005#41, 0x0#41, .itcIR2 ⟨15#7, 5#6⟩),
  (0x020c1004385#41, 0x0#41, .probeRR1R3Imm2 ⟨16#7, 2#2, 14#7, 5#6⟩),
  (0x020c9004385#41, 0x0#41, .probeWR1R3Imm2 ⟨16#7, 2#2, 14#7, 5#6⟩),
  (0x021c101e385#41, 0x0#41, .probeRR1R3R2 ⟨16#7, 15#7, 14#7, 5#6⟩),
  (0x021c901e385#41, 0x0#41, .probeWR1R3R2 ⟨16#7, 15#7, 14#7, 5#6⟩),
  (0x02189004005#41, 0x0#41, .probeRwFaultR3Imm2 ⟨16#7, 2#2, 5#6⟩),
  (0x02191004005#41, 0x0#41, .probeRFaultR3Imm2 ⟨16#7, 2#2, 5#6⟩),
  (0x02199004005#41, 0x0#41, .probeWFaultR3Imm2 ⟨16#7, 2#2, 5#6⟩),
  (0x020d1000385#41, 0x0#41, .thash ⟨16#7, 14#7, 5#6⟩),
  (0x020d9000385#41, 0x0#41, .ttag ⟨16#7, 14#7, 5#6⟩),
  (0x020f1000385#41, 0x0#41, .tpa ⟨16#7, 14#7, 5#6⟩),
  (0x020f9000385#41, 0x0#41, .tak ⟨16#7, 14#7, 5#6⟩),
  (0x02108000385#41, 0x0#41, .movR1PsrUm ⟨14#7, 5#6⟩)] : List (Slot × Slot × Instr)).all
    (decodes .m) = true := by decide +kernel

theorem test_decode_m8 : ([
  (0x02114200385#41, 0x0#41, .movMR1Ar3 ⟨66#7, 14#7, 5#6⟩),
  (0x02124100385#41, 0x0#41, .movR1Cr3 ⟨65#7, 14#7, 5#6⟩),
  (0x02128000385#41, 0x0#41, .movR1Psr ⟨14#7, 5#6⟩),
  (0x0214801e005#41, 0x0#41, .movPsrUmR2 ⟨15#7, 5#6⟩),
  (0x0215421e005#41, 0x0#41, .movMAr3R2 ⟨66#7, 15#7, 5#6⟩),
  (0x0216411e005#41, 0x0#41, .movCr3R2 ⟨65#7, 15#7, 5#6⟩),
  (0x0216801e005#41, 0x0#41, .movPsrLR2 ⟨15#7, 5#6⟩),
  (0x02181000005#41, 0x0#41, .fcR3 ⟨16#7, 5#6⟩),
  (0x03181000005#41, 0x0#41, .fcIR3 ⟨16#7, 5#6⟩),
  (0x02c2b596385#41, 0x0#41, .allocR1ArPfsILOR ⟨5#4, 53#7, 75#7, 14#7, 5#6⟩)] : List (Slot × Slot × Instr)).all
    (decodes .m) = true := by decide +kernel

theorem test_decode_b0 : ([
  (0x08d6b93b005#41, 0x0#41, .brCondTarget25 ⟨744605#21, 1#1, 2#2, 1#1, 5#6⟩),
  (0x08d6b93b085#41, 0x0#41, .brWexitTarget25 ⟨744605#21, 1#1, 2#2, 1#1, 5#6⟩),
  (0x08d6b93b0c5#41, 0x0#41, .brWtopTarget25 ⟨744605#21, 1#1, 2#2, 1#1, 5#6⟩),
  (0x08d6b93b145#41, 0x0#41, .brCloopTarget25 ⟨744605#21, 1#1, 2#2, 1#1, 5#6⟩),
  (0x08d6b93b185#41, 0x0#41, .brCexitTarget25 ⟨744605#21, 1#1, 2#2, 1#1, 5#6⟩),
  (0x08d6b93b1c5#41, 0x0#41, .brCtopTarget25 ⟨744605#21, 1#1, 2#2, 1#1, 5#6⟩),
  (0x0ad6b93b0c5#41, 0x0#41, .brCallB1Target25 ⟨744605#21, 1#1, 2#2, 1#1, 3#3, 5#6⟩),
  (0x00d0000b005#41, 0x0#41, .brCondB2 ⟨1#1, 2#2, 5#3, 1#1, 5#6⟩),
  (0x00d0000b045#41, 0x0#41, .brIaB2 ⟨1#1, 2#2, 5#3, 1#1, 5#6⟩),
  (0x00d0800b105#41, 0x0#41, .brRetB2 ⟨1#1, 2#2, 5#3, 1#1, 5#6⟩),
  (0x02a0000b0c5#41, 0x0#41, .brCallB1B2 ⟨1#1, 2#3, 5#3, 1#1, 3#3, 5#6⟩),
  (0x0e000000000#41, 0x0#41, .brpTarget25Tag13),
  (0x04080000000#41, 0x0#41, .brpB2Tag13),
  (0x04088000000#41, 0x0#41, .brpRetB2Tag13),
  (0x00010000000#41, 0x0#41, .cover),
  (0x00020000000#41, 0x0#41, .clrrrb),
  (0x00028000000#41, 0x0#41, .clrrrbPr),
  (0x00040000000#41, 0x0#41, .rfi),
  (0x00060000000#41, 0x0#41, .bsw0),
  (0x00068000000#41, 0x0#41, .bsw1),
  (0x00080000000#41, 0x0#41, .epc),
  (0x000c0000005#41, 0x0#41, .vmsw0 ⟨5#6⟩),
  (0x000c8000005#41, 0x0#41, .vmsw1 ⟨5#6⟩),
  (0x00002d72745#41, 0x0#41, .breakB ⟨744605#21, 5#6⟩),
  (0x04002d72745#41, 0x0#41, .nopB ⟨744605#21, 5#6⟩),
  (0x0400ad72745#41, 0x0#41, .hintB ⟨744605#21, 5#6⟩)] : List (Slot × Slot × Instr)).all
    (decodes .b) = true := by decide +kernel

theorem test_decode_f0 : ([
  (0x10a4c88f185#41, 0x0#41, .fma ⟨2#2, 73#7, 72#7, 71#7, 70#7, 5#6⟩),
  (0x11a4c88f185#41, 0x0#41, .fmaS ⟨2#2, 73#7, 72#7, 71#7, 70#7, 5#6⟩),
  (0x12a4c88f185#41, 0x0#41, .fmaD ⟨2#2, 73#7, 72#7, 71#7, 70#7, 5#6⟩),
  (0x13a4c88f185#41, 0x0#41, .fpma ⟨2#2, 73#7, 72#7, 71#7, 70#7, 5#6⟩),
  (0x14a4c88f185#41, 0x0#41, .fms ⟨2#2, 73#7, 72#7, 71#7, 70#7, 5#6⟩),
  (0x15a4c88f185#41, 0x0#41, .fmsS ⟨2#2, 73#7, 72#7, 71#7, 70#7, 5#6⟩),
  (0x16a4c88f185#41, 0x0#41, .fmsD ⟨2#2, 73#7, 72#7, 71#7, 70#7, 5#6⟩),
  (0x17a4c88f185#41, 0x0#41, .fpms ⟨2#2, 73#7, 72#7, 71#7, 70#7, 5#6⟩),
  (0x18a4c88f185#41, 0x0#41, .fnma ⟨2#2, 73#7, 72#7, 71#7, 70#7, 5#6⟩),
  (0x19a4c88f185#41, 0x0#41, .fnmaS ⟨2#2, 73#7, 72#7, 71#7, 70#7, 5#6⟩),
  (0x1aa4c88f185#41, 0x0#41, .fnmaD ⟨2#2, 73#7, 72#7, 71#7, 70#7, 5#6⟩),
  (0x1ba4c88f185#41, 0x0#41, .fpnma ⟨2#2, 73#7, 72#7, 71#7, 70#7, 5#6⟩),
  (0x1d64c88f185#41, 0x0#41, .xma ⟨1#2, 73#7, 72#7, 71#7, 70#7, 5#6⟩),
  (0x1c24c88f185#41, 0x0#41, .fselect ⟨73#7, 72#7, 71#7, 70#7, 5#6⟩),
  (0x0883c88e185#41, 0x0#41, .fcmp ⟨0#1, 2#2, 0#1, 7#6, 72#7, 71#7, 0#1, 6#6, 5#6⟩),
  (0x0a03808e185#41, 0x0#41, .fclassM ⟨7#6, 71#7, 0#1, 6#6, 5#6⟩),
  (0x00a3c88f185#41, 0x0#41, .frcpa ⟨2#2, 7#6, 72#7, 71#7, 70#7, 5#6⟩),
  (0x02a3c88f185#41, 0x0#41, .fprcpa ⟨2#2, 7#6, 72#7, 71#7, 70#7, 5#6⟩),
  (0x01a3c801185#41, 0x0#41, .frsqrta ⟨2#2, 7#6, 72#7, 70#7, 5#6⟩),
  (0x03a3c801185#41, 0x0#41, .fprsqrta ⟨2#2, 7#6, 72#7, 70#7, 5#6⟩),
  (0x008a488f185#41, 0x0#41, .fmin ⟨2#2, 72#7, 71#7, 70#7, 5#6⟩),
  (0x008ac88f185#41, 0x0#41, .fmax ⟨2#2, 72#7, 71#7, 70#7, 5#6⟩),
  (0x008b488f185#41, 0x0#41, .famin ⟨2#2, 72#7, 71#7, 70#7, 5#6⟩),
  (0x008bc88f185#41, 0x0#41, .famax ⟨2#2, 72#7, 71#7, 70#7, 5#6⟩),
  (0x028a488f185#41, 0x0#41, .fpmin ⟨2#2, 72#7, 71#7, 70#7, 5#6⟩),
  (0x028ac88f185#41, 0x0#41, .fpmax ⟨2#2, 72#7, 71#7, 70#7, 5#6⟩),
  (0x028b488f185#41, 0x0#41, .fpamin ⟨2#2, 72#7, 71#7, 70#7, 5#6⟩),
  (0x028bc88f185#41, 0x0#41, .fpamax ⟨2#2, 72#7, 71#7, 70#7, 5#6⟩),
  (0x0298488f185#41, 0x0#41, .fpcmpFrelCode0 ⟨2#2, 72#7, 71#7, 70#7, 5#6⟩),
  (0x0298c88f185#41, 0x0#41, .fpcmpFrelCode1 ⟨2#2, 72#7, 71#7, 70#7, 5#6⟩),
  (0x0299488f185#41, 0x0#41, .fpcmpFrelCode2 ⟨2#2, 72#7, 71#7, 70#7, 5#6⟩),
  (0x0299c88f185#41, 0x0#41, .fpcmpFrelCode3 ⟨2#2, 72#7, 71#7, 70#7, 5#6⟩),
  (0x029a488f185#41, 0x0#41, .fpcmpFrelCode4 ⟨2#2, 72#7, 71#7, 70#7, 5#6⟩),
  (0x029ac88f185#41, 0x0#41, .fpcmpFrelCode5 ⟨2#2, 72#7, 71#7, 70#7, 5#6⟩),
  (0x029b488f185#41, 0x0#41, .fpcmpFrelCode6 ⟨2#2, 72#7, 71#7, 70#7, 5#6⟩),
  (0x029bc88f185#41, 0x0#41, .fpcmpFrelCode7 ⟨2#2, 72#7, 71#7, 70#7, 5#6⟩),
  (0x0008488f185#41, 0x0#41, .fmergeS ⟨72#7, 71#7, 70#7, 5#6⟩),
  (0x0008c88f185#41, 0x0#41, .fmergeNs ⟨72#7, 71#7, 70#7, 5#6⟩),
  (0x0009488f185#41, 0x0#41, .fmergeSe ⟨72#7, 71#7, 70#7, 5#6⟩),
  (0x001cc88f185#41, 0x0#41, .fmixLr ⟨72#7, 71#7, 70#7, 5#6⟩),
  (0x001d488f185#41, 0x0#41, .fmixR ⟨72#7, 71#7, 70#7, 5#6⟩),
  (0x001dc88f185#41, 0x0#41, .fmixL ⟨72#7, 71#7, 70#7, 5#6⟩),
  (0x001e488f185#41, 0x0#41, .fsxtR ⟨72#7, 71#7, 70#7, 5#6⟩),
  (0x001ec88f185#41, 0x0#41, .fsxtL ⟨72#7, 71#7, 70#7, 5#6⟩)] : List (Slot × Slot × Instr)).all
    (decodes .f) = true := by decide +kernel

theorem test_decode_f1 : ([
  (0x0014488f185#41, 0x0#41, .fpack ⟨72#7, 71#7, 70#7, 5#6⟩),
  (0x001a488f185#41, 0x0#41, .fswap ⟨72#7, 71#7, 70#7, 5#6⟩),
  (0x001ac88f185#41, 0x0#41, .fswapNl ⟨72#7, 71#7, 70#7, 5#6⟩),
  (0x001b488f185#41, 0x0#41, .fswapNr ⟨72#7, 71#7, 70#7, 5#6⟩),
  (0x0016488f185#41, 0x0#41, .fand ⟨72#7, 71#7, 70#7, 5#6⟩),
  (0x0016c88f185#41, 0x0#41, .fandcm ⟨72#7, 71#7, 70#7, 5#6⟩),
  (0x0017488f185#41, 0x0#41, .fOr ⟨72#7, 71#7, 70#7, 5#6⟩),
  (0x0017c88f185#41, 0x0#41, .fxor ⟨72#7, 71#7, 70#7, 5#6⟩),
  (0x0208488f185#41, 0x0#41, .fpmergeS ⟨72#7, 71#7, 70#7, 5#6⟩),
  (0x0208c88f185#41, 0x0#41, .fpmergeNs ⟨72#7, 71#7, 70#7, 5#6⟩),
  (0x0209488f185#41, 0x0#41, .fpmergeSe ⟨72#7, 71#7, 70#7, 5#6⟩),
  (0x008c008f185#41, 0x0#41, .fcvtFx ⟨2#2, 71#7, 70#7, 5#6⟩),
  (0x028c008f185#41, 0x0#41, .fpcvtFx ⟨2#2, 71#7, 70#7, 5#6⟩),
  (0x008c808f185#41, 0x0#41, .fcvtFxu ⟨2#2, 71#7, 70#7, 5#6⟩),
  (0x028c808f185#41, 0x0#41, .fpcvtFxu ⟨2#2, 71#7, 70#7, 5#6⟩),
  (0x008d008f185#41, 0x0#41, .fcvtFxTrunc ⟨2#2, 71#7, 70#7, 5#6⟩),
  (0x028d008f185#41, 0x0#41, .fpcvtFxTrunc ⟨2#2, 71#7, 70#7, 5#6⟩),
  (0x008d808f185#41, 0x0#41, .fcvtFxuTrunc ⟨2#2, 71#7, 70#7, 5#6⟩),
  (0x028d808f185#41, 0x0#41, .fpcvtFxuTrunc ⟨2#2, 71#7, 70#7, 5#6⟩),
  (0x000e008f185#41, 0x0#41, .fcvtXf ⟨71#7, 70#7, 5#6⟩),
  (0x00822d5a005#41, 0x0#41, .fsetc ⟨2#2, 45#7, 45#7, 5#6⟩),
  (0x00828000005#41, 0x0#41, .fclrf ⟨2#2, 5#6⟩),
  (0x00842d72745#41, 0x0#41, .fchkf ⟨2#2, 744605#21, 5#6⟩),
  (0x00002d72745#41, 0x0#41, .breakF ⟨744605#21, 5#6⟩),
  (0x0000ad72745#41, 0x0#41, .nopF ⟨744605#21, 5#6⟩),
  (0x0000ed72745#41, 0x0#41, .hintF ⟨744605#21, 5#6⟩)] : List (Slot × Slot × Instr)).all
    (decodes .f) = true := by decide +kernel

theorem test_decode_x0 : ([
  (0x00002d72745#41, 0xa5c3f1e2d4#41, .breakX ⟨0xa5c3f1e2d4#41, 744605#21, 5#6⟩),
  (0x0000ad72745#41, 0xa5c3f1e2d4#41, .nopX ⟨0xa5c3f1e2d4#41, 744605#21, 5#6⟩),
  (0x0000ed72745#41, 0xa5c3f1e2d4#41, .hintX ⟨0xa5c3f1e2d4#41, 744605#21, 5#6⟩),
  (0x0d5aae5a385#41, 0xa5c3f1e2d4#41, .movl ⟨0xa5c3f1e2d4#41, 1#1, 181#9, 11#5, 1#1, 45#7, 14#7, 5#6⟩),
  (0x19cb5c9d005#41, 0xa5c3f1e2d4#41, .brlCondTarget64 ⟨0xa5c3f1e2d4#41, 1#1, 1#1, 2#2, 372302#20, 1#1, 5#6⟩),
  (0x1bcb5c9d0c5#41, 0xa5c3f1e2d4#41, .brlCallB1Target64 ⟨0xa5c3f1e2d4#41, 1#1, 1#1, 2#2, 372302#20, 1#1, 3#3, 5#6⟩)] : List (Slot × Slot × Instr)).all
    (decodes .x) = true := by decide +kernel

/-! ## Words written out bit by bit (30 R452; 40 to 43) -/

/-- `addp4 r14 = r15, r16` (40 R505). -/
theorem test_bits_a : decodes .m (8#4 ++ 0#1 ++ 0#2 ++ 0#1 ++ 2#4 ++ 0#2 ++ 16#7 ++ 15#7 ++ 14#7 ++ 0#6, 0#41,
    .addp4 { r1 := 14#7, r2 := 15#7, r3 := 16#7, qp := 0#6 }) = true := by decide +kernel
/-- `extr.u r14 = r15, 8, 16` (41 R541). -/
theorem test_bits_i : decodes .i (5#4 ++ 0#1 ++ 1#2 ++ 0#1 ++ 15#6 ++ 15#7 ++ 8#6 ++ 1#1 ++ 14#7 ++ 0#6, 0#41,
    .extr { r1 := 14#7, r3 := 15#7, pos6b := 8#6, len6d := 15#6, qp := 0#6 }) = true := by decide +kernel
/-- `ld8.a r14 = [r15]` (42 R580). -/
theorem test_bits_m : decodes .m (4#4 ++ 0#1 ++ 0x0B#6 ++ 0#2 ++ 0#1 ++ 15#7 ++ 0#7 ++ 14#7 ++ 0#6, 0#41,
    .ld8AR1R3 { r1 := 14#7, r3 := 15#7, hint := 0#2, qp := 0#6 }) = true := by decide +kernel
/-- `br.call b2 = .-0x10` (43 R665). -/
theorem test_bits_b : decodes .b (5#4 ++ 1#1 ++ 0#1 ++ 0#2 ++ 0xFFFFF#20 ++ 0#1 ++ 0#3 ++ 2#3 ++ 0#6, 0#41,
    .brCallB1Target25 { target25 := 0x1FFFFF#21, d := 0#1, wh := 0#2, p := 0#1, b1 := 2#3, qp := 0#6 }) = true := by
  decide +kernel
/-- `fmerge.s f6 = f7, f8` (43 R687). -/
theorem test_bits_f : decodes .f (0#4 ++ 0#3 ++ 0#1 ++ 0x10#6 ++ 8#7 ++ 7#7 ++ 6#7 ++ 0#6, 0#41,
    .fmergeS { f1 := 6#7, f2 := 7#7, f3 := 8#7, qp := 0#6 }) = true := by decide +kernel
/-- `movl r14 = 0x8003FFFBFEB0C080` (43 R691). -/
theorem test_bits_x : decodes .x (6#4 ++ 1#1 ++ 0x181#9 ++ 0x10#5 ++ 1#1 ++ 0#1 ++ 0#7 ++ 14#7 ++ 0#6, 0xfffeffa#41,
    .movl { r1 := 14#7, imm41 := 0xfffeffa#41, i := 1#1, ic := 1#1, imm5c := 16#5, imm9d := 0x181#9, imm7b := 0#7,
            qp := 0#6 }) = true := by decide +kernel
/-- A reserved template decodes to nothing, and so does a slot no row matches (30 R458). -/
theorem test_reserved_template : decodeBundle (makeBundle 0x06#5 0#41 0#41 0#41) 0 = .error .template := by decide +kernel
theorem test_no_row : decodeSlot .b 0x1e000000000#41 0#41 = .error .illegal := by decide +kernel

/-! ## Ill-formed operands are refused -/

def pmpyshr (count : BitVec 5) : Instr :=
  .pmpyshr2 { qp := 0#6, r1 := 1#7, r2 := 2#7, r3 := 3#7, unsigned := false, count2 := count }
/-- The count of `pmpyshr2` is 0, 7, 15 or 16 (41 R531); no other operand has values that an instruction cannot hold. -/
theorem test_count_refused : (pmpyshr 1#5).wellFormed = false ∧ (pmpyshr 8#5).wellFormed = false
    ∧ (pmpyshr 31#5).wellFormed = false := by decide +kernel
theorem test_count_accepted : (pmpyshr 0#5).wellFormed = true ∧ (pmpyshr 7#5).wellFormed = true
    ∧ (pmpyshr 15#5).wellFormed = true ∧ (pmpyshr 16#5).wellFormed = true := by decide +kernel

/-! ## The effects of single instructions

The words, operands and results are the vectors of spec/95_test_vectors.md part 2, under their names there. -/

/-- A state with some general registers set. -/
def withGrs (l : List (BitVec 7 × Word)) (s : State) : State := l.foldl (fun s p => s.setGr p.1 ⟨p.2, false⟩) s
/-- A state with the NaT bit of a register set. -/
def withNat (r : BitVec 7) (s : State) : State := s.setGr r ⟨0#64, true⟩
/-- A state with some predicates set. -/
def withPrs (l : List (BitVec 6 × Bool)) (s : State) : State := l.foldl (fun s p => s.setLp (s.lp.setPr p.1 p.2)) s
/-- The state after reset. -/
abbrev s0 : State := State.reset
/-- The state after reset at an address, in a slot. -/
def at_ (ip : Word) (slot : BitVec 2) (s : State) : State := s.setLp ({ s.lp with ip := ip }.setRi slot)
/-- A state with another processor status. -/
def psrS (w : Word) (s : State) : State := s.setLp { s.lp with psr := w }
/-- A state with application registers, control registers or a frame changed. -/
def arS (f : ARFile → ARFile) (s : State) : State := s.setLp { s.lp with ar := f s.lp.ar }
def crS (f : CRFile → CRFile) (s : State) : State := s.setLp { s.lp with cr := f s.lp.cr }
def cfmS (c : BitVec 38) (s : State) : State := s.setLp { s.lp with cfm := c }
/-- The memory of the load and store vectors: 16 bytes at 0x2000. -/
def sMem : State := { s0 with mem := writeLE [] 0x2000 16 0x123456789ABCDEF01122334455667788 }

/-- The state after the instruction of a slot. -/
noncomputable def run (u : ExecUnit) (w : Slot) (s : State) (l : Slot := 0#41) : Option State :=
  match decodeSlot u w l with
  | .ok i => match exec i s with
    | .next t => some t
    | _ => none
  | .error _ => none
/-- A general register afterwards. -/
noncomputable def gr (u : ExecUnit) (w : Slot) (s : State) (r : BitVec 7) : Option Reg := (run u w s).map (·.lp.gr? r)
/-- `p6` and `p7` afterwards. -/
noncomputable def prs (u : ExecUnit) (w : Slot) (s : State) : Option (Bool × Bool) :=
  (run u w s).map fun t => (t.lp.readPr 6#6, t.lp.readPr 7#6)
/-- The number of bytes at an address afterwards. -/
noncomputable def bytes (w : Slot) (s : State) (a n : Nat) : Option Nat := (run .m w s).map fun t => readLE t.mem a n
/-- The address of the handler that the instruction went to, from interruption vector table 0. -/
noncomputable def handler (u : ExecUnit) (w : Slot) (s : State) : Option Word :=
  (run u w s).bind fun t => t.lp.ev.vector.map fun _ => t.lp.ip

/-- A frame of 8 registers, 5 of them local, whose sixth holds 77; `AR.EC` is 3. -/
def sFrame : State := cfmS (mkCfm 8 5 0 0 0 0) (arS (fun a => { a with ec := 3#6 })
  (s0.setLp { s0.lp with gr := { s0.lp.gr with stk := s0.lp.gr.stk.setIfInBounds 5 ⟨77#64, false⟩ } }))
/-- The state of a procedure called from it. -/
def sCallee : State := arS (fun a => { a with pfs := 0x0030000000000288#64 })
  ((s0.setLp { s0.lp with gr := { s0.lp.gr with bof := 5, ndirty := 5 } }).setBr 0#3 0x1010#64)
/-- The processor status of vector E1: `ic`, `i`, `bn`, `dt`, `it`, `rt` are 1, `cpl` is 3, `ri` is 1. -/
def psrE1 : Word := 0x2000#64 ||| 0x4000#64 ||| (1#64 <<< 44) ||| (1#64 <<< 17) ||| (1#64 <<< 36) ||| (1#64 <<< 27)
  ||| (3#64 <<< 32) ||| (1#64 <<< 41)
/-- The state of vector E1. -/
def sE1 : State := { s0 with lp := { s0.lp with
  ip := 0x10000#64, lastIp := 0x10000#64, bundle := 0x00040000000000123450000100000000#128, psr := psrE1
  cr := { s0.lp.cr with iva := 0x80000#64 } } }

theorem test_A1 : gr .m 0x1000101e380#41 (withGrs [(15#7, 0xFFFFFFFFFFFFFFFF#64), (16#7, 0x2#64)] s0) 14#7 = some
    ⟨0x1#64, false⟩ := by decide +kernel
theorem test_A2 : gr .m 0x1000901e380#41 (withGrs [(15#7, 0x7FFFFFFFFFFFFFFF#64), (16#7, 0x0#64)] s0) 14#7 = some
    ⟨0x8000000000000000#64, false⟩ := by decide +kernel
theorem test_A3 : gr .m 0x1002901e380#41 (withGrs [(15#7, 0x0#64), (16#7, 0x1#64)] s0) 14#7 = some
    ⟨0xFFFFFFFFFFFFFFFF#64, false⟩ := by decide +kernel
theorem test_A4 : gr .m 0x1002101e380#41 (withGrs [(15#7, 0x5#64), (16#7, 0x5#64)] s0) 14#7 = some
    ⟨0xFFFFFFFFFFFFFFFF#64, false⟩ := by decide +kernel
theorem test_A5 : gr .m 0x1004101e380#41 (withGrs [(15#7, 0xFFFFFFF0#64), (16#7, 0x1234567C0000020#64)] s0) 14#7 =
    some ⟨0x60000000C0000010#64, false⟩ := by decide +kernel
theorem test_A6 : gr .m 0x1006101e380#41 (withGrs [(15#7, 0xFF00FF00FF00FF00#64), (16#7, 0xFF00FF00FF00FF0#64)] s0)
    14#7 = some ⟨0xF000F000F000F00#64, false⟩ := by decide +kernel
theorem test_A7 : gr .m 0x1006901e380#41 (withGrs [(15#7, 0xFF00FF00FF00FF00#64), (16#7, 0xFF00FF00FF00FF0#64)] s0)
    14#7 = some ⟨0xF000F000F000F000#64, false⟩ := by decide +kernel
theorem test_A8 : gr .m 0x1007101e380#41 (withGrs [(15#7, 0xFF00FF00FF00FF00#64), (16#7, 0xFF00FF00FF00FF0#64)] s0)
    14#7 = some ⟨0xFFF0FFF0FFF0FFF0#64, false⟩ := by decide +kernel
theorem test_A9 : gr .m 0x1007901e380#41 (withGrs [(15#7, 0xFF00FF00FF00FF00#64), (16#7, 0xFF00FF00FF00FF0#64)] s0)
    14#7 = some ⟨0xF0F0F0F0F0F0F0F0#64, false⟩ := by decide +kernel
theorem test_A10 : gr .m 0x1009901e380#41 (withGrs [(15#7, 0x1000000000000001#64), (16#7, 0x5#64)] s0) 14#7 = some
    ⟨0x15#64, false⟩ := by decide +kernel
theorem test_A11 : gr .m 0x100c101e380#41 (withGrs [(15#7, 0x80000001#64), (16#7, 0x40000000#64)] s0) 14#7 = some
    ⟨0x2000000040000002#64, false⟩ := by decide +kernel
theorem test_A12 : gr .m 0x10128f00380#41 (withGrs [(15#7, 0x1#64)] s0) 14#7 = some ⟨0xFFFFFFFFFFFFFFFF#64, false⟩ :=
    by decide +kernel
theorem test_A13 : gr .m 0x11160fe0380#41 (withGrs [(15#7, 0x123456789ABCDEFF#64)] s0) 14#7 = some
    ⟨0x123456789ABCDEF0#64, false⟩ := by decide +kernel
theorem test_A14 : gr .m 0x119f8ffe380#41 (withGrs [(15#7, 0x0#64)] s0) 14#7 = some ⟨0xFFFFFFFFFFFFFFFF#64, false⟩ :=
    by decide +kernel
theorem test_A15 : gr .m 0x109f8ffe380#41 (withGrs [(15#7, 0x1#64)] s0) 14#7 = some ⟨0x2000#64, false⟩ := by
    decide +kernel
theorem test_A18 : gr .m 0x13000000380#41 (withGrs [] s0) 14#7 = some ⟨0xFFFFFFFFFFE00000#64, false⟩ := by
    decide +kernel
theorem test_A19 : gr .m 0x12fffffe380#41 (withGrs [(3#7, 0xA#64)] s0) 14#7 = some ⟨0x200009#64, false⟩ := by
    decide +kernel
theorem test_A20 : gr .m 0x1223048a380#41 (withGrs [] s0) 14#7 = some ⟨0x12345#64, false⟩ := by decide +kernel
theorem test_A50 : gr .m 0x1040101e380#41 (withGrs [(15#7, 0xFF01FF7F80000102#64), (16#7, 0x101010180FF0101#64)] s0)
    14#7 = some ⟨0x2008000FF0203#64, false⟩ := by decide +kernel
theorem test_A51 : gr .m 0x1041101e380#41 (withGrs [(15#7, 0xFF01FF7F80000102#64), (16#7, 0x101010180FF0101#64)] s0)
    14#7 = some ⟨0xFF02FF80FFFF0203#64, false⟩ := by decide +kernel
theorem test_A52 : gr .m 0x1060901e380#41 (withGrs [(15#7, 0x7FFF8000FFFF0001#64), (16#7, 0x180000001FFFF#64)] s0)
    14#7 = some ⟨0x7FFF800000000000#64, false⟩ := by decide +kernel
theorem test_A53 : gr .m 0x1052101e380#41 (withGrs [(15#7, 0x1122334455667788#64), (16#7, 0x1100330055007700#64)] s0)
    14#7 = some ⟨0xFF00FF00FF00FF00#64, false⟩ := by decide +kernel
theorem test_A54 : gr .m 0x1152901e380#41 (withGrs [(15#7, 0x8000000000000001#64), (16#7, 0x0#64)] s0) 14#7 = some
    ⟨0xFFFFFFFF#64, false⟩ := by decide +kernel
theorem test_A17 : gr .i 0x119f8ffe380#41 (withNat 15#7 s0) 14#7 = some ⟨0xFFFFFFFFFFFFFFFF#64, true⟩ := by
    decide +kernel
theorem test_A21 : gr .i 0x1000101e386#41 (withGrs [(14#7, 0xAAAA#64), (15#7, 1#64), (16#7, 2#64)] s0) 14#7 = some
    ⟨0xAAAA#64, false⟩ := by decide +kernel
theorem test_A23 : handler .i 0x1000101e000#41 s0 = some 0x5400#64 := by decide +kernel
theorem test_A30 : prs .m 0x1803901e180#41 (withGrs [(15#7, 0xFFFFFFFFFFFFFFFF#64), (16#7, 0x1#64)] s0) = some (true,
    false) := by decide +kernel
theorem test_A31 : prs .m 0x1a03901e180#41 (withGrs [(15#7, 0xFFFFFFFFFFFFFFFF#64), (16#7, 0x1#64)] s0) = some (false,
    true) := by decide +kernel
theorem test_A32 : prs .m 0x1803901e180#41 (withGrs [(16#7, 0x1#64)] (withNat 15#7 s0)) = some (false, false) := by
    decide +kernel
theorem test_A33 : prs .m 0x1c03901f188#41 (withPrs [(6#6, true), (7#6, true)] s0) = some (false, false) := by
    decide +kernel
theorem test_A34 : prs .m 0x1c03901f188#41 (withPrs [(8#6, true)] (withGrs [(15#7, 0x7#64), (16#7, 0x7#64)] s0)) =
    some (true, false) := by decide +kernel
theorem test_A35 : prs .m 0x1823901e180#41 (withPrs [(6#6, true), (7#6, true)] (withGrs [(15#7, 0x1#64), (16#7,
    0x2#64)] s0)) = some (false, false) := by decide +kernel
theorem test_A36 : prs .m 0x1823901e180#41 (withPrs [(6#6, true), (7#6, true)] (withGrs [(15#7, 0x2#64), (16#7,
    0x2#64)] s0)) = some (true, true) := by decide +kernel
theorem test_A37 : prs .m 0x1a23901e180#41 (withGrs [(15#7, 0x2#64), (16#7, 0x2#64)] s0) = some (true, true) := by
    decide +kernel
theorem test_A38 : prs .m 0x1c23901f180#41 (withPrs [(7#6, true)] (withGrs [(15#7, 0x1#64), (16#7, 0x2#64)] s0)) =
    some (true, false) := by decide +kernel
theorem test_A39 : prs .m 0x1843901e180#41 (withGrs [(15#7, 0x80000000#64), (16#7, 0x0#64)] s0) = some (true, false)
    := by decide +kernel
theorem test_A40 : prs .m 0x1803901e180#41 (withGrs [(15#7, 0x80000000#64), (16#7, 0x0#64)] s0) = some (false, true)
    := by decide +kernel
theorem test_A41 : prs .m 0x1d838ffe180#41 (withGrs [(15#7, 0xFFFFFFFFFFFFFFFF#64)] s0) = some (true, false) := by
    decide +kernel
theorem test_A42 : prs .m 0x1b838ffe180#41 (withGrs [(15#7, 0x5#64)] s0) = some (false, true) := by decide +kernel
theorem test_A43 : prs .m 0x19038f00180#41 (withPrs [(6#6, true), (7#6, true)] (withGrs [(15#7, 0x5#64)] s0)) = some
    (false, false) := by decide +kernel
theorem test_A44 : handler .m 0x1c03101e180#41 s0 = some 0x5400#64 := by decide +kernel
theorem test_I1 : gr .i 0x0f220f20380#41 (withGrs [(15#7, 0x8000000000000000#64), (16#7, 0x4#64)] s0) 14#7 = some
    ⟨0xF800000000000000#64, false⟩ := by decide +kernel
theorem test_I2 : gr .i 0x0f220f20380#41 (withGrs [(15#7, 0x8000000000000000#64), (16#7, 0x40#64)] s0) 14#7 = some
    ⟨0xFFFFFFFFFFFFFFFF#64, false⟩ := by decide +kernel
theorem test_I3 : gr .i 0x0f200f20380#41 (withGrs [(15#7, 0x8000000000000000#64), (16#7, 0x4#64)] s0) 14#7 = some
    ⟨0x800000000000000#64, false⟩ := by decide +kernel
theorem test_I4 : gr .i 0x0f200f20380#41 (withGrs [(15#7, 0x8000000000000000#64), (16#7, 0x64#64)] s0) 14#7 = some
    ⟨0x0#64, false⟩ := by decide +kernel
theorem test_I5 : gr .i 0x0f24101e380#41 (withGrs [(15#7, 0x1#64), (16#7, 0x3F#64)] s0) 14#7 = some
    ⟨0x8000000000000000#64, false⟩ := by decide +kernel
theorem test_I6 : gr .i 0x0f24101e380#41 (withGrs [(15#7, 0xFFFFFFFFFFFFFFFF#64), (16#7, 0x40#64)] s0) 14#7 = some
    ⟨0x0#64, false⟩ := by decide +kernel
theorem test_I7 : gr .i 0x0ac4101e380#41 (withGrs [(15#7, 0x1122334455667788#64), (16#7, 0x99AABBCCDDEEFF00#64)] s0)
    14#7 = some ⟨0x8899AABBCCDDEEFF#64, false⟩ := by decide +kernel
theorem test_I8 : gr .i 0x0a438ff2380#41 (withGrs [(15#7, 0xA000000000000000#64)] s0) 14#7 = some
    ⟨0xFFFFFFFFFFFFFFFA#64, false⟩ := by decide +kernel
theorem test_I9 : gr .i 0x0a478f20380#41 (withGrs [(15#7, 0x123456789ABCDEF0#64)] s0) 14#7 = some ⟨0xBCDE#64, false⟩
    := by decide +kernel
theorem test_I10 : gr .i 0x0a5d8f12380#41 (withGrs [(15#7, 0x8000000000000010#64)] s0) 14#7 = some
    ⟨0xF800000000000001#64, false⟩ := by decide +kernel
theorem test_I11 : gr .i 0x0a67b71e380#41 (withGrs [(15#7, 0x123456789ABCDEF0#64)] s0) 14#7 = some ⟨0xDEF000#64,
    false⟩ := by decide +kernel
theorem test_I12 : gr .i 0x0a63831e380#41 (withGrs [(15#7, 0xAB#64)] s0) 14#7 = some ⟨0xB000000000000000#64, false⟩ :=
    by decide +kernel
theorem test_I13 : gr .i 0x0b63fbfe380#41 (withGrs [] s0) 14#7 = some ⟨0xFF0#64, false⟩ := by decide +kernel
theorem test_I14 : gr .i 0x0be18fdc380#41 (withGrs [(15#7, 0x0#64)] s0) 14#7 = some ⟨0xF00#64, false⟩ := by
    decide +kernel
theorem test_I15 : gr .i 0x08ff901e380#41 (withGrs [(15#7, 0xABCD1234#64), (16#7, 0xFFFFFFFFFFFFFFFF#64)] s0) 14#7 =
    some ⟨0xFFFF1234FFFFFFFF#64, false⟩ := by decide +kernel
theorem test_I37 : gr .i 0x000a0f00380#41 (withGrs [(15#7, 0x80#64)] s0) 14#7 = some ⟨0xFFFFFFFFFFFFFF80#64, false⟩ :=
    by decide +kernel
theorem test_I38 : gr .i 0x000b0f00380#41 (withGrs [(15#7, 0x80000000#64)] s0) 14#7 = some ⟨0xFFFFFFFF80000000#64,
    false⟩ := by decide +kernel
theorem test_I39 : gr .i 0x00088f00380#41 (withGrs [(15#7, 0x123456789ABCDEF0#64)] s0) 14#7 = some ⟨0xDEF0#64, false⟩
    := by decide +kernel
theorem test_I40 : gr .i 0x000c0f00380#41 (withGrs [(15#7, 0x1122330055667700#64)] s0) 14#7 = some ⟨0x3#64, false⟩ :=
    by decide +kernel
theorem test_I41 : gr .i 0x000c0f00380#41 (withGrs [(15#7, 0x1122334455667788#64)] s0) 14#7 = some ⟨0x8#64, false⟩ :=
    by decide +kernel
theorem test_I42 : gr .i 0x000e8f00380#41 (withGrs [(15#7, 0x112233445566#64)] s0) 14#7 = some ⟨0x3#64, false⟩ := by
    decide +kernel
theorem test_I16 : prs .i 0x0a038ffc180#41 (withGrs [(15#7, 0x8000000000000000#64)] s0) = some (false, true) := by
    decide +kernel
theorem test_I17 : prs .i 0x0a238f01180#41 (withGrs [(15#7, 0x1#64)] s0) = some (true, true) := by decide +kernel
theorem test_I18 : prs .i 0x0a038f02180#41 (withNat 15#7 s0) = some (false, true) := by decide +kernel
theorem test_I19 : prs .i 0x0a038f02180#41 (withGrs [(15#7, 0x5#64)] s0) = some (true, false) := by decide +kernel
theorem test_I21 : (run .i 0x01003ffffc0#41 (psrS (0x2000#64) s0)).map (fun t => (t.lp.ip, t.lp.cr.iim)) = some
    (0x2C00#64, 0x1FFFFF#64) := by decide +kernel
theorem test_I24 : (run .i 0x0020001e100#41 (at_ 0x1000#64 1#2 (withNat 15#7 s0))).map (fun t => (t.lp.ip, t.lp.ri)) =
    some (0x1040#64, 0#2) := by decide +kernel
theorem test_I25 : (run .i 0x0020001e100#41 (at_ 0x1000#64 1#2 s0)).map (fun t => (t.lp.ip, t.lp.ri)) = some
    (0x1000#64, 2#2) := by decide +kernel
theorem test_I26 : (run .i 0x013fff1ff80#41 (at_ 0x1000#64 1#2 (withNat 15#7 s0))).map (·.lp.ip) = some 0xFE0#64 := by
    decide +kernel
theorem test_I27 : (run .i 0x00e0001e180#41 (withGrs [(15#7, 0x20000#64)] s0)).map (·.lp.br? 6#3) = some 0x20000#64 :=
    by decide +kernel
theorem test_I28 : handler .i 0x00e0001e180#41 (withNat 15#7 s0) = some 0x5600#64 := by decide +kernel
theorem test_I30 : (run .i 0x0160001efc0#41 (withGrs [(15#7, 0xFFFFFFFFFFFFFFFF#64)] s0)).map (·.lp.pr) = some
    0xFFFFFFFFFFFF007F#64 := by decide +kernel
theorem test_I31 : (run .i 0x016ff01ffc0#41 (withPrs [(6#6, true)] s0)).map (·.lp.pr) = some 1#64 := by decide +kernel
theorem test_I32 : gr .i 0x00198000380#41 (withPrs [(6#6, true)] s0) 14#7 = some ⟨0x41#64, false⟩ := by decide +kernel
theorem test_I33 : gr .i 0x00180000380#41 (at_ 0x10020#64 2#2 s0) 14#7 = some ⟨0x10020#64, false⟩ := by decide +kernel
theorem test_I34 : (run .i 0x00054106000#41 s0).map (·.lp.ar.lc) = some 3#64 := by decide +kernel
theorem test_I35 : (run .i 0x0015421e000#41 (withGrs [(15#7, 0xC5#64)] s0)).map (·.lp.ar.ec) = some 5#6 := by
    decide +kernel
theorem test_M1 : gr .m 0x08000f00380#41 (withGrs [(15#7, 0x2000#64)] sMem) 14#7 = some ⟨0x88#64, false⟩ := by
    decide +kernel
theorem test_M2 : gr .m 0x08040f00380#41 (withGrs [(15#7, 0x2000#64)] sMem) 14#7 = some ⟨0x7788#64, false⟩ := by
    decide +kernel
theorem test_M3 : gr .m 0x08080f00380#41 (withGrs [(15#7, 0x2004#64)] sMem) 14#7 = some ⟨0x11223344#64, false⟩ := by
    decide +kernel
theorem test_M4 : gr .m 0x080c0f00380#41 (withGrs [(15#7, 0x2008#64)] sMem) 14#7 = some ⟨0x123456789ABCDEF0#64, false⟩
    := by decide +kernel
theorem test_M13 : gr .m 0x085c0f00380#41 (withGrs [(15#7, 0x2000#64)] sMem) 14#7 = some ⟨0x1122334455667788#64,
    false⟩ := by decide +kernel
theorem test_M15 : gr .m 0x08080f00380#41 (withGrs [(15#7, 0x2001#64)] sMem) 14#7 = some ⟨0x44556677#64, false⟩ := by
    decide +kernel
theorem test_M5 : (run .m 0x0b0c8ff0380#41 (withGrs [(15#7, 0x2008#64)] sMem)).map (fun t => ((t.lp.gr? 14#7).val,
    (t.lp.gr? 15#7).val)) = some (0x123456789ABCDEF0#64, 0x2000#64) := by decide +kernel
theorem test_M6 : (run .m 0x090c0f20380#41 (withGrs [(15#7, 0x2000#64), (16#7, 0x100#64)] sMem)).map (fun t =>
    ((t.lp.gr? 14#7).val, (t.lp.gr? 15#7).val)) = some (0x1122334455667788#64, 0x2100#64) := by decide +kernel
theorem test_M8 : handler .m 0x080c0f00380#41 (withNat 15#7 sMem) = some 0x5600#64 := by decide +kernel
theorem test_M9 : gr .m 0x081c0f00380#41 (withNat 15#7 sMem) 14#7 = some ⟨0#64, true⟩ := by decide +kernel
theorem test_M10 : (run .m 0x082c0f00380#41 (withGrs [(15#7, 0x2000#64)] sMem)).map (fun t => t.lp.alat.map fun e =>
    (e.fp, e.pa, e.size)) = some [(false, 0x2000, 8)] := by decide +kernel
theorem test_M12 : gr .m 0x088c0f00380#41 (withGrs [(15#7, 0x2008#64)] sMem) 14#7 = some ⟨0x123456789ABCDEF0#64,
    false⟩ := by decide +kernel
theorem test_M14 : (run .m 0x080c0f00380#41 (withGrs [(15#7, 0x2004#64)] (psrS (0x2000#64) sMem))).map (fun t =>
    (t.lp.ip, t.lp.cr.ifa)) = some (0x5A00#64, 0x2004#64) := by decide +kernel
theorem test_M16 : handler .m 0x08080f00380#41 (withGrs [(15#7, 0x2001#64)] (psrS (8#64) sMem)) = some 0x5A00#64 := by
    decide +kernel
theorem test_M17 : bytes 0x08c00f20000#41 (withGrs [(15#7, 0x2000#64), (16#7, 0x1AB#64)] sMem) 0x2000 1 = some 0xAB :=
    by decide +kernel
theorem test_M18 : bytes 0x08c80f20000#41 (withGrs [(15#7, 0x2000#64), (16#7, 0xAABBCCDD01020304#64)] sMem) 0x2000 8 =
    some 0x1122334401020304 := by decide +kernel
theorem test_M19 : bytes 0x08cc0f20000#41 (withGrs [(15#7, 0x2008#64), (16#7, 0x102030405060708#64)] sMem) 0x2008 8 =
    some 0x102030405060708 := by decide +kernel
theorem test_M20 : (run .m 0x0acc0f20200#41 (withGrs [(15#7, 0x2000#64)] sMem)).map (fun t => (readLE t.mem 0x2000 8,
    (t.lp.gr? 15#7).val)) = some (0, 0x2008#64) := by decide +kernel
theorem test_M21 : (run .m 0x08cc0f20000#41 (withNat 16#7 (withGrs [(15#7, 0x2000#64)] sMem))).map (fun t => (t.lp.ip,
    readLE t.mem 0x2000 8)) = some (0x5600#64, 0x1122334455667788) := by decide +kernel
theorem test_M23 : (run .m 0x08ec0f20000#41 (withNat 16#7 (withGrs [(15#7, 0x2008#64)] sMem))).map (fun t =>
    (t.lp.ar.unat, readLE t.mem 0x2008 8)) = some (2#64, 0) := by decide +kernel
theorem test_M24 : gr .m 0x086c0f00380#41 (withGrs [(15#7, 0x2008#64)] (arS (fun a => { a with unat := 2#64 }) sMem))
    14#7 = some ⟨0x123456789ABCDEF0#64, true⟩ := by decide +kernel
theorem test_M26 : (run .m 0x0cb00f00000#41 (withGrs [(15#7, 0x2000#64)] sMem)).map (fun t => (t.mem == sMem.mem,
    t.lp.ev.vector)) = some (true, none) := by decide +kernel
theorem test_M30 : (run .m 0x081c8f20380#41 (withGrs [(15#7, 0x2000#64), (16#7, 0x1#64)] (arS (fun a => { a with ccv
    := 0x1122334455667788#64 }) sMem))).map (fun t => ((t.lp.gr? 14#7).val, readLE t.mem 0x2000 8)) = some
    (0x1122334455667788#64, 0x1) := by decide +kernel
theorem test_M31 : (run .m 0x081c8f20380#41 (withGrs [(15#7, 0x2000#64), (16#7, 0x1#64)] (arS (fun a => { a with ccv
    := 0x0#64 }) sMem))).map (fun t => ((t.lp.gr? 14#7).val, readLE t.mem 0x2000 8)) = some (0x1122334455667788#64,
    0x1122334455667788) := by decide +kernel
theorem test_M32 : (run .m 0x08088f20380#41 (withGrs [(15#7, 0x2000#64), (16#7, 0xFFFFFFFF00000009#64)] (arS (fun a =>
    { a with ccv := 0xAAAAAAAA55667788#64 }) sMem))).map (fun t => ((t.lp.gr? 14#7).val, readLE t.mem 0x2000 8)) =
    some (0x55667788#64, 0x1122334400000009) := by decide +kernel
theorem test_M33 : (run .m 0x082c8f20380#41 (withGrs [(15#7, 0x2000#64), (16#7, 0x7#64)] sMem)).map (fun t =>
    ((t.lp.gr? 14#7).val, readLE t.mem 0x2000 8)) = some (0x1122334455667788#64, 0x7) := by decide +kernel
theorem test_M34 : (run .m 0x084c8f0e380#41 (withGrs [(15#7, 0x2000#64)] sMem)).map (fun t => ((t.lp.gr? 14#7).val,
    readLE t.mem 0x2000 8)) = some (0x1122334455667788#64, 0x1122334455667787) := by decide +kernel
theorem test_M35 : (run .m 0x084c8f00380#41 (withGrs [(15#7, 0x2000#64)] sMem)).map (fun t => ((t.lp.gr? 14#7).val,
    readLE t.mem 0x2000 8)) = some (0x1122334455667788#64, 0x1122334455667798) := by decide +kernel
theorem test_M36 : (run .m 0x08588f04380#41 (withGrs [(15#7, 0x2000#64)] sMem)).map (fun t => ((t.lp.gr? 14#7).val,
    readLE t.mem 0x2000 8)) = some (0x55667788#64, 0x112233445566778C) := by decide +kernel
theorem test_M37 : handler .m 0x082c8f20380#41 (withGrs [(15#7, 0x2004#64)] sMem) = some 0x5A00#64 := by decide +kernel
theorem test_M40 : (run .m 0x0220001e0c0#41 (at_ 0x1000#64 0#2 (withNat 15#7 s0))).map (·.lp.ip) = some 0x1030#64 :=
    by decide +kernel
theorem test_M41 : (run .m 0x00a00002380#41 (at_ 0x1000#64 0#2 s0)).map (·.lp.ip) = some 0x1010#64 := by decide +kernel
theorem test_M43 : (run .m 0x00080000000#41 { s0 with lp := { s0.lp with alat := [⟨false, 14, 0x2000, 8⟩] } }).map
    (·.lp.alat) = some [] := by decide +kernel
theorem test_M50 : (run .m 0x02c00510800#41 (arS (fun a => { a with pfs := 0x77#64 }) s0)).map (fun t => (t.lp.gr?
    32#7, t.lp.cfm)) = some (⟨0x77#64, false⟩, 0x288#38) := by decide +kernel
theorem test_M51 : (run .m 0x02c08810880#41 s0).map (·.lp.cfm) = some 0x4408#38 := by decide +kernel
theorem test_M52 : (run .m 0x0215201e000#41 (withGrs [(15#7, 5#64)] s0)).map (·.lp.ar.ccv) = some 5#64 := by
    decide +kernel
theorem test_M53 : gr .m 0x02112c00380#41 { s0 with itc := 0x55#64 } 14#7 = some ⟨0x55#64, false⟩ := by decide +kernel
theorem test_M55 : (run .m 0x0216421e000#41 (withGrs [(15#7, 0xC0#64)] s0)).map (·.lp.cr.tpr) = some 0xC0#64 := by
    decide +kernel
theorem test_M56 : (run .m 0x0216491e000#41 (withGrs [(15#7, 0xD2#64)] s0)).map (·.lp.cr.pmv) = some 0xD2#64 := by
    decide +kernel
theorem test_M57 : handler .m 0x0216491e000#41 (psrS (0x300000000#64) s0) = some 0x5400#64 := by decide +kernel
theorem test_M58 : (run .m 0x02124100380#41 (crS (fun c => { c with irr := 1#256 <<< 0xD2 }) s0)).map (fun t =>
    ((t.lp.gr? 14#7).val, t.lp.cr.irr, t.lp.cr.inService)) = some (0xD2#64, 0#256, 1#256 <<< 0xD2) := by
    decide +kernel
theorem test_M60 : (run .m 0x02020e1e000#41 (withGrs [(14#7, 4#64), (15#7, 0x200080F#64)] s0)).map (fun t => pmcAt
    t.lp.pmu 4) = some 0x200080F#64 := by decide +kernel
theorem test_M61 : (run .m 0x02028e1e000#41 (withGrs [(14#7, 4#64), (15#7, 0x7FFFFFFFFC18#64)] s0)).map (fun t =>
    pmdAt t.lp.pmu 4) = some 0x7FFFFFFFFC18#64 := by decide +kernel
theorem test_M64 : gr .m 0x020a0e00400#41 (withGrs [(14#7, 20#64)] s0) 16#7 = some ⟨0#64, false⟩ := by decide +kernel
theorem test_M65 : handler .m 0x02020e1e000#41 (withGrs [(14#7, 4#64)] (psrS (0x300000000#64) s0)) = some 0x5400#64 :=
    by decide +kernel
theorem test_M67 : (run .m 0x00020000100#41 s0).map (·.lp.psrBit 2) = some true := by decide +kernel
theorem test_M68 : (run .m 0x00028000100#41 (psrS (4#64) s0)).map (·.lp.psrBit 2) = some false := by decide +kernel
theorem test_M69 : (run .m 0x000b0000000#41 s0).map (·.lp.psrBit 21) = some true := by decide +kernel
theorem test_M70 : (run .m 0x00038100000#41 (psrS (0x4000#64) s0)).map (·.lp.psrBit 14) = some false := by
    decide +kernel
theorem test_M74 : (run .m 0x0c70801e180#41 (withGrs [(15#7, 0x123456789ABCDEF0#64)] s0)).map (·.lp.fr? 6#7) = some
    (0#1 ++ 0x1003E#17 ++ 0x123456789ABCDEF0#64) := by decide +kernel
theorem test_M75 : gr .m 0x0870800c380#41 (s0.setFr 6#7 (0#1 ++ 0x1003E#17 ++ 0x123456789ABCDEF0#64)) 14#7 = some
    ⟨0x123456789ABCDEF0#64, false⟩ := by decide +kernel
theorem test_B1 : (run .b 0x08000004000#41 (at_ 0x1000#64 1#2 s0)).map (fun t => (t.lp.ip, t.lp.ri)) = some
    (0x1020#64, 0#2) := by decide +kernel
theorem test_B2 : (run .b 0x091ffffe006#41 (withPrs [(6#6, true)] (at_ 0x1000#64 1#2 s0))).map (fun t => (t.lp.ip,
    t.lp.ri)) = some (0xFF0#64, 0#2) := by decide +kernel
theorem test_B3 : (run .b 0x091ffffe006#41 (at_ 0x1000#64 2#2 s0)).map (fun t => (t.lp.ip, t.lp.ri)) = some
    (0x1010#64, 0#2) := by decide +kernel
theorem test_B4 : (run .b 0x091ffffe140#41 (at_ 0x1000#64 2#2 (cfmS (0#38) (arS (fun a => { a with lc := 2#64 })
    s0)))).map (fun t => (t.lp.ip, t.lp.ar.lc)) = some (0xFF0#64, 1#64) := by decide +kernel
theorem test_B5 : (run .b 0x091ffffe140#41 (at_ 0x1000#64 2#2 (cfmS (0#38) (arS (fun a => { a with lc := 0#64 })
    s0)))).map (fun t => (t.lp.ip, t.lp.ar.lc)) = some (0x1010#64, 0#64) := by decide +kernel
theorem test_B7 : (run .b 0x091ffffe1c0#41 (at_ 0x1000#64 2#2 (cfmS (mkCfm 8 8 1 0 0 0) (arS (fun a => { a with ec :=
    2#6 }) s0)))).map (fun t => (t.lp.ip, t.lp.ar.ec, t.lp.cfm)) = some (0xFF0#64, 1#6, mkCfm 8 8 1 7 95 47) := by
    decide +kernel
theorem test_B8 : (run .b 0x091ffffe1c0#41 (at_ 0x1000#64 2#2 (cfmS (mkCfm 8 8 1 0 0 0) (arS (fun a => { a with ec :=
    1#6 }) s0)))).map (fun t => (t.lp.ip, t.lp.ar.ec)) = some (0x1010#64, 0#6) := by decide +kernel
theorem test_B9 : (run .b 0x0a000020000#41 (at_ 0x1000#64 2#2 sFrame)).map (fun t => (t.lp.br? 0#3, t.lp.ar.pfs,
    t.lp.cfm, (t.lp.gr? 32#7).val, t.lp.ip)) = some (0x1010#64, 0x0030000000000288#64, 3#38, 77#64, 0x1100#64) := by
    decide +kernel
theorem test_B10 : (run .b 0x00108000100#41 (sCallee)).map (fun t => (t.lp.ip, t.lp.cfm, t.lp.ar.ec, t.lp.gr.bof)) =
    some (0x1010#64, 0x288#38, 3#6, 0) := by decide +kernel
theorem test_B11 : (run .b 0x0010000c000#41 (s0.setBr 6#3 0x20005#64)).map (fun t => (t.lp.ip, t.lp.ri)) = some
    (0x20000#64, 0#2) := by decide +kernel
theorem test_B12 : (run .b 0x00000000140#41 (psrS (0x2000#64) s0)).map (fun t => (t.lp.ip, t.lp.cr.iim)) = some
    (0x2C00#64, 0#64) := by decide +kernel
theorem test_B14 : (run .b 0x00040000000#41 (crS (fun c => { c with ipsr := 0x20000000000#64, iip := 0x10000#64 })
    s0)).map (fun t => (t.lp.ip, t.lp.ri)) = some (0x10000#64, 1#2) := by decide +kernel
theorem test_B15 : handler .b 0x00040000000#41 (psrS (0x300000000#64) s0) = some 0x5400#64 := by decide +kernel
theorem test_B16 : (run .b 0x00010000000#41 (cfmS (8#38) s0)).map (fun t => (t.lp.cr.ifs, t.lp.cfm, t.lp.gr.ndirty)) =
    some (0x8000000000000008#64, 0#38, 8) := by decide +kernel
theorem test_B17 : (run .b 0x00060000000#41 (psrS (1#64 <<< 44) s0)).map (·.lp.psrBit 44) = some false := by
    decide +kernel
theorem test_B18 : (run .b 0x00080000000#41 { s0 with lp := { s0.lp with psr := 0x300000000#64, ar := { s0.lp.ar with
    pfs := 3#64 <<< 62 } } }).map (·.lp.cpl) = some 0#2 := by decide +kernel
theorem test_B19 : (run .b 0x00020000000#41 (cfmS (mkCfm 8 8 1 5 2 9) s0)).map (·.lp.cfm) = some (mkCfm 8 8 1 0 0 0)
    := by decide +kernel
theorem test_F4 : (run .f 0x0008080e180#41 ((s0.setFr 7#7 (1#1 ++ 0xFFFF#17 ++ 0x8000000000000000#64)).setFr 8#7 (0#1
    ++ 0x10000#17 ++ 0x8000000000000000#64))).map (·.lp.fr? 6#7) = some (1#1 ++ 0x10000#17 ++ 0x8000000000000000#64)
    := by decide +kernel
theorem test_F5 : (run .f 0x0008870e180#41 (s0.setFr 7#7 (0#1 ++ 0x10000#17 ++ 0x8000000000000000#64))).map (·.lp.fr?
    6#7) = some (1#1 ++ 0x10000#17 ++ 0x8000000000000000#64) := by decide +kernel
/-- the integer -1 before normalization (log 18) -/
theorem test_F6 : (run .f 0x000e000e180#41 (s0.setFr 7#7 (0#1 ++ 0x1003E#17 ++ 0xFFFFFFFFFFFFFFFF#64))).map (·.lp.fr?
    6#7) = some (1#1 ++ 0x1003E#17 ++ 1#64) := by decide +kernel
theorem test_F8 : handler .f 0x10040712180#41 (psrS (0x40000#64) s0) = some 0x5500#64 := by decide +kernel
theorem test_F9 : (run .f 0x10040712180#41 (s0.setFr 7#7 natVal)).map (·.lp.fr? 6#7) = some natVal := by decide +kernel
theorem test_X1 : (run .x 0x0dc0c200380#41 s0 0x0000fffeffa#41).map (·.lp.gr? 14#7) = some ⟨0x8003FFFBFEB0C080#64,
    false⟩ := by decide +kernel
theorem test_X2 : (run .x 0x0dfffefe380#41 s0 0x1ffffffffff#41).map (·.lp.gr? 14#7) = some ⟨0xFFFFFFFFFFFFFFFF#64,
    false⟩ := by decide +kernel
theorem test_X3 : (run .x 0x0c004000380#41 s0 0x00000000000#41).map (·.lp.gr? 14#7) = some ⟨0x100000#64, false⟩ := by
    decide +kernel
theorem test_X4 : (run .x 0x0cdef2e0380#41 s0 0x048d159e26a#41).map (·.lp.gr? 14#7) = some ⟨0x123456789ABCDEF0#64,
    false⟩ := by decide +kernel
theorem test_U5 : (run .m 0x08cc0f20000#41 (withGrs [(15#7, 0x8003FFFBFEB0FA00#64), (16#7, 0x43#64)] s0)).map (fun t
    => (t.uncore.rbox.frozen, (t.uncore.b 1).ctl0.getLsbD 32)) = some (true, true) := by decide +kernel
theorem test_E1_registers : (run .i 0x0000048d140#41 sE1).map (fun t => (t.lp.cr.iip, t.lp.cr.ipsr, t.lp.cr.iipa,
    t.lp.cr.iim, t.lp.cr.isr)) = some (0x10000#64, psrE1, 0x10000#64, 0x12345#64, 0x20000000000#64) := by
    decide +kernel
theorem test_E1_status : (run .i 0x0000048d140#41 sE1).map (fun t => (t.lp.ip, t.lp.psr, t.lp.cr.iib0, t.lp.cr.iib1))
    = some (0x82C00#64, 0x1008020000#64, 0x3450000100000000#64, 0x0004000000000012#64) := by decide +kernel
theorem test_E2 : (deliver externalInterrupt 0#2 sE1).lp.ip = 0x83000#64 ∧ (deliver externalInterrupt 0#2
    sE1).lp.cr.iib0 = 0#64 := by decide +kernel

/-! ## A step, and the words of the table -/

/-- The word of `nop.i` as the first instruction after reset, in slot 1 (30 R453, log 22). -/
theorem test_step_nop : (match step (State.reset.withFetchWord 41 0x8000000) with
    | .next t => decide (t.lp.ri = 2#2) && t.lp.ev.vector.isNone
    | _ => false) = true := by decide +kernel
/-- The word of `addp4`, and its effect on `r2` (40 R505). -/
theorem test_step_addp4 : (match step ((withGrs [(3#7, 7#64), (4#7, 8#64)] s0).withFetchWord 41 0x10040406080) with
    | .next t => decide (t.lp.gr? 2#7 = ⟨15#64, false⟩)
    | _ => false) = true := by decide +kernel
theorem test_table_word : decodeTableWord 41 0x10040406080 = some (.addp4 { r1 := 2#7, r2 := 3#7, r3 := 4#7, qp := 0#6 }) := by
  decide +kernel

/-! ## The hypotheses of the statements are met

One theorem for each statement that has hypotheses: states and operands that meet those of each clause, at the ends of the
ranges. -/

/-- A frame of 96 registers, so that `r127` is its last; one of 95; a frame of 96 with `r31` and `r127` NaT. -/
def full : State := cfmS (mkCfm 96 0 0 0 0 0) s0
def short : State := cfmS (mkCfm 95 0 0 0 0 0) s0
def nats : State := withNat 31#7 (withNat 127#7 full)
/-- The full frame at privilege level 3, and with `PSR.ic` 1. -/
def user : State := psrS (3#64 <<< 32) full
def icOn : State := psrS 0x2000#64 full
/-- The full frame with a value in `r31`, and one in `r30`. -/
def v31 (w : Word) : State := withGrs [(31#7, w)] full
def v30 (w x : Word) : State := withGrs [(31#7, w), (30#7, x)] full
/-- An ALAT entry of `r127`, and one of `f127`, added. -/
def withEntry (fp : Bool) (s : State) : State :=
  { s with lp := { s.lp with alat := [⟨fp, s.lp.alatKey fp 127#7, 0, 8⟩] } }
/-- A floating-point register that is NaTVal; the traps of `AR.FPSR` off. -/
def fpNat (s : State) : State := s.setFr 127#7 natVal
def noTraps (s : State) : State := arS (fun a => { a with fpsr := 0x3F#64 }) s

/-- The hypotheses of a register result: the predicate, the destination, two sources, no trap. -/
def On2 (s : State) (qp : BitVec 6) (r1 r2 r3 : BitVec 7) : Prop :=
  s.lp.readPr qp = true ∧ s.lp.grWritable r1 = true ∧ s.lp.grReadable r2 = true ∧ s.lp.grReadable r3 = true ∧ Untrapped s
/-- A destination that is `r0` or outside the frame. -/
def BadDest (s : State) (qp : BitVec 6) (r1 : BitVec 7) : Prop := s.lp.readPr qp = true ∧ s.lp.grWritable r1 = false
/-- The predicate is 0. -/
def Off (s : State) (qp : BitVec 6) : Prop := s.lp.readPr qp = false ∧ Untrapped s
/-- The predicate is 1 and nothing traps. -/
def Runs (s : State) (qp : BitVec 6) : Prop := s.lp.readPr qp = true ∧ Untrapped s
/-- The hypotheses of the four clauses of a compare of two registers. -/
def CmpMet (ct : CType) (p1 p2 : BitVec 6) (r2 r3 : BitVec 7) : Prop :=
  (full.lp.readPr 0#6 = true ∧ p1 ≠ p2 ∧ (full.lp.grReadable r2 = true ∧ full.lp.grReadable r3 = true) ∧ Untrapped full)
  ∧ ((full.lp.readPr 0#6 = true ∨ ct = .unc) ∧ p1 = p1)
  ∧ (ct = .unc → (full.lp.readPr 63#6 = true ∨ ct = .unc) ∧ full.lp.readPr 63#6 = false ∧ p1 ≠ p2 ∧ Untrapped full)
  ∧ (ct ≠ .unc → Off full 63#6)
/-- The hypotheses of an integer load. -/
def LoadMet (s : State) (r1 r3 : BitVec 7) (inc : Inc) (f : LoadForm) (n : Nat) : Prop :=
  LoadReady s 0#6 r1 r3 inc ∧ (s.lp.gr? r3).nat = false ∧ PlainData s (s.lp.gr? r3).val n
    ∧ (f.spec = true → s.lp.psrBit 43 = false) ∧ (f.check = true → NoEntry s false r1)
/-- The hypotheses of a floating-point load. -/
def FpLoadMet (s : State) (f1 r3 : BitVec 7) (inc : Inc) (f : LoadForm) (n : Nat) : Prop :=
  FpLoadReady s 0#6 r3 inc ∧ FrWritable s f1 ∧ PlainData s (s.lp.gr? r3).val n
    ∧ (f.spec = true → s.lp.psrBit 43 = false) ∧ (f.check = true → NoEntry s true f1)
/-- The hypotheses of a semaphore. -/
def SemMet (s : State) (n m : Nat) : Prop :=
  s.lp.readPr 0#6 = true ∧ s.lp.grWritable 127#7 = true ∧ Usable s 31#7 ∧ Usable s 30#7
    ∧ PlainData s (s.lp.gr? 31#7).val n
    ∧ PlainData s (BitVec.ofNat 64 ((s.lp.gr? 31#7).val.toNat - (s.lp.gr? 31#7).val.toNat % m)) m
    ∧ MemoryCanonical s ∧ Untrapped s

/-- A state whose `CR.IFS` holds a frame of 96 registers, all of them dirty. -/
def sIfs : State := (crS (fun c => { c with ifs := 0x8000000000000060#64 }) s0).setGrFile { s0.lp.gr with ndirty := 96 }

/-- A monitor whose counter 4 counts retired instructions at privilege level 0 and is about to overflow; its bit `oi` is 1. -/
def pmuFull : PMU := { PMU.reset with
  pmc := PMU.reset.pmc.setIfInBounds 4 0x2000861#64, pmd := PMU.reset.pmd.setIfInBounds 4 0x7FFFFFFFFFFF#64 }
/-- A nop at address 0. -/
def nopSource : Source := { ip := 0#64, cpl := 0#2, ia32 := false, itype := 0#2, enco := 0#41, data := none, n := 0 }
/-- The monitor of a thread at reset that sees one instruction retire. -/
noncomputable def seen : StepFacts :=
  { before := s0.lp, after := s0.lp, instr := nopSource, long := false, multiway := false, fetchFault := false,
    retired := true, flush := false, rse := [], rseSource := nopSource, levels := (0#2, 0#2), tick := true, switch := none,
    missed := false, featMt := true, mt := false, thread1 := false, ivaOffShift := 8, n := 0 }
/-- A clock in which nothing is captured. -/
def noCapture : Captures := ⟨⟨pmuFull, false, false, false⟩, ⟨PMU.reset, false, false, false⟩⟩
def privileged : LP := { s0.lp with psr := 0x200000#64 }

/-- A bundle of nops in slots M, I and I at address 0; `PSR.i` on with vector 0x20 pending. -/
def nopBundle : Bundle := makeBundle 0x00#5 0x8000000#41 0x8000000#41 0x8000000#41
def sNops : State := { at_ 0x1000#64 0#2 s0 with mem := writeLE [] 0x1000 16 nopBundle.toNat }
def sPending : State := psrS 0x4000#64 (crS (fun c => { c with irr := 1#256 <<< 0x20 }) sNops)
/-- A background thread that was started, is armed and has lost its ALAT entry. -/
def sBefore : State := { s0 with bg := { s0.lp with thr := { s0.lp.thr with armed := true }, alat := [⟨false, 1, 0, 8⟩] } }
def sAfter : State := { sBefore with bg := { sBefore.bg with alat := [] } }
/-- The same threads with a halted foreground thread. -/
def halt (s : State) : State := s.setLp { s.lp with thr := { s.lp.thr with halted := true } }
/-- `AR.BSPSTORE` at an address with `n` dirty registers. -/
def stackAt (a : Word) (n : Nat) : State := arS (fun x => { x with bspstore := a }) (s0.setGrFile { s0.lp.gr with ndirty := n })
/-- A frozen monitor whose registers are all monitored at level 0. -/
def pmuFrozen : PMU := { PMU.reset with
  pmc := (((PMU.reset.pmc.setIfInBounds 0 0x11#64).setIfInBounds 4 0x2000861#64).setIfInBounds 39 1#64).setIfInBounds 40 0x2000001#64 }

/-- A state at the last bundle of the physical address space. -/
def sFar : State := at_ 0x3FFFFFFFFFFF0#64 0#2 s0

/-- Obligations.IntegerArithmetic. -/
theorem witness_IntegerArithmetic :
    On2 full 0#6 127#7 0#7 31#7
    ∧ On2 (withPrs [(63#6, true)] full) 63#6 1#7 127#7 127#7
    ∧ BadDest full 0#6 0#7
    ∧ BadDest short 0#6 127#7
    ∧ Off full 63#6 := by
  and_intros <;> decide +kernel

/-- Obligations.IntegerImmediates. -/
theorem witness_IntegerImmediates :
    On2 full 0#6 127#7 0#7 0#7
    ∧ On2 full 0#6 1#7 127#7 3#7
    ∧ BadDest full 0#6 0#7
    ∧ BadDest short 0#6 127#7
    ∧ Off full 1#6 := by
  and_intros <;> decide +kernel

/-- Obligations.CompareRegisters. -/
theorem witness_CompareRegisters :
    CmpMet .none 0#6 63#6 0#7 127#7
    ∧ CmpMet .unc 63#6 0#6 127#7 0#7
    ∧ CmpMet .and 1#6 2#6 1#7 1#7
    ∧ CmpMet .or 1#6 2#6 1#7 2#7
    ∧ CmpMet .orAndcm 62#6 63#6 1#7 2#7 := by
  and_intros <;> first | decide +kernel | (simp only [Off, Untrapped] <;> decide +kernel)

/-- Obligations.CompareZero. -/
theorem witness_CompareZero :
    CmpMet .and 0#6 63#6 0#7 127#7
    ∧ CmpMet .or 0#6 63#6 0#7 0#7
    ∧ CmpMet .orAndcm 1#6 0#6 0#7 127#7 := by
  and_intros <;> first | decide +kernel | (simp only [Off, Untrapped] <;> decide +kernel)

/-- Obligations.CompareImmediates. -/
theorem witness_CompareImmediates :
    CmpMet .none 0#6 63#6 0#7 127#7
    ∧ CmpMet .unc 63#6 0#6 0#7 0#7
    ∧ CmpMet .and 1#6 2#6 0#7 1#7
    ∧ CmpMet .or 1#6 2#6 0#7 2#7
    ∧ CmpMet .orAndcm 62#6 63#6 0#7 2#7 := by
  and_intros <;> first | decide +kernel | (simp only [Off, Untrapped] <;> decide +kernel)

/-- Obligations.ParallelArithmetic: every element width with its last element, the counts 1 and 4. -/
theorem witness_ParallelArithmetic :
    On2 full 0#6 127#7 0#7 31#7
    ∧ On2 (withPrs [(63#6, true)] full) 63#6 1#7 127#7 127#7
    ∧ BadDest full 0#6 0#7
    ∧ BadDest short 0#6 127#7
    ∧ Off full 63#6
    ∧ (7 < 64 / 8 ∧ 3 < 64 / 16 ∧ 1 < 64 / 32)
    ∧ (1 ≤ 1 ∧ 4 ≤ 4 ∧ 3 < 4) := by
  and_intros <;> decide +kernel

/-- Obligations.MultimediaOperations. -/
theorem witness_MultimediaOperations :
    7 < 8 ∧
    On2 full 0#6 127#7 0#7 31#7
    ∧ On2 (withPrs [(63#6, true)] full) 63#6 1#7 127#7 127#7
    ∧ BadDest full 0#6 0#7
    ∧ BadDest short 0#6 127#7
    ∧ Off full 63#6
    ∧ OpPmpyshr.wellFormed { qp := 0#6, r1 := 1#7, r2 := 2#7, r3 := 3#7, unsigned := true, count2 := 16#5 } = true
    ∧ OpPmpyshr.wellFormed { qp := 0#6, r1 := 1#7, r2 := 2#7, r3 := 3#7, unsigned := false, count2 := 0#5 } = true
      := by
  and_intros <;> decide +kernel

/-- Obligations.ElementRearrangements: the last element of each width. -/
theorem witness_ElementRearrangements :
    (8, I2Op.mix1l, I2Op.mix1r, I2Op.unpack1h, I2Op.unpack1l) ∈ [(8, I2Op.mix1l, .mix1r, .unpack1h, .unpack1l),
      (16, .mix2l, .mix2r, .unpack2h, .unpack2l), (32, .mix4l, .mix4r, .unpack4h, .unpack4l)]
    ∧ 3 < 64 / 8 / 2 ∧ 1 < 64 / 16 / 2 ∧ 0 < 64 / 32 / 2 := by
  decide

/-- Obligations.ShiftsAndFields. -/
theorem witness_ShiftsAndFields :
    On2 full 0#6 127#7 0#7 31#7
    ∧ On2 full 0#6 1#7 127#7 127#7
    ∧ BadDest full 0#6 0#7
    ∧ BadDest short 0#6 127#7
    ∧ Off full 63#6 := by
  and_intros <;> decide +kernel

/-- Obligations.TestBits. -/
theorem witness_TestBits :
    CmpMet .none 0#6 63#6 0#7 127#7
    ∧ CmpMet .unc 63#6 0#6 0#7 0#7
    ∧ CmpMet .and 1#6 2#6 0#7 1#7
    ∧ CmpMet .or 1#6 2#6 0#7 2#7
    ∧ CmpMet .orAndcm 62#6 63#6 0#7 2#7 := by
  and_intros <;> first | decide +kernel | (simp only [Off, Untrapped] <;> decide +kernel)

/-- Obligations.Extensions. -/
theorem witness_Extensions :
    On2 full 0#6 127#7 0#7 0#7
    ∧ On2 full 0#6 1#7 0#7 127#7
    ∧ BadDest full 0#6 0#7
    ∧ BadDest short 0#6 127#7
    ∧ Off full 63#6 := by
  and_intros <;> decide +kernel

/-- Obligations.BranchAndPredicateMoves. -/
theorem witness_BranchAndPredicateMoves :
    Runs full 0#6
    ∧ Usable full 127#7
    ∧ nats.lp.readPr 0#6 = true
    ∧ (nats.lp.grReadable 127#7 = true ∧ (nats.lp.gr? 127#7).nat = true)
    ∧ On2 full 0#6 127#7 0#7 0#7
    ∧ BadDest full 0#6 0#7
    ∧ Off full 63#6 := by
  and_intros <;> decide +kernel

/-- Obligations.ApplicationRegisters. -/
theorem witness_ApplicationRegisters :
    Runs full 0#6 ∧ Usable full 31#7 ∧ (full.lp.gr? 31#7).val = 0#64
    ∧ (arWritable true 48 full = true ∧ 0#64 &&& arReserved 48 = 0#64 ∧ (arPrivileged 48 = true → full.lp.cpl = 0#2))
    ∧ (arWritable true 64 full = true ∧ 0#64 &&& arReserved 64 = 0#64 ∧ (arPrivileged 64 = true → full.lp.cpl = 0#2))
    ∧ (arWritable true 66 full = true ∧ 0#64 &&& arReserved 66 = 0#64 ∧ (arPrivileged 66 = true → full.lp.cpl = 0#2))
    ∧ (arWritable true 127 full = true ∧ 0#64 &&& arReserved 127 = 0#64 ∧ (arPrivileged 127 = true → full.lp.cpl =
      0#2))
    ∧ (arWritable false 0 full = true ∧ 0#64 &&& arReserved 0 = 0#64 ∧ (arPrivileged 0 = true → full.lp.cpl = 0#2))
    ∧ (arWritable false 7 full = true ∧ 0#64 &&& arReserved 7 = 0#64 ∧ (arPrivileged 7 = true → full.lp.cpl = 0#2))
    ∧ (arWritable false 16 full = true ∧ 0#64 &&& arReserved 16 = 0#64 ∧ (arPrivileged 16 = true → full.lp.cpl = 0#2))
    ∧ (arWritable false 18 full = true ∧ 0#64 &&& arReserved 18 = 0#64 ∧ (arPrivileged 18 = true → full.lp.cpl = 0#2))
    ∧ (arWritable false 19 full = true ∧ 0#64 &&& arReserved 19 = 0#64 ∧ (arPrivileged 19 = true → full.lp.cpl = 0#2))
    ∧ (arWritable false 45 full = true ∧ 0#64 &&& arReserved 45 = 0#64 ∧ (arPrivileged 45 = true → full.lp.cpl = 0#2))
    ∧ (arWritable false 63 full = true ∧ 0#64 &&& arReserved 63 = 0#64 ∧ (arPrivileged 63 = true → full.lp.cpl = 0#2))
    ∧ (arWritable false 40 user = true ∧ 0x3FFFFFFFFFFFFFF#64 &&& arReserved 40 = 0#64 ∧ (arPrivileged 40 = true →
      user.lp.cpl = 0#2))
    ∧ arWritable true 47 full = false ∧ arWritable true 67 full = false ∧ arWritable true 111 full = false
    ∧ arWritable false 17 full = false ∧ arWritable false 64 full = false ∧ arWritable false 8 full = false
    ∧ arWritable false 18 (arS (fun a => { a with rsc := 1#64 }) full) = false
    ∧ user.lp.readPr 0#6 = true ∧ Usable user 31#7 ∧ user.lp.cpl ≠ 0#2 ∧ Untrapped user
    ∧ arWritable false 0 user = true ∧ arWritable false 7 user = true ∧ arWritable false 44 user = true ∧ arWritable
      false 45 user = true
    ∧ full.lp.grWritable 127#7 = true ∧ arExists 48 = true ∧ arExists 127 = true ∧ arExists 0 = true ∧ arExists 63 =
      true ∧ arExists 17 = true
    ∧ (psrS ((3#64 <<< 32) ||| 0x800000#64) full).lp.psrBit 23 = true ∧ (psrS ((3#64 <<< 32) ||| 0x800000#64)
      full).lp.cpl ≠ 0#2 ∧ (psrS ((3#64 <<< 32) ||| 0x800000#64) full).lp.readPr 0#6 = true
    ∧ arExists 0 = true ∧ arIgnored 0 = false ∧ arExists 65 = true ∧ arIgnored 65 = false ∧ arIgnored 48 = true ∧
      arIgnored 63 = true ∧ arIgnored 112 = true
    ∧ nats.lp.readPr 0#6 = true ∧ nats.lp.grReadable 127#7 = true ∧ (nats.lp.gr? 127#7).nat = true ∧ arWritable false 40 nats = true
    ∧ short.lp.readPr 0#6 = true ∧ short.lp.grReadable 127#7 = false ∧ arWritable true 65 short = true
    ∧ (v31 0x20#64).lp.readPr 0#6 = true ∧ Usable (v31 0x20#64) 31#7 ∧ arWritable false 16 (v31 0x20#64) = true
      ∧ ((v31 0x20#64).lp.gr? 31#7).val &&& arReserved 16 ≠ 0#64
    ∧ arWritable true 64 full = true ∧ (0x80#8).signExtend 64 &&& arReserved 64 ≠ 0#64
    ∧ (0x7F#8).signExtend 64 &&& arReserved 7 = 0#64 ∧ arPrivileged 7 = true
    ∧ full.lp.grWritable 0#7 = false ∧ arExists 8 = false ∧ arExists 111 = false
    ∧ Off full 63#6 := by
  and_intros <;> decide +kernel

/-- Obligations.IntegerLoads. -/
theorem witness_IntegerLoads :
    LoadMet (v31 0x1FFFFFFFFFFFF#64) 127#7 31#7 .none {} 1
    ∧ LoadMet (v31 0x1FFFFFFFFFFFE#64) 127#7 31#7 .none {} 2
    ∧ LoadMet (v31 0x1FFFFFFFFFFFC#64) 127#7 31#7 .none {} 4
    ∧ LoadMet (v31 0x1FFFFFFFFFFF8#64) 127#7 31#7 .none {} 8
    ∧ LoadMet full 1#7 0#7 .none { spec := true } 8
    ∧ LoadMet (v30 8#64 5#64) 127#7 31#7 (.reg 30#7) { adv := true } 8
    ∧ LoadMet (v30 8#64 5#64) 1#7 31#7 (.imm 0x1F8#64) { spec := true, adv := true } 8
    ∧ LoadMet full 127#7 31#7 .none { check := true } 1
    ∧ LoadMet (withEntry false full) 126#7 31#7 (.imm 8#64) { check := true, clr := true } 4
    ∧ LoadReady nats 0#6 1#7 127#7 .none ∧ (nats.lp.gr? 127#7).nat = true
    ∧ LoadReady nats 0#6 1#7 31#7 (.reg 127#7) ∧ (nats.lp.gr? 31#7).nat = true
    ∧ LoadReady (withEntry false full) 0#6 127#7 31#7 .none ∧ ¬ NoEntry (withEntry false full) false 127#7 ∧
      ((withEntry false full).lp.gr? 31#7).nat = false ∧ PlainData (withEntry false full) ((withEntry false
      full).lp.gr? 31#7).val 8
    ∧ LoadReady (v31 0x1FFFFFFFFFFF0#64) 0#6 127#7 31#7 .none ∧ PlainData (v31 0x1FFFFFFFFFFF0#64) ((v31
      0x1FFFFFFFFFFF0#64).lp.gr? 31#7).val 16 := by
  and_intros <;> first | decide +kernel | (simp only [IncOk, NoEntry] <;> decide +kernel)

/-- Obligations.IntegerOperandTraps. -/
theorem witness_IntegerOperandTraps :
    BadDest full 0#6 0#7
    ∧ BadDest short 0#6 127#7
    ∧ (short.lp.grWritable 1#7 = true ∧ short.lp.grWritable 127#7 = false)
    ∧ nats.lp.readPr 0#6 = true ∧ nats.lp.grWritable 1#7 = true ∧ nats.lp.grReadable 127#7 = true ∧ IncOk nats 127#7
      .none ∧ (nats.lp.gr? 127#7).nat = true
    ∧ IncOk nats 127#7 (.reg 31#7) ∧ IncOk nats 31#7 (.imm 0xFFFFFFFFFFFFFF00#64) ∧ (nats.lp.gr? 31#7).nat = true
    ∧ nats.lp.grReadable 0#7 = true ∧ (nats.lp.gr? 0#7).nat = false
    ∧ Off full 63#6 := by
  and_intros <;> first | decide +kernel | (simp only [IncOk] <;> decide +kernel)

/-- Obligations.IntegerStores. -/
theorem witness_IntegerStores :
    FpLoadReady (v31 0x1FFFFFFFFFFFF#64) 0#6 31#7 .none ∧ (v31 0x1FFFFFFFFFFFF#64).lp.grReadable 127#7 = true ∧
      ((v31 0x1FFFFFFFFFFFF#64).lp.gr? 127#7).nat = false ∧ PlainData (v31 0x1FFFFFFFFFFFF#64) ((v31
      0x1FFFFFFFFFFFF#64).lp.gr? 31#7).val 1 ∧ MemoryCanonical (v31 0x1FFFFFFFFFFFF#64)
    ∧ FpLoadReady (v31 0x1FFFFFFFFFFFE#64) 0#6 31#7 .none ∧ (v31 0x1FFFFFFFFFFFE#64).lp.grReadable 127#7 = true ∧
      ((v31 0x1FFFFFFFFFFFE#64).lp.gr? 127#7).nat = false ∧ PlainData (v31 0x1FFFFFFFFFFFE#64) ((v31
      0x1FFFFFFFFFFFE#64).lp.gr? 31#7).val 2 ∧ MemoryCanonical (v31 0x1FFFFFFFFFFFE#64)
    ∧ FpLoadReady (v31 0x1FFFFFFFFFFFC#64) 0#6 31#7 .none ∧ (v31 0x1FFFFFFFFFFFC#64).lp.grReadable 127#7 = true ∧
      ((v31 0x1FFFFFFFFFFFC#64).lp.gr? 127#7).nat = false ∧ PlainData (v31 0x1FFFFFFFFFFFC#64) ((v31
      0x1FFFFFFFFFFFC#64).lp.gr? 31#7).val 4 ∧ MemoryCanonical (v31 0x1FFFFFFFFFFFC#64)
    ∧ FpLoadReady (v31 0x1FFFFFFFFFFF8#64) 0#6 31#7 .none ∧ (v31 0x1FFFFFFFFFFF8#64).lp.grReadable 127#7 = true ∧
      ((v31 0x1FFFFFFFFFFF8#64).lp.gr? 127#7).nat = false ∧ PlainData (v31 0x1FFFFFFFFFFF8#64) ((v31
      0x1FFFFFFFFFFF8#64).lp.gr? 31#7).val 8 ∧ MemoryCanonical (v31 0x1FFFFFFFFFFF8#64)
    ∧ FpLoadReady (withNat 30#7 full) 0#6 31#7 (.imm 8#64) ∧ (withNat 30#7 full).lp.grReadable 30#7 = true ∧
      ((withNat 30#7 full).lp.gr? 30#7).nat = true ∧ PlainData (withNat 30#7 full) ((withNat 30#7 full).lp.gr?
      31#7).val 8 ∧ MemoryCanonical (withNat 30#7 full)
    ∧ FpLoadReady (v31 0x1FFFFFFFFFFF0#64) 0#6 31#7 .none ∧ Usable (v31 0x1FFFFFFFFFFF0#64) 0#7 ∧ PlainData (v31
      0x1FFFFFFFFFFF0#64) ((v31 0x1FFFFFFFFFFF0#64).lp.gr? 31#7).val 16 ∧ MemoryCanonical (v31 0x1FFFFFFFFFFF0#64)
      := by
  and_intros <;> first | decide +kernel | (simp only [IncOk, MemoryCanonical] <;> decide +kernel)

/-- Obligations.FpLoadsAndStores; a spill stores NaTVal too. -/
theorem witness_FpLoadsAndStores :
    FpLoadMet full 127#7 31#7 .none {} 4
    ∧ FpLoadMet full 2#7 31#7 (.imm 8#64) { spec := true } 8
    ∧ FpLoadMet full 32#7 31#7 (.reg 30#7) { adv := true } 16
    ∧ FpLoadMet (v31 0x1FFFFFFFFFFF0#64) 127#7 31#7 .none { check := true } 16
    ∧ FpNatReady nats 0#6 31#7 .none ∧ FpNatReady nats 0#6 127#7 (.reg 30#7) ∧ FrWritable nats 2#7 ∧ FrWritable nats
      127#7
    ∧ FpLoadReady (withEntry true full) 0#6 31#7 .none ∧ FrWritable (withEntry true full) 127#7 ∧ ¬ NoEntry
      (withEntry true full) true 127#7 ∧ PlainData (withEntry true full) ((withEntry true full).lp.gr? 31#7).val 8
    ∧ FpLoadMet (v31 0x1FFFFFFFFFFF0#64) 127#7 31#7 .none {} (2 * 8) ∧ FrWritable full 2#7 ∧ (127#7).toNat % 2 ≠
      (2#7).toNat % 2
    ∧ FpLoadReady (v31 0x1FFFFFFFFFFF0#64) 0#6 31#7 (.imm 0#64) ∧ PlainData (v31 0x1FFFFFFFFFFF0#64) ((v31
      0x1FFFFFFFFFFF0#64).lp.gr? 31#7).val 16 ∧ MemoryCanonical (v31 0x1FFFFFFFFFFF0#64) ∧ (v31
      0x1FFFFFFFFFFF0#64).lp.frEnabled 127#7 = true ∧ (v31 0x1FFFFFFFFFFF0#64).lp.fr? 127#7 ≠ natVal
    ∧ (fpNat full).lp.readPr 0#6 = true ∧ (fpNat full).lp.grReadable 31#7 = true ∧ IncOk (fpNat full) 31#7 (.imm 0#64)
      ∧ (fpNat full).lp.frEnabled 127#7 = true ∧ (fpNat full).lp.fr? 127#7 = natVal ∧ FpFormat.single ≠ .image
    ∧ nats.lp.grReadable 31#7 = true ∧ (nats.lp.gr? 31#7).nat = true ∧ nats.lp.frEnabled 0#7 = true := by
  and_intros <;> first | decide +kernel | (simp only [IncOk, MemoryCanonical, NoEntry] <;> decide +kernel)

/-- Obligations.Semaphores. -/
theorem witness_Semaphores :
    SemMet (v31 0x1FFFFFFFFFFFF#64) 1 1
    ∧ SemMet (v31 0x1FFFFFFFFFFFE#64) 2 2
    ∧ SemMet (v31 0x1FFFFFFFFFFFC#64) 4 4
    ∧ SemMet (v31 0x1FFFFFFFFFFF8#64) 8 8
    ∧ SemMet (v31 0x1FFFFFFFFFFF8#64) 8 16
    ∧ SemMet (v31 0x1FFFFFFFFFFF0#64) 8 16 := by
  and_intros <;> first | decide +kernel | (simp only [MemoryCanonical] <;> decide +kernel)

/-- Obligations.RegisterFileTransfers. -/
theorem witness_RegisterFileTransfers :
    Runs full 0#6 ∧ FrWritable full 2#7 ∧ FrWritable full 127#7 ∧ full.lp.grReadable 0#7 = true
    ∧ full.lp.grWritable 127#7 = true ∧ full.lp.frEnabled 0#7 = true ∧ full.lp.frEnabled 127#7 = true
    ∧ (0xFFFFFFFF#64).toNat < 2 ^ 32
    ∧ Off full 63#6 := by
  and_intros <;> decide +kernel

/-- Obligations.SpeculationChecks. -/
theorem witness_SpeculationChecks :
    (at_ 0x1000#64 1#2 full).lp.readPr 0#6 = true ∧ (at_ 0x1000#64 1#2 full).lp.grReadable 31#7 = true ∧ (at_
      0x1000#64 1#2 full).lp.frEnabled 127#7 = true ∧ ((at_ 0x1000#64 1#2 full).lp.gr? 31#7).nat = false ∧ Untrapped
      (at_ 0x1000#64 1#2 full)
    ∧ nats.lp.grReadable 127#7 = true ∧ (nats.lp.gr? 127#7).nat = true ∧ nats.lp.readPr 0#6 = true ∧ Reachable nats
      (nats.lp.ip + ((0x0FFFFF#21).signExtend 64 <<< 4))
    ∧ (fpNat full).lp.fr? 127#7 = natVal ∧ Reachable (fpNat full) ((fpNat full).lp.ip + ((0x0FFFFF#21).signExtend 64
      <<< 4))
    ∧ Reachable (at_ 0x10000000#64 0#2 full) ((at_ 0x10000000#64 0#2 full).lp.ip + ((0x100000#21).signExtend 64 <<<
      4)) ∧ Untrapped full
    ∧ NoEntry full false 127#7 ∧ ¬ NoEntry (withEntry false full) false 127#7 ∧ ¬ NoEntry (withEntry true full) true
      127#7 ∧ NoEntry (withEntry true full) false 127#7 := by
  and_intros <;> first | decide +kernel | (simp only [NoEntry] <;> decide +kernel)

/-- Obligations.ProcessorStatusMoves. -/
theorem witness_ProcessorStatusMoves :
    Runs full 0#6 ∧ full.lp.cpl = 0#2
    ∧ 0x3F#24 &&& ~~~0x3F#24 = 0#24 ∧ 0x40#24 &&& ~~~0x3F#24 ≠ 0#24
    ∧ (0xFEE03E#24).setWidth 64 &&& psrReserved = 0#64 ∧ (1#24).setWidth 64 &&& psrReserved ≠ 0#64
    ∧ user.lp.readPr 0#6 = true ∧ user.lp.cpl ≠ 0#2
    ∧ Usable (v31 0xFFFFFFFF00000000#64) 31#7 ∧ ((v31 0xFFFFFFFF00000000#64).lp.gr? 31#7).val &&& 0xFFFFFFFF#64 &&&
      psrReserved = 0#64 ∧ ((v31 0xFFFFFFFF00000000#64).lp.gr? 31#7).val.getLsbD 0 = false
    ∧ full.lp.grWritable 127#7 = true ∧ user.lp.grWritable 127#7 = true
    ∧ short.lp.readPr 0#6 = true ∧ short.lp.grReadable 127#7 = false ∧ user.lp.grReadable 31#7 = true
    ∧ BadDest full 0#6 0#7
    ∧ Off full 63#6 := by
  and_intros <;> decide +kernel

/-- Obligations.FencesPrefetchesAndAlat. -/
theorem witness_FencesPrefetchesAndAlat :
    Runs full 0#6
    ∧ Usable full 127#7 ∧ translateAddr full (full.lp.gr? 127#7).val .read = .ok (0, .wb)
    ∧ nats.lp.readPr 0#6 = true ∧ nats.lp.grReadable 31#7 = true ∧ (nats.lp.gr? 31#7).nat = true
    ∧ FpLoadReady (v31 0xFFFFFFFFFFFFFFFF#64) 0#6 31#7 .none
    ∧ FpLoadReady full 0#6 127#7 (.reg 0#7)
    ∧ FpLoadReady (v31 0x1FFFFFFFFFFFF#64) 0#6 31#7 (.imm 0xFFFFFFFFFFFFFF00#64) ∧ PlainData (v31
      0x1FFFFFFFFFFFF#64) ((v31 0x1FFFFFFFFFFFF#64).lp.gr? 31#7).val 1
    ∧ Off full 63#6 := by
  and_intros <;> first | decide +kernel | (simp only [IncOk] <;> decide +kernel)

/-- Obligations.ControlRegisters. -/
theorem witness_ControlRegisters :
    Runs full 0#6 ∧ full.lp.cpl = 0#2 ∧ Usable full 31#7
    ∧ crWritable full 0 = true ∧ (full.lp.gr? 31#7).val &&& crReserved 0 = 0#64
    ∧ crWritable full 16 = true ∧ (full.lp.gr? 31#7).val &&& crReserved 16 = 0#64
    ∧ crWritable full 27 = true ∧ (full.lp.gr? 31#7).val &&& crReserved 27 = 0#64
    ∧ crWritable full 67 = true ∧ (full.lp.gr? 31#7).val &&& crReserved 67 = 0#64
    ∧ crWritable full 81 = true ∧ (full.lp.gr? 31#7).val &&& crReserved 81 = 0#64
    ∧ crExists 3 = false ∧ crExists 18 = false ∧ crExists 127 = false
    ∧ icOn.lp.readPr 0#6 = true ∧ icOn.lp.psrBit 13 = true
    ∧ user.lp.readPr 0#6 = true ∧ crWritable user 81 = true ∧ user.lp.cpl ≠ 0#2 ∧ user.lp.grWritable 127#7 = true
    ∧ user.lp.grReadable 31#7 = true ∧ short.lp.readPr 0#6 = true ∧ short.lp.grReadable 127#7 = false
    ∧ Usable (v31 0x80#64) 31#7 ∧ ((v31 0x80#64).lp.gr? 31#7).val &&& crReserved 0 ≠ 0#64 ∧ (v31 0x80#64).lp.cpl =
      0#2 ∧ (v31 0x80#64).lp.readPr 0#6 = true ∧ crWritable (v31 0x80#64) 0 = true
    ∧ full.lp.grWritable 127#7 = true ∧ crExists 65 = true ∧ crExists 71 = true
    ∧ Off full 63#6 := by
  and_intros <;> decide +kernel

/-- Obligations.RegisterStackControl. -/
theorem witness_RegisterStackControl :
    s0.lp.gr.ndirty + (96#7).toNat ≤ 96 ∧ (0#4).toNat = s0.lp.sor ∧ Untrapped s0 ∧ (cfmS (mkCfm 96 96 0 s0.lp.rrbGr
      s0.lp.rrbFr s0.lp.rrbPr) s0).lp.grWritable 127#7 = true
    ∧ 8 * (12#4).toNat ≤ (96#7).toNat ∧ s0.lp.rrbGr = 0 ∧ s0.lp.rrbFr = 0 ∧ s0.lp.rrbPr = 0
    ∧ 96 < (97#7).toNat ∧ (95#7).toNat < (96#7).toNat ∧ (95#7).toNat < 8 * (12#4).toNat
    ∧ (1#4).toNat ≠ (cfmS (mkCfm 96 0 0 1 0 0) s0).lp.sor ∧ (cfmS (mkCfm 96 0 0 1 0 0) s0).lp.rrbGr ≠ 0
    ∧ full.lp.readPr 0#6 = true ∧ full.lp.sof ≠ 0
    ∧ s0.lp.readPr 0#6 = true ∧ s0.lp.sof = 0 ∧ (s0.lp.ar.rsc >>> 16) &&& 0x3FFF#64 = 0#64 ∧ s0.lp.gr.ndirty ≤ 96
      ∧ Untrapped s0
    ∧ s0.lp.gr.ndirty = 0
    ∧ Off s0 63#6 := by
  and_intros <;> decide +kernel

/-- Obligations.NoOperations. -/
theorem witness_NoOperations :
    Runs s0 0#6
    ∧ Off s0 63#6 := by
  and_intros <;> decide +kernel

/-- Obligations.BreakInstructions. -/
theorem witness_BreakInstructions :
    s0.lp.readPr 0#6 = true ∧ s0.lp.cpl = 0#2
    ∧ user.lp.readPr 0#6 = true ∧ user.lp.cpl ≠ 0#2
    ∧ Off s0 63#6 := by
  and_intros <;> decide +kernel

/-- Obligations.LongImmediate. -/
theorem witness_LongImmediate :
    full.lp.readPr 0#6 = true ∧ full.lp.grWritable 127#7 = true ∧ Untrapped full
    ∧ BadDest full 0#6 0#7
    ∧ BadDest short 0#6 127#7
    ∧ Off full 63#6 := by
  and_intros <;> decide +kernel

/-- Obligations.IndirectRegisters. -/
theorem witness_IndirectRegisters :
    Runs full 0#6 ∧ full.lp.cpl = 0#2 ∧ Usable full 30#7 ∧ Usable full 31#7 ∧ full.lp.grWritable 127#7 = true
    ∧ (full.lp.gr? 31#7).val &&& IndirectFile.reserved .rr full.params = 0#64 ∧ (full.lp.gr? 31#7).val &&&
      IndirectFile.reserved .pkr full.params = 0#64
    ∧ ((v30 0#64 15#64).lp.gr? 30#7).val.toNat % 256 < (v30 0#64 15#64).lp.pkr.length ∧ (v30 0#64
      16#64).lp.pkr.length ≤ ((v30 0#64 16#64).lp.gr? 30#7).val.toNat % 256
    ∧ ((v30 0#64 7#64).lp.gr? 30#7).val.toNat % 256 < (v30 0#64 7#64).lp.dbr.length ∧ (v30 0#64 8#64).lp.dbr.length
      ≤ ((v30 0#64 8#64).lp.gr? 30#7).val.toNat % 256
    ∧ ((v30 0#64 7#64).lp.gr? 30#7).val.toNat % 256 < (v30 0#64 7#64).lp.ibr.length ∧ (v30 0#64 8#64).lp.ibr.length
      ≤ ((v30 0#64 8#64).lp.gr? 30#7).val.toNat % 256
    ∧ ((v30 0#64 4#64).lp.gr? 30#7).val.toNat % 256 ≤ 4 ∧ 4 < ((v30 0#64 5#64).lp.gr? 30#7).val.toNat % 256
    ∧ Usable (v30 0#64 8#64) 30#7 ∧ Usable (v30 0#64 8#64) 31#7 ∧ (v30 0#64 8#64).lp.readPr 0#6 = true ∧ (v30 0#64
      8#64).lp.cpl = 0#2
    ∧ (v30 0#64 8#64).lp.grWritable 127#7 = true ∧ (v30 0#64 16#64).lp.readPr 0#6 = true ∧ (v30 0#64 16#64).lp.cpl = 0#2
    ∧ Usable (v30 0#64 16#64) 30#7 ∧ (v30 0#64 16#64).lp.grWritable 127#7 = true
    ∧ (v30 2#64 0#64).lp.readPr 0#6 = true ∧ (v30 2#64 0#64).lp.cpl = 0#2 ∧ Usable (v30 2#64 0#64) 30#7 ∧ Usable (v30 2#64 0#64) 31#7
    ∧ ((v30 2#64 0#64).lp.gr? 31#7).val &&& IndirectFile.reserved .rr (v30 2#64 0#64).params ≠ 0#64
    ∧ (v30 0x80#64 15#64).lp.readPr 0#6 = true ∧ (v30 0x80#64 15#64).lp.cpl = 0#2 ∧ Usable (v30 0x80#64 15#64) 30#7
    ∧ Usable (v30 0x80#64 15#64) 31#7
    ∧ ((v30 0x80#64 15#64).lp.gr? 31#7).val &&& IndirectFile.reserved .pkr (v30 0x80#64 15#64).params ≠ 0#64
    ∧ ((v30 0#64 38#64).lp.gr? 30#7).val.toNat % 256 = 38 ∧ (((v30 0xdb6#64 38#64).lp.gr? 31#7).val ^^^ pmcAt (v30
      0xdb6#64 38#64).lp.pmu 38) &&& ~~~pmcWritable 38 = 0#64
    ∧ ((v30 0#64 41#64).lp.gr? 30#7).val.toNat % 256 = 41 ∧ (((v30 0#64 41#64).lp.gr? 31#7).val ^^^ pmcAt (v30 0#64
      41#64).lp.pmu 41) &&& ~~~pmcWritable 41 ≠ 0#64
    ∧ user.lp.readPr 0#6 = true ∧ user.lp.cpl ≠ 0#2 ∧ user.lp.grWritable 127#7 = true ∧ Usable user 31#7
    ∧ user.lp.grReadable 30#7 = true ∧ short.lp.readPr 0#6 = true ∧ short.lp.grReadable 127#7 = false
    ∧ (writePmc full 43 0#64).toOption.isSome = true ∧ (writePmc full 0 0#64).toOption.isSome = true
    ∧ pmdConfig pmuFrozen 3 = none ∧ pmdConfig pmuFrozen 64 = none ∧ pmdConfig pmuFrozen 4 = some 4 ∧ pmdConfig pmuFrozen 63 = some 39
    ∧ pmdConfig pmuFrozen 32 = some 40
    ∧ pmcAt PMU.reset 4 &&& 0xF#64 = 0#64 ∧ (pmcAt PMU.reset 40 >>> 24) &&& 3#64 ≠ 2#64
    ∧ configOpen true pmuFrozen 4 = false ∧ configOpen true pmuFrozen 39 = false ∧ configOpen true pmuFrozen 40 = false
    ∧ (pmcAt pmuFrozen 0).getLsbD 0 = true ∧ (pmcAt pmuFull 0).getLsbD 0 = false
    ∧ (pmcAt pmuFrozen 4).getLsbD 6 = true ∧ (pmcAt pmuFrozen 39).getLsbD 6 = false ∧ user.lp.psr.getLsbD 20 = false
    ∧ Off full 63#6 := by
  and_intros <;> decide +kernel

/-- Obligations.TranslationInstructions. -/
theorem witness_TranslationInstructions :
    Runs full 0#6 ∧ full.lp.cpl = 0#2 ∧ full.lp.grWritable 127#7 = true ∧ Usable full 30#7 ∧ Usable full 31#7 ∧
      full.lp.psrBit 17 = false
    ∧ (psrS 0x20000#64 full).lp.readPr 0#6 = true ∧ (psrS 0x20000#64 full).lp.grWritable 127#7 = true ∧ Usable (psrS
      0x20000#64 full) 31#7 ∧ Usable (psrS 0x20000#64 full) 30#7 ∧ (psrS 0x20000#64 full).lp.psrBit 17 = true ∧
      Untrapped (psrS 0x20000#64 full)
    ∧ dataAccess (full.atLevel 3#2) .readWrite (full.lp.gr? 31#7).val 1 false = .ok (0, .wb)
    ∧ dataAccess (full.atLevel 0#2) .read (full.lp.gr? 31#7).val 1 false = .ok (0, .wb)
    ∧ dataAccess (full.atLevel 1#2) .write (full.lp.gr? 31#7).val 1 false = .ok (0, .wb)
    ∧ translateAddr full (full.lp.gr? 31#7).val .nonAccess = .ok (0, .wb)
    ∧ user.lp.readPr 0#6 = true ∧ user.lp.grWritable 127#7 = true ∧ user.lp.cpl ≠ 0#2 ∧ user.lp.psrBit 13 = false
    ∧ user.lp.grReadable 30#7 = true ∧ user.lp.grReadable 31#7 = true
    ∧ short.lp.readPr 0#6 = true ∧ short.lp.grReadable 127#7 = false
    ∧ icOn.lp.readPr 0#6 = true ∧ icOn.lp.psrBit 13 = true
    ∧ full.lp.psrBit 13 = false ∧ ((v30 0#64 63#64).lp.gr? 30#7).val.toNat % 256 < full.dtr.length ∧ full.dtr.length
      ≤ ((v30 0#64 64#64).lp.gr? 30#7).val.toNat % 256 ∧ ((v30 0#64 63#64).lp.gr? 30#7).val.toNat % 256 <
      full.itr.length ∧ full.itr.length ≤ ((v30 0#64 64#64).lp.gr? 30#7).val.toNat % 256 ∧ Usable (v30 0#64 63#64)
      30#7 ∧ Usable (v30 0#64 64#64) 30#7
    ∧ ((([] : List TlbEntry).filter fun x => !overlapsEntry x ⟨0#64, 0#64, 0#64, 0#64⟩).length < 128)
    ∧ PageSizeLegal (crS (fun c => { c with itir := 0x30#64 }) full)
    ∧ PageSizeLegal (crS (fun c => { c with itir := 0x80#64 }) full)
    ∧ ¬ PageSizeLegal full
    ∧ ¬ PageSizeLegal (crS (fun c => { c with itir := 0x84#64 }) full)
    ∧ (∃ a, dataAccess (full.atLevel 1#2) .read (full.lp.gr? 31#7).val 1 false = .ok a)
    ∧ Off full 63#6 := by
  and_intros <;> first | decide +kernel | (simp only [PageSizeLegal] <;> decide +kernel) | exact ⟨(0, .wb), by decide +kernel⟩

/-- Obligations.PlainBranches. -/
theorem witness_PlainBranches :
    (at_ 0x1000#64 1#2 full).lp.readPr 0#6 = true ∧ Reachable (at_ 0x1000#64 1#2 full) ((at_ 0x1000#64 1#2
      full).lp.ip + ((0x0FFFFF#21).signExtend 64 <<< 4)) ∧ Reachable (at_ 0x1000#64 1#2 full) ((at_ 0x1000#64 1#2
      full).lp.ip + ((0x1FFFFF#21).signExtend 64 <<< 4)) ∧ Reachable (at_ 0x1000#64 1#2 full) ((at_ 0x1000#64 1#2
      full).lp.br? 7#3)
    ∧ Off (at_ 0x1000#64 1#2 full) 63#6 := by
  and_intros <;> decide +kernel

/-- Obligations.LoopBranches. -/
theorem witness_LoopBranches :
    (at_ 0x1000#64 2#2 (arS (fun a => { a with lc := 0xFFFFFFFFFFFFFFFF#64 }) full)).lp.ri = 2#2 ∧ Untrapped (at_
      0x1000#64 2#2 (arS (fun a => { a with lc := 0xFFFFFFFFFFFFFFFF#64 }) full)) ∧ Reachable (at_ 0x1000#64 2#2
      (arS (fun a => { a with lc := 0xFFFFFFFFFFFFFFFF#64 }) full)) ((at_ 0x1000#64 2#2 (arS (fun a => { a with lc
      := 0xFFFFFFFFFFFFFFFF#64 }) full)).lp.ip + ((0x1FFFFF#21).signExtend 64 <<< 4)) ∧ (at_ 0x1000#64 2#2 (arS (fun
      a => { a with lc := 0xFFFFFFFFFFFFFFFF#64 }) full)).lp.ar.lc ≠ 0#64
    ∧ (at_ 0x1000#64 2#2 (arS (fun a => { a with ec := 63#6 }) full)).lp.ri = 2#2 ∧ Untrapped (at_ 0x1000#64 2#2
      (arS (fun a => { a with ec := 63#6 }) full)) ∧ Reachable (at_ 0x1000#64 2#2 (arS (fun a => { a with ec := 63#6
      }) full)) ((at_ 0x1000#64 2#2 (arS (fun a => { a with ec := 63#6 }) full)).lp.ip + ((0x1FFFFF#21).signExtend
      64 <<< 4)) ∧ 1 < (at_ 0x1000#64 2#2 (arS (fun a => { a with ec := 63#6 }) full)).lp.ar.ec.toNat
    ∧ (at_ 0x1000#64 2#2 (arS (fun a => { a with ec := 1#6 }) full)).lp.ri = 2#2 ∧ Untrapped (at_ 0x1000#64 2#2 (arS
      (fun a => { a with ec := 1#6 }) full)) ∧ Reachable (at_ 0x1000#64 2#2 (arS (fun a => { a with ec := 1#6 })
      full)) ((at_ 0x1000#64 2#2 (arS (fun a => { a with ec := 1#6 }) full)).lp.ip + ((0x1FFFFF#21).signExtend 64
      <<< 4)) ∧ (at_ 0x1000#64 2#2 (arS (fun a => { a with ec := 1#6 }) full)).lp.ar.ec = 1#6
    ∧ (at_ 0x1000#64 2#2 (arS (fun a => { a with ec := 0#6 }) full)).lp.ri = 2#2 ∧ Untrapped (at_ 0x1000#64 2#2 (arS
      (fun a => { a with ec := 0#6 }) full)) ∧ Reachable (at_ 0x1000#64 2#2 (arS (fun a => { a with ec := 0#6 })
      full)) ((at_ 0x1000#64 2#2 (arS (fun a => { a with ec := 0#6 }) full)).lp.ip + ((0x1FFFFF#21).signExtend 64
      <<< 4)) ∧ (at_ 0x1000#64 2#2 (arS (fun a => { a with ec := 0#6 }) full)).lp.ar.ec = 0#6
    ∧ full.lp.readPr 0#6 = true ∧ full.lp.readPr 63#6 = false
    ∧ s0.lp.ri ≠ 2#2 ∧ (at_ 0x1000#64 1#2 s0).lp.ri ≠ 2#2
    ∧ full.lp.sor = 0 ∧ 0 < (cfmS (mkCfm 96 96 12 95 0 0) s0).lp.sor ∧ (cfmS (mkCfm 96 96 12 95 0 0) s0).lp.rrbGr <
      8 * (cfmS (mkCfm 96 96 12 95 0 0) s0).lp.sor := by
  and_intros <;> decide +kernel

/-- Obligations.Returns. -/
theorem witness_Returns :
    s0.lp.readPr 0#6 = true ∧ (0x288#38).toNat % 128 ≤ 96 ∧ (0x288#38).toNat / 128 % 128 ≤ (0x288#38).toNat % 128 ∧
      sCallee.lp.ar.pfs.setWidth 38 = 0x288#38 ∧ (0x288#38).toNat / 128 % 128 ≤ sCallee.lp.gr.ndirty ∧
      sCallee.lp.gr.ndirty + (0x288#38).toNat % 128 ≤ 96 + (0x288#38).toNat / 128 % 128 ∧ Reachable sCallee
      (sCallee.lp.br? 0#3) ∧ sCallee.lp.readPr 0#6 = true
    ∧ (0x60#38).toNat % 128 ≤ 96 ∧ s0.lp.gr.ndirty + (0x60#38).toNat % 128 ≤ 96 + (0x60#38).toNat / 128 % 128
    ∧ Off sCallee 63#6
    ∧ (enterFrame sFrame).lp.gr = { sFrame.lp.gr with bof := (sFrame.lp.gr.bof + sFrame.lp.sol) % 96, ndirty :=
      sFrame.lp.gr.ndirty + sFrame.lp.sol } ∧ (enterFrame sFrame).lp.cfm = mkCfm (sFrame.lp.sof - sFrame.lp.sol) 0 0
      0 0 0 ∧ (enterFrame sFrame).lp.psr = sFrame.lp.psr ∧ sFrame.lp.sof ≤ 96 ∧ 8 * sFrame.lp.sor ≤ sFrame.lp.sol ∧
      2 < sFrame.lp.sof - sFrame.lp.sol
    ∧ sFrame.lp.gr.bof < 96 ∧ sFrame.lp.sol ≤ sFrame.lp.sof ∧ sFrame.lp.gr.ndirty + sFrame.lp.sof ≤ 96 := by
  and_intros <;> decide +kernel

/-- Obligations.FramesRenameAndBanks. -/
theorem witness_FramesRenameAndBanks :
    Untrapped full ∧ full.lp.cpl = 0#2
    ∧ user.lp.cpl ≠ 0#2
    ∧ 16 ≤ (16#7).toNat ∧ (31#7).toNat < 32 := by
  and_intros <;> decide +kernel

/-- Obligations.PrivilegedCodeAndReturn. -/
theorem witness_PrivilegedCodeAndReturn :
    (psrS (3#64 <<< 32) (arS (fun a => { a with pfs := 3#64 <<< 62 }) s0)).lp.cpl ≤ ((psrS (3#64 <<< 32) (arS (fun a
      => { a with pfs := 3#64 <<< 62 }) s0)).lp.ar.pfs >>> 62).setWidth 2 ∧ (psrS (3#64 <<< 32) (arS (fun a => { a
      with pfs := 3#64 <<< 62 }) s0)).lp.psrBit 36 = false ∧ Untrapped (psrS (3#64 <<< 32) (arS (fun a => { a with
      pfs := 3#64 <<< 62 }) s0))
    ∧ (psrS ((3#64 <<< 32) ||| (1#64 <<< 36)) (arS (fun a => { a with pfs := 3#64 <<< 62 }) s0)).lp.cpl ≤ ((psrS
      ((3#64 <<< 32) ||| (1#64 <<< 36)) (arS (fun a => { a with pfs := 3#64 <<< 62 }) s0)).lp.ar.pfs >>>
      62).setWidth 2 ∧ (psrS ((3#64 <<< 32) ||| (1#64 <<< 36)) (arS (fun a => { a with pfs := 3#64 <<< 62 })
      s0)).lp.psrBit 36 = true ∧ Untrapped (psrS ((3#64 <<< 32) ||| (1#64 <<< 36)) (arS (fun a => { a with pfs :=
      3#64 <<< 62 }) s0))
    ∧ (user.lp.ar.pfs >>> 62).setWidth 2 < user.lp.cpl ∧ user.lp.cpl ≠ 0#2
    ∧ (crS (fun c => { c with ipsr := 1#64 }) s0).lp.cpl = 0#2 ∧ (crS (fun c => { c with ipsr := 1#64 })
      s0).lp.cr.ipsr &&& psrReserved ≠ 0#64
    ∧ s0.lp.cpl = 0#2 ∧ statusLegal s0.lp.cr.ipsr = true ∧ s0.lp.cr.ifs.getLsbD 63 = false ∧ unimplementedIp { s0
      with lp := { s0.lp with psr := s0.lp.cr.ipsr } } (s0.lp.cr.iip &&& ~~~0xF#64) = false
    ∧ sIfs.lp.cpl = 0#2 ∧ statusLegal sIfs.lp.cr.ipsr = true ∧ sIfs.lp.cr.ifs.getLsbD 63 = true ∧
      sIfs.lp.cr.ifs.toNat % 128 ≤ 96 ∧ sIfs.lp.cr.ifs.toNat % 128 ≤ sIfs.lp.gr.ndirty ∧ sIfs.lp.gr.ndirty ≤ 96 ∧
      unimplementedIp { sIfs with lp := { sIfs.lp with psr := sIfs.lp.cr.ipsr } } (sIfs.lp.cr.iip &&& ~~~0xF#64) =
      false := by
  and_intros <;> decide +kernel

/-- Obligations.FloatArithmetic. -/
theorem witness_FloatArithmetic :
    (noTraps full).lp.readPr 0#6 = true ∧ FrWritable (noTraps full) 2#7 ∧ FrWritable (noTraps full) 127#7 ∧ (noTraps
      full).lp.frEnabled 0#7 = true ∧ (noTraps full).lp.frEnabled 127#7 = true ∧ FpTrapsOff (noTraps full) ∧
      Untrapped (noTraps full)
    ∧ full.lp.readPr 0#6 = true ∧ FrWritable full 127#7 ∧ full.lp.frEnabled 0#7 = true ∧ full.lp.fr? 0#7 ≠ natVal ∧
      full.lp.fr? 1#7 ≠ natVal ∧ full.lp.fr? 127#7 ≠ natVal
    ∧ (noTraps (fpNat full)).lp.fr? 127#7 = natVal ∧ FpTrapsOff (noTraps (fpNat full))
    ∧ enabledFlags full.lp.ar.fpsr 0#2 0x38#6 &&& 7#6 = 0#6 ∧ enabledFlags full.lp.ar.fpsr 0#2 0x38#6 ≠ 0#6
    ∧ unimplementedIp full full.lp.ip = false ∧ unimplementedIp full (full.lp.ip + 16#64) = false
    ∧ Off full 63#6 := by
  and_intros <;> first | decide +kernel | (simp only [FpTrapsOff] <;> decide +kernel)

/-- Obligations.FloatMoves. -/
theorem witness_FloatMoves :
    Runs full 0#6 ∧ FrWritable full 2#7 ∧ FrWritable full 127#7 ∧ full.lp.frEnabled 0#7 = true ∧ full.lp.frEnabled
      127#7 = true
    ∧ Off full 63#6 := by
  and_intros <;> decide +kernel

/-- Obligations.FloatComparesAndApproximations. -/
theorem witness_FloatComparesAndApproximations :
    (noTraps full).lp.readPr 0#6 = true ∧ FrWritable (noTraps full) 2#7 ∧ (noTraps full).lp.frEnabled 127#7 = true ∧
      FpTrapsOff (noTraps full) ∧ Untrapped (noTraps full) ∧ 0#6 ≠ 63#6
    ∧ Off full 63#6 := by
  and_intros <;> first | decide +kernel | (simp only [FpTrapsOff] <;> decide +kernel)

/-- Obligations.FloatComparesComplete. -/
theorem witness_FloatComparesComplete :
    (noTraps full).lp.readPr 0#6 = true ∧ (noTraps full).lp.frEnabled 0#7 = true ∧ (noTraps full).lp.frEnabled 127#7 = true
    ∧ FpTrapsOff (noTraps full) ∧ Untrapped (noTraps full) ∧ 0#6 ≠ 63#6
    ∧ (noTraps (fpNat full)).lp.frEnabled 127#7 = true ∧ (noTraps (fpNat full)).lp.fr? 127#7 = natVal
    ∧ Untrapped (noTraps (fpNat full)) := by
  and_intros <;> first | decide +kernel | (simp only [FpTrapsOff] <;> decide +kernel)

/-- Obligations.FloatApproximationsComplete. -/
theorem witness_FloatApproximationsComplete :
    (noTraps full).lp.readPr 0#6 = true ∧ FrWritable (noTraps full) 2#7 ∧ FrWritable (noTraps full) 127#7
    ∧ (noTraps full).lp.frEnabled 0#7 = true ∧ (noTraps full).lp.frEnabled 127#7 = true
    ∧ FpTrapsOff (noTraps full) ∧ Untrapped (noTraps full) := by
  and_intros <;> first | decide +kernel | (simp only [FpTrapsOff] <;> decide +kernel)

/-- Obligations.FloatStatus. -/
theorem witness_FloatStatus :
    Runs full 0#6
    ∧ flagsFail full.lp.ar.fpsr 1#2 = false
    ∧ flagsFail (arS (fun a => { a with fpsr := 0x2000000#64 ||| 0x4000000#64 }) full).lp.ar.fpsr 1#2 = true ∧
      Reachable (at_ 0x10000000#64 0#2 full) ((at_ 0x10000000#64 0#2 full).lp.ip + ((0x100000#21).signExtend 64 <<<
      4))
    ∧ Off full 63#6 := by
  and_intros <;> decide +kernel

/-- Obligations.CompareWrites. -/
theorem witness_CompareWrites :
    Untrapped full ∧ full.lp.readPr 0#6 = true ∧ full.lp.readPr 63#6 = false ∧ 0#6 ≠ 63#6 := by
  and_intros <;> decide +kernel

/-- Obligations.RegisterFiles. -/
theorem witness_RegisterFiles :
    full.lp.sof ≤ 96 ∧ 8 * full.lp.sor ≤ full.lp.sof ∧ full.lp.grWritable 127#7 = true ∧ full.lp.grReadable 0#7 = true
    ∧ (cfmS (mkCfm 96 96 12 95 95 47) s0).lp.sof ≤ 96 ∧ 8 * (cfmS (mkCfm 96 96 12 95 95 47) s0).lp.sor ≤ (cfmS
      (mkCfm 96 96 12 95 95 47) s0).lp.sof ∧ (cfmS (mkCfm 96 96 12 95 95 47) s0).lp.grWritable 127#7 = true ∧ (cfmS
      (mkCfm 96 96 12 95 95 47) s0).lp.rrbGr < 8 * (cfmS (mkCfm 96 96 12 95 95 47) s0).lp.sor ∧ 94 + 1 < 8 * (cfmS
      (mkCfm 96 96 12 95 95 47) s0).lp.sor ∧ 94 + 33 < 128 ∧ (cfmS (mkCfm 96 96 12 95 95 47) s0).lp.rrbFr < 96 ∧
      (cfmS (mkCfm 96 96 12 95 95 47) s0).lp.rrbPr < 48
    ∧ 2 ≤ (2#7).toNat ∧ 1#6 ≠ 0#6 ∧ 63#6 ≠ 0#6 := by
  decide +kernel

/-- Obligations.MemoryBytes. -/
theorem witness_MemoryBytes :
    Memory.wf sMem.mem = true ∧ Memory.wf (writeLE sMem.mem (2 ^ 64 - 8) 8 5) = true ∧ Memory.wf [] = true ∧ 15 < 16
      := by
  decide +kernel

/-- Obligations.DataAccesses. -/
theorem witness_DataAccesses :
    full.lp.translates .read = false ∧ (0x3FFFFFFFFFFFF#64).toNat % 2 ^ 63 < 2 ^ full.params.paBits ∧ 2 ^
      full.params.paBits ≤ (0x4000000000000#64).toNat % 2 ^ 63
    ∧ (psrS 0x20000#64 full).lp.translates .read = true ∧ (0xFFFFFFFFFFFFFFFF#64).toNat < 2 ^ (psrS 0x20000#64
      full).params.vaBits
    ∧ full.lp.psrBit 24 = false ∧ translateAddr full 0x2004#64 .read = .ok (0x2004, .wb) ∧ (0x2004#64).toNat % 8 ≠ 0
      ∧ (0x2004#64).toNat % 4 = 0
    ∧ (0x2001#64).toNat % 4 ≠ 0 ∧ (0x2001#64).toNat / 8 = ((0x2001#64).toNat + 4 - 1) / 8
    ∧ translateAddr full 0x200C#64 .write = .ok (0x200C, .wb) ∧ (0x200C#64).toNat % 8 ≠ 0 ∧ (0x200C#64).toNat / 16 ≠
      ((0x200C#64).toNat + 8 - 1) / 16
    ∧ translateAddr full 0x2001#64 .readWrite = .ok (0x2001, .wb) ∧ (0x2001#64).toNat % 8 ≠ 0
    ∧ dataAccess (v31 0x4000000000000#64) .read ((v31 0x4000000000000#64).lp.gr? 31#7).val 1 false = .error
      .unimplemented
    ∧ dataAccess (v31 0x4000000000000#64) .write ((v31 0x4000000000000#64).lp.gr? 31#7).val 1 false = .error
      .unimplemented
    ∧ dataAccess (v31 0x2007#64) .read ((v31 0x2007#64).lp.gr? 31#7).val 2 false = .error (.unaligned false)
    ∧ dataAccess (v31 0x200F#64) .write ((v31 0x200F#64).lp.gr? 31#7).val 2 false = .error (.unaligned false)
    ∧ dataAccess (v31 0x2005#64) .read ((v31 0x2005#64).lp.gr? 31#7).val 4 false = .error (.unaligned false)
    ∧ dataAccess (v31 0x200D#64) .write ((v31 0x200D#64).lp.gr? 31#7).val 4 false = .error (.unaligned false)
    ∧ dataAccess (v31 0x2001#64) .read ((v31 0x2001#64).lp.gr? 31#7).val 8 false = .error (.unaligned false)
    ∧ dataAccess (v31 0x200C#64) .write ((v31 0x200C#64).lp.gr? 31#7).val 8 false = .error (.unaligned false)
    ∧ (accessBits .read).getLsbD 43 = false
    ∧ (v31 1#64).lp.readPr 0#6 = true ∧ (v31 1#64).lp.grWritable 127#7 = true ∧ Usable (v31 1#64) 31#7 ∧ Usable (v31
      1#64) 30#7 := by
  and_intros <;> decide +kernel

/-- Obligations.UncoreRegisters; the last write sets a freeze and an unfreeze bit. -/
theorem witness_UncoreRegisters :
    (v31 0x8003FFFBFEB0C088#64).lp.readPr 0#6 = true ∧ (v31 0x8003FFFBFEB0C088#64).lp.grWritable 127#7 = true ∧
      Usable (v31 0x8003FFFBFEB0C088#64) 31#7 ∧ Usable (v31 0x8003FFFBFEB0C088#64) 30#7 ∧ Untrapped (v31
      0x8003FFFBFEB0C088#64) ∧ (v31 0x8003FFFBFEB0C088#64).lp.psrBit 17 = false ∧ (v31
      0x8003FFFBFEB0C088#64).lp.psrBit 24 = false ∧ ((v31 0x8003FFFBFEB0C088#64).lp.gr? 31#7).val.getLsbD 63 = true
      ∧ 0x3FFFBFEB0C088 = ((v31 0x8003FFFBFEB0C088#64).lp.gr? 31#7).val.toNat % 2 ^ 63 ∧ 0x3FFFBFEB0C088 < 2 ^ (v31
      0x8003FFFBFEB0C088#64).params.paBits ∧ 0x3FFFBFEB0C088 % 8 = 0 ∧ inAperture 0x3FFFBFEB0C088 = true
    ∧ (csrAt 0x3FFFBFEB0C088).toOption.isSome = true ∧ (csrAt 0x3FFFBFEB0C088).toOption.any (fun c => (csrWriteValue (v31
      0x8003FFFBFEB0C088#64).uncore 0x3FFFBFEB0C088 0#64 c).toOption.isSome) = true
    ∧ (csrAt 0x3FFFBFEB0FA00).toOption.any (fun c => (csrWriteValue full.uncore 0x3FFFBFEB0FA00 0xC0#64
      c).toOption.isNone) = true
    ∧ ((v31 0x8003FFFBFEB0C088#64).uncoreOf (csrSocket (v31 0x8003FFFBFEB0C088#64).params 0x3FFFBFEB0C088)).isSome = true
    ∧ (s0.uncoreOf (csrSocket s0.params 0x3FFFBFC01C088)).isSome = true ∧ (csrSocket s0.params 0x3FFFBFC01C088).isSome = true
    ∧ s0.uncoreOf (csrSocket s0.params 0x3FFFBFC0FC088) = none ∧ (csrAt 0x3FFFBFC0FC088).toOption.isSome = true
    ∧ csrExists (.rMmCfg 23) = true ∧ csrExists (.zCnt 1 4) = true ∧ csrReplaced (.rMmCfg 23) = some 0x3FFFFF#64
    ∧ csrMerged (.bImt 1) = some 0x7F#64
    ∧ (csrAt 0x3FFFB00000000).toOption = none ∧ (csrAt 0x3FFFBFCFFFA00).toOption = some .dbxMisc
    ∧ (0x400000#64).getLsbD 22 = true ∧ (0x400000#64).getLsbD 23 = false ∧ (0x400#64).getLsbD 10 = true
    ∧ s0.uncore.dbx.getLsbD 6 = false ∧ s0.uncore.dbx.getLsbD 7 = false ∧ (0x40#64).getLsbD 6 = true ∧
      (0x40#64).getLsbD 7 = false ∧ (0x80#64).getLsbD 6 = false ∧ (0x80#64).getLsbD 7 = true := by
  and_intros <;> decide +kernel

/-- Obligations.PerformanceCounters. -/
theorem witness_PerformanceCounters :
    counting seen false privileged pmuFull 4 = true ∧ restricted seen.featMt pmuFull 4 = false
    ∧ increment pmuFull 4 (counterValue seen noCapture s0.bg false pmuFull 4) = 1 ∧ 2 ^ 47 ≤ (pmdAt pmuFull 4).toNat + 1
    ∧ pmcOi (pmcAt pmuFull 4) = true ∧ pmcEs (pmcAt pmuFull 4) ≠ 0x13
    ∧ (eventInfo (pmcEs (pmcAt pmuFull 4))).isSome = true
    ∧ increment pmuFull 4 (counterValue { seen with retired := false } noCapture s0.bg false pmuFull 4) = 0
    ∧ monitorEnable s0.lp pmuFull 4 = false ∧ monitorEnable privileged pmuFull 4 = true
    ∧ counting seen false { privileged with thr := { privileged.thr with halted := true } } pmuFull 4 = false
    ∧ frozen { PMU.reset with pmc := PMU.reset.pmc.setIfInBounds 0 1#64 } = true := by
  decide +kernel

/-- Obligations.BackingStore. -/
theorem witness_BackingStore :
    (arS (fun a => { a with bspstore := 0#64 }) (s0.setGrFile { s0.lp.gr with ndirty := 1 })).lp.readPr 0#6 = true ∧
      (arS (fun a => { a with bspstore := 0#64 }) (s0.setGrFile { s0.lp.gr with ndirty := 1 })).lp.gr.ndirty = 1 ∧
      (arS (fun a => { a with bspstore := 0#64 }) (s0.setGrFile { s0.lp.gr with ndirty := 1 })).lp.gr.bof < 96 ∧
      PlainRse (arS (fun a => { a with bspstore := 0#64 }) (s0.setGrFile { s0.lp.gr with ndirty := 1 })) (arS (fun a
      => { a with bspstore := 0#64 }) (s0.setGrFile { s0.lp.gr with ndirty := 1 })).lp.ar.bspstore ∧ (arS (fun a =>
      { a with bspstore := 0#64 }) (s0.setGrFile { s0.lp.gr with ndirty := 1 })).lp.ar.bspstore.toNat / 8 % 64 < 62
      ∧ MemoryCanonical (arS (fun a => { a with bspstore := 0#64 }) (s0.setGrFile { s0.lp.gr with ndirty := 1 })) ∧
      Untrapped (arS (fun a => { a with bspstore := 0#64 }) (s0.setGrFile { s0.lp.gr with ndirty := 1 }))
    ∧ (arS (fun a => { a with bspstore := 0x1FFFFFFFFFFE8#64 }) (s0.setGrFile { s0.lp.gr with ndirty := 1
      })).lp.readPr 0#6 = true ∧ (arS (fun a => { a with bspstore := 0x1FFFFFFFFFFE8#64 }) (s0.setGrFile { s0.lp.gr
      with ndirty := 1 })).lp.gr.ndirty = 1 ∧ (arS (fun a => { a with bspstore := 0x1FFFFFFFFFFE8#64 })
      (s0.setGrFile { s0.lp.gr with ndirty := 1 })).lp.gr.bof < 96 ∧ PlainRse (arS (fun a => { a with bspstore :=
      0x1FFFFFFFFFFE8#64 }) (s0.setGrFile { s0.lp.gr with ndirty := 1 })) (arS (fun a => { a with bspstore :=
      0x1FFFFFFFFFFE8#64 }) (s0.setGrFile { s0.lp.gr with ndirty := 1 })).lp.ar.bspstore ∧ (arS (fun a => { a with
      bspstore := 0x1FFFFFFFFFFE8#64 }) (s0.setGrFile { s0.lp.gr with ndirty := 1 })).lp.ar.bspstore.toNat / 8 % 64
      < 62 ∧ MemoryCanonical (arS (fun a => { a with bspstore := 0x1FFFFFFFFFFE8#64 }) (s0.setGrFile { s0.lp.gr with
      ndirty := 1 })) ∧ Untrapped (arS (fun a => { a with bspstore := 0x1FFFFFFFFFFE8#64 }) (s0.setGrFile { s0.lp.gr
      with ndirty := 1 }))
    ∧ PlainRse (arS (fun a => { a with bspstore := 8#64 }) (s0.setGrFile { s0.lp.gr with ndirty := 95 })) ((arS (fun
      a => { a with bspstore := 8#64 }) (s0.setGrFile { s0.lp.gr with ndirty := 95 })).lp.ar.bspstore - 8#64) ∧
      ((arS (fun a => { a with bspstore := 8#64 }) (s0.setGrFile { s0.lp.gr with ndirty := 95 })).lp.ar.bspstore -
      8#64).toNat / 8 % 64 ≠ 63 ∧ (arS (fun a => { a with bspstore := 8#64 }) (s0.setGrFile { s0.lp.gr with ndirty
      := 95 })).lp.gr.bof < 96 ∧ (arS (fun a => { a with bspstore := 8#64 }) (s0.setGrFile { s0.lp.gr with ndirty :=
      95 })).lp.gr.ndirty < 96
    ∧ PlainRse (arS (fun a => { a with bspstore := 0x1F8#64 }) (s0.setGrFile { s0.lp.gr with ndirty := 0 })) ((arS
      (fun a => { a with bspstore := 0x1F8#64 }) (s0.setGrFile { s0.lp.gr with ndirty := 0 })).lp.ar.bspstore -
      8#64) ∧ ((arS (fun a => { a with bspstore := 0x1F8#64 }) (s0.setGrFile { s0.lp.gr with ndirty := 0
      })).lp.ar.bspstore - 8#64).toNat / 8 % 64 ≠ 63 ∧ (arS (fun a => { a with bspstore := 0x1F8#64 }) (s0.setGrFile
      { s0.lp.gr with ndirty := 0 })).lp.gr.bof < 96 ∧ (arS (fun a => { a with bspstore := 0x1F8#64 }) (s0.setGrFile
      { s0.lp.gr with ndirty := 0 })).lp.gr.ndirty < 96
    ∧ (0x1F0#64).toNat / 8 % 64 < 63
    ∧ ((0x200#64 : Word) - 0x200#64).toNat ≤ 0x20 ∧ (0#64 - 0#64 : Word).toNat ≤ 0x10
    ∧ ((fillDownTo 0x200#64 0x20 96 (arS (fun a => { a with bspstore := 0x200#64 }) s0)).toOption.any fun t =>
        t.lp.ar.bspstore == 0x1E0#64) = true
    ∧ ((fillDownTo 0x200#64 8 96 (stackAt 0x200#64 0)).toOption.any fun t => t.lp.gr.ndirty == 0) = true
    ∧ 8 < ((stackAt 0x1F8#64 1).lp.bsp - (stackAt 0x1F8#64 1).lp.ar.bspstore).toNat ∧ (stackAt 0x1F8#64 1).lp.gr.ndirty ≤ 96
    ∧ 760 < ((stackAt 0#64 96).lp.bsp - (stackAt 0#64 96).lp.ar.bspstore).toNat := by
  and_intros <;> first | decide +kernel | (simp only [MemoryCanonical] <;> decide +kernel)

/-- Obligations.InterruptionDelivery. -/
theorem witness_InterruptionDelivery :
    sE1.lp.psr.getLsbD 13 = true ∧ s0.lp.psr.getLsbD 13 = false ∧ externalInterrupt.offset % 256 = 0 ∧ 0x7F00 <
      0x8000 := by
  decide +kernel

/-- Obligations.TrapsAfterInstructions. -/
theorem witness_TrapsAfterInstructions :
    (psrS (1#64 <<< 40) s0).lp.readPr 0#6 = true ∧ (psrS (1#64 <<< 40) s0).lp.psrBit 40 = true ∧ unimplementedIp
      (psrS (1#64 <<< 40) s0) (psrS (1#64 <<< 40) s0).lp.ip = false ∧ unimplementedIp (psrS (1#64 <<< 40) s0) ((psrS
      (1#64 <<< 40) s0).lp.ip + 16#64) = false
    ∧ (psrS (1#64 <<< 26) s0).lp.psrBit 40 = false ∧ (psrS (1#64 <<< 26) s0).lp.psrBit 26 = true ∧ unimplementedIp
      (psrS (1#64 <<< 26) s0) (alignDown ((psrS (1#64 <<< 26) s0).lp.ip + ((0x0FFFFF#21).signExtend 64 <<< 4)) 4) =
      false ∧ (psrS (1#64 <<< 26) s0).lp.readPr 0#6 = true
    ∧ sFar.lp.readPr 0#6 = true ∧ sFar.lp.psrBit 40 = false ∧ sFar.lp.psrBit 26 = false ∧ unimplementedIp sFar
      (alignDown (sFar.lp.ip + ((1#21).signExtend 64 <<< 4)) 4) = true
    ∧ (at_ 0#64 1#2 s0).lp.ri.toNat < 2 ∧ 2 ≤ (at_ 0#64 2#2 s0).lp.ri.toNat
    ∧ Instr.nopM ⟨0#21, 0#6⟩ ≠ .rfi ∧ (match exec (.nopM ⟨0#21, 0#6⟩) s0 with
      | .next _ => true
      | _ => false) = true := by
  decide +kernel

/-- Obligations.ExternalInterrupts. -/
theorem witness_ExternalInterrupts :
    (beginStep sPending).lp.running = true ∧ (beginStep sPending).lp.interrupted = true ∧ faulted (runNext
      (beginStep sPending)) = false
    ∧ s0.lp.psr.getLsbD 14 = false
    ∧ fetch sPending = .ok nopBundle ∧ (fetch (at_ 0x4000000000000#64 0#2 s0)).toOption = none
    ∧ highestVector (1#256 <<< 255) = some 255 ∧ highestVector (1#256 <<< 16) = some 16 ∧ highestVector 5#256 = some
      2 ∧ highestVector 1#256 = some 0 ∧ highestVector 0#256 = none
    ∧ s0.lp.candidate s0.lp.pending = none ∧ sPending.lp.candidate sPending.lp.pending = some 0x20
    ∧ highestVector s0.lp.cr.inService = none
    ∧ sPending.lp.psr.getLsbD 14 = true ∧ sPending.lp.cr.irr.getLsbD 0x20 = true ∧ sPending.lp.unmasked 0x20 = true
    ∧ s0.lp.unmasked 255 = true ∧ s0.lp.unmasked 16 = true ∧ s0.lp.unmasked 2 = true ∧ s0.lp.unmasked 0 = true := by
  decide +kernel

/-- Obligations.StepRunsDecoded. -/
theorem witness_StepRunsDecoded :
    (beginStep sNops).lp.running = true ∧ (beginStep sNops).lp.interrupted = false ∧ instrBreak (atSlot ((beginStep
      sNops).withBundle nopBundle) nopBundle) = false ∧ decodeBundle nopBundle 0 = .ok (.nopM ⟨0#21, 0#6⟩)
    ∧ fetch (beginStep sNops) = .ok nopBundle
    ∧ decodeBundle (makeBundle 0x06#5 0#41 0#41 0#41) 0 = .error .template ∧ decodeBundle (makeBundle 0x16#5
      0x1e000000000#41 0#41 0#41) 0 = .error .illegal ∧ decodeBundle (makeBundle 0x00#5 0#41 0x0E000000000#41 0#41)
      1 = .error .notGiven
    ∧ s0.lp.psrBit 36 = false ∧ (0x1FFFFFFFFFFF0#64 &&& ~~~0xF#64).toNat % 2 ^ 63 < 2 ^ s0.params.paBits ∧
      inAperture 0x1FFFFFFFFFFF0 = false ∧ inRam s0.params 0x1FFFFFFFFFFF0 16 = true
    ∧ bundleUnit (makeBundle 0x04#5 0#41 0#41 0#41) 2 = .ok .x ∧ bundleUnit nopBundle 1 ≠ .ok .x
    ∧ (switchOf s0.free s0 s0).1 = none := by
  decide +kernel

/-- Obligations.ThreadsAndTime. -/
theorem witness_ThreadsAndTime :
    s0.bg.thr.started = false ∧ (switchOf 0 s0 s0).1 = none ∧ State.reset.params.wf = true
    ∧ (switchOf sAfter.free sBefore sAfter).1.isSome = true
    ∧ (crS (fun c => { c with itv := 0x20#64, itm := 1#64 }) s0).lp.cr.itv.getLsbD 16 = false ∧ 1 ≤ ((crS (fun c =>
      { c with itv := 0x20#64, itm := 1#64 }) s0).lp.cr.itm - s0.itc).toNat
    ∧ (crS (fun c => { c with itm := 1#64 }) s0).lp.cr.itm ≠ s0.lp.cr.itm
    ∧ (0#64 - s0.itc).toNat ≤ ticksOf s0.params 0
    ∧ s0.params.featMt = true ∧ sBefore.bg.thr.started = true
    ∧ (beginStep (halt sPending)).lp.running = false ∧ (halt sPending).lp.thr.halted = true
    ∧ ((halt sPending).lp.candidate (halt sPending).lp.pending).isSome = true
    ∧ (halt s0).lp.candidate (halt s0).lp.pending = none ∧ s0.lp.thr.halted = false := by
  decide +kernel

/-- Obligations.StepKeepsMemoryCanonical. -/
theorem witness_StepKeepsMemoryCanonical :
    MemoryCanonical State.reset ∧ ThreadsLegal State.reset := by
  and_intros <;> first | decide +kernel | (simp only [MemoryCanonical] <;> decide +kernel)

/-- Obligations.StepKeepsThreadsLegal. -/
theorem witness_StepKeepsThreadsLegal :
    ThreadsLegal sE1 ∧ ThreadsLegal full := by
  and_intros <;> decide +kernel

/-- Obligations.OnlyStoresWriteMemory. -/
theorem witness_OnlyStoresWriteMemory :
    Instr.mayStore (.nopM ⟨0#21, 0#6⟩) = false ∧ (run .m 0x08000000#41 s0).isSome = true := by
  decide +kernel

/-- Obligations.OnlyEpcRaisesPrivilege. -/
theorem witness_OnlyEpcRaisesPrivilege :
    (psrS (3#64 <<< 32) (arS (fun a => { a with pfs := 3#64 <<< 62 }) s0)).lp.ev.vector = none ∧ (run .b
      0x00080000000#41 (psrS (3#64 <<< 32) (arS (fun a => { a with pfs := 3#64 <<< 62 }) s0))).any (fun t =>
      t.lp.ev.vector.isNone && decide (t.lp.cpl < (psrS (3#64 <<< 32) (arS (fun a => { a with pfs := 3#64 <<< 62 })
      s0)).lp.cpl)) = true := by
  decide +kernel

/-- Obligations.DecodeEncode. -/
theorem witness_DecodeEncode :
    Instr.wellFormed (.nopM ⟨0x1FFFFF#21, 63#6⟩) = true ∧ (encode (.nopM ⟨0x1FFFFF#21, 63#6⟩)).isSome = true ∧
      (encode (.add { qp := 0#6, r1 := 127#7, r2 := 0#7, r3 := 127#7 })).any (fun e => decide (e.unit = .a)) = true
      ∧ Instr.unencoded (.popcnt { qp := 0#6, r1 := 1#7, r3 := 2#7 }) = true := by
  decide +kernel

end Sys2Proof.Tests

end
end

