-- ==== Sys2Proof/Proofs/RegisterFiles.lean ====
section
/-!
The register files (10 R53 to R59): which numbers may be named, that different numbers lead to different places, and where a
rotation leads them.
-/

namespace Sys2Proof.Machine

/-! ## General registers -/

/-- How far the number of a stacked register is turned by the rename base. -/
def LP.stackTurn (l : LP) (i : Nat) : Nat := if i < 8 * l.sor then (i + l.rrbGr) % (8 * l.sor) else i

theorem grPlace_zero (l : LP) : l.grPlace 0 = .zero := rfl
theorem grPlace_low {l : LP} {n : Nat} (h0 : n ≠ 0) (h : n < 16) : l.grPlace n = .low (n - 1) := by
  simp [LP.grPlace, h0, h]
theorem grPlace_bank {l : LP} {n : Nat} (h0 : 16 ≤ n) (h : n < 32) : l.grPlace n = .bank (l.psrBit 44) (n - 16) := by
  simp [LP.grPlace, h, show n ≠ 0 by omega, show ¬ n < 16 by omega]
theorem grPlace_stacked {l : LP} {n : Nat} (h0 : 32 ≤ n) (h : n < 32 + l.sof) :
    l.grPlace n = .stacked ((l.gr.bof + l.stackTurn (n - 32)) % 96) := by
  simp [LP.grPlace, LP.stackTurn, show n ≠ 0 by omega, show ¬ n < 16 by omega, show ¬ n < 32 by omega,
    show n - 32 < l.sof by omega]
theorem grPlace_outside {l : LP} {n : Nat} (h : 32 + l.sof ≤ n) : l.grPlace n = .outside := by
  simp [LP.grPlace, show n ≠ 0 by omega, show ¬ n < 16 by omega, show ¬ n < 32 by omega, show ¬ n - 32 < l.sof by omega]

/-- The four kinds of numbers that may be read. -/
theorem grNumber_cases (l : LP) (n : Nat) :
    n = 0 ∨ (n ≠ 0 ∧ n < 16) ∨ (16 ≤ n ∧ n < 32) ∨ (32 ≤ n ∧ n < 32 + l.sof) ∨ 32 + l.sof ≤ n := by omega

theorem grReadable_iff (l : LP) (r : BitVec 7) : l.grReadable r = true ↔ r.toNat < 32 + l.sof := by
  unfold LP.grReadable
  rcases grNumber_cases l r.toNat with h | ⟨h0, h⟩ | ⟨h0, h⟩ | ⟨h0, h⟩ | h
  · simp [h, grPlace_zero]
  · simp [grPlace_low h0 h]; omega
  · simp [grPlace_bank h0 h]; omega
  · simp [grPlace_stacked h0 h]; omega
  · simp [grPlace_outside h]; omega

theorem grWritable_iff (l : LP) (r : BitVec 7) : l.grWritable r = true ↔ r.toNat ≠ 0 ∧ r.toNat < 32 + l.sof := by
  unfold LP.grWritable
  rcases grNumber_cases l r.toNat with h | ⟨h0, h⟩ | ⟨h0, h⟩ | ⟨h0, h⟩ | h
  · simp [h, grPlace_zero]
  · simp [grPlace_low h0 h]; omega
  · simp [grPlace_bank h0 h]; omega
  · simp [grPlace_stacked h0 h]; omega
  · simp [grPlace_outside h]; omega

theorem stackTurn_lt {l : LP} (h : 8 * l.sor ≤ l.sof) {i : Nat} (hi : i < l.sof) : l.stackTurn i < l.sof := by
  unfold LP.stackTurn; split
  · exact (Nat.mod_lt _ (by omega)).trans_le h
  · exact hi

/-- Adding a fixed number modulo `m` is one-to-one below `m`. -/
theorem add_mod_inj {i j c m : Nat} (hi : i < m) (hj : j < m) (h : (i + c) % m = (j + c) % m) : i = j :=
  (Nat.ModEq.add_right_cancel' c h).eq_of_lt_of_lt hi hj

/-- The rename base turns the rotating registers among themselves. -/
theorem stackTurn_inj {l : LP} {i j : Nat} (h : l.stackTurn i = l.stackTurn j) : i = j := by
  unfold LP.stackTurn at h
  split at h <;> split at h
  · exact add_mod_inj ‹_› ‹_› h
  · have := Nat.mod_lt (i + l.rrbGr) (show 0 < 8 * l.sor by omega); omega
  · have := Nat.mod_lt (j + l.rrbGr) (show 0 < 8 * l.sor by omega); omega
  · exact h

/-- Two stacked registers of the frame lie at two places: the frame has at most 96 registers. -/
theorem grPlace_stacked_inj {l : LP} {m n : Nat} (hs : l.sof ≤ 96) (hr : 8 * l.sor ≤ l.sof) (hm : 32 ≤ m)
    (hm' : m < 32 + l.sof) (hn : 32 ≤ n) (hn' : n < 32 + l.sof) (h : l.grPlace m = l.grPlace n) : m = n := by
  rw [grPlace_stacked hm hm', grPlace_stacked hn hn', GrPlace.stacked.injEq, Nat.add_comm, Nat.add_comm l.gr.bof] at h
  have hlt {i : Nat} (hi : i < l.sof) : l.stackTurn i < 96 := (stackTurn_lt hr hi).trans_le hs
  have := stackTurn_inj (add_mod_inj (hlt (by omega)) (hlt (by omega)) h)
  omega

/-- The number of a place as far as the place tells it: the stacked registers all count as 32. -/
def GrPlace.number : GrPlace → Nat
  | .zero => 0
  | .low i => i + 1
  | .bank _ i => i + 16
  | .stacked _ => 32
  | .outside => 33

theorem number_grPlace {l : LP} {n : Nat} (h : n < 32 + l.sof) : (l.grPlace n).number = min n 32 := by
  rcases grNumber_cases l n with h' | ⟨h0, h'⟩ | ⟨h0, h'⟩ | ⟨h0, h'⟩ | h'
  · rw [h', grPlace_zero]; rfl
  · rw [grPlace_low h0 h', GrPlace.number]; omega
  · rw [grPlace_bank h0 h', GrPlace.number]; omega
  · rw [grPlace_stacked h0 h', GrPlace.number]; omega
  · omega

/-- Two numbers in the frame lead to two places. -/
theorem grPlace_inj {l : LP} {m n : Nat} (hs : l.sof ≤ 96) (hr : 8 * l.sor ≤ l.sof) (hm : m < 32 + l.sof)
    (hn : n < 32 + l.sof) (h : l.grPlace m = l.grPlace n) : m = n := by
  have hmin : min m 32 = min n 32 := by rw [← number_grPlace hm, ← number_grPlace hn, h]
  by_cases hm32 : m < 32
  · omega
  · exact grPlace_stacked_inj hs hr (by omega) hm (by omega) hn h

/-- A write of a general register leaves every other register of the frame alone. -/
theorem gr_setGr {s : State} {r q : BitVec 7} (v : Reg) (hs : s.lp.sof ≤ 96) (hr : 8 * s.lp.sor ≤ s.lp.sof)
    (hw : s.lp.grWritable r = true) (hq : s.lp.grReadable q = true) :
    (s.setGr r v).lp.gr? q = if q = r then v else s.lp.gr? q := by
  by_cases h : q = r
  · rw [if_pos h, h, setGr_same v hw]
  · have hne : s.lp.grPlace q.toNat ≠ s.lp.grPlace r.toNat := fun e =>
      h (BitVec.eq_of_toNat_eq (grPlace_inj hs hr ((grReadable_iff _ _).1 hq) ((grWritable_iff _ _).1 hw).2 e))
    rw [if_neg h, LP.gr?, setGr_grPlace, setGr_other v hne, LP.gr?]

/-! ## Floating-point registers -/

theorem fr_setFr (s : State) {f : BitVec 7} (g : BitVec 7) (v : FReg) (h : 2 ≤ f.toNat) :
    (s.setFr f v).lp.fr? g = if g = f then v else s.lp.fr? g := by
  by_cases hg : g = f
  · rw [if_pos hg, hg, setFr_same v h]
  · rw [if_neg hg, setFr_other v h hg]

theorem setBit_same (w : Word) {i : Nat} (b : Bool) (h : i < 64) : (setBit w i b).getLsbD i = b := by
  cases b <;> simp [setBit, h, -BitVec.getLsbD_eq_getElem]

/-- A write is recorded in `mfl` (bit 4) below `f32` and in `mfh` (bit 5) from there on. -/
theorem setFr_psr_bit (s : State) (f : BitVec 7) (v : FReg) (i : Nat) :
    (s.setFr f v).lp.psr.getLsbD i =
      if i = 4 ∧ f.toNat < 32 ∨ i = 5 ∧ 32 ≤ f.toNat then true else s.lp.psr.getLsbD i := by
  have hpsr : (s.setFr f v).lp.psr = setBit s.lp.psr (if f.toNat < 32 then 4 else 5) true := rfl
  rw [hpsr]
  by_cases hf : f.toNat < 32
  · by_cases hi : i = 4
    · simp only [hi, hf]; exact setBit_same _ _ (by decide)
    · rw [if_pos hf, setBit_get _ _ _ _ hi, if_neg (by omega)]
  · by_cases hi : i = 5
    · rw [if_neg hf, hi, setBit_same _ _ (by decide), if_pos (by omega)]
    · rw [if_neg hf, setBit_get _ _ _ _ hi, if_neg (by omega)]

/-! ## Predicates -/

/-- Two predicates lie at two places. -/
theorem prIndex_inj (l : LP) {p q : BitVec 6} (h : l.prIndex p.toNat = l.prIndex q.toNat) : p = q := by
  have := p.isLt; have := q.isLt
  apply BitVec.eq_of_toNat_eq
  unfold LP.prIndex at h
  split at h <;> split at h <;> omega

theorem readPr_setPr_other (l : LP) {p q : BitVec 6} (b : Bool) (h : q ≠ p) : (l.setPr p b).readPr q = l.readPr q := by
  by_cases hp : p = 0#6
  · simp [LP.setPr, hp]
  · have hq : (setBit l.pr (l.prIndex p.toNat) b).getLsbD (l.prIndex q.toNat) = l.pr.getLsbD (l.prIndex q.toNat) :=
      setBit_get _ _ _ _ fun e => h (prIndex_inj l e)
    rw [LP.setPr, if_neg hp, LP.readPr, LP.readPr]
    exact congrArg (fun x => if q = 0#6 then true else x) hq

theorem pr_setPr (l : LP) {p : BitVec 6} (q : BitVec 6) (b : Bool) (h : p ≠ 0#6) :
    (l.setPr p b).readPr q = if q = p then b else l.readPr q := by
  by_cases hq : q = p
  · rw [if_pos hq, hq, readPr_setPr l p b h]
  · rw [if_neg hq, readPr_setPr_other l b hq]

/-! ## Rotation -/

/-- A rotation leaves the values in the general registers alone. -/
theorem rotated_grAt (s : State) (b : Bool) (p : GrPlace) : (s.rotated b).lp.grAt p = s.lp.grAt p := by
  obtain ⟨c, q, e, -⟩ := rotated_parts s b
  rw [e]; cases p <;> rfl

theorem rotated_bof (s : State) (b : Bool) : (s.rotated b).lp.gr.bof = s.lp.gr.bof := by
  obtain ⟨c, q, e, -⟩ := rotated_parts s b
  rw [e]

theorem rotated_frFile (s : State) (b : Bool) : (s.rotated b).lp.fr = s.lp.fr := by
  obtain ⟨c, q, e, -⟩ := rotated_parts s b
  rw [e]

theorem rotated_stackTurn (s : State) (b : Bool) {k : Nat} (h : k + 1 < 8 * s.lp.sor) :
    (s.rotated b).lp.stackTurn (k + 1) = s.lp.stackTurn k := by
  obtain ⟨-, -, hsor, hgr, -, -⟩ := rotated_fields s b
  have hk : k < 8 * s.lp.sor := by omega
  have hs : s.lp.sor ≠ 0 := by omega
  rw [LP.stackTurn, LP.stackTurn, hsor, hgr, if_pos h, if_pos hk, if_neg hs, Nat.add_mod_mod,
    show k + 1 + (s.lp.rrbGr + 8 * s.lp.sor - 1) = k + s.lp.rrbGr + 8 * s.lp.sor by omega, Nat.add_mod_right]

/-- A rotating general register has the value of its neighbour below. -/
theorem rotated_gr (s : State) (b : Bool) {k : Nat} (hr : 8 * s.lp.sor ≤ s.lp.sof) (hk : k + 1 < 8 * s.lp.sor)
    (h128 : k + 33 < 128) :
    (s.rotated b).lp.gr? (BitVec.ofNat 7 (33 + k)) = s.lp.gr? (BitVec.ofNat 7 (32 + k)) := by
  have hsof : (s.rotated b).lp.sof = s.lp.sof := (rotated_fields s b).1
  have hplace : (s.rotated b).lp.grPlace (33 + k) = s.lp.grPlace (32 + k) := by
    rw [grPlace_stacked (by omega) (by omega), grPlace_stacked (by omega) (by omega), rotated_bof,
      show 33 + k - 32 = k + 1 by omega, rotated_stackTurn s b hk, show 32 + k - 32 = k by omega]
  rw [LP.gr?, LP.gr?, BitVec.toNat_ofNat, BitVec.toNat_ofNat, Nat.mod_eq_of_lt (by omega), Nat.mod_eq_of_lt (by omega),
    hplace, rotated_grAt]

/-- A register from `f32` on lies at the place of its number. -/
theorem fr_rotating (l : LP) {n : Nat} (h : 32 ≤ n) (h' : n < 128) :
    l.fr? (BitVec.ofNat 7 n) = l.fr.getD (30 + (n - 32 + l.rrbFr) % 96) 0#82 := by
  have h0 : BitVec.ofNat 7 n ≠ 0#7 := by bv_omega
  have h1 : BitVec.ofNat 7 n ≠ 1#7 := by bv_omega
  rw [LP.fr?, if_neg h0, if_neg h1, BitVec.toNat_ofNat, Nat.mod_eq_of_lt (by omega), LP.frIndex, if_neg (by omega)]

theorem rotated_fr (s : State) (b : Bool) {k : Nat} (hk : k < 95) :
    (s.rotated b).lp.fr? (BitVec.ofNat 7 (33 + k)) = s.lp.fr? (BitVec.ofNat 7 (32 + k)) := by
  obtain ⟨-, -, -, -, hfr, -⟩ := rotated_fields s b
  rw [fr_rotating _ (by omega) (by omega), fr_rotating _ (by omega) (by omega), hfr, rotated_frFile]
  congr 2; omega

/-- A predicate from 16 on lies at the place of its number. -/
theorem pr_rotating (l : LP) {n : Nat} (h : 16 ≤ n) (h' : n < 64) :
    l.readPr (BitVec.ofNat 6 n) = l.pr.getLsbD (16 + (n - 16 + l.rrbPr) % 48) := by
  have h0 : BitVec.ofNat 6 n ≠ 0#6 := by bv_omega
  rw [LP.readPr, if_neg h0, BitVec.toNat_ofNat, Nat.mod_eq_of_lt (by omega), LP.prIndex, if_neg (by omega)]

/-- A rotating predicate but the one a rotation writes has the value of its neighbour below. -/
theorem rotated_pr (s : State) (b : Bool) {k : Nat} (hk : k < 46) :
    (s.rotated b).lp.readPr (BitVec.ofNat 6 (17 + k)) = s.lp.readPr (BitVec.ofNat 6 (16 + k)) := by
  obtain ⟨-, -, -, -, -, hpr⟩ := rotated_fields s b
  have hrrb : ({ s.lp with cfm := rotate s.lp } : LP).rrbPr = (s.lp.rrbPr + 47) % 48 := by
    rw [← hpr, LP.rrbPr, LP.rrbPr, rotated_cfm]
  have hne : BitVec.ofNat 6 (17 + k) ≠ 63#6 := by bv_omega
  calc (s.rotated b).lp.readPr (BitVec.ofNat 6 (17 + k))
    _ = ({ s.lp with cfm := rotate s.lp } : LP).readPr (BitVec.ofNat 6 (17 + k)) := readPr_setPr_other _ b hne
    _ = s.lp.pr.getLsbD (16 + (17 + k - 16 + (s.lp.rrbPr + 47) % 48) % 48) := by
      rw [pr_rotating _ (by omega) (by omega), hrrb]
    _ = s.lp.readPr (BitVec.ofNat 6 (16 + k)) := by
      rw [pr_rotating _ (by omega) (by omega)]; congr 2; omega

/-- Settles O40: each clause is a rule of one register file. -/
theorem registerFiles : Obligations.RegisterFiles := by
  unfold Obligations.RegisterFiles
  refine ⟨fun l => ⟨rfl, rfl, rfl, rfl, fun b => rfl⟩, fun l r => ⟨grReadable_iff l r, grWritable_iff l r⟩, ?_, ?_, ?_, ?_⟩
  · exact fun s r q v hs hr hw hq => ⟨gr_setGr v hs hr hw hq, setGr_only s r v⟩
  · exact fun s f g v hf => ⟨fr_setFr s g v hf, setFr_psr_bit s f v, setFr_only s f v⟩
  · exact fun l p q b hp => ⟨pr_setPr l q b hp, setPr_only l p b⟩
  · exact fun s b k => ⟨fun hr _ hk h128 => rotated_gr s b hr hk h128, fun hk _ => rotated_fr s b hk,
      fun hk _ => rotated_pr s b hk⟩

end Sys2Proof.Machine
end

