-- ==== Sys2Proof/Proofs/ResetState.lean ====
section
/-!
The state after reset (70 R1382) is a state from which the invariants of the step can start.
-/

namespace Sys2Proof.Machine

/-- The reset status, the reset address and the reset predicates are legal for both threads (10 R56, R57, R63). -/
theorem reset_threadsLegal : ThreadsLegal State.reset := ⟨by decide +kernel, by decide +kernel⟩

/-- Settles O52: both threads by `reset_threadsLegal`, the memory as it is empty, the parameters by evaluation. -/
theorem resetMeetsInvariants : Obligations.ResetMeetsInvariants :=
  ⟨reset_threadsLegal, rfl, by decide +kernel⟩

end Sys2Proof.Machine
end

