-- ==== Sys2Proof/Proofs/StatusBits.lean ====
section
/-!
What keeps a thread legal (10 R55 to R57, R63): the bits of the processor status that a legal one has 0, and the writes of fields
and bits, of the instruction pointer and of the predicates that leave it legal.
-/

namespace Sys2Proof.Machine

/-! ## The bits of a field -/

theorem fieldMask_bit {len : Nat} (h : len ≤ 63) (j : Nat) : ((1#64 <<< len) - 1#64).getLsbD j = decide (j < len) := by
  have hlt : 2 ^ len < 2 ^ 64 := Nat.pow_lt_pow_right (by decide) (by omega)
  have hpos : 0 < 2 ^ len := Nat.two_pow_pos len
  have hmask : (1#64 <<< len) - 1#64 = BitVec.ofNat 64 (2 ^ len - 1) := by
    apply BitVec.eq_of_toNat_eq
    simp only [BitVec.toNat_sub, BitVec.toNat_shiftLeft, BitVec.toNat_ofNat, Nat.shiftLeft_eq]
    omega
  rw [hmask, BitVec.getLsbD_ofNat, Nat.testBit_two_pow_sub_one]
  simp only [Bool.and_eq_right_iff_imp, decide_eq_true_eq]
  omega

theorem field_bit (w : Word) (lo : Nat) {len : Nat} (h : len ≤ 63) (j : Nat) :
    (field w lo len).getLsbD j = (decide (j < len) && w.getLsbD (lo + j)) := by
  rw [field, BitVec.getLsbD_and, BitVec.getLsbD_ushiftRight, fieldMask_bit h, Bool.and_comm]

theorem setField_bit (w v : Word) {lo len : Nat} (h : lo + len ≤ 63) (i : Nat) :
    (setField w lo len v).getLsbD i = if lo ≤ i ∧ i < lo + len then v.getLsbD (i - lo) else w.getLsbD i := by
  have hm : (((1#64 <<< len) - 1#64) <<< lo).getLsbD i = decide (lo ≤ i ∧ i < lo + len) := by
    rw [BitVec.getLsbD_shiftLeft, fieldMask_bit (by omega), Bool.eq_iff_iff]
    simp only [Bool.and_eq_true, decide_eq_true_eq, Bool.not_eq_true', decide_eq_false_iff_not]
    omega
  simp only [setField, BitVec.getLsbD_or, BitVec.getLsbD_and, BitVec.getLsbD_not, hm, BitVec.getLsbD_shiftLeft]
  by_cases hi : lo ≤ i ∧ i < lo + len
  · simp [hi, show i < 64 by omega, show ¬ i < lo by omega]
  · by_cases hi64 : i < 64
    · simp [hi, hi64]
    · simp [hi, BitVec.getLsbD_of_ge w i (by omega)]

theorem and_eq_zero_iff (w m : Word) : w &&& m = 0#64 ↔ ∀ i, m.getLsbD i = true → w.getLsbD i = false := by
  constructor
  · intro h i hi
    simpa [hi] using congrArg (fun x => BitVec.getLsbD x i) h
  · intro h
    apply BitVec.eq_of_getLsbD_eq
    intro i _
    by_cases hm : m.getLsbD i = true
    · simp [h i hm]
    · simp [hm]

/-! ## The processor status -/

/-- The bits that are 0 in a legal processor status: the reserved ones, `is` (34) and `vm` (46). -/
def statusZero : Word := psrReserved ||| BitVec.twoPow 64 34 ||| BitVec.twoPow 64 46

theorem statusZero_bit (i : Nat) :
    statusZero.getLsbD i = true ↔ psrReserved.getLsbD i = true ∨ i = 34 ∨ i = 46 := by
  rw [statusZero, BitVec.getLsbD_or, BitVec.getLsbD_or, BitVec.getLsbD_twoPow, BitVec.getLsbD_twoPow]
  generalize psrReserved.getLsbD i = b
  cases b <;> simp; omega

theorem slot_ne_three_iff (w : Word) : field w 41 2 ≠ 3#64 ↔ ¬ (w.getLsbD 41 = true ∧ w.getLsbD 42 = true) := by
  refine not_congr ⟨fun h => ?_, fun h => ?_⟩
  · have hbit (j : Nat) := field_bit w 41 (len := 2) (by decide) j
    rw [h] at hbit
    exact ⟨by simpa using (hbit 0).symm, by simpa using (hbit 1).symm⟩
  · apply BitVec.eq_of_getLsbD_eq
    intro j _
    rw [field_bit _ _ (by decide), show 3#64 = (1#64 <<< 2) - 1#64 from rfl, fieldMask_bit (by decide)]
    match j with
    | 0 => simpa using h.1
    | 1 => simpa using h.2
    | j + 2 => simp

theorem statusLegal_iff (w : Word) : statusLegal w = true ↔
    (∀ i, statusZero.getLsbD i = true → w.getLsbD i = false) ∧ ¬ (w.getLsbD 41 = true ∧ w.getLsbD 42 = true) := by
  simp only [statusLegal, Bool.and_eq_true, decide_eq_true_eq, Bool.not_eq_true', and_eq_zero_iff, slot_ne_three_iff,
    statusZero_bit]
  constructor
  · rintro ⟨⟨⟨hres, hslot⟩, h34⟩, h46⟩
    refine ⟨?_, hslot⟩
    rintro i (h | rfl | rfl)
    exacts [hres i h, h34, h46]
  · rintro ⟨hz, hslot⟩
    exact ⟨⟨⟨fun i h => hz i (.inl h), hslot⟩, hz 34 (.inr (.inl rfl))⟩, hz 46 (.inr (.inr rfl))⟩

/-- A processor status whose bits that a legal one has 0, and whose slot number, are those of another is legal with it. -/
theorem statusLegal_congr {v w : Word}
    (h : ∀ i, statusZero.getLsbD i = true ∨ i = 41 ∨ i = 42 → v.getLsbD i = w.getLsbD i) :
    statusLegal v = statusLegal w := by
  rw [Bool.eq_iff_iff, statusLegal_iff, statusLegal_iff, h 41 (by simp), h 42 (by simp)]
  exact and_congr_left' (forall_congr' fun i => forall_congr' fun hi => by rw [h i (.inl hi)])

/-- Clearing bits leaves a legal processor status legal. -/
theorem statusLegal_and {w : Word} (m : Word) (h : statusLegal w = true) : statusLegal (w &&& m) = true := by
  rw [statusLegal_iff] at h ⊢
  obtain ⟨hz, hslot⟩ := h
  refine ⟨fun i hi => by rw [BitVec.getLsbD_and, hz i hi, Bool.false_and], fun hboth => hslot ?_⟩
  simp only [BitVec.getLsbD_and, Bool.and_eq_true] at hboth
  exact ⟨hboth.1.1, hboth.2.1⟩

/-- Setting bits below the slot number that are not among those a legal processor status has 0 leaves it legal. -/
theorem statusLegal_or {w m : Word} (hm : ∀ i, statusZero.getLsbD i = true ∨ i = 41 ∨ i = 42 → m.getLsbD i = false)
    (h : statusLegal w = true) : statusLegal (w ||| m) = true :=
  (statusLegal_congr fun i hi => by rw [BitVec.getLsbD_or, hm i hi, Bool.or_false]).trans h

/-- A bit that is neither among those a legal processor status has 0 nor of the slot number may have any value. -/
theorem statusLegal_setBit (w : Word) {k : Nat} (b : Bool) (hk : statusZero.getLsbD k = false) (hslot : k < 41 ∨ 42 < k) :
    statusLegal (setBit w k b) = statusLegal w := by
  refine statusLegal_congr fun i hi => setBit_get _ _ _ _ ?_
  rintro rfl
  rcases hi with h | h | h
  · rw [hk] at h; cases h
  · omega
  · omega

/-- A field outside the slot number may be replaced by one whose bits, at the places of the bits a legal processor status has 0,
are 0. -/
theorem statusLegal_setField {w v : Word} {lo len : Nat} (hlen : lo + len ≤ 41)
    (hv : ∀ i, lo ≤ i → i < lo + len → statusZero.getLsbD i = true → v.getLsbD (i - lo) = false)
    (h : statusLegal w = true) : statusLegal (setField w lo len v) = true := by
  rw [statusLegal_iff] at h ⊢
  obtain ⟨hz, hslot⟩ := h
  have hbit (i : Nat) := setField_bit w v (lo := lo) (len := len) (by omega) i
  refine ⟨fun i hi => ?_, ?_⟩
  · rw [hbit]; split
    · exact hv i (by omega) (by omega) hi
    · exact hz i hi
  · rwa [hbit, hbit, if_neg (by omega), if_neg (by omega)]

theorem slot_bits : ∀ r : BitVec 2, r ≠ 3#2 →
    ¬ ((r.setWidth 64).getLsbD (41 - 41) = true ∧ (r.setWidth 64).getLsbD (42 - 41) = true) := by decide

/-- A slot number below 3 may be set. -/
theorem statusLegal_setSlot {w : Word} {r : BitVec 2} (hr : r ≠ 3#2) (h : statusLegal w = true) :
    statusLegal (setField w 41 2 (r.setWidth 64)) = true := by
  rw [statusLegal_iff] at h ⊢
  obtain ⟨hz, -⟩ := h
  have hbit (i : Nat) := setField_bit w (r.setWidth 64) (lo := 41) (len := 2) (by decide) i
  refine ⟨fun i hi => ?_, ?_⟩
  · rw [hbit, if_neg, hz i hi]
    rintro ⟨h1, h2⟩
    obtain rfl | rfl : i = 41 ∨ i = 42 := by omega
    · exact absurd hi (by decide)
    · exact absurd hi (by decide)
  · rw [hbit, hbit, if_pos (by decide), if_pos (by decide)]
    exact slot_bits r hr

/-! ## The instruction pointer -/

theorem aligned_iff (w : Word) : w &&& 0xF#64 = 0#64 ↔ w.toNat % 16 = 0 := by
  rw [← BitVec.toNat_inj, BitVec.toNat_and]
  exact iff_of_eq (congrArg (· = 0) (Nat.and_two_pow_sub_one_eq_mod w.toNat 4))

theorem aligned_alignDown (w : Word) : alignDown w 4 &&& 0xF#64 = 0#64 := by
  rw [aligned_iff, alignDown]; bv_omega

theorem aligned_next {w : Word} (h : w &&& 0xF#64 = 0#64) : (w + 16#64) &&& 0xF#64 = 0#64 := by
  rw [aligned_iff] at h ⊢; bv_omega

/-- The address of a handler is that of a bundle. -/
theorem aligned_handler (iva offset : Word) : ((iva &&& ~~~0x7FFF#64) ||| (offset &&& 0x7F00#64)) &&& 0xF#64 = 0#64 := by
  have h1 : ~~~0x7FFF#64 &&& 0xF#64 = 0#64 := by decide
  have h2 : 0x7F00#64 &&& 0xF#64 = 0#64 := by decide
  rw [BitVec.and_or_distrib_right, BitVec.and_assoc, BitVec.and_assoc, h1, h2, BitVec.and_zero, BitVec.and_zero,
    BitVec.or_zero]

end Sys2Proof.Machine
end

