-- ==== Sys2Proof/Proofs/Answers.lean ====
section
/-!
Answers and outcomes under a property: a property holds of every result an answer can give, or of every next state an outcome can
be. One rule for each way an answer is made, so that a proof about an instruction follows its meaning line by line.
-/

namespace Sys2Proof.Machine

/-- Whatever an answer gives has a property. -/
def Yields {α : Type} (P : α → Prop) (x : Ans α) : Prop := ∀ a, x = .ok a → P a

/-- Whatever next state an outcome is has a property. -/
def Leads (P : State → Prop) (r : Result) : Prop := ∀ t, r = .next t → P t

section
variable {α β : Type} {P : α → Prop} {Q : β → Prop}

theorem Yields.ok {a : α} (h : P a) : Yields P (.ok a) := by
  rintro b ⟨⟩; exact h

theorem Yields.error (e : Abort) : Yields P (.error e) := by rintro b ⟨⟩

theorem Yields.raise (e : Exc) : Yields P (raise e) := .error _

theorem Yields.mono {R : α → Prop} {x : Ans α} (h : Yields P x) (hr : ∀ a, P a → R a) : Yields R x :=
  fun a ha => hr a (h a ha)

/-- An answer that goes on from a result of which a property is known. -/
theorem Yields.bind {x : Ans α} {f : α → Ans β} (h : Yields P x) (hf : ∀ a, P a → Yields Q (f a)) : Yields Q (x >>= f) := by
  intro b hb
  obtain ⟨a, ha, hfa⟩ := bind_eq_ok.1 hb
  exact hf a (h a ha) b hfa

/-- An answer that goes on from a result of which nothing is asked. -/
theorem Yields.skip {x : Ans α} {f : α → Ans β} (hf : ∀ a, Yields Q (f a)) : Yields Q (x >>= f) :=
  .bind (P := fun _ => True) (fun _ _ => trivial) fun a _ => hf a

/-- An answer that goes on where a condition holds. -/
theorem Yields.require {b : Bool} {e : Exc} {f : Unit → Ans β} (hf : b = true → Yields Q (f ())) :
    Yields Q (require b e >>= f) :=
  .bind (P := fun _ => b = true) (fun _ h => require_eq_ok.1 h) fun _ h => hf h

theorem Yields.map {x : Ans α} {f : α → β} (h : Yields P x) (hf : ∀ a, P a → Q (f a)) : Yields Q (x.map f) := by
  cases x with
  | error e => exact .error e
  | ok a => exact .ok (hf a (h a rfl))

theorem Yields.ite {c : Prop} [Decidable c] {x y : Ans α} (hx : c → Yields P x) (hy : ¬ c → Yields P y) :
    Yields P (if c then x else y) := by
  split
  · exact hx ‹_›
  · exact hy ‹_›

end

theorem Leads.next {P : State → Prop} {t : State} (h : P t) : Leads P (.next t) := by
  rintro u ⟨⟩; exact h

theorem Leads.fault {P : State → Prop} (f : Fault) : Leads P (.fault f) := by rintro t ⟨⟩

theorem Leads.refused {P : State → Prop} (r : Refusal) : Leads P (.refused r) := by rintro t ⟨⟩

/-- An instruction ends in the state its effect gives, or in the delivery of an exception from the state before it. -/
theorem Leads.finish {P : State → Prop} {s : State} {x : Ans State} (he : ∀ e, P (deliver e s.lp.ri s)) (hx : Yields P x) :
    Leads P (finish s x) := by
  rcases x with (e | f | r) | t
  · exact .next (he e)
  · exact .fault f
  · exact .refused r
  · exact .next (hx t rfl)

end Sys2Proof.Machine
end

