-- ==== Sys2Proof/Proofs/LegalUpdates.lean ====
section
/-!
The updates of the state, the accesses to memory and the register stack engine leave both threads legal (10 R55 to R57, R63). A
legal thread is so by its processor status, its instruction pointer and its predicate 0 alone, so an update of anything else needs
no argument.
-/

namespace Sys2Proof.Machine

open Sys2Proof.Config

/-! ## The named updates of the state -/

section
variable {s t : State}

theorem threadsLegal_iff (s : State) : ThreadsLegal s ↔
    (statusLegal s.lp.psr = true ∧ s.lp.ip &&& 0xF#64 = 0#64 ∧ s.lp.pr.getLsbD 0 = true) ∧ s.bg.legal = true := by
  simp only [ThreadsLegal, LP.legal, Bool.and_eq_true, decide_eq_true_eq, and_assoc]

/-- Nothing but the processor status, the instruction pointer and predicate 0 of the foreground thread, and the background thread,
makes a state legal. -/
theorem ThreadsLegal.of_parts (h : ThreadsLegal s) (hpsr : statusLegal t.lp.psr = statusLegal s.lp.psr)
    (hip : t.lp.ip = s.lp.ip) (hpr : t.lp.pr.getLsbD 0 = s.lp.pr.getLsbD 0) (hbg : t.bg = s.bg) : ThreadsLegal t := by
  rw [threadsLegal_iff] at h ⊢
  rwa [hpsr, hip, hpr, hbg]

theorem legal_seen (h : ThreadsLegal s) (hseen : Seen s t) : ThreadsLegal t := by
  rw [hseen]; exact h

theorem legal_setGr (h : ThreadsLegal s) (r : BitVec 7) (v : Reg) : ThreadsLegal (s.setGr r v) :=
  h.of_parts (by rw [setGr_lp_psr]) (setGr_lp_ip ..) (by rw [setGr_lp_pr]) rfl

theorem legal_postInc (h : ThreadsLegal s) (r : BitVec 7) (b : Reg) (inc : Inc) (i : Reg) :
    ThreadsLegal (s.postInc r b inc i) := by
  unfold State.postInc; split
  · exact legal_setGr h ..
  · exact h

theorem legal_setFr (h : ThreadsLegal s) (f : BitVec 7) (v : FReg) : ThreadsLegal (s.setFr f v) := by
  refine h.of_parts ?_ rfl rfl rfl
  refine statusLegal_setBit _ _ ?_ (.inl ?_)
  · split <;> decide
  · split <;> decide

theorem prIndex_pos (l : LP) {p : BitVec 6} (h : p ≠ 0#6) : 0 < l.prIndex p.toNat := by
  have : p.toNat ≠ 0 := fun e => h (BitVec.eq_of_toNat_eq e)
  unfold LP.prIndex; split <;> omega

/-- A write of a predicate leaves predicate 0 alone (10 R57). -/
theorem setPr_bit_zero (l : LP) (p : BitVec 6) (b : Bool) : (l.setPr p b).pr.getLsbD 0 = l.pr.getLsbD 0 := by
  unfold LP.setPr; split
  · rfl
  · exact setBit_get _ _ _ _ (prIndex_pos l ‹_›).ne

theorem setPr_legal (l : LP) (p : BitVec 6) (b : Bool) : (l.setPr p b).legal = l.legal := by
  rw [LP.legal, setPr_psr, setPr_ip, setPr_bit_zero, LP.legal]

theorem legal_setPr (h : ThreadsLegal s) (p : BitVec 6) (b : Bool) : ThreadsLegal (s.setLp (s.lp.setPr p b)) :=
  ⟨(setPr_legal ..).trans h.1, h.2⟩

theorem legal_setPr2 (h : ThreadsLegal s) (p q : BitVec 6) (a b : Bool) : ThreadsLegal (s.setPr2 p q a b) :=
  ⟨(setPr_legal ..).trans ((setPr_legal ..).trans h.1), h.2⟩

theorem legal_writeCompare (h : ThreadsLegal s) (ct : CType) (p q : BitVec 6) (rel nat : Bool) :
    ThreadsLegal (writeCompare ct s p q rel nat) := by
  unfold writeCompare
  cases ct with
  | none | unc => dsimp only; split <;> exact legal_setPr2 h ..
  | and | or | orAndcm =>
    dsimp only
    split
    · exact legal_setPr2 h ..
    · exact h

/-- A move to the predicates leaves predicate 0 alone (41 R552, R553). -/
theorem legal_setPrs (h : ThreadsLegal s) (mask v : Word) : ThreadsLegal (s.setPrs mask v) := by
  refine h.of_parts rfl rfl ?_ rfl
  simp [State.setPrs, BitVec.getLsbD_or, BitVec.getLsbD_and, BitVec.getLsbD_not, -BitVec.getLsbD_eq_getElem]

theorem legal_rotated (h : ThreadsLegal s) (b : Bool) : ThreadsLegal (s.rotated b) := by
  obtain ⟨c, p, e, -⟩ := rotated_parts s b
  refine h.of_parts (by rw [(rotated_psr s b).1]) (by rw [e]) ?_ (by rw [e])
  exact setPr_bit_zero { s.lp with cfm := rotate s.lp } 63#6 b

theorem legal_epilog (h : ThreadsLegal s) : ThreadsLegal (epilog s).1 := by
  rw [epilog_cases]; split
  · exact legal_rotated (s := s.setEc _) h _
  · split
    · exact legal_rotated (s := s.setEc _) h _
    · exact legal_setPr h ..

theorem legal_atLevel (h : ThreadsLegal s) (pl : BitVec 2) : ThreadsLegal (s.atLevel pl) := by
  rw [threadsLegal_iff] at h ⊢
  obtain ⟨⟨hpsr, hip⟩, hbg⟩ := h
  refine ⟨⟨statusLegal_setField (by decide) (fun i h1 h2 hi => ?_) hpsr, hip⟩, hbg⟩
  obtain rfl | rfl : i = 32 ∨ i = 33 := by omega
  · exact absurd hi (by decide)
  · exact absurd hi (by decide)

theorem legal_setRi (h : ThreadsLegal s) {r : BitVec 2} (hr : r ≠ 3#2) : ThreadsLegal (s.setLp (s.lp.setRi r)) := by
  rw [threadsLegal_iff] at h ⊢
  obtain ⟨⟨hpsr, hip⟩, hbg⟩ := h
  exact ⟨⟨statusLegal_setSlot hr hpsr, hip⟩, hbg⟩

theorem legal_allocAlat (h : ThreadsLegal s) (fp : Bool) (r : BitVec 7) (pa n : Nat) : ThreadsLegal (s.allocAlat fp r pa n) :=
  legal_seen h (seen_allocAlat ..)

/-! ## Interruptions and the end of an instruction -/

theorem statusLegal_handlerPsr {psr : Word} (dcr : Word) (h : statusLegal psr = true) :
    statusLegal (handlerPsr psr dcr) = true := by
  unfold handlerPsr
  rw [statusLegal_setBit _ _ (by decide) (by decide), statusLegal_setBit _ _ (by decide) (by decide)]
  exact statusLegal_and _ h

theorem legal_deliver (h : ThreadsLegal s) (e : Exc) (ei : BitVec 2) : ThreadsLegal (deliver e ei s) := by
  rw [threadsLegal_iff] at h ⊢
  obtain ⟨⟨hpsr, -, hpr⟩, hbg⟩ := h
  exact ⟨⟨statusLegal_handlerPsr _ hpsr, aligned_handler .., hpr⟩, hbg⟩

/-- The next address is that of a bundle, and the next slot number is below 3. -/
theorem nextPlace_legal {l : LP} (e : Ending) (hip : l.ip &&& 0xF#64 = 0#64) :
    (nextPlace l e).1 &&& 0xF#64 = 0#64 ∧ (nextPlace l e).2 ≠ 3#2 := by
  unfold nextPlace
  split
  · exact ⟨aligned_alignDown _, (by decide : 0#2 ≠ 3#2)⟩
  · split
    · exact ⟨aligned_next hip, (by decide : 0#2 ≠ 3#2)⟩
    · rename_i hlast
      refine ⟨hip, fun h => hlast ?_⟩
      rw [show l.ri = 2#2 by bv_omega]; simp

theorem legal_advance (hs : ThreadsLegal s) (ht : ThreadsLegal t) (e : Ending) : ThreadsLegal (advance s t e) := by
  rw [threadsLegal_iff] at hs ht ⊢
  obtain ⟨⟨-, hsip, -⟩, -⟩ := hs
  obtain ⟨⟨hpsr, -, hpr⟩, hbg⟩ := ht
  obtain ⟨hip, hri⟩ := nextPlace_legal e hsip
  exact ⟨⟨statusLegal_setSlot hri (statusLegal_and _ hpsr), hip, hpr⟩, hbg⟩

theorem legal_retire (hs : ThreadsLegal s) (ht : ThreadsLegal t) (e : Ending) : ThreadsLegal (retire s t e) := by
  have ha := legal_advance hs ht e
  unfold retire
  generalize advance s t e = u at ha
  dsimp only
  cases trapOf s.lp.psr (unimplementedIp u u.lp.ip) e with
  | none => exact ha
  | some x => exact legal_deliver ha ..

theorem legal_squash (h : ThreadsLegal s) (wide : Bool) : ThreadsLegal (squash s wide) := by
  unfold squash
  refine legal_retire h ?_ _
  exact h

/-- A return from an interruption whose saved status is valid (43 R671). -/
theorem legal_restoreContext (h : ThreadsLegal s) (hv : ipsrValid s.lp.cr.ipsr = true) : ThreadsLegal (restoreContext s) := by
  rw [threadsLegal_iff] at h ⊢
  obtain ⟨⟨-, -, hpr⟩, hbg⟩ := h
  exact ⟨⟨hv, aligned_alignDown _, hpr⟩, hbg⟩

end

/-! ## Accesses to memory -/

section
variable {s : State}

/-- Both threads are legal and the control registers of the foreground one are `c`: what the register stack engine keeps. -/
def LegalWith (c : CRFile) (s : State) : Prop := ThreadsLegal s ∧ s.lp.cr = c

theorem readAt_legalWith {c : CRFile} {big : Bool} {pa n : Nat} {attr : MemAttr} (h : LegalWith c s) :
    Yields (fun p => LegalWith c p.2) (readAt s big pa attr n) := by
  unfold readAt
  exact .ite (fun _ => .skip fun _ => .ok h) fun _ => .ite (fun _ => .ok h) fun _ => .error _

theorem writeAt_legalWith {c : CRFile} {big : Bool} {pa n v : Nat} {attr : MemAttr} (h : LegalWith c s) :
    Yields (LegalWith c) (writeAt s big pa attr n v) := by
  have hd (u : Uncore) (k : Option Nat) : LegalWith c ((s.dropAlat pa n).setUncoreOf u k) := by
    cases k <;> exact h
  unfold writeAt
  exact .ite (fun _ => .skip fun _ => .skip fun _ => .ok (hd ..)) fun _ => .ite (fun _ => .ok h) fun _ => .error _

theorem readAt_legal {big : Bool} {pa n : Nat} {attr : MemAttr} (h : ThreadsLegal s) :
    Yields (fun p => ThreadsLegal p.2) (readAt s big pa attr n) :=
  .mono (readAt_legalWith ⟨h, rfl⟩) fun _ hp => hp.1

theorem writeAt_legal {big : Bool} {pa n v : Nat} {attr : MemAttr} (h : ThreadsLegal s) :
    Yields ThreadsLegal (writeAt s big pa attr n v) :=
  .mono (writeAt_legalWith ⟨h, rfl⟩) fun _ ht => ht.1

theorem load_legal {fp wbOnly : Bool} {va : Word} {n : Nat} (h : ThreadsLegal s) :
    Yields (fun p => ThreadsLegal p.2.2) (load s fp va n wbOnly) :=
  .skip fun _ => .bind (readAt_legal h) fun _ ht => .ok ht

theorem store_legal {fp wbOnly : Bool} {va : Word} {n v : Nat} (h : ThreadsLegal s) :
    Yields ThreadsLegal (store s fp va n v wbOnly) :=
  .skip fun _ => .bind (writeAt_legal h) fun _ ht => .ok ht

theorem atomic_legal {va : Word} {n m : Nat} {f : Nat → Option Nat} (h : ThreadsLegal s) :
    Yields (fun p => ThreadsLegal p.2) (atomic s va n m f) := by
  refine .skip fun _ => .bind (readAt_legal h) fun p hp => ?_
  dsimp only; split
  · exact .ok hp
  · exact .bind (writeAt_legal hp) fun _ ht => .ok ht

theorem specLoad_legal {fp wbOnly : Bool} {va : Word} {n : Nat} (h : ThreadsLegal s) :
    Yields (fun p => ThreadsLegal p.2) (specLoad s fp va n wbOnly) := by
  have hf (f : MemFault) : Yields (fun p => ThreadsLegal p.2)
      (if deferred s f then .ok (none, s.noteData .load fp va n .wb (some f.natCause))
        else raise (memExc s va .read (accessBits .read ||| (1#64 <<< 36)) f) : Ans (Option (Nat × Nat) × State)) :=
    .ite (fun _ => .ok h) fun _ => .raise _
  unfold specLoad
  refine .ite (fun _ => .ok h) fun _ => ?_
  split
  · exact hf _
  · refine .ite (fun _ => .ok h) fun _ => ?_
    split
    · exact hf _
    · exact .bind (readAt_legal h) fun _ ht => .ok ht

theorem loadForm_legal {f : LoadForm} {fp wbOnly : Bool} {r : BitVec 7} {base : Reg} {n : Nat}
    (h : ThreadsLegal s) :
    Yields (fun p => ThreadsLegal p.2) (loadForm f fp r base n wbOnly s) := by
  have hc : ThreadsLegal (checkAlat s fp r).2 := legal_seen h (seen_checkAlat ..)
  have ha {t : State} (c : Bool) (pa : Nat) (ht : ThreadsLegal t) : ThreadsLegal (if c then t.allocAlat fp r pa n else t) := by
    split
    · exact legal_allocAlat ht ..
    · exact ht
  have hr {t : State} (c : Bool) (ht : ThreadsLegal t) : ThreadsLegal (if c then t.removeAlat fp r else t) := by
    split <;> exact ht
  unfold loadForm
  refine .ite (fun _ => .ite (fun _ => .ok (hr f.adv h)) fun _ => .raise _) fun _ => ?_
  refine .ite (fun _ => ?_) fun _ => .ite (fun _ => ?_) fun _ => ?_
  · generalize checkAlat s fp r = c at hc
    obtain ⟨hit, s1⟩ := c
    refine .ite (fun _ => .ok (hr (t := s1.noteCheck _ _ _ _ _) f.clr hc)) fun _ => ?_
    refine .bind (load_legal (s := s1.noteCheck _ _ _ _ _) hc) fun p hp => .ok ?_
    dsimp only; split
    · exact hp
    · exact legal_allocAlat hp ..
  · refine .bind (specLoad_legal h) fun p hp => ?_
    dsimp only; split
    · exact .ok (hr f.adv hp)
    · exact .ok (ha f.adv _ hp)
  · exact .bind (load_legal h) fun p hp => .ok (ha f.adv _ hp)

end

/-! ## The register stack engine -/

section
variable {s : State} {c : CRFile}

theorem rseStore_legal {va v : Word} (h : LegalWith c s) : Yields (LegalWith c) (rseStore s va v) :=
  .skip fun _ => .bind (writeAt_legalWith h) fun _ ht => .ok ht

theorem rseLoad_legal {va : Word} (h : LegalWith c s) : Yields (fun p => LegalWith c p.2) (rseLoad s va) :=
  .skip fun _ => .bind (readAt_legalWith h) fun _ ht => .ok ht

theorem spillCollection_legal (h : LegalWith c s) : Yields (LegalWith c) (spillCollection s) :=
  .ite (fun _ => .bind (rseStore_legal h) fun _ ht => .ok ht) fun _ => .ok h

theorem spillOne_legal (h : LegalWith c s) : Yields (LegalWith c) (spillOne s) :=
  .bind (spillCollection_legal h) fun _ ht => .bind (rseStore_legal ht) fun t hu =>
    spillCollection_legal (s := (t.setAr _).setGrFile _) hu

theorem spillN_legal (n : Nat) : ∀ {s : State}, LegalWith c s → Yields (LegalWith c) (spillN n s) := by
  induction n with
  | zero => exact fun h => .ok h
  | succ n ih => exact fun h => .bind (spillOne_legal h) fun _ ht => ih ht

theorem fillCollection_legal (h : LegalWith c s) : Yields (LegalWith c) (fillCollection s) :=
  .ite (fun _ => .bind (rseLoad_legal h) fun _ ht => .ok ht) fun _ => .ok h

theorem fillRegister_legal (h : LegalWith c s) : Yields (LegalWith c) (fillRegister s) :=
  .bind (rseLoad_legal h) fun _ ht => .ok ht

theorem fillN_legal (n : Nat) : ∀ {s : State}, LegalWith c s → Yields (LegalWith c) (fillN n s) := by
  induction n with
  | zero => exact fun h => .ok h
  | succ n ih =>
    exact fun h => .bind (.bind (fillCollection_legal h) fun _ ht => fillRegister_legal ht) fun _ hu => ih hu

theorem makeRoom_legal {sof : Nat} (h : LegalWith c s) : Yields (LegalWith c) (makeRoom sof s) := spillN_legal _ h

theorem freeStack_legal (h : LegalWith c s) : LegalWith c (freeStack s) := by
  unfold freeStack
  generalize Vector.ofFn _ = stk
  exact h

theorem popFrame_legal {n sof : Nat} (h : LegalWith c s) : Yields (LegalWith c) (popFrame n sof s) := by
  unfold popFrame
  refine .ite (fun _ => .bind (fillN_legal _ h) fun t ht => ?_) fun _ => .ok (freeStack_legal ?_)
  · exact makeRoom_legal (s := t.setGrFile _) ht
  · exact h

theorem dropBelow_legal (bsp : Word) (bytes n : Nat) :
    ∀ {s : State}, LegalWith c s → LegalWith c (dropBelow bsp bytes n s) := by
  induction n with
  | zero => intro s h; unfold dropBelow; split <;> exact h
  | succ n ih =>
    intro s h
    unfold dropBelow
    split
    · dsimp only
      split
      · exact ih h
      · exact h
    · exact h

theorem keepBspstore_legal {t : State} (h : LegalWith c t) : LegalWith c (s.keepBspstore t) := by
  unfold State.keepBspstore; split <;> exact h

theorem fillDownTo_legal (bsp : Word) (bytes n : Nat) :
    ∀ {s : State}, LegalWith c s → Yields (LegalWith c) (fillDownTo bsp bytes n s) := by
  induction n with
  | zero =>
    intro s h
    unfold fillDownTo
    have hlast {t : State} (ht : LegalWith c t) : Yields (LegalWith c)
        (if t.lp.bytesBelow bsp < bytes then raise illegalOperation else .ok (s.keepBspstore t)) :=
      .ite (fun _ => .raise _) fun _ => .ok (keepBspstore_legal ht)
    exact .ite (fun _ => .bind (fillCollection_legal h) fun _ ht => hlast ht) fun _ => hlast h
  | succ n ih =>
    exact fun h => .ite (fun _ => .bind (fillCollection_legal h) fun _ ht =>
      .ite (fun _ => .bind (fillRegister_legal ht) fun _ hu => ih hu) fun _ => .ok (keepBspstore_legal ht)) fun _ => .ok h

theorem restoreFrame_legal (h : LegalWith c s) : Yields (LegalWith c) (restoreFrame s) :=
  .ite (fun _ => .bind (popFrame_legal (s := s.noteRse) h) fun _ ht => .ok ht) fun _ => .ok h

end

end Sys2Proof.Machine
end

