-- ==== Sys2Proof/Proofs/SharedOps.lean ====
section
/-!
The shared operations: each instruction is one of some ninety operations of the model, which differ from instruction to instruction
in their operands and in the function they compute. What holds of each shared operation holds of every instruction.
-/

namespace Sys2Proof.Machine

open Sys2Proof.Config

/-- The outcomes the shared operations can have in a state: one constructor for each operation, over its operands. -/
inductive SharedOp (s : State) : Result → Prop
  | alu2 (qp r1 r2 r3 f) : SharedOp s (alu2 qp r1 r2 r3 f s)
  | alu1 (qp r1 r3 f) : SharedOp s (alu1 qp r1 r3 f s)
  | alu0 (qp r1 v wide) : SharedOp s (alu0 qp r1 v s wide)
  | compareReg (ct rel narrow o) : SharedOp s (compareReg ct rel narrow o s)
  | compareZero (ct rel narrow o) : SharedOp s (compareZero ct rel narrow o s)
  | compareImm (ct rel narrow o) : SharedOp s (compareImm ct rel narrow o s)
  | testBit (ct nz o) : SharedOp s (testBit ct nz o s)
  | testNat (ct nz o) : SharedOp s (testNat ct nz o s)
  | loadInt (f n fill qp r1 r3 inc) : SharedOp s (loadInt f n fill qp r1 r3 inc s)
  | load16 (qp r1 r3) : SharedOp s (load16 qp r1 r3 s)
  | storeInt (n spill qp r3 r2 inc) : SharedOp s (storeInt n spill qp r3 r2 inc s)
  | store16 (qp r3 r2) : SharedOp s (store16 qp r3 r2 s)
  | loadFp (f m qp f1 r3 inc) : SharedOp s (loadFp f m qp f1 r3 inc s)
  | storeFp (m qp r3 f2 inc) : SharedOp s (storeFp m qp r3 f2 inc s)
  | loadPair (f m update qp f1 f2 r3) : SharedOp s (loadPair f m update qp f1 f2 r3 s)
  | lineFetch (fault qp r3 inc) : SharedOp s (lineFetch fault qp r3 inc s)
  | cmpxchg (n qp r1 r3 r2) : SharedOp s (cmpxchg n qp r1 r3 r2 s)
  | xchg (n qp r1 r3 r2) : SharedOp s (xchg n qp r1 r3 r2 s)
  | fetchadd (n qp r1 r3 inc) : SharedOp s (fetchadd n qp r1 r3 inc s)
  | cmp8xchg16 (qp r1 r3 r2) : SharedOp s (cmp8xchg16 qp r1 r3 r2 s)
  | fusedOp (op prec weight o) : SharedOp s (fusedOp op prec weight o s)
  | fpArith2 (op weight o) : SharedOp s (fpArith2 op weight o s)
  | fpConvert (op weight o) : SharedOp s (fpConvert op weight o s)
  | xmaOp (o) : SharedOp s (xmaOp o s)
  | fselectOp (o) : SharedOp s (fselectOp o s)
  | fpMove (o f) : SharedOp s (fpMove o f s)
  | fpMove3 (qp f1 a b c f) : SharedOp s (fpMove3 qp f1 a b c f s)
  | fpCompareOp (o) : SharedOp s (fpCompareOp o s)
  | fclassOp (o) : SharedOp s (fclassOp o s)
  | approximate (op weight sf qp p2 f1 a b) : SharedOp s (approximate op weight sf qp p2 f1 a b s)
  | setControls (o) : SharedOp s (setControls o s)
  | clearFlags (o) : SharedOp s (clearFlags o s)
  | checkFlags (o) : SharedOp s (checkFlags o s)
  | setfOp (qp f1 r2 f) : SharedOp s (setfOp qp f1 r2 f s)
  | getfOp (qp r1 f2 f) : SharedOp s (getfOp qp r1 f2 f s)
  | movToAr (iUnit qp ar3 r2) : SharedOp s (movToAr iUnit qp ar3 r2 s)
  | movToArImm (iUnit qp ar3 imm8) : SharedOp s (movToArImm iUnit qp ar3 imm8 s)
  | movFromAr (iUnit qp r1 ar3) : SharedOp s (movFromAr iUnit qp r1 ar3 s)
  | movToBr (qp b1 r2) : SharedOp s (movToBr qp b1 r2 s)
  | movToGr (qp r1 v) : SharedOp s (movToGr qp r1 v s)
  | movToPr (qp r2 mask) : SharedOp s (movToPr qp r2 mask s)
  | movToPrRot (qp v) : SharedOp s (movToPrRot qp v s)
  | sum (qp imm24) : SharedOp s (userMask qp imm24 s fun w m => w ||| m)
  | rum (qp imm24) : SharedOp s (userMask qp imm24 s fun w m => w &&& ~~~m)
  | systemMask (set qp imm24) : SharedOp s (systemMask set qp imm24 s)
  | movToPsrL (qp r2) : SharedOp s (movToPsrL qp r2 s)
  | movToPsrUm (qp r2) : SharedOp s (movToPsrUm qp r2 s)
  | movFromPsr (qp r1) : SharedOp s (movFromPsr qp r1 s)
  | movToCr (qp cr3 r2) : SharedOp s (movToCr qp cr3 r2 s)
  | movFromCr (qp r1 cr3) : SharedOp s (movFromCr qp r1 cr3 s)
  | movToIndirect (k qp r3 r2) : SharedOp s (movToIndirect k qp r3 r2 s)
  | movFromIndirect (k qp r1 r3) : SharedOp s (movFromIndirect k qp r1 r3 s)
  | movFromCpuid (qp r1 r3) : SharedOp s (movFromCpuid qp r1 r3 s)
  | probe (write qp r1 r3 level) : SharedOp s (probe write qp r1 r3 level s)
  | probeFault (kind qp r3 pl) : SharedOp s (probeFault kind qp r3 pl s)
  | hashQuery (f qp r1 r3) : SharedOp s (hashQuery f qp r1 r3 s)
  | tpaQuery (qp r1 r3) : SharedOp s (tpaQuery qp r1 r3 s)
  | takQuery (qp r1 r3) : SharedOp s (takQuery qp r1 r3 s)
  | itcInsert (instr qp r2) : SharedOp s (itcInsert instr qp r2 s)
  | itrInsert (instr qp r3 r2) : SharedOp s (itrInsert instr qp r3 r2 s)
  | purgeCaches (qp r3 r2) : SharedOp s (purgeCaches qp r3 r2 s)
  | purgeCachesAlat (qp r3 r2) : SharedOp s (purgeCachesAlat qp r3 r2 s)
  | purgeRegisters (instr qp r3 r2) : SharedOp s (purgeRegisters instr qp r3 r2 s)
  | purgePartial (qp r3) : SharedOp s (purgePartial qp r3 s)
  | noEffect (qp) : SharedOp s (noEffect qp s)
  | serializeInstr (qp) : SharedOp s (serializeInstr qp s)
  | flushLine (qp r3) : SharedOp s (flushLine qp r3 s)
  | invalidateAlat (qp) : SharedOp s (invalidateAlat qp s)
  | invalidateEntry (fp qp r) : SharedOp s (invalidateEntry fp qp r s)
  | chkS (qp r2 t) : SharedOp s (chkS qp r2 t s)
  | chkSFp (qp f2 t) : SharedOp s (chkSFp qp f2 t s)
  | chkA (fp clear qp r t) : SharedOp s (chkA fp clear qp r t s)
  | breakOp (qp imm wide) : SharedOp s (breakOp qp imm wide s)
  | nopOp (qp wide) : SharedOp s (nopOp qp wide s)
  | hintOp (qp pause wide) : SharedOp s (hintOp qp pause wide s)
  | flushStack : SharedOp s (flushStack s)
  | loadStack : SharedOp s (loadStack s)
  | allocFrame (qp r1 sof sol sor) : SharedOp s (allocFrame qp r1 sof sol sor s)
  | branchCond (k wide qp target) : SharedOp s (branchCond k wide qp target s)
  | branchWhile (exit qp target) : SharedOp s (branchWhile exit qp target s)
  | branchCounted (exit qp target) : SharedOp s (branchCounted exit qp target s)
  | branchCloop (qp target) : SharedOp s (branchCloop qp target s)
  | branchCall (k wide qp b1 target) : SharedOp s (branchCall k wide qp b1 target s)
  | branchRet (qp b2) : SharedOp s (branchRet qp b2 s)
  | branchIa (qp b2) : SharedOp s (branchIa qp b2 s)
  | predict : SharedOp s (always s (.ok s))
  | cover : SharedOp s (always s (.ok (coverFrame s)))
  | clearRename (all) : SharedOp s (always s (.ok (clearRename all s)))
  | returnFromInterruption : SharedOp s (returnFromInterruption s)
  | bankSwitch (one) : SharedOp s (bankSwitch one s)
  | enterPrivileged : SharedOp s (enterPrivileged s)
  | switchVirtual (qp) : SharedOp s (switchVirtual qp s)

/-- Every instruction is a shared operation. -/
theorem exec_sharedOp (i : Instr) (s : State) : SharedOp s (exec i s) := by
  cases i with dsimp only [exec]
  | add | addR1R2R31 | sub | subR1R2R31 | addp4 | and | andcm | or | xor | shladd | shladdp4 | padd1 | padd1Sss |
    padd1Uuu | padd1Uus | padd2 | padd2Sss | padd2Uuu | padd2Uus | padd4 | psub1 | psub1Sss | psub1Uuu | psub1Uus |
    psub2 | psub2Sss | psub2Uuu | psub2Uus | psub4 | pavg1 | pavg1Raz | pavgsub1 | pavg2 | pavg2Raz | pavgsub2 |
    pcmp1Eq | pcmp1Gt | pcmp2Eq | pcmp2Gt | pcmp4Eq | pcmp4Gt | pshladd2 | pshradd2 | pmpyshr2 | pmpy2 | mixPack |
    pshrVar | pshlVar | shr | shrU | shl | shrp | dep => exact .alu2 ..
  | subR1Imm8R3 | andR1Imm8R3 | andcmR1Imm8R3 | orR1Imm8R3 | xorR1Imm8R3 | adds | addp4R1Imm14R3 | addl | mux1 |
    mux2 | pshrFix | pshlFix | popcnt | extr | extrU | depZ | depR1Imm1R3 | zxt1 | zxt2 | zxt4 | sxt1 | sxt2 | sxt4
    | czx1L | czx2L | czx1R | czx2R => exact .alu1 ..
  | depZR1Imm8 | movl => exact .alu0 ..
  | cmpLtP1P2R2R3 | cmp4LtP1P2R2R3 | cmpLtUncP1P2R2R3 | cmp4LtUncP1P2R2R3 | cmpEqAndP1P2R2R3 | cmp4EqAndP1P2R2R3 |
    cmpNeAndP1P2R2R3 | cmp4NeAndP1P2R2R3 | cmpLtuP1P2R2R3 | cmp4LtuP1P2R2R3 | cmpLtuUncP1P2R2R3 | cmp4LtuUncP1P2R2R3
    | cmpEqOrP1P2R2R3 | cmp4EqOrP1P2R2R3 | cmpNeOrP1P2R2R3 | cmp4NeOrP1P2R2R3 | cmpEqP1P2R2R3 | cmp4EqP1P2R2R3 |
    cmpEqUncP1P2R2R3 | cmp4EqUncP1P2R2R3 | cmpEqOrAndcmP1P2R2R3 | cmp4EqOrAndcmP1P2R2R3 | cmpNeOrAndcmP1P2R2R3 |
    cmp4NeOrAndcmP1P2R2R3 => exact .compareReg ..
  | cmpGtAndP1P2R0R3 | cmp4GtAndP1P2R0R3 | cmpLeAndP1P2R0R3 | cmp4LeAndP1P2R0R3 | cmpGeAndP1P2R0R3 |
    cmp4GeAndP1P2R0R3 | cmpLtAndP1P2R0R3 | cmp4LtAndP1P2R0R3 | cmpGtOrP1P2R0R3 | cmp4GtOrP1P2R0R3 | cmpLeOrP1P2R0R3
    | cmp4LeOrP1P2R0R3 | cmpGeOrP1P2R0R3 | cmp4GeOrP1P2R0R3 | cmpLtOrP1P2R0R3 | cmp4LtOrP1P2R0R3 |
    cmpGtOrAndcmP1P2R0R3 | cmp4GtOrAndcmP1P2R0R3 | cmpLeOrAndcmP1P2R0R3 | cmp4LeOrAndcmP1P2R0R3 |
    cmpGeOrAndcmP1P2R0R3 | cmp4GeOrAndcmP1P2R0R3 | cmpLtOrAndcmP1P2R0R3 | cmp4LtOrAndcmP1P2R0R3
    => exact .compareZero ..
  | cmpLtP1P2Imm8R3 | cmp4LtP1P2Imm8R3 | cmpLtUncP1P2Imm8R3 | cmp4LtUncP1P2Imm8R3 | cmpEqAndP1P2Imm8R3 |
    cmp4EqAndP1P2Imm8R3 | cmpNeAndP1P2Imm8R3 | cmp4NeAndP1P2Imm8R3 | cmpLtuP1P2Imm8R3 | cmp4LtuP1P2Imm8R3 |
    cmpLtuUncP1P2Imm8R3 | cmp4LtuUncP1P2Imm8R3 | cmpEqOrP1P2Imm8R3 | cmp4EqOrP1P2Imm8R3 | cmpNeOrP1P2Imm8R3 |
    cmp4NeOrP1P2Imm8R3 | cmpEqP1P2Imm8R3 | cmp4EqP1P2Imm8R3 | cmpEqUncP1P2Imm8R3 | cmp4EqUncP1P2Imm8R3 |
    cmpEqOrAndcmP1P2Imm8R3 | cmp4EqOrAndcmP1P2Imm8R3 | cmpNeOrAndcmP1P2Imm8R3 | cmp4NeOrAndcmP1P2Imm8R3
    => exact .compareImm ..
  | tbitZ | tbitZUnc | tbitZAnd | tbitNzAnd | tbitZOr | tbitNzOr | tbitZOrAndcm | tbitNzOrAndcm => exact .testBit ..
  | tnatZ | tnatZUnc | tnatZAnd | tnatNzAnd | tnatZOr | tnatNzOr | tnatZOrAndcm | tnatNzOrAndcm => exact .testNat ..
  | ld1R1R3 | ld1R1R3R2 | ld1R1R3Imm9 | ld2R1R3 | ld2R1R3R2 | ld2R1R3Imm9 | ld4R1R3 | ld4R1R3R2 | ld4R1R3Imm9 |
    ld8R1R3 | ld8R1R3R2 | ld8R1R3Imm9 | ld1SR1R3 | ld1SR1R3R2 | ld1SR1R3Imm9 | ld2SR1R3 | ld2SR1R3R2 | ld2SR1R3Imm9
    | ld4SR1R3 | ld4SR1R3R2 | ld4SR1R3Imm9 | ld8SR1R3 | ld8SR1R3R2 | ld8SR1R3Imm9 | ld1AR1R3 | ld1AR1R3R2 |
    ld1AR1R3Imm9 | ld2AR1R3 | ld2AR1R3R2 | ld2AR1R3Imm9 | ld4AR1R3 | ld4AR1R3R2 | ld4AR1R3Imm9 | ld8AR1R3 |
    ld8AR1R3R2 | ld8AR1R3Imm9 | ld1SaR1R3 | ld1SaR1R3R2 | ld1SaR1R3Imm9 | ld2SaR1R3 | ld2SaR1R3R2 | ld2SaR1R3Imm9 |
    ld4SaR1R3 | ld4SaR1R3R2 | ld4SaR1R3Imm9 | ld8SaR1R3 | ld8SaR1R3R2 | ld8SaR1R3Imm9 | ld1BiasR1R3 | ld1BiasR1R3R2
    | ld1BiasR1R3Imm9 | ld2BiasR1R3 | ld2BiasR1R3R2 | ld2BiasR1R3Imm9 | ld4BiasR1R3 | ld4BiasR1R3R2 |
    ld4BiasR1R3Imm9 | ld8BiasR1R3 | ld8BiasR1R3R2 | ld8BiasR1R3Imm9 | ld1AcqR1R3 | ld1AcqR1R3R2 | ld1AcqR1R3Imm9 |
    ld2AcqR1R3 | ld2AcqR1R3R2 | ld2AcqR1R3Imm9 | ld4AcqR1R3 | ld4AcqR1R3R2 | ld4AcqR1R3Imm9 | ld8AcqR1R3 |
    ld8AcqR1R3R2 | ld8AcqR1R3Imm9 | ld1CClrR1R3 | ld1CClrR1R3R2 | ld1CClrR1R3Imm9 | ld2CClrR1R3 | ld2CClrR1R3R2 |
    ld2CClrR1R3Imm9 | ld4CClrR1R3 | ld4CClrR1R3R2 | ld4CClrR1R3Imm9 | ld8CClrR1R3 | ld8CClrR1R3R2 | ld8CClrR1R3Imm9
    | ld1CNcR1R3 | ld1CNcR1R3R2 | ld1CNcR1R3Imm9 | ld2CNcR1R3 | ld2CNcR1R3R2 | ld2CNcR1R3Imm9 | ld4CNcR1R3 |
    ld4CNcR1R3R2 | ld4CNcR1R3Imm9 | ld8CNcR1R3 | ld8CNcR1R3R2 | ld8CNcR1R3Imm9 | ld1CClrAcqR1R3 | ld1CClrAcqR1R3R2 |
    ld1CClrAcqR1R3Imm9 | ld2CClrAcqR1R3 | ld2CClrAcqR1R3R2 | ld2CClrAcqR1R3Imm9 | ld4CClrAcqR1R3 | ld4CClrAcqR1R3R2
    | ld4CClrAcqR1R3Imm9 | ld8CClrAcqR1R3 | ld8CClrAcqR1R3R2 | ld8CClrAcqR1R3Imm9 | ld8FillR1R3 | ld8FillR1R3R2 |
    ld8FillR1R3Imm9 => exact .loadInt ..
  | ld16R1ArCsdR3 | ld16AcqR1ArCsdR3 => exact .load16 ..
  | st1R3R2 | st1R3R2Imm9 | st2R3R2 | st2R3R2Imm9 | st4R3R2 | st4R3R2Imm9 | st8R3R2 | st8R3R2Imm9 | st1RelR3R2 |
    st1RelR3R2Imm9 | st2RelR3R2 | st2RelR3R2Imm9 | st4RelR3R2 | st4RelR3R2Imm9 | st8RelR3R2 | st8RelR3R2Imm9 |
    st8SpillR3R2 | st8SpillR3R2Imm9 => exact .storeInt ..
  | st16R3R2ArCsd | st16RelR3R2ArCsd => exact .store16 ..
  | ldfeF1R3 | ldfeF1R3R2 | ldfeF1R3Imm9 | ldf8F1R3 | ldf8F1R3R2 | ldf8F1R3Imm9 | ldfsF1R3 | ldfsF1R3R2 |
    ldfsF1R3Imm9 | ldfdF1R3 | ldfdF1R3R2 | ldfdF1R3Imm9 | ldfeSF1R3 | ldfeSF1R3R2 | ldfeSF1R3Imm9 | ldf8SF1R3 |
    ldf8SF1R3R2 | ldf8SF1R3Imm9 | ldfsSF1R3 | ldfsSF1R3R2 | ldfsSF1R3Imm9 | ldfdSF1R3 | ldfdSF1R3R2 | ldfdSF1R3Imm9
    | ldfeAF1R3 | ldfeAF1R3R2 | ldfeAF1R3Imm9 | ldf8AF1R3 | ldf8AF1R3R2 | ldf8AF1R3Imm9 | ldfsAF1R3 | ldfsAF1R3R2 |
    ldfsAF1R3Imm9 | ldfdAF1R3 | ldfdAF1R3R2 | ldfdAF1R3Imm9 | ldfeSaF1R3 | ldfeSaF1R3R2 | ldfeSaF1R3Imm9 |
    ldf8SaF1R3 | ldf8SaF1R3R2 | ldf8SaF1R3Imm9 | ldfsSaF1R3 | ldfsSaF1R3R2 | ldfsSaF1R3Imm9 | ldfdSaF1R3 |
    ldfdSaF1R3R2 | ldfdSaF1R3Imm9 | ldfeCClrF1R3 | ldfeCClrF1R3R2 | ldfeCClrF1R3Imm9 | ldf8CClrF1R3 | ldf8CClrF1R3R2
    | ldf8CClrF1R3Imm9 | ldfsCClrF1R3 | ldfsCClrF1R3R2 | ldfsCClrF1R3Imm9 | ldfdCClrF1R3 | ldfdCClrF1R3R2 |
    ldfdCClrF1R3Imm9 | ldfeCNcF1R3 | ldfeCNcF1R3R2 | ldfeCNcF1R3Imm9 | ldf8CNcF1R3 | ldf8CNcF1R3R2 | ldf8CNcF1R3Imm9
    | ldfsCNcF1R3 | ldfsCNcF1R3R2 | ldfsCNcF1R3Imm9 | ldfdCNcF1R3 | ldfdCNcF1R3R2 | ldfdCNcF1R3Imm9 | ldfFillF1R3 |
    ldfFillF1R3R2 | ldfFillF1R3Imm9 => exact .loadFp ..
  | stfeR3F2 | stfeR3F2Imm9 | stf8R3F2 | stf8R3F2Imm9 | stfsR3F2 | stfsR3F2Imm9 | stfdR3F2 | stfdR3F2Imm9 |
    stfSpillR3F2 | stfSpillR3F2Imm9 => exact .storeFp ..
  | ldfp8F1F2R3 | ldfp8F1F2R316 | ldfpsF1F2R3 | ldfpsF1F2R38 | ldfpdF1F2R3 | ldfpdF1F2R316 | ldfp8SF1F2R3 |
    ldfp8SF1F2R316 | ldfpsSF1F2R3 | ldfpsSF1F2R38 | ldfpdSF1F2R3 | ldfpdSF1F2R316 | ldfp8AF1F2R3 | ldfp8AF1F2R316 |
    ldfpsAF1F2R3 | ldfpsAF1F2R38 | ldfpdAF1F2R3 | ldfpdAF1F2R316 | ldfp8SaF1F2R3 | ldfp8SaF1F2R316 | ldfpsSaF1F2R3 |
    ldfpsSaF1F2R38 | ldfpdSaF1F2R3 | ldfpdSaF1F2R316 | ldfp8CClrF1F2R3 | ldfp8CClrF1F2R316 | ldfpsCClrF1F2R3 |
    ldfpsCClrF1F2R38 | ldfpdCClrF1F2R3 | ldfpdCClrF1F2R316 | ldfp8CNcF1F2R3 | ldfp8CNcF1F2R316 | ldfpsCNcF1F2R3 |
    ldfpsCNcF1F2R38 | ldfpdCNcF1F2R3 | ldfpdCNcF1F2R316 => exact .loadPair ..
  | lfetchR3 | lfetchR3R2 | lfetchR3Imm9 | lfetchExclR3 | lfetchExclR3R2 | lfetchExclR3Imm9 | lfetchFaultR3 |
    lfetchFaultR3R2 | lfetchFaultR3Imm9 | lfetchFaultExclR3 | lfetchFaultExclR3R2 | lfetchFaultExclR3Imm9
    => exact .lineFetch ..
  | cmpxchg1Acq | cmpxchg1Rel | cmpxchg2Acq | cmpxchg2Rel | cmpxchg4Acq | cmpxchg4Rel | cmpxchg8Acq | cmpxchg8Rel
    => exact .cmpxchg ..
  | xchg1 | xchg2 | xchg4 | xchg8 => exact .xchg ..
  | fetchadd4Acq | fetchadd8Acq | fetchadd4Rel | fetchadd8Rel => exact .fetchadd ..
  | cmp8xchg16Acq | cmp8xchg16Rel => exact .cmp8xchg16 ..
  | fma | fmaS | fmaD | fpma | fms | fmsS | fmsD | fpms | fnma | fnmaS | fnmaD | fpnma => exact .fusedOp ..
  | fmin | fmax | famin | famax | fpmin | fpmax | fpamin | fpamax | fpcmpFrelCode0 | fpcmpFrelCode1 | fpcmpFrelCode2
    | fpcmpFrelCode3 | fpcmpFrelCode4 | fpcmpFrelCode5 | fpcmpFrelCode6 | fpcmpFrelCode7 => exact .fpArith2 ..
  | fcvtFx | fpcvtFx | fcvtFxu | fpcvtFxu | fcvtFxTrunc | fpcvtFxTrunc | fcvtFxuTrunc | fpcvtFxuTrunc
    => exact .fpConvert ..
  | xma => exact .xmaOp ..
  | fselect => exact .fselectOp ..
  | fmergeS | fmergeNs | fmergeSe | fmixLr | fmixR | fmixL | fsxtR | fsxtL | fpack | fswap | fswapNl | fswapNr |
    fand | fandcm | fOr | fxor | fpmergeS | fpmergeNs | fpmergeSe => exact .fpMove ..
  | fcvtXf => exact .fpMove3 ..
  | fcmp => exact .fpCompareOp ..
  | fclassM => exact .fclassOp ..
  | frcpa | fprcpa | frsqrta | fprsqrta => exact .approximate ..
  | fsetc => exact .setControls ..
  | fclrf => exact .clearFlags ..
  | fchkf => exact .checkFlags ..
  | setfSig | setfExp | setfS | setfD => exact .setfOp ..
  | getfSig | getfExp | getfS | getfD => exact .getfOp ..
  | movIAr3R2 | movMAr3R2 => exact .movToAr ..
  | movIAr3Imm8 | movMAr3Imm8 => exact .movToArImm ..
  | movIR1Ar3 | movMR1Ar3 => exact .movFromAr ..
  | movB1R2 => exact .movToBr ..
  | movR1B2 | movR1Ip | movR1Pr | movR1PsrUm => exact .movToGr ..
  | movPrR2Mask17 => exact .movToPr ..
  | movPrRotImm44 => exact .movToPrRot ..
  | sum => exact .sum ..
  | rum => exact .rum ..
  | ssm | rsm => exact .systemMask ..
  | movPsrLR2 => exact .movToPsrL ..
  | movPsrUmR2 => exact .movToPsrUm ..
  | movR1Psr => exact .movFromPsr ..
  | movCr3R2 => exact .movToCr ..
  | movR1Cr3 => exact .movFromCr ..
  | movRrR3R2 | movDbrR3R2 | movIbrR3R2 | movPkrR3R2 | movPmcR3R2 | movPmdR3R2 => exact .movToIndirect ..
  | movR1RrR3 | movR1DbrR3 | movR1IbrR3 | movR1PkrR3 | movR1PmcR3 | movR1PmdR3 => exact .movFromIndirect ..
  | movR1CpuidR3 => exact .movFromCpuid ..
  | probeRR1R3Imm2 | probeWR1R3Imm2 | probeRR1R3R2 | probeWR1R3R2 => exact .probe ..
  | probeRwFaultR3Imm2 | probeRFaultR3Imm2 | probeWFaultR3Imm2 => exact .probeFault ..
  | thash | ttag => exact .hashQuery ..
  | tpa => exact .tpaQuery ..
  | tak => exact .takQuery ..
  | itcDR2 | itcIR2 => exact .itcInsert ..
  | itrDDtrR3R2 | itrIItrR3R2 => exact .itrInsert ..
  | ptcLR3R2 | ptcGR3R2 => exact .purgeCaches ..
  | ptcGaR3R2 => exact .purgeCachesAlat ..
  | ptrDR3R2 | ptrIR3R2 => exact .purgeRegisters ..
  | ptcER3 => exact .purgePartial ..
  | fwb | srlzD | mf | mfA | syncI => exact .noEffect ..
  | srlzI => exact .serializeInstr ..
  | fcR3 | fcIR3 => exact .flushLine ..
  | invala => exact .invalidateAlat ..
  | invalaER1 | invalaEF1 => exact .invalidateEntry ..
  | chkSI | chkSMR2 => exact .chkS ..
  | chkSF2 => exact .chkSFp ..
  | chkANcR1 | chkAClrR1 | chkANcF1 | chkAClrF1 => exact .chkA ..
  | breakI | breakM | breakB | breakF | breakX => exact .breakOp ..
  | nopI | nopM | nopB | hintB | nopF | nopX => exact .nopOp ..
  | hintI | hintM | hintF | hintX => exact .hintOp ..
  | flushrs => exact .flushStack
  | loadrs => exact .loadStack
  | allocR1ArPfsILOR => exact .allocFrame ..
  | brCondTarget25 | brCondB2 | brlCondTarget64 => exact .branchCond ..
  | brWexitTarget25 | brWtopTarget25 => exact .branchWhile ..
  | brCexitTarget25 | brCtopTarget25 => exact .branchCounted ..
  | brCloopTarget25 => exact .branchCloop ..
  | brCallB1Target25 | brCallB1B2 | brlCallB1Target64 => exact .branchCall ..
  | brRetB2 => exact .branchRet ..
  | brIaB2 => exact .branchIa ..
  | brpTarget25Tag13 | brpB2Tag13 | brpRetB2Tag13 => exact .predict
  | cover => exact .cover
  | clrrrb | clrrrbPr => exact .clearRename ..
  | rfi => exact .returnFromInterruption
  | bsw0 | bsw1 => exact .bankSwitch ..
  | epc => exact .enterPrivileged
  | vmsw0 | vmsw1 => exact .switchVirtual ..

end Sys2Proof.Machine
end

