-- ==== Sys2Proof/Proofs/LegalOperations.lean ====
section
/-!
What instructions do leaves both threads legal (10 R55 to R57, R63): one rule for each way an instruction ends, and one for each
shared operation whose meaning is more than a few checks and a write.
-/

namespace Sys2Proof.Machine

open Sys2Proof.Config

section
variable {s : State}

/-! ## How an instruction ends -/

theorem finish_legal (h : ThreadsLegal s) {x : Ans State} (hx : Yields ThreadsLegal x) :
    Leads ThreadsLegal (finish s x) :=
  .finish (fun _ => legal_deliver h ..) hx

theorem predicated_legal (h : ThreadsLegal s) {qp : BitVec 6} {body : Ans State} {wide : Bool}
    (hb : Yields ThreadsLegal body) : Leads ThreadsLegal (predicated qp s body wide) := by
  unfold predicated; split
  · exact finish_legal h (hb.map fun _ ht => legal_retire h ht _)
  · exact .next (legal_squash h _)

theorem predicatedEnd_legal (h : ThreadsLegal s) {qp : BitVec 6} {body : Ans (State × Ending)}
    (hb : Yields (fun p => ThreadsLegal p.1) body) : Leads ThreadsLegal (predicatedEnd qp s body) := by
  unfold predicatedEnd; split
  · exact finish_legal h (hb.map fun _ ht => legal_retire h ht _)
  · exact .next (legal_squash h _)

theorem unpredicated_legal (h : ThreadsLegal s) {body : Ans (State × Ending)}
    (hb : Yields (fun p => ThreadsLegal p.1) body) : Leads ThreadsLegal (unpredicated s body) :=
  finish_legal h (hb.map fun _ ht => legal_retire h ht _)

theorem always_legal (h : ThreadsLegal s) {body : Ans State} (hb : Yields ThreadsLegal body) :
    Leads ThreadsLegal (always s body) :=
  unpredicated_legal h (hb.map fun _ ht => ht)

theorem compare_legal (h : ThreadsLegal s) {ct : CType} {qp p1 p2 : BitVec 6} {rel : Ans (Bool × Bool × State)}
    (hr : Yields (fun p => ThreadsLegal p.2.2) rel) : Leads ThreadsLegal (compare ct qp p1 p2 s rel) := by
  unfold compare; split
  · exact finish_legal h (.skip fun _ => .bind hr fun _ ht => .ok (legal_retire h (legal_writeCompare ht ..) _))
  · split
    · refine finish_legal h (.skip fun _ => .ok (legal_retire h ?_ _))
      exact legal_setPr2 h ..
    · exact .next (legal_squash h _)

theorem branchWith_legal (h : ThreadsLegal s) {k : FlowKind} {wide : Bool} {qp : BitVec 6} {target : Word}
    {body : Ans (State × Bool)} (hb : Yields (fun p => ThreadsLegal p.1) body) :
    Leads ThreadsLegal (branchWith k wide qp target s body) := by
  unfold branchWith; split
  · refine finish_legal h (hb.map fun t ht => legal_retire h ?_ _)
    exact ht
  · refine .next (legal_retire h ?_ _)
    exact h

theorem loopEnd_legal (h : ThreadsLegal s) {t : State} (ht : ThreadsLegal t) (taken : Bool) (target : Word) :
    ThreadsLegal (loopEnd s t taken target) := by
  refine legal_retire h ?_ _
  exact ht

/-! ## Loads, stores and semaphores -/

theorem loadInt_legal (h : ThreadsLegal s) {f : LoadForm} {n : Nat} {fill : Bool} {qp : BitVec 6} {r1 r3 : BitVec 7} {inc : Inc} :
    Leads ThreadsLegal (loadInt f n fill qp r1 r3 inc s) := by
  refine predicated_legal h (.skip fun _ => .skip fun _ => .skip fun _ => .skip fun _ => .skip fun _ =>
    .bind (loadForm_legal h) ?_)
  rintro ⟨x, t⟩ ht
  refine .ok (legal_postInc ?_ ..)
  cases x with
  | hit => exact ht
  | natted | value => exact legal_setGr ht ..

theorem legal_setCsd (h : ThreadsLegal s) (v : Word) :
    ThreadsLegal (s.setLp { s.lp with ar := { s.lp.ar with csd := v } }) := h

theorem load16_legal (h : ThreadsLegal s) {qp : BitVec 6} {r1 r3 : BitVec 7} : Leads ThreadsLegal (load16 qp r1 r3 s) := by
  refine predicated_legal h (.skip fun _ => .skip fun _ => .bind (loadForm_legal h) ?_)
  rintro ⟨x, t⟩ ht
  cases x with
  | value v =>
    dsimp only
    generalize halves s.bigData 8 v = p
    exact .ok (legal_setGr (legal_setCsd ht _) ..)
  | hit | natted => exact .ok ht

theorem storeInt_legal (h : ThreadsLegal s) {n : Nat} {spill : Bool} {qp : BitVec 6} {r3 r2 : BitVec 7} {inc : Inc} :
    Leads ThreadsLegal (storeInt n spill qp r3 r2 inc s) := by
  refine predicated_legal h (.skip fun _ => .skip fun _ => .skip fun _ => .skip fun _ => .skip fun _ =>
    .bind (store_legal h) fun t ht => .ok (legal_postInc ?_ ..))
  cases spill <;> exact ht

theorem loadFp_legal (h : ThreadsLegal s) {f : LoadForm} {m : FpFormat} {qp : BitVec 6} {f1 r3 : BitVec 7} {inc : Inc} :
    Leads ThreadsLegal (loadFp f m qp f1 r3 inc s) := by
  refine predicated_legal h (.skip fun _ => .skip fun _ => .skip fun _ => .skip fun _ => .skip fun _ =>
    .bind (loadForm_legal h) ?_)
  rintro ⟨x, t⟩ ht
  refine .ok (legal_postInc ?_ ..)
  cases x with
  | hit => exact ht
  | natted | value => exact legal_setFr ht ..

theorem loadPair_legal (h : ThreadsLegal s) {f : LoadForm} {m : FpFormat} {update : Bool} {qp : BitVec 6} {f1 f2 r3 : BitVec 7} :
    Leads ThreadsLegal (loadPair f m update qp f1 f2 r3 s) := by
  refine predicated_legal h (.skip fun _ => .skip fun _ => .skip fun _ => .skip fun _ => .skip fun _ => .skip fun _ =>
    .skip fun _ => .skip fun _ => .bind (loadForm_legal h) ?_)
  rintro ⟨x, t⟩ ht
  refine .ok (legal_postInc ?_ ..)
  cases x with
  | hit => exact ht
  | natted | value => exact legal_setFr (legal_setFr ht ..) ..

theorem semaphore_legal (h : ThreadsLegal s) {n m : Nat} {qp : BitVec 6} {r1 r3 : BitVec 7} {f : Nat → Ans (Option Nat)} :
    Leads ThreadsLegal (semaphore n m qp r1 r3 s f) :=
  predicated_legal h (.skip fun _ => .skip fun _ => .skip fun _ => .skip fun _ =>
    .bind (atomic_legal h) fun _ ht => .ok (legal_setGr ht ..))

theorem lineFetch_legal (h : ThreadsLegal s) {fault : Bool} {qp : BitVec 6} {r3 : BitVec 7} {inc : Inc} :
    Leads ThreadsLegal (lineFetch fault qp r3 inc s) := by
  have hend (a : Nat × MemAttr) (base : Reg) (i : Reg) :
      ThreadsLegal ((s.noteData .lfetch false base.val 1 a.2 none).postInc r3 base inc i) :=
    legal_postInc (s := s.noteData ..) h ..
  unfold lineFetch
  exact predicated_legal h (.skip fun _ => .skip fun _ => .skip fun _ => .skip fun _ =>
    .ite (fun _ => .skip fun _ => .ok (hend ..)) fun _ => .skip fun _ => .ok (hend ..))

/-! ## Floating point -/

theorem recordFlags_legal {sf : BitVec 2} {f : BitVec 6} (h : ThreadsLegal s) :
    Yields (fun p => ThreadsLegal p.1) (recordFlags s sf f) :=
  .skip fun _ => .ok h

theorem fpArith_legal (h : ThreadsLegal s) {op : FpOp} {prec : FpPrec} {weight : Nat} {sf : BitVec 2} {qp : BitVec 6}
    {f1 a b c : BitVec 7} : Leads ThreadsLegal (fpArith op prec weight sf qp f1 a b c s) := by
  have h0 : ThreadsLegal (s.noteFpOps weight) := h
  exact predicatedEnd_legal h (.skip fun _ => .ite (fun _ => .ok (legal_setFr h0 f1 natVal)) fun _ =>
    .bind (recordFlags_legal h0) fun _ ht => .ok (legal_setFr ht ..))

theorem fpMove3_legal (h : ThreadsLegal s) {qp : BitVec 6} {f1 a b c : BitVec 7} {f : FReg → FReg → FReg → FReg} :
    Leads ThreadsLegal (fpMove3 qp f1 a b c f s) :=
  predicated_legal h (.skip fun _ => .ok (legal_setFr h ..))

theorem fpCompareOp_legal (h : ThreadsLegal s) (o : OpF4) : Leads ThreadsLegal (fpCompareOp o s) := by
  unfold fpCompareOp
  dsimp only
  split
  · have h0 : ThreadsLegal (s.noteFpOps 1) := h
    exact finish_legal h (.skip fun _ => .skip fun _ => .skip fun _ => .ite
      (fun _ => .ok (legal_retire h (legal_writeCompare h0 ..) _)) fun _ =>
      .bind (recordFlags_legal h0) fun _ ht => .ok (legal_retire h (legal_writeCompare ht ..) _))
  · exact compare_legal h (.ok h)

theorem approximate_legal (h : ThreadsLegal s) {op : FpOp} {weight : Nat} {sf : BitVec 2} {qp p2 : BitVec 6} {f1 a b : BitVec 7} :
    Leads ThreadsLegal (approximate op weight sf qp p2 f1 a b s) := by
  unfold approximate
  split
  · have h0 : ThreadsLegal (s.noteFpOps weight) := h
    exact finish_legal h (.skip fun _ => .ite
      (fun _ => .ok (legal_retire h (legal_setPr (legal_setFr h0 ..) ..) _)) fun _ =>
      .bind (recordFlags_legal h0) fun _ ht => .ok (legal_retire h (legal_setPr (legal_setFr ht ..) ..) _))
  · refine .next (legal_retire h ?_ _)
    exact legal_setPr h p2 false

/-! ## Registers outside the register files -/

theorem legal_setArValue (h : ThreadsLegal s) (n : Nat) (v : Word) : ThreadsLegal (setArValue s n v) := by
  unfold setArValue
  dsimp only
  split
  · exact h
  · split <;> exact h

theorem writeAr_legal (h : ThreadsLegal s) {iUnit : Bool} {n : Nat} {source : Ans Word} :
    Yields ThreadsLegal (writeAr iUnit n s source) :=
  .skip fun _ => .skip fun _ => .skip fun _ => .skip fun _ => .ok (legal_setArValue h ..)

theorem legal_endOfInterrupt (h : ThreadsLegal s) : ThreadsLegal (endOfInterrupt s) := by
  unfold endOfInterrupt; split <;> exact h

theorem legal_setCrValue (h : ThreadsLegal s) (n : Nat) (v : Word) : ThreadsLegal (setCrValue s n v) := by
  unfold setCrValue
  dsimp only
  split
  any_goals exact h
  exact legal_endOfInterrupt h

theorem readCr_legal (h : ThreadsLegal s) (n : Nat) : ThreadsLegal (readCr s n).2 := by
  unfold readCr readIvr
  split
  · split <;> exact h
  · exact h

theorem writePmc_legal (h : ThreadsLegal s) {i : Nat} {v : Word} : Yields ThreadsLegal (writePmc s i v) := by
  unfold writePmc
  exact .ite (fun _ => .error _) fun _ => .ite (fun _ => .ok h) fun _ => .ok h

theorem legal_writePmd (h : ThreadsLegal s) (j : Nat) (v : Word) : ThreadsLegal (writePmd s j v) := by
  unfold writePmd; dsimp only; split <;> exact h

theorem readPmc_legal (h : ThreadsLegal s) (i : Nat) : ThreadsLegal (readPmc s i).2 := by
  unfold readPmc; dsimp only; split <;> exact h

theorem readPmd_legal (h : ThreadsLegal s) (j : Nat) : ThreadsLegal (readPmd s j).2 := by
  unfold readPmd
  dsimp only
  split
  · exact h
  · split
    · exact h
    · split <;> split <;> exact h

theorem indirectWrite_legal (h : ThreadsLegal s) {k : IndirectFile} {i : Nat} {v : Word} :
    Yields ThreadsLegal (k.write s i v) := by
  cases k with
  | rr | dbr | ibr | pkr => exact .ok h
  | pmc => exact writePmc_legal h
  | pmd => exact .ok (legal_writePmd h ..)

theorem indirectRead_legal (h : ThreadsLegal s) (k : IndirectFile) (i : Nat) : ThreadsLegal (k.read s i).2 := by
  cases k with
  | rr | dbr | ibr | pkr => exact h
  | pmc => exact readPmc_legal h i
  | pmd => exact readPmd_legal h i

/-! ## The processor status -/

/-- Bit 0 is the only one of the user mask that a legal status has 0. -/
theorem userMask_zero_bit : ∀ i < 6, statusZero.getLsbD i = true → i = 0 := by decide

theorem legal_setUserMask (h : ThreadsLegal s) {um : Word} (hum : um.getLsbD 0 = false) : ThreadsLegal (s.setUserMask um) := by
  rw [threadsLegal_iff] at h ⊢
  obtain ⟨⟨hpsr, hip⟩, hbg⟩ := h
  refine ⟨⟨statusLegal_setField (by decide) (fun i _ hi hz => ?_) hpsr, hip⟩, hbg⟩
  obtain rfl := userMask_zero_bit i hi hz
  split
  · exact (setBit_get _ _ _ _ (by decide)).trans hum
  · exact hum

theorem userMask_bit_zero (h : ThreadsLegal s) : (field s.lp.psr 0 6).getLsbD 0 = false := by
  have hz := ((statusLegal_iff _).1 ((threadsLegal_iff s).1 h).1.1).1 0 (by decide)
  rw [field_bit _ _ (by decide), hz, Bool.and_false]

theorem userMask_legal (h : ThreadsLegal s) {qp : BitVec 6} {imm24 : BitVec 24} {f : Word → Word → Word}
    (hf : ∀ w m, w.getLsbD 0 = false → m.getLsbD 0 = false → (f w m).getLsbD 0 = false) :
    Leads ThreadsLegal (userMask qp imm24 s f) := by
  refine predicated_legal h (.skip fun _ => .ok (legal_setUserMask h (hf _ _ (userMask_bit_zero h) ?_)))
  rw [BitVec.getLsbD_and, show (~~~1#64).getLsbD 0 = false by decide, Bool.and_false]

/-- An immediate of 24 bits without reserved ones has no bit that a legal status has 0, nor one of the slot number. -/
theorem imm24_bits {imm24 : BitVec 24} (h : uimm imm24 &&& psrReserved = 0#64) {i : Nat}
    (hi : statusZero.getLsbD i = true ∨ i = 41 ∨ i = 42) : (uimm imm24).getLsbD i = false := by
  rw [statusZero_bit] at hi
  by_cases hres : psrReserved.getLsbD i = true
  · exact (and_eq_zero_iff _ _).1 h i hres
  · have h24 : 24 ≤ i := by
      rcases hi with (hi | rfl | rfl) | rfl | rfl
      · exact absurd hi hres
      all_goals decide
    rw [uimm, BitVec.getLsbD_setWidth, BitVec.getLsbD_of_ge imm24 i h24, Bool.and_false]

theorem systemMask_legal (h : ThreadsLegal s) {set : Bool} {qp : BitVec 6} {imm24 : BitVec 24} :
    Leads ThreadsLegal (systemMask set qp imm24 s) := by
  refine predicated_legal h (.skip fun _ => .require fun hres => .ok ?_)
  rw [threadsLegal_iff] at h ⊢
  obtain ⟨⟨hpsr, hip⟩, hbg⟩ := h
  refine ⟨⟨?_, hip⟩, hbg⟩
  cases set with
  | false => exact statusLegal_and _ hpsr
  | true => exact statusLegal_or (fun i hi => imm24_bits (by simpa using hres) hi) hpsr

theorem movToPsrL_legal (h : ThreadsLegal s) {qp : BitVec 6} {r2 : BitVec 7} : Leads ThreadsLegal (movToPsrL qp r2 s) := by
  refine predicated_legal h (.skip fun _ => .skip fun _ => .skip fun v => .require fun hres => .ok ?_)
  rw [threadsLegal_iff] at h ⊢
  obtain ⟨⟨hpsr, hip⟩, hbg⟩ := h
  refine ⟨⟨statusLegal_setField (by decide) (fun i _ hi hz => ?_) hpsr, hip⟩, hbg⟩
  have hr : psrReserved.getLsbD i = true := by
    rcases (statusZero_bit i).1 hz with hr | rfl | rfl
    · exact hr
    all_goals omega
  have hv := (and_eq_zero_iff _ _).1 (of_decide_eq_true hres) i hr
  rw [field_bit _ _ (by decide), Nat.zero_add, decide_eq_true (by omega), Bool.true_and] at hv
  rwa [Nat.sub_zero]

theorem movToPsrUm_legal (h : ThreadsLegal s) {qp : BitVec 6} {r2 : BitVec 7} : Leads ThreadsLegal (movToPsrUm qp r2 s) := by
  refine predicated_legal h (.skip fun v => .require fun hv => .ok (legal_setUserMask h ?_))
  rw [field_bit _ _ (by decide), Nat.zero_add, show v.getLsbD 0 = false by simpa using hv, Bool.and_false]

theorem bankSwitch_legal (h : ThreadsLegal s) {one : Bool} : Leads ThreadsLegal (bankSwitch one s) := by
  refine always_legal h (.skip fun _ => .ok ?_)
  exact h.of_parts (statusLegal_setBit _ _ (by decide) (by decide)) rfl rfl rfl

theorem enterPrivileged_legal (h : ThreadsLegal s) : Leads ThreadsLegal (enterPrivileged s) := by
  refine always_legal h (.skip fun _ => .ok ?_)
  split
  · exact legal_atLevel h _
  · split
    · split
      · exact legal_atLevel h _
      · exact h
    · exact h

/-! ## Checks, branches and frames -/

theorem checked_legal (h : ThreadsLegal s) (failed : Bool) (target : Word) : ThreadsLegal (checked s failed target).1 := by
  unfold checked; split <;> exact h

theorem checkFlags_legal (h : ThreadsLegal s) (o : OpF14) : Leads ThreadsLegal (checkFlags o s) := by
  refine predicatedEnd_legal h (.ok ?_)
  split <;> exact h

theorem chkA_legal (h : ThreadsLegal s) {fp clear : Bool} {qp : BitVec 6} {r : BitVec 7} {t : BitVec 21} :
    Leads ThreadsLegal (chkA fp clear qp r t s) := by
  have hc : ThreadsLegal (checkAlat s fp r).2 := legal_seen h (seen_checkAlat ..)
  unfold chkA
  generalize checkAlat s fp r = c at hc
  refine predicatedEnd_legal h (.ok (checked_legal ?_ ..))
  split <;> exact hc

theorem legal_setLc (h : ThreadsLegal s) (l : Word) : ThreadsLegal (s.setLc l) := h

theorem branchWhile_legal (h : ThreadsLegal s) {exit : Bool} {qp : BitVec 6} {target : Word} :
    Leads ThreadsLegal (branchWhile exit qp target s) := by
  have hgo : ThreadsLegal (if s.lp.readPr qp then (s.rotated false, true) else epilog s).1 := by
    split
    · exact legal_rotated h _
    · exact legal_epilog h
  exact finish_legal h (.skip fun _ => .ok (loopEnd_legal h hgo ..))

theorem branchCounted_legal (h : ThreadsLegal s) {exit : Bool} {qp : BitVec 6} {target : Word} :
    Leads ThreadsLegal (branchCounted exit qp target s) := by
  have hgo : ThreadsLegal
      (if s.lp.ar.lc ≠ 0#64 then ((s.setLc (s.lp.ar.lc - 1#64)).rotated true, true) else epilog s).1 := by
    split
    · exact legal_rotated (legal_setLc h _) _
    · exact legal_epilog h
  exact finish_legal h (.skip fun _ => .ok (loopEnd_legal h hgo ..))

theorem branchCloop_legal (h : ThreadsLegal s) {qp : BitVec 6} {target : Word} :
    Leads ThreadsLegal (branchCloop qp target s) := by
  refine finish_legal h (.skip fun _ => .ok ?_)
  split
  · exact loopEnd_legal h h ..
  · exact loopEnd_legal h (legal_setLc h _) ..

theorem legal_setFrame (h : ThreadsLegal s) (cfm : BitVec 38) : ThreadsLegal (s.setLp { s.lp with cfm := cfm }) := h

theorem branchRet_legal (h : ThreadsLegal s) {qp : BitVec 6} {b2 : BitVec 3} : Leads ThreadsLegal (branchRet qp b2 s) := by
  refine branchWith_legal h (.bind (popFrame_legal (s := s.noteRse) ⟨h, rfl⟩) fun t ht => .ok ?_)
  have h2 (e : BitVec 6) : ThreadsLegal ((t.setLp { t.lp with cfm := s.lp.ar.pfs.setWidth 38 }).setEc e) := ht.1
  split
  · exact legal_atLevel (h2 _) _
  · exact h2 _

theorem flushStack_legal (h : ThreadsLegal s) : Leads ThreadsLegal (flushStack s) :=
  unpredicated_legal h ((spillN_legal _ (s := s.noteRse) ⟨h, rfl⟩).map fun _ ht => ht.1)

theorem loadStack_legal (h : ThreadsLegal s) : Leads ThreadsLegal (loadStack s) := by
  have h1 : LegalWith s.lp.cr s.noteRse := ⟨h, rfl⟩
  unfold loadStack
  exact unpredicated_legal h (.skip fun _ => .ite
    (fun _ => .bind (.ok (dropBelow_legal _ _ _ h1)) fun _ ht => .ok ht.1) fun _ =>
      .bind (fillDownTo_legal _ _ _ h1) fun _ ht => .ok ht.1)

theorem allocFrame_legal (h : ThreadsLegal s) {qp : BitVec 6} {r1 : BitVec 7} {sof sol sor : Nat} :
    Leads ThreadsLegal (allocFrame qp r1 sof sol sor s) := by
  refine finish_legal h (.skip fun _ => .skip fun _ => .skip fun _ =>
    .bind (makeRoom_legal (s := s.noteRse) ⟨h, rfl⟩) fun t ht => .ok (legal_retire h (legal_setGr ?_ ..) _))
  exact legal_setFrame ht.1 _

theorem returnFromInterruption_legal (h : ThreadsLegal s) : Leads ThreadsLegal (returnFromInterruption s) := by
  refine finish_legal h (.skip fun _ => .require fun hv =>
    .bind (restoreFrame_legal (c := s.lp.cr) ⟨h, rfl⟩) fun t ht => .ok ?_)
  have hr : ThreadsLegal (restoreContext t) := legal_restoreContext ht.1 (by rw [ht.2]; exact hv)
  split
  · exact legal_deliver (s := (restoreContext t).noteFlow ..) hr ..
  · exact hr

end

end Sys2Proof.Machine
end

