-- ==== Sys2Proof/Proofs/LegalInstructions.lean ====
section
/-!
Every instruction leaves both threads legal, as each shared operation does.
-/

namespace Sys2Proof.Machine

/-- Each shared operation leaves both threads legal. -/
theorem sharedOp_legal {s : State} {r : Result} (h : ThreadsLegal s) (hr : SharedOp s r) : Leads ThreadsLegal r := by
  cases hr with
  | alu2 | alu1 | hashQuery | getfOp => exact predicated_legal h (.skip fun _ => .skip fun _ => .ok (legal_setGr h ..))
  | alu0 | movToGr => exact predicated_legal h (.skip fun _ => .ok (legal_setGr h ..))
  | compareReg | compareZero | compareImm | testBit | testNat => exact compare_legal h (.skip fun _ => .ok h)
  | loadInt => exact loadInt_legal h
  | load16 => exact load16_legal h
  | storeInt => exact storeInt_legal h
  | store16 => exact predicated_legal h (.skip fun _ => .skip fun _ => .skip fun _ => store_legal h)
  | loadFp => exact loadFp_legal h
  | storeFp =>
    exact predicated_legal h (.skip fun _ => .skip fun _ => .skip fun _ => .skip fun _ => .skip fun _ =>
      .bind (store_legal h) fun _ ht => .ok (legal_postInc ht ..))
  | loadPair => exact loadPair_legal h
  | lineFetch => exact lineFetch_legal h
  | cmpxchg | xchg | fetchadd | cmp8xchg16 => exact semaphore_legal h
  | fusedOp | fpArith2 | fpConvert => exact fpArith_legal h
  | xmaOp | fselectOp | fpMove | fpMove3 => exact fpMove3_legal h
  | fpCompareOp => exact fpCompareOp_legal h _
  | fclassOp => exact compare_legal h (.skip fun _ => .ok h)
  | approximate => exact approximate_legal h
  | setControls | clearFlags | noEffect | serializeInstr | invalidateAlat | invalidateEntry | nopOp | hintOp =>
    exact predicated_legal h (.ok h)
  | checkFlags => exact checkFlags_legal h _
  | setfOp => exact predicated_legal h (.skip fun _ => .skip fun _ => .skip fun _ => .ok (legal_setFr h ..))
  | movToAr | movToArImm => exact predicated_legal h (writeAr_legal h)
  | movFromAr => exact predicated_legal h (.skip fun _ => .skip fun _ => .ok (legal_setGr h ..))
  | movToBr => exact predicated_legal h (.skip fun _ => .ok h)
  | movToPr => exact predicated_legal h (.skip fun _ => .ok (legal_setPrs h ..))
  | movToPrRot => exact predicated_legal h (.ok (legal_setPrs h ..))
  | sum =>
    exact userMask_legal h fun w m hw hm => by rw [BitVec.getLsbD_or, hw, hm, Bool.or_false]
  | rum =>
    exact userMask_legal h fun w m hw _ => by rw [BitVec.getLsbD_and, hw, Bool.false_and]
  | systemMask => exact systemMask_legal h
  | movToPsrL => exact movToPsrL_legal h
  | movToPsrUm => exact movToPsrUm_legal h
  | movFromPsr => exact predicated_legal h (.skip fun _ => .skip fun _ => .ok (legal_setGr h ..))
  | movToCr =>
    exact predicated_legal h (.skip fun _ => .skip fun _ => .skip fun _ => .skip fun _ => .skip fun _ =>
      .ok (legal_setCrValue h ..))
  | movFromCr =>
    exact predicated_legal h (.skip fun _ => .skip fun _ => .skip fun _ => .ok (legal_setGr (readCr_legal h _) ..))
  | movToIndirect =>
    exact predicated_legal h (.skip fun _ => .skip fun _ => .skip fun _ => .skip fun _ => .skip fun _ => .skip fun _ =>
      indirectWrite_legal h)
  | movFromIndirect =>
    exact predicated_legal h (.skip fun _ => .skip fun _ => .skip fun _ => .skip fun _ => .skip fun _ =>
      .ok (legal_setGr (indirectRead_legal h ..) ..))
  | movFromCpuid => exact predicated_legal h (.skip fun _ => .skip fun _ => .skip fun _ => .ok (legal_setGr h ..))
  | probe =>
    exact predicated_legal h (.skip fun _ => .skip fun _ => .skip fun _ => .skip fun _ => .skip fun _ =>
      .ok (legal_setGr h ..))
  | probeFault | flushLine => exact predicated_legal h (.skip fun _ => .skip fun _ => .ok h)
  | tpaQuery =>
    exact predicated_legal h (.skip fun _ => .skip fun _ => .skip fun _ => .skip fun _ => .skip fun _ =>
      .ok (legal_setGr h ..))
  | takQuery =>
    exact predicated_legal h (.skip fun _ => .skip fun _ => .skip fun _ => .skip fun _ => .ok (legal_setGr h ..))
  | itcInsert instr =>
    refine predicated_legal h (.skip fun _ => .skip fun _ => .skip fun _ => .skip fun _ => .skip fun _ => .ok ?_)
    cases instr <;> exact h
  | itrInsert instr =>
    refine predicated_legal h (.skip fun _ => .skip fun _ => .skip fun _ => .skip fun _ => .skip fun _ => .skip fun _ =>
      .skip fun _ => .ok ?_)
    cases instr <;> exact h
  | purgeCaches | purgeCachesAlat =>
    exact predicated_legal h (.skip fun _ => .skip fun _ => .skip fun _ => .skip fun _ => .skip fun _ => .ok h)
  | purgeRegisters instr =>
    refine predicated_legal h (.skip fun _ => .skip fun _ => .skip fun _ => .skip fun _ => .skip fun _ => .ok ?_)
    cases instr <;> exact h
  | purgePartial => exact predicated_legal h (.skip fun _ => .skip fun _ => .skip fun _ => .ok h)
  | chkS | chkSFp => exact predicatedEnd_legal h (.skip fun _ => .ok (checked_legal (s := s.noteCheck ..) h ..))
  | chkA => exact chkA_legal h
  | breakOp | switchVirtual => exact predicated_legal h (.raise _)
  | flushStack => exact flushStack_legal h
  | loadStack => exact loadStack_legal h
  | allocFrame => exact allocFrame_legal h
  | branchCond => exact branchWith_legal h (.ok h)
  | branchWhile => exact branchWhile_legal h
  | branchCounted => exact branchCounted_legal h
  | branchCloop => exact branchCloop_legal h
  | branchCall => exact branchWith_legal h (.ok h)
  | branchRet => exact branchRet_legal h
  | branchIa => exact branchWith_legal h (.raise _)
  | predict | cover | clearRename => exact always_legal h (.ok h)
  | returnFromInterruption => exact returnFromInterruption_legal h
  | bankSwitch => exact bankSwitch_legal h
  | enterPrivileged => exact enterPrivileged_legal h

/-- Every instruction leaves both threads legal. -/
theorem exec_legal {s : State} (h : ThreadsLegal s) (i : Instr) : Leads ThreadsLegal (exec i s) :=
  sharedOp_legal h (exec_sharedOp i s)

end Sys2Proof.Machine
end

