-- ==== Sys2Proof/Proofs/LegalStep.lean ====
section
/-!
A whole step leaves both threads legal (10 R55 to R57, R63): the fetch and the decode faults before an instruction, the external
interrupt in its place, and the clocks, the start of a thread and the thread switch after it.
-/

namespace Sys2Proof.Machine

/-! ## The threads by themselves -/

section
variable {l : LP}

theorem wake_legal (h : l.legal = true) : l.wake.legal = true := by
  unfold LP.wake; split <;> exact h

theorem timerTick_legal (h : l.legal = true) (moved : Bool) (old : Word) (n : Nat) : (timerTick moved old n l).legal = true := by
  unfold timerTick
  split
  · exact h
  · dsimp only; split <;> exact h

/-- A thread begins to run at the address of a bundle. -/
theorem startThread_legal (h : l.legal = true) (p : Params) (n : Nat) : (startThread p n l).legal = true := by
  unfold startThread
  split
  · exact h
  · split
    · exact h
    · simp only [LP.legal, Bool.and_eq_true, decide_eq_true_eq] at h ⊢
      obtain ⟨⟨hpsr, -⟩, hpr⟩ := h
      exact ⟨⟨hpsr, aligned_alignDown _⟩, hpr⟩

end

section
variable {s t : State}

/-! ## The instruction, or the interrupt before it -/

theorem legal_atSlot (h : ThreadsLegal s) (b : Bundle) : ThreadsLegal (atSlot s b) := by
  unfold atSlot; split
  · exact legal_setRi h (by decide)
  · exact h

theorem legal_atFetchedSlot (h : ThreadsLegal s) : ThreadsLegal (atFetchedSlot s) := by
  unfold atFetchedSlot; split
  · exact legal_atSlot h _
  · exact h

theorem legal_interrupt (h : ThreadsLegal s) : ThreadsLegal (interrupt s) := legal_deliver (legal_atFetchedSlot h) ..

theorem legal_withBundle (h : ThreadsLegal s) (b : Bundle) : ThreadsLegal (s.withBundle b) := h

theorem legal_noBundle (h : ThreadsLegal s) : ThreadsLegal (noBundle s) := h

theorem runBundle_legal (h : ThreadsLegal s) (b : Bundle) : Leads ThreadsLegal (runBundle s b) := by
  have ht : ThreadsLegal (atSlot (s.withBundle b) b) := legal_atSlot (legal_withBundle h b) b
  unfold runBundle
  generalize atSlot (s.withBundle b) b = t at ht
  dsimp only
  split
  · exact .next (legal_deliver ht ..)
  · split
    · exact exec_legal ht _
    · exact .refused _
    · exact .next (legal_deliver ht ..)

theorem runNext_legal (h : ThreadsLegal s) : Leads ThreadsLegal (runNext s) := by
  unfold runNext
  rcases fetch s with (e | f | r) | b
  · exact .next (legal_deliver (legal_noBundle h) ..)
  · exact .fault _
  · exact .refused _
  · exact runBundle_legal h b

theorem legal_idle (h : ThreadsLegal s) : ThreadsLegal (idle s) := by
  have ht : ThreadsLegal (s.setLp s.lp.wake) := ⟨wake_legal h.1, h.2⟩
  unfold idle
  dsimp only
  split
  · exact legal_interrupt ht
  · exact ht

theorem runThread_legal (h : ThreadsLegal s) : Leads ThreadsLegal (runThread s) := by
  unfold runThread
  split
  · exact .next (legal_idle h)
  · split
    · exact .next (legal_interrupt h)
    · exact runNext_legal h

/-! ## After the instruction -/

theorem legal_elapse (n : Nat) (s : State) (h : ThreadsLegal t) : ThreadsLegal (elapse n s t) := by
  unfold elapse
  generalize pmuTick _ _ _ = p
  refine ⟨timerTick_legal h.1 .., wake_legal ?_⟩
  exact startThread_legal (timerTick_legal h.2 ..) ..

theorem legal_swapThreads (h : ThreadsLegal s) : ThreadsLegal (swapThreads s) := ⟨h.2, h.1⟩

theorem legal_endStep (s : State) (h : ThreadsLegal t) : ThreadsLegal (endStep s t) := by
  have hu := legal_elapse t.free s h
  unfold endStep
  dsimp only
  split
  · exact legal_swapThreads hu
  · exact hu

theorem cycle_legal (h : ThreadsLegal s) : Leads ThreadsLegal (cycle s) := by
  have hr : Leads ThreadsLegal (runThread (beginStep s)) := runThread_legal h
  unfold cycle
  dsimp only
  generalize runThread (beginStep s) = r at hr
  cases r with
  | next t => exact .next (legal_endStep _ (hr t rfl))
  | fault f => exact .fault f
  | refused r => exact .refused r

end

/-- Settles O54: the instruction or the interrupt of a step by `runThread_legal`, its end by `legal_endStep`. -/
theorem stepKeepsThreadsLegal : Obligations.StepKeepsThreadsLegal :=
  fun _ t h ht => cycle_legal h t ht

end Sys2Proof.Machine
end

