-- ==== Sys2Proof/Proofs/MemoryUpdates.lean ====
section
/-!
What the operations of the model do to main memory (20 R440, R432): all but the stores leave it alone, and a store writes bytes of
it. A property of main memory is carried through each operation: through a store if writes of bytes keep it, through any other
operation always.
-/

namespace Sys2Proof.Machine

open Sys2Proof.Config

/-- The main memory of a state has a property. -/
def OnMemory (Q : List Host.Cell → Prop) (s : State) : Prop := Q s.mem

/-- A property of main memory that every write of bytes keeps. -/
def KeptByWrites (Q : List Host.Cell → Prop) : Prop := ∀ big m a n v, Q m → Q (memWrite big m a n v)

section
variable {Q : List Host.Cell → Prop} {s t : State}

/-! ## The named updates of the state -/

theorem OnMemory.congr (h : OnMemory Q s) (e : t.mem = s.mem) : OnMemory Q t := by
  unfold OnMemory; rw [e]; exact h

theorem onMemory_seen (h : OnMemory Q s) (hseen : Seen s t) : OnMemory Q t := h.congr (seen_mem hseen)

theorem onMemory_postInc (h : OnMemory Q s) (r : BitVec 7) (b i : Reg) (inc : Inc) : OnMemory Q (s.postInc r b inc i) :=
  h.congr (postInc_mem ..)

theorem onMemory_allocAlat (h : OnMemory Q s) (fp : Bool) (r : BitVec 7) (pa n : Nat) : OnMemory Q (s.allocAlat fp r pa n) :=
  onMemory_seen h (seen_allocAlat ..)

theorem onMemory_writeCompare (h : OnMemory Q s) (ct : CType) (p q : BitVec 6) (rel nat : Bool) :
    OnMemory Q (writeCompare ct s p q rel nat) := by
  unfold writeCompare
  cases ct <;> dsimp only <;> split <;> exact h

theorem onMemory_rotated (h : OnMemory Q s) (b : Bool) : OnMemory Q (s.rotated b) := by
  obtain ⟨c, p, e, -⟩ := rotated_parts s b
  exact h.congr (by rw [e])

theorem onMemory_epilog (h : OnMemory Q s) : OnMemory Q (epilog s).1 := by
  have hr (e : BitVec 6) : OnMemory Q ((s.setEc e).rotated false) := onMemory_rotated (s := s.setEc e) h false
  rw [epilog_cases]; split
  · exact hr _
  · split
    · exact hr _
    · exact h

theorem onMemory_retire (s : State) (h : OnMemory Q t) (e : Ending) : OnMemory Q (retire s t e) := by
  unfold retire
  dsimp only
  split <;> exact h

theorem onMemory_squash (h : OnMemory Q s) (wide : Bool) : OnMemory Q (squash s wide) := by
  refine onMemory_retire s ?_ _
  exact h

/-! ## Accesses to memory -/

theorem readAt_onMemory {big : Bool} {pa n : Nat} {attr : MemAttr} (h : OnMemory Q s) :
    Yields (fun p => OnMemory Q p.2) (readAt s big pa attr n) :=
  .ite (fun _ => .skip fun _ => .ok h) fun _ => .ite (fun _ => .ok h) fun _ => .error _

/-- A write either writes bytes of main memory or a register of the uncore. -/
theorem writeAt_onMemory (hw : KeptByWrites Q) {big : Bool} {pa n v : Nat} {attr : MemAttr} (h : OnMemory Q s) :
    Yields (OnMemory Q) (writeAt s big pa attr n v) := by
  have hd (u : Uncore) (k : Option Nat) : OnMemory Q ((s.dropAlat pa n).setUncoreOf u k) := by
    cases k <;> exact h
  exact .ite (fun _ => .skip fun _ => .skip fun _ => .ok (hd ..)) fun _ =>
    .ite (fun _ => .ok (hw _ _ _ _ _ h)) fun _ => .error _

theorem load_onMemory {fp wbOnly : Bool} {va : Word} {n : Nat} (h : OnMemory Q s) :
    Yields (fun p => OnMemory Q p.2.2) (load s fp va n wbOnly) :=
  .skip fun _ => .bind (readAt_onMemory h) fun _ ht => .ok ht

theorem store_onMemory (hw : KeptByWrites Q) {fp wbOnly : Bool} {va : Word} {n v : Nat} (h : OnMemory Q s) :
    Yields (OnMemory Q) (store s fp va n v wbOnly) :=
  .skip fun _ => .bind (writeAt_onMemory hw h) fun _ ht => .ok ht

theorem atomic_onMemory (hw : KeptByWrites Q) {va : Word} {n m : Nat} {f : Nat → Option Nat} (h : OnMemory Q s) :
    Yields (fun p => OnMemory Q p.2) (atomic s va n m f) := by
  refine .skip fun _ => .bind (readAt_onMemory h) fun p hp => ?_
  dsimp only; split
  · exact .ok hp
  · exact .bind (writeAt_onMemory hw hp) fun _ ht => .ok ht

theorem specLoad_onMemory {fp wbOnly : Bool} {va : Word} {n : Nat} (h : OnMemory Q s) :
    Yields (fun p => OnMemory Q p.2) (specLoad s fp va n wbOnly) := by
  have hf (f : MemFault) : Yields (fun p => OnMemory Q p.2)
      (if deferred s f then .ok (none, s.noteData .load fp va n .wb (some f.natCause))
        else raise (memExc s va .read (accessBits .read ||| (1#64 <<< 36)) f) : Ans (Option (Nat × Nat) × State)) :=
    .ite (fun _ => .ok h) fun _ => .raise _
  unfold specLoad
  refine .ite (fun _ => .ok h) fun _ => ?_
  split
  · exact hf _
  · refine .ite (fun _ => .ok h) fun _ => ?_
    split
    · exact hf _
    · exact .bind (readAt_onMemory h) fun _ ht => .ok ht

theorem loadForm_onMemory {f : LoadForm} {fp wbOnly : Bool} {r : BitVec 7} {base : Reg} {n : Nat} (h : OnMemory Q s) :
    Yields (fun p => OnMemory Q p.2) (loadForm f fp r base n wbOnly s) := by
  have hc : OnMemory Q (checkAlat s fp r).2 := onMemory_seen h (seen_checkAlat ..)
  have ha {t : State} (c : Bool) (pa : Nat) (ht : OnMemory Q t) : OnMemory Q (if c then t.allocAlat fp r pa n else t) := by
    split
    · exact onMemory_allocAlat ht ..
    · exact ht
  have hr {t : State} (c : Bool) (ht : OnMemory Q t) : OnMemory Q (if c then t.removeAlat fp r else t) := by
    split <;> exact ht
  unfold loadForm
  refine .ite (fun _ => .ite (fun _ => .ok (hr f.adv h)) fun _ => .raise _) fun _ => ?_
  refine .ite (fun _ => ?_) fun _ => .ite (fun _ => ?_) fun _ => ?_
  · generalize checkAlat s fp r = c at hc
    obtain ⟨hit, s1⟩ := c
    refine .ite (fun _ => .ok (hr (t := s1.noteCheck _ _ _ _ _) f.clr hc)) fun _ => ?_
    refine .bind (load_onMemory (s := s1.noteCheck _ _ _ _ _) hc) fun p hp => .ok ?_
    dsimp only; split
    · exact hp
    · exact onMemory_allocAlat hp ..
  · refine .bind (specLoad_onMemory h) fun p hp => ?_
    dsimp only; split
    · exact .ok (hr f.adv hp)
    · exact .ok (ha f.adv _ hp)
  · exact .bind (load_onMemory h) fun p hp => .ok (ha f.adv _ hp)

/-! ## The register stack engine -/

theorem rseStore_onMemory (hw : KeptByWrites Q) {va v : Word} (h : OnMemory Q s) : Yields (OnMemory Q) (rseStore s va v) :=
  .skip fun _ => .bind (writeAt_onMemory hw h) fun _ ht => .ok ht

theorem rseLoad_onMemory {va : Word} (h : OnMemory Q s) : Yields (fun p => OnMemory Q p.2) (rseLoad s va) :=
  .skip fun _ => .bind (readAt_onMemory h) fun _ ht => .ok ht

theorem spillCollection_onMemory (hw : KeptByWrites Q) (h : OnMemory Q s) : Yields (OnMemory Q) (spillCollection s) :=
  .ite (fun _ => .bind (rseStore_onMemory hw h) fun _ ht => .ok ht) fun _ => .ok h

theorem spillOne_onMemory (hw : KeptByWrites Q) (h : OnMemory Q s) : Yields (OnMemory Q) (spillOne s) :=
  .bind (spillCollection_onMemory hw h) fun _ ht => .bind (rseStore_onMemory hw ht) fun t hu =>
    spillCollection_onMemory hw (s := (t.setAr _).setGrFile _) hu

theorem spillN_onMemory (hw : KeptByWrites Q) (n : Nat) : ∀ {s : State}, OnMemory Q s → Yields (OnMemory Q) (spillN n s) := by
  induction n with
  | zero => exact fun h => .ok h
  | succ n ih => exact fun h => .bind (spillOne_onMemory hw h) fun _ ht => ih ht

theorem fillCollection_onMemory (h : OnMemory Q s) : Yields (OnMemory Q) (fillCollection s) :=
  .ite (fun _ => .bind (rseLoad_onMemory h) fun _ ht => .ok ht) fun _ => .ok h

theorem fillRegister_onMemory (h : OnMemory Q s) : Yields (OnMemory Q) (fillRegister s) :=
  .bind (rseLoad_onMemory h) fun _ ht => .ok ht

theorem fillN_onMemory (n : Nat) : ∀ {s : State}, OnMemory Q s → Yields (OnMemory Q) (fillN n s) := by
  induction n with
  | zero => exact fun h => .ok h
  | succ n ih =>
    exact fun h => .bind (.bind (fillCollection_onMemory h) fun _ ht => fillRegister_onMemory ht) fun _ hu => ih hu

theorem onMemory_freeStack (h : OnMemory Q s) : OnMemory Q (freeStack s) := by
  unfold freeStack
  generalize Vector.ofFn _ = stk
  exact h

/-- A return to a frame loads its registers, and may then store others to make room for it. -/
theorem popFrame_onMemory (hw : KeptByWrites Q) {n sof : Nat} (h : OnMemory Q s) : Yields (OnMemory Q) (popFrame n sof s) := by
  have hm (u : State) (ht : OnMemory Q u) : Yields (OnMemory Q) (makeRoom sof u) := spillN_onMemory hw _ ht
  exact .ite (fun _ => .bind (fillN_onMemory _ h) fun t ht => hm (t.setGrFile _) ht) fun _ =>
    .ok (onMemory_freeStack (s := s.setGrFile _) h)

theorem dropBelow_onMemory (bsp : Word) (bytes n : Nat) :
    ∀ {s : State}, OnMemory Q s → OnMemory Q (dropBelow bsp bytes n s) := by
  induction n with
  | zero => intro s h; unfold dropBelow; split <;> exact h
  | succ n ih =>
    intro s h
    unfold dropBelow
    split
    · dsimp only
      split
      · exact ih h
      · exact h
    · exact h

theorem onMemory_keepBspstore (h : OnMemory Q t) : OnMemory Q (s.keepBspstore t) := by
  unfold State.keepBspstore; split <;> exact h

theorem fillDownTo_onMemory (bsp : Word) (bytes n : Nat) :
    ∀ {s : State}, OnMemory Q s → Yields (OnMemory Q) (fillDownTo bsp bytes n s) := by
  induction n with
  | zero =>
    intro s h
    have hlast {t : State} (ht : OnMemory Q t) : Yields (OnMemory Q)
        (if t.lp.bytesBelow bsp < bytes then raise illegalOperation else .ok (s.keepBspstore t)) :=
      .ite (fun _ => .raise _) fun _ => .ok (onMemory_keepBspstore ht)
    exact .ite (fun _ => .bind (fillCollection_onMemory h) fun _ ht => hlast ht) fun _ => hlast h
  | succ n ih =>
    exact fun h => .ite (fun _ => .bind (fillCollection_onMemory h) fun _ ht =>
      .ite (fun _ => .bind (fillRegister_onMemory ht) fun _ hu => ih hu) fun _ =>
        .ok (onMemory_keepBspstore ht)) fun _ => .ok h

theorem restoreFrame_onMemory (hw : KeptByWrites Q) (h : OnMemory Q s) : Yields (OnMemory Q) (restoreFrame s) :=
  .ite (fun _ => .bind (popFrame_onMemory hw (s := s.noteRse) h) fun _ ht => .ok ht) fun _ => .ok h

end

end Sys2Proof.Machine
end

