-- ==== Sys2Proof/Proofs/MemoryOperations.lean ====
section
/-!
What instructions do to main memory (20 R432, R440; 60 R1301): one rule for each way an instruction ends, and one for each shared
operation whose meaning is more than a few checks and a write of a register.
-/

namespace Sys2Proof.Machine

open Sys2Proof.Config

section
variable {Q : List Host.Cell → Prop} {s : State}

/-! ## How an instruction ends -/

/-- A delivery writes nothing to memory. -/
theorem finish_onMemory (h : OnMemory Q s) {x : Ans State} (hx : Yields (OnMemory Q) x) : Leads (OnMemory Q) (finish s x) :=
  .finish (fun _ => h) hx

theorem predicated_onMemory (h : OnMemory Q s) {qp : BitVec 6} {body : Ans State} {wide : Bool}
    (hb : Yields (OnMemory Q) body) : Leads (OnMemory Q) (predicated qp s body wide) := by
  unfold predicated; split
  · exact finish_onMemory h (hb.map fun _ ht => onMemory_retire s ht _)
  · exact .next (onMemory_squash h _)

theorem predicatedEnd_onMemory (h : OnMemory Q s) {qp : BitVec 6} {body : Ans (State × Ending)}
    (hb : Yields (fun p => OnMemory Q p.1) body) : Leads (OnMemory Q) (predicatedEnd qp s body) := by
  unfold predicatedEnd; split
  · exact finish_onMemory h (hb.map fun _ ht => onMemory_retire s ht _)
  · exact .next (onMemory_squash h _)

theorem unpredicated_onMemory (h : OnMemory Q s) {body : Ans (State × Ending)}
    (hb : Yields (fun p => OnMemory Q p.1) body) : Leads (OnMemory Q) (unpredicated s body) :=
  finish_onMemory h (hb.map fun _ ht => onMemory_retire s ht _)

theorem always_onMemory (h : OnMemory Q s) {body : Ans State} (hb : Yields (OnMemory Q) body) :
    Leads (OnMemory Q) (always s body) :=
  unpredicated_onMemory h (hb.map fun _ ht => ht)

theorem compare_onMemory (h : OnMemory Q s) {ct : CType} {qp p1 p2 : BitVec 6} {rel : Ans (Bool × Bool × State)}
    (hr : Yields (fun p => OnMemory Q p.2.2) rel) : Leads (OnMemory Q) (compare ct qp p1 p2 s rel) := by
  unfold compare; split
  · exact finish_onMemory h (.skip fun _ => .bind hr fun _ ht => .ok (onMemory_retire s (onMemory_writeCompare ht ..) _))
  · split
    · refine finish_onMemory h (.skip fun _ => .ok (onMemory_retire s ?_ _))
      exact h
    · exact .next (onMemory_squash h _)

theorem branchWith_onMemory (h : OnMemory Q s) {k : FlowKind} {wide : Bool} {qp : BitVec 6} {target : Word}
    {body : Ans (State × Bool)} (hb : Yields (fun p => OnMemory Q p.1) body) :
    Leads (OnMemory Q) (branchWith k wide qp target s body) := by
  unfold branchWith; split
  · refine finish_onMemory h (hb.map fun t ht => onMemory_retire s ?_ _)
    exact ht
  · refine .next (onMemory_retire s ?_ _)
    exact h

theorem onMemory_loopEnd {t : State} (ht : OnMemory Q t) (taken : Bool) (target : Word) :
    OnMemory Q (loopEnd s t taken target) := by
  refine onMemory_retire s ?_ _
  exact ht

/-! ## Loads, stores and semaphores -/

theorem loadInt_onMemory (h : OnMemory Q s) {f : LoadForm} {n : Nat} {fill : Bool} {qp : BitVec 6} {r1 r3 : BitVec 7}
    {inc : Inc} : Leads (OnMemory Q) (loadInt f n fill qp r1 r3 inc s) := by
  refine predicated_onMemory h (.skip fun _ => .skip fun _ => .skip fun _ => .skip fun _ => .skip fun _ =>
    .bind (loadForm_onMemory h) ?_)
  rintro ⟨x, t⟩ ht
  refine .ok (onMemory_postInc ?_ ..)
  cases x <;> exact ht

theorem load16_onMemory (h : OnMemory Q s) {qp : BitVec 6} {r1 r3 : BitVec 7} : Leads (OnMemory Q) (load16 qp r1 r3 s) := by
  refine predicated_onMemory h (.skip fun _ => .skip fun _ => .bind (loadForm_onMemory h) ?_)
  rintro ⟨x, t⟩ ht
  cases x <;> exact .ok ht

theorem storeInt_onMemory (hw : KeptByWrites Q) (h : OnMemory Q s) {n : Nat} {spill : Bool} {qp : BitVec 6}
    {r3 r2 : BitVec 7} {inc : Inc} : Leads (OnMemory Q) (storeInt n spill qp r3 r2 inc s) := by
  refine predicated_onMemory h (.skip fun _ => .skip fun _ => .skip fun _ => .skip fun _ => .skip fun _ =>
    .bind (store_onMemory hw h) fun t ht => .ok (onMemory_postInc ?_ ..))
  cases spill <;> exact ht

theorem store16_onMemory (hw : KeptByWrites Q) (h : OnMemory Q s) {qp : BitVec 6} {r3 r2 : BitVec 7} :
    Leads (OnMemory Q) (store16 qp r3 r2 s) :=
  predicated_onMemory h (.skip fun _ => .skip fun _ => .skip fun _ => store_onMemory hw h)

theorem storeFp_onMemory (hw : KeptByWrites Q) (h : OnMemory Q s) {m : FpFormat} {qp : BitVec 6} {r3 f2 : BitVec 7}
    {inc : Inc} : Leads (OnMemory Q) (storeFp m qp r3 f2 inc s) :=
  predicated_onMemory h (.skip fun _ => .skip fun _ => .skip fun _ => .skip fun _ => .skip fun _ =>
    .bind (store_onMemory hw h) fun _ ht => .ok (onMemory_postInc ht ..))

theorem loadFp_onMemory (h : OnMemory Q s) {f : LoadForm} {m : FpFormat} {qp : BitVec 6} {f1 r3 : BitVec 7} {inc : Inc} :
    Leads (OnMemory Q) (loadFp f m qp f1 r3 inc s) := by
  refine predicated_onMemory h (.skip fun _ => .skip fun _ => .skip fun _ => .skip fun _ => .skip fun _ =>
    .bind (loadForm_onMemory h) ?_)
  rintro ⟨x, t⟩ ht
  refine .ok (onMemory_postInc ?_ ..)
  cases x <;> exact ht

theorem loadPair_onMemory (h : OnMemory Q s) {f : LoadForm} {m : FpFormat} {update : Bool} {qp : BitVec 6}
    {f1 f2 r3 : BitVec 7} : Leads (OnMemory Q) (loadPair f m update qp f1 f2 r3 s) := by
  refine predicated_onMemory h (.skip fun _ => .skip fun _ => .skip fun _ => .skip fun _ => .skip fun _ => .skip fun _ =>
    .skip fun _ => .skip fun _ => .bind (loadForm_onMemory h) ?_)
  rintro ⟨x, t⟩ ht
  refine .ok (onMemory_postInc ?_ ..)
  cases x <;> exact ht

theorem semaphore_onMemory (hw : KeptByWrites Q) (h : OnMemory Q s) {n m : Nat} {qp : BitVec 6} {r1 r3 : BitVec 7}
    {f : Nat → Ans (Option Nat)} : Leads (OnMemory Q) (semaphore n m qp r1 r3 s f) :=
  predicated_onMemory h (.skip fun _ => .skip fun _ => .skip fun _ => .skip fun _ =>
    .bind (atomic_onMemory hw h) fun _ ht => .ok ht)

theorem lineFetch_onMemory (h : OnMemory Q s) {fault : Bool} {qp : BitVec 6} {r3 : BitVec 7} {inc : Inc} :
    Leads (OnMemory Q) (lineFetch fault qp r3 inc s) := by
  have hend (a : Nat × MemAttr) (base : Reg) (i : Reg) :
      OnMemory Q ((s.noteData .lfetch false base.val 1 a.2 none).postInc r3 base inc i) :=
    onMemory_postInc (s := s.noteData ..) h ..
  unfold lineFetch
  exact predicated_onMemory h (.skip fun _ => .skip fun _ => .skip fun _ => .skip fun _ =>
    .ite (fun _ => .skip fun _ => .ok (hend ..)) fun _ => .skip fun _ => .ok (hend ..))

/-! ## Floating point -/

theorem recordFlags_onMemory {sf : BitVec 2} {f : BitVec 6} (h : OnMemory Q s) :
    Yields (fun p => OnMemory Q p.1) (recordFlags s sf f) :=
  .skip fun _ => .ok h

theorem fpArith_onMemory (h : OnMemory Q s) {op : FpOp} {prec : FpPrec} {weight : Nat} {sf : BitVec 2} {qp : BitVec 6}
    {f1 a b c : BitVec 7} : Leads (OnMemory Q) (fpArith op prec weight sf qp f1 a b c s) := by
  have h0 : OnMemory Q (s.noteFpOps weight) := h
  exact predicatedEnd_onMemory h (.skip fun _ => .ite (fun _ => .ok h) fun _ =>
    .bind (recordFlags_onMemory h0) fun _ ht => .ok ht)

theorem fpMove3_onMemory (h : OnMemory Q s) {qp : BitVec 6} {f1 a b c : BitVec 7} {f : FReg → FReg → FReg → FReg} :
    Leads (OnMemory Q) (fpMove3 qp f1 a b c f s) :=
  predicated_onMemory h (.skip fun _ => .ok h)

theorem fpCompareOp_onMemory (h : OnMemory Q s) (o : OpF4) : Leads (OnMemory Q) (fpCompareOp o s) := by
  have h0 : OnMemory Q (s.noteFpOps 1) := h
  unfold fpCompareOp
  dsimp only
  split
  · exact finish_onMemory h (.skip fun _ => .skip fun _ => .skip fun _ => .ite
      (fun _ => .ok (onMemory_retire s (onMemory_writeCompare h0 ..) _)) fun _ =>
      .bind (recordFlags_onMemory h0) fun _ ht => .ok (onMemory_retire s (onMemory_writeCompare ht ..) _))
  · exact compare_onMemory h (.ok h)

theorem approximate_onMemory (h : OnMemory Q s) {op : FpOp} {weight : Nat} {sf : BitVec 2} {qp p2 : BitVec 6}
    {f1 a b : BitVec 7} : Leads (OnMemory Q) (approximate op weight sf qp p2 f1 a b s) := by
  have h0 : OnMemory Q (s.noteFpOps weight) := h
  have he {t u : State} (e : Ending) (ht : OnMemory Q t) (hm : u.mem = t.mem) : OnMemory Q (retire s u e) :=
    onMemory_retire s (ht.congr hm) e
  unfold approximate
  split
  · exact finish_onMemory h (.skip fun _ => .ite (fun _ => .ok (he _ h0 rfl)) fun _ =>
      .bind (recordFlags_onMemory h0) fun _ ht => .ok (he _ ht rfl))
  · exact .next (he _ h rfl)

/-! ## Registers outside the register files -/

theorem setArValue_mem (s : State) (n : Nat) (v : Word) : (setArValue s n v).mem = s.mem := by
  unfold setArValue
  dsimp only
  split
  · rfl
  · split <;> rfl

theorem writeAr_onMemory (h : OnMemory Q s) {iUnit : Bool} {n : Nat} {source : Ans Word} :
    Yields (OnMemory Q) (writeAr iUnit n s source) :=
  .skip fun _ => .skip fun _ => .skip fun _ => .skip fun _ => .ok (h.congr (setArValue_mem ..))

theorem endOfInterrupt_mem (s : State) : (endOfInterrupt s).mem = s.mem := by
  unfold endOfInterrupt; split <;> rfl

theorem setCrValue_mem (s : State) (n : Nat) (v : Word) : (setCrValue s n v).mem = s.mem := by
  unfold setCrValue
  dsimp only
  split
  any_goals rfl
  exact endOfInterrupt_mem s

theorem readCr_mem (s : State) (n : Nat) : (readCr s n).2.mem = s.mem := by
  unfold readCr readIvr
  split
  · split <;> rfl
  · rfl

theorem writePmc_onMemory (h : OnMemory Q s) {i : Nat} {v : Word} : Yields (OnMemory Q) (writePmc s i v) := by
  unfold writePmc
  exact .ite (fun _ => .error _) fun _ => .ite (fun _ => .ok h) fun _ => .ok h

theorem writePmd_mem (s : State) (j : Nat) (v : Word) : (writePmd s j v).mem = s.mem := by
  unfold writePmd; dsimp only; split <;> rfl

theorem readPmc_mem (s : State) (i : Nat) : (readPmc s i).2.mem = s.mem := by
  unfold readPmc; dsimp only; split <;> rfl

theorem readPmd_mem (s : State) (j : Nat) : (readPmd s j).2.mem = s.mem := by
  unfold readPmd
  dsimp only
  split
  · rfl
  · split
    · rfl
    · split <;> split <;> rfl

theorem indirectWrite_onMemory (h : OnMemory Q s) {k : IndirectFile} {i : Nat} {v : Word} :
    Yields (OnMemory Q) (k.write s i v) := by
  cases k with
  | rr | dbr | ibr | pkr => exact .ok h
  | pmc => exact writePmc_onMemory h
  | pmd => exact .ok (h.congr (writePmd_mem ..))

theorem indirectRead_mem (s : State) (k : IndirectFile) (i : Nat) : (k.read s i).2.mem = s.mem := by
  cases k with
  | rr | dbr | ibr | pkr => rfl
  | pmc => exact readPmc_mem s i
  | pmd => exact readPmd_mem s i

theorem itcInsert_onMemory (h : OnMemory Q s) {instr : Bool} {qp : BitVec 6} {r2 : BitVec 7} :
    Leads (OnMemory Q) (itcInsert instr qp r2 s) := by
  refine predicated_onMemory h (.skip fun _ => .skip fun _ => .skip fun _ => .skip fun _ => .skip fun _ => .ok ?_)
  cases instr <;> exact h

theorem itrInsert_onMemory (h : OnMemory Q s) {instr : Bool} {qp : BitVec 6} {r3 r2 : BitVec 7} :
    Leads (OnMemory Q) (itrInsert instr qp r3 r2 s) := by
  refine predicated_onMemory h (.skip fun _ => .skip fun _ => .skip fun _ => .skip fun _ => .skip fun _ => .skip fun _ =>
    .skip fun _ => .ok ?_)
  cases instr <;> exact h

theorem purgeRegisters_onMemory (h : OnMemory Q s) {instr : Bool} {qp : BitVec 6} {r3 r2 : BitVec 7} :
    Leads (OnMemory Q) (purgeRegisters instr qp r3 r2 s) := by
  refine predicated_onMemory h (.skip fun _ => .skip fun _ => .skip fun _ => .skip fun _ => .skip fun _ => .ok ?_)
  cases instr <;> exact h

/-! ## Checks, branches and frames -/

theorem checked_onMemory (h : OnMemory Q s) (failed : Bool) (target : Word) : OnMemory Q (checked s failed target).1 := by
  unfold checked; split <;> exact h

theorem checkFlags_onMemory (h : OnMemory Q s) (o : OpF14) : Leads (OnMemory Q) (checkFlags o s) := by
  refine predicatedEnd_onMemory h (.ok ?_)
  split <;> exact h

theorem chkA_onMemory (h : OnMemory Q s) {fp clear : Bool} {qp : BitVec 6} {r : BitVec 7} {t : BitVec 21} :
    Leads (OnMemory Q) (chkA fp clear qp r t s) := by
  have hc : OnMemory Q (checkAlat s fp r).2 := onMemory_seen h (seen_checkAlat ..)
  unfold chkA
  generalize checkAlat s fp r = c at hc
  refine predicatedEnd_onMemory h (.ok (checked_onMemory ?_ ..))
  split <;> exact hc

theorem branchWhile_onMemory (h : OnMemory Q s) {exit : Bool} {qp : BitVec 6} {target : Word} :
    Leads (OnMemory Q) (branchWhile exit qp target s) := by
  have hgo : OnMemory Q (if s.lp.readPr qp then (s.rotated false, true) else epilog s).1 := by
    split
    · exact onMemory_rotated h _
    · exact onMemory_epilog h
  exact finish_onMemory h (.skip fun _ => .ok (onMemory_loopEnd hgo ..))

theorem branchCounted_onMemory (h : OnMemory Q s) {exit : Bool} {qp : BitVec 6} {target : Word} :
    Leads (OnMemory Q) (branchCounted exit qp target s) := by
  have hgo : OnMemory Q
      (if s.lp.ar.lc ≠ 0#64 then ((s.setLc (s.lp.ar.lc - 1#64)).rotated true, true) else epilog s).1 := by
    split
    · exact onMemory_rotated (s := s.setLc (s.lp.ar.lc - 1#64)) h true
    · exact onMemory_epilog h
  exact finish_onMemory h (.skip fun _ => .ok (onMemory_loopEnd hgo ..))

theorem branchCloop_onMemory (h : OnMemory Q s) {qp : BitVec 6} {target : Word} :
    Leads (OnMemory Q) (branchCloop qp target s) := by
  refine finish_onMemory h (.skip fun _ => .ok ?_)
  split
  · exact onMemory_loopEnd h ..
  · exact onMemory_loopEnd (t := s.setLc (s.lp.ar.lc - 1#64)) h ..

theorem branchRet_onMemory (hw : KeptByWrites Q) (h : OnMemory Q s) {qp : BitVec 6} {b2 : BitVec 3} :
    Leads (OnMemory Q) (branchRet qp b2 s) := by
  refine branchWith_onMemory h (.bind (popFrame_onMemory hw (s := s.noteRse) h) fun t ht => .ok ?_)
  split <;> exact ht

theorem flushStack_onMemory (hw : KeptByWrites Q) (h : OnMemory Q s) : Leads (OnMemory Q) (flushStack s) :=
  unpredicated_onMemory h ((spillN_onMemory hw _ (s := s.noteRse) h).map fun _ ht => ht)

/-- 42 R604: the register stack engine loads here and stores nothing. -/
theorem loadStack_onMemory (h : OnMemory Q s) : Leads (OnMemory Q) (loadStack s) := by
  have h1 : OnMemory Q s.noteRse := h
  unfold loadStack
  exact unpredicated_onMemory h (.skip fun _ => .ite
    (fun _ => .bind (.ok (dropBelow_onMemory _ _ _ h1)) fun _ ht => .ok ht) fun _ =>
      .bind (fillDownTo_onMemory _ _ _ h1) fun _ ht => .ok ht)

theorem coverFrame_mem (s : State) : (coverFrame s).mem = s.mem := rfl

theorem onMemory_setGr (h : OnMemory Q s) (r : BitVec 7) (v : Reg) : OnMemory Q (s.setGr r v) := h

theorem onMemory_setFrame (h : OnMemory Q s) (cfm : BitVec 38) : OnMemory Q (s.setLp { s.lp with cfm := cfm }) := h

theorem allocFrame_onMemory (hw : KeptByWrites Q) (h : OnMemory Q s) {qp : BitVec 6} {r1 : BitVec 7} {sof sol sor : Nat} :
    Leads (OnMemory Q) (allocFrame qp r1 sof sol sor s) := by
  have hm : Yields (OnMemory Q) (makeRoom sof s.noteRse) := spillN_onMemory hw _ h
  refine finish_onMemory h (.skip fun _ => .skip fun _ => .skip fun _ => .bind hm fun t ht =>
    .ok (onMemory_retire s (onMemory_setGr ?_ ..) _))
  exact onMemory_setFrame ht _

theorem returnFromInterruption_onMemory (hw : KeptByWrites Q) (h : OnMemory Q s) :
    Leads (OnMemory Q) (returnFromInterruption s) := by
  refine finish_onMemory h (.skip fun _ => .skip fun _ => .bind (restoreFrame_onMemory hw h) fun t ht => .ok ?_)
  split <;> exact ht

theorem enterPrivileged_onMemory (h : OnMemory Q s) : Leads (OnMemory Q) (enterPrivileged s) := by
  refine always_onMemory h (.skip fun _ => .ok ?_)
  split
  · exact h
  · split
    · split <;> exact h
    · exact h

end

section
variable {Q : List Host.Cell → Prop} {s : State} (h : OnMemory Q s)
include h

/-! ## The shared operations that are a few checks and a write -/

theorem alu2_onMemory {qp r1 r2 r3 f} : Leads (OnMemory Q) (alu2 qp r1 r2 r3 f s) :=
  predicated_onMemory h (.skip fun _ => .skip fun _ => .ok h)
theorem alu1_onMemory {qp r1 r3 f} : Leads (OnMemory Q) (alu1 qp r1 r3 f s) :=
  predicated_onMemory h (.skip fun _ => .skip fun _ => .ok h)
theorem hashQuery_onMemory {f qp r1 r3} : Leads (OnMemory Q) (hashQuery f qp r1 r3 s) :=
  predicated_onMemory h (.skip fun _ => .skip fun _ => .ok h)
theorem getfOp_onMemory {qp r1 f2 f} : Leads (OnMemory Q) (getfOp qp r1 f2 f s) :=
  predicated_onMemory h (.skip fun _ => .skip fun _ => .ok h)
theorem movFromAr_onMemory {iUnit qp r1 ar3} : Leads (OnMemory Q) (movFromAr iUnit qp r1 ar3 s) :=
  predicated_onMemory h (.skip fun _ => .skip fun _ => .ok h)
theorem movFromPsr_onMemory {qp r1} : Leads (OnMemory Q) (movFromPsr qp r1 s) :=
  predicated_onMemory h (.skip fun _ => .skip fun _ => .ok h)
theorem systemMask_onMemory {set qp imm24} : Leads (OnMemory Q) (systemMask set qp imm24 s) :=
  predicated_onMemory h (.skip fun _ => .skip fun _ => .ok h)
theorem movToPsrUm_onMemory {qp r2} : Leads (OnMemory Q) (movToPsrUm qp r2 s) :=
  predicated_onMemory h (.skip fun _ => .skip fun _ => .ok h)
theorem flushLine_onMemory {qp r3} : Leads (OnMemory Q) (flushLine qp r3 s) :=
  predicated_onMemory h (.skip fun _ => .skip fun _ => .ok h)
theorem probeFault_onMemory {kind qp r3 pl} : Leads (OnMemory Q) (probeFault kind qp r3 pl s) :=
  predicated_onMemory h (.skip fun _ => .skip fun _ => .ok h)
theorem alu0_onMemory {qp r1 v wide} : Leads (OnMemory Q) (alu0 qp r1 v s wide) :=
  predicated_onMemory h (.skip fun _ => .ok h)
theorem movToGr_onMemory {qp r1 v} : Leads (OnMemory Q) (movToGr qp r1 v s) := predicated_onMemory h (.skip fun _ => .ok h)
theorem movToBr_onMemory {qp b1 r2} : Leads (OnMemory Q) (movToBr qp b1 r2 s) :=
  predicated_onMemory h (.skip fun _ => .ok h)
theorem movToPr_onMemory {qp r2 mask} : Leads (OnMemory Q) (movToPr qp r2 mask s) :=
  predicated_onMemory h (.skip fun _ => .ok h)
theorem userMask_onMemory {qp imm24 f} : Leads (OnMemory Q) (userMask qp imm24 s f) :=
  predicated_onMemory h (.skip fun _ => .ok h)
theorem setControls_onMemory {o} : Leads (OnMemory Q) (setControls o s) := predicated_onMemory h (.ok h)
theorem clearFlags_onMemory {o} : Leads (OnMemory Q) (clearFlags o s) := predicated_onMemory h (.ok h)
theorem noEffect_onMemory {qp} : Leads (OnMemory Q) (noEffect qp s) := predicated_onMemory h (.ok h)
theorem serializeInstr_onMemory {qp} : Leads (OnMemory Q) (serializeInstr qp s) := predicated_onMemory h (.ok h)
theorem invalidateAlat_onMemory {qp} : Leads (OnMemory Q) (invalidateAlat qp s) := predicated_onMemory h (.ok h)
theorem invalidateEntry_onMemory {fp qp r} : Leads (OnMemory Q) (invalidateEntry fp qp r s) := predicated_onMemory h (.ok h)
theorem nopOp_onMemory {qp wide} : Leads (OnMemory Q) (nopOp qp wide s) := predicated_onMemory h (.ok h)
theorem hintOp_onMemory {qp pause wide} : Leads (OnMemory Q) (hintOp qp pause wide s) := predicated_onMemory h (.ok h)
theorem movToPrRot_onMemory {qp v} : Leads (OnMemory Q) (movToPrRot qp v s) := predicated_onMemory h (.ok h)
theorem setfOp_onMemory {qp f1 r2 f} : Leads (OnMemory Q) (setfOp qp f1 r2 f s) :=
  predicated_onMemory h (.skip fun _ => .skip fun _ => .skip fun _ => .ok h)
theorem movFromCpuid_onMemory {qp r1 r3} : Leads (OnMemory Q) (movFromCpuid qp r1 r3 s) :=
  predicated_onMemory h (.skip fun _ => .skip fun _ => .skip fun _ => .ok h)
theorem purgePartial_onMemory {qp r3} : Leads (OnMemory Q) (purgePartial qp r3 s) :=
  predicated_onMemory h (.skip fun _ => .skip fun _ => .skip fun _ => .ok h)
theorem movToPsrL_onMemory {qp r2} : Leads (OnMemory Q) (movToPsrL qp r2 s) :=
  predicated_onMemory h (.skip fun _ => .skip fun _ => .skip fun _ => .skip fun _ => .ok h)
theorem takQuery_onMemory {qp r1 r3} : Leads (OnMemory Q) (takQuery qp r1 r3 s) :=
  predicated_onMemory h (.skip fun _ => .skip fun _ => .skip fun _ => .skip fun _ => .ok h)
theorem probe_onMemory {write qp r1 r3 level} : Leads (OnMemory Q) (probe write qp r1 r3 level s) :=
  predicated_onMemory h (.skip fun _ => .skip fun _ => .skip fun _ => .skip fun _ => .skip fun _ => .ok h)
theorem tpaQuery_onMemory {qp r1 r3} : Leads (OnMemory Q) (tpaQuery qp r1 r3 s) :=
  predicated_onMemory h (.skip fun _ => .skip fun _ => .skip fun _ => .skip fun _ => .skip fun _ => .ok h)
theorem purgeCaches_onMemory {qp r3 r2} : Leads (OnMemory Q) (purgeCaches qp r3 r2 s) :=
  predicated_onMemory h (.skip fun _ => .skip fun _ => .skip fun _ => .skip fun _ => .skip fun _ => .ok h)
theorem purgeCachesAlat_onMemory {qp r3 r2} : Leads (OnMemory Q) (purgeCachesAlat qp r3 r2 s) :=
  predicated_onMemory h (.skip fun _ => .skip fun _ => .skip fun _ => .skip fun _ => .skip fun _ => .ok h)
theorem compareReg_onMemory {ct rel narrow o} : Leads (OnMemory Q) (compareReg ct rel narrow o s) :=
  compare_onMemory h (.skip fun _ => .ok h)
theorem compareZero_onMemory {ct rel narrow o} : Leads (OnMemory Q) (compareZero ct rel narrow o s) :=
  compare_onMemory h (.skip fun _ => .ok h)
theorem compareImm_onMemory {ct rel narrow o} : Leads (OnMemory Q) (compareImm ct rel narrow o s) :=
  compare_onMemory h (.skip fun _ => .ok h)
theorem testBit_onMemory {ct nz o} : Leads (OnMemory Q) (testBit ct nz o s) := compare_onMemory h (.skip fun _ => .ok h)
theorem testNat_onMemory {ct nz o} : Leads (OnMemory Q) (testNat ct nz o s) := compare_onMemory h (.skip fun _ => .ok h)
theorem fclassOp_onMemory {o} : Leads (OnMemory Q) (fclassOp o s) := compare_onMemory h (.skip fun _ => .ok h)
theorem cmpxchg_onMemory (hw : KeptByWrites Q) {n qp r1 r3 r2} : Leads (OnMemory Q) (cmpxchg n qp r1 r3 r2 s) :=
  semaphore_onMemory hw h
theorem xchg_onMemory (hw : KeptByWrites Q) {n qp r1 r3 r2} : Leads (OnMemory Q) (xchg n qp r1 r3 r2 s) :=
  semaphore_onMemory hw h
theorem fetchadd_onMemory (hw : KeptByWrites Q) {n qp r1 r3 inc} : Leads (OnMemory Q) (fetchadd n qp r1 r3 inc s) :=
  semaphore_onMemory hw h
theorem cmp8xchg16_onMemory (hw : KeptByWrites Q) {qp r1 r3 r2} : Leads (OnMemory Q) (cmp8xchg16 qp r1 r3 r2 s) :=
  semaphore_onMemory hw h
theorem fusedOp_onMemory {op prec weight o} : Leads (OnMemory Q) (fusedOp op prec weight o s) := fpArith_onMemory h
theorem fpArith2_onMemory {op weight o} : Leads (OnMemory Q) (fpArith2 op weight o s) := fpArith_onMemory h
theorem fpConvert_onMemory {op weight o} : Leads (OnMemory Q) (fpConvert op weight o s) := fpArith_onMemory h
theorem xmaOp_onMemory {o} : Leads (OnMemory Q) (xmaOp o s) := fpMove3_onMemory h
theorem fselectOp_onMemory {o} : Leads (OnMemory Q) (fselectOp o s) := fpMove3_onMemory h
theorem fpMove_onMemory {o f} : Leads (OnMemory Q) (fpMove o f s) := fpMove3_onMemory h
theorem movToAr_onMemory {iUnit qp ar3 r2} : Leads (OnMemory Q) (movToAr iUnit qp ar3 r2 s) :=
  predicated_onMemory h (writeAr_onMemory h)
theorem movToArImm_onMemory {iUnit qp ar3 imm8} : Leads (OnMemory Q) (movToArImm iUnit qp ar3 imm8 s) :=
  predicated_onMemory h (writeAr_onMemory h)
theorem movToCr_onMemory {qp cr3 r2} : Leads (OnMemory Q) (movToCr qp cr3 r2 s) :=
  predicated_onMemory h (.skip fun _ => .skip fun _ => .skip fun _ => .skip fun _ => .skip fun _ => .ok (h.congr (setCrValue_mem ..)))
theorem movFromCr_onMemory {qp r1 cr3} : Leads (OnMemory Q) (movFromCr qp r1 cr3 s) :=
  predicated_onMemory h (.skip fun _ => .skip fun _ => .skip fun _ => .ok (h.congr (readCr_mem ..)))
theorem movToIndirect_onMemory {k qp r3 r2} : Leads (OnMemory Q) (movToIndirect k qp r3 r2 s) :=
  predicated_onMemory h (.skip fun _ => .skip fun _ => .skip fun _ => .skip fun _ => .skip fun _ => .skip fun _ => indirectWrite_onMemory h)
theorem movFromIndirect_onMemory {k qp r1 r3} : Leads (OnMemory Q) (movFromIndirect k qp r1 r3 s) :=
  predicated_onMemory h (.skip fun _ => .skip fun _ => .skip fun _ => .skip fun _ => .skip fun _ => .ok (h.congr (indirectRead_mem ..)))
theorem chkS_onMemory {qp r2 t} : Leads (OnMemory Q) (chkS qp r2 t s) :=
  predicatedEnd_onMemory h (.skip fun _ => .ok (checked_onMemory (s := s.noteCheck ..) h ..))
theorem chkSFp_onMemory {qp f2 t} : Leads (OnMemory Q) (chkSFp qp f2 t s) :=
  predicatedEnd_onMemory h (.skip fun _ => .ok (checked_onMemory (s := s.noteCheck ..) h ..))
theorem breakOp_onMemory {qp imm wide} : Leads (OnMemory Q) (breakOp qp imm wide s) := predicated_onMemory h (.raise _)
theorem switchVirtual_onMemory {qp} : Leads (OnMemory Q) (switchVirtual qp s) := predicated_onMemory h (.raise _)
theorem branchCond_onMemory {k wide qp target} : Leads (OnMemory Q) (branchCond k wide qp target s) :=
  branchWith_onMemory h (.ok h)
theorem branchCall_onMemory {k wide qp b1 target} : Leads (OnMemory Q) (branchCall k wide qp b1 target s) :=
  branchWith_onMemory h (.ok h)
theorem branchIa_onMemory {qp b2} : Leads (OnMemory Q) (branchIa qp b2 s) := branchWith_onMemory h (.raise _)
theorem bankSwitch_onMemory {one} : Leads (OnMemory Q) (bankSwitch one s) := always_onMemory h (.skip fun _ => .ok h)
theorem predict_onMemory : Leads (OnMemory Q) (always s (.ok s)) := always_onMemory h (.ok h)
theorem cover_onMemory : Leads (OnMemory Q) (always s (.ok (coverFrame s))) := always_onMemory h (.ok (h.congr (coverFrame_mem s)))
theorem clearRename_onMemory {all} : Leads (OnMemory Q) (always s (.ok (clearRename all s))) := always_onMemory h (.ok h)

end

end Sys2Proof.Machine
end

