-- ==== Sys2Proof/Proofs/MemoryWriters.lean ====
section
/-!
Which instructions write main memory (20 R432, R440): the stores, the semaphores and those the register stack engine may store for
write bytes of it, every other leaves it as it is, and so a step keeps its canonical form (20 R421).
-/

namespace Sys2Proof.Machine

open Sys2Proof.Config

/-! ## Around an instruction -/

theorem atSlot_mem (s : State) (b : Bundle) : (atSlot s b).mem = s.mem := by
  unfold atSlot; split <;> rfl

theorem interrupt_mem (s : State) : (interrupt s).mem = s.mem := by
  have he : (interrupt s).mem = (atFetchedSlot s).mem := rfl
  rw [he]
  unfold atFetchedSlot; split
  · exact atSlot_mem ..
  · rfl

theorem idle_mem (s : State) : (idle s).mem = s.mem := by
  unfold idle
  dsimp only
  split
  · exact interrupt_mem _
  · rfl

/-- The clocks and the thread switch leave main memory alone. -/
theorem endStep_mem (s t : State) : (endStep s t).mem = t.mem := by
  unfold endStep
  dsimp only
  split <;> rfl

section
variable {Q : List Host.Cell → Prop} {s : State} (h : OnMemory Q s)
include h

/-! ## Instructions -/

/-- A property of main memory holds after an instruction, if writes of bytes keep it or the instruction may store nothing. -/
theorem exec_onMemory (i : Instr) (hw : i.mayStore = true → KeptByWrites Q) : Leads (OnMemory Q) (exec i s) := by
  cases i with dsimp only [exec]
  | add | addR1R2R31 | sub | subR1R2R31 | addp4 | and | andcm | or | xor | shladd | shladdp4 | padd1 | padd1Sss |
    padd1Uuu | padd1Uus | padd2 | padd2Sss | padd2Uuu | padd2Uus | padd4 | psub1 | psub1Sss | psub1Uuu | psub1Uus |
    psub2 | psub2Sss | psub2Uuu | psub2Uus | psub4 | pavg1 | pavg1Raz | pavgsub1 | pavg2 | pavg2Raz | pavgsub2 |
    pcmp1Eq | pcmp1Gt | pcmp2Eq | pcmp2Gt | pcmp4Eq | pcmp4Gt | pshladd2 | pshradd2 | pmpyshr2 | pmpy2 | mixPack |
    pshrVar | pshlVar | shr | shrU | shl | shrp | dep => exact alu2_onMemory h
  | subR1Imm8R3 | andR1Imm8R3 | andcmR1Imm8R3 | orR1Imm8R3 | xorR1Imm8R3 | adds | addp4R1Imm14R3 | addl | mux1 |
    mux2 | pshrFix | pshlFix | popcnt | extr | extrU | depZ | depR1Imm1R3 | zxt1 | zxt2 | zxt4 | sxt1 | sxt2 | sxt4 |
    czx1L | czx2L | czx1R | czx2R => exact alu1_onMemory h
  | depZR1Imm8 | movl => exact alu0_onMemory h
  | cmpLtP1P2R2R3 | cmp4LtP1P2R2R3 | cmpLtUncP1P2R2R3 | cmp4LtUncP1P2R2R3 | cmpEqAndP1P2R2R3 | cmp4EqAndP1P2R2R3 |
    cmpNeAndP1P2R2R3 | cmp4NeAndP1P2R2R3 | cmpLtuP1P2R2R3 | cmp4LtuP1P2R2R3 | cmpLtuUncP1P2R2R3 | cmp4LtuUncP1P2R2R3 |
    cmpEqOrP1P2R2R3 | cmp4EqOrP1P2R2R3 | cmpNeOrP1P2R2R3 | cmp4NeOrP1P2R2R3 | cmpEqP1P2R2R3 | cmp4EqP1P2R2R3 |
    cmpEqUncP1P2R2R3 | cmp4EqUncP1P2R2R3 | cmpEqOrAndcmP1P2R2R3 | cmp4EqOrAndcmP1P2R2R3 | cmpNeOrAndcmP1P2R2R3 |
    cmp4NeOrAndcmP1P2R2R3 => exact compareReg_onMemory h
  | cmpGtAndP1P2R0R3 | cmp4GtAndP1P2R0R3 | cmpLeAndP1P2R0R3 | cmp4LeAndP1P2R0R3 | cmpGeAndP1P2R0R3 |
    cmp4GeAndP1P2R0R3 | cmpLtAndP1P2R0R3 | cmp4LtAndP1P2R0R3 | cmpGtOrP1P2R0R3 | cmp4GtOrP1P2R0R3 | cmpLeOrP1P2R0R3 |
    cmp4LeOrP1P2R0R3 | cmpGeOrP1P2R0R3 | cmp4GeOrP1P2R0R3 | cmpLtOrP1P2R0R3 | cmp4LtOrP1P2R0R3 |
    cmpGtOrAndcmP1P2R0R3 | cmp4GtOrAndcmP1P2R0R3 | cmpLeOrAndcmP1P2R0R3 | cmp4LeOrAndcmP1P2R0R3 |
    cmpGeOrAndcmP1P2R0R3 | cmp4GeOrAndcmP1P2R0R3 | cmpLtOrAndcmP1P2R0R3 | cmp4LtOrAndcmP1P2R0R3 =>
    exact compareZero_onMemory h
  | cmpLtP1P2Imm8R3 | cmp4LtP1P2Imm8R3 | cmpLtUncP1P2Imm8R3 | cmp4LtUncP1P2Imm8R3 | cmpEqAndP1P2Imm8R3 |
    cmp4EqAndP1P2Imm8R3 | cmpNeAndP1P2Imm8R3 | cmp4NeAndP1P2Imm8R3 | cmpLtuP1P2Imm8R3 | cmp4LtuP1P2Imm8R3 |
    cmpLtuUncP1P2Imm8R3 | cmp4LtuUncP1P2Imm8R3 | cmpEqOrP1P2Imm8R3 | cmp4EqOrP1P2Imm8R3 | cmpNeOrP1P2Imm8R3 |
    cmp4NeOrP1P2Imm8R3 | cmpEqP1P2Imm8R3 | cmp4EqP1P2Imm8R3 | cmpEqUncP1P2Imm8R3 | cmp4EqUncP1P2Imm8R3 |
    cmpEqOrAndcmP1P2Imm8R3 | cmp4EqOrAndcmP1P2Imm8R3 | cmpNeOrAndcmP1P2Imm8R3 | cmp4NeOrAndcmP1P2Imm8R3 =>
    exact compareImm_onMemory h
  | tbitZ | tbitZUnc | tbitZAnd | tbitNzAnd | tbitZOr | tbitNzOr | tbitZOrAndcm | tbitNzOrAndcm =>
    exact testBit_onMemory h
  | tnatZ | tnatZUnc | tnatZAnd | tnatNzAnd | tnatZOr | tnatNzOr | tnatZOrAndcm | tnatNzOrAndcm =>
    exact testNat_onMemory h
  | ld1R1R3 | ld1R1R3R2 | ld1R1R3Imm9 | ld2R1R3 | ld2R1R3R2 | ld2R1R3Imm9 | ld4R1R3 | ld4R1R3R2 | ld4R1R3Imm9 |
    ld8R1R3 | ld8R1R3R2 | ld8R1R3Imm9 | ld1SR1R3 | ld1SR1R3R2 | ld1SR1R3Imm9 | ld2SR1R3 | ld2SR1R3R2 | ld2SR1R3Imm9 |
    ld4SR1R3 | ld4SR1R3R2 | ld4SR1R3Imm9 | ld8SR1R3 | ld8SR1R3R2 | ld8SR1R3Imm9 | ld1AR1R3 | ld1AR1R3R2 |
    ld1AR1R3Imm9 | ld2AR1R3 | ld2AR1R3R2 | ld2AR1R3Imm9 | ld4AR1R3 | ld4AR1R3R2 | ld4AR1R3Imm9 | ld8AR1R3 |
    ld8AR1R3R2 | ld8AR1R3Imm9 | ld1SaR1R3 | ld1SaR1R3R2 | ld1SaR1R3Imm9 | ld2SaR1R3 | ld2SaR1R3R2 | ld2SaR1R3Imm9 |
    ld4SaR1R3 | ld4SaR1R3R2 | ld4SaR1R3Imm9 | ld8SaR1R3 | ld8SaR1R3R2 | ld8SaR1R3Imm9 | ld1BiasR1R3 | ld1BiasR1R3R2 |
    ld1BiasR1R3Imm9 | ld2BiasR1R3 | ld2BiasR1R3R2 | ld2BiasR1R3Imm9 | ld4BiasR1R3 | ld4BiasR1R3R2 | ld4BiasR1R3Imm9 |
    ld8BiasR1R3 | ld8BiasR1R3R2 | ld8BiasR1R3Imm9 | ld1AcqR1R3 | ld1AcqR1R3R2 | ld1AcqR1R3Imm9 | ld2AcqR1R3 |
    ld2AcqR1R3R2 | ld2AcqR1R3Imm9 | ld4AcqR1R3 | ld4AcqR1R3R2 | ld4AcqR1R3Imm9 | ld8AcqR1R3 | ld8AcqR1R3R2 |
    ld8AcqR1R3Imm9 | ld1CClrR1R3 | ld1CClrR1R3R2 | ld1CClrR1R3Imm9 | ld2CClrR1R3 | ld2CClrR1R3R2 | ld2CClrR1R3Imm9 |
    ld4CClrR1R3 | ld4CClrR1R3R2 | ld4CClrR1R3Imm9 | ld8CClrR1R3 | ld8CClrR1R3R2 | ld8CClrR1R3Imm9 | ld1CNcR1R3 |
    ld1CNcR1R3R2 | ld1CNcR1R3Imm9 | ld2CNcR1R3 | ld2CNcR1R3R2 | ld2CNcR1R3Imm9 | ld4CNcR1R3 | ld4CNcR1R3R2 |
    ld4CNcR1R3Imm9 | ld8CNcR1R3 | ld8CNcR1R3R2 | ld8CNcR1R3Imm9 | ld1CClrAcqR1R3 | ld1CClrAcqR1R3R2 |
    ld1CClrAcqR1R3Imm9 | ld2CClrAcqR1R3 | ld2CClrAcqR1R3R2 | ld2CClrAcqR1R3Imm9 | ld4CClrAcqR1R3 | ld4CClrAcqR1R3R2 |
    ld4CClrAcqR1R3Imm9 | ld8CClrAcqR1R3 | ld8CClrAcqR1R3R2 | ld8CClrAcqR1R3Imm9 | ld8FillR1R3 | ld8FillR1R3R2 |
    ld8FillR1R3Imm9 => exact loadInt_onMemory h
  | ld16R1ArCsdR3 | ld16AcqR1ArCsdR3 => exact load16_onMemory h
  | st1R3R2 | st1R3R2Imm9 | st2R3R2 | st2R3R2Imm9 | st4R3R2 | st4R3R2Imm9 | st8R3R2 | st8R3R2Imm9 | st1RelR3R2 |
    st1RelR3R2Imm9 | st2RelR3R2 | st2RelR3R2Imm9 | st4RelR3R2 | st4RelR3R2Imm9 | st8RelR3R2 | st8RelR3R2Imm9 |
    st8SpillR3R2 | st8SpillR3R2Imm9 => exact storeInt_onMemory (hw rfl) h
  | st16R3R2ArCsd | st16RelR3R2ArCsd => exact store16_onMemory (hw rfl) h
  | ldfeF1R3 | ldfeF1R3R2 | ldfeF1R3Imm9 | ldf8F1R3 | ldf8F1R3R2 | ldf8F1R3Imm9 | ldfsF1R3 | ldfsF1R3R2 |
    ldfsF1R3Imm9 | ldfdF1R3 | ldfdF1R3R2 | ldfdF1R3Imm9 | ldfeSF1R3 | ldfeSF1R3R2 | ldfeSF1R3Imm9 | ldf8SF1R3 |
    ldf8SF1R3R2 | ldf8SF1R3Imm9 | ldfsSF1R3 | ldfsSF1R3R2 | ldfsSF1R3Imm9 | ldfdSF1R3 | ldfdSF1R3R2 | ldfdSF1R3Imm9 |
    ldfeAF1R3 | ldfeAF1R3R2 | ldfeAF1R3Imm9 | ldf8AF1R3 | ldf8AF1R3R2 | ldf8AF1R3Imm9 | ldfsAF1R3 | ldfsAF1R3R2 |
    ldfsAF1R3Imm9 | ldfdAF1R3 | ldfdAF1R3R2 | ldfdAF1R3Imm9 | ldfeSaF1R3 | ldfeSaF1R3R2 | ldfeSaF1R3Imm9 |
    ldf8SaF1R3 | ldf8SaF1R3R2 | ldf8SaF1R3Imm9 | ldfsSaF1R3 | ldfsSaF1R3R2 | ldfsSaF1R3Imm9 | ldfdSaF1R3 |
    ldfdSaF1R3R2 | ldfdSaF1R3Imm9 | ldfeCClrF1R3 | ldfeCClrF1R3R2 | ldfeCClrF1R3Imm9 | ldf8CClrF1R3 | ldf8CClrF1R3R2 |
    ldf8CClrF1R3Imm9 | ldfsCClrF1R3 | ldfsCClrF1R3R2 | ldfsCClrF1R3Imm9 | ldfdCClrF1R3 | ldfdCClrF1R3R2 |
    ldfdCClrF1R3Imm9 | ldfeCNcF1R3 | ldfeCNcF1R3R2 | ldfeCNcF1R3Imm9 | ldf8CNcF1R3 | ldf8CNcF1R3R2 | ldf8CNcF1R3Imm9 |
    ldfsCNcF1R3 | ldfsCNcF1R3R2 | ldfsCNcF1R3Imm9 | ldfdCNcF1R3 | ldfdCNcF1R3R2 | ldfdCNcF1R3Imm9 | ldfFillF1R3 |
    ldfFillF1R3R2 | ldfFillF1R3Imm9 => exact loadFp_onMemory h
  | stfeR3F2 | stfeR3F2Imm9 | stf8R3F2 | stf8R3F2Imm9 | stfsR3F2 | stfsR3F2Imm9 | stfdR3F2 | stfdR3F2Imm9 |
    stfSpillR3F2 | stfSpillR3F2Imm9 => exact storeFp_onMemory (hw rfl) h
  | ldfp8F1F2R3 | ldfp8F1F2R316 | ldfpsF1F2R3 | ldfpsF1F2R38 | ldfpdF1F2R3 | ldfpdF1F2R316 | ldfp8SF1F2R3 |
    ldfp8SF1F2R316 | ldfpsSF1F2R3 | ldfpsSF1F2R38 | ldfpdSF1F2R3 | ldfpdSF1F2R316 | ldfp8AF1F2R3 | ldfp8AF1F2R316 |
    ldfpsAF1F2R3 | ldfpsAF1F2R38 | ldfpdAF1F2R3 | ldfpdAF1F2R316 | ldfp8SaF1F2R3 | ldfp8SaF1F2R316 | ldfpsSaF1F2R3 |
    ldfpsSaF1F2R38 | ldfpdSaF1F2R3 | ldfpdSaF1F2R316 | ldfp8CClrF1F2R3 | ldfp8CClrF1F2R316 | ldfpsCClrF1F2R3 |
    ldfpsCClrF1F2R38 | ldfpdCClrF1F2R3 | ldfpdCClrF1F2R316 | ldfp8CNcF1F2R3 | ldfp8CNcF1F2R316 | ldfpsCNcF1F2R3 |
    ldfpsCNcF1F2R38 | ldfpdCNcF1F2R3 | ldfpdCNcF1F2R316 => exact loadPair_onMemory h
  | lfetchR3 | lfetchR3R2 | lfetchR3Imm9 | lfetchExclR3 | lfetchExclR3R2 | lfetchExclR3Imm9 | lfetchFaultR3 |
    lfetchFaultR3R2 | lfetchFaultR3Imm9 | lfetchFaultExclR3 | lfetchFaultExclR3R2 | lfetchFaultExclR3Imm9 =>
    exact lineFetch_onMemory h
  | cmpxchg1Acq | cmpxchg1Rel | cmpxchg2Acq | cmpxchg2Rel | cmpxchg4Acq | cmpxchg4Rel | cmpxchg8Acq | cmpxchg8Rel =>
    exact cmpxchg_onMemory h (hw rfl)
  | xchg1 | xchg2 | xchg4 | xchg8 => exact xchg_onMemory h (hw rfl)
  | fetchadd4Acq | fetchadd8Acq | fetchadd4Rel | fetchadd8Rel => exact fetchadd_onMemory h (hw rfl)
  | cmp8xchg16Acq | cmp8xchg16Rel => exact cmp8xchg16_onMemory h (hw rfl)
  | fma | fmaS | fmaD | fpma | fms | fmsS | fmsD | fpms | fnma | fnmaS | fnmaD | fpnma => exact fusedOp_onMemory h
  | fmin | fmax | famin | famax | fpmin | fpmax | fpamin | fpamax | fpcmpFrelCode0 | fpcmpFrelCode1 | fpcmpFrelCode2 |
    fpcmpFrelCode3 | fpcmpFrelCode4 | fpcmpFrelCode5 | fpcmpFrelCode6 | fpcmpFrelCode7 => exact fpArith2_onMemory h
  | fcvtFx | fpcvtFx | fcvtFxu | fpcvtFxu | fcvtFxTrunc | fpcvtFxTrunc | fcvtFxuTrunc | fpcvtFxuTrunc =>
    exact fpConvert_onMemory h
  | xma => exact xmaOp_onMemory h
  | fselect => exact fselectOp_onMemory h
  | fmergeS | fmergeNs | fmergeSe | fmixLr | fmixR | fmixL | fsxtR | fsxtL | fpack | fswap | fswapNl | fswapNr |
    fand | fandcm | fOr | fxor | fpmergeS | fpmergeNs | fpmergeSe => exact fpMove_onMemory h
  | fcvtXf => exact fpMove3_onMemory h
  | fcmp => exact fpCompareOp_onMemory h _
  | fclassM => exact fclassOp_onMemory h
  | frcpa | fprcpa | frsqrta | fprsqrta => exact approximate_onMemory h
  | fsetc => exact setControls_onMemory h
  | fclrf => exact clearFlags_onMemory h
  | fchkf => exact checkFlags_onMemory h _
  | setfSig | setfExp | setfS | setfD => exact setfOp_onMemory h
  | getfSig | getfExp | getfS | getfD => exact getfOp_onMemory h
  | movIAr3R2 | movMAr3R2 => exact movToAr_onMemory h
  | movIAr3Imm8 | movMAr3Imm8 => exact movToArImm_onMemory h
  | movIR1Ar3 | movMR1Ar3 => exact movFromAr_onMemory h
  | movB1R2 => exact movToBr_onMemory h
  | movR1B2 | movR1Ip | movR1Pr | movR1PsrUm => exact movToGr_onMemory h
  | movPrR2Mask17 => exact movToPr_onMemory h
  | movPrRotImm44 => exact movToPrRot_onMemory h
  | sum => exact userMask_onMemory h
  | rum => exact userMask_onMemory h
  | ssm | rsm => exact systemMask_onMemory h
  | movPsrLR2 => exact movToPsrL_onMemory h
  | movPsrUmR2 => exact movToPsrUm_onMemory h
  | movR1Psr => exact movFromPsr_onMemory h
  | movCr3R2 => exact movToCr_onMemory h
  | movR1Cr3 => exact movFromCr_onMemory h
  | movRrR3R2 | movDbrR3R2 | movIbrR3R2 | movPkrR3R2 | movPmcR3R2 | movPmdR3R2 => exact movToIndirect_onMemory h
  | movR1RrR3 | movR1DbrR3 | movR1IbrR3 | movR1PkrR3 | movR1PmcR3 | movR1PmdR3 => exact movFromIndirect_onMemory h
  | movR1CpuidR3 => exact movFromCpuid_onMemory h
  | probeRR1R3Imm2 | probeWR1R3Imm2 | probeRR1R3R2 | probeWR1R3R2 => exact probe_onMemory h
  | probeRwFaultR3Imm2 | probeRFaultR3Imm2 | probeWFaultR3Imm2 => exact probeFault_onMemory h
  | thash | ttag => exact hashQuery_onMemory h
  | tpa => exact tpaQuery_onMemory h
  | tak => exact takQuery_onMemory h
  | itcDR2 | itcIR2 => exact itcInsert_onMemory h
  | itrDDtrR3R2 | itrIItrR3R2 => exact itrInsert_onMemory h
  | ptcLR3R2 | ptcGR3R2 => exact purgeCaches_onMemory h
  | ptcGaR3R2 => exact purgeCachesAlat_onMemory h
  | ptrDR3R2 | ptrIR3R2 => exact purgeRegisters_onMemory h
  | ptcER3 => exact purgePartial_onMemory h
  | fwb | srlzD | mf | mfA | syncI => exact noEffect_onMemory h
  | srlzI => exact serializeInstr_onMemory h
  | fcR3 | fcIR3 => exact flushLine_onMemory h
  | invala => exact invalidateAlat_onMemory h
  | invalaER1 | invalaEF1 => exact invalidateEntry_onMemory h
  | chkSI | chkSMR2 => exact chkS_onMemory h
  | chkSF2 => exact chkSFp_onMemory h
  | chkANcR1 | chkAClrR1 | chkANcF1 | chkAClrF1 => exact chkA_onMemory h
  | breakI | breakM | breakB | breakF | breakX => exact breakOp_onMemory h
  | nopI | nopM | nopB | hintB | nopF | nopX => exact nopOp_onMemory h
  | hintI | hintM | hintF | hintX => exact hintOp_onMemory h
  | flushrs => exact flushStack_onMemory (hw rfl) h
  | loadrs => exact loadStack_onMemory h
  | allocR1ArPfsILOR => exact allocFrame_onMemory (hw rfl) h
  | brCondTarget25 | brCondB2 | brlCondTarget64 => exact branchCond_onMemory h
  | brWexitTarget25 | brWtopTarget25 => exact branchWhile_onMemory h
  | brCexitTarget25 | brCtopTarget25 => exact branchCounted_onMemory h
  | brCloopTarget25 => exact branchCloop_onMemory h
  | brCallB1Target25 | brCallB1B2 | brlCallB1Target64 => exact branchCall_onMemory h
  | brRetB2 => exact branchRet_onMemory (hw rfl) h
  | brIaB2 => exact branchIa_onMemory h
  | brpTarget25Tag13 | brpB2Tag13 | brpRetB2Tag13 => exact predict_onMemory h
  | cover => exact cover_onMemory h
  | clrrrb | clrrrbPr => exact clearRename_onMemory h
  | rfi => exact returnFromInterruption_onMemory (hw rfl) h
  | bsw0 | bsw1 => exact bankSwitch_onMemory h
  | epc => exact enterPrivileged_onMemory h
  | vmsw0 | vmsw1 => exact switchVirtual_onMemory h

/-! ## A whole step -/

theorem runBundle_onMemory (hw : KeptByWrites Q) (b : Bundle) : Leads (OnMemory Q) (runBundle s b) := by
  have ht : OnMemory Q (atSlot (s.withBundle b) b) := h.congr (atSlot_mem ..)
  unfold runBundle
  generalize atSlot (s.withBundle b) b = t at ht
  dsimp only
  split
  · exact .next ht
  · split
    · exact exec_onMemory ht _ fun _ => hw
    · exact .refused _
    · exact .next ht

theorem runNext_onMemory (hw : KeptByWrites Q) : Leads (OnMemory Q) (runNext s) := by
  unfold runNext
  rcases fetch s with (e | f | r) | b
  · exact .next h
  · exact .fault _
  · exact .refused _
  · exact runBundle_onMemory h hw b

theorem runThread_onMemory (hw : KeptByWrites Q) : Leads (OnMemory Q) (runThread s) := by
  unfold runThread
  split
  · exact .next (h.congr (idle_mem s))
  · split
    · exact .next (h.congr (interrupt_mem s))
    · exact runNext_onMemory h hw

theorem step_onMemory (hw : KeptByWrites Q) : Leads (OnMemory Q) (step s) := by
  have hr : Leads (OnMemory Q) (runThread (beginStep s)) := runThread_onMemory (s := beginStep s) h hw
  unfold step cycle
  dsimp only
  generalize runThread (beginStep s) = r at hr
  cases r with
  | next t => exact .next ((hr t rfl).congr (endStep_mem ..))
  | fault f => exact .fault f
  | refused r => exact .refused r

end

/-- Settles O55: the memory of the first state is a property of memory that an instruction which may not store keeps. -/
theorem onlyStoresWriteMemory : Obligations.OnlyStoresWriteMemory := by
  intro i s t hi ht
  have hw : i.mayStore = true → KeptByWrites (· = s.mem) := fun h => by simp [hi] at h
  exact exec_onMemory (Q := (· = s.mem)) rfl i hw t ht

/-- Settles O53: the canonical form is a property of memory that writes of bytes keep, and so does every step. -/
theorem stepKeepsMemoryCanonical : Obligations.StepKeepsMemoryCanonical :=
  fun _ t h ht => step_onMemory (Q := fun m => Memory.wf m = true) h (fun big _ a n v => wf_memWrite big a n v) t ht

end Sys2Proof.Machine
end

