-- ==== Sys2Proof/Proofs/MemoryBytes.lean ====
section
/-!
The bytes of main memory (20 R401, R440): which byte of a read stands at which address in both byte orders, and that a memory in
canonical form is known by its bytes.
-/

namespace Sys2Proof.Machine

open Sys2Proof.Config

/-! ## The bytes of a read -/

/-- Least significant first: byte `k` of a read is the byte at the address plus `k`. -/
theorem readLE_byte (m : List Host.Cell) (a : Nat) {n k : Nat} (h : k < n) :
    readLE m a n / 256 ^ k % 256 = (memByte m (a + k)).toNat := by
  induction n generalizing a k with
  | zero => omega
  | succ n ih =>
    have hb := (memByte m a).isLt
    cases k with
    | zero => simp only [readLE, Nat.pow_zero, Nat.add_zero]; omega
    | succ k =>
      have hdiv : readLE m a (n + 1) / 256 = readLE m (a + 1) n := by simp only [readLE]; omega
      rw [Nat.pow_succ', ← Nat.div_div_eq_div_mul, hdiv, ih (a + 1) (by omega), Nat.add_right_comm, Nat.add_assoc]

/-- Most significant first: byte `k` of a read, counted from the least significant, is the byte `k` before the last. -/
theorem readBE_byte (m : List Host.Cell) (a : Nat) {n k : Nat} (h : k < n) :
    readBE m a n / 256 ^ k % 256 = (memByte m (a + (n - 1 - k))).toNat := by
  induction n generalizing a with
  | zero => omega
  | succ n ih =>
    have hb := (memByte m a).isLt
    have hlt : readBE m (a + 1) n < 256 ^ n := memRead_lt true m (a + 1) n
    by_cases hk : k = n
    · have hdiv : readBE m a (n + 1) / 256 ^ n = (memByte m a).toNat := by
        rw [readBE, Nat.mul_comm, Nat.mul_add_div (Nat.pow_pos (by decide)), Nat.div_eq_of_lt hlt, Nat.add_zero]
      rw [hk, hdiv, show n + 1 - 1 - n = 0 by omega, Nat.add_zero, Nat.mod_eq_of_lt hb]
    · obtain ⟨d, rfl⟩ : ∃ d, n = k + 1 + d := ⟨n - (k + 1), by omega⟩
      have hpow : (256 : Nat) ^ (k + 1 + d) = 256 ^ k * (256 * 256 ^ d) := by ring
      have hdiv : readBE m a (k + 1 + d + 1) / 256 ^ k
          = readBE m (a + 1) (k + 1 + d) / 256 ^ k + 256 * ((memByte m a).toNat * 256 ^ d) := by
        rw [readBE, hpow, show (memByte m a).toNat * (256 ^ k * (256 * 256 ^ d))
          = 256 ^ k * (256 * ((memByte m a).toNat * 256 ^ d)) by ring, Nat.mul_add_div (Nat.pow_pos (by decide)),
          Nat.add_comm]
      rw [hdiv, Nat.add_mul_mod_self_left, ih (a + 1) (by omega),
        show a + 1 + (k + 1 + d - 1 - k) = a + (k + 1 + d + 1 - 1 - k) by omega]

/-! ## Memories with the same bytes -/

theorem memWfFrom_cons {lo : Nat} {c : Host.Cell} {cs : List Host.Cell} (h : memWfFrom lo (c :: cs) = true) :
    lo ≤ c.1 ∧ c.2 ≠ unlistedByte ∧ memWfFrom (c.1 + 1) cs = true := by
  simpa [memWfFrom, and_assoc] using h

theorem memByte_head (c : Host.Cell) (cs : List Host.Cell) : memByte (c :: cs) c.1 = c.2 := by simp [memByte]

/-- The first entry of a canonical memory lies at the first address whose byte is not that of an unlisted one, so the first entry of
another with the same bytes does not lie below it. -/
theorem head_le_of_sameBytes {lo : Nat} {c d : Host.Cell} {cs ds : List Host.Cell} (hc : memWfFrom lo (c :: cs) = true)
    (hd : memWfFrom lo (d :: ds) = true) (h : memByte (c :: cs) d.1 = memByte (d :: ds) d.1) : c.1 ≤ d.1 := by
  obtain ⟨-, -, hcs⟩ := memWfFrom_cons hc
  obtain ⟨-, hne, -⟩ := memWfFrom_cons hd
  by_contra hlt
  have hrest : memByte cs d.1 = unlistedByte := memByte_below hcs (by omega)
  rw [memByte_head, memByte, if_neg (by omega), hrest] at h
  exact hne h.symm

/-- Memories in canonical form with the same bytes have the same entries. -/
theorem eq_of_sameBytes {lo : Nat} {m k : List Host.Cell} (hm : memWfFrom lo m = true) (hk : memWfFrom lo k = true)
    (h : ∀ a, memByte m a = memByte k a) : m = k := by
  induction m generalizing lo k with
  | nil =>
    cases k with
    | nil => rfl
    | cons d ds =>
      obtain ⟨-, hne, -⟩ := memWfFrom_cons hk
      exact absurd ((memByte_head d ds).symm.trans (h d.1).symm) hne
  | cons c cs ih =>
    cases k with
    | nil =>
      obtain ⟨-, hne, -⟩ := memWfFrom_cons hm
      exact absurd ((memByte_head c cs).symm.trans (h c.1)) hne
    | cons d ds =>
      obtain ⟨-, -, hcs⟩ := memWfFrom_cons hm
      obtain ⟨-, -, hds⟩ := memWfFrom_cons hk
      have haddr : c.1 = d.1 :=
        Nat.le_antisymm (head_le_of_sameBytes hm hk (h d.1)) (head_le_of_sameBytes hk hm (h c.1).symm)
      have hbyte : c.2 = d.2 := by
        have := h c.1
        rwa [memByte_head, haddr, memByte_head] at this
      have hrest (a : Nat) : memByte cs a = memByte ds a := by
        by_cases ha : c.1 = a
        · rw [memByte_below hcs (by omega), memByte_below hds (by omega)]
        · have := h a
          rwa [memByte, memByte, if_neg ha, if_neg (by omega)] at this
      rw [show c = d from Prod.ext haddr hbyte, ih hcs (haddr ▸ hds) hrest]

/-- Settles O41: the rules of writes, the bytes of a read in each order, and `eq_of_sameBytes`. -/
theorem memoryBytes : Obligations.MemoryBytes := by
  refine ⟨fun big m a n v h => ⟨memRead_memWrite big a n v h, wf_memWrite big a n v h, fun x hx =>
    memByte_memWrite big a n v x h hx⟩, fun m a n k h => ⟨readLE_byte m a h, readBE_byte m a h⟩, fun m k hm hk h =>
    eq_of_sameBytes hm hk h⟩

end Sys2Proof.Machine
end

