-- ==== Sys2Proof/Proofs/DataAccesses.lean ====
section
/-!
The accesses to memory (20 R402, R404, R440) and the exceptions of those that meet a fault (60 R1302, R1303): what a translation, the
alignment and the kind of memory let through, and the bits of `CR.ISR`.
-/

namespace Sys2Proof.Machine

open Sys2Proof.Config

/-! ## Translation -/

theorem translateAddr_physical {s : State} {va : Word} {k : AccessKind} (ht : s.lp.translates k = false)
    (h : va.toNat % 2 ^ 63 < 2 ^ s.params.paBits) :
    translateAddr s va k = .ok (va.toNat % 2 ^ 63, if va.getLsbD 63 then .uc else .wb) := by
  rw [translateAddr, ht, if_neg (by decide)]
  exact if_neg (by omega)

theorem translateAddr_beyond {s : State} {va : Word} {k : AccessKind} (ht : s.lp.translates k = false)
    (h : 2 ^ s.params.paBits ≤ va.toNat % 2 ^ 63) : translateAddr s va k = .error .unimplemented := by
  rw [translateAddr, ht, if_neg (by decide)]
  exact if_pos h

/-- With translation on, the answer of the translation decides; a NaT page is a fault. -/
theorem translateAddr_virtual {s : State} {va : Word} {k : AccessKind} (ht : s.lp.translates k = true)
    (h : va.toNat < 2 ^ s.params.vaBits) :
    translateAddr s va k = match translate (xlatContext s k) va k with
      | .ok pa a itir iha ed => if a = .natPage then .error (.natPage itir iha ed) else .ok (pa.toNat, a)
      | .fault f itir iha ed => .error (.xlat f itir iha ed) := by
  rw [translateAddr, if_pos ht, if_neg (by omega)]
  cases translate (xlatContext s k) va k with
  | fault f itir iha ed => rfl
  | ok pa a itir iha ed => cases a <;> rfl

/-! ## Alignment -/

theorem dataBreak_off {s : State} (k : AccessKind) (va : Word) (n : Nat) (h : s.lp.psrBit 24 = false) :
    dataBreak s k va n = false := by
  rw [dataBreak, h, Bool.false_and, Bool.false_and]

/-- Without breakpoints, a translated access is let through where its alignment is. -/
theorem dataAccess_aligned_iff {s : State} {va : Word} {n pa : Nat} {k : AccessKind} {a : MemAttr}
    (ht : translateAddr s va k = .ok (pa, a)) (hb : s.lp.psrBit 24 = false) :
    dataAccess s k va n false =
      if alignOk s k a va.toNat n = true then .ok (pa, a) else .error (.unaligned (pageEd s va k)) := by
  have hd : dataAccess s k va n false = if dataBreak s k va n then .error (.debug (pageEd s va k))
      else if !alignOk s k a va.toNat n then .error (.unaligned (pageEd s va k)) else .ok (pa, a) := by
    rw [dataAccess, ht]; rfl
  rw [hd, dataBreak_off k va n hb]
  cases alignOk s k a va.toNat n <;> rfl

theorem alignOk_aligned (s : State) (k : AccessKind) (at' : MemAttr) {a n : Nat} (h : a % n = 0) :
    alignOk s k at' a n = true := by
  unfold alignOk; exact if_pos h

/-- 20 R402: a misaligned load stays in an aligned 8-byte half of cacheable memory. -/
theorem alignOk_read_iff (s : State) (at' : MemAttr) {a n : Nat} (h : a % n ≠ 0) :
    alignOk s .read at' a n = true ↔ s.lp.psrBit 3 = false ∧ at' = .wb ∧ a / 8 = (a + n - 1) / 8 := by
  simp [alignOk, h, and_assoc]

/-- 20 R402: a misaligned store stays in an aligned 16 bytes of cacheable memory. -/
theorem alignOk_write_iff (s : State) (at' : MemAttr) {a n : Nat} (h : a % n ≠ 0) :
    alignOk s .write at' a n = true ↔ s.lp.psrBit 3 = false ∧ at' = .wb ∧ a / 16 = (a + n - 1) / 16 := by
  simp [alignOk, h, and_assoc]

theorem alignOk_readWrite (s : State) (at' : MemAttr) {a n : Nat} (h : a % n ≠ 0) :
    alignOk s .readWrite at' a n = false := by
  simp [alignOk, h]

/-! ## The exception of a fault -/

theorem memExc_ifa (s : State) (va acc : Word) (k : AccessKind) (f : MemFault) : (memExc s va k acc f).ifa = some va := by
  cases f <;> rfl

/-- The bit `ed` as it stands in `CR.ISR`. -/
theorem ofBool_bit43 (b : Bool) : (ofBool b <<< 43).getLsbD 43 = b := by cases b <;> rfl

/-- The code of a translation fault, the access bits `r`, `w` and `x` in bits 2 to 0, has no bit `ed`. -/
theorem accessCode_bit43 (acc : Word) :
    ((field acc 34 1 <<< 2) ||| (field acc 33 1 <<< 1) ||| field acc 32 1).getLsbD 43 = false := by
  simp only [BitVec.getLsbD_or, BitVec.getLsbD_shiftLeft, field_bit _ _ (show 1 ≤ 63 by decide)]
  simp

/-- 60 R1303: the bit `ed` of `CR.ISR` is that of the translation, where there is one. -/
theorem memExc_ed (s : State) (va : Word) {acc : Word} (k : AccessKind) (h : acc.getLsbD 43 = false) (f : MemFault) :
    (memExc s va k acc f).isr.getLsbD 43 = match f with
      | .unimplemented => false
      | .xlat _ _ _ ed | .natPage _ _ ed | .debug ed | .unaligned ed | .unsupported ed => ed := by
  have h30 : (0x30#64).getLsbD 43 = false := by decide
  have h20 : (0x20#64).getLsbD 43 = false := by decide
  cases f with
  | unimplemented => simp only [memExc, BitVec.getLsbD_or, h, h30, Bool.or_false]
  | xlat f itir iha ed =>
    rw [memExc, BitVec.getLsbD_or, BitVec.getLsbD_or, h, accessCode_bit43, ofBool_bit43, Bool.false_or, Bool.false_or]
  | natPage itir iha ed => simp only [memExc, BitVec.getLsbD_or, ofBool_bit43, h, h20, Bool.false_or]
  | debug ed | unaligned ed | unsupported ed => simp only [memExc, BitVec.getLsbD_or, ofBool_bit43, h, Bool.false_or]

/-- 60 R1302: the vector of a fault; that of an unimplemented address is log 25's choice. -/
theorem memExc_offset (s : State) (va acc : Word) (k : AccessKind) (f : MemFault) :
    (memExc s va k acc f).offset = match f with
      | .unimplemented => 0x5400
      | .xlat f _ _ _ => xlatOffset (decide (k = .fetch)) s.lp.ic f
      | .natPage _ _ _ => 0x5600
      | .debug _ => 0x5900
      | .unaligned _ => 0x5A00
      | .unsupported _ => 0x5B00 := by
  cases f <;> rfl

/-! ## Plain loads and stores that meet a fault -/

/-- 60 R1301: a plain load that meets a fault raises its exception and changes nothing else. -/
theorem loadInt_fault {s : State} {f : MemFault} {n : Nat} {qp : BitVec 6} {r1 r3 : BitVec 7} (hq : s.lp.readPr qp = true)
    (h1 : s.lp.grWritable r1 = true) (h3 : Usable s r3) (hf : dataAccess s .read (s.lp.gr? r3).val n false = .error f) :
    loadInt {} n false qp r1 r3 .none s
      = .next (faultTo s (memExc s (s.lp.gr? r3).val .read (accessBits .read) f)) := by
  refine predicated_raise hq ?_
  have hl : load s false (s.lp.gr? r3).val n false = raise (memExc s (s.lp.gr? r3).val .read (accessBits .read) f) := by
    rw [load, hf]; rfl
  simp only [checkGr_ok h1, checkBase_ok (incOk_none s r3), neq_of_distinct (s := s) (r1 := r1) (inc := .none) nofun,
    require_true, readGr_ok h3.1, inc_value (incOk_none s r3), ok_bind, loadForm, h3.2, hl]
  rfl

/-- 60 R1301: a plain store that meets a fault raises its exception and changes nothing else. -/
theorem storeInt_fault {s : State} {f : MemFault} {n : Nat} {qp : BitVec 6} {r3 r2 : BitVec 7} (hq : s.lp.readPr qp = true)
    (h3 : Usable s r3) (h2 : Usable s r2) (hf : dataAccess s .write (s.lp.gr? r3).val n false = .error f) :
    storeInt n false qp r3 r2 .none s
      = .next (faultTo s (memExc s (s.lp.gr? r3).val .write (accessBits .write) f)) := by
  refine predicated_raise hq ?_
  have hs : store s false (s.lp.gr? r3).val n (s.lp.gr? r2).val.toNat false
      = raise (memExc s (s.lp.gr? r3).val .write (accessBits .write) f) := by
    rw [store, hf]; rfl
  simp only [checkBase_ok (incOk_none s r3), readGr_ok h3.1, readGr_ok h2.1, inc_value (incOk_none s r3), ok_bind, h3.2,
    h2.2, Bool.not_false, Bool.or_true, Bool.and_self, require_true, hs, raise_bind]

/-- Settles O42: translation, alignment, the exception of a fault, and the plain loads and stores that meet one. -/
theorem dataAccesses : Obligations.DataAccesses := by
  refine ⟨fun s va k => ⟨translateAddr_physical, translateAddr_beyond, translateAddr_virtual⟩,
    fun s va n pa k a ht hb => ?_, fun s va acc k f => ⟨memExc_ifa .., ?_⟩, fun s va acc k f h => ?_, fun s va k => ?_,
    fun o s f hq h1 h3 => ?_, fun o s f hq h3 h2 => ?_⟩
  · have hd := dataAccess_aligned_iff (n := n) ht hb
    refine ⟨fun h => ?_, fun h hk => ?_, fun h hk => ?_, fun h hk => ?_⟩
    · rw [hd, alignOk_aligned s k a h, if_pos rfl]
    · subst hk; rw [hd]; simp only [alignOk_read_iff s a h]
    · subst hk; rw [hd]; simp only [alignOk_write_iff s a h]
    · subst hk; rw [hd, alignOk_readWrite s a h, if_neg (by decide)]
  · rw [memExc_offset]
    cases f with
    | xlat f => cases f <;> simp only [xlatOffset, decide_eq_true_eq] <;> rfl
    | _ => rfl
  · have he := memExc_ed s va k h f
    cases f with
    | xlat | natPage => exact ⟨he, rfl, rfl⟩
    | _ => exact he
  · rfl
  · exact ⟨loadInt_fault hq h1 h3, loadInt_fault hq h1 h3, loadInt_fault hq h1 h3, loadInt_fault hq h1 h3⟩
  · exact ⟨storeInt_fault hq h3 h2, storeInt_fault hq h3 h2, storeInt_fault hq h3 h2, storeInt_fault hq h3 h2⟩

end Sys2Proof.Machine
end

