-- ==== Sys2Proof/Proofs/UncoreMap.lean ====
section
/-!
The addresses of the uncore registers (12 R222 to R230, R252, 13 R304, R340; 20 R430): each register stands at its offset in every
window of the aperture, no other offset names one, and the window tells whose register it is.
-/

namespace Sys2Proof.Machine

open Sys2Proof.Config

/-! ## The offsets of the registers in a window -/

/-- Every register is found at its offset. -/
theorem csrOf_csrOffset (c : Csr) (h : csrExists c = true) : csrOffset c < 0x10000 ∧ csrOf (csrOffset c) = some c := by
  cases c with
  | dbxMisc | rGblCfg => decide
  | qearDat0 n | qearDat1 n | qearCtl n =>
    have hn : n < 4 := of_decide_eq_true h
    interval_cases n <;> decide
  | bCtl0 b | bCtl1 b | bCtl2 b | bCtl3 b | bIob b | bBz b | bArb0 b | bArb1 b | bImt b | zPgt b | zDsp b | zIss b | zThr b
  | zStatus b | zPld b | zFvc b =>
    have hb : b < 2 := of_decide_eq_true h
    interval_cases b <;> decide
  | bCnt b i =>
    obtain ⟨hb, hi⟩ : b < 2 ∧ i < 8 := of_decide_eq_true h
    interval_cases b <;> interval_cases i <;> decide
  | zCtl b i | zCnt b i =>
    obtain ⟨hb, hi⟩ : b < 2 ∧ i < 5 := of_decide_eq_true h
    interval_cases b <;> interval_cases i <;> decide
  | rCnt i | rCtl i =>
    have hi : i < 16 := of_decide_eq_true h
    interval_cases i <;> decide
  | rIperf0 p | rIperf1 p | rArb p =>
    have hp : p < 12 := of_decide_eq_true h
    interval_cases p <;> decide
  | rMatchLsb m | rMatchMsb m | rMaskLsb m | rMaskMsb m | rMmCfg m =>
    have hm : m < 24 := of_decide_eq_true h
    interval_cases m <;> decide

/-- A register that a table gives for an offset: it exists, and the offset is its own. -/
def StandsAt (c : Csr) (reg : Nat) : Prop := csrExists c = true ∧ csrOffset c = reg

theorem bCsrOf_standsAt {b off : Nat} {c : Csr} (hb : b < 2) (h : bCsrOf b off = some c) :
    StandsAt c (0xC000 + 0x1000 * b + off) := by
  unfold bCsrOf at h
  split at h
  case h_10 =>
    split at h
    · obtain rfl := Option.some.inj h
      exact ⟨decide_eq_true ⟨hb, by omega⟩, by simp only [csrOffset]; omega⟩
    · cases h
  all_goals
    obtain rfl := Option.some.inj h
    exact ⟨decide_eq_true hb, by simp only [csrOffset]; omega⟩

theorem zCsrOf_standsAt {b off : Nat} {c : Csr} (hb : b < 2) (h : zCsrOf b off = some c) :
    StandsAt c (0xC000 + 0x1000 * b + off) := by
  unfold zCsrOf at h
  split at h
  case h_8 =>
    split at h
    · cases h
    · split at h
      · obtain rfl := Option.some.inj h
        exact ⟨decide_eq_true ⟨hb, by omega⟩, by simp only [csrOffset]; omega⟩
      · split at h
        · obtain rfl := Option.some.inj h
          exact ⟨decide_eq_true ⟨hb, by omega⟩, by simp only [csrOffset]; omega⟩
        · cases h
  all_goals
    obtain rfl := Option.some.inj h
    exact ⟨decide_eq_true hb, by simp only [csrOffset]; omega⟩

/-- A B-Box and a Z-Box share a window. -/
theorem boxCsrOf_standsAt {b off : Nat} {c : Csr} (hb : b < 2)
    (h : (if (bCsrOf b off).isSome then bCsrOf b off else zCsrOf b off) = some c) :
    StandsAt c (0xC000 + 0x1000 * b + off) := by
  split at h
  · exact bCsrOf_standsAt hb h
  · exact zCsrOf_standsAt hb h

theorem portOfSlot_lt (right : Bool) {slot : Nat} (h : slot < 6) : portOfSlot right slot < 12 := by
  unfold portOfSlot
  split
  · omega
  · split <;> omega

/-- The registers of a port begin where its slot does. -/
theorem portBase_portOfSlot (right : Bool) (r l stride : Nat) {slot : Nat} (h : slot < 6) :
    portBase r l stride (portOfSlot right slot) = (if right then r else l) + stride * slot := by
  cases right
  · simp only [portOfSlot, portBase]
    by_cases h5 : slot = 5
    · simp [h5]
    · simp [h5, show ¬ 5 ≤ slot by omega, show slot ≠ 11 by omega]
  · simp [portOfSlot, portBase, show slot ≤ 5 by omega]

theorem matchCsrOf_standsAt {right : Bool} {rel : Nat} {c : Csr} (hr : rel < 0x200) (h : matchCsrOf right rel = some c) :
    StandsAt c ((if right then 0x4C00 else 0x4A00) + rel) := by
  unfold matchCsrOf at h
  dsimp only at h
  split at h
  case isFalse => cases h
  case isTrue hslot =>
    have hport := portOfSlot_lt right hslot
    have hbase := portBase_portOfSlot right 0x4C00 0x4A00 0x28 hslot
    have hhalf : (2 * portOfSlot right (rel % 0x100 / 0x28) + rel / 0x100) / 2 = portOfSlot right (rel % 0x100 / 0x28) := by
      omega
    have hset : (2 * portOfSlot right (rel % 0x100 / 0x28) + rel / 0x100) % 2 = rel / 0x100 := by omega
    split at h
    case h_6 => cases h
    all_goals
      obtain rfl := Option.some.inj h
      exact ⟨decide_eq_true (by omega), by simp only [csrOffset, hhalf, hset, hbase]; omega⟩

theorem rCsrOf_standsAt {off : Nat} {c : Csr} (h : rCsrOf off = some c) : StandsAt c (0x4000 + off) := by
  unfold rCsrOf at h
  split at h
  · obtain rfl := Option.some.inj h
    exact ⟨rfl, by simp only [csrOffset]; omega⟩
  · split at h
    · cases h
    · split at h
      · split at h
        all_goals
          obtain rfl := Option.some.inj h
          exact ⟨decide_eq_true (by omega), by simp only [csrOffset]; omega⟩
      · split at h
        · obtain ⟨he, ho⟩ := matchCsrOf_standsAt (by omega) h
          exact ⟨he, by rw [ho, if_pos rfl]; omega⟩
        · split at h
          · obtain ⟨he, ho⟩ := matchCsrOf_standsAt (by omega) h
            exact ⟨he, by rw [ho, if_neg (by decide)]; omega⟩
          · split at h
            · obtain rfl := Option.some.inj h
              exact ⟨decide_eq_true (portOfSlot_lt _ (by omega)), by
                rw [csrOffset, portBase_portOfSlot _ _ _ _ (by omega), if_pos rfl]; omega⟩
            · split at h
              · obtain rfl := Option.some.inj h
                exact ⟨decide_eq_true (portOfSlot_lt _ (by omega)), by
                  rw [csrOffset, portBase_portOfSlot _ _ _ _ (by omega), if_neg (by decide)]; omega⟩
              · cases h

theorem iperfOf_standsAt {off : Nat} {c : Csr} (h : iperfOf off = some c) : StandsAt c (0x7000 + off) := by
  unfold iperfOf at h
  split at h
  · split at h
    · obtain rfl := Option.some.inj h
      exact ⟨decide_eq_true (by omega), by simp only [csrOffset]; omega⟩
    · split at h
      · obtain rfl := Option.some.inj h
        exact ⟨decide_eq_true (by omega), by simp only [csrOffset]; omega⟩
      · cases h
  · cases h

/-- An offset of a window names no register but the one that stands there. -/
theorem csrOf_standsAt {reg : Nat} {c : Csr} (h : csrOf reg = some c) : StandsAt c reg := by
  have hreg : reg = 0x1000 * (reg / 0x1000) + reg % 0x1000 := by omega
  unfold csrOf at h
  dsimp only at h
  rw [hreg]
  generalize reg % 0x1000 = off at h
  split at h
  case h_1 hw =>
    rw [hw]
    split at h
    · obtain rfl := Option.some.inj h
      exact ⟨rfl, by simp only [csrOffset]; omega⟩
    · cases h
  case h_2 hw => rw [hw]; exact boxCsrOf_standsAt (b := 1) (by decide) h
  case h_3 hw => rw [hw]; exact boxCsrOf_standsAt (b := 0) (by decide) h
  case h_4 hw => rw [hw]; exact iperfOf_standsAt h
  case h_5 hw => rw [hw]; exact rCsrOf_standsAt h
  case h_6 =>
    split at h
    case isFalse => cases h
    case isTrue hw =>
      split at h
      case h_4 => cases h
      all_goals
        obtain rfl := Option.some.inj h
        exact ⟨decide_eq_true (by omega), by simp only [csrOffset]; omega⟩

/-! ## The windows of the sockets -/

/-- A window of the aperture, by its offset: that of this socket, or a numbered one. -/
def IsWindow (w : Nat) : Prop := w = 0xFEB00000 ∨ ∃ k, k < 256 ∧ w = 0xFC000000 + 0x10000 * k

/-- Whether an aperture address lies in a window. -/
def inWindow (pa : Nat) : Bool :=
  csrNumbered pa || decide (0xFEB00000 ≤ pa - apertureBase ∧ pa - apertureBase < 0xFEB10000)

theorem csrAt_eq (pa : Nat) : csrAt pa = if inWindow pa then
    (match csrOf ((pa - apertureBase) % 0x10000) with | some c => .ok c | none => .error (.csrUndescribed pa))
    else .error (.csrUndescribed pa) := rfl

theorem inWindow_of_isWindow {w r : Nat} (hw : IsWindow w) (hr : r < 0x10000) :
    inWindow (apertureBase + w + r) = true ∧ (apertureBase + w + r - apertureBase) % 0x10000 = r := by
  rw [show apertureBase + w + r - apertureBase = w + r by omega]
  simp only [inWindow, csrNumbered, Bool.or_eq_true, decide_eq_true_eq]
  rcases hw with rfl | ⟨k, hk, rfl⟩ <;> omega

theorem isWindow_of_inWindow {pa : Nat} (h : inWindow pa = true) :
    ∃ w, IsWindow w ∧ pa = apertureBase + w + (pa - apertureBase) % 0x10000 := by
  simp only [inWindow, csrNumbered, Bool.or_eq_true, decide_eq_true_eq] at h
  rcases h with ⟨hlo, hhi⟩ | ⟨hlo, hhi⟩
  · exact ⟨0xFC000000 + 0x10000 * ((pa - apertureBase - 0xFC000000) / 0x10000), .inr ⟨_, by omega, rfl⟩, by omega⟩
  · exact ⟨0xFEB00000, .inl rfl, by omega⟩

/-- Every register stands at its offset in every window. -/
theorem csrAt_csrOffset {c : Csr} {w : Nat} (h : csrExists c = true) (hw : IsWindow w) :
    csrAt (apertureBase + w + csrOffset c) = .ok c := by
  obtain ⟨hlt, hof⟩ := csrOf_csrOffset c h
  obtain ⟨hin, hoff⟩ := inWindow_of_isWindow hw hlt
  rw [csrAt_eq, if_pos hin, hoff, hof]

/-- No other address of the aperture names a register. -/
theorem csrAt_standsAt {pa : Nat} {c : Csr} (h : csrAt pa = .ok c) :
    csrExists c = true ∧ ∃ w, IsWindow w ∧ pa = apertureBase + w + csrOffset c := by
  rw [csrAt_eq] at h
  split at h
  case isFalse => cases h
  case isTrue hin =>
    obtain ⟨w, hw, hpa⟩ := isWindow_of_inWindow hin
    split at h
    case h_2 => cases h
    case h_1 c' hof =>
      obtain rfl : c' = c := Except.ok.inj h
      obtain ⟨he, ho⟩ := csrOf_standsAt hof
      exact ⟨he, w, hw, by rw [ho]; exact hpa⟩

theorem csrAt_error {pa : Nat} {e : Refusal} (h : csrAt pa = .error e) : e = .csrUndescribed pa := by
  rw [csrAt_eq] at h
  split at h
  · split at h
    · cases h
    · exact (Except.error.inj h).symm
  · exact (Except.error.inj h).symm

/-- The window of this socket holds its registers. -/
theorem csrSocket_own (p : Params) {r : Nat} (h : r < 0x10000) : csrSocket p (0x3FFFBFEB00000 + r) = none := by
  have hn : csrNumbered (0x3FFFBFEB00000 + r) = false :=
    decide_eq_false (by unfold apertureBase; omega)
  rw [csrSocket, hn]; rfl

/-- A numbered window holds the registers of the socket of its number. -/
theorem csrSocket_numbered (p : Params) {k r : Nat} (hk : k < 256) (h : r < 0x10000) :
    csrSocket p (0x3FFFBFC000000 + 0x10000 * k + r)
      = if k = p.socketId then none else some (if k < p.socketId then k else k - 1) := by
  have hn : csrNumbered (0x3FFFBFC000000 + 0x10000 * k + r) = true :=
    decide_eq_true (by unfold apertureBase; omega)
  have hw : csrWindow (0x3FFFBFC000000 + 0x10000 * k + r) = k := by unfold csrWindow apertureBase; omega
  rw [csrSocket, hn, hw]
  by_cases hs : k = p.socketId <;> simp [hs]

end Sys2Proof.Machine
end

