-- ==== Sys2Proof/Proofs/UncoreValues.lean ====
section
/-!
What a store to an uncore register leaves (12 R237 to R266, 13 R305 to R355): the bits written, the bits kept, and the fields that a
store clears or steers (12 R247, R262, R263, 13 R305, R341, R342).
-/

namespace Sys2Proof.Machine

open Sys2Proof.Config

/-! ## Registers narrower than a word -/

/-- Bits of a narrow register at a place of a word, under a mask. -/
theorem placed_and {n : Nat} (x : BitVec n) (k : Nat) (m : Word) :
    (x.setWidth 64 <<< k) &&& m = (x &&& (m >>> k).setWidth n).setWidth 64 <<< k := by
  apply BitVec.eq_of_getLsbD_eq
  intro i hi
  simp only [BitVec.getLsbD_and, BitVec.getLsbD_shiftLeft, BitVec.getLsbD_setWidth, BitVec.getLsbD_ushiftRight, hi]
  by_cases hk : i < k
  · simp [hk]
  · by_cases hn : i - k < n
    · simp [hk, hn, show k + (i - k) = i by omega, show i - k < 64 by omega]
    · simp [hk, BitVec.getLsbD_of_ge x (i - k) (by omega)]

/-- A narrow register under a mask. -/
theorem widened_and {n : Nat} (x : BitVec n) (m : Word) : (x &&& m.setWidth n).setWidth 64 = x.setWidth 64 &&& m := by
  simpa using (placed_and x 0 m).symm

/-- The bits of a word that a register of `n` bits holds, in their place. -/
theorem placed_truncated (v : Word) {n k : Nat} {m : Word} (hm : (BitVec.allOnes n).setWidth 64 <<< k = m) :
    ((v >>> k).setWidth n).setWidth 64 <<< k = v &&& m := by
  subst hm
  apply BitVec.eq_of_getLsbD_eq
  intro i hi
  simp only [BitVec.getLsbD_and, BitVec.getLsbD_shiftLeft, BitVec.getLsbD_setWidth, BitVec.getLsbD_ushiftRight,
    BitVec.getLsbD_allOnes, hi]
  by_cases hk : i < k
  · simp [hk]
  · by_cases hn : i - k < n
    · simp [hk, hn, show k + (i - k) = i by omega, show i - k < 64 by omega]
    · simp [hn]

/-- The bits of a word that a register of `n` bits holds. -/
theorem widened_truncated (v : Word) {n : Nat} {m : Word} (hm : (BitVec.allOnes n).setWidth 64 = m) :
    (v.setWidth n).setWidth 64 = v &&& m := by
  simpa using placed_truncated v (k := 0) (by simpa using hm)

/-- The bits of a word that a register of `n` bits holds under a mask. -/
theorem widened_truncated_and (v : Word) {n : Nat} {a : BitVec n} {m : Word} (hm : a.setWidth 64 = m) :
    (v.setWidth n &&& a).setWidth 64 = v &&& m := by
  subst hm
  apply BitVec.eq_of_getLsbD_eq
  intro i hi
  simp only [BitVec.getLsbD_and, BitVec.getLsbD_setWidth, hi]
  by_cases hn : i < n
  · simp [hn]
  · simp [BitVec.getLsbD_of_ge a i (by omega)]

/-- A register of `n` bits of which a store writes those of a mask and keeps the others. -/
theorem widened_merged (v : Word) {n : Nat} (x : BitVec n) {a c : BitVec n} {m : Word} (ha : (~~~m).setWidth n = a)
    (hc : c.setWidth 64 = m) : ((x &&& a) ||| (v.setWidth n &&& c)).setWidth 64 = (x.setWidth 64 &&& ~~~m) ||| (v &&& m) := by
  rw [BitVec.setWidth_or, ← ha, widened_and, widened_truncated_and v hc]

/-! ## Each box by its number -/

section
variable (u : Uncore) {c b m : Nat}

theorem q_setQ (q : Qear) (h : c < 4) : (u.setQ c q).q c = q := getD_set_same _ _ _ _ h
theorem b_setB (x : BBox) (h : b < 2) : (u.setB b x).b b = x := getD_set_same _ _ _ _ h
theorem z_setZ (x : ZBox) (h : b < 2) : (u.setZ b x).z b = x := getD_set_same _ _ _ _ h
theorem m_setM (r : RBox) (x : MatchSet) (h : m < 24) : (r.setM m x).m m = x := getD_set_same _ _ _ _ h

end

/-! ## Stores that write and keep bits -/

/-- Shifting a narrow register up and down again, where it has room. -/
theorem placed_back {k w n : Nat} (x : BitVec k) (h : k + n ≤ w) : (x.setWidth w <<< n) >>> n = x.setWidth w := by
  apply BitVec.eq_of_getLsbD_eq
  intro i hi
  simp only [BitVec.getLsbD_ushiftRight, BitVec.getLsbD_shiftLeft, BitVec.getLsbD_setWidth]
  by_cases hk : i < k
  · simp [show n + i < w by omega, show i < w by omega]
  · simp [BitVec.getLsbD_of_ge x i (by omega)]

/-- 13 R305: the control register of an R-Box counter holds bits 47:32 of the count below its control bits. -/
theorem rCtl_written (v : Word) (old : BitVec 48) :
    (((v >>> 16).setWidth 9).setWidth 64 <<< 16)
      ||| (((old &&& 0xFFFFFFFF#48) ||| ((v.setWidth 16).setWidth 48 <<< 32)) >>> 32).setWidth 64 = v &&& 0x1FFFFFF#64 := by
  have hold : 0xFFFFFFFF#48 >>> 32 = 0#48 := rfl
  have hmask : 0x1FF0000#64 ||| 0xFFFF#64 = 0x1FFFFFF#64 := rfl
  have hwide : ((v.setWidth 16).setWidth 48).setWidth 64 = (v.setWidth 16).setWidth 64 := BitVec.setWidth_setWidth (by decide)
  rw [BitVec.ushiftRight_or_distrib, BitVec.ushiftRight_and_distrib, hold, BitVec.and_zero, BitVec.zero_or,
    placed_back _ (by decide), hwide, placed_truncated v (m := 0x1FF0000#64) rfl,
    widened_truncated v (m := 0xFFFF#64) rfl, ← BitVec.and_or_distrib_left, hmask]

/-- 13 R305: the count register of an R-Box counter holds bits 31:0 of the count. -/
theorem rCnt_written (v : Word) (old : BitVec 48) :
    (((old &&& ~~~0xFFFFFFFF#48) ||| (v.setWidth 32).setWidth 48).setWidth 32).setWidth 64 = v &&& 0xFFFFFFFF#64 := by
  have hold : (~~~0xFFFFFFFF#48).setWidth 32 = 0#32 := rfl
  have hback : ((v.setWidth 32).setWidth 48).setWidth 32 = v.setWidth 32 :=
    (BitVec.setWidth_setWidth_of_le _ (by decide)).trans (BitVec.setWidth_eq _)
  rw [BitVec.setWidth_or, BitVec.setWidth_and, hold, BitVec.and_zero, BitVec.zero_or, hback]
  exact widened_truncated v rfl

/-- 13 R343: the count register of a Z-Box counter holds bits 39:8 of the count. -/
theorem zCnt_written (v : Word) (old : BitVec 40) :
    (((old &&& 0xFF#40) ||| ((v.setWidth 32).setWidth 40 <<< 8)) >>> 8).setWidth 64 = v &&& 0xFFFFFFFF#64 := by
  have hold : 0xFF#40 >>> 8 = 0#40 := rfl
  have hwide : ((v.setWidth 32).setWidth 40).setWidth 64 = (v.setWidth 32).setWidth 64 := BitVec.setWidth_setWidth (by decide)
  rw [BitVec.ushiftRight_or_distrib, BitVec.ushiftRight_and_distrib, hold, BitVec.and_zero, BitVec.zero_or,
    placed_back _ (by decide), hwide]
  exact widened_truncated v rfl

theorem writeBCtl2_ctl2 (x : BBox) (v : Word) : (writeBCtl2 x v).ctl2 = v.setWidth 44 := by
  unfold writeBCtl2
  dsimp only
  split <;> rfl

/-- A register that a store replaces reads as the bits written. -/
theorem csrValue_replaced (u : Uncore) (v : Word) {m : Word} {c : Csr} (hc : csrExists c = true) (h : csrReplaced c = some m) :
    csrValue (csrUpdate u v c) c = v &&& m := by
  cases c with
  | dbxMisc => obtain rfl := Option.some.inj h; exact widened_truncated_and v rfl
  | qearCtl n =>
    obtain rfl := Option.some.inj h
    simp only [csrUpdate, csrValue, q_setQ u _ (of_decide_eq_true hc)]
    exact widened_truncated_and v rfl
  | bCtl0 b | bCtl1 b =>
    obtain rfl := Option.some.inj h
    simp only [csrUpdate, csrValue, b_setB u _ (of_decide_eq_true hc)]
    exact widened_truncated v rfl
  | bCtl2 b =>
    obtain rfl := Option.some.inj h
    simp only [csrUpdate, csrValue, b_setB u _ (of_decide_eq_true hc), writeBCtl2_ctl2]
    exact widened_truncated v rfl
  | bCtl3 b =>
    obtain rfl := Option.some.inj h
    simp only [csrUpdate, csrValue, b_setB u _ (of_decide_eq_true hc)]
    exact (BitVec.and_allOnes).symm
  | bCnt b i =>
    obtain rfl := Option.some.inj h
    obtain ⟨hb, hi⟩ := of_decide_eq_true hc
    simp only [csrUpdate, csrValue, b_setB u _ hb, getD_set_same _ _ _ _ hi]
    exact widened_truncated v rfl
  | rCtl i =>
    obtain rfl := Option.some.inj h
    simp only [csrUpdate, csrValue, Uncore.setR, getD_set_same _ _ _ _ (of_decide_eq_true hc)]
    exact rCtl_written v _
  | rCnt i =>
    obtain rfl := Option.some.inj h
    simp only [csrUpdate, csrValue, Uncore.setR, getD_set_same _ _ _ _ (of_decide_eq_true hc)]
    exact rCnt_written v _
  | rIperf0 p | rIperf1 p =>
    obtain rfl := Option.some.inj h
    simp only [csrUpdate, csrValue, Uncore.setR, getD_set_same _ _ _ _ (of_decide_eq_true hc)]
    exact widened_truncated v rfl
  | rArb p =>
    obtain rfl := Option.some.inj h
    simp only [csrUpdate, csrValue, Uncore.setR, getD_set_same _ _ _ _ (of_decide_eq_true hc)]
    exact widened_truncated_and v rfl
  | rMatchLsb n | rMatchMsb n | rMaskLsb n | rMaskMsb n =>
    obtain rfl := Option.some.inj h
    simp only [csrUpdate, csrValue, Uncore.setR, m_setM _ _ (of_decide_eq_true hc)]
    exact widened_truncated v rfl
  | rMmCfg n =>
    obtain rfl := Option.some.inj h
    simp only [csrUpdate, csrValue, Uncore.setR, m_setM _ _ (of_decide_eq_true hc)]
    exact widened_truncated_and v rfl
  | zPgt b | zDsp b | zIss b | zThr b | zPld b | zFvc b =>
    obtain rfl := Option.some.inj h
    simp only [csrUpdate, csrValue, z_setZ u _ (of_decide_eq_true hc)]
    exact widened_truncated_and v rfl
  | zCnt b i =>
    obtain rfl := Option.some.inj h
    obtain ⟨hb, hi⟩ := of_decide_eq_true hc
    simp only [csrUpdate, csrValue, z_setZ u _ hb, getD_set_same _ _ _ _ hi]
    exact zCnt_written v _
  | qearDat0 | qearDat1 | bIob | bBz | bArb0 | bArb1 | bImt | rGblCfg | zStatus | zCtl => cases h

/-- A register that a store merges reads as the bits written among those kept. -/
theorem csrValue_merged (u : Uncore) (v : Word) {m : Word} {c : Csr} (hc : csrExists c = true) (h : csrMerged c = some m) :
    csrValue (csrUpdate u v c) c = (csrValue u c &&& ~~~m) ||| (v &&& m) := by
  cases c with
  | bIob b | bBz b | bArb0 b | bArb1 b | bImt b =>
    obtain rfl := Option.some.inj h
    simp only [csrUpdate, csrValue, b_setB u _ (of_decide_eq_true hc)]
    exact widened_merged v _ rfl rfl
  | qearDat1 n =>
    obtain rfl := Option.some.inj h
    rw [BitVec.and_zero, BitVec.or_zero]
    exact (BitVec.and_allOnes).symm
  | _ => cases h

/-! ## The fields that a store clears or steers -/

/-- 13 R305, R341: the freeze bit of a box after a store that freezes (`f`) or unfreezes (`r`) it. -/
theorem frozen_written (f r old : Bool) (k : Nat) :
    ofBool (if f = true then true else if r = true then false else old) <<< k
      = if f = true ∨ (r = false ∧ old = true) then 1#64 <<< k else 0#64 := by
  cases f <;> cases r <;> cases old <;> simp [ofBool]

/-- A bit of a word in its place. -/
theorem ofBool_getLsbD (v : Word) {k : Nat} : ofBool (v.getLsbD k) <<< k = v &&& 1#64 <<< k := by
  have hb : ofBool (v.getLsbD k) = ((v >>> k).setWidth 1).setWidth 64 := by
    apply BitVec.eq_of_getLsbD_eq
    intro i hi
    cases i with
    | zero => cases hv : v.getLsbD k <;> simp [ofBool, hv, -BitVec.getLsbD_eq_getElem]
    | succ i => cases hv : v.getLsbD k <;> simp [ofBool]
  rw [hb, placed_truncated v rfl]; rfl

/-- 13 R305: the global configuration of the R-Box after a store. -/
theorem rGblCfg_written (u : Uncore) (v : Word) : csrValue (csrUpdate u v .rGblCfg) .rGblCfg =
    (v &&& 0x9F#64) ||| (if v.getLsbD 11 = true ∨ (v.getLsbD 9 = false ∧ u.rbox.frozen = true) then 0x100#64 else 0#64) := by
  have hmask : 1#64 <<< 7 ||| 0x1F#64 = 0x9F#64 := rfl
  have hval : csrValue (csrUpdate u v .rGblCfg) .rGblCfg
      = (ofBool (if v.getLsbD 11 = true then true else if v.getLsbD 9 = true then false else u.rbox.frozen) <<< 8)
        ||| (ofBool (v.getLsbD 7) <<< 7) ||| (v.setWidth 5).setWidth 64 := rfl
  rw [hval, frozen_written, ofBool_getLsbD v, widened_truncated v (m := 0x1F#64) rfl, BitVec.or_assoc,
    ← BitVec.and_or_distrib_left, hmask, BitVec.or_comm]
  rfl

theorem getD_replicate {α : Type} {n i : Nat} (a d : α) (h : i < n) : (Vector.replicate n a).getD i d = a := by
  simp [Vector.getD, h]

/-- 13 R305: a store of bit 10 clears the counters. -/
theorem rCnt_cleared (u : Uncore) {v : Word} (h : v.getLsbD 10 = true) {j : Nat} (hj : j < 16) :
    csrValue (csrUpdate u v .rGblCfg) (.rCnt j) = 0#64 := by
  have hcnt : (csrUpdate u v .rGblCfg).rbox.cnt = .replicate 16 0#48 := if_pos h
  simp only [csrValue, hcnt, getD_replicate _ _ hj]
  rfl

theorem rCnt_kept (u : Uncore) {v : Word} (h : v.getLsbD 10 = false) : (csrUpdate u v .rGblCfg).rbox.cnt = u.rbox.cnt :=
  if_neg (by rw [h]; decide)

/-- The freeze bit of a Z-Box lies above its overflow bits. -/
theorem zStatus_ov (f : Bool) (ov : BitVec 5) : ((ofBool f <<< 31) ||| ov.setWidth 64) &&& 0x1F#64 = ov.setWidth 64 := by
  have hf : (ofBool f <<< 31) &&& 0x1F#64 = 0#64 := by cases f <;> rfl
  have hones : (0x1F#64).setWidth 5 = BitVec.allOnes 5 := rfl
  rw [BitVec.and_or_distrib_right, hf, BitVec.zero_or, ← widened_and, hones, BitVec.and_allOnes]

/-- 13 R341: an overflow bit written 1 is cleared. -/
theorem zStatus_written (u : Uncore) (v : Word) {b : Nat} (hb : b < 2) :
    csrValue (csrUpdate u v (.zStatus b)) (.zStatus b) = (csrValue u (.zStatus b) &&& 0x1F#64 &&& ~~~v)
      ||| (if v.getLsbD 31 = true ∨ (v.getLsbD 30 = false ∧ (u.z b).frozen = true) then 0x80000000#64 else 0#64) := by
  have hov : ((u.z b).ov &&& ~~~(v.setWidth 5)).setWidth 64 = (u.z b).ov.setWidth 64 &&& ~~~v := by
    rw [← widened_and, BitVec.setWidth_not (by decide)]
  simp only [csrUpdate, csrValue, z_setZ u _ hb, writeZStatus, zStatus_ov, frozen_written, hov]
  exact BitVec.or_comm ..

/-- 13 R342: bit 23 of a store steers it to the low count bits or to the control bits of a Z-Box counter; the others are kept. -/
theorem zCtl_written (u : Uncore) (v : Word) {b i : Nat} (hb : b < 2) (hi : i < 5) (hclear : v.getLsbD 22 = false ∨ i ≠ 0) :
    csrValue (csrUpdate u v (.zCtl b i)) (.zCtl b i) =
      if v.getLsbD 23 = true then (csrValue u (.zCtl b i) &&& 0x3FF#64) ||| (v &&& 0xFF000000#64)
      else (csrValue u (.zCtl b i) &&& 0xFF000000#64) ||| (v &&& 0x3FF#64) := by
  have hlow (x : BitVec 40) :
      ((x &&& ~~~0xFF#40) ||| ((v >>> 24).setWidth 8).setWidth 40).setWidth 8 = (v >>> 24).setWidth 8 := by
    have hold : (~~~0xFF#40).setWidth 8 = 0#8 := rfl
    have hback : (((v >>> 24).setWidth 8).setWidth 40).setWidth 8 = (v >>> 24).setWidth 8 :=
      (BitVec.setWidth_setWidth_of_le _ (by decide)).trans (BitVec.setWidth_eq _)
    rw [BitVec.setWidth_or, BitVec.setWidth_and, hold, BitVec.and_zero, BitVec.zero_or, hback]
  -- the two parts of the register under the two masks
  have hcntLow (x : BitVec 8) : (x.setWidth 64 <<< 24) &&& 0x3FF#64 = 0#64 := by
    rw [placed_and, show (0x3FF#64 >>> 24).setWidth 8 = 0#8 from rfl, BitVec.and_zero]; rfl
  have hcntHigh (x : BitVec 8) : (x.setWidth 64 <<< 24) &&& 0xFF000000#64 = x.setWidth 64 <<< 24 := by
    rw [placed_and, show (0xFF000000#64 >>> 24).setWidth 8 = BitVec.allOnes 8 from rfl, BitVec.and_allOnes]
  have hctlLow (x : BitVec 10) : x.setWidth 64 &&& 0x3FF#64 = x.setWidth 64 := by
    rw [← widened_and, show (0x3FF#64).setWidth 10 = BitVec.allOnes 10 from rfl, BitVec.and_allOnes]
  have hctlHigh (x : BitVec 10) : x.setWidth 64 &&& 0xFF000000#64 = 0#64 := by
    rw [← widened_and, show (0xFF000000#64).setWidth 10 = 0#10 from rfl, BitVec.and_zero]; rfl
  by_cases h23 : v.getLsbD 23 = true
  · rw [if_pos h23]
    simp only [csrUpdate, csrValue, z_setZ u _ hb, writeZCtl, h23, if_true, getD_set_same _ _ _ _ hi, hlow,
      BitVec.and_or_distrib_right, hcntLow, hctlLow, BitVec.zero_or,
      placed_truncated v (n := 8) (k := 24) (m := 0xFF000000#64) rfl]
    exact BitVec.or_comm ..
  · have hno : ¬ (i = 0 ∧ v.getLsbD 22 = true) := by
      rintro ⟨rfl, h22⟩
      rcases hclear with h | h
      · rw [h22] at h; cases h
      · exact h rfl
    have hz : writeZCtl (u.z b) i v = { u.z b with ctl := (u.z b).ctl.setIfInBounds i (v.setWidth 10) } := by
      unfold writeZCtl
      rw [if_neg h23]
      exact if_neg hno
    rw [if_neg h23]
    simp only [csrUpdate, csrValue, z_setZ u _ hb, hz, getD_set_same _ _ _ _ hi, BitVec.and_or_distrib_right, hcntHigh,
      hctlHigh, BitVec.or_zero, widened_truncated v (n := 10) (m := 0x3FF#64) rfl]

/-- 13 R342: a store of bit 22 of counter 0, with bit 23 clear, clears the counters and the overflow bits. -/
theorem zBox_cleared (u : Uncore) {v : Word} {b : Nat} (hb : b < 2) (h22 : v.getLsbD 22 = true) (h23 : v.getLsbD 23 = false) :
    (∀ j, j < 5 → csrValue (csrUpdate u v (.zCtl b 0)) (.zCnt b j) = 0#64)
    ∧ csrValue (csrUpdate u v (.zCtl b 0)) (.zStatus b) = csrValue u (.zStatus b) &&& 0x80000000#64 := by
  have hz : (csrUpdate u v (.zCtl b 0)).z b = { u.z b with
      ctl := (u.z b).ctl.setIfInBounds 0 (v.setWidth 10), cnt := .replicate 5 0#40, ov := 0#5, stopped := 0#5 } := by
    rw [csrUpdate, z_setZ u _ hb]
    simp only [writeZCtl, h22, h23]
    rfl
  refine ⟨fun j hj => ?_, ?_⟩
  · simp only [csrValue, hz, getD_replicate _ _ hj]; rfl
  · have hov : (u.z b).ov.setWidth 64 &&& 0x80000000#64 = 0#64 := by
      rw [← widened_and, show (0x80000000#64).setWidth 5 = 0#5 from rfl, BitVec.and_zero]; rfl
    have hf : (ofBool (u.z b).frozen <<< 31) &&& 0x80000000#64 = ofBool (u.z b).frozen <<< 31 := by
      cases (u.z b).frozen <;> rfl
    simp only [csrValue, hz, BitVec.and_or_distrib_right, hov, hf]
    rfl

/-- 12 R262: a store to `B_CSR_PERF_CTL3` clears bits 20:11 of the IOB register. -/
theorem bIob_cleared (u : Uncore) (v : Word) {b : Nat} (hb : b < 2) :
    csrValue (csrUpdate u v (.bCtl3 b)) (.bIob b) = csrValue u (.bIob b) &&& ~~~0x1FF800#64 := by
  simp only [csrUpdate, csrValue, b_setB u _ hb]
  exact widened_and _ (~~~0x1FF800#64)

/-- The field `z_op` of a control register, and of a word. -/
theorem zop_widened (w : Word) : ((w.setWidth 44 >>> 21).setWidth 16).setWidth 64 = (w >>> 21) &&& 0xFFFF#64 := by
  have hfield : (w.setWidth 44 >>> 21).setWidth 16 = (w >>> 21).setWidth 16 := by
    apply BitVec.eq_of_getLsbD_eq
    intro i hi
    simp [hi, show 21 + i < 44 by omega]
  rw [hfield]
  exact widened_truncated _ rfl

theorem widened_inj {n : Nat} (hn : n ≤ 64) {x y : BitVec n} (h : x.setWidth 64 = y.setWidth 64) : x = y := by
  have hback (z : BitVec n) : (z.setWidth 64).setWidth n = z :=
    (BitVec.setWidth_setWidth_of_le z hn).trans (BitVec.setWidth_eq z)
  rw [← hback x, h, hback]

theorem writeBCtl2_bz (x : BBox) (v : Word) : (writeBCtl2 x v).bz =
    if (v.setWidth 44 >>> 21).setWidth 16 = (x.ctl2 >>> 21).setWidth 16 then x.bz else x.bz &&& 0x7F#48 := by
  unfold writeBCtl2
  dsimp only
  split <;> rfl

/-- 12 R256, R263: a store to `B_CSR_PERF_CTL2` that changes `z_op` clears the live state of the BZ register. -/
theorem bBz_kept (u : Uncore) (v : Word) {b : Nat} (hb : b < 2) :
    csrValue (csrUpdate u v (.bCtl2 b)) (.bBz b) = csrValue u (.bBz b) &&&
      (if (v >>> 21) &&& 0xFFFF#64 = (csrValue u (.bCtl2 b) >>> 21) &&& 0xFFFF#64 then ~~~0#64 else 0x7F#64) := by
  have hwide : ((u.b b).ctl2.setWidth 64).setWidth 44 = (u.b b).ctl2 :=
    (BitVec.setWidth_setWidth_of_le _ (by decide)).trans (BitVec.setWidth_eq _)
  have hzop : (v.setWidth 44 >>> 21).setWidth 16 = ((u.b b).ctl2 >>> 21).setWidth 16
      ↔ (v >>> 21) &&& 0xFFFF#64 = (csrValue u (.bCtl2 b) >>> 21) &&& 0xFFFF#64 := by
    rw [← zop_widened, ← zop_widened, csrValue, hwide]
    exact ⟨congrArg _, widened_inj (by decide)⟩
  have hbz : csrValue (csrUpdate u v (.bCtl2 b)) (.bBz b) = (writeBCtl2 (u.b b) v).bz.setWidth 64 := by
    rw [csrUpdate, csrValue, b_setB u _ hb]
  rw [hbz, writeBCtl2_bz]
  by_cases hz : (v >>> 21) &&& 0xFFFF#64 = (csrValue u (.bCtl2 b) >>> 21) &&& 0xFFFF#64
  · rw [if_pos (hzop.2 hz), if_pos hz]; exact (BitVec.and_allOnes).symm
  · rw [if_neg fun e => hz (hzop.1 e), if_neg hz]; exact widened_and (u.b b).bz 0x7F#64

/-! ## The D-Box freezes every box -/

theorem setFrozen_z (u : Uncore) (f : Bool) {b : Nat} (hb : b < 2) : ((u.setFrozen f).z b).frozen = f := by
  simp [Uncore.setFrozen, Uncore.z, Vector.getD, hb]

theorem setFrozen_b (u : Uncore) (f : Bool) {b : Nat} (hb : b < 2) : ((u.setFrozen f).b b).ctl0.getLsbD 32 = f := by
  cases f <;> simp [Uncore.setFrozen, Uncore.b, Vector.getD, hb]

/-- 12 R247: a store that sets the freeze bit, and only it, freezes every box. -/
theorem dbx_freezes (u : Uncore) {v : Word} (h6 : u.dbx.getLsbD 6 = false) (h7 : u.dbx.getLsbD 7 = false) (f : Bool)
    (hf : v.getLsbD 6 = f) (hr : v.getLsbD 7 = !f) : ∃ d, csrUpdate u v .dbxMisc = { u.setFrozen f with dbx := d } := by
  have hbit (i : Nat) (hi : i < 14) (hm : (0x3FC3#14).getLsbD i = true) :
      (v.setWidth 14 &&& 0x3FC3#14).getLsbD i = v.getLsbD i := by
    rw [BitVec.getLsbD_and, hm, Bool.and_true, BitVec.getLsbD_setWidth, decide_eq_true hi, Bool.true_and]
  refine ⟨v.setWidth 14 &&& 0x3FC3#14, ?_⟩
  cases f <;>
    simp [csrUpdate, writeDbx, hbit 6 (by decide) (by decide), hbit 7 (by decide) (by decide), hf, hr, h6, h7,
      -BitVec.getLsbD_eq_getElem]

end Sys2Proof.Machine
end

