-- ==== Sys2Proof/Proofs/UncoreAccesses.lean ====
section
/-!
Loads and stores of the uncore registers (20 R430, R431): the registers a socket has, what an access to one reads and leaves, and what
it is refused.
-/

namespace Sys2Proof.Machine

open Sys2Proof.Config

/-! ## An access to a register -/

/-- An aligned access of 8 bytes at an uncacheable physical address of the aperture, with translation and breakpoints off. -/
structure RegisterAccess (s : State) (va : Word) (pa : Nat) : Prop where
  physical : s.lp.psrBit 17 = false
  noBreak : s.lp.psrBit 24 = false
  uncached : va.getLsbD 63 = true
  place : pa = va.toNat % 2 ^ 63
  implemented : pa < 2 ^ s.params.paBits
  aligned : pa % 8 = 0
  aperture : inAperture pa = true

section
variable {s : State} {va : Word} {pa : Nat}

/-- No fault stops an access to a register. -/
theorem RegisterAccess.dataAccess {k : AccessKind} (h : RegisterAccess s va pa) (hk : s.lp.translates k = s.lp.psrBit 17) :
    dataAccess s k va 8 false = .ok (pa, .uc) := by
  obtain ⟨h17, h24, h63, rfl, himp, hal, -⟩ := h
  have ht := translateAddr_physical (hk.trans h17) himp
  rw [if_pos h63] at ht
  have hva : va.toNat % 8 = 0 := by omega
  rw [dataAccess_aligned_iff ht h24, alignOk_aligned s k .uc hva, if_pos rfl]

theorem RegisterAccess.toNat_ofNat (h : RegisterAccess s va pa) : (BitVec.ofNat 64 pa).toNat = pa := by
  have hlt : pa < 2 ^ 63 := by rw [h.place]; exact Nat.mod_lt _ (by decide)
  exact Nat.mod_eq_of_lt (hlt.trans (by decide))

/-- 20 R431: an access of 8 aligned bytes is one to a register. -/
theorem RegisterAccess.guard (h : RegisterAccess s va pa) :
    (decide (MemAttr.uc = .uc) && (8 : Nat) == 8 && pa % 8 == 0) = true := by
  simp [h.aligned]

theorem csrPlace_there {c : Csr} {u : Uncore} (h : RegisterAccess s va pa) (hc : csrAt pa = .ok c)
    (hu : s.uncoreOf (csrSocket s.params pa) = some u) : csrPlace s pa .uc 8 = .ok (c, u) := by
  rw [csrPlace, if_pos h.guard, hc]
  generalize csrSocket s.params pa = k at hu ⊢
  simp only [ofRefusal, ok_bind, hu]
  rfl

theorem csrPlace_absent {c : Csr} (h : RegisterAccess s va pa) (hc : csrAt pa = .ok c)
    (hu : s.uncoreOf (csrSocket s.params pa) = none) :
    csrPlace s pa .uc 8 = .error (.refuse (.csrOtherSocket (csrWindow pa))) := by
  rw [csrPlace, if_pos h.guard, hc]
  generalize csrSocket s.params pa = k at hu ⊢
  simp only [ofRefusal, ok_bind, hu]

/-- 20 R431: a load of a register gives its value and numbers the next free one. -/
theorem load_register {c : Csr} {u : Uncore} (h : RegisterAccess s va pa) (hc : csrAt pa = .ok c)
    (hu : s.uncoreOf (csrSocket s.params pa) = some u) :
    load s false va 8 false = .ok ((csrReadValue u s.free c).toNat, pa,
      ({ s with free := s.free + 1 } : State).noteData .load false va 8 .uc none) := by
  have hr : readAt s s.bigData pa .uc 8 = .ok ((csrReadValue u s.free c).toNat, { s with free := s.free + 1 }) := by
    rw [readAt, if_pos h.aperture, csrPlace_there h hc hu]; rfl
  rw [load, h.dataAccess rfl]
  simp only [orRaise, ok_bind, hr]
  rfl

theorem load_absent {c : Csr} (h : RegisterAccess s va pa) (hc : csrAt pa = .ok c)
    (hu : s.uncoreOf (csrSocket s.params pa) = none) :
    load s false va 8 false = .error (.refuse (.csrOtherSocket (csrWindow pa))) := by
  have hr : readAt s s.bigData pa .uc 8 = .error (.refuse (.csrOtherSocket (csrWindow pa))) := by
    rw [readAt, if_pos h.aperture, csrPlace_absent h hc hu]; rfl
  rw [load, h.dataAccess rfl]
  simp only [orRaise, ok_bind, hr]
  rfl

/-- 20 R431: a store to a register is what the register's rule says of its write. -/
theorem store_register {c : Csr} {u : Uncore} (w : Word) (h : RegisterAccess s va pa) (hc : csrAt pa = .ok c)
    (hu : s.uncoreOf (csrSocket s.params pa) = some u) :
    store s false va 8 w.toNat false = (ofRefusal (csrWriteValue u pa w c)).map fun v =>
      (((s.dropAlat pa 8).setUncoreOf v (csrSocket s.params pa)).noteData .store false va 8 .uc none) := by
  have hw : writeAt s s.bigData pa .uc 8 w.toNat = (ofRefusal (csrWriteValue u pa w c)).map fun v =>
      (s.dropAlat pa 8).setUncoreOf v (csrSocket s.params pa) := by
    rw [writeAt, if_pos h.aperture, csrPlace_there h hc hu, BitVec.ofNat_toNat, BitVec.setWidth_eq]
    simp only [ok_bind]
    cases csrWriteValue u pa w c <;> rfl
  rw [store, h.dataAccess rfl]
  simp only [orRaise, ok_bind, hw]
  cases csrWriteValue u pa w c <;> rfl

theorem store_written {c : Csr} {u v : Uncore} {w : Word} (h : RegisterAccess s va pa) (hc : csrAt pa = .ok c)
    (hu : s.uncoreOf (csrSocket s.params pa) = some u) (hv : csrWriteValue u pa w c = .ok v) :
    store s false va 8 w.toNat false =
      .ok (((s.dropAlat pa 8).setUncoreOf v (csrSocket s.params pa)).noteData .store false va 8 .uc none) := by
  rw [store_register w h hc hu, hv]; rfl

end

/-! ## The instructions -/

theorem predicated_refuse {qp : BitVec 6} {s : State} {body : Ans State} {r : Refusal} (hq : s.lp.readPr qp = true)
    (hb : body = .error (.refuse r)) : predicated qp s body = .refused r := by
  rw [predicated, if_pos hq, hb]; rfl

section
variable {s : State} {qp : BitVec 6} {r1 r2 r3 : BitVec 7} {pa : Nat} {c : Csr}

/-- A plain load without post-increment is its access and the write of its register. -/
theorem loadInt_eq {n : Nat} (h1 : s.lp.grWritable r1 = true) (h3 : Usable s r3) : loadInt {} n false qp r1 r3 .none s
    = predicated qp s ((load s false (s.lp.gr? r3).val n false).map fun p =>
        p.2.2.setGr r1 ⟨BitVec.ofNat 64 p.1, false⟩) := by
  unfold loadInt
  simp only [checkGr_ok h1, checkBase_ok (incOk_none s r3), neq_of_distinct (s := s) (r1 := r1) (inc := .none) nofun,
    require_true, readGr_ok h3.1, inc_value (incOk_none s r3), ok_bind, loadForm, h3.2]
  cases load s false (s.lp.gr? r3).val n false <;> rfl

/-- A plain store without post-increment is its access. -/
theorem storeInt_eq {n : Nat} (h3 : Usable s r3) (h2 : Usable s r2) : storeInt n false qp r3 r2 .none s
    = predicated qp s (store s false (s.lp.gr? r3).val n (s.lp.gr? r2).val.toNat false) := by
  unfold storeInt
  simp only [checkBase_ok (incOk_none s r3), readGr_ok h3.1, readGr_ok h2.1, inc_value (incOk_none s r3), ok_bind, h3.2,
    h2.2, Bool.not_false, Bool.or_true, Bool.and_self, require_true]
  cases store s false (s.lp.gr? r3).val n (s.lp.gr? r2).val.toNat false <;> rfl

theorem loadInt_absent (hq : s.lp.readPr qp = true) (h1 : s.lp.grWritable r1 = true) (h3 : Usable s r3)
    (h : RegisterAccess s (s.lp.gr? r3).val pa) (hc : csrAt pa = .ok c) (hu : s.uncoreOf (csrSocket s.params pa) = none) :
    loadInt {} 8 false qp r1 r3 .none s = .refused (.csrOtherSocket (csrWindow pa)) := by
  rw [loadInt_eq h1 h3, load_absent h hc hu]
  exact predicated_refuse hq rfl

/-- 20 R431: a load of a register writes its value, with the undescribed bits free, and nothing else. -/
theorem loadInt_register {u : Uncore} (hq : s.lp.readPr qp = true) (h1 : s.lp.grWritable r1 = true) (h3 : Usable s r3)
    (hun : Untrapped s) (h : RegisterAccess s (s.lp.gr? r3).val pa) (hc : csrAt pa = .ok c)
    (hu : s.uncoreOf (csrSocket s.params pa) = some u) :
    ∃ t, loadInt {} 8 false qp r1 r3 .none s = .next t
      ∧ (∃ w, t.lp.gr? r1 = ⟨csrValue u c ||| (w &&& csrUndescribed c), false⟩)
      ∧ OtherGrs s t [s.lp.grPlace r1.toNat] ∧ Passed s s t ∧ OnlyGrs s t := by
  let s1 := ({ s with free := s.free + 1 } : State).noteData .load false (s.lp.gr? r3).val 8 .uc none
  have hseen : Seen s s1 := rfl
  obtain ⟨hgr, -, hother, hpass, honly, -⟩ :=
    written_facts ⟨csrReadValue u s.free c, false⟩ hseen h1 (incOk_none s r3) nofun
  have hbody : (load s false (s.lp.gr? r3).val 8 false).map (fun p => p.2.2.setGr r1 ⟨BitVec.ofNat 64 p.1, false⟩)
      = .ok (s1.setGr r1 ⟨csrReadValue u s.free c, false⟩) := by
    rw [load_register h hc hu, map_ok, BitVec.ofNat_toNat, BitVec.setWidth_eq]
  rw [loadInt_eq h1 h3]
  refine ⟨_, predicated_ok hq hbody hun ?_ ?_, ⟨freeWord s.free, hgr⟩, hother, hpass, honly⟩
  · rw [LP.psrBit, setGr_lp_psr]; rfl
  · rw [setGr_params]; rfl

theorem storeInt_refused {u : Uncore} {r : Refusal} (hq : s.lp.readPr qp = true) (h3 : Usable s r3) (h2 : Usable s r2)
    (h : RegisterAccess s (s.lp.gr? r3).val pa) (hc : csrAt pa = .ok c) (hu : s.uncoreOf (csrSocket s.params pa) = some u)
    (hr : csrWriteValue u pa (s.lp.gr? r2).val c = .error r) : storeInt 8 false qp r3 r2 .none s = .refused r := by
  rw [storeInt_eq h3 h2]
  refine predicated_refuse hq ?_
  rw [store_register _ h hc hu, hr]; rfl

/-- What a store of uncore registers leaves. -/
theorem uncore_stored {v : Uncore} {k : Option Nat} {va a : Word} {body : Ans State} (hq : s.lp.readPr qp = true)
    (hun : Untrapped s)
    (hb : body = .ok (((s.dropAlat a.toNat 8).setUncoreOf v k).noteData .store false va 8 .uc none)) :
    ∃ t, predicated qp s body = .next t ∧ Passed s s t ∧ AlatsAfterStore s t a 8
      ∧ t = { s.setUncoreOf v k with
          lp := { s.lp with alat := t.lp.alat, ev := t.lp.ev, ip := t.lp.ip, lastIp := t.lp.lastIp, psr := t.lp.psr }
          bg := t.bg } := by
  have hpsr : ((s.dropAlat a.toNat 8).setUncoreOf v k).lp.psr = s.lp.psr := by cases k <;> rfl
  have hparams : ((s.dropAlat a.toNat 8).setUncoreOf v k).params = s.params := by cases k <;> rfl
  refine ⟨_, predicated_ok hq hb hun (congrArg (·.getLsbD 36) hpsr) hparams, passed_of hpsr, ?_, ?_⟩
  · cases k <;> exact ⟨rfl, rfl⟩
  · cases k <;> rfl

/-- 20 R431: a store to a register writes the registers of its socket and removes the ALAT entries it overlaps. -/
theorem storeInt_register {u v : Uncore} (hq : s.lp.readPr qp = true) (h3 : Usable s r3) (h2 : Usable s r2)
    (hun : Untrapped s) (h : RegisterAccess s (s.lp.gr? r3).val pa) (hc : csrAt pa = .ok c)
    (hu : s.uncoreOf (csrSocket s.params pa) = some u) (hv : csrWriteValue u pa (s.lp.gr? r2).val c = .ok v) :
    ∃ t, storeInt 8 false qp r3 r2 .none s = .next t ∧ Passed s s t ∧ AlatsAfterStore s t (BitVec.ofNat 64 pa) 8
      ∧ t = { s.setUncoreOf v (csrSocket s.params pa) with
          lp := { s.lp with alat := t.lp.alat, ev := t.lp.ev, ip := t.lp.ip, lastIp := t.lp.lastIp, psr := t.lp.psr }
          bg := t.bg } := by
  rw [storeInt_eq h3 h2]
  exact uncore_stored hq hun (by rw [h.toNat_ofNat]; exact store_written h hc hu hv)

end

/-! ## What a write is refused -/

/-- 12 R247, 13 R305, R341: a store may not freeze and unfreeze a box at once. -/
theorem csrFreezeConflict_iff (u : Uncore) (v : Word) (c : Csr) : csrFreezeConflict u v c = true ↔
    (c = .dbxMisc ∧ v.getLsbD 6 = true ∧ v.getLsbD 7 = true ∧ u.dbx.getLsbD 6 = false ∧ u.dbx.getLsbD 7 = false)
    ∨ (c = .rGblCfg ∧ v.getLsbD 11 = true ∧ v.getLsbD 9 = true)
    ∨ (∃ b, c = .zStatus b ∧ v.getLsbD 31 = true ∧ v.getLsbD 30 = true) := by
  cases c with
  | dbxMisc | rGblCfg | zStatus b => simp [csrFreezeConflict, and_assoc, -BitVec.getLsbD_eq_getElem]
  | _ => simp [csrFreezeConflict]

/-- Settles O43: the accesses to the registers, their places, and what a store of each leaves. -/
theorem uncoreRegisters : Obligations.UncoreRegisters := by
  refine ⟨fun o s pa c hq h1 h3 hun h17 h24 h63 hpa himp hal hap hc => ?_,
    fun o s pa c u hq h2 h3 hun h17 h24 h63 hpa himp hal hap hc hu => ?_,
    fun s v k => ⟨rfl, rfl, rfl, rfl⟩, fun c w => csrAt_csrOffset, fun pa c => csrAt_standsAt, fun pa e => csrAt_error,
    fun p k r hk hr => ⟨csrSocket_own p hr, csrSocket_numbered p hk hr⟩,
    fun u pa v c => ⟨rfl, csrFreezeConflict_iff u v c⟩,
    fun u v m c hc => ⟨csrValue_replaced u v hc, csrValue_merged u v hc⟩,
    fun u v b i => ⟨rGblCfg_written u v, fun h j => rCnt_cleared u h, rCnt_kept u, zStatus_written u v, zCtl_written u v,
      zBox_cleared u, bIob_cleared u v, bBz_kept u v, fun h6 h7 hf hr => ?_, fun h6 h7 hf hr => ?_⟩⟩
  · have h : RegisterAccess s _ pa := ⟨h17, h24, h63, hpa, himp, hal, hap⟩
    exact ⟨loadInt_absent hq h1 h3 h hc, fun u => loadInt_register hq h1 h3 hun h hc⟩
  · have h : RegisterAccess s _ pa := ⟨h17, h24, h63, hpa, himp, hal, hap⟩
    exact ⟨fun r => storeInt_refused hq h3 h2 h hc hu, fun v => storeInt_register hq h3 h2 hun h hc hu⟩
  · obtain ⟨d, hd⟩ := dbx_freezes u h6 h7 true hf hr
    rw [hd]; exact ⟨rfl, fun hb => ⟨setFrozen_z u true hb, setFrozen_b u true hb⟩⟩
  · obtain ⟨d, hd⟩ := dbx_freezes u h6 h7 false hf hr
    rw [hd]; exact ⟨rfl, fun hb => ⟨setFrozen_z u false hb, setFrozen_b u false hb⟩⟩

end Sys2Proof.Machine
end

