-- ==== Sys2Proof/Proofs/SlotFields.lean ====
section
/-!
The fields of a slot (30 R450, R452): a field that was put is read back, fields that lie apart do not touch each other, and every
operand layout reads back what it has put beside any bits outside it.
-/

namespace Sys2Proof

/-! ## Fields of a slot -/

/-- Bits `f + len - 1` to `f` of an operand: what `slotPut` puts in a slot. -/
def operandPart {n : Nat} (x : BitVec n) (f len : Nat) : BitVec len := (x >>> f).setWidth len

theorem getLsbD_slotField (w : Slot) (lo n i : Nat) :
    (slotField w lo n).getLsbD i = (decide (i < n) && w.getLsbD (lo + i)) := by
  simp [slotField, -BitVec.getLsbD_eq_getElem]

theorem getLsbD_slotPut {n : Nat} (x : BitVec n) (f len lo i : Nat) : (slotPut x f len lo).getLsbD i
    = (decide (i < 41) && decide (lo ≤ i) && decide (i - lo < len) && x.getLsbD (f + (i - lo))) := by
  simp only [slotPut, BitVec.getLsbD_shiftLeft, BitVec.getLsbD_setWidth, BitVec.getLsbD_ushiftRight]
  rcases Nat.lt_or_ge i lo with h | h
  · simp [h, Nat.not_le.mpr h]
  rcases Nat.lt_or_ge i 41 with h' | h'
  · simp [h, h', Nat.not_lt.mpr h, show i - lo < 41 by omega, -BitVec.getLsbD_eq_getElem]
  · simp [Nat.not_lt.mpr h']

@[simp] theorem slotField_or (v w : Slot) (lo n : Nat) :
    slotField (v ||| w) lo n = slotField v lo n ||| slotField w lo n := by
  simp [slotField, BitVec.ushiftRight_or_distrib]

@[simp] theorem slotField_slotPut_same {n : Nat} (x : BitVec n) (f : Nat) {len lo : Nat} (h : lo + len ≤ 41) :
    slotField (slotPut x f len lo) lo len = operandPart x f len := by
  apply BitVec.eq_of_getLsbD_eq
  intro i hi
  simp [getLsbD_slotField, getLsbD_slotPut, operandPart, hi, show lo + i < 41 by omega, -BitVec.getLsbD_eq_getElem]

@[simp] theorem slotField_slotPut_apart {n : Nat} (x : BitVec n) (f : Nat) {len lo lo' n' : Nat}
    (h : lo + len ≤ lo' ∨ lo' + n' ≤ lo) : slotField (slotPut x f len lo) lo' n' = 0#n' := by
  apply BitVec.eq_of_getLsbD_eq
  intro i hi
  simp only [getLsbD_slotField, getLsbD_slotPut, BitVec.getLsbD_zero, Bool.and_eq_false_iff, decide_eq_false_iff_not]
  omega

/-- A field of a slot that has none of the bits of a layout. -/
theorem slotField_off {v bits : Slot} {lo n : Nat} (h : v &&& bits = 0#41)
    (hb : slotField bits lo n = BitVec.allOnes n) : slotField v lo n = 0#n := by
  have hz : slotField (v &&& bits) lo n = slotField v lo n &&& slotField bits lo n := by
    simp [slotField, BitVec.ushiftRight_and_distrib]
  rw [h, hb, BitVec.and_allOnes] at hz
  rw [← hz]; simp [slotField]

/-- An operand put within a layout has no bit of a slot that has none of the layout's. -/
theorem slotPut_and_off {n : Nat} (x : BitVec n) (f : Nat) {m bits : Slot} {len lo : Nat} (h : m &&& bits = 0#41)
    (hb : slotField bits lo len = BitVec.allOnes len) : slotPut x f len lo &&& m = 0#41 := by
  apply BitVec.eq_of_getLsbD_eq
  intro i hi
  have hm := congrArg (·.getLsbD (i - lo)) (slotField_off h hb)
  simp only [getLsbD_slotField, BitVec.getLsbD_zero, Bool.and_eq_false_iff, decide_eq_false_iff_not] at hm
  simp only [BitVec.getLsbD_and, getLsbD_slotPut, BitVec.getLsbD_zero, Bool.and_eq_false_iff, decide_eq_false_iff_not]
  by_cases hlo : lo ≤ i
  · rw [show lo + (i - lo) = i by omega] at hm
    tauto
  · tauto

theorem slot_or_and (a b m : Slot) : (a ||| b) &&& m = a &&& m ||| b &&& m := by
  ext i hi; simp [Bool.and_or_distrib_right]

@[simp] theorem slot_or_and_eq_zero {a b m : Slot} : (a ||| b) &&& m = 0#41 ↔ a &&& m = 0#41 ∧ b &&& m = 0#41 := by
  rw [slot_or_and, BitVec.or_eq_zero_iff]

/-- Two parts that lie side by side are one. -/
@[simp] theorem operandPart_append {n : Nat} (x : BitVec n) {f g len m : Nat} (h : f = g + len) :
    operandPart x f m ++ operandPart x g len = operandPart x g (m + len) := by
  subst h
  apply BitVec.eq_of_getLsbD_eq
  intro i hi
  simp only [BitVec.getLsbD_append, operandPart, BitVec.getLsbD_setWidth, BitVec.getLsbD_ushiftRight]
  by_cases h : i < len
  · simp [h, show i < m + len by omega]
  · simp [h, show i - len < m by omega, show g + len + (i - len) = g + i by omega, hi]

@[simp] theorem operandPart_all {n : Nat} (x : BitVec n) : operandPart x 0 n = x := by simp [operandPart]

/-! ## Layouts -/

/-- A slot holds the operands `o` in the bits of a layout: no other bit is set, and beside any other bits `dec` reads `o` back.
`l` is the L slot. -/
structure SlotHolds {α : Type} (dec : Slot → Slot → α) (o : α) (w l bits : Slot) : Prop where
  within : ∀ m : Slot, m &&& bits = 0#41 → w &&& m = 0#41
  reads : ∀ v : Slot, v &&& bits = 0#41 → dec (v ||| w) l = o

/-! One lemma per layout; its bits are those that the rows with this layout name as covered. An immediate joined of several fields
is read back by `operandPart_append`, whose widths are sums. -/

theorem OpA1.enc_holds (o : OpA1) : SlotHolds (fun w _ => OpA1.dec w) o o.enc 0#41 0x7ffffff#41 where
  within m h := by simp (disch := decide) [OpA1.enc, slotPut_and_off _ _ h]
  reads v h := by simp (disch := decide) [OpA1.dec, OpA1.enc, slotField_off h]
theorem OpA2.enc_holds (o : OpA2) : SlotHolds (fun w _ => OpA2.dec w) o o.enc 0#41 0x1fffffff#41 where
  within m h := by simp (disch := decide) [OpA2.enc, slotPut_and_off _ _ h]
  reads v h := by simp (disch := decide) [OpA2.dec, OpA2.enc, slotField_off h]
theorem OpA3.enc_holds (o : OpA3) : SlotHolds (fun w _ => OpA3.dec w) o o.enc 0#41 0x1007ffffff#41 where
  within m h := by simp (disch := decide) [OpA3.enc, slotPut_and_off _ _ h]
  reads v h := by simp (disch := decide) [OpA3.dec, OpA3.enc, slotField_off h, -Nat.reduceAdd]
theorem OpA4.enc_holds (o : OpA4) : SlotHolds (fun w _ => OpA4.dec w) o o.enc 0#41 0x11ffffffff#41 where
  within m h := by simp (disch := decide) [OpA4.enc, slotPut_and_off _ _ h]
  reads v h := by simp (disch := decide) [OpA4.dec, OpA4.enc, slotField_off h, -Nat.reduceAdd]
theorem OpA5.enc_holds (o : OpA5) : SlotHolds (fun w _ => OpA5.dec w) o o.enc 0#41 0x1fffffffff#41 where
  within m h := by simp (disch := decide) [OpA5.enc, slotPut_and_off _ _ h]
  reads v h := by simp (disch := decide) [OpA5.dec, OpA5.enc, slotField_off h, -Nat.reduceAdd]
theorem OpA6.enc_holds (o : OpA6) : SlotHolds (fun w _ => OpA6.dec w) o o.enc 0#41 0x1ffffefff#41 where
  within m h := by simp (disch := decide) [OpA6.enc, slotPut_and_off _ _ h]
  reads v h := by simp (disch := decide) [OpA6.dec, OpA6.enc, slotField_off h]
theorem OpA7.enc_holds (o : OpA7) : SlotHolds (fun w _ => OpA7.dec w) o o.enc 0#41 0x1fff00fff#41 where
  within m h := by simp (disch := decide) [OpA7.enc, slotPut_and_off _ _ h]
  reads v h := by simp (disch := decide) [OpA7.dec, OpA7.enc, slotField_off h]
theorem OpA8.enc_holds (o : OpA8) : SlotHolds (fun w _ => OpA8.dec w) o o.enc 0#41 0x11ffffefff#41 where
  within m h := by simp (disch := decide) [OpA8.enc, slotPut_and_off _ _ h]
  reads v h := by simp (disch := decide) [OpA8.dec, OpA8.enc, slotField_off h, -Nat.reduceAdd]
theorem OpI10.enc_holds (o : OpI10) : SlotHolds (fun w _ => OpI10.dec w) o o.enc 0#41 0x1ffffffff#41 where
  within m h := by simp (disch := decide) [OpI10.enc, slotPut_and_off _ _ h]
  reads v h := by simp (disch := decide) [OpI10.dec, OpI10.enc, slotField_off h]
theorem OpI11.enc_holds (o : OpI11) : SlotHolds (fun w _ => OpI11.dec w) o o.enc 0#41 0x1ffffdfff#41 where
  within m h := by simp (disch := decide) [OpI11.enc, slotPut_and_off _ _ h]
  reads v h := by simp (disch := decide) [OpI11.dec, OpI11.enc, slotField_off h]
theorem OpI12.enc_holds (o : OpI12) : SlotHolds (fun w _ => OpI12.dec w) o o.enc 0#41 0x1fbffffff#41 where
  within m h := by simp (disch := decide) [OpI12.enc, slotPut_and_off _ _ h]
  reads v h := by simp (disch := decide) [OpI12.dec, OpI12.enc, slotField_off h]
theorem OpI13.enc_holds (o : OpI13) : SlotHolds (fun w _ => OpI13.dec w) o o.enc 0#41 0x11fbffffff#41 where
  within m h := by simp (disch := decide) [OpI13.enc, slotPut_and_off _ _ h]
  reads v h := by simp (disch := decide) [OpI13.dec, OpI13.enc, slotField_off h, -Nat.reduceAdd]
theorem OpI14.enc_holds (o : OpI14) : SlotHolds (fun w _ => OpI14.dec w) o o.enc 0#41 0x11ffffdfff#41 where
  within m h := by simp (disch := decide) [OpI14.enc, slotPut_and_off _ _ h]
  reads v h := by simp (disch := decide) [OpI14.dec, OpI14.enc, slotField_off h]
theorem OpI15.enc_holds (o : OpI15) : SlotHolds (fun w _ => OpI15.dec w) o o.enc 0#41 0x1fffffffff#41 where
  within m h := by simp (disch := decide) [OpI15.enc, slotPut_and_off _ _ h]
  reads v h := by simp (disch := decide) [OpI15.dec, OpI15.enc, slotField_off h]
theorem OpI16.enc_holds (o : OpI16) : SlotHolds (fun w _ => OpI16.dec w) o o.enc 0#41 0x1ffffcfff#41 where
  within m h := by simp (disch := decide) [OpI16.enc, slotPut_and_off _ _ h]
  reads v h := by simp (disch := decide) [OpI16.dec, OpI16.enc, slotField_off h]
theorem OpI19.enc_holds (o : OpI19) : SlotHolds (fun w _ => OpI19.dec w) o o.enc 0#41 0x1003ffffff#41 where
  within m h := by simp (disch := decide) [OpI19.enc, slotPut_and_off _ _ h]
  reads v h := by simp (disch := decide) [OpI19.dec, OpI19.enc, slotField_off h, -Nat.reduceAdd]
theorem OpI20.enc_holds (o : OpI20) : SlotHolds (fun w _ => OpI20.dec w) o o.enc 0#41 0x11ffffffff#41 where
  within m h := by simp (disch := decide) [OpI20.enc, slotPut_and_off _ _ h]
  reads v h := by simp (disch := decide) [OpI20.dec, OpI20.enc, slotField_off h, -Nat.reduceAdd]
theorem OpI21.enc_holds (o : OpI21) : SlotHolds (fun w _ => OpI21.dec w) o o.enc 0#41 0x1ffbfe1ff#41 where
  within m h := by simp (disch := decide) [OpI21.enc, slotPut_and_off _ _ h]
  reads v h := by simp (disch := decide) [OpI21.dec, OpI21.enc, slotField_off h]
theorem OpI22.enc_holds (o : OpI22) : SlotHolds (fun w _ => OpI22.dec w) o o.enc 0#41 0xffff#41 where
  within m h := by simp (disch := decide) [OpI22.enc, slotPut_and_off _ _ h]
  reads v h := by simp (disch := decide) [OpI22.dec, OpI22.enc, slotField_off h]
theorem OpI23.enc_holds (o : OpI23) : SlotHolds (fun w _ => OpI23.dec w) o o.enc 0#41 0x10ff0fffff#41 where
  within m h := by simp (disch := decide) [OpI23.enc, slotPut_and_off _ _ h]
  reads v h := by simp (disch := decide) [OpI23.dec, OpI23.enc, slotField_off h, -Nat.reduceAdd]
theorem OpI24.enc_holds (o : OpI24) : SlotHolds (fun w _ => OpI24.dec w) o o.enc 0#41 0x11ffffffff#41 where
  within m h := by simp (disch := decide) [OpI24.enc, slotPut_and_off _ _ h]
  reads v h := by simp (disch := decide) [OpI24.dec, OpI24.enc, slotField_off h, -Nat.reduceAdd]
theorem OpI25.enc_holds (o : OpI25) : SlotHolds (fun w _ => OpI25.dec w) o o.enc 0#41 0x1fff#41 where
  within m h := by simp (disch := decide) [OpI25.enc, slotPut_and_off _ _ h]
  reads v h := by simp (disch := decide) [OpI25.dec, OpI25.enc, slotField_off h]
theorem OpI26.enc_holds (o : OpI26) : SlotHolds (fun w _ => OpI26.dec w) o o.enc 0#41 0x7ffe03f#41 where
  within m h := by simp (disch := decide) [OpI26.enc, slotPut_and_off _ _ h]
  reads v h := by simp (disch := decide) [OpI26.dec, OpI26.enc, slotField_off h]
theorem OpI27.enc_holds (o : OpI27) : SlotHolds (fun w _ => OpI27.dec w) o o.enc 0#41 0x1007ffe03f#41 where
  within m h := by simp (disch := decide) [OpI27.enc, slotPut_and_off _ _ h]
  reads v h := by simp (disch := decide) [OpI27.dec, OpI27.enc, slotField_off h, -Nat.reduceAdd]
theorem OpI28.enc_holds (o : OpI28) : SlotHolds (fun w _ => OpI28.dec w) o o.enc 0#41 0x7f01fff#41 where
  within m h := by simp (disch := decide) [OpI28.enc, slotPut_and_off _ _ h]
  reads v h := by simp (disch := decide) [OpI28.dec, OpI28.enc, slotField_off h]
theorem OpI29.enc_holds (o : OpI29) : SlotHolds (fun w _ => OpI29.dec w) o o.enc 0#41 0x7f01fff#41 where
  within m h := by simp (disch := decide) [OpI29.enc, slotPut_and_off _ _ h]
  reads v h := by simp (disch := decide) [OpI29.dec, OpI29.enc, slotField_off h]
theorem OpM1.enc_holds (o : OpM1) : SlotHolds (fun w _ => OpM1.dec w) o o.enc 0#41 0x37f01fff#41 where
  within m h := by simp (disch := decide) [OpM1.enc, slotPut_and_off _ _ h]
  reads v h := by simp (disch := decide) [OpM1.dec, OpM1.enc, slotField_off h]
theorem OpM2.enc_holds (o : OpM2) : SlotHolds (fun w _ => OpM2.dec w) o o.enc 0#41 0x37ffffff#41 where
  within m h := by simp (disch := decide) [OpM2.enc, slotPut_and_off _ _ h]
  reads v h := by simp (disch := decide) [OpM2.dec, OpM2.enc, slotField_off h]
theorem OpM3.enc_holds (o : OpM3) : SlotHolds (fun w _ => OpM3.dec w) o o.enc 0#41 0x103fffffff#41 where
  within m h := by simp (disch := decide) [OpM3.enc, slotPut_and_off _ _ h]
  reads v h := by simp (disch := decide) [OpM3.dec, OpM3.enc, slotField_off h, -Nat.reduceAdd]
theorem OpM4.enc_holds (o : OpM4) : SlotHolds (fun w _ => OpM4.dec w) o o.enc 0#41 0x37ffe03f#41 where
  within m h := by simp (disch := decide) [OpM4.enc, slotPut_and_off _ _ h]
  reads v h := by simp (disch := decide) [OpM4.dec, OpM4.enc, slotField_off h]
theorem OpM5.enc_holds (o : OpM5) : SlotHolds (fun w _ => OpM5.dec w) o o.enc 0#41 0x103fffffff#41 where
  within m h := by simp (disch := decide) [OpM5.enc, slotPut_and_off _ _ h]
  reads v h := by simp (disch := decide) [OpM5.dec, OpM5.enc, slotField_off h, -Nat.reduceAdd]
theorem OpM6.enc_holds (o : OpM6) : SlotHolds (fun w _ => OpM6.dec w) o o.enc 0#41 0x37f01fff#41 where
  within m h := by simp (disch := decide) [OpM6.enc, slotPut_and_off _ _ h]
  reads v h := by simp (disch := decide) [OpM6.dec, OpM6.enc, slotField_off h]
theorem OpM7.enc_holds (o : OpM7) : SlotHolds (fun w _ => OpM7.dec w) o o.enc 0#41 0x37ffffff#41 where
  within m h := by simp (disch := decide) [OpM7.enc, slotPut_and_off _ _ h]
  reads v h := by simp (disch := decide) [OpM7.dec, OpM7.enc, slotField_off h]
theorem OpM8.enc_holds (o : OpM8) : SlotHolds (fun w _ => OpM8.dec w) o o.enc 0#41 0x103fffffff#41 where
  within m h := by simp (disch := decide) [OpM8.enc, slotPut_and_off _ _ h]
  reads v h := by simp (disch := decide) [OpM8.dec, OpM8.enc, slotField_off h, -Nat.reduceAdd]
theorem OpM9.enc_holds (o : OpM9) : SlotHolds (fun w _ => OpM9.dec w) o o.enc 0#41 0x37ffe03f#41 where
  within m h := by simp (disch := decide) [OpM9.enc, slotPut_and_off _ _ h]
  reads v h := by simp (disch := decide) [OpM9.dec, OpM9.enc, slotField_off h]
theorem OpM10.enc_holds (o : OpM10) : SlotHolds (fun w _ => OpM10.dec w) o o.enc 0#41 0x103fffffff#41 where
  within m h := by simp (disch := decide) [OpM10.enc, slotPut_and_off _ _ h]
  reads v h := by simp (disch := decide) [OpM10.dec, OpM10.enc, slotField_off h, -Nat.reduceAdd]
theorem OpM11.enc_holds (o : OpM11) : SlotHolds (fun w _ => OpM11.dec w) o o.enc 0#41 0x37ffffff#41 where
  within m h := by simp (disch := decide) [OpM11.enc, slotPut_and_off _ _ h]
  reads v h := by simp (disch := decide) [OpM11.dec, OpM11.enc, slotField_off h]
theorem OpM13.enc_holds (o : OpM13) : SlotHolds (fun w _ => OpM13.dec w) o o.enc 0#41 0x37f0003f#41 where
  within m h := by simp (disch := decide) [OpM13.enc, slotPut_and_off _ _ h]
  reads v h := by simp (disch := decide) [OpM13.dec, OpM13.enc, slotField_off h]
theorem OpM15.enc_holds (o : OpM15) : SlotHolds (fun w _ => OpM15.dec w) o o.enc 0#41 0x103fffe03f#41 where
  within m h := by simp (disch := decide) [OpM15.enc, slotPut_and_off _ _ h]
  reads v h := by simp (disch := decide) [OpM15.dec, OpM15.enc, slotField_off h, -Nat.reduceAdd]
theorem OpM17.enc_holds (o : OpM17) : SlotHolds (fun w _ => OpM17.dec w) o o.enc 0#41 0x37f0ffff#41 where
  within m h := by simp (disch := decide) [OpM17.enc, slotPut_and_off _ _ h]
  reads v h := by simp (disch := decide) [OpM17.dec, OpM17.enc, slotField_off h]
theorem OpM18.enc_holds (o : OpM18) : SlotHolds (fun w _ => OpM18.dec w) o o.enc 0#41 0xfffff#41 where
  within m h := by simp (disch := decide) [OpM18.enc, slotPut_and_off _ _ h]
  reads v h := by simp (disch := decide) [OpM18.dec, OpM18.enc, slotField_off h]
theorem OpM19.enc_holds (o : OpM19) : SlotHolds (fun w _ => OpM19.dec w) o o.enc 0#41 0xfffff#41 where
  within m h := by simp (disch := decide) [OpM19.enc, slotPut_and_off _ _ h]
  reads v h := by simp (disch := decide) [OpM19.dec, OpM19.enc, slotField_off h]
theorem OpM21.enc_holds (o : OpM21) : SlotHolds (fun w _ => OpM21.dec w) o o.enc 0#41 0x11ffffffff#41 where
  within m h := by simp (disch := decide) [OpM21.enc, slotPut_and_off _ _ h]
  reads v h := by simp (disch := decide) [OpM21.dec, OpM21.enc, slotField_off h, -Nat.reduceAdd]
theorem OpM22.enc_holds (o : OpM22) : SlotHolds (fun w _ => OpM22.dec w) o o.enc 0#41 0x11ffffffff#41 where
  within m h := by simp (disch := decide) [OpM22.enc, slotPut_and_off _ _ h]
  reads v h := by simp (disch := decide) [OpM22.dec, OpM22.enc, slotField_off h, -Nat.reduceAdd]
theorem OpM23.enc_holds (o : OpM23) : SlotHolds (fun w _ => OpM23.dec w) o o.enc 0#41 0x11ffffffff#41 where
  within m h := by simp (disch := decide) [OpM23.enc, slotPut_and_off _ _ h]
  reads v h := by simp (disch := decide) [OpM23.dec, OpM23.enc, slotField_off h, -Nat.reduceAdd]
theorem OpM24.enc_holds (o : OpM24) : SlotHolds (fun w _ => OpM24.dec w) o o.enc 0#41 0x3f#41 where
  within m h := by simp (disch := decide) [OpM24.enc, slotPut_and_off _ _ h]
  reads v h := by simp (disch := decide) [OpM24.dec, OpM24.enc, slotField_off h]
theorem OpM27.enc_holds (o : OpM27) : SlotHolds (fun w _ => OpM27.dec w) o o.enc 0#41 0x1fff#41 where
  within m h := by simp (disch := decide) [OpM27.enc, slotPut_and_off _ _ h]
  reads v h := by simp (disch := decide) [OpM27.dec, OpM27.enc, slotField_off h]
theorem OpM44.enc_holds (o : OpM44) : SlotHolds (fun w _ => OpM44.dec w) o o.enc 0#41 0x1187ffffff#41 where
  within m h := by simp (disch := decide) [OpM44.enc, slotPut_and_off _ _ h]
  reads v h := by simp (disch := decide) [OpM44.dec, OpM44.enc, slotField_off h, -Nat.reduceAdd]
theorem OpM42.enc_holds (o : OpM42) : SlotHolds (fun w _ => OpM42.dec w) o o.enc 0#41 0x7ffe03f#41 where
  within m h := by simp (disch := decide) [OpM42.enc, slotPut_and_off _ _ h]
  reads v h := by simp (disch := decide) [OpM42.dec, OpM42.enc, slotField_off h]
theorem OpM47.enc_holds (o : OpM47) : SlotHolds (fun w _ => OpM47.dec w) o o.enc 0#41 0x7f0003f#41 where
  within m h := by simp (disch := decide) [OpM47.enc, slotPut_and_off _ _ h]
  reads v h := by simp (disch := decide) [OpM47.dec, OpM47.enc, slotField_off h]
theorem OpM41.enc_holds (o : OpM41) : SlotHolds (fun w _ => OpM41.dec w) o o.enc 0#41 0xfe03f#41 where
  within m h := by simp (disch := decide) [OpM41.enc, slotPut_and_off _ _ h]
  reads v h := by simp (disch := decide) [OpM41.dec, OpM41.enc, slotField_off h]
theorem OpM39.enc_holds (o : OpM39) : SlotHolds (fun w _ => OpM39.dec w) o o.enc 0#41 0x7f07fff#41 where
  within m h := by simp (disch := decide) [OpM39.enc, slotPut_and_off _ _ h]
  reads v h := by simp (disch := decide) [OpM39.dec, OpM39.enc, slotField_off h]
theorem OpM40.enc_holds (o : OpM40) : SlotHolds (fun w _ => OpM40.dec w) o o.enc 0#41 0x7f0603f#41 where
  within m h := by simp (disch := decide) [OpM40.enc, slotPut_and_off _ _ h]
  reads v h := by simp (disch := decide) [OpM40.dec, OpM40.enc, slotField_off h]
theorem OpM33.enc_holds (o : OpM33) : SlotHolds (fun w _ => OpM33.dec w) o o.enc 0#41 0x7f01fff#41 where
  within m h := by simp (disch := decide) [OpM33.enc, slotPut_and_off _ _ h]
  reads v h := by simp (disch := decide) [OpM33.dec, OpM33.enc, slotField_off h]
theorem OpM32.enc_holds (o : OpM32) : SlotHolds (fun w _ => OpM32.dec w) o o.enc 0#41 0x7ffe03f#41 where
  within m h := by simp (disch := decide) [OpM32.enc, slotPut_and_off _ _ h]
  reads v h := by simp (disch := decide) [OpM32.dec, OpM32.enc, slotField_off h]
theorem OpM34.enc_holds (o : OpM34) : SlotHolds (fun w _ => OpM34.dec w) o o.enc 0#41 0x7fffffff#41 where
  within m h := by simp (disch := decide) [OpM34.enc, slotPut_and_off _ _ h]
  reads v h := by simp (disch := decide) [OpM34.dec, OpM34.enc, slotField_off h]
theorem OpB1.enc_holds (o : OpB1) : SlotHolds (fun w _ => OpB1.dec w) o o.enc 0#41 0x1ffffff03f#41 where
  within m h := by simp (disch := decide) [OpB1.enc, slotPut_and_off _ _ h]
  reads v h := by simp (disch := decide) [OpB1.dec, OpB1.enc, slotField_off h, -Nat.reduceAdd]
theorem OpB3.enc_holds (o : OpB3) : SlotHolds (fun w _ => OpB3.dec w) o o.enc 0#41 0x1ffffff1ff#41 where
  within m h := by simp (disch := decide) [OpB3.enc, slotPut_and_off _ _ h]
  reads v h := by simp (disch := decide) [OpB3.dec, OpB3.enc, slotField_off h, -Nat.reduceAdd]
theorem OpB4.enc_holds (o : OpB4) : SlotHolds (fun w _ => OpB4.dec w) o o.enc 0#41 0xe0000f03f#41 where
  within m h := by simp (disch := decide) [OpB4.enc, slotPut_and_off _ _ h]
  reads v h := by simp (disch := decide) [OpB4.dec, OpB4.enc, slotField_off h]
theorem OpB5.enc_holds (o : OpB5) : SlotHolds (fun w _ => OpB5.dec w) o o.enc 0#41 0xf0000f1ff#41 where
  within m h := by simp (disch := decide) [OpB5.enc, slotPut_and_off _ _ h]
  reads v h := by simp (disch := decide) [OpB5.dec, OpB5.enc, slotField_off h]
theorem OpF1.enc_holds (o : OpF1) : SlotHolds (fun w _ => OpF1.dec w) o o.enc 0#41 0xfffffffff#41 where
  within m h := by simp (disch := decide) [OpF1.enc, slotPut_and_off _ _ h]
  reads v h := by simp (disch := decide) [OpF1.dec, OpF1.enc, slotField_off h]
theorem OpF2.enc_holds (o : OpF2) : SlotHolds (fun w _ => OpF2.dec w) o o.enc 0#41 0xfffffffff#41 where
  within m h := by simp (disch := decide) [OpF2.enc, slotPut_and_off _ _ h]
  reads v h := by simp (disch := decide) [OpF2.dec, OpF2.enc, slotField_off h]
theorem OpF3.enc_holds (o : OpF3) : SlotHolds (fun w _ => OpF3.dec w) o o.enc 0#41 0x3ffffffff#41 where
  within m h := by simp (disch := decide) [OpF3.enc, slotPut_and_off _ _ h]
  reads v h := by simp (disch := decide) [OpF3.dec, OpF3.enc, slotField_off h]
theorem OpF4.enc_holds (o : OpF4) : SlotHolds (fun w _ => OpF4.dec w) o o.enc 0#41 0x1fffffffff#41 where
  within m h := by simp (disch := decide) [OpF4.enc, slotPut_and_off _ _ h]
  reads v h := by simp (disch := decide) [OpF4.dec, OpF4.enc, slotField_off h]
theorem OpF5.enc_holds (o : OpF5) : SlotHolds (fun w _ => OpF5.dec w) o o.enc 0#41 0x1f80fffff#41 where
  within m h := by simp (disch := decide) [OpF5.enc, slotPut_and_off _ _ h]
  reads v h := by simp (disch := decide) [OpF5.dec, OpF5.enc, slotField_off h]
theorem OpF6.enc_holds (o : OpF6) : SlotHolds (fun w _ => OpF6.dec w) o o.enc 0#41 0xdffffffff#41 where
  within m h := by simp (disch := decide) [OpF6.enc, slotPut_and_off _ _ h]
  reads v h := by simp (disch := decide) [OpF6.dec, OpF6.enc, slotField_off h]
theorem OpF7.enc_holds (o : OpF7) : SlotHolds (fun w _ => OpF7.dec w) o o.enc 0#41 0xdfff01fff#41 where
  within m h := by simp (disch := decide) [OpF7.enc, slotPut_and_off _ _ h]
  reads v h := by simp (disch := decide) [OpF7.dec, OpF7.enc, slotField_off h]
theorem OpF8.enc_holds (o : OpF8) : SlotHolds (fun w _ => OpF8.dec w) o o.enc 0#41 0xc07ffffff#41 where
  within m h := by simp (disch := decide) [OpF8.enc, slotPut_and_off _ _ h]
  reads v h := by simp (disch := decide) [OpF8.dec, OpF8.enc, slotField_off h]
theorem OpF9.enc_holds (o : OpF9) : SlotHolds (fun w _ => OpF9.dec w) o o.enc 0#41 0x7ffffff#41 where
  within m h := by simp (disch := decide) [OpF9.enc, slotPut_and_off _ _ h]
  reads v h := by simp (disch := decide) [OpF9.dec, OpF9.enc, slotField_off h]
theorem OpF10.enc_holds (o : OpF10) : SlotHolds (fun w _ => OpF10.dec w) o o.enc 0#41 0xc000fffff#41 where
  within m h := by simp (disch := decide) [OpF10.enc, slotPut_and_off _ _ h]
  reads v h := by simp (disch := decide) [OpF10.dec, OpF10.enc, slotField_off h]
theorem OpF11.enc_holds (o : OpF11) : SlotHolds (fun w _ => OpF11.dec w) o o.enc 0#41 0xfffff#41 where
  within m h := by simp (disch := decide) [OpF11.enc, slotPut_and_off _ _ h]
  reads v h := by simp (disch := decide) [OpF11.dec, OpF11.enc, slotField_off h]
theorem OpF12.enc_holds (o : OpF12) : SlotHolds (fun w _ => OpF12.dec w) o o.enc 0#41 0xc07ffe03f#41 where
  within m h := by simp (disch := decide) [OpF12.enc, slotPut_and_off _ _ h]
  reads v h := by simp (disch := decide) [OpF12.dec, OpF12.enc, slotField_off h]
theorem OpF13.enc_holds (o : OpF13) : SlotHolds (fun w _ => OpF13.dec w) o o.enc 0#41 0xc0000003f#41 where
  within m h := by simp (disch := decide) [OpF13.enc, slotPut_and_off _ _ h]
  reads v h := by simp (disch := decide) [OpF13.dec, OpF13.enc, slotField_off h]
theorem OpF14.enc_holds (o : OpF14) : SlotHolds (fun w _ => OpF14.dec w) o o.enc 0#41 0x1c03ffffff#41 where
  within m h := by simp (disch := decide) [OpF14.enc, slotPut_and_off _ _ h]
  reads v h := by simp (disch := decide) [OpF14.dec, OpF14.enc, slotField_off h, -Nat.reduceAdd]
theorem OpX1.enc_holds (o : OpX1) : SlotHolds OpX1.dec o o.enc o.imm41 0x1003ffffff#41 where
  within m h := by simp (disch := decide) [OpX1.enc, slotPut_and_off _ _ h]
  reads v h := by simp (disch := decide) [OpX1.dec, OpX1.enc, slotField_off h, -Nat.reduceAdd]
theorem OpX2.enc_holds (o : OpX2) : SlotHolds OpX2.dec o o.enc o.imm41 0x1fffefffff#41 where
  within m h := by simp (disch := decide) [OpX2.enc, slotPut_and_off _ _ h]
  reads v h := by simp (disch := decide) [OpX2.dec, OpX2.enc, slotField_off h]
theorem OpX3.enc_holds (o : OpX3) : SlotHolds OpX3.dec o o.enc o.imm41 0x1ffffff03f#41 where
  within m h := by simp (disch := decide) [OpX3.enc, slotPut_and_off _ _ h]
  reads v h := by simp (disch := decide) [OpX3.dec, OpX3.enc, slotField_off h]
theorem OpX4.enc_holds (o : OpX4) : SlotHolds OpX4.dec o o.enc o.imm41 0x1ffffff1ff#41 where
  within m h := by simp (disch := decide) [OpX4.enc, slotPut_and_off _ _ h]
  reads v h := by simp (disch := decide) [OpX4.dec, OpX4.enc, slotField_off h]

end Sys2Proof
end

