-- ==== Sys2Proof/Proofs/Encoding.lean ====
section
/-!
Decoding undoes encoding (30 R450 to R454, R458): an encoded instruction is read by the row at its place in the opcode table, and a
bundle gives back the slots and the bytes it was made of.
-/

namespace Sys2Proof

/-! ## Rows -/

/-- The rows that tell the instructions of a unit from one another; those of an A instruction serve two units. -/
noncomputable def unitRows : ExecUnit → List Row
  | .a => rowsA
  | .i => rowsI
  | .m => rowsM
  | .b => rowsB
  | .f => rowsF
  | .l => []
  | .x => rowsX

/-- The number of the first row of a unit among the constructors of `Instr`, which stand in the table's order. -/
def firstRow : ExecUnit → Nat
  | .a | .l => 0
  | .i => 133
  | .m => 182
  | .b => 544
  | .f => 570
  | .x => 640

/-- A row reads an encoded slot as the instruction; only an X instruction has an L slot. -/
structure Row.Reads (r : Row) (e : SlotWord) (i : Instr) : Prop where
  hits : r.hits e.word = true
  make : r.make e.word e.lword = i
  lword : e.unit ≠ .x → e.lword = 0#41

/-- No field of a row lies in its mask, and its match lies in it (30 R458). -/
theorem rows_fields_apart : ∀ u, ∀ r ∈ unitRows u, r.value &&& r.mask = r.value ∧ r.mask &&& r.covered = 0#41 := by
  intro u; cases u <;> decide +kernel

/-- A row whose fields are the layout of the operands reads them beside its match, under whatever constructor it makes. -/
theorem SlotHolds.reads_row {α : Type} {dec : Slot → Slot → α} {o : α} {u : ExecUnit} {v w l bits : Slot} {k : Nat}
    {r : Row} {C : α → Instr} (h : SlotHolds dec o w l bits) (hr : (unitRows u)[k]? = some r) (hv : r.value = v)
    (hb : r.covered = bits) (hmake : r.make = fun w l => C (dec w l)) (hl : u ≠ .x → l = 0#41) :
    ∃ r, (unitRows u)[k]? = some r ∧ r.Reads ⟨u, v ||| w, l⟩ (C o) := by
  obtain ⟨hvm, hmb⟩ := rows_fields_apart u r (List.mem_of_getElem? hr)
  have hvb : r.value &&& bits = 0#41 := by rw [← hvm, BitVec.and_assoc, ← hb, hmb, BitVec.and_zero]
  refine ⟨r, hr, ?_, ?_, hl⟩
  · have hw := h.within r.mask (hb ▸ hmb)
    rw [Row.hits, ← hv, slot_or_and, hvm, hw, BitVec.or_zero, beq_self_eq_true]
  · rw [hmake, ← hv]; exact congrArg C (h.reads r.value hvb)

/-- The constructors of `Instr` stand in the order of the table: the row of an encoded instruction is the one at its place. -/
theorem encode_row (i : Instr) (e : SlotWord) (h : encode i = some e) :
    ∃ r, (unitRows e.unit)[i.ctorIdx - firstRow e.unit]? = some r ∧ r.Reads e i := by
  cases i with
  | pmpyshr2 | pmpy2 | mixPack | mux1 | mux2 | pshrVar | pshrFix | pshlVar | pshlFix | popcnt => cases h
  | brpTarget25Tag13 | brpB2Tag13 | brpRetB2Tag13 | cover | clrrrb | clrrrbPr | rfi | bsw0 | bsw1 | epc =>
    cases h; exact ⟨_, rfl, by decide, rfl, fun _ => rfl⟩
  | breakX o | nopX o | hintX o | movl o | brlCondTarget64 o | brlCallB1Target64 o =>
    cases h
    dsimp only [firstRow, Instr.ctorIdx, Nat.reduceSub]
    exact o.enc_holds.reads_row rfl rfl rfl rfl (absurd rfl)
  | _ o =>
    cases h
    dsimp only [firstRow, Instr.ctorIdx, Nat.reduceSub]
    exact o.enc_holds.reads_row rfl rfl rfl rfl fun _ => rfl

/-! ## Bundles (30 R453) -/

theorem bundleTemplate_makeBundle (t : BitVec 5) (s0 s1 s2 : Slot) : bundleTemplate (makeBundle t s0 s1 s2) = t := by
  ext i hi
  simp [bundleTemplate, makeBundle]

section
variable (t : BitVec 5) (s0 s1 s2 : Slot)

theorem bundleSlot_makeBundle_zero : bundleSlot (makeBundle t s0 s1 s2) 0 = s0 := by
  apply BitVec.eq_of_getLsbD_eq
  intro i hi
  simp [bundleSlot, makeBundle, hi, show i < 128 by omega, show 5 + i < 46 by omega, show 5 + i < 87 by omega,
    show 5 + i < 128 by omega, -BitVec.getLsbD_eq_getElem]

theorem bundleSlot_makeBundle_one : bundleSlot (makeBundle t s0 s1 s2) 1 = s1 := by
  apply BitVec.eq_of_getLsbD_eq
  intro i hi
  simp [bundleSlot, makeBundle, hi, show i < 128 by omega, show 46 + i < 128 by omega, show 46 + i < 87 by omega,
    show 46 + i - 5 = 41 + i by omega, BitVec.getLsbD_of_ge t (46 + i) (by omega), -BitVec.getLsbD_eq_getElem]

theorem bundleSlot_makeBundle_two : bundleSlot (makeBundle t s0 s1 s2) 2 = s2 := by
  apply BitVec.eq_of_getLsbD_eq
  intro i hi
  simp [bundleSlot, makeBundle, hi, show i < 128 by omega, show 87 + i < 128 by omega,
    show 87 + i - 5 = 41 + (41 + i) by omega, show 87 + i - 46 = 41 + i by omega,
    BitVec.getLsbD_of_ge t (87 + i) (by omega), -BitVec.getLsbD_eq_getElem]

end

/-- The bundle made for one slot decodes at its place as the slot in its unit. -/
theorem decodeBundle_placeBundle {e : SlotWord} (hu : e.unit ≠ .l) (hl : e.unit ≠ .x → e.lword = 0#41) :
    decodeBundle (placeBundle e.unit e.word e.lword) (placeOf e.unit).2 = decodeSlot e.slotUnit e.word e.lword := by
  obtain ⟨u, w, l⟩ := e
  dsimp only at hu hl
  cases u with
  | l => exact absurd rfl hu
  | x =>
    simp [decodeBundle, bundleUnit, placeBundle, placeOf, bundleTemplate_makeBundle, bundleSlot_makeBundle_one,
      bundleSlot_makeBundle_two, SlotWord.slotUnit, templateUnits]
  | _ =>
    simp [hl nofun, decodeBundle, bundleUnit, placeBundle, placeOf, bundleTemplate_makeBundle, bundleSlot_makeBundle_zero,
      bundleSlot_makeBundle_one, SlotWord.slotUnit, templateUnits]

/-- Bit `j` of a bundle is bit `j % 8` of its byte `j / 8`. -/
theorem getLsbD_bundleOfBytes (bs : List Byte) (j : Nat) :
    (bundleOfBytes bs).getLsbD j = (decide (j < 128) && (bs.getD (j / 8) 0#8).getLsbD (j % 8)) := by
  induction bs generalizing j with
  | nil => simp [bundleOfBytes]
  | cons b bs ih =>
    simp only [bundleOfBytes, BitVec.getLsbD_or, BitVec.getLsbD_shiftLeft, BitVec.getLsbD_setWidth, ih]
    rcases Nat.lt_or_ge j 8 with h | h
    · simp [h, Nat.div_eq_of_lt h, Nat.mod_eq_of_lt h, -BitVec.getLsbD_eq_getElem]
    · obtain ⟨k, rfl⟩ := Nat.exists_eq_add_of_le' h
      rw [BitVec.getLsbD_of_ge b _ h, Nat.add_sub_cancel, Nat.add_div_right _ (by decide), Nat.add_mod_right,
        List.getD_cons_succ]
      by_cases hk : k + 8 < 128
      · simp [hk, show k < 128 by omega]
      · simp [hk]

theorem bundleOfBytes_bundleBytes (b : Bundle) : bundleOfBytes (bundleBytes b) = b := by
  apply BitVec.eq_of_getLsbD_eq
  intro j hj
  rw [getLsbD_bundleOfBytes]
  have hk : j / 8 < 16 := by omega
  have hb : (bundleBytes b).getD (j / 8) 0#8 = (b >>> (8 * (j / 8))).setWidth 8 := by
    simp [bundleBytes, hk]
  rw [hb, BitVec.getLsbD_setWidth, BitVec.getLsbD_ushiftRight, Nat.div_add_mod]
  simp [hj, Nat.mod_lt]

theorem decodeBytes_bundleBytes (b : Bundle) (k : Nat) : decodeBytes (bundleBytes b) k = decodeBundle b k := by
  rw [decodeBytes, List.take_of_length_le (by simp [bundleBytes]), bundleOfBytes_bundleBytes]

/-! ## Slots -/

/-- The rows of an encoded instruction's unit are among those its slot is decoded by. -/
theorem unitRows_subset (e : SlotWord) {r : Row} (h : r ∈ unitRows e.unit) : r ∈ rowsOf e.slotUnit := by
  obtain ⟨u, w, l⟩ := e
  cases u with
  | a => exact List.mem_append_left _ h
  | i | m => exact List.mem_append_right _ h
  | l | b | f | x => exact h

/-- A slot that a row of the unit reads is decoded by that row: the rows are disjoint (30 R458). -/
theorem decodeSlot_of_reads {u : ExecUnit} {r : Row} {e : SlotWord} {i : Instr} (hr : r ∈ rowsOf u) (h : r.Reads e i) :
    decodeSlot u e.word e.lword = .ok i := by
  obtain ⟨k, hk⟩ := List.mem_iff_getElem?.1 hr
  rw [decodeSlot_row k hk h.hits, h.make]

/-- Every constructor but the ten of 92 D11 has an encoding. -/
theorem encode_eq_none_iff (i : Instr) : encode i = none ↔ i.unencoded = true := by
  cases i with
  | pmpyshr2 | pmpy2 | mixPack | mux1 | mux2 | pshrVar | pshrFix | pshlVar | pshlFix | popcnt => exact iff_of_true rfl rfl
  | _ => exact iff_of_false nofun nofun

/-- Settles O57: the row of an encoded instruction by `encode_row`, its decoding by `decodeSlot_of_reads`. -/
theorem decodeEncode : Obligations.DecodeEncode := by
  refine ⟨fun i e _ he => ?_, encode_eq_none_iff, decodeBytes_bundleBytes⟩
  obtain ⟨r, hr, h⟩ := encode_row i e he
  have hm := List.mem_of_getElem? hr
  have hs := decodeSlot_of_reads (unitRows_subset e hm) h
  refine ⟨hs, ?_, fun ha => ?_⟩
  · have hu : e.unit ≠ .l := fun hl => by rw [hl] at hm; exact absurd hm List.not_mem_nil
    rw [decodeBundle_placeBundle hu h.lword, hs]
  · rw [ha] at hm
    exact decodeSlot_of_reads (u := .i) (List.mem_append_left _ hm) h

/-- Settles O58: the decoder run on each word. -/
theorem decodingIsRight : Obligations.DecodingIsRight := by
  unfold Obligations.DecodingIsRight
  and_intros <;> decide +kernel

end Sys2Proof
end

