-- ==== Sys2Proof/Proofs/DecodedStep.lean ====
section
/-!
A step of a running thread: the instruction that the slot at the instruction pointer decodes to, and what the clocks add to it
(20 R440, 30 R453, R455, R458; log 23).
-/

namespace Sys2Proof.Machine

open Sys2Proof.Config

/-! ## The instruction of a step -/

/-- A running thread without an interrupt due does what its bundle says. -/
theorem runThread_fetched {s : State} {b : Bundle} (hr : s.lp.running = true) (hi : s.lp.interrupted = false)
    (hf : fetch s = .ok b) : runThread s = runBundle s b := by
  simp only [runThread, hr, hi, runNext, hf]; rfl

section
variable {s : State}

theorem step_next {u : State} (h : runThread (beginStep s) = .next u) : step s = .next (endStep (beginStep s) u) := by
  rw [step, cycle, h]

theorem step_fault {f : Fault} (h : runThread (beginStep s) = .fault f) : step s = .fault f := by
  rw [step, cycle, h]

theorem step_refused {r : Refusal} (h : runThread (beginStep s) = .refused r) : step s = .refused r := by
  rw [step, cycle, h]

end

section
variable {s : State} {b : Bundle} (hb : instrBreak (atSlot (s.withBundle b) b) = false)
include hb

theorem runBundle_ok {i : Instr} (hd : decodeBundle b (atSlot (s.withBundle b) b).lp.ri.toNat = .ok i) :
    runBundle s b = exec i (atSlot (s.withBundle b) b) := by
  simp only [runBundle, hb, hd]; rfl

/-- 30 R458: a slot that is no instruction is an Illegal Operation. -/
theorem runBundle_illegal {e : DecodeError} (hd : decodeBundle b (atSlot (s.withBundle b) b).lp.ri.toNat = .error e)
    (he : e ≠ .notGiven) : runBundle s b =
      .next (deliver illegalOperation (atSlot (s.withBundle b) b).lp.ri (atSlot (s.withBundle b) b)) := by
  simp only [runBundle, hb, hd]
  cases e with
  | notGiven => exact absurd rfl he
  | _ => rfl

theorem runBundle_notGiven (hd : decodeBundle b (atSlot (s.withBundle b) b).lp.ri.toNat = .error .notGiven) :
    runBundle s b = .refused (.encodingNotGiven (bundleSlot b (atSlot (s.withBundle b) b).lp.ri.toNat)) := by
  simp only [runBundle, hb, hd]; rfl

end

/-! ## The fetch -/

theorem fetchIp_eq (l : LP) : l.fetchIp = l.ip &&& ~~~0xF#64 := by
  rw [LP.fetchIp, alignDown, BitVec.shiftLeft_ushiftRight]; rfl

/-- With instruction translation off the bundle is that of the physical address (20 R440). -/
theorem fetch_physical {s : State} {pa : Nat} (ht : s.lp.psrBit 36 = false)
    (hpa : pa = (s.lp.ip &&& ~~~0xF#64).toNat % 2 ^ 63) (h : pa < 2 ^ s.params.paBits) (ha : inAperture pa = false)
    (hm : inRam s.params pa 16 = true) : fetch s = .ok (BitVec.ofNat 128 (readLE s.mem pa 16)) := by
  subst hpa
  rw [fetch, fetchIp_eq, translateAddr_physical (k := .fetch) ht h]
  simp only [orRaise, ok_bind, ha, hm]
  rfl

theorem atSlot_long {s : State} {b : Bundle} (h : bundleUnit b s.lp.ri.toNat = .ok .x) :
    atSlot s b = s.setLp (s.lp.setRi 1#2) := by
  rw [atSlot, h]

theorem atSlot_short {s : State} {b : Bundle} (h : bundleUnit b s.lp.ri.toNat ≠ .ok .x) : atSlot s b = s := by
  unfold atSlot
  split
  · exact absurd ‹_› h
  · rfl

/-! ## The clocks -/

/-- The timer only makes its vector pending. -/
theorem timerTick_irr (moved : Bool) (old : Word) (n : Nat) (l : LP) :
    ∃ irr, timerTick moved old n l = { l with cr := { l.cr with irr := irr } } := by
  unfold timerTick
  split
  · exact ⟨l.cr.irr, rfl⟩
  · dsimp only; split
    · exact ⟨_, rfl⟩
    · exact ⟨l.cr.irr, rfl⟩

/-- What the clocks change of the foreground thread: the monitors, the resource utilization counter, the pending vectors, and of
the record of thread states neither the halt nor the start. -/
theorem elapse_frame (n : Nat) (s t : State) :
    ∃ pmu ruc irr thr bg unc rem ahead, thr.halted = t.lp.thr.halted ∧ thr.started = t.lp.thr.started
      ∧ elapse n s t = { t with
        lp := { t.lp with pmu := pmu, ar := { t.lp.ar with ruc := ruc }, cr := { t.lp.cr with irr := irr }, thr := thr },
        bg := bg, itc := t.itc + BitVec.ofNat 64 (ticksOf s.params n), uncore := unc, remote := rem
        rucAhead := ahead, free := n + 512 } := by
  obtain ⟨irr, hirr⟩ :=
    timerTick_irr (decide (s.itc ≠ t.itc ∨ s.lp.cr.itm ≠ t.lp.cr.itm)) t.itc (ticksOf s.params n) t.lp
  unfold elapse
  dsimp only
  rw [hirr]
  exact ⟨_, _, irr, { t.lp.thr with armed := t.lp.thr.armed || t.lp.ev.pause, urgency := urgencyNext n }, _, _, _, _,
    rfl, rfl, rfl⟩

theorem endStep_noSwitch {s t : State} (h : (switchOf t.free s t).1 = none) : endStep s t = elapse t.free s t := by
  rw [endStep, h]; rfl

/-- Settles O49: the bundle that the thread runs and how the step ends with it, the physical fetch, the slot of a long
instruction, and the clocks by `elapse_frame`. -/
theorem stepRunsDecoded : Obligations.StepRunsDecoded := by
  refine ⟨?_, fun s pa => fetch_physical, fun s b => ⟨atSlot_long, atSlot_short⟩, fun s t h => ?_⟩
  · rintro s _ _ b rfl hr hi hf rfl hb
    have hrun := runThread_fetched hr hi hf
    refine ⟨fun i hd => ?_, fun e hd he => step_next (hrun.trans (runBundle_illegal hb hd he)),
      fun hd => step_refused (hrun.trans (runBundle_notGiven hb hd))⟩
    have hexec := hrun.trans (runBundle_ok hb hd)
    cases hx : exec i (atSlot ((beginStep s).withBundle b) b) with
    | next u => exact step_next (hexec.trans hx)
    | fault f => exact step_fault (hexec.trans hx)
    | refused r => exact step_refused (hexec.trans hx)
  · rw [endStep_noSwitch h]; exact elapse_frame t.free s t

end Sys2Proof.Machine
end

