-- ==== Sys2Proof/Proofs/FormatsA.lean ====
section
/-!
The slots of formats A1 to A10 (40 R500 to R529; 30 R450 to R452): written field by field they are the opcode of a row with
the operands put beside it, which M and I slots decode alike.
-/

namespace Sys2Proof

open Sys2Proof.Machine

/-! ## A slot as the fields it is made of -/

/-- Two fields side by side are put as one. -/
theorem slotPut_append {m n : Nat} (a : BitVec m) (b : BitVec n) {len : Nat} (h : len = m + n) (lo : Nat) :
    slotPut (a ++ b) 0 len lo = slotPut a 0 m (lo + n) ||| slotPut b 0 n lo := by
  subst h
  apply BitVec.eq_of_getLsbD_eq
  intro i hi
  simp only [BitVec.getLsbD_or, getLsbD_slotPut, BitVec.getLsbD_append, Nat.zero_add]
  rcases Nat.lt_or_ge i (lo + n) with h | h
  · by_cases hlo : lo ≤ i
    · simp [hlo, show i - lo < n by omega, show i - lo < m + n by omega, Nat.not_le.mpr h]
    · simp [hlo, Nat.not_le.mpr h]
  · simp [show lo ≤ i by omega, h, show ¬ i - lo < n by omega, show i - lo - n = i - (lo + n) by omega,
      show i - lo < m + n ↔ i - (lo + n) < m by omega]

/-- A slot is the field of all its bits. -/
theorem slotPut_all (w : Slot) : slotPut w 0 41 0 = w := by simp [slotPut]

/-- A part of an operand, put, is that part of the operand put. -/
theorem slotPut_extract {n : Nat} (x : BitVec n) (f len lo : Nat) :
    slotPut (x.extractLsb' f len) 0 len lo = slotPut x f len lo := by
  apply BitVec.eq_of_getLsbD_eq
  intro i _
  by_cases h : i - lo < len <;> simp [getLsbD_slotPut, h, BitVec.getLsbD_extractLsb']

theorem slotPut_zero (n f len lo : Nat) : slotPut 0#n f len lo = 0#41 := by simp [slotPut]

theorem slot_or_left_comm (a b c : Slot) : a ||| (b ||| c) = b ||| (a ||| c) := by
  rw [← BitVec.or_assoc, BitVec.or_comm a b, BitVec.or_assoc]

/-! ## The formats -/

theorem slotA1_eq (x4 : BitVec 4) (x2b : BitVec 2) (o : OpA1) :
    slotA1 x4 x2b o = slotPut 8#4 0 4 37 ||| slotPut x4 0 4 29 ||| slotPut x2b 0 2 27 ||| o.enc := by
  rw [← slotPut_all (slotA1 x4 x2b o)]
  simp (disch := rfl) only [slotA1, slotPut_append]
  simp only [OpA1.enc, slotPut_zero, BitVec.zero_or, Nat.reduceAdd, slot_or_left_comm, BitVec.or_assoc, BitVec.or_comm]

theorem slotA2_eq (x4 : BitVec 4) (o : OpA2) :
    slotA2 x4 o = slotPut 8#4 0 4 37 ||| slotPut x4 0 4 29 ||| o.enc := by
  rw [← slotPut_all (slotA2 x4 o)]
  simp (disch := rfl) only [slotA2, slotPut_append]
  simp only [OpA2.enc, slotPut_zero, BitVec.zero_or, Nat.reduceAdd, slot_or_left_comm, BitVec.or_assoc, BitVec.or_comm]

theorem slotA3_eq (x4 : BitVec 4) (x2b : BitVec 2) (o : OpA3) :
    slotA3 x4 x2b o = slotPut 8#4 0 4 37 ||| slotPut x4 0 4 29 ||| slotPut x2b 0 2 27 ||| o.enc := by
  rw [← slotPut_all (slotA3 x4 x2b o)]
  simp (disch := rfl) only [slotA3, slotPut_append]
  simp only [OpA3.enc, slotPut_extract, slotPut_zero, BitVec.zero_or, Nat.reduceAdd,
    slot_or_left_comm, BitVec.or_assoc, BitVec.or_comm]

theorem slotA4_eq (x2a : BitVec 2) (o : OpA4) :
    slotA4 x2a o = slotPut 8#4 0 4 37 ||| slotPut x2a 0 2 34 ||| o.enc := by
  rw [← slotPut_all (slotA4 x2a o)]
  simp (disch := rfl) only [slotA4, slotPut_append]
  simp only [OpA4.enc, slotPut_extract, slotPut_zero, BitVec.zero_or, Nat.reduceAdd,
    slot_or_left_comm, BitVec.or_assoc, BitVec.or_comm]

theorem slotA5_eq (o : OpA5) : slotA5 o = slotPut 9#4 0 4 37 ||| o.enc := by
  rw [← slotPut_all (slotA5 o)]
  simp (disch := rfl) only [slotA5, slotPut_append]
  simp only [OpA5.enc, slotPut_extract, Nat.reduceAdd, slot_or_left_comm, BitVec.or_comm]

theorem slotA6_eq (major : BitVec 4) (x2 : BitVec 2) (ta c : BitVec 1) (o : OpA6) :
    slotA6 major x2 ta c o =
      slotPut major 0 4 37 ||| slotPut x2 0 2 34 ||| slotPut ta 0 1 33 ||| slotPut c 0 1 12 ||| o.enc := by
  rw [← slotPut_all (slotA6 major x2 ta c o)]
  simp (disch := rfl) only [slotA6, slotPut_append]
  simp only [OpA6.enc, slotPut_zero, BitVec.zero_or, Nat.reduceAdd, slot_or_left_comm, BitVec.or_assoc, BitVec.or_comm]

theorem slotA7_eq (major : BitVec 4) (x2 : BitVec 2) (ta c : BitVec 1) (o : OpA7) :
    slotA7 major x2 ta c o =
      slotPut major 0 4 37 ||| slotPut 1#1 0 1 36 ||| slotPut x2 0 2 34 ||| slotPut ta 0 1 33 |||
        slotPut c 0 1 12 ||| o.enc := by
  rw [← slotPut_all (slotA7 major x2 ta c o)]
  simp (disch := rfl) only [slotA7, slotPut_append]
  simp only [OpA7.enc, slotPut_zero, BitVec.zero_or, Nat.reduceAdd, slot_or_left_comm, BitVec.or_assoc, BitVec.or_comm]

theorem slotA8_eq (major : BitVec 4) (x2 : BitVec 2) (ta c : BitVec 1) (o : OpA8) :
    slotA8 major x2 ta c o =
      slotPut major 0 4 37 ||| slotPut x2 0 2 34 ||| slotPut ta 0 1 33 ||| slotPut c 0 1 12 ||| o.enc := by
  rw [← slotPut_all (slotA8 major x2 ta c o)]
  simp (disch := rfl) only [slotA8, slotPut_append]
  simp only [OpA8.enc, slotPut_extract, Nat.reduceAdd, slot_or_left_comm, BitVec.or_assoc, BitVec.or_comm]

theorem slotA9_eq (za zb : BitVec 1) (x4 : BitVec 4) (x2b : BitVec 2) (o : OpA1) :
    slotA9 za zb x4 x2b o =
      slotPut 8#4 0 4 37 ||| slotPut za 0 1 36 ||| slotPut 1#2 0 2 34 ||| slotPut zb 0 1 33 |||
        slotPut x4 0 4 29 ||| slotPut x2b 0 2 27 ||| o.enc := by
  rw [← slotPut_all (slotA9 za zb x4 x2b o)]
  simp (disch := rfl) only [slotA9, slotPut_append]
  simp only [OpA1.enc, Nat.reduceAdd, slot_or_left_comm, BitVec.or_assoc, BitVec.or_comm]

theorem slotA10_eq (x4 : BitVec 4) (o : OpA2) :
    slotA10 x4 o = slotPut 8#4 0 4 37 ||| slotPut 1#2 0 2 34 ||| slotPut 1#1 0 1 33 ||| slotPut x4 0 4 29 ||| o.enc := by
  rw [← slotPut_all (slotA10 x4 o)]
  simp (disch := rfl) only [slotA10, slotPut_append]
  simp only [OpA2.enc, slotPut_zero, BitVec.zero_or, Nat.reduceAdd, slot_or_left_comm, BitVec.or_assoc, BitVec.or_comm]

/-! ## Decoding -/

/-- The row of an A instruction does not look at the L slot. -/
theorem rowsA_make (w l : Slot) : ∀ r ∈ rowsA, r.make w l = r.make w 0#41 := by
  simp [rowsA, rowsA0, rowsA1, rowsA2]

/-- 40 R500: an encoded A instruction is read in an M and in an I slot. -/
theorem encodesA_of_encode {i : Instr} {w : Slot} (h : encode i = some ⟨.a, w, 0#41⟩) : EncodesA w i := by
  obtain ⟨r, hr, hits, hmake, -⟩ := encode_row i _ h
  have reads (u : ExecUnit) (hu : r ∈ rowsOf u) : Encodes u w i := fun l => by
    obtain ⟨k, hk⟩ := List.mem_iff_getElem?.1 hu
    rw [decodeSlot_row k hk hits, rowsA_make w l r (List.mem_of_getElem? hr), hmake]
  have hm : r ∈ rowsA := List.mem_of_getElem? hr
  exact ⟨reads .m (List.mem_append_left _ hm), reads .i (List.mem_append_left _ hm)⟩

theorem encodesA_of_eq {i : Instr} {v w : Slot} (hw : w = v) (h : encode i = some ⟨.a, v, 0#41⟩) : EncodesA w i :=
  hw ▸ encodesA_of_encode h

end Sys2Proof
end

