-- ==== Sys2Proof/Proofs/IntegerArithmetic.lean ====
section
/-!
Integer arithmetic and logic (40 R501 to R519): each form stands at its place of formats A1 to A5 and is carried out by
`alu2` or `alu1`.
-/

namespace Sys2Proof.Machine

/-! ## Results from the shared operations -/

theorem result2_of {i : Instr} {qp : BitVec 6} {r1 r2 r3 : BitVec 7} {f g : Word → Word → Word}
    (he : ∀ s, exec i s = alu2 qp r1 r2 r3 f s) (hf : ∀ a b, f a b = g a b := by intros; rfl) :
    Result2 i qp r1 r2 r3 g := by
  obtain rfl : f = g := funext₂ hf
  intro s
  rw [he]
  exact alu2_cases

theorem result1_of {i : Instr} {qp : BitVec 6} {r1 r3 : BitVec 7} {f g : Word → Word}
    (he : ∀ s, exec i s = alu1 qp r1 r3 f s) (hf : ∀ a, f a = g a := by intros; rfl) : Result1 i qp r1 r3 g := by
  obtain rfl : f = g := funext hf
  intro s
  rw [he]
  exact alu1_cases

/-- The low word of a word as a mask. -/
theorem zextLow_32 (w : Word) : zextLow w 32 = w &&& 0xFFFFFFFF#64 := by
  apply BitVec.eq_of_toNat_eq
  rw [zextLow, BitVec.toNat_and, BitVec.toNat_setWidth, BitVec.toNat_setWidth,
    show (0xFFFFFFFF#64).toNat = 2 ^ 32 - 1 from rfl, Nat.and_two_pow_sub_one_eq_mod]
  omega

/-- 40 R505: the low word of a sum with bits 31:30 of the second operand at bits 62:61. -/
theorem addp4Of_eq (t b : Word) : addp4Of t b = (t &&& 0xFFFFFFFF#64) ||| (((b >>> 30) &&& 3#64) <<< 61) := by
  rw [addp4Of, zextLow_32]; rfl

/-! ## The forms -/

/-- Settles O1: each form stands at its place of formats A1 and A2 and is carried out by `alu2`. -/
theorem integerArithmetic : Obligations.IntegerArithmetic := by
  refine ⟨fun o => ?_, fun o => ?_⟩
  · exact ⟨
      encodesA_of_eq (slotA1_eq ..) rfl, result2_of (exec_add o),
      encodesA_of_eq (slotA1_eq ..) rfl, result2_of (exec_addR1R2R31 o),
      encodesA_of_eq (slotA1_eq ..) rfl, result2_of (exec_sub o),
      encodesA_of_eq (slotA1_eq ..) rfl, result2_of (exec_subR1R2R31 o),
      encodesA_of_eq (slotA1_eq ..) rfl, result2_of (exec_addp4 o) fun _ _ => addp4Of_eq _ _,
      encodesA_of_eq (slotA1_eq ..) rfl, result2_of (exec_and o),
      encodesA_of_eq (slotA1_eq ..) rfl, result2_of (exec_andcm o),
      encodesA_of_eq (slotA1_eq ..) rfl, result2_of (exec_or o),
      encodesA_of_eq (slotA1_eq ..) rfl, result2_of (exec_xor o)⟩
  · exact ⟨
      encodesA_of_eq (slotA2_eq ..) rfl, result2_of (exec_shladd o),
      encodesA_of_eq (slotA2_eq ..) rfl, result2_of (exec_shladdp4 o) fun _ _ => addp4Of_eq _ _⟩

/-- Settles O2: each form stands at its place of formats A3 to A5 and is carried out by `alu1`. -/
theorem integerImmediates : Obligations.IntegerImmediates := by
  refine ⟨fun o => ?_, fun o => ?_, fun o => ?_⟩
  · exact ⟨
      encodesA_of_eq (slotA3_eq ..) rfl, result1_of (exec_subR1Imm8R3 o),
      encodesA_of_eq (slotA3_eq ..) rfl, result1_of (exec_andR1Imm8R3 o),
      encodesA_of_eq (slotA3_eq ..) rfl, result1_of (exec_andcmR1Imm8R3 o),
      encodesA_of_eq (slotA3_eq ..) rfl, result1_of (exec_orR1Imm8R3 o),
      encodesA_of_eq (slotA3_eq ..) rfl, result1_of (exec_xorR1Imm8R3 o)⟩
  · exact ⟨
      encodesA_of_eq (slotA4_eq ..) rfl, result1_of (exec_adds o),
      encodesA_of_eq (slotA4_eq ..) rfl, result1_of (exec_addp4R1Imm14R3 o) fun _ => addp4Of_eq _ _⟩
  · exact ⟨
      encodesA_of_eq (slotA5_eq o) rfl, result1_of (exec_addl o)⟩

end Sys2Proof.Machine
end

