-- ==== Sys2Proof/Proofs/Compares.lean ====
section
/-!
Compares (40 R520 to R523): what each compare type writes to its two predicates, and the three tables of the forms.
-/

namespace Sys2Proof.Machine

/-! ## The two predicates of a compare -/

/-- 40 R520: what a compare writes to its two predicates, if it writes; `on` is the qualifying predicate. -/
def predicateWrites (ct : CType) (on rel nat : Bool) : Option (Bool × Bool) :=
  match ct with
  | .none => if on then some (if nat then (false, false) else (rel, !rel)) else none
  | .unc => some (if on && !nat then (rel, !rel) else (false, false))
  | .and => if on && (nat || !rel) then some (false, false) else none
  | .or => if on && !nat && rel then some (true, true) else none
  | .orAndcm => if on && !nat && rel then some (true, false) else none

/-- Two predicates written, or neither. -/
def State.write2 (s : State) (p1 p2 : BitVec 6) : Option (Bool × Bool) → State
  | none => s
  | some (a, b) => s.setPr2 p1 p2 a b

theorem writeCompare_eq (ct : CType) (s : State) (p1 p2 : BitVec 6) (rel nat : Bool) :
    writeCompare ct s p1 p2 rel nat = s.write2 p1 p2 (predicateWrites ct true rel nat) := by
  cases ct with
  | none | unc => cases nat <;> rfl
  | and | or | orAndcm => cases nat <;> cases rel <;> rfl

/-- Off, only `unc` writes, and it clears both. -/
theorem predicateWrites_off (ct : CType) (rel nat : Bool) :
    predicateWrites ct false rel nat = if ct = .unc then some (false, false) else none := by
  cases ct <;> rfl

theorem readPr_zero (l : LP) : l.readPr 0#6 = true := rfl

/-- A predicate depends on the predicate file and the frame marker only. -/
theorem readPr_congr {l k : LP} (hp : l.pr = k.pr) (hc : l.cfm = k.cfm) (q : BitVec 6) : l.readPr q = k.readPr q := by
  simp only [LP.readPr, LP.prIndex, LP.rrbPr, hp, hc]

/-- The predicates after two are written; a write of predicate 0 is discarded. -/
theorem readPr_setPr2 (s : State) (p1 p2 q : BitVec 6) (a b : Bool) : (s.setPr2 p1 p2 a b).lp.readPr q =
    if q = 0#6 then true else if q = p2 then b else if q = p1 then a else s.lp.readPr q := by
  by_cases h0 : q = 0#6
  · rw [if_pos h0, h0, readPr_zero]
  have hset (l : LP) (p : BitVec 6) (c : Bool) : (l.setPr p c).readPr q = if q = p then c else l.readPr q := by
    by_cases hq : q = p
    · rw [if_pos hq, hq, readPr_setPr l p c (hq ▸ h0)]
    · rw [if_neg hq, readPr_setPr_other l c hq]
  rw [if_neg h0]
  exact (hset _ p2 b).trans (by rw [hset])

theorem readPr_write2 (s : State) (p1 p2 q : BitVec 6) (w : Option (Bool × Bool)) :
    (s.write2 p1 p2 w).lp.readPr q = if q = 0#6 then true else match w with
      | none => s.lp.readPr q
      | some (a, b) => if q = p2 then b else if q = p1 then a else s.lp.readPr q := by
  cases w with
  | none =>
    by_cases h : q = 0#6
    · rw [if_pos h, h, readPr_zero]
    · rw [if_neg h]; rfl
  | some ab => exact readPr_setPr2 s p1 p2 q ab.1 ab.2

theorem write2_only (s : State) (p1 p2 : BitVec 6) (w : Option (Bool × Bool)) :
    s.write2 p1 p2 w = { s with lp := { s.lp with pr := (s.write2 p1 p2 w).lp.pr } } := by
  cases w with
  | none => rfl
  | some ab =>
    apply State.ext <;> try rfl
    apply LP.ext <;> simp [State.write2]

/-- `t` is `s` after an instruction that fell through and left everything but the predicates and the record of the step. -/
structure FellThrough (s t : State) : Prop where
  passed : Passed s s t
  only : t = { s with lp := { s.lp with pr := t.lp.pr, ev := t.lp.ev, ip := t.lp.ip, lastIp := t.lp.lastIp,
                                        psr := t.lp.psr } }

theorem fellThrough_of_only_pr {s u : State} (h : u = { s with lp := { s.lp with pr := u.lp.pr } }) :
    FellThrough s (fallThrough s u) := by
  rw [h]; exact ⟨⟨rfl, rfl, rfl⟩, rfl⟩

/-- What a compare of two different predicates leaves, whatever its qualifying predicate is. -/
theorem compare_leaves {ct : CType} {qp p1 p2 : BitVec 6} {s : State} {rel nat : Bool} (hu : Untrapped s) (hp : p1 ≠ p2) :
    ∃ t, compare ct qp p1 p2 s (.ok (rel, nat, s)) = .next t
      ∧ t.lp.pr = (s.write2 p1 p2 (predicateWrites ct (s.lp.readPr qp) rel nat)).lp.pr ∧ FellThrough s t := by
  obtain ⟨hon, -, hoff, hunc⟩ :=
    compare_cases (ct := ct) (qp := qp) (p1 := p1) (p2 := p2) (x := .ok (rel, nat, s)) (pre := True) fun _ => rfl
  cases hq : s.lp.readPr qp with
  | true =>
    refine ⟨_, hon hq hp trivial hu, ?_, fellThrough_of_only_pr ?_⟩
    · rw [fallThrough_lp_pr, writeCompare_eq]
    · rw [writeCompare_eq]; exact write2_only ..
  | false =>
    rw [predicateWrites_off]
    by_cases hc : ct = .unc
    · obtain ⟨t, ht, hpr, hrest⟩ := hunc hq hc hp hu
      refine ⟨t, ht, by rw [hpr, if_pos hc]; rfl, ?_⟩
      rw [hrest]
      exact ⟨⟨rfl, rfl, rfl⟩, rfl⟩
    · exact ⟨_, hoff hq hc hu, by rw [if_neg hc]; rfl, ⟨rfl, rfl, rfl⟩, rfl⟩

/-- Settles O39: `compare_leaves` for different predicates, `compare_cases` for equal ones. -/
theorem compareWrites : Obligations.CompareWrites := by
  intro ct qp p1 p2 s rel nat hu
  obtain ⟨-, hsame, hoff, -⟩ :=
    compare_cases (ct := ct) (qp := qp) (p1 := p1) (p2 := p2) (x := .ok (rel, nat, s)) (pre := True) fun _ => rfl
  refine ⟨fun hp hq => hsame hq hp, fun _ hq hc => hoff hq hc hu, fun hp => ?_⟩
  obtain ⟨t, ht, hpr, hfell⟩ := compare_leaves (ct := ct) (qp := qp) (rel := rel) (nat := nat) hu hp
  have hcfm : t.lp.cfm = (s.write2 p1 p2 (predicateWrites ct (s.lp.readPr qp) rel nat)).lp.cfm := by
    rw [hfell.only, write2_only]
  exact ⟨t, ht, fun q => (readPr_congr hpr hcfm q).trans (readPr_write2 ..), hfell.passed, hfell.only⟩

/-! ## The forms by the shared operations -/

theorem comparesReg_of {i : Instr} {ct : CType} {r : CRel} {w : Bool} {o : OpA6} {rel : Word → Word → Bool}
    (he : ∀ s, exec i s = compareReg ct r w o s) (hr : ∀ a b, r.test w a b = rel a b := by intros; rfl) :
    ComparesReg i ct o rel := by
  obtain rfl : r.test w = rel := funext₂ hr
  intro s
  rw [he]
  exact compareReg_cases ct r w o s

theorem comparesZero_of {i : Instr} {ct : CType} {r : CRel} {w : Bool} {o : OpA7} {rel : Word → Word → Bool}
    (he : ∀ s, exec i s = compareZero ct r w o s) (hr : ∀ a b, r.test w a b = rel a b := by intros; rfl) :
    ComparesZero i ct o rel := by
  obtain rfl : r.test w = rel := funext₂ hr
  intro s
  rw [he]
  exact compareZero_cases ct r w o s

theorem comparesImm_of {i : Instr} {ct : CType} {r : CRel} {w : Bool} {o : OpA8} {rel : Word → Word → Bool}
    (he : ∀ s, exec i s = compareImm ct r w o s) (hr : ∀ a b, r.test w a b = rel a b := by intros; rfl) :
    ComparesImm i ct o rel := by
  obtain rfl : r.test w = rel := funext₂ hr
  intro s
  rw [he]
  exact compareImm_cases ct r w o s

end Sys2Proof.Machine

/-! ## The tables -/

namespace Sys2Proof

open Sys2Proof.Machine

/-- Settles O3: each form stands at its place of the table of R521 and is carried out by `compareReg`. -/
theorem compareRegisters : Obligations.CompareRegisters := fun o => ⟨
    encodesA_of_eq (slotA6_eq ..) rfl, comparesReg_of (exec_cmpLtP1P2R2R3 o),
    encodesA_of_eq (slotA6_eq ..) rfl, comparesReg_of (exec_cmp4LtP1P2R2R3 o),
    encodesA_of_eq (slotA6_eq ..) rfl, comparesReg_of (exec_cmpLtUncP1P2R2R3 o),
    encodesA_of_eq (slotA6_eq ..) rfl, comparesReg_of (exec_cmp4LtUncP1P2R2R3 o),
    encodesA_of_eq (slotA6_eq ..) rfl, comparesReg_of (exec_cmpEqAndP1P2R2R3 o),
    encodesA_of_eq (slotA6_eq ..) rfl, comparesReg_of (exec_cmp4EqAndP1P2R2R3 o),
    encodesA_of_eq (slotA6_eq ..) rfl, comparesReg_of (exec_cmpNeAndP1P2R2R3 o),
    encodesA_of_eq (slotA6_eq ..) rfl, comparesReg_of (exec_cmp4NeAndP1P2R2R3 o),
    encodesA_of_eq (slotA6_eq ..) rfl, comparesReg_of (exec_cmpLtuP1P2R2R3 o),
    encodesA_of_eq (slotA6_eq ..) rfl, comparesReg_of (exec_cmp4LtuP1P2R2R3 o),
    encodesA_of_eq (slotA6_eq ..) rfl, comparesReg_of (exec_cmpLtuUncP1P2R2R3 o),
    encodesA_of_eq (slotA6_eq ..) rfl, comparesReg_of (exec_cmp4LtuUncP1P2R2R3 o),
    encodesA_of_eq (slotA6_eq ..) rfl, comparesReg_of (exec_cmpEqOrP1P2R2R3 o),
    encodesA_of_eq (slotA6_eq ..) rfl, comparesReg_of (exec_cmp4EqOrP1P2R2R3 o),
    encodesA_of_eq (slotA6_eq ..) rfl, comparesReg_of (exec_cmpNeOrP1P2R2R3 o),
    encodesA_of_eq (slotA6_eq ..) rfl, comparesReg_of (exec_cmp4NeOrP1P2R2R3 o),
    encodesA_of_eq (slotA6_eq ..) rfl, comparesReg_of (exec_cmpEqP1P2R2R3 o),
    encodesA_of_eq (slotA6_eq ..) rfl, comparesReg_of (exec_cmp4EqP1P2R2R3 o),
    encodesA_of_eq (slotA6_eq ..) rfl, comparesReg_of (exec_cmpEqUncP1P2R2R3 o),
    encodesA_of_eq (slotA6_eq ..) rfl, comparesReg_of (exec_cmp4EqUncP1P2R2R3 o),
    encodesA_of_eq (slotA6_eq ..) rfl, comparesReg_of (exec_cmpEqOrAndcmP1P2R2R3 o),
    encodesA_of_eq (slotA6_eq ..) rfl, comparesReg_of (exec_cmp4EqOrAndcmP1P2R2R3 o),
    encodesA_of_eq (slotA6_eq ..) rfl, comparesReg_of (exec_cmpNeOrAndcmP1P2R2R3 o),
    encodesA_of_eq (slotA6_eq ..) rfl, comparesReg_of (exec_cmp4NeOrAndcmP1P2R2R3 o)⟩

/-- Settles O4: each form stands at its place of the table of R522 and is carried out by `compareZero`. -/
theorem compareZero : Obligations.CompareZero := fun o => ⟨
    encodesA_of_eq (slotA7_eq ..) rfl, comparesZero_of (exec_cmpGtAndP1P2R0R3 o),
    encodesA_of_eq (slotA7_eq ..) rfl, comparesZero_of (exec_cmp4GtAndP1P2R0R3 o),
    encodesA_of_eq (slotA7_eq ..) rfl, comparesZero_of (exec_cmpLeAndP1P2R0R3 o),
    encodesA_of_eq (slotA7_eq ..) rfl, comparesZero_of (exec_cmp4LeAndP1P2R0R3 o),
    encodesA_of_eq (slotA7_eq ..) rfl, comparesZero_of (exec_cmpGeAndP1P2R0R3 o),
    encodesA_of_eq (slotA7_eq ..) rfl, comparesZero_of (exec_cmp4GeAndP1P2R0R3 o),
    encodesA_of_eq (slotA7_eq ..) rfl, comparesZero_of (exec_cmpLtAndP1P2R0R3 o),
    encodesA_of_eq (slotA7_eq ..) rfl, comparesZero_of (exec_cmp4LtAndP1P2R0R3 o),
    encodesA_of_eq (slotA7_eq ..) rfl, comparesZero_of (exec_cmpGtOrP1P2R0R3 o),
    encodesA_of_eq (slotA7_eq ..) rfl, comparesZero_of (exec_cmp4GtOrP1P2R0R3 o),
    encodesA_of_eq (slotA7_eq ..) rfl, comparesZero_of (exec_cmpLeOrP1P2R0R3 o),
    encodesA_of_eq (slotA7_eq ..) rfl, comparesZero_of (exec_cmp4LeOrP1P2R0R3 o),
    encodesA_of_eq (slotA7_eq ..) rfl, comparesZero_of (exec_cmpGeOrP1P2R0R3 o),
    encodesA_of_eq (slotA7_eq ..) rfl, comparesZero_of (exec_cmp4GeOrP1P2R0R3 o),
    encodesA_of_eq (slotA7_eq ..) rfl, comparesZero_of (exec_cmpLtOrP1P2R0R3 o),
    encodesA_of_eq (slotA7_eq ..) rfl, comparesZero_of (exec_cmp4LtOrP1P2R0R3 o),
    encodesA_of_eq (slotA7_eq ..) rfl, comparesZero_of (exec_cmpGtOrAndcmP1P2R0R3 o),
    encodesA_of_eq (slotA7_eq ..) rfl, comparesZero_of (exec_cmp4GtOrAndcmP1P2R0R3 o),
    encodesA_of_eq (slotA7_eq ..) rfl, comparesZero_of (exec_cmpLeOrAndcmP1P2R0R3 o),
    encodesA_of_eq (slotA7_eq ..) rfl, comparesZero_of (exec_cmp4LeOrAndcmP1P2R0R3 o),
    encodesA_of_eq (slotA7_eq ..) rfl, comparesZero_of (exec_cmpGeOrAndcmP1P2R0R3 o),
    encodesA_of_eq (slotA7_eq ..) rfl, comparesZero_of (exec_cmp4GeOrAndcmP1P2R0R3 o),
    encodesA_of_eq (slotA7_eq ..) rfl, comparesZero_of (exec_cmpLtOrAndcmP1P2R0R3 o),
    encodesA_of_eq (slotA7_eq ..) rfl, comparesZero_of (exec_cmp4LtOrAndcmP1P2R0R3 o)⟩

/-- Settles O5: each form stands at its place of the table of R521, in format A8, and is carried out by `compareImm`. -/
theorem compareImmediates : Obligations.CompareImmediates := fun o => ⟨
    encodesA_of_eq (slotA8_eq ..) rfl, comparesImm_of (exec_cmpLtP1P2Imm8R3 o),
    encodesA_of_eq (slotA8_eq ..) rfl, comparesImm_of (exec_cmp4LtP1P2Imm8R3 o),
    encodesA_of_eq (slotA8_eq ..) rfl, comparesImm_of (exec_cmpLtUncP1P2Imm8R3 o),
    encodesA_of_eq (slotA8_eq ..) rfl, comparesImm_of (exec_cmp4LtUncP1P2Imm8R3 o),
    encodesA_of_eq (slotA8_eq ..) rfl, comparesImm_of (exec_cmpEqAndP1P2Imm8R3 o),
    encodesA_of_eq (slotA8_eq ..) rfl, comparesImm_of (exec_cmp4EqAndP1P2Imm8R3 o),
    encodesA_of_eq (slotA8_eq ..) rfl, comparesImm_of (exec_cmpNeAndP1P2Imm8R3 o),
    encodesA_of_eq (slotA8_eq ..) rfl, comparesImm_of (exec_cmp4NeAndP1P2Imm8R3 o),
    encodesA_of_eq (slotA8_eq ..) rfl, comparesImm_of (exec_cmpLtuP1P2Imm8R3 o),
    encodesA_of_eq (slotA8_eq ..) rfl, comparesImm_of (exec_cmp4LtuP1P2Imm8R3 o),
    encodesA_of_eq (slotA8_eq ..) rfl, comparesImm_of (exec_cmpLtuUncP1P2Imm8R3 o),
    encodesA_of_eq (slotA8_eq ..) rfl, comparesImm_of (exec_cmp4LtuUncP1P2Imm8R3 o),
    encodesA_of_eq (slotA8_eq ..) rfl, comparesImm_of (exec_cmpEqOrP1P2Imm8R3 o),
    encodesA_of_eq (slotA8_eq ..) rfl, comparesImm_of (exec_cmp4EqOrP1P2Imm8R3 o),
    encodesA_of_eq (slotA8_eq ..) rfl, comparesImm_of (exec_cmpNeOrP1P2Imm8R3 o),
    encodesA_of_eq (slotA8_eq ..) rfl, comparesImm_of (exec_cmp4NeOrP1P2Imm8R3 o),
    encodesA_of_eq (slotA8_eq ..) rfl, comparesImm_of (exec_cmpEqP1P2Imm8R3 o),
    encodesA_of_eq (slotA8_eq ..) rfl, comparesImm_of (exec_cmp4EqP1P2Imm8R3 o),
    encodesA_of_eq (slotA8_eq ..) rfl, comparesImm_of (exec_cmpEqUncP1P2Imm8R3 o),
    encodesA_of_eq (slotA8_eq ..) rfl, comparesImm_of (exec_cmp4EqUncP1P2Imm8R3 o),
    encodesA_of_eq (slotA8_eq ..) rfl, comparesImm_of (exec_cmpEqOrAndcmP1P2Imm8R3 o),
    encodesA_of_eq (slotA8_eq ..) rfl, comparesImm_of (exec_cmp4EqOrAndcmP1P2Imm8R3 o),
    encodesA_of_eq (slotA8_eq ..) rfl, comparesImm_of (exec_cmpNeOrAndcmP1P2Imm8R3 o),
    encodesA_of_eq (slotA8_eq ..) rfl, comparesImm_of (exec_cmp4NeOrAndcmP1P2Imm8R3 o)⟩

end Sys2Proof
end

