-- ==== Sys2Proof/Proofs/ParallelArithmetic.lean ====
section
/-!
Multimedia arithmetic of the A type (40 R524 to R529): a word made of elements has those elements, and each operation gives
each element the value of its rule.
-/

namespace Sys2Proof.Machine

/-! ## Elements of a word -/

theorem element_or (n : Nat) (v w : Word) (i : Nat) : element n (v ||| w) i = element n v i ||| element n w i := by
  simp [element, BitVec.ushiftRight_or_distrib]

/-- An element that was put is read back. -/
theorem element_put_same {n k : Nat} (x : BitVec n) (h : n * (k + 1) ≤ 64) :
    element n (x.setWidth 64 <<< (n * k)) k = x := by
  rw [Nat.mul_succ] at h
  apply BitVec.eq_of_getLsbD_eq
  intro j hj
  simp [element, hj, show n * k + j < 64 by omega, show j < 64 by omega, -BitVec.getLsbD_eq_getElem]

/-- Elements of different numbers do not touch each other. -/
theorem element_put_other {n i k : Nat} (x : BitVec n) (h : i ≠ k) : element n (x.setWidth 64 <<< (n * k)) i = 0#n := by
  apply BitVec.eq_of_getLsbD_eq
  intro j hj
  have hapart : n * i + j < n * k ∨ n * k + n ≤ n * i + j := by
    rcases Nat.lt_or_gt_of_ne h with h | h
    all_goals
      have hnext := Nat.mul_le_mul_left n (Nat.succ_le_of_lt h)
      rw [Nat.mul_succ] at hnext
      omega
  simp only [element, BitVec.getLsbD_setWidth, BitVec.getLsbD_ushiftRight, BitVec.getLsbD_shiftLeft, BitVec.getLsbD_zero]
  rcases hapart with h | h
  · simp [h]
  · simp [BitVec.getLsbD_of_ge x _ (show n ≤ n * i + j - n * k by omega)]

theorem element_ofElements_beyond {n : Nat} (f : Nat → BitVec n) {k i : Nat} (h : k ≤ i) :
    element n (ofElements n f k) i = 0#n := by
  induction k with
  | zero => simp [ofElements, element]
  | succ k ih => rw [ofElements, element_or, ih (by omega), element_put_other _ (by omega), BitVec.or_zero]

/-- A word made of elements has them. -/
theorem element_ofElements {n : Nat} (f : Nat → BitVec n) {k i : Nat} (hi : i < k) (h : n * k ≤ 64) :
    element n (ofElements n f k) i = f i := by
  induction k with
  | zero => omega
  | succ k ih =>
    rw [ofElements, element_or]
    by_cases hik : i = k
    · rw [hik, element_ofElements_beyond f le_rfl, element_put_same _ h, BitVec.zero_or]
    · rw [element_put_other _ hik, ih (by omega) (by rw [Nat.mul_succ] at h; omega), BitVec.or_zero]

theorem element_mapElements {n : Nat} (f : BitVec n → BitVec n → BitVec n) (a b : Word) {i : Nat} (hi : i < 64 / n) :
    element n (mapElements n f a b) i = f (element n a i) (element n b i) :=
  element_ofElements _ hi (Nat.mul_div_le 64 n)

/-! ## Saturation and rounding -/

theorem clampInt_bounds {lo hi : Int} (h : lo ≤ hi) (x : Int) : lo ≤ clampInt lo hi x ∧ clampInt lo hi x ≤ hi := by
  unfold clampInt; split_ifs <;> omega

theorem toInt_satS {n : Nat} (h : 0 < n) (x : Int) :
    (satS n x).toInt = clampInt (-(2 ^ (n - 1))) (2 ^ (n - 1) - 1) x := by
  have hpos : (0 : Int) < 2 ^ (n - 1) := by positivity
  obtain ⟨hlo, hhi⟩ := clampInt_bounds (show -(2 ^ (n - 1)) ≤ (2 : Int) ^ (n - 1) - 1 by omega) x
  exact BitVec.toInt_ofInt_eq_self h hlo (by omega)

theorem toNat_satU (n : Nat) (x : Int) : ((satU n x).toNat : Int) = clampInt 0 (2 ^ n - 1) x := by
  have hpos : (0 : Int) < 2 ^ n := by positivity
  obtain ⟨hlo, hhi⟩ := clampInt_bounds (show (0 : Int) ≤ 2 ^ n - 1 by omega) x
  rw [satU, BitVec.toNat_ofInt, Nat.cast_pow, Nat.cast_ofNat, Int.emod_eq_of_lt hlo (by omega), Int.toNat_of_nonneg hlo]

theorem ofInt_toNat_add {n : Nat} (x y : BitVec n) : BitVec.ofInt n (x.toNat + y.toNat) = x + y := by
  rw [BitVec.ofInt_add, BitVec.ofInt_natCast, BitVec.ofInt_natCast, BitVec.ofNat_toNat, BitVec.ofNat_toNat,
    BitVec.setWidth_eq, BitVec.setWidth_eq]

theorem ofInt_toNat_sub {n : Nat} (x y : BitVec n) : BitVec.ofInt n (x.toNat - y.toNat) = x - y := by
  apply BitVec.eq_of_toInt_eq
  rw [BitVec.toInt_ofInt, BitVec.toInt_sub, BitVec.toInt_eq_toNat_bmod x, BitVec.toInt_eq_toNat_bmod y, Int.bmod_sub_bmod,
    Int.sub_bmod_bmod]

theorem toNat_halveSticky {n v : Nat} (hn : 0 < n) (h : v < 2 ^ (n + 1)) :
    (halveSticky n v : BitVec n).toNat = v / 2 ||| v % 2 := by
  have hbit : v % 2 < 2 ^ n := (Nat.mod_lt v (by decide)).trans_le (Nat.le_self_pow hn.ne' 2)
  have hhalf : v / 2 < 2 ^ n := by rw [Nat.pow_succ] at h; omega
  rw [halveSticky, BitVec.toNat_or, BitVec.toNat_ofNat, BitVec.toNat_ofNat, Nat.mod_eq_of_lt hhalf, Nat.mod_eq_of_lt hbit]

/-! ## Elements of the operations -/

section
variable {n i : Nat} (a b : Word)

theorem element_paddOf (form : SatForm) (hi : i < 64 / n) :
    element n (paddOf form n a b) i = satOp form n (· + ·) (element n a i) (element n b i) := element_mapElements _ a b hi

theorem element_psubOf (form : SatForm) (hi : i < 64 / n) :
    element n (psubOf form n a b) i = satOp form n (· - ·) (element n a i) (element n b i) := element_mapElements _ a b hi

/-- 40 R526: the average, its last bit ORed with the bit shifted out. -/
theorem toNat_element_pavgOf (hn : 0 < n) (hi : i < 64 / n) : (element n (pavgOf false n a b) i).toNat =
    ((element n a i).toNat + (element n b i).toNat) / 2 ||| ((element n a i).toNat + (element n b i).toNat) % 2 := by
  have ha := (element n a i).isLt
  have hb := (element n b i).isLt
  rw [pavgOf, element_mapElements _ a b hi]
  exact toNat_halveSticky hn (by rw [Nat.pow_succ]; omega)

/-- 40 R526: the average rounded away from zero. -/
theorem toNat_element_pavgOf_raz (hi : i < 64 / n) : (element n (pavgOf true n a b) i).toNat =
    ((element n a i).toNat + (element n b i).toNat + 1) / 2 := by
  have ha := (element n a i).isLt
  have hb := (element n b i).isLt
  rw [pavgOf, element_mapElements _ a b hi, if_pos rfl, BitVec.toNat_ofNat, Nat.mod_eq_of_lt (by omega)]

/-- A difference on one extra bit, kept natural by adding the modulus. -/
theorem natCast_difference_mod {x y m : Nat} (hy : y ≤ m) : (((x + m - y) % m : Nat) : Int) = ((x : Int) - y) % m := by
  rw [Int.natCast_mod, Int.natCast_sub (by omega), Int.natCast_add, show (x : Int) + m - y = x - y + m by omega,
    Int.add_emod_right]

/-- 40 R526: half the difference, its last bit ORed with the bit shifted out. -/
theorem toNat_element_pavgsubOf (hn : 0 < n) (hi : i < 64 / n) : ((element n (pavgsubOf n a b) i).toNat : Int) =
    ((((element n a i).toNat - (element n b i).toNat : Int) % 2 ^ (n + 1)) / 2).toNat
      ||| (((element n a i).toNat - (element n b i).toNat : Int) % 2).toNat := by
  rw [pavgsubOf, element_mapElements _ a b hi, toNat_halveSticky hn (Nat.mod_lt _ (by positivity))]
  have hy : (element n b i).toNat ≤ 2 ^ (n + 1) := by have := (element n b i).isLt; rw [Nat.pow_succ]; omega
  have hv := natCast_difference_mod (x := (element n a i).toNat) hy
  rw [Nat.cast_pow, Nat.cast_ofNat] at hv
  have hparity := Int.emod_emod_of_dvd ((element n a i).toNat - (element n b i).toNat : Int)
    (show (2 : Int) ∣ 2 ^ (n + 1) from Dvd.intro_left _ (pow_succ 2 n).symm)
  rw [← hv] at hparity ⊢
  rw [← hparity]
  rfl

/-- 40 R527: all ones where the elements are equal. -/
theorem element_pcmpOf_eq (hi : i < 64 / n) : element n (pcmpOf false n a b) i =
    (if element n a i = element n b i then BitVec.allOnes n else 0#n) := by
  rw [pcmpOf, element_mapElements _ a b hi]
  simp

/-- 40 R527: all ones where the first element is the greater signed one. -/
theorem element_pcmpOf_gt (hi : i < 64 / n) : element n (pcmpOf true n a b) i =
    (if (element n b i).toInt < (element n a i).toInt then BitVec.allOnes n else 0#n) := by
  rw [pcmpOf, element_mapElements _ a b hi]
  simp [BitVec.slt_iff_toInt_lt]

end

theorem toInt_element_pshladd2Of (c : Nat) (a b : Word) {i : Nat} (hi : i < 4) : (element 16 (pshladd2Of c a b) i).toInt =
    clampInt (-32768) 32767 (clampInt (-32768) 32767 ((element 16 a i).toInt * 2 ^ c) + (element 16 b i).toInt) := by
  rw [pshladd2Of, element_mapElements _ a b hi, toInt_satS (by decide), toInt_satS (by decide)]
  rfl

theorem toInt_element_pshradd2Of (c : Nat) (a b : Word) {i : Nat} (hi : i < 4) : (element 16 (pshradd2Of c a b) i).toInt =
    clampInt (-32768) 32767 ((element 16 a i).toInt / 2 ^ c + (element 16 b i).toInt) := by
  rw [pshradd2Of, element_mapElements _ a b hi, toInt_satS (by decide), BitVec.toInt_sshiftRight, Int.shiftRight_eq_div_pow]
  norm_num

/-! ## The forms -/

/-- Settles O6: each form stands at its place of formats A9 and A10 and is carried out by `alu2`; the elements of the results
by the lemmas of their operations. -/
theorem parallelArithmetic : Obligations.ParallelArithmetic := by
  refine ⟨fun o => ?_, fun o => ?_, fun n a b hn i hi => ?_, fun c a b _ _ i hi =>
    ⟨toInt_element_pshladd2Of c a b hi, toInt_element_pshradd2Of c a b hi⟩⟩
  · exact ⟨
      encodesA_of_eq (slotA9_eq ..) rfl, result2_of (exec_padd1 o),
      encodesA_of_eq (slotA9_eq ..) rfl, result2_of (exec_padd1Sss o),
      encodesA_of_eq (slotA9_eq ..) rfl, result2_of (exec_padd1Uuu o),
      encodesA_of_eq (slotA9_eq ..) rfl, result2_of (exec_padd1Uus o),
      encodesA_of_eq (slotA9_eq ..) rfl, result2_of (exec_padd2 o),
      encodesA_of_eq (slotA9_eq ..) rfl, result2_of (exec_padd2Sss o),
      encodesA_of_eq (slotA9_eq ..) rfl, result2_of (exec_padd2Uuu o),
      encodesA_of_eq (slotA9_eq ..) rfl, result2_of (exec_padd2Uus o),
      encodesA_of_eq (slotA9_eq ..) rfl, result2_of (exec_padd4 o),
      encodesA_of_eq (slotA9_eq ..) rfl, result2_of (exec_psub1 o),
      encodesA_of_eq (slotA9_eq ..) rfl, result2_of (exec_psub1Sss o),
      encodesA_of_eq (slotA9_eq ..) rfl, result2_of (exec_psub1Uuu o),
      encodesA_of_eq (slotA9_eq ..) rfl, result2_of (exec_psub1Uus o),
      encodesA_of_eq (slotA9_eq ..) rfl, result2_of (exec_psub2 o),
      encodesA_of_eq (slotA9_eq ..) rfl, result2_of (exec_psub2Sss o),
      encodesA_of_eq (slotA9_eq ..) rfl, result2_of (exec_psub2Uuu o),
      encodesA_of_eq (slotA9_eq ..) rfl, result2_of (exec_psub2Uus o),
      encodesA_of_eq (slotA9_eq ..) rfl, result2_of (exec_psub4 o),
      encodesA_of_eq (slotA9_eq ..) rfl, result2_of (exec_pavg1 o),
      encodesA_of_eq (slotA9_eq ..) rfl, result2_of (exec_pavg1Raz o),
      encodesA_of_eq (slotA9_eq ..) rfl, result2_of (exec_pavgsub1 o),
      encodesA_of_eq (slotA9_eq ..) rfl, result2_of (exec_pavg2 o),
      encodesA_of_eq (slotA9_eq ..) rfl, result2_of (exec_pavg2Raz o),
      encodesA_of_eq (slotA9_eq ..) rfl, result2_of (exec_pavgsub2 o),
      encodesA_of_eq (slotA9_eq ..) rfl, result2_of (exec_pcmp1Eq o),
      encodesA_of_eq (slotA9_eq ..) rfl, result2_of (exec_pcmp1Gt o),
      encodesA_of_eq (slotA9_eq ..) rfl, result2_of (exec_pcmp2Eq o),
      encodesA_of_eq (slotA9_eq ..) rfl, result2_of (exec_pcmp2Gt o),
      encodesA_of_eq (slotA9_eq ..) rfl, result2_of (exec_pcmp4Eq o),
      encodesA_of_eq (slotA9_eq ..) rfl, result2_of (exec_pcmp4Gt o)⟩
  · exact ⟨
      encodesA_of_eq (slotA10_eq ..) rfl, result2_of (exec_pshladd2 o),
      encodesA_of_eq (slotA10_eq ..) rfl, result2_of (exec_pshradd2 o)⟩
  · have h0 : 0 < n := by omega
    simp only [element_paddOf a b _ hi, element_psubOf a b _ hi]
    exact ⟨ofInt_toNat_add _ _, toInt_satS h0 _, toNat_satU n _, toNat_satU n _,
      ofInt_toNat_sub _ _, toInt_satS h0 _, toNat_satU n _, toNat_satU n _,
      toNat_element_pavgOf a b h0 hi, toNat_element_pavgOf_raz a b hi, toNat_element_pavgsubOf a b h0 hi,
      element_pcmpOf_eq a b hi, element_pcmpOf_gt a b hi⟩

end Sys2Proof.Machine
end

