-- ==== Sys2Proof/Proofs/FormatsI.lean ====
section
/-!
The slots of formats I5, I10 to I17 and I29 (41 R536 to R547, R561 to R563; 30 R450 to R452): written field by field they are the
opcode of a row, the bits that no field covers, and the operands; the row reads the operands whatever those bits are (log 21).
-/

namespace Sys2Proof

open Sys2Proof.Machine

/-! ## The formats -/

theorem slotI5_eq (x2c x2b : BitVec 2) (b27 : BitVec 1) (o : OpA1) :
    slotI5 x2c x2b b27 o = (slotPut 7#4 0 4 37 ||| slotPut 1#1 0 1 36 ||| slotPut 1#1 0 1 33 ||| slotPut x2c 0 2 30 |||
      slotPut x2b 0 2 28) ||| slotPut b27 0 1 27 ||| o.enc := by
  rw [← slotPut_all (slotI5 x2c x2b b27 o)]
  simp (disch := rfl) only [slotI5, slotPut_append]
  simp only [OpA1.enc, slotPut_zero, BitVec.zero_or, Nat.reduceAdd, slot_or_left_comm, BitVec.or_assoc, BitVec.or_comm]

theorem slotI10_eq (b36 : BitVec 1) (o : OpI10) :
    slotI10 b36 o = (slotPut 5#4 0 4 37 ||| slotPut 3#2 0 2 34) ||| slotPut b36 0 1 36 ||| o.enc := by
  rw [← slotPut_all (slotI10 b36 o)]
  simp (disch := rfl) only [slotI10, slotPut_append]
  simp only [OpI10.enc, slotPut_zero, BitVec.zero_or, Nat.reduceAdd, slot_or_left_comm, BitVec.or_assoc, BitVec.or_comm]

theorem slotI11_eq (b36 y : BitVec 1) (o : OpI11) :
    slotI11 b36 y o =
      (slotPut 5#4 0 4 37 ||| slotPut 1#2 0 2 34 ||| slotPut y 0 1 13) ||| slotPut b36 0 1 36 ||| o.enc := by
  rw [← slotPut_all (slotI11 b36 y o)]
  simp (disch := rfl) only [slotI11, slotPut_append]
  simp only [OpI11.enc, slotPut_zero, BitVec.zero_or, Nat.reduceAdd, slot_or_left_comm, BitVec.or_assoc, BitVec.or_comm]

theorem slotI12_eq (b36 : BitVec 1) (o : OpI12) :
    slotI12 b36 o =
      (slotPut 5#4 0 4 37 ||| slotPut 1#2 0 2 34 ||| slotPut 1#1 0 1 33) ||| slotPut b36 0 1 36 ||| o.enc := by
  rw [← slotPut_all (slotI12 b36 o)]
  simp (disch := rfl) only [slotI12, slotPut_append]
  simp only [OpI12.enc, slotPut_zero, BitVec.zero_or, Nat.reduceAdd, slot_or_left_comm, BitVec.or_assoc, BitVec.or_comm]

theorem slotI13_eq (o : OpI13) :
    slotI13 o = slotPut 5#4 0 4 37 ||| slotPut 1#2 0 2 34 ||| slotPut 1#1 0 1 33 ||| slotPut 1#1 0 1 26 ||| o.enc := by
  rw [← slotPut_all (slotI13 o)]
  simp (disch := rfl) only [slotI13, slotPut_append]
  simp only [OpI13.enc, slotPut_extract, Nat.reduceAdd, slot_or_left_comm, BitVec.or_assoc, BitVec.or_comm]

theorem slotI14_eq (o : OpI14) :
    slotI14 o = slotPut 5#4 0 4 37 ||| slotPut 3#2 0 2 34 ||| slotPut 1#1 0 1 33 ||| o.enc := by
  rw [← slotPut_all (slotI14 o)]
  simp (disch := rfl) only [slotI14, slotPut_append]
  simp only [OpI14.enc, slotPut_zero, BitVec.zero_or, Nat.reduceAdd, slot_or_left_comm, BitVec.or_assoc, BitVec.or_comm]

theorem slotI15_eq (o : OpI15) : slotI15 o = slotPut 4#4 0 4 37 ||| o.enc := by
  rw [← slotPut_all (slotI15 o)]
  simp (disch := rfl) only [slotI15, slotPut_append]
  simp only [OpI15.enc, Nat.reduceAdd, BitVec.or_assoc]

theorem slotI16_eq (ta tb c : BitVec 1) (o : OpI16) :
    slotI16 ta tb c o =
      slotPut 5#4 0 4 37 ||| slotPut tb 0 1 36 ||| slotPut ta 0 1 33 ||| slotPut c 0 1 12 ||| o.enc := by
  rw [← slotPut_all (slotI16 ta tb c o)]
  simp (disch := rfl) only [slotI16, slotPut_append]
  simp only [OpI16.enc, slotPut_zero, BitVec.zero_or, Nat.reduceAdd, slot_or_left_comm, BitVec.or_assoc, BitVec.or_comm]

theorem slotI17_eq (ta tb c : BitVec 1) (ignored : BitVec 6) (o : OpA7) :
    slotI17 ta tb c ignored o = (slotPut 5#4 0 4 37 ||| slotPut tb 0 1 36 ||| slotPut ta 0 1 33 ||| slotPut 1#1 0 1 13 |||
      slotPut c 0 1 12) ||| slotPut ignored 0 6 14 ||| o.enc := by
  rw [← slotPut_all (slotI17 ta tb c ignored o)]
  simp (disch := rfl) only [slotI17, slotPut_append]
  simp only [OpA7.enc, slotPut_zero, BitVec.zero_or, Nat.reduceAdd, slot_or_left_comm, BitVec.or_assoc, BitVec.or_comm]

theorem slotI29_eq (b36 : BitVec 1) (x6 : BitVec 6) (b19 : BitVec 7) (o : OpI29) :
    slotI29 b36 x6 b19 o = slotPut x6 0 6 27 ||| (slotPut b36 0 1 36 ||| slotPut b19 0 7 13) ||| o.enc := by
  rw [← slotPut_all (slotI29 b36 x6 b19 o)]
  simp (disch := rfl) only [slotI29, slotPut_append]
  simp only [OpI29.enc, slotPut_zero, BitVec.zero_or, Nat.reduceAdd, slot_or_left_comm, BitVec.or_assoc, BitVec.or_comm]

/-! ## Decoding -/

/-- A field put apart from a set of bits has none of them. -/
theorem slotPut_and_apart {n : Nat} (x : BitVec n) (f : Nat) {m : Slot} {len lo : Nat} (h : slotField m lo len = 0#len) :
    slotPut x f len lo &&& m = 0#41 := by
  apply BitVec.eq_of_getLsbD_eq
  intro i _
  have hm := congrArg (·.getLsbD (i - lo)) h
  simp only [getLsbD_slotField, BitVec.getLsbD_zero, Bool.and_eq_false_iff, decide_eq_false_iff_not] at hm
  simp only [BitVec.getLsbD_and, getLsbD_slotPut, BitVec.getLsbD_zero, Bool.and_eq_false_iff, decide_eq_false_iff_not]
  by_cases hlo : lo ≤ i
  · rw [Nat.add_sub_cancel' hlo] at hm
    tauto
  · tauto

/-- The row of an I instruction reads its operands beside its opcode whatever stands in the bits `g`, which are neither of the
row's mask nor of its fields (log 21). -/
theorem SlotHolds.encodes_ignoring {α : Type} {dec : Slot → α} {o : α} {g v w m ign bits : Slot} {C : α → Instr}
    (h : SlotHolds (fun w _ => dec w) o w 0#41 bits)
    (hr : (unitRows .i)[(C o).ctorIdx - firstRow .i]? = some ⟨m, v, ign, bits, fun w _ => C (dec w)⟩)
    (hm : g &&& m = 0#41) (hc : g &&& bits = 0#41) : Encodes .i (v ||| g ||| w) (C o) := by
  have hmem := List.mem_of_getElem? hr
  obtain ⟨hvm, hmc⟩ := rows_fields_apart .i _ hmem
  dsimp only at hvm hmc
  have hvc : v &&& bits = 0#41 := by rw [← hvm, BitVec.and_assoc, hmc, BitVec.and_zero]
  have hits : (v ||| g ||| w) &&& m = v := by
    rw [slot_or_and, slot_or_and, hvm, hm, h.within m hmc, BitVec.or_zero, BitVec.or_zero]
  intro l
  obtain ⟨k, hk⟩ := List.mem_iff_getElem?.1 (List.mem_append_right rowsA hmem)
  rw [decodeSlot_row (u := .i) k hk (beq_iff_eq.2 hits)]
  exact congrArg (Except.ok ∘ C) (h.reads _ (slot_or_and_eq_zero.2 ⟨hvc, hc⟩))

/-- No I row looks at the L slot. -/
theorem rowsI_make (w l : Slot) : ∀ r ∈ rowsI, r.make w l = r.make w 0#41 := by
  simp [rowsI, rowsI0]

/-- An encoded I instruction is read in an I slot. -/
theorem encodesI_of_eq {i : Instr} {v w : Slot} (hw : w = v) (h : encode i = some ⟨.i, v, 0#41⟩) : Encodes .i w i := by
  subst hw
  obtain ⟨r, hr, hits, hmake, -⟩ := encode_row i _ h
  have hmem := List.mem_of_getElem? hr
  intro l
  obtain ⟨k, hk⟩ := List.mem_iff_getElem?.1 (List.mem_append_right rowsA hmem)
  rw [decodeSlot_row (u := .i) k hk hits, rowsI_make w l r hmem, hmake]

/-! A form of a format with bits that no field covers stands at its place of the format whatever those bits are; `C` is the
constructor of a row with the format's mask and operands, and the row is found at its place in the table. -/

theorem slotI5_encodes {x2c x2b : BitVec 2} {C : OpA1 → Instr} {ign : Slot} {o : OpA1}
    (hr : (unitRows .i)[(C o).ctorIdx - firstRow .i]? =
        some ⟨0x1fff0000000#41, slotPut 7#4 0 4 37 ||| slotPut 1#1 0 1 36 ||| slotPut 1#1 0 1 33 |||
          slotPut x2c 0 2 30 ||| slotPut x2b 0 2 28, ign, 0x7ffffff#41, fun w _ => C (.dec w)⟩ := by
      dsimp only [firstRow, Instr.ctorIdx, Nat.reduceSub]; rfl)
    (b27 : BitVec 1) : Encodes .i (slotI5 x2c x2b b27 o) (C o) := by
  rw [slotI5_eq]
  exact o.enc_holds.encodes_ignoring hr (by simp (disch := decide) [slotPut_and_apart])
    (by simp (disch := decide) [slotPut_and_apart])

theorem slotI10_encodes {C : OpI10 → Instr} {ign : Slot} {o : OpI10}
    (hr : (unitRows .i)[(C o).ctorIdx - firstRow .i]? =
        some ⟨0x1ee00000000#41, slotPut 5#4 0 4 37 ||| slotPut 3#2 0 2 34, ign, 0x1ffffffff#41, fun w _ => C (.dec w)⟩ := by
      dsimp only [firstRow, Instr.ctorIdx, Nat.reduceSub]; rfl)
    (b36 : BitVec 1) : Encodes .i (slotI10 b36 o) (C o) := by
  rw [slotI10_eq]
  exact o.enc_holds.encodes_ignoring hr (by simp (disch := decide) [slotPut_and_apart])
    (by simp (disch := decide) [slotPut_and_apart])

theorem slotI11_encodes {y : BitVec 1} {C : OpI11 → Instr} {ign : Slot} {o : OpI11}
    (hr : (unitRows .i)[(C o).ctorIdx - firstRow .i]? =
        some ⟨0x1ee00002000#41, slotPut 5#4 0 4 37 ||| slotPut 1#2 0 2 34 ||| slotPut y 0 1 13, ign, 0x1ffffdfff#41,
          fun w _ => C (.dec w)⟩ := by
      dsimp only [firstRow, Instr.ctorIdx, Nat.reduceSub]; rfl)
    (b36 : BitVec 1) : Encodes .i (slotI11 b36 y o) (C o) := by
  rw [slotI11_eq]
  exact o.enc_holds.encodes_ignoring hr (by simp (disch := decide) [slotPut_and_apart])
    (by simp (disch := decide) [slotPut_and_apart])

theorem slotI12_encodes {C : OpI12 → Instr} {ign : Slot} {o : OpI12}
    (hr : (unitRows .i)[(C o).ctorIdx - firstRow .i]? =
        some ⟨0x1ee04000000#41, slotPut 5#4 0 4 37 ||| slotPut 1#2 0 2 34 ||| slotPut 1#1 0 1 33, ign, 0x1fbffffff#41,
          fun w _ => C (.dec w)⟩ := by
      dsimp only [firstRow, Instr.ctorIdx, Nat.reduceSub]; rfl)
    (b36 : BitVec 1) : Encodes .i (slotI12 b36 o) (C o) := by
  rw [slotI12_eq]
  exact o.enc_holds.encodes_ignoring hr (by simp (disch := decide) [slotPut_and_apart])
    (by simp (disch := decide) [slotPut_and_apart])

theorem slotI17_encodes {ta tb c : BitVec 1} {C : OpA7 → Instr} {ign : Slot} {o : OpA7}
    (hr : (unitRows .i)[(C o).ctorIdx - firstRow .i]? =
        some ⟨0x1fe00003000#41, slotPut 5#4 0 4 37 ||| slotPut tb 0 1 36 ||| slotPut ta 0 1 33 |||
          slotPut 1#1 0 1 13 ||| slotPut c 0 1 12, ign, 0x1fff00fff#41, fun w _ => C (.dec w)⟩ := by
      dsimp only [firstRow, Instr.ctorIdx, Nat.reduceSub]; rfl)
    (x : BitVec 6) : Encodes .i (slotI17 ta tb c x o) (C o) := by
  rw [slotI17_eq]
  exact o.enc_holds.encodes_ignoring hr (by simp (disch := decide) [slotPut_and_apart])
    (by simp (disch := decide) [slotPut_and_apart])

theorem slotI29_encodes {x6 : BitVec 6} {C : OpI29 → Instr} {ign : Slot} {o : OpI29}
    (hr : (unitRows .i)[(C o).ctorIdx - firstRow .i]? =
        some ⟨0x1eff8000000#41, slotPut x6 0 6 27, ign, 0x7f01fff#41, fun w _ => C (.dec w)⟩ := by
      dsimp only [firstRow, Instr.ctorIdx, Nat.reduceSub]; rfl)
    (x : BitVec 1) (y : BitVec 7) : Encodes .i (slotI29 x x6 y o) (C o) := by
  rw [slotI29_eq]
  exact o.enc_holds.encodes_ignoring hr (by simp (disch := decide) [slotPut_and_apart])
    (by simp (disch := decide) [slotPut_and_apart])

end Sys2Proof
end

