-- ==== Sys2Proof/Proofs/TestsAndMoves.lean ====
section
/-!
Tests of a bit and of a NaT bit (41 R546, R547), which are compares, and the moves to and from branch registers, predicates and
the instruction pointer (R550 to R555).
-/

namespace Sys2Proof.Machine

/-! ## Tests -/

theorem testsBit_of {i : Instr} {ct : CType} {o : OpI16} {value : Bool} (he : ∀ s, exec i s = testBit ct value o s) :
    TestsBit i ct o value := by
  intro s
  rw [he]
  exact testBit_cases ct value o s

theorem testsNat_of {i : Instr} {ct : CType} {o : OpA7} {value : Bool} (he : ∀ s, exec i s = testNat ct value o s) :
    TestsNat i ct o value := by
  intro s
  rw [he]
  exact testNat_cases ct value o s

/-- Settles O10: each form stands at its place of the table of R546 and is carried out by `testBit` or `testNat`. -/
theorem testBits : Obligations.TestBits := by
  refine ⟨fun o => ?_, fun o => ?_⟩
  · exact ⟨
      encodesI_of_eq (slotI16_eq ..) rfl, testsBit_of (exec_tbitZ o),
      encodesI_of_eq (slotI16_eq ..) rfl, testsBit_of (exec_tbitZUnc o),
      encodesI_of_eq (slotI16_eq ..) rfl, testsBit_of (exec_tbitZAnd o),
      encodesI_of_eq (slotI16_eq ..) rfl, testsBit_of (exec_tbitNzAnd o),
      encodesI_of_eq (slotI16_eq ..) rfl, testsBit_of (exec_tbitZOr o),
      encodesI_of_eq (slotI16_eq ..) rfl, testsBit_of (exec_tbitNzOr o),
      encodesI_of_eq (slotI16_eq ..) rfl, testsBit_of (exec_tbitZOrAndcm o),
      encodesI_of_eq (slotI16_eq ..) rfl, testsBit_of (exec_tbitNzOrAndcm o)⟩
  · exact ⟨
      slotI17_encodes, testsNat_of (exec_tnatZ o),
      slotI17_encodes, testsNat_of (exec_tnatZUnc o),
      slotI17_encodes, testsNat_of (exec_tnatZAnd o),
      slotI17_encodes, testsNat_of (exec_tnatNzAnd o),
      slotI17_encodes, testsNat_of (exec_tnatZOr o),
      slotI17_encodes, testsNat_of (exec_tnatNzOr o),
      slotI17_encodes, testsNat_of (exec_tnatZOrAndcm o),
      slotI17_encodes, testsNat_of (exec_tnatNzOrAndcm o)⟩

/-! ## Moves -/

theorem result0_of {i : Instr} {qp : BitVec 6} {r1 : BitVec 7} {v w : State → Word}
    (he : ∀ s, exec i s = alu0 qp r1 (v s) s) (hv : ∀ s, v s = w s := by intros; rfl) : Result0 i qp r1 w := by
  obtain rfl : v = w := funext hv
  intro s
  rw [he]
  exact alu0_cases

section
variable (s : State)

theorem br?_setBr (b c : BitVec 3) (v : Word) : (s.setBr b v).lp.br? c = if c = b then v else s.lp.br? c := by
  by_cases h : c = b
  · rw [if_pos h, h]
    exact getD_set_same _ _ _ _ b.isLt
  · rw [if_neg h]
    exact getD_set_other _ _ _ _ _ fun e => h (BitVec.eq_of_toNat_eq e.symm)

/-- 41 R552: a predicate is written if the mask selects it, but `p0` never is. -/
theorem setPrs_bit (m v : Word) {i : Nat} (hi : i < 64) : (s.setPrs m v).lp.pr.getLsbD i =
    if i ≠ 0 ∧ m.getLsbD i = true then v.getLsbD i else s.lp.pr.getLsbD i := by
  simp only [State.setPrs, setLp_lp, BitVec.getLsbD_or, BitVec.getLsbD_and, BitVec.getLsbD_not, BitVec.getLsbD_one, hi]
  by_cases h0 : i = 0 <;> cases hm : m.getLsbD i <;> simp [h0]

end

/-- Settles O12: the moves are `alu0` or read a source that may not be NaT; what they write by `br?_setBr` and `setPrs_bit`. -/
theorem branchAndPredicateMoves : Obligations.BranchAndPredicateMoves := by
  refine ⟨fun o => ⟨?_, ?_⟩, fun o => result0_of (exec_movR1B2 o), fun o => ⟨?_, ?_⟩, fun o => ?_,
    fun o => ⟨result0_of (exec_movR1Ip o), result0_of (exec_movR1Pr o)⟩, fun s b c v => ⟨br?_setBr s b c v, rfl⟩,
    fun s m v i hi => ⟨setPrs_bit s m v hi, rfl⟩⟩
  · exact effect_of (exec_movB1R2 o) (fun _ h => by rw [useGr_ok h]; rfl) (fun _ => rfl) fun _ => rfl
  · exact trap_of (exec_movB1R2 o) fun _ h => by rw [useGr_nat h.1 h.2]; rfl
  · exact effect_of (exec_movPrR2Mask17 o) (fun _ h => by rw [useGr_ok h]; rfl) (fun _ => rfl) fun _ => rfl
  · exact trap_of (exec_movPrR2Mask17 o) fun _ h => by rw [useGr_nat h.1 h.2]; rfl
  · exact effect_of (exec_movPrRotImm44 o) (fun _ _ => rfl) (fun _ => rfl) fun _ => rfl

end Sys2Proof.Machine
end

