-- ==== Sys2Proof/Proofs/ShiftsAndExtensions.lean ====
section
/-!
Shifts, extract and deposit of 64-bit words (41 R536 to R545), sign and zero extension and the index of the first zero
element (R561 to R563): each form stands at its place and is carried out by `alu2`, `alu1` or `alu0`.
-/

namespace Sys2Proof.Machine

/-! ## Shifts -/

theorem shiftCount_of_lt {n : Word} (h : ¬ 63 < n.toNat) : shiftCount n = n.toNat := if_pos (by omega)

theorem shiftCount_of_ge {n : Word} (h : 63 < n.toNat) : shiftCount n = 64 := if_neg (by omega)

/-- Shifted out, a word leaves its sign. -/
theorem sshiftRight_64 (a : Word) : a.sshiftRight 64 = if a.getLsbD 63 then BitVec.allOnes 64 else 0#64 := by
  apply BitVec.eq_of_getLsbD_eq
  intro i hi
  rw [BitVec.getLsbD_sshiftRight, BitVec.msb_eq_getLsbD_last, if_neg (by omega), decide_eq_false (by omega),
    Bool.not_false, Bool.true_and]
  split
  next h => rw [h, BitVec.getLsbD_allOnes, decide_eq_true hi]
  next h => rw [Bool.eq_false_of_not_eq_true h, BitVec.getLsbD_zero]

theorem shrOf_eq (a n : Word) : shrOf a n =
    if 63 < n.toNat then (if a.getLsbD 63 then BitVec.allOnes 64 else 0#64) else a.sshiftRight n.toNat := by
  split
  next h => rw [shrOf, shiftCount_of_ge h, sshiftRight_64]
  next h => rw [shrOf, shiftCount_of_lt h]

theorem shrUOf_eq (a n : Word) : shrUOf a n = if 63 < n.toNat then 0#64 else a >>> n.toNat := by
  split
  next h => rw [shrUOf, shiftCount_of_ge h, BitVec.ushiftRight_eq_zero le_rfl]
  next h => rw [shrUOf, shiftCount_of_lt h]

theorem shlOf_eq (a n : Word) : shlOf a n = if 63 < n.toNat then 0#64 else a <<< n.toNat := by
  split
  next h => rw [shlOf, shiftCount_of_ge h, BitVec.shiftLeft_eq_zero le_rfl]
  next h => rw [shlOf, shiftCount_of_lt h]

/-! ## Fields of words -/

theorem sextLow_ushiftRight (a : Word) (pos n : Nat) : sextLow (a >>> pos) n = (a.extractLsb' pos n).signExtend 64 :=
  congrArg (BitVec.signExtend 64) BitVec.setWidth_ushiftRight_eq_extractLsb

theorem zextLow_ushiftRight (a : Word) (pos n : Nat) : zextLow (a >>> pos) n = (a.extractLsb' pos n).setWidth 64 :=
  congrArg (BitVec.setWidth 64) BitVec.setWidth_ushiftRight_eq_extractLsb

theorem sextLow_eq (a : Word) (n : Nat) : sextLow a n = (a.extractLsb' 0 n).signExtend 64 := by
  rw [← sextLow_ushiftRight, BitVec.ushiftRight_zero]

theorem zextLow_eq (a : Word) (n : Nat) : zextLow a n = (a.extractLsb' 0 n).setWidth 64 := by
  rw [← zextLow_ushiftRight, BitVec.ushiftRight_zero]

theorem shrpOf_eq (c : Nat) (a b : Word) : shrpOf c a b = (a ++ b).extractLsb' c 64 :=
  BitVec.setWidth_ushiftRight_eq_extractLsb

theorem extrOf_signed (pos len : Nat) (a : Word) :
    extrOf false pos len a = (a.extractLsb' pos (min len (64 - pos))).signExtend 64 := sextLow_ushiftRight ..

theorem extrOf_unsigned (pos len : Nat) (a : Word) :
    extrOf true pos len a = (a.extractLsb' pos (min len (64 - pos))).setWidth 64 := zextLow_ushiftRight ..

theorem depZOf_eq (pos len : Nat) (a : Word) : depZOf pos len a = (a.extractLsb' 0 len).setWidth 64 <<< pos := by
  rw [depZOf, zextLow_eq]

theorem depZOf_bit (pos len : Nat) (a : Word) {i : Nat} (hi : i < 64) :
    (depZOf pos len a).getLsbD i = (decide (pos ≤ i ∧ i < pos + len) && a.getLsbD (i - pos)) := by
  simp only [depZOf, zextLow, BitVec.getLsbD_shiftLeft, BitVec.getLsbD_setWidth, hi, show i - pos < 64 by omega]
  by_cases hlo : pos ≤ i
  · simp [hlo, show i - pos < len ↔ i < pos + len by omega]
  · simp [hlo]

/-- 41 R544, R545: the bits of the field are those deposited, the others stay. -/
theorem depOf_bit (pos len : Nat) (v a : Word) {i : Nat} (hi : i < 64) : (depOf pos len v a).getLsbD i =
    if pos ≤ i ∧ i < pos + len then v.getLsbD (i - pos) else a.getLsbD i := by
  simp only [depOf, BitVec.getLsbD_or, BitVec.getLsbD_and, BitVec.getLsbD_not, depZOf_bit _ _ _ hi, hi,
    BitVec.getLsbD_allOnes, show i - pos < 64 by omega]
  split
  next h => simp [h]
  next h => simp [h]

/-- Every bit of a sign-extended bit is that bit. -/
theorem simm_bit (b : BitVec 1) {i : Nat} (hi : i < 64) : (simm b).getLsbD i = b.getLsbD 0 := by
  rw [simm, BitVec.getLsbD_signExtend, decide_eq_true hi, Bool.true_and]
  split
  next h => rw [Nat.lt_one_iff.1 h]
  next => exact BitVec.msb_eq_getLsbD_last b

/-- Settles O9: each form stands at its place and is carried out by a shared operation with the function of its rule. -/
theorem shiftsAndFields : Obligations.ShiftsAndFields := by
  refine ⟨fun o => ?_, fun o => ?_, fun o => ?_, fun o => ?_, fun o => ?_, fun o => ?_, fun o => ?_⟩
  · exact ⟨
      slotI5_encodes, result2_of (exec_shr o) fun n a => shrOf_eq a n,
      slotI5_encodes, result2_of (exec_shrU o) fun n a => shrUOf_eq a n,
      slotI5_encodes, result2_of (exec_shl o) shlOf_eq⟩
  · exact ⟨slotI10_encodes, result2_of (exec_shrp o) (shrpOf_eq _)⟩
  · exact ⟨
      slotI11_encodes, result1_of (exec_extr o) (extrOf_signed _ _),
      slotI11_encodes, result1_of (exec_extrU o) (extrOf_unsigned _ _)⟩
  · exact ⟨slotI12_encodes, result1_of (exec_depZ o) (depZOf_eq _ _)⟩
  · exact ⟨encodesI_of_eq (slotI13_eq o) rfl, result0_of (exec_depZR1Imm8 o) fun _ => depZOf_eq _ _ _⟩
  · refine ⟨encodesI_of_eq (slotI14_eq o) rfl, _, result1_of (exec_depR1Imm1R3 o) fun _ => rfl, fun a i hi => ?_⟩
    rw [depOf_bit _ _ _ _ hi, simm_bit _ (by omega)]
    simp only [← Nat.add_assoc, Nat.lt_succ_iff]
  · refine ⟨encodesI_of_eq (slotI15_eq o) rfl, _, result2_of (exec_dep o) fun _ _ => rfl, fun b a i hi => ?_⟩
    rw [depOf_bit _ _ _ _ hi]
    simp only [← Nat.add_assoc, Nat.lt_succ_iff]

/-! ## The first zero element -/

/-- 41 R563: the elements before the first zero one are not zero, and it is zero if there is one. -/
theorem firstZero_spec (n : Nat) (w : Word) (order : Nat → Nat) (k : Nat) : firstZero n w order k k ≤ k
    ∧ (∀ i, i < firstZero n w order k k → element n w (order i) ≠ 0#n)
    ∧ (firstZero n w order k k < k → element n w (order (firstZero n w order k k)) = 0#n) := by
  have hrest : ∀ fuel, fuel ≤ k → firstZero n w order k fuel ≤ k
      ∧ (∀ i, k - fuel ≤ i → i < firstZero n w order k fuel → element n w (order i) ≠ 0#n)
      ∧ (firstZero n w order k fuel < k → element n w (order (firstZero n w order k fuel)) = 0#n) := by
    intro fuel
    induction fuel with
    | zero => exact fun _ => ⟨le_rfl, fun i hlo hhi => absurd hlo (Nat.not_le.2 hhi), fun h => absurd h (lt_irrefl k)⟩
    | succ fuel ih =>
      intro hf
      rw [firstZero]
      split
      next hz => exact ⟨Nat.sub_le .., fun i hlo hhi => absurd hlo (Nat.not_le.2 hhi), fun _ => hz⟩
      next hz =>
        obtain ⟨hle, hbefore, hat⟩ := ih (by omega)
        refine ⟨hle, fun i hlo hhi => ?_, hat⟩
        rcases Nat.eq_or_lt_of_le hlo with h | h
        · rw [← h]; exact hz
        · exact hbefore i (by omega) hhi
  obtain ⟨hle, hbefore, hat⟩ := hrest k le_rfl
  exact ⟨hle, fun i => hbefore i (by omega), hat⟩

/-- Settles O11: each form stands at its place of format I29 and is carried out by `alu1`. -/
theorem extensions : Obligations.Extensions := fun o => ⟨
    slotI29_encodes, result1_of (exec_sxt1 o) fun a => sextLow_eq a 8,
    slotI29_encodes, result1_of (exec_sxt2 o) fun a => sextLow_eq a 16,
    slotI29_encodes, result1_of (exec_sxt4 o) fun a => sextLow_eq a 32,
    slotI29_encodes, result1_of (exec_zxt1 o) fun a => zextLow_eq a 8,
    slotI29_encodes, result1_of (exec_zxt2 o) fun a => zextLow_eq a 16,
    slotI29_encodes, result1_of (exec_zxt4 o) fun a => zextLow_eq a 32,
    slotI29_encodes, ⟨_, result1_of (exec_czx1L o), fun a => firstZero_spec 8 a (7 - ·) 8⟩,
    slotI29_encodes, ⟨_, result1_of (exec_czx2L o), fun a => firstZero_spec 16 a (3 - ·) 4⟩,
    slotI29_encodes, ⟨_, result1_of (exec_czx1R o), fun a => firstZero_spec 8 a (·) 8⟩,
    slotI29_encodes, ⟨_, result1_of (exec_czx2R o), fun a => firstZero_spec 16 a (·) 4⟩⟩

end Sys2Proof.Machine
end

