-- ==== Sys2Proof/Proofs/MultimediaElements.lean ====
section
/-!
Multimedia operations of the I unit (41 R531 to R535): the rows are carried out by `alu2` and `alu1`, and each operation gives
each element of its result the value of its rule (log 20).
-/

namespace Sys2Proof.Machine

/-! ## Products (41 R531) -/

theorem toInt_ofInt_mul (x y : BitVec 16) : (BitVec.ofInt 32 (x.toInt * y.toInt)).toInt = x.toInt * y.toInt := by
  have hlo := BitVec.le_toInt_mul_toInt (x := x) (y := y)
  have hhi := BitVec.toInt_mul_toInt_le (x := x) (y := y)
  exact BitVec.toInt_ofInt_eq_self (by decide) (by omega) (by omega)

theorem toInt_element_pmpy2Of (left : Bool) (a b : Word) {j : Nat} (hj : j < 2) :
    (element 32 (pmpy2Of left a b) j).toInt =
      (element 16 a (2 * j + left.toNat)).toInt * (element 16 b (2 * j + left.toNat)).toInt := by
  rw [pmpy2Of, element_ofElements _ hj (by decide)]
  exact toInt_ofInt_mul _ _

theorem element_pmpyshr2Of_unsigned (c : Nat) (a b : Word) {i : Nat} (hi : i < 4) : element 16 (pmpyshr2Of true c a b) i =
    BitVec.ofNat 16 ((element 16 a i).toNat * (element 16 b i).toNat / 2 ^ c) := by
  have hlt : (element 16 a i).toNat * (element 16 b i).toNat < 2 ^ 32 :=
    Nat.mul_lt_mul'' (c := 2 ^ 16) (d := 2 ^ 16) (element 16 a i).isLt (element 16 b i).isLt
  rw [pmpyshr2Of, element_mapElements _ a b hi]
  apply BitVec.eq_of_toNat_eq
  simp only [if_true, BitVec.toNat_setWidth, BitVec.toNat_ushiftRight, BitVec.toNat_ofNat, Nat.mod_eq_of_lt hlt,
    Nat.shiftRight_eq_div_pow]

theorem element_pmpyshr2Of_signed (c : Nat) (a b : Word) {i : Nat} (hi : i < 4) : element 16 (pmpyshr2Of false c a b) i =
    BitVec.ofInt 16 ((element 16 a i).toInt * (element 16 b i).toInt / 2 ^ c) := by
  rw [pmpyshr2Of, element_mapElements _ a b hi]
  simp only [Bool.false_eq_true, if_false]
  rw [← BitVec.signExtend_eq_setWidth_of_le _ (by decide), BitVec.signExtend, BitVec.toInt_sshiftRight, toInt_ofInt_mul,
    Int.shiftRight_eq_div_pow]
  norm_num

/-! ## Rearrangements (41 R532, R533) -/

section
variable {n i : Nat} (a b : Word)

theorem element_mixOf_even (left : Bool) (hi : i < 64 / n / 2) :
    element n (mixOf n left a b) (2 * i) = element n b (2 * i + left.toNat) := by
  rw [mixOf, element_ofElements _ (by omega) (Nat.mul_div_le 64 n), if_neg (by omega), Nat.mul_div_cancel_left _ (by decide)]

theorem element_mixOf_odd (left : Bool) (hi : i < 64 / n / 2) :
    element n (mixOf n left a b) (2 * i + 1) = element n a (2 * i + left.toNat) := by
  rw [mixOf, element_ofElements _ (by omega) (Nat.mul_div_le 64 n), if_pos (by omega), show (2 * i + 1) / 2 = i by omega]

theorem element_unpackOf_even (high : Bool) (hi : i < 64 / n / 2) :
    element n (unpackOf n high a b) (2 * i) = element n b (i + if high then 64 / n / 2 else 0) := by
  rw [unpackOf, element_ofElements _ (by omega) (Nat.mul_div_le 64 n), if_neg (by omega),
    Nat.mul_div_cancel_left _ (by decide)]

theorem element_unpackOf_odd (high : Bool) (hi : i < 64 / n / 2) :
    element n (unpackOf n high a b) (2 * i + 1) = element n a (i + if high then 64 / n / 2 else 0) := by
  rw [unpackOf, element_ofElements _ (by omega) (Nat.mul_div_le 64 n), if_pos (by omega),
    show (2 * i + 1) / 2 = i by omega]

/-- A narrowed element of `pack`. -/
def packed (n : Nat) (signed : Bool) (x : Int) : BitVec (n / 2) := if signed then satS (n / 2) x else satU (n / 2) x

theorem packOf_bits : n / 2 * (2 * (64 / n)) ≤ 64 := calc
  n / 2 * (2 * (64 / n)) = n / 2 * 2 * (64 / n) := (Nat.mul_assoc ..).symm
  _ ≤ n * (64 / n) := Nat.mul_le_mul_right _ (Nat.div_mul_le_self n 2)
  _ ≤ 64 := Nat.mul_div_le 64 n

theorem element_packOf_low (signed : Bool) (hi : i < 64 / n) :
    element (n / 2) (packOf n signed a b) i = packed n signed (element n a i).toInt := by
  rw [packOf, element_ofElements _ (by omega) packOf_bits]
  dsimp only
  rw [if_pos hi, Nat.mod_eq_of_lt hi, packed]

theorem element_packOf_high (signed : Bool) (hi : i < 64 / n) :
    element (n / 2) (packOf n signed a b) (i + 64 / n) = packed n signed (element n b i).toInt := by
  rw [packOf, element_ofElements _ (by omega) packOf_bits]
  dsimp only
  rw [if_neg (show ¬ i + 64 / n < 64 / n by omega), Nat.add_mod_right, Nat.mod_eq_of_lt hi, packed]

theorem toInt_packed {n : Nat} (h : 0 < n / 2) (x : Int) :
    (packed n true x).toInt = clampInt (-(2 ^ (n / 2 - 1))) (2 ^ (n / 2 - 1) - 1) x := toInt_satS h x

theorem toNat_packed (n : Nat) (x : Int) : ((packed n false x).toNat : Int) = clampInt 0 (2 ^ (n / 2) - 1) x :=
  toNat_satU (n / 2) x

end

theorem element_mux1Of (t : MbType) (a : Word) {i : Nat} (hi : i < 8) :
    element 8 (mux1Of t a) i = element 8 a (mux1Source t i) := element_ofElements _ hi (by decide)

theorem element_mux2Of (m : BitVec 8) (a : Word) {i : Nat} (hi : i < 4) :
    element 16 (mux2Of m a) i = element 16 a ((m >>> (2 * i)).setWidth 2 : BitVec 2).toNat := by
  rw [mux2Of, element_ofElements _ hi (by decide), BitVec.toNat_setWidth, BitVec.toNat_ushiftRight,
    Nat.shiftRight_eq_div_pow, Nat.pow_mul]

/-! ## Shifts and counts (41 R534, R535) -/

theorem onesBelow_eq_countP (w : Word) (k : Nat) : onesBelow w k = (List.range k).countP fun i => w.getLsbD i := by
  induction k with
  | zero => rfl
  | succ k ih =>
    rw [onesBelow, ih, List.range_succ, List.countP_append, List.countP_singleton]
    cases w.getLsbD k <;> rfl

/-! ## Minima, maxima and absolute differences (41 R532) -/

theorem toNat_minU {n : Nat} (x y : BitVec n) : (if x.ult y then x else y).toNat = min x.toNat y.toNat := by
  simp only [BitVec.ult_iff_lt, BitVec.lt_def]
  split <;> omega

theorem toNat_maxU {n : Nat} (x y : BitVec n) : (if x.ult y then y else x).toNat = max x.toNat y.toNat := by
  simp only [BitVec.ult_iff_lt, BitVec.lt_def]
  split <;> omega

theorem toInt_minS {n : Nat} (x y : BitVec n) : (if x.slt y then x else y).toInt = min x.toInt y.toInt := by
  simp only [BitVec.slt_iff_toInt_lt]
  split <;> omega

theorem toInt_maxS {n : Nat} (x y : BitVec n) : (if x.slt y then y else x).toInt = max x.toInt y.toInt := by
  simp only [BitVec.slt_iff_toInt_lt]
  split <;> omega

/-- The sum of the eight byte differences, which does not overflow. -/
theorem toNat_psad1Of (a b : Word) : (psad1Of a b).toNat =
    ((List.range 8).map fun i => ((element 8 a i).toNat - (element 8 b i).toNat : Int).natAbs).sum := by
  have hdiff (x y : Nat) : ((x : Int) - y).natAbs = x - y + (y - x) := by omega
  have hfold (f g : Nat → Nat) :
      (List.range 8).foldl (fun acc i => acc + (f i - g i) + (g i - f i)) 0
        = ((List.range 8).map fun i => ((f i : Int) - g i).natAbs).sum := by
    simp only [hdiff, List.sum_eq_foldl, List.foldl_map, Nat.add_assoc]
  have hbound : ((List.range 8).map fun i =>
      ((element 8 a i).toNat - (element 8 b i).toNat : Int).natAbs).sum ≤ 8 * 255 := by
    refine (List.sum_le_card_nsmul _ 255 fun d hd => ?_).trans (by simp)
    obtain ⟨i, -, rfl⟩ := List.mem_map.1 hd
    have ha := (element 8 a i).isLt
    have hb := (element 8 b i).isLt
    omega
  rw [psad1Of, hfold, BitVec.toNat_ofNat, Nat.mod_eq_of_lt (by omega)]

/-! ## The forms -/

/-- Settles O7: each row is carried out by `alu2` or `alu1`; the elements of the results by the lemmas of their operations. -/
theorem multimediaOperations : Obligations.MultimediaOperations := by
  refine ⟨fun o => result2_of (exec_pmpy2 o), fun o _ => result2_of (exec_pmpyshr2 o), fun o => result2_of (exec_mixPack o),
    fun o => result1_of (exec_mux1 o), fun o => result1_of (exec_mux2 o), fun o => result2_of (exec_pshrVar o),
    fun o => result1_of (exec_pshrFix o), fun o => result2_of (exec_pshlVar o), fun o => result1_of (exec_pshlFix o),
    fun o => result1_of (exec_popcnt o) fun a => congrArg _ (onesBelow_eq_countP a 64),
    fun a b j hj => ⟨toInt_element_pmpy2Of false a b hj, toInt_element_pmpy2Of true a b hj⟩,
    fun a b c i _ hi => ⟨element_pmpyshr2Of_unsigned c a b hi, element_pmpyshr2Of_signed c a b hi⟩,
    fun a i hi => ⟨element_mux1Of .rev a hi, element_mux1Of .mix a hi, element_mux1Of .shuf a hi, element_mux1Of .alt a hi,
      element_mux1Of .brcst a hi⟩,
    fun a m i hi => element_mux2Of m a hi, fun a c i hi => ?_, fun a c i hi => ?_⟩
  · exact ⟨element_ofElements _ hi (by decide), element_ofElements _ hi (by decide), element_ofElements _ hi (by decide)⟩
  · exact ⟨element_ofElements _ hi (by decide), element_ofElements _ hi (by decide), element_ofElements _ hi (by decide)⟩

/-- 41 R532: the elements of both forms of `mix` and of `unpack`. -/
theorem element_interleavings {n i : Nat} (a b : Word) (hi : i < 64 / n / 2) :
    element n (mixOf n true a b) (2 * i) = element n b (2 * i + 1)
    ∧ element n (mixOf n true a b) (2 * i + 1) = element n a (2 * i + 1)
    ∧ element n (mixOf n false a b) (2 * i) = element n b (2 * i)
    ∧ element n (mixOf n false a b) (2 * i + 1) = element n a (2 * i)
    ∧ element n (unpackOf n true a b) (2 * i) = element n b (i + 64 / n / 2)
    ∧ element n (unpackOf n true a b) (2 * i + 1) = element n a (i + 64 / n / 2)
    ∧ element n (unpackOf n false a b) (2 * i) = element n b i
    ∧ element n (unpackOf n false a b) (2 * i + 1) = element n a i :=
  ⟨element_mixOf_even a b true hi, element_mixOf_odd a b true hi, element_mixOf_even a b false hi,
    element_mixOf_odd a b false hi, element_unpackOf_even a b true hi, element_unpackOf_odd a b true hi,
    element_unpackOf_even a b false hi, element_unpackOf_odd a b false hi⟩

/-- Settles O8: each operation by the lemmas of its elements. -/
theorem elementRearrangements : Obligations.ElementRearrangements := by
  refine ⟨fun n mixL mixR unpackH unpackL a b h i hi => ?_, fun a b i hi => ?_, fun a b i hi => ?_, fun a b i hi => ?_,
    fun a b i hi => ?_, toNat_psad1Of⟩
  · simp only [List.mem_cons, Prod.mk.injEq, List.not_mem_nil, or_false] at h
    obtain ⟨rfl, rfl, rfl, rfl, rfl⟩ | ⟨rfl, rfl, rfl, rfl, rfl⟩ | ⟨rfl, rfl, rfl, rfl, rfl⟩ := h
    all_goals exact element_interleavings a b hi
  · have hlow (signed : Bool) : element 8 (packOf 16 signed a b) i = packed 16 signed (element 16 a i).toInt :=
      element_packOf_low (n := 16) a b signed hi
    have hhigh (signed : Bool) : element 8 (packOf 16 signed a b) (i + 4) = packed 16 signed (element 16 b i).toInt :=
      element_packOf_high (n := 16) a b signed hi
    simp only [i2Of, hlow, hhigh]
    exact ⟨toInt_packed (by decide) _, toInt_packed (by decide) _, toNat_packed 16 _, toNat_packed 16 _⟩
  · have hlow : element 16 (packOf 32 true a b) i = packed 32 true (element 32 a i).toInt :=
      element_packOf_low (n := 32) a b true hi
    have hhigh : element 16 (packOf 32 true a b) (i + 2) = packed 32 true (element 32 b i).toInt :=
      element_packOf_high (n := 32) a b true hi
    simp only [i2Of, hlow, hhigh]
    exact ⟨toInt_packed (by decide) _, toInt_packed (by decide) _⟩
  · rw [i2Of, i2Of, element_mapElements _ a b hi, element_mapElements _ a b hi]
    exact ⟨toNat_minU _ _, toNat_maxU _ _⟩
  · rw [i2Of, i2Of, element_mapElements _ a b hi, element_mapElements _ a b hi]
    exact ⟨toInt_minS _ _, toInt_maxS _ _⟩

end Sys2Proof.Machine
end

