-- ==== Sys2Proof/Proofs/ChecksAndHints.lean ====
section
/-!
The speculation checks (41 R549, 42 R596, R597), the instructions that do nothing but leave a record (nop, hint and the branch
predictions), and those whose effect is an exception (break, br.ia and vmsw).
-/

namespace Sys2Proof.Machine

/-! ## Speculation checks -/

/-- What the table answers: no entry, an entry found, or an entry it has dropped (log 32). -/
theorem checkAlat_cases (s : State) (fp : Bool) (r : BitVec 7) :
    (NoEntry s fp r → checkAlat s fp r = (false, s))
    ∧ (¬ NoEntry s fp r → checkAlat s fp r = (true, { s with free := s.free + 1 })
      ∨ checkAlat s fp r = (false, { s.removeAlat fp r with free := s.free + 1 })) := by
  unfold checkAlat NoEntry
  refine ⟨fun h => if_neg (by rw [h]; nofun), fun h => ?_⟩
  rw [if_pos (Bool.eq_true_of_not_eq_false h)]
  split
  · exact .inr rfl
  · exact .inl rfl

theorem chkS_checks {i : Instr} {qp : BitVec 6} {r2 : BitVec 7} {t : BitVec 21} (he : ∀ s, exec i s = chkS qp r2 t s) :
    Checks i qp (fun s => s.lp.grReadable r2 = true) (fun s => (s.lp.gr? r2).nat)
      (fun s => s.noteCheck false false false false (s.lp.gr? r2).nat) (fun s => s.lp.ip + (t.signExtend 64 <<< 4)) :=
  checks_of he (fun _ h => by rw [readGr_ok h]; rfl) fun _ => ⟨rfl, rfl⟩

theorem chkSFp_checks {i : Instr} {qp : BitVec 6} {f2 : BitVec 7} {t : BitVec 21} (he : ∀ s, exec i s = chkSFp qp f2 t s) :
    Checks i qp (fun s => s.lp.frEnabled f2 = true) (fun s => decide (s.lp.fr? f2 = natVal))
      (fun s => s.noteCheck false false true false (decide (s.lp.fr? f2 = natVal)))
      (fun s => s.lp.ip + (t.signExtend 64 <<< 4)) :=
  checks_of he (fun _ h => by rw [readFr_ok h]; rfl) fun _ => ⟨rfl, rfl⟩

/-- A check of the table ends in its recovery code or falls through with the check recorded. -/
theorem checksAlat_of {i : Instr} {qp : BitVec 6} {failed : State → Bool} {note : State → State} {target : State → Word}
    (he : ∀ s, exec i s = predicatedEnd qp s (.ok (checked (note s) (failed s) (target s))))
    (hp : ∀ s, (note s).lp.psr = s.lp.psr ∧ (note s).params = s.params) : ChecksAlat i qp failed note target := by
  have hc := checks_of (pre := fun _ => True) he (fun _ _ => rfl) hp
  intro s hq hr hu
  obtain ⟨hfail, hpass⟩ := hc s hq trivial
  cases hf : failed s with
  | true => exact hfail hf hr
  | false => exact hpass hf hu

/-- The state of `chk.a` with its check recorded; the clr form removes the entry that it finds. -/
def chkANoted (fp clear : Bool) (r : BitVec 7) (s : State) : State :=
  let c := checkAlat s fp r
  let noted := c.2.noteCheck true false fp clear (!c.1)
  if c.1 && clear then noted.removeAlat fp r else noted

theorem chkA_checksAlat {i : Instr} {fp clear : Bool} {qp : BitVec 6} {r : BitVec 7} {t : BitVec 21}
    {note : State → State} (he : ∀ s, exec i s = chkA fp clear qp r t s) (hn : ∀ s, chkANoted fp clear r s = note s) :
    ChecksAlat i qp (fun s => !(checkAlat s fp r).1) note (fun s => s.lp.ip + (t.signExtend 64 <<< 4)) := by
  obtain rfl : chkANoted fp clear r = note := funext hn
  refine checksAlat_of he fun s => ?_
  have hc := checkAlat_psr s fp r
  unfold chkANoted
  dsimp only
  split
  · exact hc
  · exact hc

/-- The form that keeps the entry. -/
theorem chkANoted_nc (fp : Bool) (r : BitVec 7) (s : State) : chkANoted fp false r s =
    (checkAlat s fp r).2.noteCheck true false fp false (!(checkAlat s fp r).1) := by
  simp [chkANoted]

theorem chkANoted_clr (fp : Bool) (r : BitVec 7) (s : State) : chkANoted fp true r s =
    if (checkAlat s fp r).1 then
      ((checkAlat s fp r).2.noteCheck true false fp true (!(checkAlat s fp r).1)).removeAlat fp r
    else (checkAlat s fp r).2.noteCheck true false fp true (!(checkAlat s fp r).1) := by
  simp [chkANoted]

/-- Settles O20: each check by its shared operation, and the table by `checkAlat_cases`. -/
theorem speculationChecks : Obligations.SpeculationChecks :=
  ⟨fun o => ⟨chkS_checks (exec_chkSI o), chkS_checks (exec_chkSMR2 o)⟩,
    fun o => chkSFp_checks (exec_chkSF2 o),
    fun o => ⟨chkA_checksAlat (exec_chkANcR1 o) (chkANoted_nc false o.r1),
      chkA_checksAlat (exec_chkAClrR1 o) (chkANoted_clr false o.r1)⟩,
    fun o => ⟨chkA_checksAlat (exec_chkANcF1 o) (chkANoted_nc true o.f1),
      chkA_checksAlat (exec_chkAClrF1 o) (chkANoted_clr true o.f1)⟩,
    checkAlat_cases⟩

/-! ## No operations -/

section
variable {i : Instr} {qp : BitVec 6}

theorem nop_effect (he : ∀ s, exec i s = nopOp qp false s) :
    Effect i qp (fun _ => True) (fun s => s.setLp { s.lp with ev := { s.lp.ev with nop := true } }) :=
  effect_of he (fun _ _ => rfl) (fun _ => rfl) fun _ => rfl

theorem nop_effectWide (he : ∀ s, exec i s = nopOp qp true s) :
    EffectWide i qp (fun _ => True) (fun s => s.setLp { s.lp with ev := { s.lp.ev with nop := true } }) :=
  effectWide_of he (fun _ _ => rfl) (fun _ => rfl) fun _ => rfl

theorem hint_effect {p : Bool} (he : ∀ s, exec i s = hintOp qp p false s) :
    Effect i qp (fun _ => True) (fun s => s.setLp { s.lp with ev := { s.lp.ev with nop := true, pause := p } }) :=
  effect_of he (fun _ _ => rfl) (fun _ => rfl) fun _ => rfl

theorem hint_effectWide {p : Bool} (he : ∀ s, exec i s = hintOp qp p true s) :
    EffectWide i qp (fun _ => True) (fun s => s.setLp { s.lp with ev := { s.lp.ev with nop := true, pause := p } }) :=
  effectWide_of he (fun _ _ => rfl) (fun _ => rfl) fun _ => rfl

/-- 43 R667: a branch prediction. -/
theorem predict_effect (he : ∀ s, exec i s = always s (.ok s)) : EffectAlways i (fun _ => True) (fun s => s) :=
  effectAlways_of he (fun _ _ => rfl) (fun _ => rfl) fun _ => rfl

end

/-- Settles O25: each form is `nopOp`, `hintOp` or the answer that changes nothing. -/
theorem noOperations : Obligations.NoOperations := by
  refine ⟨fun o => ?_, fun o => ⟨nop_effectWide (exec_nopX o), hint_effectWide (exec_hintX o)⟩,
    predict_effect exec_brpTarget25Tag13, predict_effect exec_brpB2Tag13, predict_effect exec_brpRetB2Tag13⟩
  exact ⟨nop_effect (exec_nopI o), nop_effect (exec_nopM o), nop_effect (exec_nopF o), nop_effect (exec_nopB o),
    nop_effect (exec_hintB o), hint_effect (exec_hintI o), hint_effect (exec_hintM o), hint_effect (exec_hintF o)⟩

/-! ## Instructions whose effect is an exception -/

theorem break_traps {i : Instr} {qp : BitVec 6} {imm : Word} {wide : Bool} (he : ∀ s, exec i s = breakOp qp imm wide s) :
    Traps i qp (fun _ => True) (fun _ => { offset := 0x2C00, iim := some imm }) :=
  trap_of he fun _ _ => rfl

theorem break_skips {i : Instr} {qp : BitVec 6} {imm : Word} (he : ∀ s, exec i s = breakOp qp imm false s) : Skips i qp :=
  skips_of he

theorem vmsw_traps {i : Instr} {qp : BitVec 6} (he : ∀ s, exec i s = switchVirtual qp s) :
    Traps i qp (fun _ => True) (fun _ => illegalOperation) :=
  trap_of he fun _ _ => rfl

theorem branchIa_on {qp : BitVec 6} {b2 : BitVec 3} {s : State} (hq : s.lp.readPr qp = true) :
    branchIa qp b2 s = .next (faultTo s disabledInstructionSet) := by
  rw [branchIa, branchWith, if_pos hq]; rfl

/-- 43 R661: predicated off it is a branch that is not taken. -/
theorem branchIa_off {qp : BitVec 6} {b2 : BitVec 3} {s : State} (hq : s.lp.readPr qp = false) (hu : Untrapped s) :
    branchIa qp b2 s = .next { skipped s with
      lp := { (skipped s).lp with ev := { s.lp.ev with
        squashed := true, flow := some { kind := .indirect, taken := false, target := s.lp.br? b2 } } } } := by
  rw [branchIa, branchWith, if_neg (by rw [hq]; nofun)]
  exact congrArg Host.Outcome.next (retire_fall false hu rfl rfl)

/-- Settles O26: break and vmsw by what a predicated answer is, br.ia by its two cases. -/
theorem breakInstructions : Obligations.BreakInstructions := by
  refine ⟨fun o => ?_, fun o => ⟨break_traps (exec_breakX o), ?_⟩, fun o => ⟨?_, ?_⟩, fun o => ?_⟩
  · exact ⟨break_traps (exec_breakI o), break_traps (exec_breakM o), break_traps (exec_breakF o),
      break_traps (exec_breakB o), break_skips (exec_breakI o), break_skips (exec_breakM o),
      break_skips (exec_breakF o), break_skips (exec_breakB o)⟩
  · intro s hq hu
    rw [exec_breakX]
    exact (predicated_cases (u := s) (pre := False) False.elim rfl rfl).2 hq hu
  · intro s hq _
    rw [exec_brIaB2, branchIa_on hq]
  · intro s hq hu
    rw [exec_brIaB2, branchIa_off hq hu]
  · exact ⟨vmsw_traps (exec_vmsw0 o), vmsw_traps (exec_vmsw1 o), skips_of (exec_vmsw0 o), skips_of (exec_vmsw1 o)⟩

end Sys2Proof.Machine
end

