-- ==== Sys2Proof/Proofs/IntegerLoads.lean ====
section
/-!
The integer loads in all their forms (42 R580, R582) on memory that is plainly accessible: what they write is said once of `loadInt`
and `load16`, and each form is one of these with its operands.
-/

namespace Sys2Proof.Machine

/-- A field of at most 63 bits is a quotient and a remainder of the word. -/
theorem field_toNat (w : Word) (lo : Nat) {len : Nat} (h : len ≤ 63) : (field w lo len).toNat = w.toNat / 2 ^ lo % 2 ^ len := by
  have hm : ((1#64 <<< len) - 1#64).toNat = 2 ^ len - 1 := by
    have hp : 2 ^ len ≤ 2 ^ 63 := Nat.pow_le_pow_right (by decide) h
    have hpos := Nat.two_pow_pos len
    have e : (1#64 <<< len).toNat = 2 ^ len := by
      rw [BitVec.toNat_shiftLeft, Nat.shiftLeft_eq, BitVec.toNat_ofNat]
      omega
    rw [BitVec.toNat_sub, e, BitVec.toNat_ofNat]
    omega
  rw [field, BitVec.toNat_and, BitVec.toNat_ushiftRight, Nat.shiftRight_eq_div_pow, hm]
  exact Nat.and_two_pow_sub_one_eq_mod _ len

/-- 42 R580: the number of the bit of `AR.UNAT` that belongs to an address. -/
theorem field_unat (w : Word) : (field w 3 6).toNat = w.toNat / 8 % 64 := field_toNat w 3 (by decide)

section
variable {i : Instr} {f : LoadForm} {n : Nat} {qp : BitVec 6} {r1 r3 : BitVec 7} {inc : Inc}

theorem loadsInt_of (he : ∀ s, exec i s = loadInt f n false qp r1 r3 inc s) :
    LoadsInt i f n qp r1 r3 inc (fun _ => false) := by
  intro s h hn hp hs hc
  rw [he]
  exact loadInt_plain h hn hp hs hc

theorem loadsFill_of (he : ∀ s, exec i s = loadInt f n true qp r1 r3 inc s) :
    LoadsInt i f n qp r1 r3 inc (fun s => s.lp.ar.unat.getLsbD ((s.lp.gr? r3).val.toNat / 8 % 64)) := by
  intro s h hn hp hs hc
  have hl := loadInt_plain (fill := true) h hn hp hs hc
  rw [field_unat] at hl
  rw [he]
  exact hl

theorem loadsNat_of {fill : Bool} (he : ∀ s, exec i s = loadInt f n fill qp r1 r3 inc s) (hs : f.spec = true) :
    LoadsNat i f qp r1 r3 inc := by
  intro s h hn
  rw [he]
  exact loadInt_nat h hn hs

theorem checksLoad_of {clr : Bool} (he : ∀ s, exec i s = loadInt f n false qp r1 r3 inc s) (hk : f.check = true)
    (hc : f.clr = clr) : ChecksLoad i clr n qp r1 r3 inc := by
  subst hc
  intro s h hn hp hentry
  rw [he]
  exact loadInt_entry h hn hp hk hentry

theorem loads16_of (he : ∀ s, exec i s = load16 qp r1 r3 s) : Loads16 i qp r1 r3 := by
  intro s h hn hp
  rw [he]
  exact load16_plain h hn hp

end

/-- Settles O14: each form is `loadInt` or `load16`. -/
theorem integerLoads : Obligations.IntegerLoads := by
  refine ⟨fun o => ?_, fun o => ?_, fun o => ?_, fun o => ?_, fun o => ?_, fun o => ?_, fun o => ?_, 
    fun o => ?_, fun o => ?_⟩
  · exact ⟨
      loadsInt_of (exec_ld1R1R3 o), loadsInt_of (exec_ld2R1R3 o), loadsInt_of (exec_ld4R1R3 o),
      loadsInt_of (exec_ld8R1R3 o), loadsInt_of (exec_ld1SR1R3 o), loadsNat_of (exec_ld1SR1R3 o) rfl,
      loadsInt_of (exec_ld2SR1R3 o), loadsNat_of (exec_ld2SR1R3 o) rfl, loadsInt_of (exec_ld4SR1R3 o),
      loadsNat_of (exec_ld4SR1R3 o) rfl, loadsInt_of (exec_ld8SR1R3 o), loadsNat_of (exec_ld8SR1R3 o) rfl,
      loadsInt_of (exec_ld1AR1R3 o), loadsInt_of (exec_ld2AR1R3 o), loadsInt_of (exec_ld4AR1R3 o),
      loadsInt_of (exec_ld8AR1R3 o), loadsInt_of (exec_ld1SaR1R3 o), loadsNat_of (exec_ld1SaR1R3 o) rfl,
      loadsInt_of (exec_ld2SaR1R3 o), loadsNat_of (exec_ld2SaR1R3 o) rfl, loadsInt_of (exec_ld4SaR1R3 o),
      loadsNat_of (exec_ld4SaR1R3 o) rfl, loadsInt_of (exec_ld8SaR1R3 o), loadsNat_of (exec_ld8SaR1R3 o) rfl,
      loadsInt_of (exec_ld1BiasR1R3 o), loadsInt_of (exec_ld2BiasR1R3 o), loadsInt_of (exec_ld4BiasR1R3 o),
      loadsInt_of (exec_ld8BiasR1R3 o), loadsInt_of (exec_ld1AcqR1R3 o), loadsInt_of (exec_ld2AcqR1R3 o),
      loadsInt_of (exec_ld4AcqR1R3 o), loadsInt_of (exec_ld8AcqR1R3 o)⟩
  · exact ⟨
      loadsInt_of (exec_ld1R1R3R2 o), loadsInt_of (exec_ld2R1R3R2 o), loadsInt_of (exec_ld4R1R3R2 o),
      loadsInt_of (exec_ld8R1R3R2 o), loadsInt_of (exec_ld1SR1R3R2 o), loadsNat_of (exec_ld1SR1R3R2 o) rfl,
      loadsInt_of (exec_ld2SR1R3R2 o), loadsNat_of (exec_ld2SR1R3R2 o) rfl, loadsInt_of (exec_ld4SR1R3R2 o),
      loadsNat_of (exec_ld4SR1R3R2 o) rfl, loadsInt_of (exec_ld8SR1R3R2 o), loadsNat_of (exec_ld8SR1R3R2 o) rfl,
      loadsInt_of (exec_ld1AR1R3R2 o), loadsInt_of (exec_ld2AR1R3R2 o), loadsInt_of (exec_ld4AR1R3R2 o),
      loadsInt_of (exec_ld8AR1R3R2 o), loadsInt_of (exec_ld1SaR1R3R2 o), loadsNat_of (exec_ld1SaR1R3R2 o) rfl,
      loadsInt_of (exec_ld2SaR1R3R2 o), loadsNat_of (exec_ld2SaR1R3R2 o) rfl, loadsInt_of (exec_ld4SaR1R3R2 o),
      loadsNat_of (exec_ld4SaR1R3R2 o) rfl, loadsInt_of (exec_ld8SaR1R3R2 o), loadsNat_of (exec_ld8SaR1R3R2 o) rfl,
      loadsInt_of (exec_ld1BiasR1R3R2 o), loadsInt_of (exec_ld2BiasR1R3R2 o), loadsInt_of (exec_ld4BiasR1R3R2 o),
      loadsInt_of (exec_ld8BiasR1R3R2 o), loadsInt_of (exec_ld1AcqR1R3R2 o), loadsInt_of (exec_ld2AcqR1R3R2 o),
      loadsInt_of (exec_ld4AcqR1R3R2 o), loadsInt_of (exec_ld8AcqR1R3R2 o)⟩
  · exact ⟨
      loadsInt_of (exec_ld1R1R3Imm9 o), loadsInt_of (exec_ld2R1R3Imm9 o), loadsInt_of (exec_ld4R1R3Imm9 o),
      loadsInt_of (exec_ld8R1R3Imm9 o), loadsInt_of (exec_ld1SR1R3Imm9 o), loadsNat_of (exec_ld1SR1R3Imm9 o) rfl,
      loadsInt_of (exec_ld2SR1R3Imm9 o), loadsNat_of (exec_ld2SR1R3Imm9 o) rfl, loadsInt_of (exec_ld4SR1R3Imm9 o),
      loadsNat_of (exec_ld4SR1R3Imm9 o) rfl, loadsInt_of (exec_ld8SR1R3Imm9 o), loadsNat_of (exec_ld8SR1R3Imm9 o) rfl,
      loadsInt_of (exec_ld1AR1R3Imm9 o), loadsInt_of (exec_ld2AR1R3Imm9 o), loadsInt_of (exec_ld4AR1R3Imm9 o),
      loadsInt_of (exec_ld8AR1R3Imm9 o), loadsInt_of (exec_ld1SaR1R3Imm9 o), loadsNat_of (exec_ld1SaR1R3Imm9 o) rfl,
      loadsInt_of (exec_ld2SaR1R3Imm9 o), loadsNat_of (exec_ld2SaR1R3Imm9 o) rfl, loadsInt_of (exec_ld4SaR1R3Imm9 o),
      loadsNat_of (exec_ld4SaR1R3Imm9 o) rfl, loadsInt_of (exec_ld8SaR1R3Imm9 o),
      loadsNat_of (exec_ld8SaR1R3Imm9 o) rfl, loadsInt_of (exec_ld1BiasR1R3Imm9 o),
      loadsInt_of (exec_ld2BiasR1R3Imm9 o), loadsInt_of (exec_ld4BiasR1R3Imm9 o),
      loadsInt_of (exec_ld8BiasR1R3Imm9 o), loadsInt_of (exec_ld1AcqR1R3Imm9 o), loadsInt_of (exec_ld2AcqR1R3Imm9 o),
      loadsInt_of (exec_ld4AcqR1R3Imm9 o), loadsInt_of (exec_ld8AcqR1R3Imm9 o)⟩
  · exact ⟨
      loadsFill_of (exec_ld8FillR1R3 o), loads16_of (exec_ld16R1ArCsdR3 o), loads16_of (exec_ld16AcqR1ArCsdR3 o)⟩
  · exact loadsFill_of (exec_ld8FillR1R3R2 o)
  · exact loadsFill_of (exec_ld8FillR1R3Imm9 o)
  · exact ⟨
      loadsInt_of (exec_ld1CClrR1R3 o), checksLoad_of (exec_ld1CClrR1R3 o) rfl rfl, loadsInt_of (exec_ld2CClrR1R3 o),
      checksLoad_of (exec_ld2CClrR1R3 o) rfl rfl, loadsInt_of (exec_ld4CClrR1R3 o),
      checksLoad_of (exec_ld4CClrR1R3 o) rfl rfl, loadsInt_of (exec_ld8CClrR1R3 o),
      checksLoad_of (exec_ld8CClrR1R3 o) rfl rfl, loadsInt_of (exec_ld1CNcR1R3 o),
      checksLoad_of (exec_ld1CNcR1R3 o) rfl rfl, loadsInt_of (exec_ld2CNcR1R3 o),
      checksLoad_of (exec_ld2CNcR1R3 o) rfl rfl, loadsInt_of (exec_ld4CNcR1R3 o),
      checksLoad_of (exec_ld4CNcR1R3 o) rfl rfl, loadsInt_of (exec_ld8CNcR1R3 o),
      checksLoad_of (exec_ld8CNcR1R3 o) rfl rfl, loadsInt_of (exec_ld1CClrAcqR1R3 o),
      checksLoad_of (exec_ld1CClrAcqR1R3 o) rfl rfl, loadsInt_of (exec_ld2CClrAcqR1R3 o),
      checksLoad_of (exec_ld2CClrAcqR1R3 o) rfl rfl, loadsInt_of (exec_ld4CClrAcqR1R3 o),
      checksLoad_of (exec_ld4CClrAcqR1R3 o) rfl rfl, loadsInt_of (exec_ld8CClrAcqR1R3 o),
      checksLoad_of (exec_ld8CClrAcqR1R3 o) rfl rfl⟩
  · exact ⟨
      loadsInt_of (exec_ld1CClrR1R3R2 o), checksLoad_of (exec_ld1CClrR1R3R2 o) rfl rfl,
      loadsInt_of (exec_ld2CClrR1R3R2 o), checksLoad_of (exec_ld2CClrR1R3R2 o) rfl rfl,
      loadsInt_of (exec_ld4CClrR1R3R2 o), checksLoad_of (exec_ld4CClrR1R3R2 o) rfl rfl,
      loadsInt_of (exec_ld8CClrR1R3R2 o), checksLoad_of (exec_ld8CClrR1R3R2 o) rfl rfl,
      loadsInt_of (exec_ld1CNcR1R3R2 o), checksLoad_of (exec_ld1CNcR1R3R2 o) rfl rfl,
      loadsInt_of (exec_ld2CNcR1R3R2 o), checksLoad_of (exec_ld2CNcR1R3R2 o) rfl rfl,
      loadsInt_of (exec_ld4CNcR1R3R2 o), checksLoad_of (exec_ld4CNcR1R3R2 o) rfl rfl,
      loadsInt_of (exec_ld8CNcR1R3R2 o), checksLoad_of (exec_ld8CNcR1R3R2 o) rfl rfl,
      loadsInt_of (exec_ld1CClrAcqR1R3R2 o), checksLoad_of (exec_ld1CClrAcqR1R3R2 o) rfl rfl,
      loadsInt_of (exec_ld2CClrAcqR1R3R2 o), checksLoad_of (exec_ld2CClrAcqR1R3R2 o) rfl rfl,
      loadsInt_of (exec_ld4CClrAcqR1R3R2 o), checksLoad_of (exec_ld4CClrAcqR1R3R2 o) rfl rfl,
      loadsInt_of (exec_ld8CClrAcqR1R3R2 o), checksLoad_of (exec_ld8CClrAcqR1R3R2 o) rfl rfl⟩
  · exact ⟨
      loadsInt_of (exec_ld1CClrR1R3Imm9 o), checksLoad_of (exec_ld1CClrR1R3Imm9 o) rfl rfl,
      loadsInt_of (exec_ld2CClrR1R3Imm9 o), checksLoad_of (exec_ld2CClrR1R3Imm9 o) rfl rfl,
      loadsInt_of (exec_ld4CClrR1R3Imm9 o), checksLoad_of (exec_ld4CClrR1R3Imm9 o) rfl rfl,
      loadsInt_of (exec_ld8CClrR1R3Imm9 o), checksLoad_of (exec_ld8CClrR1R3Imm9 o) rfl rfl,
      loadsInt_of (exec_ld1CNcR1R3Imm9 o), checksLoad_of (exec_ld1CNcR1R3Imm9 o) rfl rfl,
      loadsInt_of (exec_ld2CNcR1R3Imm9 o), checksLoad_of (exec_ld2CNcR1R3Imm9 o) rfl rfl,
      loadsInt_of (exec_ld4CNcR1R3Imm9 o), checksLoad_of (exec_ld4CNcR1R3Imm9 o) rfl rfl,
      loadsInt_of (exec_ld8CNcR1R3Imm9 o), checksLoad_of (exec_ld8CNcR1R3Imm9 o) rfl rfl,
      loadsInt_of (exec_ld1CClrAcqR1R3Imm9 o), checksLoad_of (exec_ld1CClrAcqR1R3Imm9 o) rfl rfl,
      loadsInt_of (exec_ld2CClrAcqR1R3Imm9 o), checksLoad_of (exec_ld2CClrAcqR1R3Imm9 o) rfl rfl,
      loadsInt_of (exec_ld4CClrAcqR1R3Imm9 o), checksLoad_of (exec_ld4CClrAcqR1R3Imm9 o) rfl rfl,
      loadsInt_of (exec_ld8CClrAcqR1R3Imm9 o), checksLoad_of (exec_ld8CClrAcqR1R3Imm9 o) rfl rfl⟩

end Sys2Proof.Machine
end

