-- ==== Sys2Proof/Proofs/IntegerStores.lean ====
section
/-!
The integer stores (42 R583, R584) and the semaphores (R590 to R593) on memory that is plainly accessible: each form is `storeInt`,
`store16` or `semaphore` with its operands.
-/

namespace Sys2Proof.Machine

/-! ## Stores -/

section
variable {i : Instr} {n : Nat} {qp : BitVec 6} {r3 r2 : BitVec 7} {inc : Inc}

theorem storesInt_of {spill : Bool} (he : ∀ s, exec i s = storeInt n spill qp r3 r2 inc s) :
    StoresInt i n spill qp r3 r2 inc := by
  intro s h h2 hn hp hm
  rw [he]
  exact storeInt_plain h h2 hn hp hm

theorem stores16_of (he : ∀ s, exec i s = store16 qp r3 r2 s) : Stores16 i qp r3 r2 := by
  intro s h h2 hp hm
  rw [he]
  exact store16_plain h h2 hp hm

end

/-- Settles O16: each form is `storeInt` or `store16`. -/
theorem integerStores : Obligations.IntegerStores := by
  refine ⟨fun o => ?_, fun o => ?_⟩
  · exact ⟨
      storesInt_of (exec_st1R3R2 o), storesInt_of (exec_st2R3R2 o), storesInt_of (exec_st4R3R2 o),
      storesInt_of (exec_st8R3R2 o), storesInt_of (exec_st1RelR3R2 o), storesInt_of (exec_st2RelR3R2 o),
      storesInt_of (exec_st4RelR3R2 o), storesInt_of (exec_st8RelR3R2 o), storesInt_of (exec_st8SpillR3R2 o),
      stores16_of (exec_st16R3R2ArCsd o), stores16_of (exec_st16RelR3R2ArCsd o)⟩
  · exact ⟨
      storesInt_of (exec_st1R3R2Imm9 o), storesInt_of (exec_st2R3R2Imm9 o), storesInt_of (exec_st4R3R2Imm9 o),
      storesInt_of (exec_st8R3R2Imm9 o), storesInt_of (exec_st1RelR3R2Imm9 o), storesInt_of (exec_st2RelR3R2Imm9 o),
      storesInt_of (exec_st4RelR3R2Imm9 o), storesInt_of (exec_st8RelR3R2Imm9 o),
      storesInt_of (exec_st8SpillR3R2Imm9 o)⟩

/-! ## Semaphores -/

section
variable {i : Instr} {n : Nat} {qp : BitVec 6} {r1 r3 r2 : BitVec 7}

/-- A semaphore whose operation gives the new value of each old one. -/
theorem exchanges_of_semaphore {m : Nat} {pre : State → Prop} {f : State → Nat → Ans (Option Nat)}
    {new : State → Nat → Option Nat} (he : ∀ s, exec i s = semaphore n m qp r1 r3 s (f s))
    (hf : ∀ s, pre s → ∀ old, f s old = .ok (new s old)) : Exchanges i n m qp r1 r3 pre new := by
  intro s hq h1 h3 hpre hp hp' hm hu
  rw [he]
  exact semaphore_plain (hf s hpre) hq h1 h3 hp hp' hm hu

theorem compareExchanges_of (he : ∀ s, exec i s = cmpxchg n qp r1 r3 r2 s) :
    Exchanges i n n qp r1 r3 (fun s => Usable s r2)
      (fun s old => if old = s.lp.ar.ccv.toNat % 256 ^ n then some (s.lp.gr? r2).val.toNat else none) :=
  exchanges_of_semaphore he fun _ h _ => by rw [useGr_ok h]; rfl

theorem exchanges_of (he : ∀ s, exec i s = xchg n qp r1 r3 r2 s) :
    Exchanges i n n qp r1 r3 (fun s => Usable s r2) (fun s _ => some (s.lp.gr? r2).val.toNat) :=
  exchanges_of_semaphore he fun _ h _ => by rw [useGr_ok h]; rfl

theorem adds_of {inc : Int} (he : ∀ s, exec i s = fetchadd n qp r1 r3 inc s) :
    Exchanges i n n qp r1 r3 (fun _ => True) (fun _ old => some (((old : Int) + inc) % (256 ^ n : Nat)).toNat) :=
  exchanges_of_semaphore he fun _ _ _ => rfl

theorem compareExchanges16_of (he : ∀ s, exec i s = cmp8xchg16 qp r1 r3 r2 s) :
    Exchanges i 8 16 qp r1 r3 (fun s => Usable s r2) (fun s old => if old = s.lp.ar.ccv.toNat then
      some (joinHalves s.bigData 8 (s.lp.gr? r2).val.toNat s.lp.ar.csd.toNat) else none) :=
  exchanges_of_semaphore he fun _ h _ => by rw [useGr_ok h]; rfl

end

/-- Settles O18: each form is `semaphore` with an operation of its own. -/
theorem semaphores : Obligations.Semaphores := by
  refine ⟨fun o => ?_, fun o => ?_⟩
  · exact ⟨
      compareExchanges_of (exec_cmpxchg1Acq o), compareExchanges_of (exec_cmpxchg1Rel o), exchanges_of (exec_xchg1 o),
      compareExchanges_of (exec_cmpxchg2Acq o), compareExchanges_of (exec_cmpxchg2Rel o), exchanges_of (exec_xchg2 o),
      compareExchanges_of (exec_cmpxchg4Acq o), compareExchanges_of (exec_cmpxchg4Rel o), exchanges_of (exec_xchg4 o),
      compareExchanges_of (exec_cmpxchg8Acq o), compareExchanges_of (exec_cmpxchg8Rel o), exchanges_of (exec_xchg8 o),
      compareExchanges16_of (exec_cmp8xchg16Acq o), compareExchanges16_of (exec_cmp8xchg16Rel o)⟩
  · exact ⟨
      adds_of (exec_fetchadd4Acq o), adds_of (exec_fetchadd8Acq o), adds_of (exec_fetchadd4Rel o),
      adds_of (exec_fetchadd8Rel o)⟩

end Sys2Proof.Machine
end

