-- ==== Sys2Proof/Proofs/OperandTraps.lean ====
section
/-!
Where the integer loads and stores trap or do nothing (42 R580, R583; 60 R1311): each form is `loadInt` or `storeInt` with its
operands, so what traps is said once for each of the two and once more with the base register updated.
-/

namespace Sys2Proof.Machine

section
variable {i : Instr} {f : LoadForm} {n : Nat} {fill : Bool} {qp : BitVec 6} {r1 r3 r2 : BitVec 7} {inc : Inc}

/-- A form that is not predicated true does nothing. -/
theorem loadSkips (he : ∀ s, exec i s = loadInt f n fill qp r1 r3 inc s) : Skips i qp := skips_of he

theorem loadIllegal (he : ∀ s, exec i s = loadInt f n fill qp r1 r3 inc s) :
    Traps i qp (fun s => s.lp.grWritable r1 = false) (fun _ => illegalOperation) := by
  intro s hq h
  rw [he, loadInt_illegal hq (.inl h)]

theorem loadIllegal_update (he : ∀ s, exec i s = loadInt f n fill qp r1 r3 inc s) (hu : inc.updates = true) :
    Traps i qp (fun s => s.lp.grWritable r1 = false ∨ s.lp.grWritable r3 = false ∨ r1 = r3) (fun _ => illegalOperation) := by
  intro s hq h
  rw [he, loadInt_illegal hq (h.imp_right fun h => ⟨hu, h⟩)]

/-- The speculative forms: the destination may be illegal, the address may be a NaT. -/
theorem specTraps (he : ∀ s, exec i s = loadInt f n fill qp r1 r3 inc s) :
    Traps i qp (fun s => s.lp.grWritable r1 = false) (fun _ => illegalOperation) ∧ Skips i qp :=
  ⟨loadIllegal he, loadSkips he⟩

theorem specTraps_update (he : ∀ s, exec i s = loadInt f n fill qp r1 r3 inc s) (hu : inc.updates = true) :
    Traps i qp (fun s => s.lp.grWritable r1 = false ∨ s.lp.grWritable r3 = false ∨ r1 = r3) (fun _ => illegalOperation)
      ∧ Skips i qp :=
  ⟨loadIllegal_update he hu, loadSkips he⟩

theorem loadTraps (he : ∀ s, exec i s = loadInt f n fill qp r1 r3 .none s) (hs : f.spec = false) :
    Traps i qp (fun s => s.lp.grWritable r1 = false) (fun _ => illegalOperation)
      ∧ Traps i qp (fun s => s.lp.grWritable r1 = true ∧ s.lp.grReadable r3 = true ∧ IncOk s r3 .none
          ∧ (s.lp.gr? r3).nat = true) (fun _ => registerNatConsumption (accessBits .read))
      ∧ Skips i qp := by
  refine ⟨loadIllegal he, ?_, loadSkips he⟩
  rintro s hq ⟨h1, h3, hi, hn⟩
  rw [he, loadInt_natBase hq h1 h3 hi nofun hn hs]

theorem loadTraps_update (he : ∀ s, exec i s = loadInt f n fill qp r1 r3 inc s) (hs : f.spec = false)
    (hu : inc.updates = true) :
    Traps i qp (fun s => s.lp.grWritable r1 = false ∨ s.lp.grWritable r3 = false ∨ r1 = r3) (fun _ => illegalOperation)
      ∧ Traps i qp (fun s => s.lp.grWritable r1 = true ∧ s.lp.grReadable r3 = true ∧ IncOk s r3 inc ∧ r1 ≠ r3
          ∧ (s.lp.gr? r3).nat = true) (fun _ => registerNatConsumption (accessBits .read))
      ∧ Skips i qp := by
  refine ⟨loadIllegal_update he hu, ?_, loadSkips he⟩
  rintro s hq ⟨h1, h3, hi, hd, hn⟩
  rw [he, loadInt_natBase hq h1 h3 hi (fun _ => hd) hn hs]

theorem storeTraps (he : ∀ s, exec i s = storeInt n false qp r3 r2 inc s) :
    Traps i qp (fun s => s.lp.grReadable r3 = true ∧ s.lp.grReadable r2 = true ∧ IncOk s r3 inc
        ∧ ((s.lp.gr? r3).nat = true ∨ (s.lp.gr? r2).nat = true)) (fun _ => registerNatConsumption (accessBits .write))
      ∧ Skips i qp := by
  refine ⟨?_, skips_of he⟩
  rintro s hq ⟨h3, h2, hi, hn⟩
  rw [he, storeInt_nat hq h3 h2 hi (hn.imp_right fun h => ⟨rfl, h⟩)]

/-- A spill stores a NaT, but not at a NaT address. -/
theorem spillTraps (he : ∀ s, exec i s = storeInt n true qp r3 r2 inc s) :
    Traps i qp (fun s => s.lp.grReadable r3 = true ∧ s.lp.grReadable r2 = true ∧ IncOk s r3 inc
        ∧ ((s.lp.gr? r3).nat = true)) (fun _ => registerNatConsumption (accessBits .write))
      ∧ Skips i qp := by
  refine ⟨?_, skips_of he⟩
  rintro s hq ⟨h3, h2, hi, hn⟩
  rw [he, storeInt_nat hq h3 h2 hi (.inl hn)]

theorem storeIllegal {spill : Bool} (he : ∀ s, exec i s = storeInt n spill qp r3 r2 inc s) (hu : inc.updates = true) :
    Traps i qp (fun s => s.lp.grWritable r3 = false) (fun _ => illegalOperation) := by
  intro s hq h
  rw [he, storeInt_illegal hq hu h]

end

/-- The clauses of one instruction before those of the others. -/
theorem and2_rest {A B R : Prop} (h : A ∧ B) (r : R) : A ∧ B ∧ R := ⟨h.1, h.2, r⟩

theorem and3_rest {A B C R : Prop} (h : A ∧ B ∧ C) (r : R) : A ∧ B ∧ C ∧ R := ⟨h.1, and2_rest h.2 r⟩

/-- Settles O15: for each form the destinations it may not have, the NaT address or value it may not have, and the predicate. -/
theorem integerOperandTraps : Obligations.IntegerOperandTraps := by
  refine ⟨fun o => ?_, fun o => ?_, fun o => ?_, fun o => ?_, fun o => ?_⟩
  · exact and3_rest (loadTraps (exec_ld1R1R3 o) rfl) <|
      and3_rest (loadTraps (exec_ld2R1R3 o) rfl) <|
      and3_rest (loadTraps (exec_ld4R1R3 o) rfl) <|
      and3_rest (loadTraps (exec_ld8R1R3 o) rfl) <|
      and2_rest (specTraps (exec_ld1SR1R3 o)) <|
      and2_rest (specTraps (exec_ld2SR1R3 o)) <|
      and2_rest (specTraps (exec_ld4SR1R3 o)) <|
      and2_rest (specTraps (exec_ld8SR1R3 o)) <|
      and3_rest (loadTraps (exec_ld1AR1R3 o) rfl) <|
      and3_rest (loadTraps (exec_ld2AR1R3 o) rfl) <|
      and3_rest (loadTraps (exec_ld4AR1R3 o) rfl) <|
      and3_rest (loadTraps (exec_ld8AR1R3 o) rfl) <|
      and2_rest (specTraps (exec_ld1SaR1R3 o)) <|
      and2_rest (specTraps (exec_ld2SaR1R3 o)) <|
      and2_rest (specTraps (exec_ld4SaR1R3 o)) <|
      and2_rest (specTraps (exec_ld8SaR1R3 o)) <|
      and3_rest (loadTraps (exec_ld1BiasR1R3 o) rfl) <|
      and3_rest (loadTraps (exec_ld2BiasR1R3 o) rfl) <|
      and3_rest (loadTraps (exec_ld4BiasR1R3 o) rfl) <|
      and3_rest (loadTraps (exec_ld8BiasR1R3 o) rfl) <|
      and3_rest (loadTraps (exec_ld1AcqR1R3 o) rfl) <|
      and3_rest (loadTraps (exec_ld2AcqR1R3 o) rfl) <|
      and3_rest (loadTraps (exec_ld4AcqR1R3 o) rfl) <|
      and3_rest (loadTraps (exec_ld8AcqR1R3 o) rfl) <|
      and3_rest (loadTraps (exec_ld1CClrR1R3 o) rfl) <|
      and3_rest (loadTraps (exec_ld2CClrR1R3 o) rfl) <|
      and3_rest (loadTraps (exec_ld4CClrR1R3 o) rfl) <|
      and3_rest (loadTraps (exec_ld8CClrR1R3 o) rfl) <|
      and3_rest (loadTraps (exec_ld1CNcR1R3 o) rfl) <|
      and3_rest (loadTraps (exec_ld2CNcR1R3 o) rfl) <|
      and3_rest (loadTraps (exec_ld4CNcR1R3 o) rfl) <|
      and3_rest (loadTraps (exec_ld8CNcR1R3 o) rfl) <|
      and3_rest (loadTraps (exec_ld1CClrAcqR1R3 o) rfl) <|
      and3_rest (loadTraps (exec_ld2CClrAcqR1R3 o) rfl) <|
      and3_rest (loadTraps (exec_ld4CClrAcqR1R3 o) rfl) <|
      and3_rest (loadTraps (exec_ld8CClrAcqR1R3 o) rfl) <|
      loadTraps (exec_ld8FillR1R3 o) rfl
  · exact and3_rest (loadTraps_update (exec_ld1R1R3R2 o) rfl rfl) <|
      and3_rest (loadTraps_update (exec_ld2R1R3R2 o) rfl rfl) <|
      and3_rest (loadTraps_update (exec_ld4R1R3R2 o) rfl rfl) <|
      and3_rest (loadTraps_update (exec_ld8R1R3R2 o) rfl rfl) <|
      and2_rest (specTraps_update (exec_ld1SR1R3R2 o) rfl) <|
      and2_rest (specTraps_update (exec_ld2SR1R3R2 o) rfl) <|
      and2_rest (specTraps_update (exec_ld4SR1R3R2 o) rfl) <|
      and2_rest (specTraps_update (exec_ld8SR1R3R2 o) rfl) <|
      and3_rest (loadTraps_update (exec_ld1AR1R3R2 o) rfl rfl) <|
      and3_rest (loadTraps_update (exec_ld2AR1R3R2 o) rfl rfl) <|
      and3_rest (loadTraps_update (exec_ld4AR1R3R2 o) rfl rfl) <|
      and3_rest (loadTraps_update (exec_ld8AR1R3R2 o) rfl rfl) <|
      and2_rest (specTraps_update (exec_ld1SaR1R3R2 o) rfl) <|
      and2_rest (specTraps_update (exec_ld2SaR1R3R2 o) rfl) <|
      and2_rest (specTraps_update (exec_ld4SaR1R3R2 o) rfl) <|
      and2_rest (specTraps_update (exec_ld8SaR1R3R2 o) rfl) <|
      and3_rest (loadTraps_update (exec_ld1BiasR1R3R2 o) rfl rfl) <|
      and3_rest (loadTraps_update (exec_ld2BiasR1R3R2 o) rfl rfl) <|
      and3_rest (loadTraps_update (exec_ld4BiasR1R3R2 o) rfl rfl) <|
      and3_rest (loadTraps_update (exec_ld8BiasR1R3R2 o) rfl rfl) <|
      and3_rest (loadTraps_update (exec_ld1AcqR1R3R2 o) rfl rfl) <|
      and3_rest (loadTraps_update (exec_ld2AcqR1R3R2 o) rfl rfl) <|
      and3_rest (loadTraps_update (exec_ld4AcqR1R3R2 o) rfl rfl) <|
      and3_rest (loadTraps_update (exec_ld8AcqR1R3R2 o) rfl rfl) <|
      and3_rest (loadTraps_update (exec_ld1CClrR1R3R2 o) rfl rfl) <|
      and3_rest (loadTraps_update (exec_ld2CClrR1R3R2 o) rfl rfl) <|
      and3_rest (loadTraps_update (exec_ld4CClrR1R3R2 o) rfl rfl) <|
      and3_rest (loadTraps_update (exec_ld8CClrR1R3R2 o) rfl rfl) <|
      and3_rest (loadTraps_update (exec_ld1CNcR1R3R2 o) rfl rfl) <|
      and3_rest (loadTraps_update (exec_ld2CNcR1R3R2 o) rfl rfl) <|
      and3_rest (loadTraps_update (exec_ld4CNcR1R3R2 o) rfl rfl) <|
      and3_rest (loadTraps_update (exec_ld8CNcR1R3R2 o) rfl rfl) <|
      and3_rest (loadTraps_update (exec_ld1CClrAcqR1R3R2 o) rfl rfl) <|
      and3_rest (loadTraps_update (exec_ld2CClrAcqR1R3R2 o) rfl rfl) <|
      and3_rest (loadTraps_update (exec_ld4CClrAcqR1R3R2 o) rfl rfl) <|
      and3_rest (loadTraps_update (exec_ld8CClrAcqR1R3R2 o) rfl rfl) <|
      loadTraps_update (exec_ld8FillR1R3R2 o) rfl rfl
  · exact and3_rest (loadTraps_update (exec_ld1R1R3Imm9 o) rfl rfl) <|
      and3_rest (loadTraps_update (exec_ld2R1R3Imm9 o) rfl rfl) <|
      and3_rest (loadTraps_update (exec_ld4R1R3Imm9 o) rfl rfl) <|
      and3_rest (loadTraps_update (exec_ld8R1R3Imm9 o) rfl rfl) <|
      and2_rest (specTraps_update (exec_ld1SR1R3Imm9 o) rfl) <|
      and2_rest (specTraps_update (exec_ld2SR1R3Imm9 o) rfl) <|
      and2_rest (specTraps_update (exec_ld4SR1R3Imm9 o) rfl) <|
      and2_rest (specTraps_update (exec_ld8SR1R3Imm9 o) rfl) <|
      and3_rest (loadTraps_update (exec_ld1AR1R3Imm9 o) rfl rfl) <|
      and3_rest (loadTraps_update (exec_ld2AR1R3Imm9 o) rfl rfl) <|
      and3_rest (loadTraps_update (exec_ld4AR1R3Imm9 o) rfl rfl) <|
      and3_rest (loadTraps_update (exec_ld8AR1R3Imm9 o) rfl rfl) <|
      and2_rest (specTraps_update (exec_ld1SaR1R3Imm9 o) rfl) <|
      and2_rest (specTraps_update (exec_ld2SaR1R3Imm9 o) rfl) <|
      and2_rest (specTraps_update (exec_ld4SaR1R3Imm9 o) rfl) <|
      and2_rest (specTraps_update (exec_ld8SaR1R3Imm9 o) rfl) <|
      and3_rest (loadTraps_update (exec_ld1BiasR1R3Imm9 o) rfl rfl) <|
      and3_rest (loadTraps_update (exec_ld2BiasR1R3Imm9 o) rfl rfl) <|
      and3_rest (loadTraps_update (exec_ld4BiasR1R3Imm9 o) rfl rfl) <|
      and3_rest (loadTraps_update (exec_ld8BiasR1R3Imm9 o) rfl rfl) <|
      and3_rest (loadTraps_update (exec_ld1AcqR1R3Imm9 o) rfl rfl) <|
      and3_rest (loadTraps_update (exec_ld2AcqR1R3Imm9 o) rfl rfl) <|
      and3_rest (loadTraps_update (exec_ld4AcqR1R3Imm9 o) rfl rfl) <|
      and3_rest (loadTraps_update (exec_ld8AcqR1R3Imm9 o) rfl rfl) <|
      and3_rest (loadTraps_update (exec_ld1CClrR1R3Imm9 o) rfl rfl) <|
      and3_rest (loadTraps_update (exec_ld2CClrR1R3Imm9 o) rfl rfl) <|
      and3_rest (loadTraps_update (exec_ld4CClrR1R3Imm9 o) rfl rfl) <|
      and3_rest (loadTraps_update (exec_ld8CClrR1R3Imm9 o) rfl rfl) <|
      and3_rest (loadTraps_update (exec_ld1CNcR1R3Imm9 o) rfl rfl) <|
      and3_rest (loadTraps_update (exec_ld2CNcR1R3Imm9 o) rfl rfl) <|
      and3_rest (loadTraps_update (exec_ld4CNcR1R3Imm9 o) rfl rfl) <|
      and3_rest (loadTraps_update (exec_ld8CNcR1R3Imm9 o) rfl rfl) <|
      and3_rest (loadTraps_update (exec_ld1CClrAcqR1R3Imm9 o) rfl rfl) <|
      and3_rest (loadTraps_update (exec_ld2CClrAcqR1R3Imm9 o) rfl rfl) <|
      and3_rest (loadTraps_update (exec_ld4CClrAcqR1R3Imm9 o) rfl rfl) <|
      and3_rest (loadTraps_update (exec_ld8CClrAcqR1R3Imm9 o) rfl rfl) <|
      loadTraps_update (exec_ld8FillR1R3Imm9 o) rfl rfl
  · exact and2_rest (storeTraps (exec_st1R3R2 o)) <|
      and2_rest (storeTraps (exec_st2R3R2 o)) <|
      and2_rest (storeTraps (exec_st4R3R2 o)) <|
      and2_rest (storeTraps (exec_st8R3R2 o)) <|
      and2_rest (storeTraps (exec_st1RelR3R2 o)) <|
      and2_rest (storeTraps (exec_st2RelR3R2 o)) <|
      and2_rest (storeTraps (exec_st4RelR3R2 o)) <|
      and2_rest (storeTraps (exec_st8RelR3R2 o)) <|
      spillTraps (exec_st8SpillR3R2 o)
  · exact and3_rest (⟨storeIllegal (exec_st1R3R2Imm9 o) rfl, storeTraps (exec_st1R3R2Imm9 o)⟩) <|
      and3_rest (⟨storeIllegal (exec_st2R3R2Imm9 o) rfl, storeTraps (exec_st2R3R2Imm9 o)⟩) <|
      and3_rest (⟨storeIllegal (exec_st4R3R2Imm9 o) rfl, storeTraps (exec_st4R3R2Imm9 o)⟩) <|
      and3_rest (⟨storeIllegal (exec_st8R3R2Imm9 o) rfl, storeTraps (exec_st8R3R2Imm9 o)⟩) <|
      and3_rest (⟨storeIllegal (exec_st1RelR3R2Imm9 o) rfl, storeTraps (exec_st1RelR3R2Imm9 o)⟩) <|
      and3_rest (⟨storeIllegal (exec_st2RelR3R2Imm9 o) rfl, storeTraps (exec_st2RelR3R2Imm9 o)⟩) <|
      and3_rest (⟨storeIllegal (exec_st4RelR3R2Imm9 o) rfl, storeTraps (exec_st4RelR3R2Imm9 o)⟩) <|
      and3_rest (⟨storeIllegal (exec_st8RelR3R2Imm9 o) rfl, storeTraps (exec_st8RelR3R2Imm9 o)⟩) <|
      ⟨storeIllegal (exec_st8SpillR3R2Imm9 o) rfl, spillTraps (exec_st8SpillR3R2Imm9 o)⟩

end Sys2Proof.Machine
end

