-- ==== Sys2Proof/Proofs/FpLoadsAndStores.lean ====
section
/-!
The floating-point loads, pair loads and stores in all their forms (42 R585, R586, R587): what they do is said once of `loadFp`,
`loadPair` and `storeFp`, and each form is one of these with its operands.
-/

namespace Sys2Proof.Machine

/-- 42 R586: a NaT address, and NaTVal but in a spill, may not be stored. -/
theorem storeFp_nat {m : FpFormat} {qp : BitVec 6} {r3 f2 : BitVec 7} {inc : Inc} {s : State}
    (hq : s.lp.readPr qp = true) (h3 : s.lp.grReadable r3 = true) (hi : IncOk s r3 inc) (h2 : s.lp.frEnabled f2 = true)
    (hn : (s.lp.gr? r3).nat = true ∨ (m ≠ .image ∧ s.lp.fr? f2 = natVal)) :
    storeFp m qp r3 f2 inc s = .next (faultTo s (registerNatConsumption (accessBits .write))) := by
  refine predicated_raise hq ?_
  have hreq : (!(s.lp.gr? r3).nat && (decide (m = .image) || decide (s.lp.fr? f2 ≠ natVal))) = false := by
    rcases hn with e | ⟨e, e'⟩
    · simp [e]
    · simp [e, e']
  simp only [checkBase_ok hi, readGr_ok h3, readFr_ok h2, inc_value hi, ok_bind, hreq, require_false, raise_bind]

section
variable {i : Instr} {f : LoadForm} {m : FpFormat} {qp : BitVec 6} {f1 f2 r3 : BitVec 7} {inc : Inc} {clr update : Bool}

theorem loadsFp_of (he : ∀ s, exec i s = loadFp f m qp f1 r3 inc s) : LoadsFp i f m qp f1 r3 inc := by
  intro s h hf hp hs hc
  rw [he]
  exact loadFp_plain h hf hp hs hc

theorem loadsFpNat_of (he : ∀ s, exec i s = loadFp f m qp f1 r3 inc s) (hs : f.spec = true) :
    LoadsFpNat i f qp f1 r3 inc := by
  intro s h hf
  rw [he]
  exact loadFp_nat h hf hs

theorem checksFp_of (he : ∀ s, exec i s = loadFp f m qp f1 r3 inc s) (hk : f.check = true) (hc : f.clr = clr) :
    ChecksFp i clr m qp f1 r3 inc := by
  subst hc
  intro s h hf hp hentry
  rw [he]
  exact loadFp_entry h hf hp hk hentry

theorem loadsPair_of (he : ∀ s, exec i s = loadPair f m update qp f1 f2 r3 s)
    (hinc : inc = if update then Inc.imm (BitVec.ofNat 64 (2 * m.size)) else .none) :
    LoadsPair i f m qp f1 f2 r3 inc := by
  intro s h hf hg hne hp hs hc
  rw [he]
  exact loadPair_plain hinc h hf hg hne hp hs hc

theorem loadsPairNat_of (he : ∀ s, exec i s = loadPair f m update qp f1 f2 r3 s)
    (hinc : inc = if update then Inc.imm (BitVec.ofNat 64 (2 * m.size)) else .none) (hs : f.spec = true) :
    LoadsPairNat i f qp f1 f2 r3 inc := by
  intro s h hf hg hne
  rw [he]
  exact loadPair_nat hinc h hf hg hne hs

theorem checksPair_of (he : ∀ s, exec i s = loadPair f m update qp f1 f2 r3 s)
    (hinc : inc = if update then Inc.imm (BitVec.ofNat 64 (2 * m.size)) else .none) (hk : f.check = true)
    (hc : f.clr = clr) : ChecksPair i clr m qp f1 f2 r3 inc := by
  subst hc
  intro s h hf hg hne hp hentry
  rw [he]
  exact loadPair_entry hinc h hf hg hne hp hk hentry

theorem storesFp_of (he : ∀ s, exec i s = storeFp m qp r3 f2 inc s) : StoresFp i m qp r3 f2 inc := by
  constructor
  · rintro s hq ⟨h3, hi, h2, hn⟩
    rw [he, storeFp_nat hq h3 hi h2 hn]
  · intro s h h2 hn hp hm
    rw [he]
    exact storeFp_plain h h2 hn hp hm

end

/-- Settles O17: each form is one of the loads, pair loads and stores of the section above. -/
theorem fpLoadsAndStores : Obligations.FpLoadsAndStores := by
  refine ⟨fun o => ?_, fun o => ?_, fun o => ?_, fun o => ?_, fun o => ?_, fun o => ?_, fun o => ?_, fun o => ?_, fun o => ?_⟩
  · exact ⟨
      loadsFp_of (exec_ldfeF1R3 o), loadsFp_of (exec_ldf8F1R3 o), loadsFp_of (exec_ldfsF1R3 o),
      loadsFp_of (exec_ldfdF1R3 o), loadsFp_of (exec_ldfeSF1R3 o), loadsFpNat_of (exec_ldfeSF1R3 o) rfl,
      loadsFp_of (exec_ldf8SF1R3 o), loadsFpNat_of (exec_ldf8SF1R3 o) rfl, loadsFp_of (exec_ldfsSF1R3 o),
      loadsFpNat_of (exec_ldfsSF1R3 o) rfl, loadsFp_of (exec_ldfdSF1R3 o), loadsFpNat_of (exec_ldfdSF1R3 o) rfl,
      loadsFp_of (exec_ldfeAF1R3 o), loadsFp_of (exec_ldf8AF1R3 o), loadsFp_of (exec_ldfsAF1R3 o),
      loadsFp_of (exec_ldfdAF1R3 o), loadsFp_of (exec_ldfeSaF1R3 o), loadsFpNat_of (exec_ldfeSaF1R3 o) rfl,
      loadsFp_of (exec_ldf8SaF1R3 o), loadsFpNat_of (exec_ldf8SaF1R3 o) rfl, loadsFp_of (exec_ldfsSaF1R3 o),
      loadsFpNat_of (exec_ldfsSaF1R3 o) rfl, loadsFp_of (exec_ldfdSaF1R3 o), loadsFpNat_of (exec_ldfdSaF1R3 o) rfl,
      loadsFp_of (exec_ldfFillF1R3 o)⟩
  · exact ⟨
      loadsFp_of (exec_ldfeF1R3R2 o), loadsFp_of (exec_ldf8F1R3R2 o), loadsFp_of (exec_ldfsF1R3R2 o),
      loadsFp_of (exec_ldfdF1R3R2 o), loadsFp_of (exec_ldfeSF1R3R2 o), loadsFpNat_of (exec_ldfeSF1R3R2 o) rfl,
      loadsFp_of (exec_ldf8SF1R3R2 o), loadsFpNat_of (exec_ldf8SF1R3R2 o) rfl, loadsFp_of (exec_ldfsSF1R3R2 o),
      loadsFpNat_of (exec_ldfsSF1R3R2 o) rfl, loadsFp_of (exec_ldfdSF1R3R2 o), loadsFpNat_of (exec_ldfdSF1R3R2 o) rfl,
      loadsFp_of (exec_ldfeAF1R3R2 o), loadsFp_of (exec_ldf8AF1R3R2 o), loadsFp_of (exec_ldfsAF1R3R2 o),
      loadsFp_of (exec_ldfdAF1R3R2 o), loadsFp_of (exec_ldfeSaF1R3R2 o), loadsFpNat_of (exec_ldfeSaF1R3R2 o) rfl,
      loadsFp_of (exec_ldf8SaF1R3R2 o), loadsFpNat_of (exec_ldf8SaF1R3R2 o) rfl, loadsFp_of (exec_ldfsSaF1R3R2 o),
      loadsFpNat_of (exec_ldfsSaF1R3R2 o) rfl, loadsFp_of (exec_ldfdSaF1R3R2 o),
      loadsFpNat_of (exec_ldfdSaF1R3R2 o) rfl, loadsFp_of (exec_ldfFillF1R3R2 o)⟩
  · exact ⟨
      loadsFp_of (exec_ldfeF1R3Imm9 o), loadsFp_of (exec_ldf8F1R3Imm9 o), loadsFp_of (exec_ldfsF1R3Imm9 o),
      loadsFp_of (exec_ldfdF1R3Imm9 o), loadsFp_of (exec_ldfeSF1R3Imm9 o), loadsFpNat_of (exec_ldfeSF1R3Imm9 o) rfl,
      loadsFp_of (exec_ldf8SF1R3Imm9 o), loadsFpNat_of (exec_ldf8SF1R3Imm9 o) rfl, loadsFp_of (exec_ldfsSF1R3Imm9 o),
      loadsFpNat_of (exec_ldfsSF1R3Imm9 o) rfl, loadsFp_of (exec_ldfdSF1R3Imm9 o),
      loadsFpNat_of (exec_ldfdSF1R3Imm9 o) rfl, loadsFp_of (exec_ldfeAF1R3Imm9 o), loadsFp_of (exec_ldf8AF1R3Imm9 o),
      loadsFp_of (exec_ldfsAF1R3Imm9 o), loadsFp_of (exec_ldfdAF1R3Imm9 o), loadsFp_of (exec_ldfeSaF1R3Imm9 o),
      loadsFpNat_of (exec_ldfeSaF1R3Imm9 o) rfl, loadsFp_of (exec_ldf8SaF1R3Imm9 o),
      loadsFpNat_of (exec_ldf8SaF1R3Imm9 o) rfl, loadsFp_of (exec_ldfsSaF1R3Imm9 o),
      loadsFpNat_of (exec_ldfsSaF1R3Imm9 o) rfl, loadsFp_of (exec_ldfdSaF1R3Imm9 o),
      loadsFpNat_of (exec_ldfdSaF1R3Imm9 o) rfl, loadsFp_of (exec_ldfFillF1R3Imm9 o)⟩
  · exact ⟨
      loadsFp_of (exec_ldfeCClrF1R3 o), checksFp_of (exec_ldfeCClrF1R3 o) rfl rfl, loadsFp_of (exec_ldf8CClrF1R3 o),
      checksFp_of (exec_ldf8CClrF1R3 o) rfl rfl, loadsFp_of (exec_ldfsCClrF1R3 o),
      checksFp_of (exec_ldfsCClrF1R3 o) rfl rfl, loadsFp_of (exec_ldfdCClrF1R3 o),
      checksFp_of (exec_ldfdCClrF1R3 o) rfl rfl, loadsFp_of (exec_ldfeCNcF1R3 o),
      checksFp_of (exec_ldfeCNcF1R3 o) rfl rfl, loadsFp_of (exec_ldf8CNcF1R3 o),
      checksFp_of (exec_ldf8CNcF1R3 o) rfl rfl, loadsFp_of (exec_ldfsCNcF1R3 o),
      checksFp_of (exec_ldfsCNcF1R3 o) rfl rfl, loadsFp_of (exec_ldfdCNcF1R3 o),
      checksFp_of (exec_ldfdCNcF1R3 o) rfl rfl⟩
  · exact ⟨
      loadsFp_of (exec_ldfeCClrF1R3R2 o), checksFp_of (exec_ldfeCClrF1R3R2 o) rfl rfl,
      loadsFp_of (exec_ldf8CClrF1R3R2 o), checksFp_of (exec_ldf8CClrF1R3R2 o) rfl rfl,
      loadsFp_of (exec_ldfsCClrF1R3R2 o), checksFp_of (exec_ldfsCClrF1R3R2 o) rfl rfl,
      loadsFp_of (exec_ldfdCClrF1R3R2 o), checksFp_of (exec_ldfdCClrF1R3R2 o) rfl rfl,
      loadsFp_of (exec_ldfeCNcF1R3R2 o), checksFp_of (exec_ldfeCNcF1R3R2 o) rfl rfl,
      loadsFp_of (exec_ldf8CNcF1R3R2 o), checksFp_of (exec_ldf8CNcF1R3R2 o) rfl rfl,
      loadsFp_of (exec_ldfsCNcF1R3R2 o), checksFp_of (exec_ldfsCNcF1R3R2 o) rfl rfl,
      loadsFp_of (exec_ldfdCNcF1R3R2 o), checksFp_of (exec_ldfdCNcF1R3R2 o) rfl rfl⟩
  · exact ⟨
      loadsFp_of (exec_ldfeCClrF1R3Imm9 o), checksFp_of (exec_ldfeCClrF1R3Imm9 o) rfl rfl,
      loadsFp_of (exec_ldf8CClrF1R3Imm9 o), checksFp_of (exec_ldf8CClrF1R3Imm9 o) rfl rfl,
      loadsFp_of (exec_ldfsCClrF1R3Imm9 o), checksFp_of (exec_ldfsCClrF1R3Imm9 o) rfl rfl,
      loadsFp_of (exec_ldfdCClrF1R3Imm9 o), checksFp_of (exec_ldfdCClrF1R3Imm9 o) rfl rfl,
      loadsFp_of (exec_ldfeCNcF1R3Imm9 o), checksFp_of (exec_ldfeCNcF1R3Imm9 o) rfl rfl,
      loadsFp_of (exec_ldf8CNcF1R3Imm9 o), checksFp_of (exec_ldf8CNcF1R3Imm9 o) rfl rfl,
      loadsFp_of (exec_ldfsCNcF1R3Imm9 o), checksFp_of (exec_ldfsCNcF1R3Imm9 o) rfl rfl,
      loadsFp_of (exec_ldfdCNcF1R3Imm9 o), checksFp_of (exec_ldfdCNcF1R3Imm9 o) rfl rfl⟩
  · exact ⟨
      loadsPair_of (exec_ldfp8F1F2R3 o) rfl, loadsPair_of (exec_ldfp8F1F2R316 o) rfl,
      loadsPair_of (exec_ldfpsF1F2R3 o) rfl, loadsPair_of (exec_ldfpsF1F2R38 o) rfl,
      loadsPair_of (exec_ldfpdF1F2R3 o) rfl, loadsPair_of (exec_ldfpdF1F2R316 o) rfl,
      loadsPair_of (exec_ldfp8SF1F2R3 o) rfl, loadsPairNat_of (exec_ldfp8SF1F2R3 o) rfl rfl,
      loadsPair_of (exec_ldfp8SF1F2R316 o) rfl, loadsPairNat_of (exec_ldfp8SF1F2R316 o) rfl rfl,
      loadsPair_of (exec_ldfpsSF1F2R3 o) rfl, loadsPairNat_of (exec_ldfpsSF1F2R3 o) rfl rfl,
      loadsPair_of (exec_ldfpsSF1F2R38 o) rfl, loadsPairNat_of (exec_ldfpsSF1F2R38 o) rfl rfl,
      loadsPair_of (exec_ldfpdSF1F2R3 o) rfl, loadsPairNat_of (exec_ldfpdSF1F2R3 o) rfl rfl,
      loadsPair_of (exec_ldfpdSF1F2R316 o) rfl, loadsPairNat_of (exec_ldfpdSF1F2R316 o) rfl rfl,
      loadsPair_of (exec_ldfp8AF1F2R3 o) rfl, loadsPair_of (exec_ldfp8AF1F2R316 o) rfl,
      loadsPair_of (exec_ldfpsAF1F2R3 o) rfl, loadsPair_of (exec_ldfpsAF1F2R38 o) rfl,
      loadsPair_of (exec_ldfpdAF1F2R3 o) rfl, loadsPair_of (exec_ldfpdAF1F2R316 o) rfl,
      loadsPair_of (exec_ldfp8SaF1F2R3 o) rfl, loadsPairNat_of (exec_ldfp8SaF1F2R3 o) rfl rfl,
      loadsPair_of (exec_ldfp8SaF1F2R316 o) rfl, loadsPairNat_of (exec_ldfp8SaF1F2R316 o) rfl rfl,
      loadsPair_of (exec_ldfpsSaF1F2R3 o) rfl, loadsPairNat_of (exec_ldfpsSaF1F2R3 o) rfl rfl,
      loadsPair_of (exec_ldfpsSaF1F2R38 o) rfl, loadsPairNat_of (exec_ldfpsSaF1F2R38 o) rfl rfl,
      loadsPair_of (exec_ldfpdSaF1F2R3 o) rfl, loadsPairNat_of (exec_ldfpdSaF1F2R3 o) rfl rfl,
      loadsPair_of (exec_ldfpdSaF1F2R316 o) rfl, loadsPairNat_of (exec_ldfpdSaF1F2R316 o) rfl rfl,
      loadsPair_of (exec_ldfp8CClrF1F2R3 o) rfl, checksPair_of (exec_ldfp8CClrF1F2R3 o) rfl rfl rfl,
      loadsPair_of (exec_ldfp8CClrF1F2R316 o) rfl, checksPair_of (exec_ldfp8CClrF1F2R316 o) rfl rfl rfl,
      loadsPair_of (exec_ldfpsCClrF1F2R3 o) rfl, checksPair_of (exec_ldfpsCClrF1F2R3 o) rfl rfl rfl,
      loadsPair_of (exec_ldfpsCClrF1F2R38 o) rfl, checksPair_of (exec_ldfpsCClrF1F2R38 o) rfl rfl rfl,
      loadsPair_of (exec_ldfpdCClrF1F2R3 o) rfl, checksPair_of (exec_ldfpdCClrF1F2R3 o) rfl rfl rfl,
      loadsPair_of (exec_ldfpdCClrF1F2R316 o) rfl, checksPair_of (exec_ldfpdCClrF1F2R316 o) rfl rfl rfl,
      loadsPair_of (exec_ldfp8CNcF1F2R3 o) rfl, checksPair_of (exec_ldfp8CNcF1F2R3 o) rfl rfl rfl,
      loadsPair_of (exec_ldfp8CNcF1F2R316 o) rfl, checksPair_of (exec_ldfp8CNcF1F2R316 o) rfl rfl rfl,
      loadsPair_of (exec_ldfpsCNcF1F2R3 o) rfl, checksPair_of (exec_ldfpsCNcF1F2R3 o) rfl rfl rfl,
      loadsPair_of (exec_ldfpsCNcF1F2R38 o) rfl, checksPair_of (exec_ldfpsCNcF1F2R38 o) rfl rfl rfl,
      loadsPair_of (exec_ldfpdCNcF1F2R3 o) rfl, checksPair_of (exec_ldfpdCNcF1F2R3 o) rfl rfl rfl,
      loadsPair_of (exec_ldfpdCNcF1F2R316 o) rfl, checksPair_of (exec_ldfpdCNcF1F2R316 o) rfl rfl rfl⟩
  · exact ⟨
      storesFp_of (exec_stfeR3F2 o), storesFp_of (exec_stf8R3F2 o), storesFp_of (exec_stfsR3F2 o),
      storesFp_of (exec_stfdR3F2 o), storesFp_of (exec_stfSpillR3F2 o)⟩
  · exact ⟨
      storesFp_of (exec_stfeR3F2Imm9 o), storesFp_of (exec_stf8R3F2Imm9 o), storesFp_of (exec_stfsR3F2Imm9 o),
      storesFp_of (exec_stfdR3F2Imm9 o), storesFp_of (exec_stfSpillR3F2Imm9 o)⟩

end Sys2Proof.Machine
end

