-- ==== Sys2Proof/Proofs/RegisterFileTransfers.lean ====
section
/-!
setf and getf (42 R594, R595), and the round trip of a single and a double through the register format.
-/

namespace Sys2Proof.Machine

/-! ## The fields of a register -/

theorem getLsbD_mkFr (sign : Bool) (exp : BitVec 17) (sig : Word) (i : Nat) :
    (mkFr sign exp sig).getLsbD i
      = if i < 64 then sig.getLsbD i else if i - 64 < 17 then exp.getLsbD (i - 64) else decide (i = 81) && sign := by
  have h : (mkFr sign exp sig).getLsbD i = ((BitVec.ofBool sign ++ exp) ++ sig : BitVec (1 + 17 + 64)).getLsbD i := rfl
  rw [h, BitVec.getLsbD_append, BitVec.getLsbD_append, BitVec.getLsbD_ofBool]
  split
  · rfl
  · split
    · rfl
    · congr 1
      exact decide_eq_decide.mpr (by omega)

@[simp] theorem frSign_mkFr (sign : Bool) (exp : BitVec 17) (sig : Word) : frSign (mkFr sign exp sig) = sign := by
  rw [frSign, getLsbD_mkFr]
  rfl

@[simp] theorem frExp_mkFr (sign : Bool) (exp : BitVec 17) (sig : Word) : frExp (mkFr sign exp sig) = exp := by
  apply BitVec.eq_of_getLsbD_eq
  intro i hi
  simp [frExp, BitVec.getLsbD_ushiftRight, getLsbD_mkFr, hi]

@[simp] theorem frSig_mkFr (sign : Bool) (exp : BitVec 17) (sig : Word) : frSig (mkFr sign exp sig) = sig := by
  apply BitVec.eq_of_getLsbD_eq
  intro i hi
  simp [frSig, getLsbD_mkFr, hi]

/-- 42 R594: sign, exponent and the integer bit as significand. -/
theorem expFr_eq (w : Word) :
    expFr w = BitVec.ofBool (w.getLsbD 17) ++ w.extractLsb' 0 17 ++ 0x8000000000000000#64 := by
  rw [expFr, BitVec.setWidth_eq_extractLsb' (by decide)]
  rfl

/-- 42 R595: sign and exponent of a register in bits 17 and 16:0. -/
theorem frExpWord_eq (f : FReg) : frExpWord f = (f.extractLsb' 81 1 ++ f.extractLsb' 64 17).setWidth 64 := by
  apply BitVec.eq_of_getLsbD_eq
  intro i hi
  have hr : ((f.extractLsb' 81 1 ++ f.extractLsb' 64 17).setWidth 64).getLsbD i
      = if i < 17 then f.getLsbD (64 + i) else decide (i - 17 < 1) && f.getLsbD (81 + (i - 17)) := by
    rw [BitVec.getLsbD_setWidth, BitVec.getLsbD_append, BitVec.getLsbD_extractLsb', BitVec.getLsbD_extractLsb']
    by_cases h : i < 17 <;> simp [h, hi]
  have hsign : (ofBool (frSign f)).getLsbD (i - 17) = (decide (i - 17 < 1) && f.getLsbD 81) := by
    unfold ofBool frSign
    cases f.getLsbD 81
    · simp
    · simp only [if_true, BitVec.getLsbD_one, Bool.and_true]
      exact decide_eq_decide.mpr (by omega)
  rw [hr, frExpWord, BitVec.getLsbD_or, BitVec.getLsbD_shiftLeft, hsign]
  by_cases h : i < 17
  · simp [h, hi, frExp]
  · by_cases e : i = 17
    · subst e; simp [frExp]
    · have h1 : ¬ i - 17 < 1 := by omega
      simp [h, h1, frExp]

/-! ## Single and double -/

theorem toIeee_mkFr (eb fb : Nat) (sign : Bool) (exp : BitVec 17) (sig : Word) :
    toIeee eb fb (mkFr sign exp sig) = sign.toNat * 2 ^ (eb + fb)
      + (if sig.getLsbD 63 then exp.toNat / 2 ^ 16 * 2 ^ (eb - 1) + exp.toNat % 2 ^ (eb - 1) else 0) * 2 ^ fb
      + (sig.toNat % 2 ^ 63) / 2 ^ (63 - fb) := by
  simp only [toIeee, frSign_mkFr, frExp_mkFr, frSig_mkFr]

/-- The exponent of a normal value comes back: half of the range lies under the bias and half from it on. -/
theorem exponent_back {b q e : Nat} (hq : b * q = 65536) (he : e < 2 * b) :
    (e + 0xFFFF - (b - 1)) / 65536 * b + (e + 0xFFFF - (b - 1)) % b = e := by
  have hb : 0 < b := by omega
  have hb' : b ≤ 65536 := hq ▸ Nat.le_mul_of_pos_right b (Nat.pos_of_ne_zero (by rintro rfl; omega))
  have hmod : (e + 65536 - b) % b = e % b := by
    rw [← Nat.add_mod_right (e + 65536 - b) b, Nat.sub_add_cancel (by omega), ← hq, Nat.add_mul_mod_self_left]
  have hE : e + 0xFFFF - (b - 1) = e + 65536 - b := by omega
  rw [hE, hmod]
  rcases Nat.lt_or_ge e b with h | h
  · rw [Nat.div_eq_of_lt (by omega), Nat.mod_eq_of_lt h]; omega
  · have hd : (e + 65536 - b) / 65536 = 1 := by omega
    have hm : e % b = e - b := by
      rw [Nat.mod_eq_sub_mod h, Nat.mod_eq_of_lt (by omega)]
    rw [hd, hm]; omega

/-- The exponent of all ones, of an infinity or a NaN, comes back as all ones. -/
theorem last_exponent_back {b q : Nat} (hq : b * q = 65536) : 131071 / 65536 * b + 131071 % b = 2 * b - 1 := by
  have hb : 0 < b := by rcases Nat.eq_zero_or_pos b with rfl | h <;> omega
  have hsplit : 131071 = b * (2 * q - 1) + (b - 1) := by
    have h2 : b * (2 * q) = 131072 := by rw [Nat.mul_left_comm, hq]
    rw [Nat.mul_sub, h2]
    have := Nat.le_mul_of_pos_right b (Nat.pos_of_ne_zero (n := q) (by rintro rfl; omega))
    omega
  have hmod : 131071 % b = b - 1 := by
    rw [hsplit, Nat.mul_add_mod, Nat.mod_eq_of_lt (by omega)]
  rw [hmod]
  omega

/-- The integer bit and a fraction of 63 bits. -/
theorem one_or_frac {x : Nat} (h : x < 2 ^ 63) : ((1#64 <<< 63) ||| BitVec.ofNat 64 x).toNat = 2 ^ 63 + x := by
  have hor : 2 ^ 63 * 1 + x = 2 ^ 63 * 1 ||| x := Nat.two_pow_add_eq_or_of_lt h 1
  rw [BitVec.toNat_or, BitVec.toNat_ofNat, Nat.mod_eq_of_lt (by omega)]
  exact hor.symm

/-- A register with its integer bit set, as a pattern. -/
theorem toIeee_hidden {eb fb x : Nat} {sign : Bool} {exp : BitVec 17} (h : x < 2 ^ 63) :
    toIeee eb fb (mkFr sign exp ((1#64 <<< 63) ||| BitVec.ofNat 64 x)) = sign.toNat * 2 ^ (eb + fb)
      + (exp.toNat / 2 ^ 16 * 2 ^ (eb - 1) + exp.toNat % 2 ^ (eb - 1)) * 2 ^ fb + x / 2 ^ (63 - fb) := by
  have hone : ((1#64 <<< 63) ||| BitVec.ofNat 64 x).getLsbD 63 = true := by
    rw [BitVec.getLsbD_or]; exact Bool.true_or _
  rw [toIeee_mkFr, if_pos hone, one_or_frac h, Nat.add_mod_left, Nat.mod_eq_of_lt h]

/-- A register with a clear integer bit, as a pattern: an unnormal has exponent 0. -/
theorem toIeee_unnormal {eb fb x : Nat} {sign : Bool} {exp : BitVec 17} (h : x < 2 ^ 63) :
    toIeee eb fb (mkFr sign exp (BitVec.ofNat 64 x))
      = sign.toNat * 2 ^ (eb + fb) + 0 * 2 ^ fb + x / 2 ^ (63 - fb) := by
  have hzero : (BitVec.ofNat 64 x).getLsbD 63 = false := by
    rw [BitVec.getLsbD_ofNat, Nat.testBit_lt_two_pow h]; rfl
  rw [toIeee_mkFr, hzero, if_neg nofun, BitVec.toNat_ofNat, Nat.mod_eq_of_lt (by omega : x < 2 ^ 64), Nat.mod_eq_of_lt h]

/-- A pattern from its sign, exponent and fraction. -/
theorem ieee_fields {eb fb v : Nat} (hv : v < 2 ^ (1 + eb + fb)) :
    (decide (v / 2 ^ (eb + fb) % 2 = 1)).toNat * 2 ^ (eb + fb) + v / 2 ^ fb % 2 ^ eb * 2 ^ fb + v % 2 ^ fb = v := by
  have hS : v / 2 ^ (eb + fb) < 2 := by
    rw [Nat.div_lt_iff_lt_mul (Nat.two_pow_pos _), ← Nat.pow_succ', Nat.succ_eq_one_add, ← Nat.add_assoc]
    exact hv
  have hs : (decide (v / 2 ^ (eb + fb) % 2 = 1)).toNat = v / 2 ^ fb / 2 ^ eb := by
    rw [Nat.div_div_eq_div_mul, ← Nat.pow_add, Nat.add_comm fb eb]
    rcases Nat.lt_succ_iff_lt_or_eq.mp hS with h | h
    · rw [Nat.lt_one_iff.mp h]; rfl
    · rw [h]; rfl
  calc _ = (v / 2 ^ fb / 2 ^ eb * 2 ^ eb + v / 2 ^ fb % 2 ^ eb) * 2 ^ fb + v % 2 ^ fb := by rw [hs, Nat.pow_add]; ring
    _ = v := by rw [Nat.div_add_mod', Nat.div_add_mod']

/-- 42 R594, R595: a value that fits its format comes back from the register format, whether it is an infinity or NaN, a zero or
unnormal, or normal. -/
theorem toIeee_fromIeee {eb fb v : Nat} (he : 1 ≤ eb) (he' : eb ≤ 17) (hf : fb ≤ 62) (hv : v < 2 ^ (1 + eb + fb)) :
    toIeee eb fb (fromIeee eb fb v) = v := by
  have hFG : 2 ^ fb * 2 ^ (63 - fb) = 2 ^ 63 := by rw [← Nat.pow_add]; congr 1; omega
  have hG := Nat.two_pow_pos (63 - fb)
  have hfrac : v % 2 ^ fb * 2 ^ (63 - fb) < 2 ^ 63 :=
    hFG ▸ Nat.mul_lt_mul_of_pos_right (Nat.mod_lt v (Nat.two_pow_pos fb)) hG
  have hbq : 2 ^ (eb - 1) * 2 ^ (17 - eb) = 65536 := by
    rw [← Nat.pow_add, show eb - 1 + (17 - eb) = 16 by omega]
  have hb2 : 2 ^ eb = 2 * 2 ^ (eb - 1) := by rw [← Nat.pow_succ', Nat.succ_eq_add_one, Nat.sub_add_cancel he]
  have hb16 : 2 ^ (eb - 1) ≤ 65536 := hbq ▸ Nat.le_mul_of_pos_right _ (Nat.two_pow_pos _)
  have hexp := Nat.mod_lt (v / 2 ^ fb) (Nat.two_pow_pos eb)
  refine Eq.trans ?_ (ieee_fields hv)
  dsimp only [fromIeee]
  split_ifs with hmax h0 hzero
  · rw [toIeee_hidden hfrac, Nat.mul_div_cancel _ hG, hmax, hb2]
    exact congrArg (fun x => _ + x * _ + _) (last_exponent_back hbq)
  · rw [← hzero, toIeee_unnormal hfrac, Nat.mul_div_cancel _ hG, h0]
  · rw [toIeee_unnormal hfrac, Nat.mul_div_cancel _ hG, h0]
  · have hfit : v / 2 ^ fb % 2 ^ eb + 0xFFFF - (2 ^ (eb - 1) - 1) < 2 ^ 17 := by omega
    rw [toIeee_hidden hfrac, Nat.mul_div_cancel _ hG, BitVec.toNat_ofNat, Nat.mod_eq_of_lt hfit]
    exact congrArg (fun x => _ + x * _ + _) (exponent_back hbq (by omega))

/-- Settles O19, by what a setf and a getf do and the conversion of each form. -/
theorem registerFileTransfers : Obligations.RegisterFileTransfers := by
  refine ⟨fun o => ⟨?_, ?_, ?_, ?_⟩, fun o => ⟨?_, ?_, ?_, ?_⟩, fun w hw => ?_, fun w => ?_⟩
  · exact setf_effect (exec_setfSig o) (g := fun w => 0#1 ++ 0x1003E#17 ++ w) fun _ => rfl
  · exact setf_effect (exec_setfExp o) expFr_eq
  · exact setf_effect (exec_setfS o) fun _ => rfl
  · exact setf_effect (exec_setfD o) fun _ => rfl
  · exact getf_effect (exec_getfSig o) (g := fun f => f.extractLsb' 0 64) fun _ => BitVec.setWidth_eq_extractLsb' (by decide)
  · refine getf_effect (exec_getfExp o) (g := fun f => (f.extractLsb' 81 1 ++ f.extractLsb' 64 17).setWidth 64) fun f => ?_
    exact frExpWord_eq f
  · refine getf_effect (exec_getfS o) (g := fun f => BitVec.ofNat 64 (toMemory .single f)) fun f => ?_
    rfl
  · refine getf_effect (exec_getfD o) (g := fun f => BitVec.ofNat 64 (toMemory .double f)) fun f => ?_
    rfl
  · exact toIeee_fromIeee (by decide) (by decide) (by decide) hw
  · exact toIeee_fromIeee (by decide) (by decide) (by decide) w.isLt

end Sys2Proof.Machine
end

