-- ==== Sys2Proof/Proofs/ProcessorStatusMoves.lean ====
section
/-!
The masks and moves of the processor status (42 R611, R612, R633 to R636): the words the model computes with fields are the words
of the masks the rules name, and each form is an effect or a trap of its body.
-/

namespace Sys2Proof.Machine

/-! ## The masks as words -/

theorem field_low6 (w : Word) : field w 0 6 = w &&& 0x3F#64 := by
  rw [field, BitVec.ushiftRight_zero]; rfl

theorem field_low32 (w : Word) : field w 0 32 = w &&& 0xFFFFFFFF#64 := by
  rw [field, BitVec.ushiftRight_zero]; rfl

theorem setField_low32 (w v : Word) :
    setField w 0 32 v = (w &&& 0xFFFFFFFF00000000#64) ||| (v &&& 0xFFFFFFFF#64) := by
  simp only [setField, BitVec.shiftLeft_zero]; rfl

/-- 42 R612: `up` reads 0 while `PSR.sp` is 1. -/
theorem userMaskRead_eq (w : Word) :
    userMaskRead w = if w.getLsbD 20 then w &&& 0x3B#64 else w &&& 0x3F#64 := by
  simp only [userMaskRead, field_low6, setBit, Bool.false_eq_true, if_false, BitVec.and_assoc]
  rfl

theorem and_eq_self_of_and_not {m k : Word} (h : m &&& ~~~k = 0#64) : m &&& k = m := by
  calc m &&& k = (m &&& k) ||| (m &&& ~~~k) := by rw [h, BitVec.or_zero]
    _ = m &&& (k ||| ~~~k) := by rw [BitVec.and_or_distrib_left]
    _ = m := by rw [BitVec.or_not_self, BitVec.and_allOnes]

/-- A 24-bit immediate above bit 5, as a word. -/
theorem uimm_above_userMask (m : BitVec 24) : (m &&& ~~~0x3F#24).setWidth 64 = uimm m &&& ~~~0x3F#64 := by
  have h24 : uimm m &&& 0xFFFFFF#64 = uimm m := by
    have h := congrArg (BitVec.setWidth 64) (BitVec.and_allOnes (x := m))
    rwa [BitVec.setWidth_and] at h
  calc (m &&& ~~~0x3F#24).setWidth 64 = uimm m &&& 0xFFFFC0#64 := BitVec.setWidth_and
    _ = uimm m &&& 0xFFFFFF#64 &&& ~~~0x3F#64 := by rw [BitVec.and_assoc]; rfl
    _ = uimm m &&& ~~~0x3F#64 := by rw [h24]

theorem userMask_reserved_iff (m : BitVec 24) : uimm m &&& ~~~0x3F#64 = 0#64 ↔ m &&& ~~~0x3F#24 = 0#24 := by
  rw [← uimm_above_userMask]
  refine ⟨fun h => ?_, fun h => by rw [h]; rfl⟩
  have := congrArg (BitVec.setWidth 24) h
  rwa [BitVec.setWidth_setWidth_of_le _ (by decide), BitVec.setWidth_eq] at this

/-- The bits an immediate names in the user mask: 5 to 1, bit 0 naming none. -/
theorem userMask_bits {m : BitVec 24} (h : m &&& ~~~0x3F#24 = 0#24) : uimm m &&& ~~~1#64 = m.setWidth 64 &&& 0x3E#64 := by
  have hm := and_eq_self_of_and_not ((userMask_reserved_iff m).2 h)
  calc uimm m &&& ~~~1#64 = uimm m &&& 0x3F#64 &&& ~~~1#64 := by rw [hm]
    _ = m.setWidth 64 &&& 0x3E#64 := by rw [BitVec.and_assoc]; rfl

theorem uimm_bit36 (m : BitVec 24) : (uimm m).getLsbD 36 = false := by simp [uimm]

/-! ## The user mask -/

/-- What the user mask becomes: its bits 5:0, with `up` kept while `PSR.sp` is 1. -/
theorem setUserMask_bit (s : State) (um : Word) (i : Nat) :
    (s.setUserMask um).lp.psr.getLsbD i
      = if i < 6 ∧ ¬ (i = 2 ∧ s.lp.psr.getLsbD 20 = true) then um.getLsbD i else s.lp.psr.getLsbD i := by
  have h : (s.setUserMask um).lp.psr.getLsbD i
      = if i < 6 then (if s.lp.psrBit 20 then setBit um 2 (s.lp.psrBit 2) else um).getLsbD i else s.lp.psr.getLsbD i := by
    have := setField_bit s.lp.psr (if s.lp.psrBit 20 then setBit um 2 (s.lp.psrBit 2) else um) (lo := 0) (len := 6)
      (by decide) i
    simpa [State.setUserMask] using this
  rw [h]
  by_cases hi : i < 6
  · cases hsp : s.lp.psr.getLsbD 20 with
    | false => simp [LP.psrBit, hsp, hi, -BitVec.getLsbD_eq_getElem]
    | true =>
      by_cases h2 : i = 2
      · subst h2; simp [LP.psrBit, hsp, setBit_same, -BitVec.getLsbD_eq_getElem]
      · simp [LP.psrBit, hsp, hi, h2, setBit_get]
  · simp [hi]

section
variable {i : Instr} {qp : BitVec 6} {m : BitVec 24} {f : Word → Word → Word}

theorem userMask_effect (he : ∀ s, exec i s = userMask qp m s f) :
    Effect i qp (fun _ => m &&& ~~~0x3F#24 = 0#24)
      (fun s => s.setUserMask (f (s.lp.psr &&& 0x3F#64) (m.setWidth 64 &&& 0x3E#64))) := by
  refine effect_of he (fun s h => ?_) (fun s => setUserMask_psrBit s _ 36 (by decide) (by decide)) (fun _ => rfl)
  dsimp only
  rw [decide_eq_true ((userMask_reserved_iff m).2 h), userMask_bits h, field_low6]
  rfl

theorem userMask_trap (he : ∀ s, exec i s = userMask qp m s f) :
    Traps i qp (fun _ => m &&& ~~~0x3F#24 ≠ 0#24) (fun _ => reservedRegisterField) := by
  refine trap_of he fun s h => ?_
  dsimp only
  rw [decide_eq_false (mt (userMask_reserved_iff m).1 h)]
  rfl

theorem systemMask_privileged {set : Bool} (he : ∀ s, exec i s = systemMask set qp m s) :
    Traps i qp (fun s => s.lp.cpl ≠ 0#2) (fun _ => privilegedOperation) := by
  refine trap_of he fun s h => ?_
  rw [State.atLevel0, decide_eq_false h]
  rfl

end

/-- Settles O21: each form by its body, with the masks as words. -/
theorem processorStatusMoves : Obligations.ProcessorStatusMoves := by
  refine ⟨fun o => ⟨?_, ?_, ?_, ?_, ?_, ?_, ?_, ?_, ?_⟩, fun o => ⟨?_, ?_, ?_, ?_⟩, fun o => ⟨?_, ?_, ?_⟩,
    fun s um i => ⟨?_, rfl⟩⟩
  · exact userMask_effect (f := fun w m => w ||| m) (exec_sum o)
  · exact userMask_trap (exec_sum o)
  · exact userMask_effect (f := fun w m => w &&& ~~~m) (exec_rum o)
  · exact userMask_trap (exec_rum o)
  · refine effect_of (exec_ssm o) (fun s h => ?_) (fun s => ?_) (fun _ => rfl)
    · have hz : decide (uimm o.imm24 &&& psrReserved ≠ 0#64) = false := decide_eq_false (not_not.2 h.2)
      dsimp only
      rw [State.atLevel0, decide_eq_true h.1, hz]; rfl
    · exact (BitVec.getLsbD_or ..).trans (by rw [← uimm, uimm_bit36, Bool.or_false]; rfl)
  · refine effect_of (exec_rsm o) (fun s h => ?_) (fun s => ?_) (fun _ => rfl)
    · rw [State.atLevel0, decide_eq_true h]; rfl
    · exact (BitVec.getLsbD_and ..).trans (by
        rw [BitVec.getLsbD_not, ← uimm, uimm_bit36]; exact Bool.and_true _)
  · exact systemMask_privileged (exec_ssm o)
  · exact systemMask_privileged (exec_rsm o)
  · refine trap_of (exec_ssm o) fun s h => ?_
    have hz : decide (uimm o.imm24 &&& psrReserved ≠ 0#64) = true := decide_eq_true h.2
    dsimp only
    rw [State.atLevel0, decide_eq_true h.1, hz]; rfl
  · refine effect_of (exec_movPsrLR2 o) (fun s h => ?_) (fun s => ?_) (fun _ => rfl)
    · obtain ⟨hc, hr, hz⟩ := h
      rw [checkSource_ok hr.1, State.atLevel0, decide_eq_true hc, useGr_ok hr]
      simp only [ok_bind, require_true, field_low32, decide_eq_true hz, setField_low32]
      rfl
    · simp [LP.psrBit]
  · exact trap_of (exec_movPsrLR2 o) fun s h => by rw [checkSource_outside h]; rfl
  · refine trap_of (exec_movPsrLR2 o) fun s h => ?_
    rw [checkSource_ok h.1, State.atLevel0, decide_eq_false h.2]; rfl
  · refine effect_of (exec_movPsrUmR2 o) (fun s h => ?_) (fun s => ?_) (fun _ => rfl)
    · rw [useGr_ok h.1, ok_bind, h.2, field_low6]; rfl
    · exact setUserMask_psrBit s _ 36 (by decide) (by decide)
  · refine effect_of (exec_movR1Psr o) (fun s h => ?_) (fun s => psrBit36_setGr ..) (fun _ => rfl)
    rw [checkGr_ok h.1, State.atLevel0, decide_eq_true h.2]; rfl
  · refine trap_of (exec_movR1Psr o) fun s h => ?_
    rw [checkGr_ok h.1, State.atLevel0, decide_eq_false h.2]; rfl
  · exact result0_of (exec_movR1PsrUm o) fun s => userMaskRead_eq s.lp.psr
  · exact setUserMask_bit s um i

end Sys2Proof.Machine
end

