-- ==== Sys2Proof/Proofs/FencesAndPrefetches.lean ====
section
/-!
The fences and serializations, the cache flushes, the prefetches and the invalidations of the ALAT (42 R588, R598 to R602, R605,
R640).
-/

namespace Sys2Proof.Machine

section
variable {i : Instr} {qp : BitVec 6} {r r3 : BitVec 7} {inc : Inc}

/-- What only orders accesses changes nothing in a model that applies every write at once. -/
theorem noEffect_effect (he : ∀ s, exec i s = noEffect qp s) : Effect i qp (fun _ => True) (fun s => s) :=
  effect_of he (fun _ _ => rfl) (fun _ => rfl) (fun _ => rfl)

theorem invalidateEntry_effect {fp : Bool} (he : ∀ s, exec i s = invalidateEntry fp qp r s) :
    Effect i qp (fun _ => True)
      (fun s => s.setLp { s.lp with alat := s.lp.alat.filter fun e => !(e.fp == fp && e.reg == s.lp.alatKey fp r) }) :=
  effect_of he (fun _ _ => rfl) (fun _ => rfl) (fun _ => rfl)

/-- 42 R605: a flush needs the translation of its address and changes nothing. -/
theorem flushLine_effect (he : ∀ s, exec i s = flushLine qp r3 s) :
    Effect i qp (fun s => Usable s r3 ∧ ∃ a, translateAddr s (s.lp.gr? r3).val .read = .ok a) (fun s => s) := by
  refine effect_of he (fun s h => ?_) (fun _ => rfl) (fun _ => rfl)
  obtain ⟨hr, a, ha⟩ := h
  dsimp only
  rw [useGr_ok hr, ok_bind, ha]
  rfl

theorem flushLine_nat (he : ∀ s, exec i s = flushLine qp r3 s) :
    Traps i qp (fun s => s.lp.grReadable r3 = true ∧ (s.lp.gr? r3).nat = true)
      (fun _ => registerNatConsumption (accessBits .nonAccess ||| accessBits .read)) := by
  refine trap_of he fun s h => ?_
  dsimp only
  rw [useGr_nat h.1 h.2]
  rfl

/-- 42 R588: a prefetch, and the prefetch predicated off. -/
theorem prefetches_of {fault : Bool} (he : ∀ s, exec i s = lineFetch fault qp r3 inc s) :
    Prefetches i fault qp r3 inc ∧ Skips i qp := by
  refine ⟨fun s h hp => ?_, skips_of he⟩
  rw [he]
  exact lineFetch_plain h hp

end

/-- Settles O22, form by form. -/
theorem fencesPrefetchesAndAlat : Obligations.FencesPrefetchesAndAlat := by
  refine ⟨fun o => ⟨noEffect_effect (exec_fwb o), noEffect_effect (exec_mf o), noEffect_effect (exec_mfA o),
      noEffect_effect (exec_syncI o), noEffect_effect (exec_srlzD o), ?_, ?_⟩,
    fun o => invalidateEntry_effect (exec_invalaER1 o), fun o => invalidateEntry_effect (exec_invalaEF1 o),
    fun o => ⟨flushLine_effect (exec_fcR3 o), flushLine_nat (exec_fcR3 o), flushLine_effect (exec_fcIR3 o),
      flushLine_nat (exec_fcIR3 o)⟩, fun o => ?_, fun o => ?_, fun o => ?_⟩
  · exact effect_of (exec_srlzI o) (fun _ _ => rfl) (fun _ => rfl) (fun _ => rfl)
  · exact effect_of (exec_invala o) (fun _ _ => rfl) (fun _ => rfl) (fun _ => rfl)
  · exact and2_rest (prefetches_of (exec_lfetchR3 o)) <| and2_rest (prefetches_of (exec_lfetchExclR3 o)) <|
      and2_rest (prefetches_of (exec_lfetchFaultR3 o)) <| prefetches_of (exec_lfetchFaultExclR3 o)
  · exact and2_rest (prefetches_of (exec_lfetchR3R2 o)) <| and2_rest (prefetches_of (exec_lfetchExclR3R2 o)) <|
      and2_rest (prefetches_of (exec_lfetchFaultR3R2 o)) <| prefetches_of (exec_lfetchFaultExclR3R2 o)
  · exact and2_rest (prefetches_of (exec_lfetchR3Imm9 o)) <| and2_rest (prefetches_of (exec_lfetchExclR3Imm9 o)) <|
      and2_rest (prefetches_of (exec_lfetchFaultR3Imm9 o)) <| prefetches_of (exec_lfetchFaultExclR3Imm9 o)

end Sys2Proof.Machine
end

