-- ==== Sys2Proof/Proofs/ApplicationRegisters.lean ====
section
/-!
Moves to and from application registers (42 R606, R607; 41 R556, R557; 10 R76): the registers as a store addressed by number, the
outcomes of a write and of a read, and each form from them.
-/

namespace Sys2Proof.Machine

theorem useGr_outside {s : State} {r : BitVec 7} {acc : Word} (h : s.lp.grReadable r = false) :
    useGr s r acc = raise illegalOperation := by
  rw [useGr, readGr_outside h]; rfl

/-! ## The numbers -/

theorem arIgnored_iff {n : Nat} : arIgnored n = true ↔ (48 ≤ n ∧ n ≤ 63) ∨ 112 ≤ n := decide_eq_true_iff

theorem arExists_iff {n : Nat} : arExists n = true ↔
    n < 8 ∨ n ∈ [16, 17, 18, 19, 21, 24, 25, 26, 27, 28, 29, 30, 32, 36, 40, 44, 45, 64, 65, 66] ∨ arIgnored n = true := by
  rw [arExists, Bool.or_eq_true, Bool.or_eq_true, decide_eq_true_iff, decide_eq_true_iff, or_assoc, or_comm, or_assoc]

theorem arOnUnit_iff {iUnit : Bool} {n : Nat} : arOnUnit iUnit n = true ↔ if iUnit then 48 ≤ n else n < 64 := by
  cases iUnit <;> simp [arOnUnit]

theorem field_low2 (w : Word) : field w 0 2 = w &&& 3#64 := by
  rw [field, BitVec.ushiftRight_zero]; rfl

theorem arWritable_iff {iUnit : Bool} {n : Nat} {s : State} : arWritable iUnit n s = true ↔
    (if iUnit then 48 ≤ n else n < 64) ∧ arExists n = true ∧ n ≠ 17 ∧ (n = 18 ∨ n = 19 → s.lp.ar.rsc &&& 3#64 = 0#64) := by
  rw [arWritable, Bool.and_eq_true, Bool.and_eq_true, Bool.and_eq_true, Bool.or_eq_true, arOnUnit_iff, decide_eq_true_iff,
    decide_eq_true_iff, decide_eq_true_iff, field_low2, and_assoc, and_assoc, ← not_or, ← imp_iff_not_or]

theorem arReserved_eq (n : Nat) : arReserved n = if n = 16 then 0xFFFFFFFFC000FFE0#64
    else if n = 40 then 0xFC00000000000000#64 else if n = 64 then 0x3C0FFFC000000000#64 else 0#64 := by
  unfold arReserved
  split
  · rfl
  · rfl
  · rfl
  next h16 h40 h64 => rw [if_neg h16, if_neg h40, if_neg h64]

theorem arPrivileged_iff {n : Nat} : arPrivileged n = true ↔ n < 8 ∨ n = 44 ∨ n = 45 := decide_eq_true_iff

/-! ## The registers as a store -/

/-- 42 R606: a write of an application register changes no status and no parameter. -/
theorem setArValue_status (s : State) (n : Nat) (v : Word) :
    (setArValue s n v).lp.psr = s.lp.psr ∧ (setArValue s n v).params = s.params := by
  unfold setArValue
  dsimp only
  split
  · exact ⟨rfl, rfl⟩
  · split <;> exact ⟨rfl, rfl⟩

/-- A write leaves every other register, but that `AR.BSP` moves with `AR.BSPSTORE`. -/
theorem arValue_setArValue_other (s : State) {n m : Nat} (v : Word) (h : m ≠ n) (hbsp : ¬ (m = 17 ∧ n = 18)) :
    arValue (setArValue s n v) m = arValue s m := by
  unfold setArValue
  dsimp only
  split
  · unfold arValue
    split
    · exact getD_set_other _ _ _ _ _ (Ne.symm h)
    · rfl
  · split <;> (unfold arValue; split; rfl; split <;> first | rfl | omega)

/-- A register that holds all the bits of a write reads as written. -/
theorem arValue_setArValue_same (s : State) {n : Nat} (v : Word) (he : arExists n = true) (hi : arIgnored n = false)
    (h16 : n ≠ 16) (h17 : n ≠ 17) (h18 : n ≠ 18) (h66 : n ≠ 66) : arValue (setArValue s n v) n = v := by
  rcases arExists_iff.1 he with hk | hm | hg
  · unfold arValue setArValue
    rw [if_pos hk, if_pos hk]
    exact getD_set_same _ _ _ _ hk
  · simp only [List.mem_cons, List.not_mem_nil, h16, h17, h18, h66, false_or, or_false] at hm
    rcases hm with rfl | rfl | rfl | rfl | rfl | rfl | rfl | rfl | rfl | rfl | rfl | rfl | rfl | rfl | rfl | rfl <;> rfl
  · rw [hi] at hg; cases hg

/-- `AR.EC` holds six bits. -/
theorem setWidth_6 (v : Word) : (v.setWidth 6).setWidth 64 = v &&& 0x3F#64 := by
  apply BitVec.eq_of_toNat_eq
  rw [← field_low6, field_toNat v 0 (by decide), BitVec.toNat_setWidth, BitVec.toNat_setWidth]
  omega

/-- `AR.BSPSTORE` holds no bits 2:0. -/
theorem alignDown_3 (v : Word) : alignDown v 3 = v &&& ~~~7#64 := by
  rw [alignDown, BitVec.shiftLeft_ushiftRight]
  rfl

/-- 10 R76: an ignored register drops what is written and reads 0 (log 56). -/
theorem arIgnored_store (s : State) {n : Nat} (v : Word) (h : arIgnored n = true) :
    setArValue s n v = s ∧ arValue s n = 0#64 := by
  have hn := arIgnored_iff.1 h
  unfold setArValue arValue
  rw [if_neg (by omega), if_neg (by omega)]
  constructor
  · split <;> first | rfl | omega
  · split <;> first | rfl | omega

/-! ## The outcomes of a write -/

section
variable {iUnit : Bool} {n : Nat} {s : State} {v : Word} {source : Ans Word}

theorem writeAr_illegal (h : arWritable iUnit n s = false) : writeAr iUnit n s source = raise illegalOperation := by
  rw [writeAr, h]; rfl

theorem writeAr_source {e : Exc} (h : arWritable iUnit n s = true) : writeAr iUnit n s (raise e) = raise e := by
  rw [writeAr, h]; rfl

theorem writeAr_reserved (h : arWritable iUnit n s = true) (hr : v &&& arReserved n ≠ 0#64) :
    writeAr iUnit n s (.ok v) = raise reservedRegisterField := by
  rw [writeAr, h, ok_bind, decide_eq_false hr]; rfl

theorem writeAr_privileged (h : arWritable iUnit n s = true) (hr : v &&& arReserved n = 0#64) (hp : arPrivileged n = true)
    (hc : s.lp.cpl ≠ 0#2) : writeAr iUnit n s (.ok v) = raise privilegedRegister := by
  rw [writeAr, h, ok_bind, decide_eq_true hr, hp, decide_eq_true hc]; rfl

theorem writeAr_ok (h : arWritable iUnit n s = true) (hr : v &&& arReserved n = 0#64)
    (hp : arPrivileged n = true → s.lp.cpl = 0#2) : writeAr iUnit n s (.ok v) = .ok (setArValue s n v) := by
  have hpriv : (!(arPrivileged n && decide (s.lp.cpl ≠ 0#2))) = true := by
    cases e : arPrivileged n with
    | false => rfl
    | true => simp [hp e]
  rw [writeAr, h, ok_bind, decide_eq_true hr, hpriv]; rfl

end

/-! ## The outcomes of a read -/

theorem readAr_illegal {iUnit : Bool} {n : Nat} {s : State} (h : (arOnUnit iUnit n && arExists n) = false) :
    readAr iUnit n s = raise illegalOperation := by
  rw [readAr, h]; rfl

theorem readAr_secured {iUnit : Bool} {n : Nat} {s : State} (h : (arOnUnit iUnit n && arExists n) = true)
    (hn : n = 44 ∨ n = 45) (hsi : s.lp.psrBit 23 = true) (hc : s.lp.cpl ≠ 0#2) :
    readAr iUnit n s = raise privilegedRegister := by
  rw [readAr, h, decide_eq_true hn, hsi, decide_eq_true hc]; rfl

theorem readAr_ok {iUnit : Bool} {n : Nat} {s : State} (h : (arOnUnit iUnit n && arExists n) = true)
    (hp : n = 44 ∨ n = 45 → s.lp.psrBit 23 = true → s.lp.cpl = 0#2) : readAr iUnit n s = .ok (arValue s n) := by
  have hsec : (!(decide (n = 44 ∨ n = 45) && s.lp.psrBit 23 && decide (s.lp.cpl ≠ 0#2))) = true := by
    by_cases hn : n = 44 ∨ n = 45
    · cases hsi : s.lp.psrBit 23 with
      | false => simp
      | true => simp [hp hn hsi]
    · simp [hn]
  rw [readAr, h, hsec]; rfl

/-! ## The instructions -/

section
variable {i : Instr} {iUnit : Bool} {qp : BitVec 6} {ar3 r1 r2 : BitVec 7} {imm8 : BitVec 8}

theorem movToAr_effect (he : ∀ s, exec i s = movToAr iUnit qp ar3 r2 s) :
    Effect i qp
      (fun s => Usable s r2 ∧ arWritable iUnit ar3.toNat s = true ∧ (s.lp.gr? r2).val &&& arReserved ar3.toNat = 0#64
        ∧ (arPrivileged ar3.toNat = true → s.lp.cpl = 0#2))
      (fun s => setArValue s ar3.toNat (s.lp.gr? r2).val) := by
  refine effect_of he (fun s h => ?_) (fun s => ?_) (fun s => (setArValue_status ..).2)
  · obtain ⟨hr, hw, hz, hp⟩ := h
    rw [useGr_ok hr, writeAr_ok hw hz hp]
  · rw [LP.psrBit, (setArValue_status ..).1]; rfl

theorem movToArImm_effect (he : ∀ s, exec i s = movToArImm iUnit qp ar3 imm8 s) :
    Effect i qp
      (fun s => arWritable iUnit ar3.toNat s = true ∧ imm8.signExtend 64 &&& arReserved ar3.toNat = 0#64
        ∧ (arPrivileged ar3.toNat = true → s.lp.cpl = 0#2))
      (fun s => setArValue s ar3.toNat (imm8.signExtend 64)) := by
  refine effect_of he (fun s h => ?_) (fun s => ?_) (fun s => (setArValue_status ..).2)
  · obtain ⟨hw, hz, hp⟩ := h
    exact writeAr_ok hw hz hp
  · rw [LP.psrBit, (setArValue_status ..).1]; rfl

theorem movToAr_illegal (he : ∀ s, exec i s = movToAr iUnit qp ar3 r2 s) :
    Traps i qp (fun s => arWritable iUnit ar3.toNat s = false) (fun _ => illegalOperation) :=
  trap_of he fun _ h => writeAr_illegal h

/-- What a source, or what it holds, may stop. -/
theorem movToAr_source (he : ∀ s, exec i s = movToAr iUnit qp ar3 r2 s) :
    Traps i qp (fun s => arWritable iUnit ar3.toNat s = true ∧ s.lp.grReadable r2 = false) (fun _ => illegalOperation)
    ∧ Traps i qp (fun s => arWritable iUnit ar3.toNat s = true ∧ s.lp.grReadable r2 = true ∧ (s.lp.gr? r2).nat = true)
        (fun _ => registerNatConsumption 0#64)
    ∧ Traps i qp (fun s => arWritable iUnit ar3.toNat s = true ∧ Usable s r2
        ∧ (s.lp.gr? r2).val &&& arReserved ar3.toNat ≠ 0#64) (fun _ => reservedRegisterField) := by
  refine ⟨trap_of he fun s h => ?_, trap_of he fun s h => ?_, trap_of he fun s h => ?_⟩
  · obtain ⟨hw, hr⟩ := h
    rw [useGr_outside hr, writeAr_source hw]
  · obtain ⟨hw, hr, hn⟩ := h
    rw [useGr_nat hr hn, writeAr_source hw]
  · obtain ⟨hw, hr, hz⟩ := h
    rw [useGr_ok hr, writeAr_reserved hw hz]

theorem movToArImm_traps (he : ∀ s, exec i s = movToArImm iUnit qp ar3 imm8 s) :
    Traps i qp (fun s => arWritable iUnit ar3.toNat s = false) (fun _ => illegalOperation)
    ∧ Traps i qp (fun s => arWritable iUnit ar3.toNat s = true
        ∧ imm8.signExtend 64 &&& arReserved ar3.toNat ≠ 0#64) (fun _ => reservedRegisterField)
    ∧ Traps i qp (fun s => arWritable iUnit ar3.toNat s = true ∧ imm8.signExtend 64 &&& arReserved ar3.toNat = 0#64
        ∧ arPrivileged ar3.toNat = true ∧ s.lp.cpl ≠ 0#2) (fun _ => privilegedRegister) := by
  refine ⟨trap_of he fun _ h => writeAr_illegal h, trap_of he fun s h => writeAr_reserved h.1 h.2, trap_of he fun s h => ?_⟩
  obtain ⟨hw, hz, hp, hc⟩ := h
  exact writeAr_privileged hw hz hp hc

theorem movFromAr_illegal (he : ∀ s, exec i s = movFromAr iUnit qp r1 ar3 s) :
    Traps i qp (fun s => s.lp.grWritable r1 = false ∨ arOnUnit iUnit ar3.toNat = false ∨ arExists ar3.toNat = false)
      (fun _ => illegalOperation) := by
  refine trap_of he fun s h => ?_
  cases h1 : s.lp.grWritable r1 with
  | false => rw [checkGr_illegal h1]; rfl
  | true =>
    have hn : (arOnUnit iUnit ar3.toNat && arExists ar3.toNat) = false := by
      rcases h with h | h | h
      · rw [h1] at h; cases h
      · rw [h]; rfl
      · rw [h, Bool.and_false]
    rw [checkGr_ok h1, readAr_illegal hn]; rfl

theorem movFromAr_effect {pre : State → Prop} (he : ∀ s, exec i s = movFromAr iUnit qp r1 ar3 s)
    (hpre : ∀ s, pre s → s.lp.grWritable r1 = true ∧ arOnUnit iUnit ar3.toNat = true ∧ arExists ar3.toNat = true
      ∧ (ar3.toNat = 44 ∨ ar3.toNat = 45 → s.lp.psrBit 23 = true → s.lp.cpl = 0#2)) :
    Effect i qp pre (fun s => s.setGr r1 ⟨arValue s ar3.toNat, false⟩) := by
  refine effect_of he (fun s h => ?_) (fun s => psrBit36_setGr ..) (fun _ => rfl)
  obtain ⟨h1, hu, hx, hp⟩ := hpre s h
  rw [checkGr_ok h1, ok_bind, readAr_ok (by rw [hu, hx]; rfl) hp]
  rfl

end

/-- Settles O13: the forms from the outcomes of a write and of a read, the numbers, and the registers as a store. -/
theorem applicationRegisters : Obligations.ApplicationRegisters := by
  refine ⟨fun o => ?_, fun o iUnit i hi => ?_, fun s n iUnit => ?_, fun o => ?_, fun o => ?_, ?_, fun s v => ?_,
    fun s n m v _ h hbsp => arValue_setArValue_other s v h hbsp, fun s n v h => arIgnored_store s v h⟩
  · refine ⟨movToAr_effect (exec_movIAr3R2 o), movToAr_effect (exec_movMAr3R2 o), movToAr_illegal (exec_movIAr3R2 o),
      movToAr_illegal (exec_movMAr3R2 o), trap_of (exec_movMAr3R2 o) fun s h => ?_, fun iUnit i hi => ?_⟩
    · obtain ⟨hr, hw, hz, hp, hc⟩ := h
      rw [useGr_ok hr, writeAr_privileged hw hz (arPrivileged_iff.2 hp) hc]
    · subst hi
      cases iUnit with
      | false => exact movToAr_source (exec_movMAr3R2 o)
      | true => exact movToAr_source (exec_movIAr3R2 o)
  · subst hi
    cases iUnit with
    | false => exact movToArImm_traps (exec_movMAr3Imm8 o)
    | true => exact movToArImm_traps (exec_movIAr3Imm8 o)
  · exact ⟨arIgnored_iff, arExists_iff, arWritable_iff, arReserved_eq n, arPrivileged_iff⟩
  · exact ⟨movToArImm_effect (exec_movIAr3Imm8 o), movToArImm_effect (exec_movMAr3Imm8 o)⟩
  · refine ⟨movFromAr_effect (exec_movIR1Ar3 o) fun s h => ?_, movFromAr_effect (exec_movMR1Ar3 o) fun s h => ?_, ?_, ?_,
      trap_of (exec_movMR1Ar3 o) fun s h => ?_⟩
    · obtain ⟨h1, hu, hx⟩ := h
      exact ⟨h1, arOnUnit_iff.2 hu, hx, by omega⟩
    · obtain ⟨h1, hu, hx, hp⟩ := h
      exact ⟨h1, arOnUnit_iff.2 hu, hx, hp⟩
    · intro s hq h
      exact movFromAr_illegal (exec_movIR1Ar3 o) s hq (h.imp_right (Or.imp_left fun hu => decide_eq_false (Nat.not_le.2 hu)))
    · intro s hq h
      exact movFromAr_illegal (exec_movMR1Ar3 o) s hq (h.imp_right (Or.imp_left fun hu => decide_eq_false (Nat.not_lt.2 hu)))
    · obtain ⟨h1, hn, hsi, hc⟩ := h
      have hon : (arOnUnit false o.ar3.toNat && arExists o.ar3.toNat) = true := by
        rcases hn with hn | hn <;> rw [hn] <;> rfl
      rw [checkGr_ok h1, ok_bind, readAr_secured hon hn hsi hc]
      rfl
  · intro s n v he hi h16 h17 h18 h66
    exact arValue_setArValue_same s v he hi h16 h17 h18 h66
  · exact ⟨setWidth_6 v, alignDown_3 v⟩

end Sys2Proof.Machine
end

