-- ==== Sys2Proof/Proofs/ControlRegisters.lean ====
section
/-!
Moves to and from control registers (42 R608, R609; 10 R65 to R75): the registers as a store addressed by number, with `IVR` and
`EOI` apart, and each outcome of the two instructions.
-/

namespace Sys2Proof.Machine

/-! ## The numbers -/

theorem crExists_iff {n : Nat} : crExists n = true ↔
    n ∈ [0, 1, 2, 8, 16, 17, 81] ∨ (19 ≤ n ∧ n ≤ 27) ∨ (64 ≤ n ∧ n ≤ 74) ∨ n = 80 := by
  rw [crExists, decide_eq_true_iff]
  simp only [List.mem_cons, List.not_mem_nil, or_false]
  omega

theorem crWritable_iff {s : State} {n : Nat} : crWritable s n = true ↔
    crExists n = true ∧ n ≠ 65 ∧ ¬ (68 ≤ n ∧ n ≤ 71) ∧ ¬ (s.lp.psrBit 13 = true ∧ 16 ≤ n ∧ n ≤ 27) := by
  rw [crWritable, LP.ic, Bool.and_eq_true, Bool.and_eq_true, Bool.not_eq_true', Bool.not_eq_true', decide_eq_false_iff_not,
    ← Bool.not_eq_true (_ && _), Bool.and_eq_true, decide_eq_true_iff, not_or, and_assoc, and_assoc]

theorem crReserved_eq (n : Nat) : crReserved n = if n = 0 then 0xFFFFFFFFFFFF80F8#64 else if n = 16 then 0xFFFF8000F0011FC1#64
    else if n = 17 then 0xFFFFF000FF000000#64 else if n = 23 then 0x7FFFFFC000000000#64
    else if n = 66 ∨ n = 72 ∨ n = 73 ∨ n = 74 then 0xFFFFFFFFFFFEFF00#64
    else if n = 80 ∨ n = 81 then 0xFFFFFFFFFFFE5800#64 else 0#64 := by
  unfold crReserved
  split
  any_goals rfl
  next h0 h16 h17 h23 h66 h72 h73 h74 h80 h81 =>
    rw [if_neg h0, if_neg h16, if_neg h17, if_neg h23, if_neg (Or.rec h66 (Or.rec h72 (Or.rec h73 h74))),
      if_neg (Or.rec h80 h81)]

/-! ## The registers as a store -/

theorem endOfInterrupt_status (s : State) :
    (endOfInterrupt s).lp.psr = s.lp.psr ∧ (endOfInterrupt s).params = s.params := by
  unfold endOfInterrupt
  split <;> exact ⟨rfl, rfl⟩

theorem setCrValue_status (s : State) (n : Nat) (v : Word) :
    (setCrValue s n v).lp.psr = s.lp.psr ∧ (setCrValue s n v).params = s.params := by
  unfold setCrValue
  dsimp only
  split
  case h_18 => exact endOfInterrupt_status s
  all_goals simp only [setLp_lp, setLp_params, and_self]

theorem readCr_status (s : State) (n : Nat) :
    (readCr s n).2.lp.psr = s.lp.psr ∧ (readCr s n).2.params = s.params := by
  unfold readCr readIvr
  split
  · split <;> exact ⟨rfl, rfl⟩
  · exact ⟨rfl, rfl⟩

/-- A register that holds all the bits of a write reads as written. -/
theorem crValue_setCrValue_same (s : State) {n : Nat} (v : Word) (he : crExists n = true) (h2 : n ≠ 2)
    (hi : ¬ (65 ≤ n ∧ n ≤ 71)) : crValue (setCrValue s n v) n = v := by
  rw [crExists, decide_eq_true_iff] at he
  fin_cases he
  all_goals first | exact absurd rfl h2 | exact absurd ⟨by decide, by decide⟩ hi | rfl

/-- The control registers that hold a value, by their numbers. -/
def crTable (c : CRFile) : List (Nat × Word) :=
  [(0, c.dcr), (1, c.itm), (2, c.iva), (8, c.pta), (16, c.ipsr), (17, c.isr), (19, c.iip), (20, c.ifa), (21, c.itir),
    (22, c.iipa), (23, c.ifs), (24, c.iim), (25, c.iha), (26, c.iib0), (27, c.iib1), (64, c.lid), (66, c.tpr), (72, c.itv),
    (73, c.pmv), (74, c.cmcv), (80, c.lrr0), (81, c.lrr1)]

/-- A register reads as the table says, but that the interrupt request registers show the pending vectors. -/
theorem crValue_table (s : State) (m : Nat) : crValue s m = if 68 ≤ m ∧ m ≤ 71
    then (s.lp.pending >>> (64 * (m - 68))).setWidth 64 else ((crTable s.lp.cr).lookup m).getD 0#64 := by
  unfold crValue
  split
  any_goals rfl
  next h0 h1 h2 h8 h16 h17 h19 h20 h21 h22 h23 h24 h25 h26 h27 h64 h66 h68 h69 h70 h71 h72 h73 h74 h80 h81 =>
    have hnone : (crTable s.lp.cr).lookup m = none := by
      rw [List.lookup_eq_none_iff]
      intro p hp
      simp only [crTable, List.mem_cons, List.not_mem_nil, or_false] at hp
      rcases hp with rfl | rfl | rfl | rfl | rfl | rfl | rfl | rfl | rfl | rfl | rfl | rfl | rfl | rfl | rfl | rfl | rfl | rfl |
        rfl | rfl | rfl | rfl <;> simpa
    simp only [imp_false] at *
    rw [if_neg (by omega), hnone]; rfl

theorem lookup_map_other {n m : Nat} (w : Word) (h : m ≠ n) (l : List (Nat × Word)) :
    (l.map fun p => if p.1 = n then (n, w) else p).lookup m = l.lookup m := by
  induction l with
  | nil => rfl
  | cons p l ih =>
    obtain ⟨k, x⟩ := p
    by_cases hk : k = n
    · simp [List.lookup, hk, ih, beq_false_of_ne h]
    · simp [List.lookup, hk, ih]

/-- A write changes one entry of the table at most. -/
theorem crTable_setCrValue (s : State) {n m : Nat} (v : Word) (h : m ≠ n) (h67 : n ≠ 67) :
    (crTable (setCrValue s n v).lp.cr).lookup m = (crTable s.lp.cr).lookup m := by
  unfold setCrValue
  dsimp only
  split
  case h_18 => exact absurd rfl h67
  case h_24 => rfl
  all_goals
    simp only [setLp_lp]
    exact lookup_map_other _ h (crTable s.lp.cr)

/-- What is pending depends on `PMV` and the request bits. -/
theorem pending_congr (l : LP) {c : CRFile} (hirr : c.irr = l.cr.irr) (hpmv : c.pmv = l.cr.pmv) :
    ({ l with cr := c } : LP).pending = l.pending := by
  simp only [LP.pending, hirr, hpmv]

theorem pending_setCrValue (s : State) {n : Nat} (v : Word) (h67 : n ≠ 67) (h73 : n ≠ 73) :
    (setCrValue s n v).lp.pending = s.lp.pending := by
  unfold setCrValue
  dsimp only
  split
  case h_18 => exact absurd rfl h67
  case h_20 => exact absurd rfl h73
  case h_24 => rfl
  all_goals
    simp only [setLp_lp]
    exact pending_congr s.lp rfl rfl

/-- 10 R73: the interrupt request registers show the vector of the performance monitor, which `PMV` names; no other register shows
a write of a register that is not `EOI`. -/
theorem crValue_setCrValue_other (s : State) {n m : Nat} (v : Word) (h : m ≠ n) (h67 : n ≠ 67)
    (hpmv : ¬ (n = 73 ∧ 68 ≤ m ∧ m ≤ 71)) : crValue (setCrValue s n v) m = crValue s m := by
  rw [crValue_table, crValue_table, crTable_setCrValue s v h h67]
  split
  next hm => rw [pending_setCrValue s v h67 fun e => hpmv ⟨e, hm⟩]
  next => rfl

/-- A write of a register that is not `EOI` writes the control registers alone. -/
theorem setCrValue_only (s : State) {n : Nat} (v : Word) (h : n ≠ 67) :
    setCrValue s n v = { s with lp := { s.lp with cr := (setCrValue s n v).lp.cr } } := by
  unfold setCrValue
  dsimp only
  split
  any_goals rfl
  exact absurd rfl h

/-- `IVA` holds no bits 14:0. -/
theorem alignDown_15 (v : Word) : alignDown v 15 = v &&& ~~~0x7FFF#64 := by
  rw [alignDown, BitVec.shiftLeft_ushiftRight]
  rfl

/-! ## The instructions -/

section
variable {i : Instr} {qp : BitVec 6} {r1 r2 cr3 : BitVec 7}

theorem movToCr_effect (he : ∀ s, exec i s = movToCr qp cr3 r2 s) :
    Effect i qp (fun s => crWritable s cr3.toNat = true ∧ s.lp.cpl = 0#2 ∧ Usable s r2
        ∧ (s.lp.gr? r2).val &&& crReserved cr3.toNat = 0#64)
      (fun s => setCrValue s cr3.toNat (s.lp.gr? r2).val) := by
  refine effect_of he (fun s h => ?_) (fun s => ?_) (fun s => (setCrValue_status ..).2)
  · obtain ⟨hw, hc, hr, hz⟩ := h
    rw [hw, checkSource_ok hr.1, State.atLevel0, decide_eq_true hc, useGr_ok hr, ok_bind, ok_bind, decide_eq_true hz]
    rfl
  · rw [LP.psrBit, (setCrValue_status ..).1]; rfl

theorem movToCr_illegal (he : ∀ s, exec i s = movToCr qp cr3 r2 s) :
    Traps i qp (fun s => crWritable s cr3.toNat = false ∨ s.lp.grReadable r2 = false) (fun _ => illegalOperation) := by
  refine trap_of he fun s h => ?_
  cases hw : crWritable s cr3.toNat with
  | false => rfl
  | true =>
    rcases h with h | h
    · rw [hw] at h; cases h
    · rw [checkSource_outside h]; rfl

theorem movToCr_privileged (he : ∀ s, exec i s = movToCr qp cr3 r2 s) :
    Traps i qp (fun s => crWritable s cr3.toNat = true ∧ s.lp.grReadable r2 = true ∧ s.lp.cpl ≠ 0#2)
      (fun _ => privilegedOperation) := by
  refine trap_of he fun s h => ?_
  obtain ⟨hw, hr, hc⟩ := h
  rw [hw, checkSource_ok hr, State.atLevel0, decide_eq_false hc]
  rfl

theorem movToCr_reserved (he : ∀ s, exec i s = movToCr qp cr3 r2 s) :
    Traps i qp (fun s => crWritable s cr3.toNat = true ∧ s.lp.cpl = 0#2 ∧ Usable s r2
      ∧ (s.lp.gr? r2).val &&& crReserved cr3.toNat ≠ 0#64) (fun _ => reservedRegisterField) := by
  refine trap_of he fun s h => ?_
  obtain ⟨hw, hc, hr, hz⟩ := h
  rw [hw, checkSource_ok hr.1, State.atLevel0, decide_eq_true hc, useGr_ok hr, ok_bind, ok_bind, decide_eq_false hz]
  rfl

theorem movFromCr_effect (he : ∀ s, exec i s = movFromCr qp r1 cr3 s) :
    Effect i qp (fun s => s.lp.grWritable r1 = true ∧ crExists cr3.toNat = true ∧ s.lp.cpl = 0#2)
      (fun s => (readCr s cr3.toNat).2.setGr r1 ⟨(readCr s cr3.toNat).1, false⟩) := by
  refine effect_of he (fun s h => ?_) (fun s => ?_) (fun s => (readCr_status ..).2)
  · obtain ⟨h1, hx, hc⟩ := h
    dsimp only
    rw [checkGr_ok h1, hx, State.atLevel0, decide_eq_true hc]
    rfl
  · rw [psrBit36_setGr, LP.psrBit, (readCr_status ..).1]; rfl

theorem movFromCr_illegal (he : ∀ s, exec i s = movFromCr qp r1 cr3 s) :
    Traps i qp (fun s => s.lp.grWritable r1 = true ∧ crExists cr3.toNat = false) (fun _ => illegalOperation) := by
  refine trap_of he fun s h => ?_
  dsimp only
  rw [checkGr_ok h.1, h.2]
  rfl

theorem movFromCr_privileged (he : ∀ s, exec i s = movFromCr qp r1 cr3 s) :
    Traps i qp (fun s => s.lp.grWritable r1 = true ∧ crExists cr3.toNat = true ∧ s.lp.cpl ≠ 0#2)
      (fun _ => privilegedOperation) := by
  refine trap_of he fun s h => ?_
  obtain ⟨h1, hx, hc⟩ := h
  dsimp only
  rw [checkGr_ok h1, hx, State.atLevel0, decide_eq_false hc]
  rfl

end

/-- Settles O23: the outcomes of the two instructions, the numbers, and the registers as a store. -/
theorem controlRegisters : Obligations.ControlRegisters := by
  refine ⟨fun o => ⟨movToCr_effect (exec_movCr3R2 o), ?_, movToCr_privileged (exec_movCr3R2 o),
      movToCr_reserved (exec_movCr3R2 o)⟩,
    fun o => ⟨movFromCr_effect (exec_movR1Cr3 o), movFromCr_illegal (exec_movR1Cr3 o),
      movFromCr_privileged (exec_movR1Cr3 o)⟩,
    fun s n => ⟨crExists_iff, crWritable_iff, crReserved_eq n⟩, fun s n v => ⟨?_, ⟨?_, rfl⟩, ?_, ?_, ?_, rfl, rfl⟩⟩
  · intro s hq h
    refine movToCr_illegal (exec_movCr3R2 o) s hq ?_
    have hnot : crWritable s o.cr3.toNat = false ↔ ¬ crWritable s o.cr3.toNat = true :=
      (Bool.not_eq_true _).symm.to_iff
    dsimp only
    rw [hnot, crWritable_iff]
    rcases h with h | h | h | h | h
    · exact .inl fun hw => by rw [h] at hw; cases hw.1
    · exact .inl fun hw => hw.2.1 h
    · exact .inl fun hw => hw.2.2.1 h
    · exact .inl fun hw => hw.2.2.2 h
    · exact .inr h
  · exact fun he h2 hi => crValue_setCrValue_same s v he h2 hi
  · exact alignDown_15 v
  · exact fun m h h67 hpmv => crValue_setCrValue_other s v h h67 hpmv
  · exact fun h => setCrValue_only s v h
  · exact fun h => by rw [readCr, if_neg h]

end Sys2Proof.Machine
end

