-- ==== Sys2Proof/Proofs/RegisterStackControl.lean ====
section
/-!
alloc, loadrs and flushrs (42 R603, R604, R610) where the register stack engine has nothing to store or to load.
-/

namespace Sys2Proof.Machine

/-- An answer that falls through ends in the state of its effects. -/
theorem finish_fall {s u : State} (hu : Untrapped s) (hit : u.lp.psrBit 36 = s.lp.psrBit 36) (hp : u.params = s.params) :
    finish s (.ok (retire s u {})) = .next (fallThrough s u) :=
  congrArg Host.Outcome.next (retire_fall false hu hit hp)

/-! ## alloc -/

section
variable {qp : BitVec 6} {r1 : BitVec 7} {sof sol sor : Nat} {s : State}

/-- 42 R610: a frame that no processor state can hold, or a new size of the rotating region while a rename base is not 0. -/
theorem allocFrame_illegal (h : qp ≠ 0#6 ∨ 96 < sof ∨ sof < sol ∨ sof < 8 * sor
      ∨ (sor ≠ s.lp.sor ∧ (s.lp.rrbGr ≠ 0 ∨ s.lp.rrbFr ≠ 0 ∨ s.lp.rrbPr ≠ 0))) :
    allocFrame qp r1 sof sol sor s = .next (faultTo s illegalOperation) := by
  unfold allocFrame
  dsimp only
  by_cases hsize : qp = 0#6 ∧ sof ≤ 96 ∧ sol ≤ sof ∧ 8 * sor ≤ sof
  · have hrot : ¬ (sor = s.lp.sor ∨ (s.lp.rrbGr = 0 ∧ s.lp.rrbFr = 0 ∧ s.lp.rrbPr = 0)) := by
      obtain ⟨hq, hf, hl, hr⟩ := hsize
      rcases h with h | h | h | h | h
      · exact absurd hq h
      all_goals omega
    rw [decide_eq_true hsize, decide_eq_false hrot]
    rfl
  · rw [decide_eq_false hsize]
    rfl

/-- Where the new frame fits beside the dirty registers, no register is stored. -/
theorem makeRoom_fits (h : s.lp.gr.ndirty + sof ≤ 96) : makeRoom sof s = .ok s := by
  rw [makeRoom, Nat.sub_eq_zero_of_le h]; rfl

theorem allocated_psrBit (s : State) (c : BitVec 38) (r1 : BitVec 7) (v : Reg) :
    ((s.noteRse.setLp { s.noteRse.lp with cfm := c }).setGr r1 v).lp.psrBit 36 = s.lp.psrBit 36 := by
  rw [psrBit36_setGr]; rfl

theorem allocFrame_fits (hq : qp = 0#6) (hsof : sof ≤ 96) (hsol : sol ≤ sof) (hsor : 8 * sor ≤ sof)
    (hrot : sor = s.lp.sor ∨ (s.lp.rrbGr = 0 ∧ s.lp.rrbFr = 0 ∧ s.lp.rrbPr = 0)) (hfit : s.lp.gr.ndirty + sof ≤ 96)
    (hu : Untrapped s)
    (h1 : ({ s.lp with cfm := mkCfm sof sol sor s.lp.rrbGr s.lp.rrbFr s.lp.rrbPr } : LP).grWritable r1 = true) :
    allocFrame qp r1 sof sol sor s = .next (fallThrough s ((s.noteRse.setLp { s.noteRse.lp with
      cfm := mkCfm sof sol sor s.lp.rrbGr s.lp.rrbFr s.lp.rrbPr }).setGr r1 ⟨s.lp.ar.pfs, false⟩)) := by
  unfold allocFrame
  dsimp only
  have hdest : checkGr (s.setLp { s.lp with cfm := mkCfm sof sol sor s.lp.rrbGr s.lp.rrbFr s.lp.rrbPr }) r1 = .ok () :=
    checkGr_ok (by rw [setLp_lp]; exact h1)
  rw [decide_eq_true ⟨hq, hsof, hsol, hsor⟩, decide_eq_true hrot, hdest, makeRoom_fits (s := s.noteRse) hfit,
    require_true, ok_bind, ok_bind, ok_bind, ok_bind]
  refine finish_fall hu ?_ ?_
  · exact allocated_psrBit s _ r1 _
  · rw [setGr_params, setLp_params]
    rfl

end

/-! ## loadrs and flushrs -/

theorem loadStack_illegal {s : State} (h : s.lp.sof ≠ 0) : loadStack s = .next (faultTo s illegalOperation) := by
  rw [loadStack, decide_eq_false h]; rfl

/-- No byte stands between `AR.BSPSTORE` and `AR.BSP` only where no register is dirty. -/
theorem ndirty_of_bytesBelow {lp : LP} (hn : lp.gr.ndirty ≤ 96) (h : ¬ 0 < lp.bytesBelow lp.bsp) :
    lp.gr.ndirty = 0 := by
  obtain ⟨k, e, e1, e2⟩ := growBsp_distance lp.gr.ndirty lp.ar.bspstore
  rw [LP.bytesBelow, LP.bsp, e] at h
  bv_omega

theorem dropBelow_none {s : State} (hn : s.lp.gr.ndirty ≤ 96) : dropBelow s.lp.bsp 0 s.lp.gr.ndirty s.noteRse
    = (s.noteRse.setAr { s.lp.ar with bspstore := s.lp.bsp }).setGrFile { s.lp.gr with ndirty := 0 } := by
  rw [dropBelow_all s.lp.bsp s.lp.gr.ndirty s.noteRse hn rfl]
  show (s.noteRse.setAr _).setGrFile { s.lp.gr with ndirty := s.lp.gr.ndirty - s.lp.gr.ndirty } = _
  rw [Nat.sub_self]
  rfl

theorem fillDownTo_none {s : State} (h0 : s.lp.gr.ndirty = 0) : fillDownTo s.lp.bsp 0 (96 - s.lp.gr.ndirty) s.noteRse
    = .ok ((s.noteRse.setAr { s.lp.ar with bspstore := s.lp.bsp }).setGrFile { s.lp.gr with ndirty := 0 }) := by
  have hbsp : s.lp.bsp = s.lp.ar.bspstore := by rw [LP.bsp, h0]; rfl
  have hgr : ({ s.lp.gr with ndirty := 0 } : GRFile) = s.lp.gr := by rw [← h0]
  rw [hbsp, hgr, h0, fillDownTo, if_neg (Nat.not_lt_zero _)]
  rfl

/-- 42 R604: with no byte asked for, every dirty register is given up. -/
theorem loadStack_all {s : State} (hsof : s.lp.sof = 0) (hz : (s.lp.ar.rsc >>> 16) &&& 0x3FFF#64 = 0#64)
    (hn : s.lp.gr.ndirty ≤ 96) (hu : Untrapped s) : loadStack s = .next (fallThrough s
      ((s.noteRse.setAr { s.lp.ar with bspstore := s.lp.bsp }).setGrFile { s.lp.gr with ndirty := 0 })) := by
  have hbytes : (alignDown (field s.lp.ar.rsc 16 14) 3).toNat = 0 := by
    have hf : field s.lp.ar.rsc 16 14 = 0#64 := hz
    rw [hf]; rfl
  refine Eq.trans ?_ (congrArg Host.Outcome.next (retire_fall false hu rfl rfl))
  rw [loadStack, decide_eq_true hsof]
  dsimp only
  rw [hbytes]
  split
  next => rw [dropBelow_none hn]; rfl
  next h => rw [fillDownTo_none (ndirty_of_bytesBelow hn h)]; rfl

/-- 42 R603: without dirty registers there is nothing to store. -/
theorem flushStack_none {s : State} (hn : s.lp.gr.ndirty = 0) (hu : Untrapped s) :
    flushStack s = .next (fallThrough s s.noteRse) := by
  rw [flushStack, hn]
  exact congrArg Host.Outcome.next (retire_fall false hu rfl rfl)

/-- Settles O24: the frames alloc may make and those it may not, and the engine with nothing to do. -/
theorem registerStackControl : Obligations.RegisterStackControl := by
  refine ⟨fun o s => ⟨?_, ?_⟩, fun o => ⟨fun s h => ?_, fun s h hu => ?_, fun s h hu => ?_⟩⟩
  · rintro hq hsof hsol hsor hrot hfit hu _ rfl h1
    rw [exec_allocR1ArPfsILOR, allocFrame_fits hq hsof hsol hsor hrot hfit hu h1]
  · intro h
    rw [exec_allocR1ArPfsILOR, allocFrame_illegal h]
  · rw [exec_loadrs, loadStack_illegal h]
  · obtain ⟨hsof, hz, hn⟩ := h
    rw [exec_loadrs, loadStack_all hsof hz hn hu]
  · rw [exec_flushrs, flushStack_none h hu]

end Sys2Proof.Machine
end

