-- ==== Sys2Proof/Proofs/PerformanceRegisters.lean ====
section
/-!
The configuration and data registers of the performance monitor as the indirect moves see them (11 R121 to R188), and the words of
CPUID (10 R62).
-/

namespace Sys2Proof.Machine

/-! ## Configuration registers -/

section
variable {s t : State} {i : Nat} {v : Word}

/-- A write that is not refused sets the writable bits of one configuration register; the data registers may be given free
values. -/
theorem writePmc_ok (h : writePmc s i v = .ok t) : ∃ pmd n, t = { s with
    lp := { s.lp with pmu := { s.lp.pmu with
      pmc := s.lp.pmu.pmc.setIfInBounds i ((pmcAt s.lp.pmu i &&& ~~~pmcWritable i) ||| (v &&& pmcWritable i)), pmd := pmd } },
    free := n } := by
  unfold writePmc at h
  dsimp only at h
  split at h
  · cases h
  · split at h
    · injection h with h
      exact ⟨_, _, h.symm⟩
    · injection h with h
      exact ⟨_, _, h.symm⟩

/-- 93 U7: a change of the reserved bits of PMC38 or PMC41 has no meaning in the model. -/
theorem writePmc_refused (h : i = 38 ∨ i = 41) (hv : (v ^^^ pmcAt s.lp.pmu i) &&& ~~~pmcWritable i ≠ 0#64) :
    writePmc s i v = .error (.refuse (.pmcReservedBits i)) := by
  unfold writePmc
  exact if_pos ⟨h, hv⟩

theorem writePmc_allowed (h : ¬ ((i = 38 ∨ i = 41) ∧ (v ^^^ pmcAt s.lp.pmu i) &&& ~~~pmcWritable i ≠ 0#64)) :
    ∃ t, writePmc s i v = .ok t := by
  unfold writePmc
  dsimp only
  rw [if_neg h]
  split <;> exact ⟨_, rfl⟩

theorem writePmc_store (h : writePmc s i v = .ok t) (hi : i < 44) :
    pmcAt t.lp.pmu i = (pmcAt s.lp.pmu i &&& ~~~pmcWritable i) ||| (v &&& pmcWritable i)
    ∧ (∀ j, j ≠ i → pmcAt t.lp.pmu j = pmcAt s.lp.pmu j)
    ∧ t = { s with lp := { s.lp with pmu := t.lp.pmu }, free := t.free } := by
  obtain ⟨pmd, n, rfl⟩ := writePmc_ok h
  exact ⟨getD_set_same _ _ _ _ hi, fun j hj => getD_set_other _ _ _ _ _ (Ne.symm hj), rfl⟩

end

theorem pmcUnstated_zero {i : Nat} (h33 : i ≠ 33) (h35 : i ≠ 35) : pmcUnstated i = 0#64 :=
  if_neg (not_or.2 ⟨h33, h35⟩)

theorem readPmc_held (s : State) {i : Nat} (h33 : i ≠ 33) (h35 : i ≠ 35) : readPmc s i = (pmcAt s.lp.pmu i, s) := by
  unfold readPmc
  exact if_pos (pmcUnstated_zero h33 h35)

/-- 11 R151: PMC33 and PMC35 read as they are held in bits 40:0. -/
theorem readPmc_opcode (s : State) {i : Nat} (h : i = 33 ∨ i = 35) :
    (readPmc s i).1.setWidth 41 = (pmcAt s.lp.pmu i).setWidth 41 ∧ (readPmc s i).2 = { s with free := s.free + 1 } := by
  have hu : pmcUnstated i = ~~~pmcOpcodeMatch := if_pos h
  have hlow : (~~~pmcOpcodeMatch).setWidth 41 = 0#41 := by decide
  have hread : readPmc s i
      = (pmcAt s.lp.pmu i ||| ((freshWord s).1 &&& ~~~pmcOpcodeMatch), { s with free := s.free + 1 }) := by
    unfold readPmc
    rw [hu]
    rfl
  rw [hread]
  refine ⟨?_, rfl⟩
  dsimp only
  rw [BitVec.setWidth_or, BitVec.setWidth_and, hlow, BitVec.and_zero, BitVec.or_zero]

/-! ## Data registers: writes -/

theorem pmdMask_eq {p : PMU} {i : Nat} (h : i = 39 → traceMode p ≠ 0) : pmdMask p i = pmdWritable i :=
  if_neg fun e => h e.1 e.2

/-- A write that leaves no count free sets the bits of the mask. -/
theorem writePmd_held (s : State) {i : Nat} {v : Word} (hi : i < 64) (h : ¬ (4 ≤ i ∧ i ≤ 15 ∧ v.getLsbD 47 = true)) :
    pmdAt (writePmd s i v).lp.pmu i
      = (pmdAt s.lp.pmu i &&& ~~~pmdMask s.lp.pmu i &&& pmdWritable i) ||| (v &&& pmdMask s.lp.pmu i) := by
  unfold writePmd
  dsimp only
  rw [if_neg h]
  exact getD_set_same _ _ _ _ hi

theorem writePmd_store (s : State) {i : Nat} {v : Word} (hi : i < 64) (h : ¬ (4 ≤ i ∧ i ≤ 15 ∧ v.getLsbD 47 = true))
    (h39 : i = 39 → traceMode s.lp.pmu ≠ 0) : pmdAt (writePmd s i v).lp.pmu i = v &&& pmdWritable i := by
  rw [writePmd_held s hi h, pmdMask_eq h39, BitVec.and_assoc, BitVec.not_and_self, BitVec.ofNat_eq_ofNat,
    BitVec.and_zero, BitVec.zero_or]

/-- 11 R182: while the trace buffer traces branches, half of PMD39 is written. -/
theorem writePmd_branchTrace (s : State) {v : Word} (h : traceMode s.lp.pmu = 0) :
    pmdAt (writePmd s 39 v).lp.pmu 39
      = (pmdAt s.lp.pmu 39 &&& 0xCCCCCCCCCCCCCCCC#64) ||| (v &&& 0x3333333333333333#64) := by
  have hm : pmdMask s.lp.pmu 39 = 0x3333333333333333#64 := if_pos ⟨rfl, h⟩
  rw [writePmd_held s (by decide) (by omega), hm, BitVec.and_assoc]
  rfl

theorem writePmd_status (s : State) (i : Nat) (v : Word) :
    (writePmd s i v).lp.psr = s.lp.psr ∧ (writePmd s i v).params = s.params := by
  unfold writePmd
  dsimp only
  split <;> exact ⟨rfl, rfl⟩

theorem readPmc_status (s : State) (i : Nat) :
    (readPmc s i).2.lp.psr = s.lp.psr ∧ (readPmc s i).2.params = s.params := by
  unfold readPmc
  dsimp only
  split <;> exact ⟨rfl, rfl⟩

/-! ## Data registers: reads -/

theorem pmdConfig_eq (p : PMU) (j : Nat) : pmdConfig p j = if 4 ≤ j ∧ j ≤ 15 then some j
    else if j = 34 ∨ j = 35 then some 37 else if j = 32 ∨ j = 33 ∨ j = 36 then some 40
    else if j = 38 ∨ j = 39 ∨ (48 ≤ j ∧ j ≤ 63) then some (if traceMode p = 0 then 39 else 42) else none := by
  unfold pmdConfig
  by_cases hcount : 4 ≤ j ∧ j ≤ 15
  · rw [if_pos hcount, if_pos hcount]
  by_cases htrace : 48 ≤ j ∧ j ≤ 63
  · have h37 : ¬ (j = 34 ∨ j = 35) := by omega
    have h40 : ¬ (j = 32 ∨ j = 33 ∨ j = 36) := by omega
    have h39 : j = 38 ∨ j = 39 ∨ (48 ≤ j ∧ j ≤ 63) := .inr (.inr htrace)
    rw [if_neg hcount, if_pos htrace, if_neg hcount, if_neg h37, if_neg h40, if_pos h39]
  rw [if_neg hcount, if_neg htrace, if_neg hcount]
  split
  any_goals rfl
  next h34 h35 h32 h33 h36 h38 h39 =>
    simp only [imp_false] at *
    rw [if_neg (by omega), if_neg (by omega), if_neg (by omega)]

/-- A register that no configuration governs is not implemented. -/
theorem readPmd_none {s : State} {j : Nat} (h : pmdConfig s.lp.pmu j = none) : readPmd s j = (0#64, s) := by
  simp only [readPmd, h]

theorem configOpen_off {mt : Bool} {p : PMU} {c : Nat} (h : pmcAt p c &&& 0xF#64 = 0#64) : configOpen mt p c = true := by
  have hp : pmcPlm (pmcAt p c) = 0#4 := by
    have hlow := congrArg (BitVec.setWidth 4) h
    rw [BitVec.setWidth_and] at hlow
    exact (BitVec.and_allOnes (x := pmcPlm (pmcAt p c))).symm.trans hlow
  simp [configOpen, hp]

theorem configOpen_ism {mt : Bool} {p : PMU} {c : Nat} (hc : (4 ≤ c ∧ c ≤ 15) ∨ c = 40)
    (h : (pmcAt p c >>> 24) &&& 3#64 ≠ 2#64) : configOpen mt p c = true := by
  have hism : (pmcIsm (pmcAt p c) != 2) = true := by
    rw [bne_iff_ne]
    exact fun e => h (BitVec.eq_of_toNat_eq e)
  have hhas : hasIsm c = true := decide_eq_true hc
  simp [configOpen, hism, hhas]

section
variable {s : State} {j c : Nat}

/-- 11 R125: at a level other than 0 a register reads 0 while `PSR.sp` is 1 or its configuration is privileged. -/
theorem readPmd_secured (h : pmdConfig s.lp.pmu j = some c) (hc : s.lp.cpl ≠ 0#2)
    (hp : s.lp.psr.getLsbD 20 = true ∨ (pmcAt s.lp.pmu c).getLsbD (if c = 37 then 4 else 6) = true) :
    readPmd s j = (0#64, s) := by
  have hsec : (s.lp.psrBit 20 || pmcPm c (pmcAt s.lp.pmu c)) = true := Bool.or_eq_true_iff.2 hp
  simp only [readPmd, h]
  rw [hsec, decide_eq_true hc]
  rfl

/-- The bits of a data register that a read gives free values. -/
def pmdFree (s : State) (j c : Nat) : Word :=
  if configOpen s.params.featMt s.lp.pmu c || (decide (32 ≤ j) && !frozen s.lp.pmu) then pmdWritable j ||| pmdUnstated j
  else pmdUnstated j

/-- What a read shows of a data register: a counter sign-extended, PMD39 under its mask. -/
def pmdShown (p : PMU) (j : Nat) (w : Word) : Word :=
  if j ≤ 15 then sextLow w 47 else if j = 39 then w &&& pmdMask p 39 else w

/-- A read of a register that the level may read. -/
theorem readPmd_shown (h : pmdConfig s.lp.pmu j = some c)
    (hp : s.lp.cpl = 0#2 ∨ (s.lp.psr.getLsbD 20 = false ∧ (pmcAt s.lp.pmu c).getLsbD (if c = 37 then 4 else 6) = false)) :
    readPmd s j = if pmdFree s j c = 0#64 then (pmdShown s.lp.pmu j (pmdAt s.lp.pmu j), s)
      else (pmdShown s.lp.pmu j ((pmdAt s.lp.pmu j &&& ~~~pmdFree s j c) ||| ((freshWord s).1 &&& pmdFree s j c)),
        (freshWord s).2) := by
  have hvis : (decide (s.lp.cpl ≠ 0#2) && (s.lp.psrBit 20 || pmcPm c (pmcAt s.lp.pmu c))) = false := by
    rcases hp with hc | ⟨hsp, hpm⟩
    · rw [hc]; rfl
    · rw [LP.psrBit, hsp, pmcPm, hpm]; exact Bool.and_false _
  simp only [readPmd, h]
  rw [hvis]
  rfl

variable (h : pmdConfig s.lp.pmu j = some c)
  (hp : s.lp.cpl = 0#2 ∨ (s.lp.psr.getLsbD 20 = false ∧ (pmcAt s.lp.pmu c).getLsbD (if c = 37 then 4 else 6) = false))
include h hp

theorem readPmd_counter (hopen : configOpen s.params.featMt s.lp.pmu c = false) (hj : j ≤ 15) :
    readPmd s j = (((pmdAt s.lp.pmu j).setWidth 47).signExtend 64, s) := by
  have hfree : pmdFree s j c = 0#64 := by
    rw [pmdFree, hopen, decide_eq_false (by omega : ¬ 32 ≤ j)]
    interval_cases j <;> rfl
  rw [readPmd_shown h hp, if_pos hfree, pmdShown, if_pos hj, sextLow]

theorem readPmd_frozen (hopen : configOpen s.params.featMt s.lp.pmu c = false) (hj : 32 ≤ j) (hn : j ∉ [34, 35, 39])
    (hf : (pmcAt s.lp.pmu 0).getLsbD 0 = true) : readPmd s j = (pmdAt s.lp.pmu j, s) := by
  simp only [List.mem_cons, List.not_mem_nil, or_false, not_or] at hn
  obtain ⟨h34, h35, h39⟩ := hn
  have hfree : pmdFree s j c = 0#64 := by
    rw [pmdFree, hopen, frozen, hf, Bool.not_true, Bool.and_false, Bool.or_self, if_neg nofun]
    unfold pmdUnstated
    split
    · exact absurd rfl h34
    · exact absurd rfl h35
    · rfl
  rw [readPmd_shown h hp, if_pos hfree, pmdShown, if_neg (by omega), if_neg h39]

/-- Every implemented data register has bits that a free read chooses. -/
theorem readPmd_free
    (hopen : configOpen s.params.featMt s.lp.pmu c = true ∨ (32 ≤ j ∧ (pmcAt s.lp.pmu 0).getLsbD 0 = false)) :
    (readPmd s j).2 = { s with free := s.free + 1 } := by
  have hbits : pmdWritable j ||| pmdUnstated j ≠ 0#64 := by
    rw [pmdConfig_eq] at h
    have hj : j < 64 := by
      by_contra hge
      rw [if_neg (by omega), if_neg (by omega), if_neg (by omega), if_neg (by omega)] at h
      cases h
    clear hp hopen
    interval_cases j <;> first | decide | exact absurd h (by simp)
  have hfree : pmdFree s j c ≠ 0#64 := by
    have hcond : (configOpen s.params.featMt s.lp.pmu c || (decide (32 ≤ j) && !frozen s.lp.pmu)) = true := by
      rcases hopen with ho | ⟨hj, hf⟩
      · rw [ho]; rfl
      · rw [decide_eq_true hj, frozen, hf]; exact Bool.or_true _
    rw [pmdFree, if_pos hcond]
    exact hbits
  rw [readPmd_shown h hp, if_neg hfree]
  rfl

theorem readPmd_signed (hj : j ≤ 15) : ∃ w : BitVec 47, (readPmd s j).1 = w.signExtend 64 := by
  rw [readPmd_shown h hp]
  split
  · exact ⟨_, if_pos hj⟩
  · exact ⟨_, if_pos hj⟩

end

theorem readPmd_status (s : State) (j : Nat) :
    (readPmd s j).2.lp.psr = s.lp.psr ∧ (readPmd s j).2.params = s.params := by
  cases hcfg : pmdConfig s.lp.pmu j with
  | none => rw [readPmd_none hcfg]; exact ⟨rfl, rfl⟩
  | some c =>
    by_cases hp : s.lp.cpl = 0#2
        ∨ (s.lp.psr.getLsbD 20 = false ∧ (pmcAt s.lp.pmu c).getLsbD (if c = 37 then 4 else 6) = false)
    · rw [readPmd_shown hcfg hp]
      split <;> exact ⟨rfl, rfl⟩
    · obtain ⟨hc, hsec⟩ := not_or.1 hp
      rw [not_and_or, Bool.not_eq_false, Bool.not_eq_false] at hsec
      rw [readPmd_secured hcfg hc hsec]
      exact ⟨rfl, rfl⟩

/-! ## CPUID -/

/-- 10 R62: "GenuineI" and "ntel". -/
theorem cpuidValue_vendor {p : Params} : cpuidValue p 0 = 0x49656E69756E6547#64 ∧ cpuidValue p 1 = 0x6C65746E#64 := by
  have h0 : asciiWord ['G', 'e', 'n', 'u', 'i', 'n', 'e', 'I'] = 0x49656E69756E6547#64 := by decide
  have h1 : asciiWord ['n', 't', 'e', 'l'] = 0x6C65746E#64 := by decide
  exact ⟨h0, h1⟩

/-- 10 R62: number, revision, model, family and architecture revision in the bytes of `CPUID[3]`. -/
theorem cpuidValue_version (p : Params) :
    (cpuidValue p 3).extractLsb' 0 8 = 4#8 ∧ (cpuidValue p 3).extractLsb' 8 8 = p.cpuidRevision
    ∧ (cpuidValue p 3).extractLsb' 16 8 = 0x02#8 ∧ (cpuidValue p 3).extractLsb' 24 8 = 0x20#8
    ∧ (cpuidValue p 3).extractLsb' 32 8 = p.cpuidArchrev ∧ (cpuidValue p 3).extractLsb' 40 24 = 0#24 := by
  refine ⟨?_, ?_, ?_, ?_, ?_, ?_⟩
  all_goals
    apply BitVec.eq_of_getLsbD_eq
    intro i hi
    simp only [cpuidValue, BitVec.getLsbD_extractLsb', BitVec.getLsbD_or, BitVec.getLsbD_shiftLeft, BitVec.getLsbD_setWidth]
    interval_cases i <;> simp

end Sys2Proof.Machine
end

