-- ==== Sys2Proof/Proofs/IndirectRegisters.lean ====
section
/-!
Moves to and from the indirect register files (42 R632; 10 R62, R81 to R83): the outcomes of the two moves for any file, and each
form from them.
-/

namespace Sys2Proof.Machine

/-! ## Indexes and reserved bits -/

theorem index_rr (w : Word) : IndirectFile.index .rr w = w.toNat / 2 ^ 61 := by
  have hf : (field w 61 3).toNat = w.toNat / 2 ^ 61 % 2 ^ 3 := field_toNat w 61 (by decide)
  have hlt : w.toNat / 2 ^ 61 < 2 ^ 3 := by have := w.isLt; omega
  rw [IndirectFile.index, hf, Nat.mod_eq_of_lt hlt]

theorem field_low8 (w : Word) : (field w 0 8).toNat = w.toNat % 256 := by
  rw [field_toNat w 0 (by decide), Nat.pow_zero, Nat.div_one]; rfl

/-- The files but the region registers take their index from bits 7:0. -/
theorem index_byte {k : IndirectFile} (h : k ≠ .rr) (w : Word) : k.index w = w.toNat % 256 := by
  rw [← field_low8]
  cases k <;> first | rfl | exact absurd rfl h

/-- The bits of a word from a place on. -/
theorem fieldAll_bit (len : Nat) {i : Nat} (hi : i < 64) : (field (~~~0#64) 0 len).getLsbD i = decide (i < len) := by
  by_cases h : len ≤ 63
  · rw [field_bit _ _ h, Nat.zero_add, BitVec.getLsbD_not, BitVec.getLsbD_zero, decide_eq_true hi, Bool.not_false,
      Bool.and_true, Bool.and_true]
  · have hall : field (~~~0#64) 0 len = ~~~0#64 := by
      have hs : 1#64 <<< len = 0#64 := BitVec.shiftLeft_eq_zero (by omega)
      rw [field, hs]
      decide
    rw [hall, BitVec.getLsbD_not, BitVec.getLsbD_zero, decide_eq_true hi, decide_eq_true (by omega : i < len)]
    rfl

theorem reserved_rr (p : Params) {i : Nat} (hi : i < 64) :
    (IndirectFile.reserved .rr p).getLsbD i = true ↔ i = 1 ∨ 8 + p.ridBits ≤ i := by
  have h2 : (2#64).getLsbD i = decide (i = 1) := by interval_cases i <;> rfl
  rw [IndirectFile.reserved, BitVec.getLsbD_or, BitVec.getLsbD_not, fieldAll_bit _ hi, h2, Bool.or_eq_true, Bool.and_eq_true,
    Bool.not_eq_true', decide_eq_false_iff_not, decide_eq_true_iff, decide_eq_true_iff]
  omega

theorem reserved_pkr (p : Params) {i : Nat} (hi : i < 64) :
    (IndirectFile.reserved .pkr p).getLsbD i = true ↔ (4 ≤ i ∧ i ≤ 7) ∨ 8 + p.keyBits ≤ i := by
  have h4 : (0xF0#64).getLsbD i = decide (4 ≤ i ∧ i ≤ 7) := by interval_cases i <;> rfl
  rw [IndirectFile.reserved, BitVec.getLsbD_or, BitVec.getLsbD_not, fieldAll_bit _ hi, h4, Bool.or_eq_true, Bool.and_eq_true,
    Bool.not_eq_true', decide_eq_false_iff_not, decide_eq_true_iff, decide_eq_true_iff]
  omega

/-! ## Moves to an indirect register -/

section
variable {i : Instr} {k : IndirectFile} {qp : BitVec 6} {r1 r2 r3 : BitVec 7} {pre : State → Prop} {f : State → State}

theorem movToIndirect_effect (he : ∀ s, exec i s = movToIndirect k qp r3 r2 s)
    (hpre : ∀ s, pre s → s.lp.cpl = 0#2 ∧ Usable s r2 ∧ Usable s r3 ∧ k.implemented s (k.index (s.lp.gr? r3).val) = true
      ∧ (s.lp.gr? r2).val &&& k.reserved s.params = 0#64
      ∧ k.write s (k.index (s.lp.gr? r3).val) (s.lp.gr? r2).val = .ok (f s))
    (hit : ∀ s, (f s).lp.psr = s.lp.psr) (hp : ∀ s, (f s).params = s.params) : Effect i qp pre f := by
  refine effect_of he (fun s h => ?_) (fun s => by rw [LP.psrBit, hit]; rfl) hp
  obtain ⟨hc, h2, h3, hi, hz, hw⟩ := hpre s h
  rw [checkSource_ok h2.1, checkSource_ok h3.1, State.atLevel0, decide_eq_true hc, useGr_ok h2, useGr_ok h3, ok_bind, ok_bind,
    ok_bind, ok_bind, require_true, ok_bind]
  dsimp only
  rw [hi, decide_eq_true hz, hw]
  rfl

theorem movToIndirect_illegal (he : ∀ s, exec i s = movToIndirect k qp r3 r2 s) :
    Traps i qp (fun s => s.lp.grReadable r2 = false ∨ s.lp.grReadable r3 = false) (fun _ => illegalOperation) := by
  refine trap_of he fun s h => ?_
  cases h2 : s.lp.grReadable r2 with
  | false => rw [checkSource_outside h2]; rfl
  | true =>
    rcases h with h | h
    · rw [h2] at h; cases h
    · rw [checkSource_ok h2, checkSource_outside h]; rfl

theorem movToIndirect_privileged (he : ∀ s, exec i s = movToIndirect k qp r3 r2 s) :
    Traps i qp (fun s => s.lp.grReadable r2 = true ∧ s.lp.grReadable r3 = true ∧ s.lp.cpl ≠ 0#2)
      (fun _ => privilegedOperation) := by
  refine trap_of he fun s h => ?_
  obtain ⟨h2, h3, hc⟩ := h
  rw [checkSource_ok h2, checkSource_ok h3, State.atLevel0, decide_eq_false hc]
  rfl

/-- What a source and a privilege level may stop, for any file. -/
theorem movToIndirect_traps (he : ∀ s, exec i s = movToIndirect k qp r3 r2 s) :
    Traps i qp (fun s => s.lp.grReadable r2 = false ∨ s.lp.grReadable r3 = false) (fun _ => illegalOperation)
    ∧ Traps i qp (fun s => s.lp.grReadable r2 = true ∧ s.lp.grReadable r3 = true ∧ s.lp.cpl ≠ 0#2)
      (fun _ => privilegedOperation) :=
  ⟨movToIndirect_illegal he, movToIndirect_privileged he⟩

/-- An index that is not implemented, or a 1 in a reserved bit. -/
theorem movToIndirect_reserved (he : ∀ s, exec i s = movToIndirect k qp r3 r2 s)
    (hpre : ∀ s, pre s → s.lp.cpl = 0#2 ∧ Usable s r2 ∧ Usable s r3
      ∧ (k.implemented s (k.index (s.lp.gr? r3).val) = false ∨ (s.lp.gr? r2).val &&& k.reserved s.params ≠ 0#64)) :
    Traps i qp pre (fun _ => reservedRegisterField) := by
  refine trap_of he fun s h => ?_
  obtain ⟨hc, h2, h3, hbad⟩ := hpre s h
  have hcond : (k.implemented s (k.index (s.lp.gr? r3).val)
      && decide ((s.lp.gr? r2).val &&& k.reserved s.params = 0#64)) = false := by
    rcases hbad with h | h
    · rw [h]; rfl
    · rw [decide_eq_false h]; exact Bool.and_false _
  rw [checkSource_ok h2.1, checkSource_ok h3.1, State.atLevel0, decide_eq_true hc, useGr_ok h2, useGr_ok h3, ok_bind, ok_bind,
    ok_bind, ok_bind, require_true, ok_bind]
  dsimp only
  rw [hcond]
  rfl

/-! ## Moves from an indirect register -/

theorem movFromIndirect_effect (he : ∀ s, exec i s = movFromIndirect k qp r1 r3 s) {v : State → Word}
    (hpre : ∀ s, pre s → s.lp.grWritable r1 = true ∧ (k = .pmd ∨ s.lp.cpl = 0#2) ∧ Usable s r3
      ∧ k.implemented s (k.index (s.lp.gr? r3).val) = true ∧ k.read s (k.index (s.lp.gr? r3).val) = (v s, f s))
    (hit : ∀ s, (f s).lp.psr = s.lp.psr) (hp : ∀ s, (f s).params = s.params) :
    Effect i qp pre (fun s => (f s).setGr r1 ⟨v s, false⟩) := by
  refine effect_of he (fun s h => ?_) (fun s => by rw [psrBit36_setGr, LP.psrBit, hit]; rfl) hp
  obtain ⟨h1, hc, h3, hi, hr⟩ := hpre s h
  have hlevel : (decide (k = .pmd) || s.atLevel0) = true := by
    rw [State.atLevel0, Bool.or_eq_true, decide_eq_true_iff, decide_eq_true_iff]
    exact hc
  rw [checkGr_ok h1, checkSource_ok h3.1, hlevel, useGr_ok h3, ok_bind, ok_bind, require_true, ok_bind, ok_bind]
  dsimp only
  rw [hi, hr]
  rfl

theorem movFromIndirect_illegal (he : ∀ s, exec i s = movFromIndirect k qp r1 r3 s) :
    Traps i qp (fun s => s.lp.grWritable r1 = false ∨ s.lp.grReadable r3 = false) (fun _ => illegalOperation) := by
  refine trap_of he fun s h => ?_
  cases h1 : s.lp.grWritable r1 with
  | false => rw [checkGr_illegal h1]; rfl
  | true =>
    rcases h with h | h
    · rw [h1] at h; cases h
    · rw [checkGr_ok h1, checkSource_outside h]; rfl

theorem movFromIndirect_privileged (he : ∀ s, exec i s = movFromIndirect k qp r1 r3 s) (hk : k ≠ .pmd) :
    Traps i qp (fun s => s.lp.grWritable r1 = true ∧ s.lp.grReadable r3 = true ∧ s.lp.cpl ≠ 0#2)
      (fun _ => privilegedOperation) := by
  refine trap_of he fun s h => ?_
  obtain ⟨h1, h3, hc⟩ := h
  rw [checkGr_ok h1, checkSource_ok h3, State.atLevel0, decide_eq_false hc, decide_eq_false hk]
  rfl

theorem movFromIndirect_reserved (he : ∀ s, exec i s = movFromIndirect k qp r1 r3 s)
    (hpre : ∀ s, pre s → s.lp.grWritable r1 = true ∧ s.lp.cpl = 0#2 ∧ Usable s r3
      ∧ k.implemented s (k.index (s.lp.gr? r3).val) = false) : Traps i qp pre (fun _ => reservedRegisterField) := by
  refine trap_of he fun s h => ?_
  obtain ⟨h1, hc, h3, hi⟩ := hpre s h
  rw [checkGr_ok h1, checkSource_ok h3.1, State.atLevel0, decide_eq_true hc, Bool.or_true, useGr_ok h3, ok_bind, ok_bind,
    require_true, ok_bind, ok_bind]
  dsimp only
  rw [hi]
  rfl

end

/-! ## CPUID -/

section
variable {i : Instr} {qp : BitVec 6} {r1 r3 : BitVec 7}

theorem movFromCpuid_illegal (he : ∀ s, exec i s = movFromCpuid qp r1 r3 s) :
    Traps i qp (fun s => s.lp.grWritable r1 = false ∨ s.lp.grReadable r3 = false) (fun _ => illegalOperation) := by
  refine trap_of he fun s h => ?_
  cases h1 : s.lp.grWritable r1 with
  | false => rw [checkGr_illegal h1]; rfl
  | true =>
    rcases h with h | h
    · rw [h1] at h; cases h
    · rw [checkGr_ok h1, useGr_outside h]; rfl

theorem movFromCpuid_effect (he : ∀ s, exec i s = movFromCpuid qp r1 r3 s) :
    Effect i qp (fun s => s.lp.grWritable r1 = true ∧ Usable s r3 ∧ (s.lp.gr? r3).val.toNat % 256 ≤ 4)
      (fun s => s.setGr r1 ⟨cpuidValue s.params ((s.lp.gr? r3).val.toNat % 256), false⟩) := by
  refine effect_of he (fun s h => ?_) (fun s => psrBit36_setGr ..) (fun _ => rfl)
  obtain ⟨h1, h3, hi⟩ := h
  rw [checkGr_ok h1, useGr_ok h3, ok_bind, ok_bind]
  dsimp only
  rw [field_low8, decide_eq_true hi]
  rfl

theorem movFromCpuid_reserved (he : ∀ s, exec i s = movFromCpuid qp r1 r3 s) :
    Traps i qp (fun s => s.lp.grWritable r1 = true ∧ Usable s r3 ∧ 4 < (s.lp.gr? r3).val.toNat % 256)
      (fun _ => reservedRegisterField) := by
  refine trap_of he fun s h => ?_
  obtain ⟨h1, h3, hi⟩ := h
  rw [checkGr_ok h1, useGr_ok h3, ok_bind, ok_bind]
  dsimp only
  rw [field_low8, decide_eq_false (Nat.not_le.2 hi)]
  rfl

end

/-! ## The forms -/

/-- Writes of the region, key and breakpoint registers. -/
theorem movToIndirect_forms (o : OpM42) :
    Effect (.movRrR3R2 o) o.qp (fun s => s.lp.cpl = 0#2 ∧ Usable s o.r2 ∧ Usable s o.r3
        ∧ (s.lp.gr? o.r2).val &&& IndirectFile.reserved .rr s.params = 0#64)
      (fun s => s.setLp { s.lp with
        rr := s.lp.rr.setIfInBounds ((s.lp.gr? o.r3).val.toNat / 2 ^ 61) (s.lp.gr? o.r2).val })
    ∧ Effect (.movPkrR3R2 o) o.qp (fun s => s.lp.cpl = 0#2 ∧ Usable s o.r2 ∧ Usable s o.r3
        ∧ ((s.lp.gr? o.r3).val.toNat % 256) < s.lp.pkr.length
        ∧ (s.lp.gr? o.r2).val &&& IndirectFile.reserved .pkr s.params = 0#64)
      (fun s => s.setLp { s.lp with pkr := s.lp.pkr.set ((s.lp.gr? o.r3).val.toNat % 256) (s.lp.gr? o.r2).val })
    ∧ Effect (.movDbrR3R2 o) o.qp (fun s => s.lp.cpl = 0#2 ∧ Usable s o.r2 ∧ Usable s o.r3
        ∧ ((s.lp.gr? o.r3).val.toNat % 256) < s.lp.dbr.length)
      (fun s => s.setLp { s.lp with
        dbr := s.lp.dbr.set ((s.lp.gr? o.r3).val.toNat % 256)
          (breakpointMask 0x3000000000000000#64 ((s.lp.gr? o.r3).val.toNat % 256) (s.lp.gr? o.r2).val) })
    ∧ Effect (.movIbrR3R2 o) o.qp (fun s => s.lp.cpl = 0#2 ∧ Usable s o.r2 ∧ Usable s o.r3
        ∧ ((s.lp.gr? o.r3).val.toNat % 256) < s.lp.ibr.length)
      (fun s => s.setLp { s.lp with
        ibr := s.lp.ibr.set ((s.lp.gr? o.r3).val.toNat % 256)
          (breakpointMask 0x7000000000000000#64 ((s.lp.gr? o.r3).val.toNat % 256) (s.lp.gr? o.r2).val) })
    ∧ Effect (.movPmdR3R2 o) o.qp (fun s => s.lp.cpl = 0#2 ∧ Usable s o.r2 ∧ Usable s o.r3)
      (fun s => writePmd s ((s.lp.gr? o.r3).val.toNat % 256) (s.lp.gr? o.r2).val) := by
  refine ⟨movToIndirect_effect (exec_movRrR3R2 o) (fun s h => ?_) (fun _ => rfl) (fun _ => rfl),
    movToIndirect_effect (exec_movPkrR3R2 o) (fun s h => ?_) (fun _ => rfl) (fun _ => rfl),
    movToIndirect_effect (exec_movDbrR3R2 o) (fun s h => ?_) (fun _ => rfl) (fun _ => rfl),
    movToIndirect_effect (exec_movIbrR3R2 o) (fun s h => ?_) (fun _ => rfl) (fun _ => rfl),
    movToIndirect_effect (exec_movPmdR3R2 o) (fun s h => ?_) (fun _ => (writePmd_status ..).1)
      (fun _ => (writePmd_status ..).2)⟩
  · obtain ⟨hc, h2, h3, hz⟩ := h
    rw [index_rr]
    exact ⟨hc, h2, h3, rfl, hz, rfl⟩
  · obtain ⟨hc, h2, h3, hi, hz⟩ := h
    rw [index_byte (k := .pkr) nofun]
    exact ⟨hc, h2, h3, decide_eq_true hi, hz, rfl⟩
  · obtain ⟨hc, h2, h3, hi⟩ := h
    rw [index_byte (k := .dbr) nofun]
    exact ⟨hc, h2, h3, decide_eq_true hi, BitVec.and_zero, rfl⟩
  · obtain ⟨hc, h2, h3, hi⟩ := h
    rw [index_byte (k := .ibr) nofun]
    exact ⟨hc, h2, h3, decide_eq_true hi, BitVec.and_zero, rfl⟩
  · obtain ⟨hc, h2, h3⟩ := h
    rw [index_byte (k := .pmd) nofun]
    exact ⟨hc, h2, h3, rfl, BitVec.and_zero, rfl⟩

/-- A write of a configuration register that the model gives a meaning. -/
theorem movPmc_effect (o : OpM42) {f : State → State} (hf : ∀ s, (∀ t, writePmc s ((s.lp.gr? o.r3).val.toNat % 256)
      (s.lp.gr? o.r2).val = .ok t → f s = t) ∧ (∀ e, writePmc s ((s.lp.gr? o.r3).val.toNat % 256)
      (s.lp.gr? o.r2).val = .error e → f s = s)) :
    Effect (.movPmcR3R2 o) o.qp (fun s => s.lp.cpl = 0#2 ∧ Usable s o.r2 ∧ Usable s o.r3
        ∧ ¬ ((((s.lp.gr? o.r3).val.toNat % 256) = 38 ∨ ((s.lp.gr? o.r3).val.toNat % 256) = 41)
          ∧ ((s.lp.gr? o.r2).val ^^^ pmcAt s.lp.pmu ((s.lp.gr? o.r3).val.toNat % 256))
            &&& ~~~pmcWritable ((s.lp.gr? o.r3).val.toNat % 256) ≠ 0#64)) f := by
  have hstatus (s : State) : (f s).lp.psr = s.lp.psr ∧ (f s).params = s.params := by
    cases hw : writePmc s ((s.lp.gr? o.r3).val.toNat % 256) (s.lp.gr? o.r2).val with
    | error e => rw [(hf s).2 e hw]; exact ⟨rfl, rfl⟩
    | ok t =>
      obtain ⟨pmd, n, rfl⟩ := writePmc_ok hw
      rw [(hf s).1 _ hw]
      exact ⟨rfl, rfl⟩
  refine movToIndirect_effect (exec_movPmcR3R2 o) (fun s h => ?_) (fun s => (hstatus s).1) (fun s => (hstatus s).2)
  obtain ⟨hc, h2, h3, hz⟩ := h
  obtain ⟨t, ht⟩ := writePmc_allowed hz
  rw [index_byte (k := .pmc) nofun, (hf s).1 t ht]
  exact ⟨hc, h2, h3, rfl, BitVec.and_zero, ht⟩

theorem movPmc_refused (o : OpM42) (s : State) (hq : s.lp.readPr o.qp = true) (hc : s.lp.cpl = 0#2) (h2 : Usable s o.r2)
    (h3 : Usable s o.r3) (hi : (s.lp.gr? o.r3).val.toNat % 256 = 38 ∨ (s.lp.gr? o.r3).val.toNat % 256 = 41)
    (hv : ((s.lp.gr? o.r2).val ^^^ pmcAt s.lp.pmu ((s.lp.gr? o.r3).val.toNat % 256))
      &&& ~~~pmcWritable ((s.lp.gr? o.r3).val.toNat % 256) ≠ 0#64) :
    exec (.movPmcR3R2 o) s = .refused (.pmcReservedBits ((s.lp.gr? o.r3).val.toNat % 256)) := by
  rw [exec_movPmcR3R2]
  refine predicated_refuse hq ?_
  rw [checkSource_ok h2.1, checkSource_ok h3.1, State.atLevel0, decide_eq_true hc, useGr_ok h2, useGr_ok h3, ok_bind, ok_bind,
    ok_bind, ok_bind, require_true, ok_bind]
  have hres : IndirectFile.reserved .pmc s.params = 0#64 := rfl
  dsimp only
  rw [index_byte (k := .pmc) nofun, hres, BitVec.and_zero]
  exact writePmc_refused hi hv

/-- Reads of the region, key and breakpoint registers and of the performance monitor. -/
theorem movFromIndirect_file {i : Instr} {k : IndirectFile} {qp : BitVec 6} {r1 r3 : BitVec 7} {l : State → List Word}
    (he : ∀ s, exec i s = movFromIndirect k qp r1 r3 s) (hk : k ≠ .rr)
    (hl : ∀ s n, k.implemented s n = decide (n < (l s).length) ∧ k.read s n = ((l s).getD n 0#64, s)) :
    Effect i qp (fun s => s.lp.grWritable r1 = true ∧ s.lp.cpl = 0#2 ∧ Usable s r3
        ∧ ((s.lp.gr? r3).val.toNat % 256) < (l s).length)
      (fun s => s.setGr r1 ⟨(l s).getD ((s.lp.gr? r3).val.toNat % 256) 0#64, false⟩)
    ∧ Traps i qp (fun s => s.lp.grWritable r1 = true ∧ s.lp.cpl = 0#2 ∧ Usable s r3
        ∧ (l s).length ≤ ((s.lp.gr? r3).val.toNat % 256)) (fun _ => reservedRegisterField) := by
  refine ⟨movFromIndirect_effect he (f := fun s => s) (fun s h => ?_) (fun _ => rfl) (fun _ => rfl),
    movFromIndirect_reserved he fun s h => ?_⟩
  · obtain ⟨h1, hc, h3, hi⟩ := h
    rw [index_byte hk, (hl s _).1, (hl s _).2]
    exact ⟨h1, .inr hc, h3, decide_eq_true hi, rfl⟩
  · obtain ⟨h1, hc, h3, hi⟩ := h
    rw [index_byte hk, (hl s _).1]
    exact ⟨h1, hc, h3, decide_eq_false (Nat.not_lt.2 hi)⟩

/-- Settles O28: each form from the outcomes of the two moves, and the registers behind them. -/
theorem indirectRegisters : Obligations.IndirectRegisters := by
  refine ⟨fun o => ?_, fun p i hi => ⟨reserved_rr p hi, reserved_pkr p hi⟩, fun o => ?_, fun s t i v => ?_,
    fun s p j c hp => ?_, fun p => ⟨cpuidValue_vendor.1, cpuidValue_vendor.2, rfl, cpuidValue_version p⟩⟩
  · obtain ⟨hrr, hpkr, hdbr, hibr, hpmd⟩ := movToIndirect_forms o
    refine ⟨hrr, hpkr, hdbr, hibr, hpmd, movPmc_effect o fun s => ⟨fun t h => by rw [h], fun e h => by rw [h]⟩,
      fun s hq h hi hv => movPmc_refused o s hq h.1 h.2.1 h.2.2 hi hv, ?_⟩
    refine and2_rest (movToIndirect_traps (exec_movRrR3R2 o)) <| and2_rest (movToIndirect_traps (exec_movPkrR3R2 o)) <|
      and2_rest (movToIndirect_traps (exec_movDbrR3R2 o)) <| and2_rest (movToIndirect_traps (exec_movIbrR3R2 o)) <|
      and2_rest (movToIndirect_traps (exec_movPmcR3R2 o)) <| and2_rest (movToIndirect_traps (exec_movPmdR3R2 o)) ?_
    refine ⟨movToIndirect_reserved (exec_movPkrR3R2 o) fun s h => ?_, movToIndirect_reserved (exec_movDbrR3R2 o) fun s h => ?_,
      movToIndirect_reserved (exec_movIbrR3R2 o) fun s h => ?_, movToIndirect_reserved (exec_movRrR3R2 o) fun s h => ?_,
      movToIndirect_reserved (exec_movPkrR3R2 o) fun s h => ?_⟩
    all_goals obtain ⟨hc, h2, h3, hbad⟩ := h
    · exact ⟨hc, h2, h3, .inl (by rw [index_byte (k := .pkr) nofun]; exact decide_eq_false (Nat.not_lt.2 hbad))⟩
    · exact ⟨hc, h2, h3, .inl (by rw [index_byte (k := .dbr) nofun]; exact decide_eq_false (Nat.not_lt.2 hbad))⟩
    · exact ⟨hc, h2, h3, .inl (by rw [index_byte (k := .ibr) nofun]; exact decide_eq_false (Nat.not_lt.2 hbad))⟩
    · exact ⟨hc, h2, h3, .inr hbad⟩
    · exact ⟨hc, h2, h3, .inr hbad⟩
  · obtain ⟨pkrRead, pkrNone⟩ :=
      movFromIndirect_file (exec_movR1PkrR3 o) (l := fun s => s.lp.pkr) nofun fun s n => ⟨rfl, rfl⟩
    obtain ⟨dbrRead, dbrNone⟩ :=
      movFromIndirect_file (exec_movR1DbrR3 o) (l := fun s => s.lp.dbr) nofun fun s n => ⟨rfl, rfl⟩
    obtain ⟨ibrRead, ibrNone⟩ :=
      movFromIndirect_file (exec_movR1IbrR3 o) (l := fun s => s.lp.ibr) nofun fun s n => ⟨rfl, rfl⟩
    refine ⟨movFromIndirect_illegal (exec_movR1RrR3 o),
      movFromIndirect_effect (exec_movR1RrR3 o) (f := fun s => s) (fun s h => ?_) (fun _ => rfl) (fun _ => rfl),
      movFromIndirect_illegal (exec_movR1PkrR3 o), pkrRead, movFromIndirect_illegal (exec_movR1DbrR3 o), dbrRead,
      movFromIndirect_illegal (exec_movR1IbrR3 o), ibrRead, movFromIndirect_illegal (exec_movR1PmcR3 o),
      movFromIndirect_effect (exec_movR1PmcR3 o) (fun s h => ?_) (fun _ => (readPmc_status ..).1)
        (fun _ => (readPmc_status ..).2),
      movFromIndirect_illegal (exec_movR1PmdR3 o),
      movFromIndirect_effect (exec_movR1PmdR3 o) (fun s h => ?_) (fun _ => (readPmd_status ..).1)
        (fun _ => (readPmd_status ..).2),
      movFromCpuid_illegal (exec_movR1CpuidR3 o), movFromCpuid_effect (exec_movR1CpuidR3 o),
      movFromCpuid_reserved (exec_movR1CpuidR3 o), movFromIndirect_privileged (exec_movR1RrR3 o) nofun, pkrNone,
      movFromIndirect_privileged (exec_movR1PkrR3 o) nofun, dbrNone, movFromIndirect_privileged (exec_movR1DbrR3 o) nofun,
      ibrNone, movFromIndirect_privileged (exec_movR1IbrR3 o) nofun, movFromIndirect_privileged (exec_movR1PmcR3 o) nofun⟩
    · obtain ⟨h1, hc, h3⟩ := h
      rw [index_rr]
      exact ⟨h1, .inr hc, h3, rfl, rfl⟩
    · obtain ⟨h1, hc, h3⟩ := h
      rw [index_byte (k := .pmc) nofun]
      exact ⟨h1, .inr hc, h3, rfl, rfl⟩
    · obtain ⟨h1, h3⟩ := h
      rw [index_byte (k := .pmd) nofun]
      exact ⟨h1, .inl rfl, h3, rfl, rfl⟩
  · exact ⟨fun h hi => writePmc_store h hi, fun hi h h39 => writePmd_store s hi h h39, fun h => writePmd_branchTrace s h,
      fun h33 h35 => readPmc_held s h33 h35, fun h => readPmc_opcode s h⟩
  · subst hp
    refine ⟨pmdConfig_eq _ j, readPmd_none, configOpen_off, configOpen_ism, fun h => ⟨fun hc hp => readPmd_secured h hc hp,
      fun hp => ⟨fun ho hj => readPmd_counter h hp ho hj, fun ho hj hn hf => readPmd_frozen h hp ho hj hn hf,
        fun ho => readPmd_free h hp ho, fun hj => readPmd_signed h hp hj⟩⟩⟩

end Sys2Proof.Machine
end

