-- ==== Sys2Proof/Proofs/TranslationQueries.lean ====
section
/-!
The probes and the queries of a translation: probe, thash, ttag, tpa, tak (42 R614, R627 to R630).
-/

namespace Sys2Proof.Machine

open Sys2Proof.Config

/-! ## Probes -/

section
variable {i : Instr} {write : Bool} {qp : BitVec 6} {r1 r3 : BitVec 7} {level : Ans (BitVec 2)} {pl : BitVec 2} {s : State}

theorem probe_granted {b : Bool} (hq : s.lp.readPr qp = true) (h1 : s.lp.grWritable r1 = true) (h3 : Usable s r3)
    (hl : level = .ok pl) (hu : Untrapped s) (hg : probeGrant write (s.lp.gr? r3).val (probeBits write) pl s = .ok b) :
    probe write qp r1 r3 level s = .next (fallThrough s (s.setGr r1 ⟨ofBool b, false⟩)) := by
  refine predicated_ok hq ?_ hu (psrBit36_setGr ..) (setGr_params ..)
  dsimp only
  rw [checkGr_ok h1, checkSource_ok h3.1, hl, useGr_ok h3, ok_bind, ok_bind, ok_bind, ok_bind, hg]
  rfl

theorem probe_raised {e : Exc} (hq : s.lp.readPr qp = true) (h1 : s.lp.grWritable r1 = true) (h3 : Usable s r3)
    (hl : level = .ok pl) (hg : probeGrant write (s.lp.gr? r3).val (probeBits write) pl s = raise e) :
    probe write qp r1 r3 level s = .next (faultTo s e) := by
  refine predicated_raise hq ?_
  dsimp only
  rw [checkGr_ok h1, checkSource_ok h3.1, hl, useGr_ok h3, ok_bind, ok_bind, ok_bind, ok_bind, hg]
  rfl

theorem probeGrant_physical {va acc : Word} (h : s.lp.psrBit 17 = false) : probeGrant write va acc pl s = .ok true := by
  rw [probeGrant, h]; rfl

/-- 42 R614: what a probe answers to a fault of the translation. -/
theorem probeGrant_fault {va acc itir iha : Word} {f : XlatFault} {ed : Bool} (h : s.lp.psrBit 17 = true)
    (hx : translateAddr (s.atLevel pl) va (if write then .write else .read) = .error (.xlat f itir iha ed)) :
    probeGrant write va acc pl s = if f = .vhptTranslation ∨ f = .tlbMiss ∨ f = .altTlbMiss then
        raise (memExc s va (if write then .write else .read) acc (.xlat f itir iha ed))
      else if f = .keyPermission ∨ f = .accessRights ∨ f = .keyMiss then .ok false
      else if f = .dirtyBit ∨ f = .accessBit then .ok true
      else .ok ((if write then probeWrite else probeRead)
        (xlatContext (s.atLevel pl) (if write then .write else .read)) va pl) := by
  rw [probeGrant, h, hx]
  cases f <;> cases write <;> rfl

end

/-- 42 R614: a probe in virtual mode, by what the translation of the access says. -/
theorem probe_translated {i : Instr} (write : Bool) {qp : BitVec 6} {r1 r3 : BitVec 7} {level : State → Ans (BitVec 2)}
    {pre : State → Prop} {lv : State → BitVec 2} (he : ∀ s, exec i s = probe write qp r1 r3 (level s) s)
    (hl : ∀ s, pre s → level s = .ok (lv s)) :
    ProbesTranslated i (if write then .write else .read) qp r1 r3 pre lv (if write then probeWrite else probeRead) := by
  rintro s hq h1 hp h3 h17 hu va u answer rfl rfl hans
  have hok (b : Bool) (hg : probeGrant write (s.lp.gr? r3).val (probeBits write) (lv s) s = .ok b) :
      exec i s = .next (answer b) := by
    rw [he, probe_granted hq h1 h3 (hl s hp) hu hg, hans b]
    rfl
  have hraise (e : Exc) (hg : probeGrant write (s.lp.gr? r3).val (probeBits write) (lv s) s = raise e) :
      exec i s = .next (faultTo s e) := by
    rw [he, probe_raised hq h1 h3 (hl s hp) hg]
  cases hx : translateAddr (s.atLevel (lv s)) (s.lp.gr? r3).val (if write then .write else .read) with
  | ok a => exact hok true (by rw [probeGrant, h17, hx]; rfl)
  | error e =>
    cases e with
    | unimplemented => exact hraise _ (by rw [probeGrant, h17, hx]; rfl)
    | natPage | debug | unaligned | unsupported => exact hok true (by rw [probeGrant, h17, hx]; rfl)
    | xlat f itir iha ed =>
      have hg := probeGrant_fault (acc := probeBits write) h17 hx
      dsimp only
      by_cases hmiss : f = .vhptTranslation ∨ f = .tlbMiss ∨ f = .altTlbMiss
      · rw [if_pos hmiss] at hg ⊢
        exact hraise _ hg
      by_cases hdeny : f = .keyPermission ∨ f = .accessRights ∨ f = .keyMiss
      · rw [if_neg hmiss, if_pos hdeny] at hg ⊢
        exact hok _ hg
      by_cases hbit : f = .dirtyBit ∨ f = .accessBit
      · rw [if_neg hmiss, if_neg hdeny, if_pos hbit] at hg ⊢
        exact hok _ hg
      rw [if_neg hmiss, if_neg hdeny, if_neg hbit] at hg ⊢
      exact hok _ hg

theorem probe_physical {i : Instr} {write : Bool} {qp : BitVec 6} {r1 r3 : BitVec 7} {level : State → Ans (BitVec 2)}
    {pre : State → Prop} (he : ∀ s, exec i s = probe write qp r1 r3 (level s) s)
    (hpre : ∀ s, pre s → s.lp.grWritable r1 = true ∧ Usable s r3 ∧ s.lp.psrBit 17 = false ∧ ∃ pl, level s = .ok pl) :
    Effect i qp pre (fun s => s.setGr r1 ⟨1#64, false⟩) := by
  refine effect_of he (fun s h => ?_) (fun s => psrBit36_setGr ..) (fun _ => rfl)
  obtain ⟨h1, h3, h17, pl, hl⟩ := hpre s h
  dsimp only
  rw [checkGr_ok h1, checkSource_ok h3.1, hl, useGr_ok h3, ok_bind, ok_bind, ok_bind, ok_bind, probeGrant_physical h17]
  rfl

theorem probeLevel_ok {write : Bool} {s : State} {r2 : BitVec 7} (h : Usable s r2) :
    probeLevel write s r2 = .ok ((s.lp.gr? r2).val.setWidth 2) := by
  rw [probeLevel, useGr_ok h]; rfl

theorem probeFault_effect {i : Instr} {kind : AccessKind} {qp : BitVec 6} {r3 : BitVec 7} {pl : BitVec 2}
    (he : ∀ s, exec i s = probeFault kind qp r3 pl s) :
    Effect i qp (fun s => Usable s r3 ∧ ∃ a, dataAccess (s.atLevel pl) kind (s.lp.gr? r3).val 1 false = .ok a)
      (fun s => s) := by
  refine effect_of he (fun s h => ?_) (fun _ => rfl) (fun _ => rfl)
  obtain ⟨h3, a, ha⟩ := h
  dsimp only
  rw [useGr_ok h3, ok_bind, ha]
  rfl

/-! ## thash, ttag, tpa, tak -/

/-- The number of the region of an address. -/
theorem regionNumber (w : Word) : (field w 61 3).toNat = w.toNat / 2 ^ 61 := index_rr w

section
variable {i : Instr} {qp : BitVec 6} {r1 r3 : BitVec 7}

theorem hashQuery_effect {f : Word → Word → Word → Word} (he : ∀ s, exec i s = hashQuery f qp r1 r3 s) :
    Effect i qp (fun s => s.lp.grWritable r1 = true ∧ s.lp.grReadable r3 = true)
      (fun s => s.setGr r1 ⟨f s.lp.cr.pta (s.lp.rr.getD ((s.lp.gr? r3).val.toNat / 2 ^ 61) 0#64) (s.lp.gr? r3).val,
        (s.lp.gr? r3).nat⟩) := by
  refine effect_of he (fun s h => ?_) (fun s => psrBit36_setGr ..) (fun _ => rfl)
  rw [checkGr_ok h.1, readGr_ok h.2, ok_bind, ok_bind, regionNumber]
  rfl

theorem tpa_effect (he : ∀ s, exec i s = tpaQuery qp r1 r3 s) (s : State) (a : Nat) (m : MemAttr)
    (hq : s.lp.readPr qp = true) (h1 : s.lp.grWritable r1 = true) (hc : s.lp.cpl = 0#2) (h3 : Usable s r3) (hu : Untrapped s)
    (hx : translateAddr s (s.lp.gr? r3).val .nonAccess = .ok (a, m)) :
    exec i s = .next (fallThrough s (s.setGr r1 ⟨BitVec.ofNat 64 a, false⟩)) := by
  rw [he]
  refine predicated_ok hq ?_ hu (psrBit36_setGr ..) (setGr_params ..)
  rw [checkGr_ok h1, checkSource_ok h3.1, State.atLevel0, decide_eq_true hc, useGr_ok h3, ok_bind, ok_bind, require_true,
    ok_bind, ok_bind, hx]
  rfl

theorem tak_effect (he : ∀ s, exec i s = takQuery qp r1 r3 s) :
    Effect i qp (fun s => s.lp.grWritable r1 = true ∧ s.lp.cpl = 0#2 ∧ Usable s r3)
      (fun s => s.setGr r1 ⟨if (tak (xlatContext s .nonAccess) (s.lp.gr? r3).val).getLsbD 0 then 1#64
        else tak (xlatContext s .nonAccess) (s.lp.gr? r3).val &&& 0xFFFFFF00#64, false⟩) := by
  refine effect_of he (fun s h => ?_) (fun s => psrBit36_setGr ..) (fun _ => rfl)
  obtain ⟨h1, hc, h3⟩ := h
  rw [checkGr_ok h1, checkSource_ok h3.1, State.atLevel0, decide_eq_true hc, useGr_ok h3]
  rfl

/-- What stops a query of level 0 before it looks at its address. -/
theorem query_traps {rest : State → Ans State} (he : ∀ s, exec i s = predicated qp s (do
      checkGr s r1
      checkSource s r3
      require s.atLevel0 privilegedOperation
      rest s)) :
    Traps i qp (fun s => s.lp.grWritable r1 = true ∧ s.lp.grReadable r3 = true ∧ s.lp.cpl ≠ 0#2)
        (fun _ => privilegedOperation)
    ∧ Traps i qp (fun s => s.lp.grWritable r1 = false ∨ s.lp.grReadable r3 = false) (fun _ => illegalOperation) := by
  refine ⟨trap_of he fun s h => ?_, trap_of he fun s h => ?_⟩
  · obtain ⟨h1, h3, hc⟩ := h
    rw [checkGr_ok h1, checkSource_ok h3, State.atLevel0, decide_eq_false hc]
    rfl
  · cases h1 : s.lp.grWritable r1 with
    | false => rw [checkGr_illegal h1]; rfl
    | true =>
      rcases h with h | h
      · rw [h1] at h; cases h
      · rw [checkGr_ok h1, checkSource_outside h]; rfl

theorem tpa_traps (he : ∀ s, exec i s = tpaQuery qp r1 r3 s) :
    Traps i qp (fun s => s.lp.grWritable r1 = true ∧ s.lp.grReadable r3 = true ∧ s.lp.cpl ≠ 0#2)
        (fun _ => privilegedOperation)
    ∧ Traps i qp (fun s => s.lp.grWritable r1 = false ∨ s.lp.grReadable r3 = false) (fun _ => illegalOperation) :=
  query_traps he

theorem tak_traps (he : ∀ s, exec i s = takQuery qp r1 r3 s) :
    Traps i qp (fun s => s.lp.grWritable r1 = true ∧ s.lp.grReadable r3 = true ∧ s.lp.cpl ≠ 0#2)
        (fun _ => privilegedOperation)
    ∧ Traps i qp (fun s => s.lp.grWritable r1 = false ∨ s.lp.grReadable r3 = false) (fun _ => illegalOperation) :=
  query_traps he

end

end Sys2Proof.Machine
end

