-- ==== Sys2Proof/Proofs/TranslationInserts.lean ====
section
/-!
Inserts and purges of translations: itc, itr, ptc and ptr (42 R620 to R626; 20 R394, R395): the entry of an insert, the
translation cache as a list, what a purge takes, and each form.
-/

namespace Sys2Proof.Machine

open Sys2Proof.Config

/-! ## The entry of an insert -/

/-- The region identifier of an address, by the number of its region. -/
theorem rid_eq (s : State) (va : Word) : s.rid va = (s.lp.rr.getD (va.toNat / 2 ^ 61) 0#64 >>> 8) &&& 0xFFFFFF#64 := by
  rw [State.rid, regionNumber]; rfl

theorem insertEntry_eq (s : State) (pte : Word) : insertEntry s pte = ⟨s.lp.cr.ifa,
    (s.lp.rr.getD (s.lp.cr.ifa.toNat / 2 ^ 61) 0#64 >>> 8) &&& 0xFFFFFF#64, s.lp.cr.itir, pte⟩ := by
  rw [insertEntry, rid_eq]

/-- A size in bits 7:2 of a word. -/
theorem sizeField (w : Word) : (field w 2 6).toNat = w.toNat / 4 % 64 := field_toNat w 2 (by decide)

theorem pageSizeOk_iff {s : State} {pte : Word} : pageSizeOk (insertEntry s pte) = true ↔ PageSizeLegal s := by
  rw [pageSizeOk, decide_eq_true_iff, pageBits, sizeField]
  rfl

theorem pageSizeOk_false {s : State} {pte : Word} (h : ¬ PageSizeLegal s) : pageSizeOk (insertEntry s pte) = false := by
  rw [← Bool.not_eq_true, pageSizeOk_iff]
  exact h

/-! ## The translation cache -/

section
variable (n cap : Nat) (l : List TlbEntry)

theorem tcFit_length : (tcFit n cap l).length ≤ cap := by
  unfold tcFit
  split
  next h => exact h
  next => exact List.length_take_le ..

theorem tcFit_mem {x : TlbEntry} (h : x ∈ tcFit n cap l) : x ∈ l := by
  unfold tcFit at h
  split at h
  next => exact h
  next => exact List.mem_of_mem_eraseIdx (List.mem_of_mem_take h)

theorem tcFit_fits {cap : Nat} (h : l.length ≤ cap) : tcFit n cap l = l := if_pos h

/-- 42 R620: the new entry is the head; what stays was held and does not overlap it. -/
theorem tcInsert_eq (e : TlbEntry) :
    ∃ k, tcInsert n cap l e = e :: k ∧ k.length ≤ cap - 1 ∧ ∀ x, x ∈ k → x ∈ l ∧ overlapsEntry x e = false := by
  refine ⟨_, rfl, tcFit_length .., fun x hx => ?_⟩
  have hm := List.mem_filter.1 (tcFit_mem _ _ _ hx)
  exact ⟨hm.1, by simpa using hm.2⟩

theorem tcInsert_fits {cap : Nat} {e : TlbEntry} (h : (l.filter fun x => !overlapsEntry x e).length < cap) :
    tcInsert n cap l e = e :: l.filter fun x => !overlapsEntry x e := by
  rw [tcInsert, tcFit_fits _ _ (by omega)]

end

/-- 42 R625: a purge takes the entries whose page and its range have a byte in common. -/
theorem purged_iff (s : State) (va size : Word) (e : TlbEntry) : purged s va size e = true ↔
    e.rid = (s.lp.rr.getD (va.toNat / 2 ^ 61) 0#64 >>> 8) &&& 0xFFFFFF#64 ∧ ∃ x, pageStart e ≤ x
      ∧ x < pageStart e + 2 ^ (e.itir.toNat / 4 % 64) ∧ va.toNat % 2 ^ 61 ≤ x
      ∧ x < va.toNat % 2 ^ 61 + 2 ^ (size.toNat / 4 % 64) := by
  have hoff : regionOffset va = va.toNat % 2 ^ 61 := BitVec.toNat_setWidth ..
  have hbits : pageBits e = e.itir.toNat / 4 % 64 := sizeField _
  rw [purged, pageOverlaps, decide_eq_true_iff, rid_eq, hoff, hbits, sizeField]
  refine and_congr_right fun _ => ⟨fun ⟨h1, h2⟩ => ⟨max (pageStart e) (va.toNat % 2 ^ 61), ?_⟩,
    fun ⟨x, h1, h2, h3, h4⟩ => ?_⟩
  · have hp := Nat.two_pow_pos (e.itir.toNat / 4 % 64)
    have hz := Nat.two_pow_pos (size.toNat / 4 % 64)
    omega
  · exact ⟨by omega, by omega⟩

/-! ## Inserts -/

section
variable {i : Instr} {instr : Bool} {qp : BitVec 6} {r2 r3 : BitVec 7} {f : State → State}

/-- 42 R620, R621: an insert into a translation cache. -/
theorem itcInsert_effect (he : ∀ s, exec i s = itcInsert instr qp r2 s)
    (hf : ∀ s, f s = if instr then
        { s with itcache := tcInsert s.free (tcCapacity s.itr) s.itcache (insertEntry s (s.lp.gr? r2).val), free := s.free + 1 }
      else { s with dtc := tcInsert s.free (tcCapacity s.dtr) s.dtc (insertEntry s (s.lp.gr? r2).val), free := s.free + 1 }) :
    Effect i qp (fun s => s.lp.psrBit 13 = false ∧ s.lp.cpl = 0#2 ∧ Usable s r2 ∧ PageSizeLegal s) f := by
  refine effect_of he (fun s h => ?_) (fun s => by rw [hf]; split <;> rfl) (fun s => by rw [hf]; split <;> rfl)
  obtain ⟨hic, hc, h2, hz⟩ := h
  simp only [LP.ic, hic, checkSource_ok h2.1, State.atLevel0, hc, decide_true, useGr_ok h2, ok_bind, Bool.not_false,
    require_true]
  rw [pageSizeOk_iff.2 hz, hf]
  rfl

theorem itcInsert_traps (he : ∀ s, exec i s = itcInsert instr qp r2 s) :
    Traps i qp (fun s => s.lp.psrBit 13 = false ∧ s.lp.cpl = 0#2 ∧ Usable s r2 ∧ ¬ PageSizeLegal s)
        (fun _ => reservedRegisterField)
    ∧ Traps i qp (fun s => s.lp.psrBit 13 = true ∨ s.lp.grReadable r2 = false) (fun _ => illegalOperation) := by
  refine ⟨trap_of he fun s h => ?_, trap_of he fun s h => ?_⟩
  · obtain ⟨hic, hc, h2, hz⟩ := h
    simp only [LP.ic, hic, checkSource_ok h2.1, State.atLevel0, hc, decide_true, useGr_ok h2, ok_bind, Bool.not_false,
      require_true]
    rw [pageSizeOk_false hz]
    rfl
  · cases hic : s.lp.psrBit 13 with
    | true => rw [LP.ic, hic]; rfl
    | false =>
      rcases h with h | h
      · rw [hic] at h; cases h
      · rw [LP.ic, hic, checkSource_outside h]; rfl

theorem itcInsert_privileged (he : ∀ s, exec i s = itcInsert instr qp r2 s) :
    Traps i qp (fun s => s.lp.psrBit 13 = false ∧ s.lp.grReadable r2 = true ∧ s.lp.cpl ≠ 0#2)
      (fun _ => privilegedOperation) := by
  refine trap_of he fun s h => ?_
  obtain ⟨hic, h2, hc⟩ := h
  rw [LP.ic, hic, checkSource_ok h2, State.atLevel0, decide_eq_false hc]
  rfl

/-- 42 R622, R623: an insert into the translation register that `r3` numbers. -/
theorem itrInsert_effect {pre : State → Prop} (he : ∀ s, exec i s = itrInsert instr qp r3 r2 s)
    (hpre : ∀ s, pre s → s.lp.psrBit 13 = false ∧ s.lp.cpl = 0#2 ∧ Usable s r2 ∧ Usable s r3
      ∧ (s.lp.gr? r3).val.toNat % 256 < (if instr then s.itr else s.dtr).length ∧ PageSizeLegal s)
    (hf : ∀ s, f s = if instr then
        { s with
          itr := s.itr.set ((s.lp.gr? r3).val.toNat % 256) (some (insertEntry s (s.lp.gr? r2).val))
          itcache := tcFit s.free (tcCapacity (s.itr.set ((s.lp.gr? r3).val.toNat % 256)
            (some (insertEntry s (s.lp.gr? r2).val)))) s.itcache
          free := s.free + 1 }
      else { s with
        dtr := s.dtr.set ((s.lp.gr? r3).val.toNat % 256) (some (insertEntry s (s.lp.gr? r2).val))
        dtc := tcFit s.free (tcCapacity (s.dtr.set ((s.lp.gr? r3).val.toNat % 256)
          (some (insertEntry s (s.lp.gr? r2).val)))) s.dtc
        free := s.free + 1 }) :
    Effect i qp pre f := by
  refine effect_of he (fun s h => ?_) (fun s => by rw [hf]; split <;> rfl) (fun s => by rw [hf]; split <;> rfl)
  obtain ⟨hic, hc, h2, h3, hi, hz⟩ := hpre s h
  simp only [LP.ic, hic, checkSource_ok h2.1, checkSource_ok h3.1, State.atLevel0, hc, decide_true, useGr_ok h2, useGr_ok h3,
    ok_bind, Bool.not_false, require_true]
  rw [field_low8, decide_eq_true hi, pageSizeOk_iff.2 hz, hf]
  rfl

theorem itrInsert_reserved {pre : State → Prop} (he : ∀ s, exec i s = itrInsert instr qp r3 r2 s)
    (hpre : ∀ s, pre s → s.lp.psrBit 13 = false ∧ s.lp.cpl = 0#2 ∧ Usable s r2 ∧ Usable s r3
      ∧ ((if instr then s.itr else s.dtr).length ≤ (s.lp.gr? r3).val.toNat % 256 ∨ ¬ PageSizeLegal s)) :
    Traps i qp pre (fun _ => reservedRegisterField) := by
  refine trap_of he fun s h => ?_
  obtain ⟨hic, hc, h2, h3, hbad⟩ := hpre s h
  have hcond : (decide ((s.lp.gr? r3).val.toNat % 256 < (if instr then s.itr else s.dtr).length)
      && pageSizeOk (insertEntry s (s.lp.gr? r2).val)) = false := by
    rcases hbad with hb | hb
    · rw [decide_eq_false (Nat.not_lt.2 hb)]; rfl
    · rw [pageSizeOk_false hb, Bool.and_false]
  simp only [LP.ic, hic, checkSource_ok h2.1, checkSource_ok h3.1, State.atLevel0, hc, decide_true, useGr_ok h2, useGr_ok h3,
    ok_bind, Bool.not_false, require_true]
  rw [field_low8, hcond]
  rfl

theorem itrInsert_traps (he : ∀ s, exec i s = itrInsert instr qp r3 r2 s) :
    Traps i qp (fun s => s.lp.psrBit 13 = true ∨ s.lp.grReadable r2 = false ∨ s.lp.grReadable r3 = false)
        (fun _ => illegalOperation)
    ∧ Traps i qp
        (fun s => s.lp.psrBit 13 = false ∧ s.lp.grReadable r2 = true ∧ s.lp.grReadable r3 = true ∧ s.lp.cpl ≠ 0#2)
        (fun _ => privilegedOperation) := by
  refine ⟨trap_of he fun s h => ?_, trap_of he fun s h => ?_⟩
  · cases hic : s.lp.psrBit 13 with
    | true => rw [LP.ic, hic]; rfl
    | false =>
      cases h2 : s.lp.grReadable r2 with
      | false => rw [LP.ic, hic, checkSource_outside h2]; rfl
      | true =>
        rcases h with h | h | h
        · rw [hic] at h; cases h
        · rw [h2] at h; cases h
        · rw [LP.ic, hic, checkSource_ok h2, checkSource_outside h]; rfl
  · obtain ⟨hic, h2, h3, hc⟩ := h
    rw [LP.ic, hic, checkSource_ok h2, checkSource_ok h3, State.atLevel0, decide_eq_false hc]
    rfl

/-! ## Purges -/

/-- What a purge of level 0 with two sources does. -/
theorem purge_effect {g : State → Word → Word → State} (he : ∀ s, exec i s = predicated qp s (do
      checkSource s r3
      checkSource s r2
      require s.atLevel0 privilegedOperation
      let a ← useGr s r3
      let z ← useGr s r2
      return g s a z))
    (hg : ∀ s a z, (g s a z).lp = s.lp ∧ (g s a z).params = s.params)
    (hf : ∀ s, f s = g s (s.lp.gr? r3).val (s.lp.gr? r2).val) :
    Effect i qp (fun s => s.lp.cpl = 0#2 ∧ Usable s r2 ∧ Usable s r3) f := by
  refine effect_of he (fun s h => ?_) (fun s => by rw [hf, (hg ..).1]) (fun s => by rw [hf, (hg ..).2])
  obtain ⟨hc, h2, h3⟩ := h
  rw [hf]
  rw [checkSource_ok h3.1, checkSource_ok h2.1, State.atLevel0, decide_eq_true hc, useGr_ok h3, useGr_ok h2]
  rfl

theorem purge_traps {rest : State → Ans State} (he : ∀ s, exec i s = predicated qp s (do
      checkSource s r3
      checkSource s r2
      require s.atLevel0 privilegedOperation
      rest s)) :
    Traps i qp (fun s => s.lp.grReadable r2 = true ∧ s.lp.grReadable r3 = true ∧ s.lp.cpl ≠ 0#2)
        (fun _ => privilegedOperation)
    ∧ Traps i qp (fun s => s.lp.grReadable r2 = false ∨ s.lp.grReadable r3 = false) (fun _ => illegalOperation) := by
  refine ⟨trap_of he fun s h => ?_, trap_of he fun s h => ?_⟩
  · obtain ⟨h2, h3, hc⟩ := h
    rw [checkSource_ok h3, checkSource_ok h2, State.atLevel0, decide_eq_false hc]
    rfl
  · cases h3 : s.lp.grReadable r3 with
    | false => rw [checkSource_outside h3]; rfl
    | true =>
      rcases h with h | h
      · rw [checkSource_ok h3, checkSource_outside h]; rfl
      · rw [h3] at h; cases h

theorem purgePartial_effect (he : ∀ s, exec i s = purgePartial qp r3 s) :
    Effect i qp (fun s => s.lp.cpl = 0#2 ∧ Usable s r3) (fun s => { s with
      dtc := s.dtc.filter fun e => !purgePart e (s.lp.gr? r3).val
      itcache := s.itcache.filter fun e => !purgePart e (s.lp.gr? r3).val }) := by
  refine effect_of he (fun s h => ?_) (fun _ => rfl) (fun _ => rfl)
  rw [checkSource_ok h.2.1, State.atLevel0, decide_eq_true h.1, useGr_ok h.2]
  rfl

theorem purgePartial_traps (he : ∀ s, exec i s = purgePartial qp r3 s) :
    Traps i qp (fun s => s.lp.grReadable r3 = true ∧ s.lp.cpl ≠ 0#2) (fun _ => privilegedOperation)
    ∧ Traps i qp (fun s => s.lp.grReadable r3 = false) (fun _ => illegalOperation) := by
  refine ⟨trap_of he fun s h => ?_, trap_of he fun s h => ?_⟩
  · rw [checkSource_ok h.1, State.atLevel0, decide_eq_false h.2]; rfl
  · rw [checkSource_outside h]; rfl

end

section
variable {i : Instr} {instr : Bool} {qp : BitVec 6} {r3 r2 : BitVec 7}

/-- 42 R625: `ptc.l` and `ptc.g`. -/
theorem purgeCaches_effect (he : ∀ s, exec i s = purgeCaches qp r3 r2 s) :
    Effect i qp (fun s => s.lp.cpl = 0#2 ∧ Usable s r2 ∧ Usable s r3) (fun s => { s with
      dtc := s.dtc.filter fun e => !purged s (s.lp.gr? r3).val (s.lp.gr? r2).val e
      itcache := s.itcache.filter fun e => !purged s (s.lp.gr? r3).val (s.lp.gr? r2).val e }) :=
  purge_effect (g := fun s a z => { s with
    dtc := s.dtc.filter fun e => !purged s a z e, itcache := s.itcache.filter fun e => !purged s a z e })
    he (fun _ _ _ => ⟨rfl, rfl⟩) (fun _ => rfl)

theorem purgeCachesAlat_effect (he : ∀ s, exec i s = purgeCachesAlat qp r3 r2 s) :
    Effect i qp (fun s => s.lp.cpl = 0#2 ∧ Usable s r2 ∧ Usable s r3) (fun s => { s with
      dtc := s.dtc.filter fun e => !purged s (s.lp.gr? r3).val (s.lp.gr? r2).val e
      itcache := s.itcache.filter fun e => !purged s (s.lp.gr? r3).val (s.lp.gr? r2).val e
      bg := { s.bg with
        alat := s.bg.alat.filter fun e => !alatPurged e.pa e.size (s.lp.gr? r3).val ((s.lp.gr? r2).val.toNat / 4 % 64)
          ((s.lp.rr.getD ((s.lp.gr? r3).val.toNat / 2 ^ 61) 0#64 >>> 8) &&& 0xFFFFFF#64) } }) :=
  purge_effect (g := fun s a z => { s with
    dtc := s.dtc.filter fun e => !purged s a z e, itcache := s.itcache.filter fun e => !purged s a z e
    bg := { s.bg with alat := s.bg.alat.filter fun e => !alatPurged e.pa e.size a (field z 2 6).toNat (s.rid a) } })
    he (fun _ _ _ => ⟨rfl, rfl⟩) (fun s => by rw [sizeField, rid_eq])

/-- 42 R625: `ptr.d` and `ptr.i`. -/
theorem purgeRegisters_effect {f : State → State} (he : ∀ s, exec i s = purgeRegisters instr qp r3 r2 s)
    (hf : ∀ s, f s = if instr then
        { s with
          itr := s.itr.map fun x => x.filter fun e => !purged s (s.lp.gr? r3).val (s.lp.gr? r2).val e
          itcache := s.itcache.filter fun e => !purged s (s.lp.gr? r3).val (s.lp.gr? r2).val e }
      else { s with
        dtr := s.dtr.map fun x => x.filter fun e => !purged s (s.lp.gr? r3).val (s.lp.gr? r2).val e
        dtc := s.dtc.filter fun e => !purged s (s.lp.gr? r3).val (s.lp.gr? r2).val e }) :
    Effect i qp (fun s => s.lp.cpl = 0#2 ∧ Usable s r2 ∧ Usable s r3) f :=
  purge_effect (g := fun s a z => if instr then
      { s with itr := purgeRegs s a z s.itr, itcache := s.itcache.filter fun e => !purged s a z e }
    else { s with dtr := purgeRegs s a z s.dtr, dtc := s.dtc.filter fun e => !purged s a z e })
    he (fun _ _ _ => by split <;> exact ⟨rfl, rfl⟩) hf

theorem purgeCaches_traps (he : ∀ s, exec i s = purgeCaches qp r3 r2 s) :
    Traps i qp (fun s => s.lp.grReadable r2 = true ∧ s.lp.grReadable r3 = true ∧ s.lp.cpl ≠ 0#2)
        (fun _ => privilegedOperation)
    ∧ Traps i qp (fun s => s.lp.grReadable r2 = false ∨ s.lp.grReadable r3 = false) (fun _ => illegalOperation) :=
  purge_traps he

theorem purgeCachesAlat_traps (he : ∀ s, exec i s = purgeCachesAlat qp r3 r2 s) :
    Traps i qp (fun s => s.lp.grReadable r2 = true ∧ s.lp.grReadable r3 = true ∧ s.lp.cpl ≠ 0#2)
        (fun _ => privilegedOperation)
    ∧ Traps i qp (fun s => s.lp.grReadable r2 = false ∨ s.lp.grReadable r3 = false) (fun _ => illegalOperation) :=
  purge_traps he

theorem purgeRegisters_traps (he : ∀ s, exec i s = purgeRegisters instr qp r3 r2 s) :
    Traps i qp (fun s => s.lp.grReadable r2 = true ∧ s.lp.grReadable r3 = true ∧ s.lp.cpl ≠ 0#2)
        (fun _ => privilegedOperation)
    ∧ Traps i qp (fun s => s.lp.grReadable r2 = false ∨ s.lp.grReadable r3 = false) (fun _ => illegalOperation) :=
  purge_traps he

end

/-! ## The forms -/

/-- Settles O29: each form from the probes, queries, inserts and purges, the translation cache as a list, and what a purge
takes. -/
theorem translationInstructions : Obligations.TranslationInstructions := by
  refine ⟨fun o => ?_, fun o => ?_, fun o => ?_, fun o => ?_, fun o => ?_, fun o => ?_, fun o => ?_, fun n cap l e => ?_,
    fun s va size e => purged_iff s va size e⟩
  · refine ⟨probe_physical (exec_probeRR1R3Imm2 o) fun s h => ⟨h.1, h.2.1, h.2.2, _, rfl⟩,
      probe_translated false (exec_probeRR1R3Imm2 o) fun s _ => rfl,
      probe_physical (exec_probeWR1R3Imm2 o) fun s h => ⟨h.1, h.2.1, h.2.2, _, rfl⟩,
      probe_translated true (exec_probeWR1R3Imm2 o) fun s _ => rfl⟩
  · refine ⟨probe_physical (exec_probeRR1R3R2 o) fun s h => ?_,
      probe_translated false (exec_probeRR1R3R2 o) fun s h => probeLevel_ok h,
      probe_physical (exec_probeWR1R3R2 o) fun s h => ?_,
      probe_translated true (exec_probeWR1R3R2 o) fun s h => probeLevel_ok h⟩
    all_goals
      obtain ⟨h1, h2, h3, h17⟩ := h
      exact ⟨h1, h3, h17, _, probeLevel_ok h2⟩
  · exact ⟨probeFault_effect (exec_probeRwFaultR3Imm2 o), probeFault_effect (exec_probeRFaultR3Imm2 o),
      probeFault_effect (exec_probeWFaultR3Imm2 o)⟩
  · obtain ⟨tpaPrivileged, tpaIllegal⟩ := tpa_traps (exec_tpa o)
    exact ⟨hashQuery_effect (f := thash) (exec_thash o), hashQuery_effect (f := fun _ rr va => ttag rr va) (exec_ttag o),
      fun s a m hq h1 hc h3 hu hx => tpa_effect (exec_tpa o) s a m hq h1 hc h3 hu hx, tak_effect (exec_tak o),
      tpaPrivileged, tpaIllegal, tak_traps (exec_tak o)⟩
  · refine ⟨itcInsert_effect (exec_itcDR2 o) fun s => ?_, itcInsert_effect (exec_itcIR2 o) fun s => ?_,
      and2_rest (itcInsert_traps (exec_itcDR2 o)) <| and2_rest (itcInsert_traps (exec_itcIR2 o))
        ⟨itcInsert_privileged (exec_itcDR2 o), itcInsert_privileged (exec_itcIR2 o)⟩⟩
    all_goals
      rw [insertEntry_eq]
      rfl
  · refine ⟨itrInsert_effect (exec_itrDDtrR3R2 o) (fun s h => h) fun s => ?_,
      itrInsert_effect (exec_itrIItrR3R2 o) (fun s h => h) fun s => ?_,
      itrInsert_reserved (exec_itrDDtrR3R2 o) fun s h => h, itrInsert_reserved (exec_itrIItrR3R2 o) fun s h => h,
      and2_rest (itrInsert_traps (exec_itrDDtrR3R2 o)) <| and2_rest (itrInsert_traps (exec_itrIItrR3R2 o))
        ⟨purgeCaches_effect (exec_ptcLR3R2 o), purgeCaches_effect (exec_ptcGR3R2 o), purgeCachesAlat_effect (exec_ptcGaR3R2 o),
          purgeRegisters_effect (exec_ptrDR3R2 o) fun _ => rfl, purgeRegisters_effect (exec_ptrIR3R2 o) fun _ => rfl,
          and2_rest (purgeCaches_traps (exec_ptcLR3R2 o)) <| and2_rest (purgeCaches_traps (exec_ptcGR3R2 o)) <|
            and2_rest (purgeCachesAlat_traps (exec_ptcGaR3R2 o)) <| and2_rest (purgeRegisters_traps (exec_ptrDR3R2 o)) <|
            purgeRegisters_traps (exec_ptrIR3R2 o)⟩⟩
    all_goals
      rw [insertEntry_eq]
      rfl
  · exact ⟨purgePartial_effect (exec_ptcER3 o), purgePartial_traps (exec_ptcER3 o)⟩
  · exact ⟨tcInsert_eq n cap l e, fun h => tcInsert_fits n l h, fun h => tcFit_fits n l h, tcFit_length n cap l,
      fun x h => tcFit_mem n cap l h⟩

end Sys2Proof.Machine
end

