-- ==== Sys2Proof/Proofs/BackingStore.lean ====
section
/-!
The backing store of the register stack (42 R603, R604, R610; 20 R432): one register stored and loaded on plain memory, where the
n-th register lies, and where loadrs ends when it loads registers and when it gives them up.
-/

namespace Sys2Proof.Machine

open Sys2Proof.Config

/-! ## Accesses of the engine on plain memory -/

section
variable {s : State} {a : Word}

theorem dataAccess_rse {k : AccessKind} (hk : s.lp.translates k = s.lp.psrBit 27) (h : PlainRse s a) :
    dataAccess s k a 8 false = .ok (a.toNat, .wb) := by
  obtain ⟨hrt, hdb, h63, hpa, halign, _⟩ := h
  have hlow : a.toNat % 2 ^ 63 = a.toNat := Nat.mod_eq_of_lt h63
  have hbit : a.getLsbD 63 = false := Nat.testBit_lt_two_pow h63
  have htranslate : translateAddr s a k = .ok (a.toNat, .wb) := by
    simp only [translateAddr, hk, hrt, hlow, hbit]
    simp; omega
  have hbreak : dataBreak s k a 8 = false := by simp only [dataBreak, hdb, Bool.false_and]
  have haligned : alignOk s k .wb a.toNat 8 = true := by simp only [alignOk, halign, if_true]
  simp only [dataAccess, htranslate]
  show (if _ then _ else _) = _
  simp [hbreak, haligned]

/-- A store of the engine to plain memory. -/
theorem rseStore_plain (v : Word) (h : PlainRse s a) : rseStore s a v =
    .ok (({ s.dropAlat a.toNat 8 with mem := memWrite s.lp.bigRse s.mem a.toNat 8 v.toNat } : State).noteRseAccess true a
      .wb) := by
  obtain ⟨_, _, _, _, _, hap, hram⟩ := id h
  simp [rseStore, dataAccess_rse (k := .rseWrite) rfl h, orRaise, writeAt, hap, hram]

/-- A load of the engine from plain memory. -/
theorem rseLoad_plain (h : PlainRse s a) : rseLoad s a =
    .ok (BitVec.ofNat 64 (memRead s.lp.bigRse s.mem a.toNat 8), s.noteRseAccess false a .wb) := by
  obtain ⟨_, _, _, _, _, hap, hram⟩ := id h
  simp [rseLoad, dataAccess_rse (k := .rseRead) rfl h, orRaise, readAt, hap, hram]

theorem not_isCollection (h : a.toNat / 8 % 64 ≠ 63) : isCollection a = false := by
  rw [← Bool.not_eq_true, isCollection_iff]
  exact h

/-! ## One register stored -/

/-- The value `v` in the backing store at `a`, with the application and general registers after the store. -/
def State.spilledAt (s : State) (a v : Word) (ar : ARFile) (gr : GRFile) : State :=
  ((({ s.dropAlat a.toNat 8 with mem := memWrite s.lp.bigRse s.mem a.toNat 8 v.toNat } : State).noteRseAccess true a
    .wb).setAr ar).setGrFile gr

section
variable (s : State) (a v : Word) (ar : ARFile) (gr : GRFile)

theorem spilledAt_psr : (s.spilledAt a v ar gr).lp.psr = s.lp.psr := rfl
theorem spilledAt_psrBit (j : Nat) : (s.spilledAt a v ar gr).lp.psrBit j = s.lp.psrBit j := rfl
theorem spilledAt_params : (s.spilledAt a v ar gr).params = s.params := rfl
theorem spilledAt_mem : (s.spilledAt a v ar gr).mem = memWrite s.lp.bigRse s.mem a.toNat 8 v.toNat := rfl
theorem spilledAt_only : s.spilledAt a v ar gr = { s with
    lp := { s.lp with gr := gr, ar := ar, alat := (s.spilledAt a v ar gr).lp.alat, ev := (s.spilledAt a v ar gr).lp.ev }
    bg := (s.spilledAt a v ar gr).bg, mem := (s.spilledAt a v ar gr).mem } := rfl

/-- What changes when the thread moves on from a state that differs as after a store of the engine. -/
theorem fallThrough_only {s u : State} (h : u = { s with
      lp := { s.lp with gr := u.lp.gr, ar := u.lp.ar, alat := u.lp.alat, ev := u.lp.ev }, bg := u.bg, mem := u.mem }) :
    ∀ t, t = fallThrough s u → t = { s with
      lp := { s.lp with gr := t.lp.gr, ar := t.lp.ar, alat := t.lp.alat, ev := t.lp.ev, ip := t.lp.ip,
                        lastIp := t.lp.lastIp, psr := t.lp.psr },
      bg := t.bg, mem := t.mem } := by
  rintro _ rfl
  rw [h]
  rfl

/-- What a store of the engine changes, once the thread has moved on. -/
theorem fallThrough_spilledAt (h : MemoryCanonical s) : ∃ t, t = fallThrough s (s.noteRse.spilledAt a v ar gr)
    ∧ memRead s.lp.bigRse t.mem a.toNat 8 = v.toNat
    ∧ (∀ x, (x < a.toNat ∨ a.toNat + 8 ≤ x) → memByte t.mem x = memByte s.mem x)
    ∧ t.lp.ar = ar ∧ t.lp.gr = gr ∧ AlatsAfterStore s t a 8 ∧ Passed s s t
    ∧ t = { s with
        lp := { s.lp with gr := t.lp.gr, ar := t.lp.ar, alat := t.lp.alat, ev := t.lp.ev, ip := t.lp.ip,
                          lastIp := t.lp.lastIp, psr := t.lp.psr },
        bg := t.bg, mem := t.mem } := by
  have hmem : (fallThrough s (s.noteRse.spilledAt a v ar gr)).mem = memWrite s.lp.bigRse s.mem a.toNat 8 v.toNat := by
    rw [fallThrough_mem, spilledAt_mem]
    rfl
  refine ⟨_, rfl, ?_, fun x hx => ?_, rfl, rfl, ⟨rfl, rfl⟩, passed_of (spilledAt_psr s.noteRse a v ar gr),
    fallThrough_only ((spilledAt_only s.noteRse a v ar gr).trans rfl) _ rfl⟩
  · rw [hmem, memRead_memWrite _ _ _ _ h]
    exact Nat.mod_eq_of_lt v.isLt
  · rw [hmem, memByte_memWrite _ _ _ _ _ h hx]

end

/-- A register whose place lies between two NaT collections is stored without either. -/
theorem spillOne_plain (ha : a = s.lp.ar.bspstore) (h : PlainRse s a) (hi : a.toNat / 8 % 64 < 62) :
    spillOne s = .ok (s.spilledAt a (s.lp.gr.stk.getD s.lp.oldest .zero).val
      { s.lp.ar with
        bspstore := a + 8#64
        rnat := setBit s.lp.ar.rnat (a.toNat / 8 % 64) (s.lp.gr.stk.getD s.lp.oldest .zero).nat }
      { s.lp.gr with ndirty := s.lp.gr.ndirty - 1 }) := by
  have hbelow : isCollection s.lp.ar.bspstore = false := ha ▸ not_isCollection (by omega)
  have habove : isCollection (a + 8#64) = false := not_isCollection (by
    obtain ⟨_, _, h63, _⟩ := h
    bv_omega)
  have hfirst : spillCollection s = .ok s := if_neg (by rw [hbelow]; decide)
  have hlast {t : State} (ht : t.lp.ar.bspstore = a + 8#64) : spillCollection t = .ok t :=
    if_neg (by rw [ht, habove]; decide)
  rw [spillOne, hfirst, ok_bind, ← field_unat]
  simp only [← ha, rseStore_plain _ h, ok_bind]
  exact hlast rfl

theorem flushStack_one (ha : a = s.lp.ar.bspstore) (hn : s.lp.gr.ndirty = 1) (h : PlainRse s a)
    (hi : a.toNat / 8 % 64 < 62) (hu : Untrapped s) :
    flushStack s = .next (fallThrough s (s.noteRse.spilledAt a
      (s.lp.gr.stk.getD ((s.lp.gr.bof + 95) % 96) .zero).val
      { s.lp.ar with
        bspstore := a + 8#64
        rnat := setBit s.lp.ar.rnat (a.toNat / 8 % 64) (s.lp.gr.stk.getD ((s.lp.gr.bof + 95) % 96) .zero).nat }
      { s.lp.gr with ndirty := 0 })) := by
  have hold : s.noteRse.lp.oldest = (s.lp.gr.bof + 95) % 96 := by
    show (s.lp.gr.bof + 96 - s.lp.gr.ndirty) % 96 = _
    rw [hn]
    rfl
  have hone := spillOne_plain (s := s.noteRse) ha h hi
  rw [hold, show s.noteRse.lp.gr = s.lp.gr from rfl, show s.noteRse.lp.ar = s.lp.ar from rfl, hn] at hone
  rw [flushStack, hn, spillN, hone]
  exact finish_fall hu (spilledAt_psrBit s.noteRse ..) (spilledAt_params s.noteRse ..)

/-- 42 R603: what a flush of one dirty register leaves. -/
theorem flushStack_effect (ha : a = s.lp.ar.bspstore) (hn : s.lp.gr.ndirty = 1) (h : PlainRse s a)
    (hi : a.toNat / 8 % 64 < 62) (hm : MemoryCanonical s) (hu : Untrapped s) :
    ∃ t r, r = s.lp.gr.stk.getD ((s.lp.gr.bof + 95) % 96) .zero ∧ flushStack s = .next t
      ∧ memRead s.lp.bigRse t.mem a.toNat 8 = r.val.toNat
      ∧ (∀ x, (x < a.toNat ∨ a.toNat + 8 ≤ x) → memByte t.mem x = memByte s.mem x)
      ∧ t.lp.ar = { s.lp.ar with bspstore := a + 8#64, rnat := setBit s.lp.ar.rnat (a.toNat / 8 % 64) r.nat }
      ∧ t.lp.gr = { s.lp.gr with ndirty := 0 } ∧ AlatsAfterStore s t a 8 ∧ Passed s s t
      ∧ t = { s with
          lp := { s.lp with gr := t.lp.gr, ar := t.lp.ar, alat := t.lp.alat, ev := t.lp.ev, ip := t.lp.ip,
                            lastIp := t.lp.lastIp, psr := t.lp.psr },
          bg := t.bg, mem := t.mem } := by
  obtain ⟨t, ht, facts⟩ := fallThrough_spilledAt s a (s.lp.gr.stk.getD ((s.lp.gr.bof + 95) % 96) .zero).val
    { s.lp.ar with
      bspstore := a + 8#64
      rnat := setBit s.lp.ar.rnat (a.toNat / 8 % 64) (s.lp.gr.stk.getD ((s.lp.gr.bof + 95) % 96) .zero).nat }
    { s.lp.gr with ndirty := 0 } hm
  exact ⟨t, _, rfl, ht ▸ flushStack_one ha hn h hi hu, facts⟩

/-! ## One register loaded -/

/-- 42 R610: a register that no NaT collection lies above is loaded with its NaT bit. -/
theorem fillOne_plain (ha : a = s.lp.ar.bspstore - 8#64) (h : PlainRse s a) (hi : a.toNat / 8 % 64 ≠ 63) :
    ∃ t, fillOne s = .ok t ∧ t.lp.ar = { s.lp.ar with bspstore := a }
      ∧ t.lp.gr = { s.lp.gr with
          stk := s.lp.gr.stk.setIfInBounds ((s.lp.gr.bof + 95 - s.lp.gr.ndirty) % 96)
            ⟨BitVec.ofNat 64 (memRead s.lp.bigRse s.mem a.toNat 8), s.lp.ar.rnat.getLsbD (a.toNat / 8 % 64)⟩
          ndirty := s.lp.gr.ndirty + 1 }
      ∧ t = { s with lp := { s.lp with gr := t.lp.gr, ar := t.lp.ar, ev := t.lp.ev } } := by
  have hnone : fillCollection s = .ok s := if_neg (by rw [← ha, not_isCollection hi]; decide)
  simp only [fillOne, hnone, ok_bind, fillRegister, ← ha, rseLoad_plain h]
  refine ⟨_, rfl, rfl, ?_, rfl⟩
  rw [← field_unat]
  rfl

end

/-! ## The place of the n-th register -/

/-- 20 R432: after every 63 registers a NaT collection is skipped. -/
theorem growBsp_closed (n : Nat) : ∀ a : Word, a.toNat / 8 % 64 < 63 →
    growBsp a n = a + BitVec.ofNat 64 (8 * (n + (a.toNat / 8 % 64 + n) / 63)) := by
  induction n with
  | zero =>
    intro a h
    rw [Nat.add_zero, Nat.div_eq_of_lt h]
    simp [growBsp]
  | succ n ih =>
    intro a h
    have hhere : skipCollection a = a := if_neg (by rw [not_isCollection (by omega)]; decide)
    rw [growBsp, hhere]
    by_cases hlast : a.toNat / 8 % 64 = 62
    · have hskip : skipCollection (a + 8#64) = a + 8#64 + 8#64 := if_pos (by rw [isCollection_iff]; bv_omega)
      have hindex : (a + 8#64 + 8#64).toNat / 8 % 64 = 0 := by bv_omega
      have hcount : n + 1 + (62 + (n + 1)) / 63 = n + (0 + n) / 63 + 2 := by omega
      rw [hskip, ih _ (by omega), hindex, hlast, hcount]
      bv_omega
    · have hindex : (a + 8#64).toNat / 8 % 64 = a.toNat / 8 % 64 + 1 := by bv_omega
      have hskip : skipCollection (a + 8#64) = a + 8#64 := if_neg (by rw [not_isCollection (by omega)]; decide)
      have hcount : n + 1 + (a.toNat / 8 % 64 + (n + 1)) / 63 = n + (a.toNat / 8 % 64 + 1 + n) / 63 + 1 := by
        rw [Nat.add_right_comm n 1, Nat.add_right_comm _ 1 n, Nat.add_assoc _ n 1]
      rw [hskip, ih _ (by omega), hindex, hcount]
      bv_omega

/-! ## Where a load of registers ends -/

section
variable {s t : State} {bsp : Word} {bytes : Nat}

theorem readAt_lp {big : Bool} {pa n : Nat} {attr : MemAttr} :
    Yields (fun p => p.2.lp = s.lp) (readAt s big pa attr n) :=
  .ite (fun _ => .skip fun _ => .ok rfl) fun _ => .ite (fun _ => .ok rfl) fun _ => .error _

/-- A load of the engine leaves the application and general registers. -/
theorem rseLoad_registers {a : Word} :
    Yields (fun p => p.2.lp.ar = s.lp.ar ∧ p.2.lp.gr = s.lp.gr) (rseLoad s a) := by
  refine .skip fun _ => .bind readAt_lp fun p hp => .ok ?_
  have har : p.2.lp.ar = s.lp.ar := congrArg LP.ar hp
  have hgr : p.2.lp.gr = s.lp.gr := congrArg LP.gr hp
  exact ⟨har, hgr⟩

/-- `AR.BSPSTORE` is aligned and no more than `bytes` below `bsp`. -/
def FillPlace (bsp : Word) (bytes : Nat) (s : State) : Prop :=
  s.lp.ar.bspstore.toNat % 8 = 0 ∧ s.lp.bytesBelow bsp ≤ bytes

/-- With aligned places there is room for eight more bytes below a place that is not low enough. -/
theorem FillPlace.down (h : FillPlace bsp bytes s) (hbytes : bytes % 8 = 0) (hlt : bytes < 2 ^ 64) (hbsp : bsp.toNat % 8 = 0)
    (hmore : s.lp.bytesBelow bsp < bytes) (ht : t.lp.ar.bspstore = s.lp.ar.bspstore - 8#64) : FillPlace bsp bytes t := by
  obtain ⟨halign, -⟩ := h
  simp only [FillPlace, LP.bytesBelow, ht] at *
  bv_omega

/-- Where no byte is missing, `AR.BSPSTORE` is `bytes` below `bsp`. -/
theorem FillPlace.reached (h : FillPlace bsp bytes s) (hend : ¬ s.lp.bytesBelow bsp < bytes) :
    s.lp.ar.bspstore = bsp - BitVec.ofNat 64 bytes := by
  obtain ⟨-, hle⟩ := h
  simp only [LP.bytesBelow] at *
  have heq : bytes = (bsp - s.lp.ar.bspstore).toNat := by omega
  rw [heq, BitVec.ofNat_toNat, BitVec.setWidth_eq]
  bv_omega

theorem fillCollection_place : Yields (fun t => t.lp.gr = s.lp.gr ∧
    (t.lp.ar.bspstore = s.lp.ar.bspstore ∨ t.lp.ar.bspstore = s.lp.ar.bspstore - 8#64)) (fillCollection s) :=
  .ite (fun _ => .bind rseLoad_registers fun _ ⟨har, hgr⟩ =>
      .ok ⟨hgr, .inr (congrArg (fun ar : ARFile => ar.bspstore - 8#64) har)⟩)
    fun _ => .ok ⟨rfl, .inl rfl⟩

theorem fillRegister_place : Yields (fun t => t.lp.gr.ndirty = s.lp.gr.ndirty + 1
    ∧ t.lp.ar.bspstore = s.lp.ar.bspstore - 8#64) (fillRegister s) :=
  .bind rseLoad_registers fun _ ⟨_, hgr⟩ => .ok ⟨congrArg (fun gr : GRFile => gr.ndirty + 1) hgr, rfl⟩

/-- 42 R604: what a load of registers from `s` ends in. -/
def FillEnd (bsp : Word) (bytes : Nat) (s t : State) : Prop :=
  s.lp.gr.ndirty ≤ t.lp.gr.ndirty ∧ (t.lp.gr.ndirty ≠ 0 → t.lp.ar.bspstore = bsp - BitVec.ofNat 64 bytes)
    ∧ (t.lp.gr.ndirty = 0 → t.lp.ar.bspstore = s.lp.ar.bspstore)

theorem fillEnd_keepBspstore (hgr : t.lp.gr = s.lp.gr) (h : t.lp.ar.bspstore = bsp - BitVec.ofNat 64 bytes) :
    FillEnd bsp bytes s (s.keepBspstore t) := by
  unfold State.keepBspstore
  split
  next h0 => exact ⟨hgr ▸ Nat.le_refl _, fun hne => absurd h0 hne, fun _ => rfl⟩
  next hne => exact ⟨hgr ▸ Nat.le_refl _, fun _ => h, fun h0 => absurd h0 hne⟩

/-- A register loaded on the way makes the end that of a state with dirty registers. -/
theorem FillEnd.of_register {u : State} (h : FillEnd bsp bytes u t) (hu : u.lp.gr.ndirty = s.lp.gr.ndirty + 1) :
    FillEnd bsp bytes s t := by
  obtain ⟨hle, hend, -⟩ := h
  exact ⟨by omega, hend, fun h0 => by omega⟩

theorem fillDownTo_end (hbytes : bytes % 8 = 0) (hlt : bytes < 2 ^ 64) (hbsp : bsp.toNat % 8 = 0) (n : Nat) :
    ∀ {s : State}, FillPlace bsp bytes s → Yields (FillEnd bsp bytes s) (fillDownTo bsp bytes n s) := by
  have hcollection {s : State} (h : FillPlace bsp bytes s) (hmore : s.lp.bytesBelow bsp < bytes) :
      Yields (fun t => t.lp.gr = s.lp.gr ∧ FillPlace bsp bytes t) (fillCollection s) := by
    refine .mono fillCollection_place fun t ⟨hgr, hplace⟩ => ⟨hgr, ?_⟩
    rcases hplace with hsame | hdown
    · simpa only [FillPlace, LP.bytesBelow, hsame] using h
    · exact h.down hbytes hlt hbsp hmore hdown
  induction n with
  | zero =>
    intro s h
    have hlast {t : State} (hgr : t.lp.gr = s.lp.gr) (ht : FillPlace bsp bytes t) : Yields (FillEnd bsp bytes s)
        (if t.lp.bytesBelow bsp < bytes then raise illegalOperation else .ok (s.keepBspstore t)) :=
      .ite (fun _ => .raise _) fun hend => .ok (fillEnd_keepBspstore hgr (ht.reached hend))
    exact .ite (fun hmore => .bind (hcollection h hmore) fun _ ⟨hgr, ht⟩ => hlast hgr ht) fun _ => hlast rfl h
  | succ n ih =>
    refine fun {s} h => .ite (fun hmore => .bind (hcollection h hmore) fun t ⟨hgr, ht⟩ => ?_) fun hend =>
      .ok ⟨Nat.le_refl _, fun _ => h.reached hend, fun _ => rfl⟩
    refine .ite (fun hmore => .bind fillRegister_place fun u ⟨hn, hu⟩ => ?_) fun hend =>
      .ok (fillEnd_keepBspstore hgr (ht.reached hend))
    exact (ih (ht.down hbytes hlt hbsp hmore hu)).mono fun _ hend => hend.of_register (hgr ▸ hn)

/-! ## Where giving registers up ends -/

/-- 42 R604: what giving up the registers of `s` more than `bytes` below `bsp` ends in. -/
def DropEnd (bsp : Word) (bytes : Nat) (s t : State) : Prop :=
  t.lp.bsp = bsp ∧ t.lp.bytesBelow bsp ≤ bytes ∧ (t.lp.gr.ndirty = 0 → t.lp.ar.bspstore = bsp)
    ∧ t = { s with lp := { s.lp with
        ar := { s.lp.ar with bspstore := t.lp.ar.bspstore }, gr := { s.lp.gr with ndirty := t.lp.gr.ndirty } } }

/-- From a place below the next register, where a NaT collection may stand. -/
theorem dropBelow_end (n : Nat) : ∀ s : State, s.lp.gr.ndirty = n → bsp = growBsp (skipCollection s.lp.ar.bspstore) n →
    DropEnd bsp bytes s (dropBelow bsp bytes n s) := by
  induction n with
  | zero =>
    intro s hn h
    rw [dropBelow]
    split
    next =>
      have hbsp : s.pastCollection.lp.bsp = bsp := by
        show growBsp (skipCollection s.lp.ar.bspstore) s.lp.gr.ndirty = bsp
        rw [hn, h]
      have hplace : s.pastCollection.lp.ar.bspstore = bsp := h.symm
      refine ⟨hbsp, ?_, fun _ => hplace, rfl⟩
      rw [LP.bytesBelow, hplace, BitVec.sub_self]
      exact Nat.zero_le _
    next hnone =>
      have hplace : s.lp.ar.bspstore = bsp := by
        unfold LP.bytesBelow at hnone
        bv_omega
      refine ⟨?_, by omega, fun _ => hplace, rfl⟩
      rw [LP.bsp, hn, hplace, growBsp]
  | succ n ih =>
    intro s hn h
    have hbelow : s.lp.bsp = bsp := by rw [LP.bsp, hn, h, growBsp_skip]
    have hpast : s.pastCollection.lp.bsp = bsp := by
      show growBsp (skipCollection s.lp.ar.bspstore) s.lp.gr.ndirty = bsp
      rw [hn, h]
    rw [dropBelow]
    split
    next =>
      dsimp only
      split
      next =>
        have hrest : bsp = growBsp (skipCollection s.pastCollection.dropRegister.lp.ar.bspstore) n := by
          rw [h, growBsp_skip]
          rfl
        have hleft : s.pastCollection.dropRegister.lp.gr.ndirty = n := by
          show s.lp.gr.ndirty - 1 = n
          omega
        obtain ⟨hb, hle, hz, hframe⟩ := ih s.pastCollection.dropRegister hleft hrest
        exact ⟨hb, hle, hz, hframe.trans rfl⟩
      next hend =>
        have hsome : s.pastCollection.lp.gr.ndirty ≠ 0 := by
          show s.lp.gr.ndirty ≠ 0
          omega
        exact ⟨hpast, Nat.not_lt.1 hend, fun h0 => absurd h0 hsome, rfl⟩
    next hend => exact ⟨hbelow, Nat.not_lt.1 hend, fun h0 => by omega, rfl⟩

/-- From the state of loadrs: with bytes below `AR.BSP` there is a dirty register. -/
theorem dropBelow_bsp (h : bytes < s.lp.bytesBelow s.lp.bsp) :
    DropEnd s.lp.bsp bytes s (dropBelow s.lp.bsp bytes s.lp.gr.ndirty s) := by
  refine dropBelow_end _ s rfl ?_
  cases hn : s.lp.gr.ndirty with
  | zero =>
    have hsame : s.lp.bsp = s.lp.ar.bspstore := by rw [LP.bsp, hn, growBsp]
    rw [LP.bytesBelow, hsame, BitVec.sub_self] at h
    exact absurd h (Nat.not_lt_zero _)
  | succ n => rw [growBsp_skip, LP.bsp, hn]

end

/-- Settles O45: the flush and the load of one register, the place of the n-th, and where loadrs ends. -/
theorem backingStore : Obligations.BackingStore := by
  refine ⟨fun o s a ha hn _ hp hi hm hu => ?_, fun s a ha hp hi _ _ => fillOne_plain ha hp hi,
    fun a n h => growBsp_closed n a h, fun s t bsp bytes n hbytes hlt hbsp hal hle ht => ?_,
    fun s t bytes _ hlt ht => ?_⟩
  · rw [exec_flushrs]
    exact flushStack_effect ha hn hp hi hm hu
  · obtain ⟨-, hsome, hnone⟩ := fillDownTo_end hbytes hlt hbsp n ⟨hal, hle⟩ t ht
    exact ⟨hsome, hnone⟩
  · exact ht ▸ dropBelow_bsp hlt

end Sys2Proof.Machine
end

