-- ==== Sys2Proof/Proofs/FormatsB.lean ====
section
/-!
The slots of formats B1 to B5, B8 and X2 to X4 (43 R661 to R673, R691, R694; 30 R450 to R452): written field by field they are the
opcode of a row, the bits that no field covers, and the operands; the row reads the operands whatever those bits are (log 21).
-/

namespace Sys2Proof

open Sys2Proof.Machine

/-! ## The formats -/

theorem slotB1_eq (btype x : BitVec 3) (o : OpB1) :
    slotB1 btype x o = (slotPut 4#4 0 4 37 ||| slotPut btype 0 3 6) ||| slotPut x 0 3 9 ||| o.enc := by
  rw [← slotPut_all (slotB1 btype x o)]
  simp (disch := rfl) only [slotB1, slotPut_append]
  simp only [OpB1.enc, slotPut_extract, Nat.reduceAdd, slot_or_left_comm, BitVec.or_assoc, BitVec.or_comm]

theorem slotB3_eq (x : BitVec 3) (o : OpB3) : slotB3 x o = slotPut 5#4 0 4 37 ||| slotPut x 0 3 9 ||| o.enc := by
  rw [← slotPut_all (slotB3 x o)]
  simp (disch := rfl) only [slotB3, slotPut_append]
  simp only [OpB3.enc, slotPut_extract, Nat.reduceAdd, slot_or_left_comm, BitVec.or_assoc, BitVec.or_comm]

theorem slotB4_eq (b36 : BitVec 1) (x6 : BitVec 6) (y : BitVec 11) (x btype : BitVec 3) (o : OpB4) :
    slotB4 b36 x6 y x btype o = (slotPut x6 0 6 27 ||| slotPut btype 0 3 6)
      ||| (slotPut b36 0 1 36 ||| slotPut y 0 11 16 ||| slotPut x 0 3 9) ||| o.enc := by
  rw [← slotPut_all (slotB4 b36 x6 y x btype o)]
  simp (disch := rfl) only [slotB4, slotPut_append]
  simp only [OpB4.enc, slotPut_zero, BitVec.zero_or, Nat.reduceAdd, slot_or_left_comm, BitVec.or_assoc, BitVec.or_comm]

theorem slotB5_eq (b36 : BitVec 1) (y : BitVec 16) (x : BitVec 3) (o : OpB5) :
    slotB5 b36 y x o =
      slotPut 1#4 0 4 37 ||| (slotPut b36 0 1 36 ||| slotPut y 0 16 16 ||| slotPut x 0 3 9) ||| o.enc := by
  rw [← slotPut_all (slotB5 b36 y x o)]
  simp (disch := rfl) only [slotB5, slotPut_append]
  simp only [OpB5.enc, Nat.reduceAdd, slot_or_left_comm, BitVec.or_assoc, BitVec.or_comm]

theorem slotB8_eq (x6 qp : BitVec 6) : slotB8 x6 qp = slotPut x6 0 6 27 ||| slotPut qp 0 6 0 := by
  rw [← slotPut_all (slotB8 x6 qp)]
  simp (disch := rfl) only [slotB8, slotPut_append]
  simp only [slotPut_zero, BitVec.zero_or, BitVec.or_zero, Nat.reduceAdd]

theorem slotX2_eq (o : OpX2) : slotX2 o = slotPut 6#4 0 4 37 ||| 0#41 ||| o.enc := by
  rw [← slotPut_all (slotX2 o)]
  simp (disch := rfl) only [slotX2, slotPut_append]
  simp only [OpX2.enc, slotPut_zero, BitVec.or_zero, Nat.reduceAdd, BitVec.or_assoc]

theorem slotX3_eq (x : BitVec 3) (o : OpX3) : slotX3 x o = slotPut 0xC#4 0 4 37 ||| slotPut x 0 3 9 ||| o.enc := by
  rw [← slotPut_all (slotX3 x o)]
  simp (disch := rfl) only [slotX3, slotPut_append]
  simp only [OpX3.enc, slotPut_zero, BitVec.zero_or, Nat.reduceAdd, slot_or_left_comm, BitVec.or_assoc, BitVec.or_comm]

theorem slotX4_eq (x : BitVec 3) (o : OpX4) : slotX4 x o = slotPut 0xD#4 0 4 37 ||| slotPut x 0 3 9 ||| o.enc := by
  rw [← slotPut_all (slotX4 x o)]
  simp (disch := rfl) only [slotX4, slotPut_append]
  simp only [OpX4.enc, Nat.reduceAdd, slot_or_left_comm, BitVec.or_assoc, BitVec.or_comm]

/-! ## Decoding -/

/-- A row of a unit reads its operands beside its opcode whatever stands in the bits `g`, which are neither of the row's mask nor of
its fields (log 21). -/
theorem SlotHolds.decodes_ignoring {α : Type} {dec : Slot → Slot → α} {o : α} {g v w l m ign bits : Slot} {u : ExecUnit}
    {C : α → Instr} {k : Nat} (h : SlotHolds dec o w l bits) (hu : unitRows u = rowsOf u)
    (hr : (unitRows u)[k]? = some ⟨m, v, ign, bits, fun w l => C (dec w l)⟩)
    (hm : g &&& m = 0#41) (hc : g &&& bits = 0#41) : decodeSlot u (v ||| g ||| w) l = .ok (C o) := by
  obtain ⟨hvm, hmc⟩ := rows_fields_apart u _ (List.mem_of_getElem? hr)
  dsimp only at hvm hmc
  have hvc : v &&& bits = 0#41 := by rw [← hvm, BitVec.and_assoc, hmc, BitVec.and_zero]
  have hits : (v ||| g ||| w) &&& m = v := by
    rw [slot_or_and, slot_or_and, hvm, hm, h.within m hmc, BitVec.or_zero, BitVec.or_zero]
  rw [hu] at hr
  rw [decodeSlot_row k hr (beq_iff_eq.2 hits)]
  exact congrArg (Except.ok ∘ C) (h.reads _ (slot_or_and_eq_zero.2 ⟨hvc, hc⟩))

/-- Operands of which none stands in the L slot are held beside any L slot. -/
theorem SlotHolds.anyL {α : Type} {dec : Slot → α} {o : α} {w l bits : Slot} (h : SlotHolds (fun w _ => dec w) o w l bits)
    (k : Slot) : SlotHolds (fun w _ => dec w) o w k bits where
  within := h.within
  reads := h.reads

/-! A form stands at its place of its format whatever the bits are that no field covers; `C` is the constructor of a row with the
format's mask and operands, and the row is found at its place in the table. -/

theorem slotB1_encodes {btype : BitVec 3} {C : OpB1 → Instr} {ign : Slot} {o : OpB1}
    (hr : (unitRows .b)[(C o).ctorIdx - firstRow .b]? = some ⟨0x1e0000001c0#41,
        slotPut 4#4 0 4 37 ||| slotPut btype 0 3 6, ign, 0x1ffffff03f#41, fun w _ => C (.dec w)⟩ := by
      dsimp only [firstRow, Instr.ctorIdx, Nat.reduceSub]; rfl)
    (x : BitVec 3) : Encodes .b (slotB1 btype x o) (C o) := by
  intro l
  rw [slotB1_eq]
  exact (o.enc_holds.anyL l).decodes_ignoring rfl hr (by simp (disch := decide) [slotPut_and_apart])
    (by simp (disch := decide) [slotPut_and_apart])

theorem slotB3_encodes (x : BitVec 3) (o : OpB3) : Encodes .b (slotB3 x o) (.brCallB1Target25 o) := by
  intro l
  rw [slotB3_eq]
  exact (o.enc_holds.anyL l).decodes_ignoring (u := .b) (k := 6) rfl rfl (by simp (disch := decide) [slotPut_and_apart])
    (by simp (disch := decide) [slotPut_and_apart])

theorem slotB4_encodes (b36 : BitVec 1) (y : BitVec 11) (x : BitVec 3) (o : OpB4) :
    Encodes .b (slotB4 b36 0x20 y x 0 o) (.brCondB2 o) := by
  intro l
  rw [slotB4_eq]
  exact (o.enc_holds.anyL l).decodes_ignoring (u := .b) (k := 7) rfl rfl (by simp (disch := decide) [slotPut_and_apart])
    (by simp (disch := decide) [slotPut_and_apart])

theorem slotB5_encodes (b36 : BitVec 1) (y : BitVec 16) (x : BitVec 3) (o : OpB5) :
    Encodes .b (slotB5 b36 y x o) (.brCallB1B2 o) := by
  intro l
  rw [slotB5_eq]
  exact (o.enc_holds.anyL l).decodes_ignoring (u := .b) (k := 10) rfl rfl (by simp (disch := decide) [slotPut_and_apart])
    (by simp (disch := decide) [slotPut_and_apart])

/-- The row of a B instruction without operands ignores the predicate field. -/
theorem slotB8_encodes {x6 : BitVec 6} {i : Instr} {ign bits : Slot} (k : Nat)
    (hr : (rowsOf .b)[k]? = some ⟨0x1ffffffffc0#41, slotPut x6 0 6 27, ign, bits, fun _ _ => i⟩) (qp : BitVec 6) :
    Encodes .b (slotB8 x6 qp) i := by
  intro l
  refine decodeSlot_row (u := .b) k hr (beq_iff_eq.2 ?_)
  obtain ⟨hv, -⟩ := rows_fields_apart .b _ (List.mem_of_getElem? hr)
  dsimp only at hv ⊢
  rw [slotB8_eq, slot_or_and, hv, slotPut_and_apart _ _ (by decide), BitVec.or_zero]

theorem slotX2_decodes (o : OpX2) : decodeSlot .x (slotX2 o) o.imm41 = .ok (.movl o) := by
  rw [slotX2_eq]
  exact o.enc_holds.decodes_ignoring (u := .x) (k := 3) rfl rfl BitVec.zero_and BitVec.zero_and

theorem slotX3_decodes (x : BitVec 3) (o : OpX3) : decodeSlot .x (slotX3 x o) o.imm41 = .ok (.brlCondTarget64 o) := by
  rw [slotX3_eq]
  exact o.enc_holds.decodes_ignoring (u := .x) (k := 4) rfl rfl (by simp (disch := decide) [slotPut_and_apart])
    (by simp (disch := decide) [slotPut_and_apart])

theorem slotX4_decodes (x : BitVec 3) (o : OpX4) :
    decodeSlot .x (slotX4 x o) o.imm41 = .ok (.brlCallB1Target64 o) := by
  rw [slotX4_eq]
  exact o.enc_holds.decodes_ignoring (u := .x) (k := 5) rfl rfl (by simp (disch := decide) [slotPut_and_apart])
    (by simp (disch := decide) [slotPut_and_apart])

end Sys2Proof
end

