-- ==== Sys2Proof/Proofs/PlainBranches.lean ====
section
/-!
movl (43 R691), and the branches and calls that are taken when their predicate is 1 (R662, R665, R666, R694): the long immediates and
targets as the fields they are joined of, and each form by `alu0` or `branchWith`.
-/

namespace Sys2Proof.Machine

/-! ## Joined fields -/

/-- Two fields side by side, as a word. -/
theorem uimm_append {m n : Nat} (x : BitVec m) (y : BitVec n) : uimm (x ++ y) = (uimm x <<< n) ||| uimm y := by
  apply BitVec.eq_of_getLsbD_eq
  intro i hi
  simp only [uimm, BitVec.getLsbD_setWidth, BitVec.getLsbD_append, BitVec.getLsbD_or, BitVec.getLsbD_shiftLeft]
  by_cases h : i < n
  · simp [h, hi, -BitVec.getLsbD_eq_getElem]
  · simp [h, hi, show i - n < 64 by omega, BitVec.getLsbD_of_ge y i (by omega), -BitVec.getLsbD_eq_getElem]

theorem uimm_word (w : Word) : uimm w = w := BitVec.setWidth_eq w

/-- 43 R691: `i : imm41 : ic : imm5c : imm9d : imm7b`. -/
theorem movlImm_eq (i : BitVec 1) (imm41 : Slot) (ic : BitVec 1) (imm5c : BitVec 5) (imm9d : BitVec 9) (imm7b : BitVec 7) :
    movlImm i imm41 ic imm5c imm9d imm7b = i ++ imm41 ++ ic ++ imm5c ++ imm9d ++ imm7b := by
  rw [← uimm_word (i ++ imm41 ++ ic ++ imm5c ++ imm9d ++ imm7b), uimm_append (n := 7), uimm_append (n := 9),
    uimm_append (n := 5), uimm_append (n := 1), uimm_append (n := 41)]
  simp only [BitVec.shiftLeft_or_distrib, ← BitVec.shiftLeft_add, Nat.reduceAdd]
  rfl

/-- 43 R694: `i : imm39 : imm20b : 0000`, where `imm39` is bits 40:2 of the L slot. -/
theorem longTarget_eq (ip : Word) (i : BitVec 1) (imm41 : Slot) (imm20b : BitVec 20) :
    longTarget ip i imm41 imm20b = ip + (i ++ imm41.extractLsb' 2 39 ++ imm20b ++ 0#4) := by
  have himm39 : (imm41 >>> 2).setWidth 64 = uimm (imm41.extractLsb' 2 39) := by
    apply BitVec.eq_of_getLsbD_eq
    intro j hj
    simp only [uimm, BitVec.getLsbD_setWidth, BitVec.getLsbD_ushiftRight, BitVec.getLsbD_extractLsb']
    by_cases h : j < 39
    · simp [h, hj]
    · simp [h, BitVec.getLsbD_of_ge imm41 (2 + j) (by omega)]
  have hzero : uimm 0#4 = 0#64 := rfl
  rw [← uimm_word (i ++ imm41.extractLsb' 2 39 ++ imm20b ++ 0#4), longTarget, himm39, uimm_append (n := 4),
    uimm_append (n := 20), uimm_append (n := 39), hzero, BitVec.or_zero]
  simp only [BitVec.shiftLeft_or_distrib, ← BitVec.shiftLeft_add, Nat.reduceAdd]

/-- Settles O27: `movl` at its place, and `alu0` with the immediate as the fields it is joined of. -/
theorem longImmediate : Obligations.LongImmediate := by
  refine fun o => ⟨slotX2_decodes o, fun s => ?_⟩
  rw [exec_movl, movlImm_eq]
  exact alu0_wide

/-! ## Branches -/

theorem alignDown_4 (v : Word) : alignDown v 4 = v &&& ~~~0xF#64 := by
  rw [alignDown, BitVec.shiftLeft_ushiftRight]; rfl

/-- A field that was replaced is read back. -/
theorem setField_read (w : Word) {lo len : Nat} (x : BitVec len) (h : lo + len ≤ 63) :
    (setField w lo len (x.setWidth 64) >>> lo).setWidth len = x := by
  apply BitVec.eq_of_getLsbD_eq
  intro i hi
  rw [BitVec.getLsbD_setWidth, BitVec.getLsbD_ushiftRight, setField_bit _ _ h, if_pos (by omega), Nat.add_sub_cancel_left,
    BitVec.getLsbD_setWidth]
  simp [hi, show i < 64 by omega, -BitVec.getLsbD_eq_getElem]

/-- A taken branch ends in slot 0 of the bundle of its target. -/
theorem advance_target (s u : State) (e : Ending) {t : Word} (h : e.target = some t) :
    (advance s u e).lp.ip = t &&& ~~~0xF#64 ∧ (advance s u e).lp.ri = 0#2 := by
  have hplace : nextPlace s.lp e = (alignDown t 4, 0#2) := by rw [nextPlace, h]
  have hri : (advance s u e).lp.ri = (nextPlace s.lp e).2 := setField_read (lo := 41) _ _ (by decide)
  rw [hri, hplace]
  exact ⟨(congrArg Prod.fst hplace).trans (alignDown_4 t), rfl⟩

theorem branchCond_branches {i : Instr} {wide : Bool} {k : FlowKind} {qp : BitVec 6} {target : State → Word}
    (he : ∀ s, exec i s = branchCond k wide qp (target s) s) :
    Branches i wide k qp (fun _ => True) target (fun s => s) :=
  branches_of he (fun _ _ => ⟨false, rfl⟩) fun _ => ⟨rfl, rfl⟩

/-- 43 R665: a call saves the frame marker, the epilog count and the privilege level, and leaves the outputs as the frame. -/
theorem branchCall_branches {i : Instr} {wide : Bool} {k : FlowKind} {qp : BitVec 6} {b1 : BitVec 3} {target : State → Word}
    (he : ∀ s, exec i s = branchCall k wide qp b1 (target s) s) :
    Branches i wide k qp (fun _ => True) target (fun s => (s.noteRse.setLp { s.noteRse.lp with
      gr := { s.lp.gr with bof := (s.lp.gr.bof + s.lp.sol) % 96, ndirty := s.lp.gr.ndirty + s.lp.sol }
      cfm := mkCfm (s.lp.sof - s.lp.sol) 0 0 0 0 0
      ar := { s.lp.ar with pfs := s.lp.cfm.setWidth 64 ||| (s.lp.ar.ec.setWidth 64 <<< 52) ||| (s.lp.cpl.setWidth 64 <<< 62) }
      }).setBr b1 (s.lp.ip + 16#64)) :=
  branches_of he (fun _ _ => ⟨false, rfl⟩) fun _ => ⟨rfl, rfl⟩

/-- Settles O30: the places of the formats, and each form by `branchCond` or `branchCall`. -/
theorem plainBranches : Obligations.PlainBranches := by
  refine ⟨fun o => ⟨slotB1_encodes, ?_⟩, fun o => ⟨fun b y x => slotB4_encodes b y x o, ?_⟩,
    fun s u t w => advance_target s u _ rfl, fun o => ⟨fun x => slotB3_encodes x o, ?_⟩,
    fun o => ⟨fun b y x => slotB5_encodes b y x o, ?_⟩, fun o => ⟨fun x => slotX3_decodes x o, ?_⟩,
    fun o => ⟨fun x => slotX4_decodes x o, ?_⟩⟩
  · exact branchCond_branches (exec_brCondTarget25 o)
  · exact branchCond_branches (exec_brCondB2 o)
  · exact branchCall_branches (exec_brCallB1Target25 o)
  · exact branchCall_branches (exec_brCallB1B2 o)
  · exact branchCond_branches fun s => by rw [exec_brlCondTarget64, longTarget_eq]
  · exact branchCall_branches fun s => by rw [exec_brlCallB1Target64, longTarget_eq]

end Sys2Proof.Machine
end

