-- ==== Sys2Proof/Proofs/LoopBranches.lean ====
section
/-!
The loop branches (43 R663, R664): what the epilog and the rotation leave, and each form by `branchWhile`, `branchCounted` or
`branchCloop`.
-/

namespace Sys2Proof.Machine

/-! ## The epilog -/

theorem epilog_fst (s : State) : (epilog s).1 =
    if 1 < s.lp.ar.ec.toNat then (s.setEc (s.lp.ar.ec - 1#6)).rotated false
    else if s.lp.ar.ec = 1#6 then (s.setEc 0#6).rotated false
    else s.setLp (s.lp.setPr 63#6 false) := by
  rw [epilog_cases]
  split
  · rfl
  · split
    · rfl
    · rfl

/-- A loop goes on while more than one round of its epilog is left. -/
theorem epilog_snd (s : State) : (epilog s).2 = decide (1 < s.lp.ar.ec.toNat) := by
  rw [epilog_cases]
  split
  next h => rw [decide_eq_true h]
  next h =>
    rw [decide_eq_false h]
    split
    · rfl
    · rfl

theorem rotated_readPr_63 (s : State) (b : Bool) : (s.rotated b).lp.readPr 63#6 = b :=
  readPr_setPr { s.lp with cfm := rotate s.lp } 63#6 b (by decide)

/-! ## The loop branches by their shared operations -/

section
variable {i : Instr} {qp : BitVec 6} {target : State → Word} {exit : Bool} {s : State} {t : Word}

theorem branchWhile_slot2 (h : s.lp.ri = 2#2) : branchWhile exit qp t s = .next (loopEnd s
    (if s.lp.readPr qp then s.rotated false else (epilog s).1) ((s.lp.readPr qp || (epilog s).2) != exit) t) := by
  unfold branchWhile
  rw [decide_eq_true h]
  cases s.lp.readPr qp with
  | true => rfl
  | false => rfl

theorem branchWhile_illegal (h : s.lp.ri ≠ 2#2) : branchWhile exit qp t s = .next (faultTo s illegalOperation) := by
  rw [branchWhile, decide_eq_false h]; rfl

theorem branchCounted_slot2 (h : s.lp.ri = 2#2) (hq : qp = 0#6) : branchCounted exit qp t s = .next (loopEnd s
    (if s.lp.ar.lc ≠ 0#64 then (s.setLc (s.lp.ar.lc - 1#64)).rotated true else (epilog s).1)
    ((decide (s.lp.ar.lc ≠ 0#64) || (epilog s).2) != exit) t) := by
  unfold branchCounted
  rw [decide_eq_true ⟨h, hq⟩]
  by_cases hl : s.lp.ar.lc ≠ 0#64
  · simp only [require_true, ok_bind, if_pos hl, decide_eq_true hl, Bool.true_or]; rfl
  · simp only [require_true, ok_bind, if_neg hl, decide_eq_false hl, Bool.false_or]; rfl

theorem not_slot2_and_p0 (h : s.lp.ri ≠ 2#2 ∨ qp ≠ 0#6) : ¬ (s.lp.ri = 2#2 ∧ qp = 0#6) := by tauto

theorem branchCounted_illegal (h : s.lp.ri ≠ 2#2 ∨ qp ≠ 0#6) :
    branchCounted exit qp t s = .next (faultTo s illegalOperation) := by
  rw [branchCounted, decide_eq_false (not_slot2_and_p0 h)]; rfl

theorem branchCloop_illegal (h : s.lp.ri ≠ 2#2 ∨ qp ≠ 0#6) :
    branchCloop qp t s = .next (faultTo s illegalOperation) := by
  rw [branchCloop, decide_eq_false (not_slot2_and_p0 h)]; rfl

theorem while_loops {taken : State → Bool} (he : ∀ s, exec i s = branchWhile exit qp (target s) s)
    (ht : ∀ s, ((s.lp.readPr qp || decide (1 < s.lp.ar.ec.toNat)) != exit) = taken s) :
    Loops i target (fun _ => True) taken (fun s => if s.lp.readPr qp = true then s.rotated false
      else if 1 < s.lp.ar.ec.toNat then (s.setEc (s.lp.ar.ec - 1#6)).rotated false
      else if s.lp.ar.ec = 1#6 then (s.setEc 0#6).rotated false
      else s.setLp (s.lp.setPr 63#6 false)) := by
  refine loops_of (fun s _ h2 => by rw [he, branchWhile_slot2 h2, epilog_fst, epilog_snd, ht]) fun s => ?_
  rw [← epilog_fst]
  split
  · exact rotated_psr s false
  · exact epilog_psr s

theorem counted_loops {taken : State → Bool} (he : ∀ s, exec i s = branchCounted exit qp (target s) s)
    (ht : ∀ s, ((decide (s.lp.ar.lc ≠ 0#64) || decide (1 < s.lp.ar.ec.toNat)) != exit) = taken s) :
    Loops i target (fun _ => qp = 0#6) taken (fun s =>
      if s.lp.ar.lc ≠ 0#64 then (s.setLc (s.lp.ar.lc - 1#64)).rotated true
      else if 1 < s.lp.ar.ec.toNat then (s.setEc (s.lp.ar.ec - 1#6)).rotated false
      else if s.lp.ar.ec = 1#6 then (s.setEc 0#6).rotated false
      else s.setLp (s.lp.setPr 63#6 false)) := by
  refine loops_of (fun s hq h2 => by rw [he, branchCounted_slot2 h2 hq, epilog_fst, epilog_snd, ht]) fun s => ?_
  rw [← epilog_fst]
  split
  · exact rotated_psr (s.setLc (s.lp.ar.lc - 1#64)) true
  · exact epilog_psr s

theorem cloop_loops (he : ∀ s, exec i s = branchCloop qp (target s) s) :
    Loops i target (fun _ => qp = 0#6) (fun s => decide (s.lp.ar.lc ≠ 0#64))
      (fun s => if s.lp.ar.lc ≠ 0#64 then s.setLc (s.lp.ar.lc - 1#64) else s) := by
  refine loops_of (fun s hq h2 => ?_) fun s => ?_
  · rw [he, branchCloop, decide_eq_true ⟨h2, hq⟩]
    by_cases hl : s.lp.ar.lc = 0#64
    · simp only [require_true, ok_bind, if_pos hl, if_neg (not_not.2 hl), decide_eq_false (not_not.2 hl)]; rfl
    · simp only [require_true, ok_bind, if_neg hl, if_pos hl, decide_eq_true hl]; rfl
  · split
    · exact ⟨rfl, rfl⟩
    · exact ⟨rfl, rfl⟩

end

/-- Settles O31: the places of the formats, each loop by its shared operation, and the rotation by `rotated_fields`. -/
theorem loopBranches : Obligations.LoopBranches := by
  refine ⟨fun o => ⟨fun x => ⟨slotB1_encodes (x := x), slotB1_encodes (x := x)⟩, ?_, ?_, ?_, ?_⟩, fun s b => ?_,
    fun o => ⟨fun x => ⟨slotB1_encodes (x := x), slotB1_encodes (x := x), slotB1_encodes (x := x)⟩, ?_, ?_, ?_, ?_, ?_, ?_⟩⟩
  · exact while_loops (exec_brWtopTarget25 o) fun s => Bool.bne_false _
  · exact while_loops (exec_brWexitTarget25 o) fun s => Bool.bne_true _
  · exact fun s h => (exec_brWtopTarget25 o s).trans (branchWhile_illegal h)
  · exact fun s h => (exec_brWexitTarget25 o s).trans (branchWhile_illegal h)
  · obtain ⟨hsof, hsol, hsor, hgr, hfr, hpr⟩ := rotated_fields s b
    refine ⟨rotated_readPr_63 s b, rotated_only s b, fun h => by rw [hgr, if_pos h],
      fun h _ => by rw [hgr, if_neg (Nat.ne_of_gt h)], hfr, hpr, hsof, hsol, hsor⟩
  · exact cloop_loops (exec_brCloopTarget25 o)
  · exact counted_loops (exec_brCtopTarget25 o) fun s => Bool.bne_false _
  · exact counted_loops (exec_brCexitTarget25 o) fun s => Bool.bne_true _
  · exact fun s h => (exec_brCloopTarget25 o s).trans (branchCloop_illegal h)
  · exact fun s h => (exec_brCtopTarget25 o s).trans (branchCounted_illegal h)
  · exact fun s h => (exec_brCexitTarget25 o s).trans (branchCounted_illegal h)

end Sys2Proof.Machine
end

