-- ==== Sys2Proof/Proofs/FramesAndReturns.lean ====
section
/-!
br.ret (43 R666) and the frames of a call, where no register has to be loaded: the saved fields of `AR.PFS`, the registers the caller
and the callee share, and the frame that comes back.
-/

namespace Sys2Proof.Machine

/-! ## The register frame -/

/-- A frame whose registers are still in the physical file comes back without a load, and fits without a store. -/
theorem popFrame_resident {n sof : Nat} {s : State} (h96 : sof ≤ 96) (hn : n ≤ sof) (hdirty : n ≤ s.lp.gr.ndirty)
    (hfit : s.lp.gr.ndirty + sof ≤ 96 + n) : popFrame n sof s = .ok (s.setGrFile
      { s.lp.gr with bof := (s.lp.gr.bof + 96 - n) % 96, ndirty := s.lp.gr.ndirty - n }) := by
  rw [popFrame, if_pos ⟨h96, hn⟩, Nat.sub_eq_zero_of_le hdirty, fillN, ok_bind, makeRoom_fits]
  show s.lp.gr.ndirty - n + sof ≤ 96
  omega

/-- The size fields of a frame marker saved in a word. -/
theorem sof_of_word (l : LP) (w : Word) : ({ l with cfm := w.setWidth 38 } : LP).sof = w.toNat % 128 := by
  show (w.setWidth 38).toNat % 128 = _
  rw [BitVec.toNat_setWidth, Nat.mod_mod_of_dvd _ (by decide)]

/-- A stacked register beyond the rotating ones lies at its own distance from the bottom of the frame. -/
theorem gr_beyond_rotating {l : LP} {k : Nat} (hr : 8 * l.sor ≤ k) (hk : k < l.sof) (h96 : l.sof ≤ 96) :
    l.gr? (BitVec.ofNat 7 (32 + k)) = l.gr.stk.getD ((l.gr.bof + k) % 96) .zero := by
  have hplace : l.grPlace (32 + k) = .stacked ((l.gr.bof + k) % 96) := by
    rw [grPlace_stacked (by omega) (by omega), LP.stackTurn, Nat.add_sub_cancel_left, if_neg (by omega)]
  rw [LP.gr?, BitVec.toNat_ofNat, Nat.mod_eq_of_lt (by omega), hplace, LP.grAt]

/-- 43 R665: the outputs of the caller are the first stacked registers of the callee. -/
theorem callee_gr {s t : State} {k : Nat}
    (hgr : t.lp.gr = { s.lp.gr with bof := (s.lp.gr.bof + s.lp.sol) % 96, ndirty := s.lp.gr.ndirty + s.lp.sol })
    (hcfm : t.lp.cfm = mkCfm (s.lp.sof - s.lp.sol) 0 0 0 0 0) (h96 : s.lp.sof ≤ 96) (hr : 8 * s.lp.sor ≤ s.lp.sol)
    (hk : k < s.lp.sof - s.lp.sol) :
    t.lp.gr? (BitVec.ofNat 7 (32 + k)) = s.lp.gr? (BitVec.ofNat 7 (32 + s.lp.sol + k)) := by
  obtain ⟨hsof, -, hsor, -⟩ := cfm_fields hcfm (by omega) (by decide) (by decide) (by decide) (by decide) (by decide)
  rw [Nat.add_assoc, gr_beyond_rotating (by omega) (by omega) (by omega), gr_beyond_rotating (by omega) (by omega) h96, hgr]
  dsimp only
  congr 1
  omega

/-! ## What a call saves -/

theorem pfsOf_bit (l : LP) {i : Nat} (hi : i < 64) : (pfsOf l).getLsbD i =
    (l.cfm.getLsbD i || (!decide (i < 52) && l.ar.ec.getLsbD (i - 52)) || (!decide (i < 62) && l.cpl.getLsbD (i - 62))) := by
  simp only [pfsOf, BitVec.getLsbD_or, BitVec.getLsbD_shiftLeft, BitVec.getLsbD_setWidth, hi, decide_true, Bool.true_and,
    show i - 52 < 64 by omega, show i - 62 < 64 by omega]

theorem pfsOf_cfm (l : LP) : (pfsOf l).setWidth 38 = l.cfm := by
  apply BitVec.eq_of_getLsbD_eq
  intro i hi
  rw [BitVec.getLsbD_setWidth, pfsOf_bit l (by omega)]
  simp [hi, show i < 52 by omega, show i < 62 by omega]

theorem pfsOf_ec (l : LP) : (pfsOf l >>> 52).setWidth 6 = l.ar.ec := by
  apply BitVec.eq_of_getLsbD_eq
  intro i hi
  rw [BitVec.getLsbD_setWidth, BitVec.getLsbD_ushiftRight, pfsOf_bit l (by omega), Nat.add_sub_cancel_left]
  simp [hi, show 52 + i < 62 by omega, BitVec.getLsbD_of_ge l.cfm (52 + i) (by omega)]

theorem pfsOf_cpl (l : LP) : (pfsOf l >>> 62).setWidth 2 = l.cpl := by
  apply BitVec.eq_of_getLsbD_eq
  intro i hi
  rw [BitVec.getLsbD_setWidth, BitVec.getLsbD_ushiftRight, pfsOf_bit l (by omega), Nat.add_sub_cancel_left]
  simp [hi, BitVec.getLsbD_of_ge l.cfm (62 + i) (by omega), BitVec.getLsbD_of_ge l.ar.ec (62 + i - 52) (by omega)]

/-- 43 R666: a return with the frame marker that the call saved gives the caller its frame back. -/
theorem popFrame_enterFrame {s : State} (hbof : s.lp.gr.bof < 96) (hsol : s.lp.sol ≤ s.lp.sof)
    (hfit : s.lp.gr.ndirty + s.lp.sof ≤ 96) : popFrame s.lp.sol s.lp.sof (enterFrame s)
      = .ok { enterFrame s with lp := { (enterFrame s).lp with gr := s.lp.gr } } := by
  have hdirty : (enterFrame s).lp.gr.ndirty = s.lp.gr.ndirty + s.lp.sol := rfl
  have hback : ((s.lp.gr.bof + s.lp.sol) % 96 + 96 - s.lp.sol) % 96 = s.lp.gr.bof := by omega
  have hgr : ({ (enterFrame s).lp.gr with
      bof := ((enterFrame s).lp.gr.bof + 96 - s.lp.sol) % 96, ndirty := (enterFrame s).lp.gr.ndirty - s.lp.sol } : GRFile)
      = s.lp.gr := by
    show ({ s.lp.gr with bof := ((s.lp.gr.bof + s.lp.sol) % 96 + 96 - s.lp.sol) % 96
                         ndirty := s.lp.gr.ndirty + s.lp.sol - s.lp.sol } : GRFile) = _
    rw [hback, Nat.add_sub_cancel]
  rw [popFrame_resident (by omega) hsol (by omega) (by omega), hgr]
  rfl

/-! ## The privilege level -/

theorem atLevel_bit (s : State) (l : BitVec 2) (i : Nat) : (s.atLevel l).lp.psr.getLsbD i =
    if 32 ≤ i ∧ i < 34 then (l.setWidth 64).getLsbD (i - 32) else s.lp.psr.getLsbD i :=
  setField_bit s.lp.psr (l.setWidth 64) (lo := 32) (len := 2) (by decide) i

theorem atLevel_cpl (s : State) (l : BitVec 2) : (s.atLevel l).lp.cpl = l :=
  setField_read s.lp.psr (lo := 32) l (by decide)

theorem oneShotBits_places : ∀ i < 64, oneShotBits.getLsbD i = true → i ∈ [37, 38, 39, 43, 45] := by decide

/-- The end of an instruction leaves the bits of the processor status but the slot number and the one-shot bits. -/
theorem advance_bit (s u : State) (e : Ending) {i : Nat} (h : i ∉ [37, 38, 39, 41, 42, 43, 45]) :
    (advance s u e).lp.psr.getLsbD i = u.lp.psr.getLsbD i := by
  by_cases hi : i < 64
  · have hone : oneShotBits.getLsbD i = false := Bool.eq_false_iff.2 fun hone => by
      have := oneShotBits_places i hi hone
      simp only [List.mem_cons] at h this
      tauto
    simp only [List.mem_cons, not_or] at h
    exact advance_psr_bit s u e i (by omega) hone hi
  · rw [BitVec.getLsbD_of_ge _ i (by omega), BitVec.getLsbD_of_ge _ i (by omega)]

theorem advance_cpl (s u : State) (e : Ending) : (advance s u e).lp.cpl = u.lp.cpl := by
  apply BitVec.eq_of_getLsbD_eq
  intro i hi
  have hbit : (advance s u e).lp.psr.getLsbD (32 + i) = u.lp.psr.getLsbD (32 + i) :=
    advance_bit s u e (by simp; omega)
  rw [LP.cpl, LP.cpl, BitVec.getLsbD_setWidth, BitVec.getLsbD_setWidth, BitVec.getLsbD_ushiftRight,
    BitVec.getLsbD_ushiftRight, hbit]

/-! ## The return -/

/-- The state of a return with the frame marker `c`, the frame below `n` locals and the epilog count of `AR.PFS`. -/
def State.returned (s : State) (c : BitVec 38) (n : Nat) : State :=
  s.noteRse.setLp { s.noteRse.lp with
    cfm := c, ar := { s.lp.ar with ec := (s.lp.ar.pfs >>> 52).setWidth 6 }
    gr := { s.lp.gr with bof := (s.lp.gr.bof + 96 - n) % 96, ndirty := s.lp.gr.ndirty - n } }

/-- A state at the previous privilege level, if that is the less privileged one. -/
def State.lowered (s : State) (p : BitVec 2) : State := if s.lp.cpl < p then s.atLevel p else s

theorem lowered_cpl (s : State) (p : BitVec 2) : (s.lowered p).lp.cpl = if s.lp.cpl < p then p else s.lp.cpl := by
  unfold State.lowered
  split
  · exact atLevel_cpl s p
  · rfl

theorem lowered_bit (s : State) (p : BitVec 2) {i : Nat} (h32 : i ≠ 32) (h33 : i ≠ 33) :
    (s.lowered p).lp.psr.getLsbD i = s.lp.psr.getLsbD i := by
  unfold State.lowered
  split
  · rw [atLevel_bit, if_neg (by omega)]
  · rfl

theorem lowered_only (s : State) (p : BitVec 2) :
    s.lowered p = { s with lp := { s.lp with psr := (s.lowered p).lp.psr } } := by
  unfold State.lowered
  split
  · rfl
  · rfl

section
variable {qp : BitVec 6} {b2 : BitVec 3} {s : State} {c : BitVec 38} {p : BitVec 2} {sol sof : Nat}

/-- 43 R666: what a return that needs no load ends in. -/
theorem branchRet_taken (hq : s.lp.readPr qp = true) (hc : c = s.lp.ar.pfs.setWidth 38)
    (hp : p = (s.lp.ar.pfs >>> 62).setWidth 2) (hsol : sol = c.toNat / 128 % 128) (hsof : sof = c.toNat % 128)
    (h96 : sof ≤ 96) (hle : sol ≤ sof) (hdirty : sol ≤ s.lp.gr.ndirty) (hfit : s.lp.gr.ndirty + sof ≤ 96 + sol)
    (hr : Reachable s (s.lp.br? b2)) : branchRet qp b2 s = .next (advance s
      (((s.returned c sol).lowered p).noteFlow .ret true (s.lp.br? b2))
      { target := some (s.lp.br? b2), lowered := decide (s.lp.cpl < p) }) := by
  have hpop : popFrame ({ s.lp with cfm := c } : LP).sol ({ s.lp with cfm := c } : LP).sof s.noteRse = .ok
      (s.noteRse.setGrFile { s.lp.gr with bof := (s.lp.gr.bof + 96 - sol) % 96, ndirty := s.lp.gr.ndirty - sol }) := by
    subst hsol hsof
    exact popFrame_resident (s := s.noteRse) h96 hle hdirty hfit
  have h36 : ((s.returned c sol).lowered p).lp.psrBit 36 = s.lp.psrBit 36 := lowered_bit _ p (by decide) (by decide)
  have hend (l : Bool) := retire_branch (u := ((s.returned c sol).lowered p).noteFlow .ret true (s.lp.br? b2)) (w := false)
    (l := l) hr h36 (by rw [lowered_only]; rfl)
  rw [branchRet, branchWith, if_pos hq, ← hend]
  unfold State.lowered
  subst hc hp
  dsimp only at hpop ⊢
  rw [hpop]
  by_cases hcpl : s.lp.cpl < (s.lp.ar.pfs >>> 62).setWidth 2
  · rw [decide_eq_true hcpl, if_pos (show (s.returned _ sol).lp.cpl < _ from hcpl)]
    simp only [ok_bind, if_pos hcpl]
    rfl
  · rw [decide_eq_false hcpl, if_neg (show ¬ (s.returned _ sol).lp.cpl < _ from hcpl)]
    simp only [ok_bind, if_neg hcpl]
    rfl

/-- Predicated off, a return is a branch that is not taken (43 R661). -/
theorem branchRet_off (hq : s.lp.readPr qp = false) (hu : Untrapped s) :
    ∃ t, branchRet qp b2 s = .next t ∧ t = { skipped s with lp := { (skipped s).lp with ev := t.lp.ev } } := by
  rw [branchRet, branchWith, hq, if_neg nofun]
  exact ⟨_, congrArg Host.Outcome.next (retire_fall false hu rfl rfl), rfl⟩

end

/-- Settles O32: the return by `branchRet_taken`, the frames of a call by `callee_gr`, and the frame that comes back. -/
theorem returns : Obligations.Returns := by
  refine ⟨fun o s c p hc hp => ⟨fun hq h96 hle hdirty hfit hr => ?_, fun hq hu => branchRet_off hq hu⟩,
    fun s t k hgr hcfm _ h96 hr hk => callee_gr hgr hcfm h96 hr hk,
    fun s hbof hsol hfit => ⟨popFrame_enterFrame hbof hsol hfit, pfsOf_cfm s.lp, pfsOf_ec s.lp, pfsOf_cpl s.lp⟩⟩
  have hret := branchRet_taken hq hc hp rfl rfl h96 hle hdirty hfit hr
  obtain ⟨hip, hri⟩ := advance_target s (((s.returned c (c.toNat / 128 % 128)).lowered p).noteFlow .ret true (s.lp.br? o.b2))
    { target := some (s.lp.br? o.b2), lowered := decide (s.lp.cpl < p) } rfl
  have honly := lowered_only (s.returned c (c.toNat / 128 % 128)) p
  refine ⟨_, hret, hip, hri, ?_, ?_, ?_, fun i hi => ?_, ?_, ?_⟩
  · show ((s.returned c _).lowered p).lp.cfm = c
    rw [honly]; rfl
  · show ((s.returned c _).lowered p).lp.ar = _
    rw [honly]; rfl
  · exact (advance_cpl s _ _).trans (lowered_cpl _ p)
  · simp only [List.mem_cons, not_or] at hi
    exact (advance_bit s _ _ (by simp only [List.mem_cons, not_or]; tauto)).trans (lowered_bit _ p hi.1 hi.2.1)
  · show ((s.returned c _).lowered p).lp.gr = _
    rw [honly]; rfl
  · rw [honly]; rfl

end Sys2Proof.Machine
end

