-- ==== Sys2Proof/Proofs/SystemBranches.lean ====
section
/-!
The system instructions of the B unit (43 R669 to R673): cover, clrrrb and bsw, what epc grants, and the return from an interruption
where no register has to be loaded.
-/

namespace Sys2Proof.Machine

/-! ## Frames, rename bases and banks -/

/-- 43 R670: clrrrb leaves the sizes of the frame. -/
theorem mkCfm_sizes (l : LP) : mkCfm l.sof l.sol l.sor 0 0 0 = l.cfm &&& 0x3FFFF#38 := by
  have hlow : (0x3FFFF#38).toNat = 2 ^ 18 - 1 := rfl
  apply BitVec.eq_of_toNat_eq
  rw [mkCfm_toNat (sof_lt l) (sol_lt l) (sor_lt l) (by decide) (by decide) (by decide), BitVec.toNat_and, hlow,
    Nat.and_two_pow_sub_one_eq_mod, LP.sof, LP.sol, LP.sor]
  omega

/-- 43 R670: clrrrb.pr leaves everything but the rename base of the predicates. -/
theorem mkCfm_without_rrbPr (l : LP) : mkCfm l.sof l.sol l.sor l.rrbGr l.rrbFr 0 = l.cfm &&& 0xFFFFFFFF#38 := by
  have hlow : (0xFFFFFFFF#38).toNat = 2 ^ 32 - 1 := rfl
  apply BitVec.eq_of_toNat_eq
  rw [mkCfm_toNat (sof_lt l) (sol_lt l) (sor_lt l) (rrbGr_lt l) (rrbFr_lt l) (by decide), BitVec.toNat_and, hlow,
    Nat.and_two_pow_sub_one_eq_mod, LP.sof, LP.sol, LP.sor, LP.rrbGr, LP.rrbFr]
  omega

/-- An instruction that is not predicated and takes an exception. -/
theorem always_raise {s : State} {x : Ans State} {e : Exc} (h : x = raise e) : always s x = .next (faultTo s e) := by
  rw [h]; rfl

theorem bankSwitch_effect {i : Instr} {one : Bool} {f : Word → Word} (he : ∀ s, exec i s = bankSwitch one s)
    (hf : ∀ w, setBit w 44 one = f w) :
    EffectAlways i (fun s => s.lp.cpl = 0#2) (fun s => s.setLp { s.lp with psr := f s.lp.psr }) := by
  obtain rfl : (fun w => setBit w 44 one) = f := funext hf
  refine effectAlways_of he (fun s h => ?_) (fun s => setBit_get s.lp.psr 44 36 one (by decide)) fun _ => rfl
  rw [State.atLevel0, decide_eq_true h]; rfl

theorem bankSwitch_privileged {s : State} (one : Bool) (h : s.lp.cpl ≠ 0#2) :
    bankSwitch one s = .next (faultTo s privilegedOperation) :=
  always_raise (by rw [State.atLevel0, decide_eq_false h]; rfl)

/-- 10 R53: `PSR.bn` says which bank of r16 to r31 is seen. -/
theorem gr_banked (l : LP) {r : BitVec 7} (h16 : 16 ≤ r.toNat) (h32 : r.toNat < 32) :
    l.gr? r = if l.psr.getLsbD 44 then l.gr.bank1.getD (r.toNat - 16) .zero else l.gr.bank0.getD (r.toNat - 16) .zero := by
  rw [LP.gr?, grPlace_bank h16 h32]; rfl

/-- Settles O33: the places of the format, and each effect as the words the rules name. -/
theorem framesRenameAndBanks : Obligations.FramesRenameAndBanks := by
  refine ⟨fun x => ⟨slotB8_encodes 14 (by rfl) x, slotB8_encodes 15 (by rfl) x, slotB8_encodes 16 (by rfl) x⟩, ?_, ?_, ?_,
    fun x => ⟨slotB8_encodes 18 (by rfl) x, slotB8_encodes 19 (by rfl) x⟩, ?_, ?_,
    fun s h => ⟨?_, ?_⟩, fun s r h16 h32 => gr_banked s.lp h16 h32⟩
  · exact effectAlways_of exec_cover (fun _ _ => rfl) (fun _ => rfl) fun _ => rfl
  · refine effectAlways_of exec_clrrrb (fun s _ => ?_) (fun _ => rfl) fun _ => rfl
    rw [← mkCfm_sizes]; rfl
  · refine effectAlways_of exec_clrrrbPr (fun s _ => ?_) (fun _ => rfl) fun _ => rfl
    rw [← mkCfm_without_rrbPr]; rfl
  · exact bankSwitch_effect (f := fun w => w &&& ~~~(1#64 <<< 44)) exec_bsw0 fun _ => if_neg nofun
  · exact bankSwitch_effect (f := fun w => w ||| (1#64 <<< 44)) exec_bsw1 fun _ => if_pos rfl
  · exact (exec_bsw0 s).trans (bankSwitch_privileged false h)
  · exact (exec_bsw1 s).trans (bankSwitch_privileged true h)

/-! ## Entering privileged code -/

theorem atLevel_psrBit (s : State) (l : BitVec 2) {i : Nat} (h32 : i ≠ 32) (h33 : i ≠ 33) :
    (s.atLevel l).lp.psrBit i = s.lp.psrBit i := by
  rw [LP.psrBit, atLevel_bit, if_neg (by omega)]; rfl

theorem epc_physical : EffectAlways .epc (fun s => s.lp.cpl ≤ (s.lp.ar.pfs >>> 62).setWidth 2 ∧ s.lp.psrBit 36 = false)
    (fun s => s.atLevel 0#2) := by
  refine effectAlways_of exec_epc (fun s h => ?_) (fun s => atLevel_psrBit s 0#2 (by decide) (by decide)) fun _ => rfl
  obtain ⟨hppl, hit⟩ := h
  dsimp only
  rw [decide_eq_false (BitVec.not_lt.2 hppl), hit]
  rfl

theorem epc_translated : EffectAlways .epc (fun s => s.lp.cpl ≤ (s.lp.ar.pfs >>> 62).setWidth 2 ∧ s.lp.psrBit 36 = true)
    (fun s => match Config.epcLevel (xlatContext s .fetch) s.lp.ip with
      | some l => if l < s.lp.cpl then s.atLevel l else s
      | none => s) := by
  refine effectAlways_of exec_epc (fun s h => ?_) (fun s => ?_) fun s => ?_
  · obtain ⟨hppl, hit⟩ := h
    dsimp only
    rw [decide_eq_false (BitVec.not_lt.2 hppl), hit]
    rfl
  · cases Config.epcLevel (xlatContext s .fetch) s.lp.ip with
    | none => rfl
    | some l =>
      dsimp only
      split
      · exact atLevel_psrBit s l (by decide) (by decide)
      · rfl
  · cases Config.epcLevel (xlatContext s .fetch) s.lp.ip with
    | none => rfl
    | some l =>
      dsimp only
      split
      · rfl
      · rfl

/-! ## The return from an interruption -/

theorem rfi_privileged {s : State} (h : s.lp.cpl ≠ 0#2) : exec .rfi s = .next (faultTo s privilegedOperation) := by
  rw [exec_rfi, returnFromInterruption, State.atLevel0, decide_eq_false h]; rfl

theorem rfi_reserved {s : State} (h0 : s.lp.cpl = 0#2) (h : s.lp.cr.ipsr &&& psrReserved ≠ 0#64) :
    exec .rfi s = .next (faultTo s reservedRegisterField) := by
  have hbad : ipsrValid s.lp.cr.ipsr = false := by rw [ipsrValid, decide_eq_false h]; rfl
  rw [exec_rfi, returnFromInterruption, State.atLevel0, decide_eq_true h0, hbad]; rfl

/-- A return to an implemented address ends in the state that was saved, on the frame that `restoreFrame` answers. -/
theorem rfi_returns {s u : State} (h0 : s.lp.cpl = 0#2) (hpsr : statusLegal s.lp.cr.ipsr = true)
    (hframe : restoreFrame s = .ok u) (hu : u = { s with lp := { s.lp with cfm := u.lp.cfm, gr := u.lp.gr, ev := u.lp.ev } })
    (hip : unimplementedIp { s with lp := { s.lp with psr := s.lp.cr.ipsr } } (s.lp.cr.iip &&& ~~~0xF#64) = false) :
    ∃ ev, exec .rfi s = .next { s with lp := { s.lp with
      psr := s.lp.cr.ipsr, ip := s.lp.cr.iip &&& ~~~0xF#64, lastIp := s.lp.ip, cfm := u.lp.cfm, gr := u.lp.gr, ev := ev } } := by
  have hvalid : ipsrValid s.lp.cr.ipsr = true := hpsr
  rw [← alignDown_4] at hip ⊢
  rw [exec_rfi, returnFromInterruption, State.atLevel0, decide_eq_true h0, hvalid, hframe, hu]
  refine ⟨_, congrArg Host.Outcome.next (if_neg ?_)⟩
  exact fun h => Bool.false_ne_true (hip.symm.trans h)

theorem restoreFrame_invalid {s : State} (h : s.lp.cr.ifs.getLsbD 63 = false) : restoreFrame s = .ok s :=
  if_neg (by rw [h]; nofun)

/-- 43 R671: the frame of a valid `CR.IFS` whose registers are in the physical file. -/
theorem restoreFrame_resident {s : State} {n : Nat} (hn : n = s.lp.cr.ifs.toNat % 128) (h : s.lp.cr.ifs.getLsbD 63 = true)
    (h96 : n ≤ 96) (hdirty : n ≤ s.lp.gr.ndirty) (hfit : s.lp.gr.ndirty ≤ 96) :
    restoreFrame s = .ok (s.noteRse.setLp { s.noteRse.lp with
      cfm := s.lp.cr.ifs.setWidth 38
      gr := { s.lp.gr with bof := (s.lp.gr.bof + 96 - n) % 96, ndirty := s.lp.gr.ndirty - n } }) := by
  have hpop := popFrame_resident (s := s.noteRse) h96 (le_refl n) hdirty (Nat.add_le_add_right hfit n)
  have hsof := sof_of_word s.lp s.lp.cr.ifs
  unfold restoreFrame
  dsimp only at hsof ⊢
  rw [if_pos h, hsof, ← hn, hpop]
  rfl

/-- Settles O34: epc in both modes, and rfi by `rfi_returns` on the frame that comes back. -/
theorem privilegedCodeAndReturn : Obligations.PrivilegedCodeAndReturn := by
  refine ⟨epc_physical, epc_translated, fun s h => ?_, fun s l => ⟨atLevel_cpl s l, rfl, fun i h32 h33 => ?_⟩,
    fun s => ⟨rfi_privileged, rfi_reserved, fun h0 hpsr hifs hip => ?_, fun n hn h0 hpsr hifs h96 hdirty hfit hip => ?_⟩⟩
  · exact (exec_epc s).trans (always_raise (by dsimp only; rw [decide_eq_true h]; rfl))
  · exact atLevel_psrBit s l h32 h33
  · obtain ⟨ev, he⟩ := rfi_returns h0 hpsr (restoreFrame_invalid hifs) rfl hip
    exact ⟨_, he, rfl⟩
  · obtain ⟨ev, he⟩ := rfi_returns h0 hpsr (restoreFrame_resident hn hifs h96 hdirty hfit) rfl hip
    exact ⟨_, he, rfl⟩

end Sys2Proof.Machine
end

