-- ==== Sys2Proof/Proofs/FloatArithmetic.lean ====
section
/-!
The rounding operations (43 R681, R686, R688; 60 R1301): each form is `fpArith` with its operation and its operands in their order.
-/

namespace Sys2Proof.Machine
open Sys2Proof.Config

/-- An instruction that ends as its effect says does nothing with its predicate 0 (30 R456). -/
theorem skips_of_end {i : Instr} {qp : BitVec 6} {b : State → Ans (State × Ending)}
    (he : ∀ s, exec i s = predicatedEnd qp s (b s)) : Skips i qp := by
  intro s hq hu
  rw [he, predicatedEnd, hq, if_neg nofun]
  exact congrArg Host.Outcome.next (retire_fall false hu rfl rfl)

/-- A rounding operation: its results with the traps disabled, its faults and traps, and predicated off. -/
theorem fpArith_rounds {op : FpOp} {prec : FpPrec} {n : Nat} {sf : BitVec 2} {qp : BitVec 6} {f1 a b c : BitVec 7} {i : Instr}
    (he : ∀ s, exec i s = fpArith op prec n sf qp f1 a b c s) :
    FpResults i op prec sf qp f1 a b c ∧ FpFaults i op prec sf qp f1 a b c ∧ Skips i qp :=
  ⟨fpArith_plain he, fpArith_fault he, skips_of_end he⟩

/-- Settles O35: each form is `fpArith` with its operation, its precision and its operands in their order. -/
theorem floatArithmetic : Obligations.FloatArithmetic := by
  refine ⟨fun o => ?_, fun o => ?_, fun o => ?_⟩
  · exact and3_rest (fpArith_rounds (exec_fma o)) <| and3_rest (fpArith_rounds (exec_fmaS o)) <|
      and3_rest (fpArith_rounds (exec_fmaD o)) <| and3_rest (fpArith_rounds (exec_fpma o)) <|
      and3_rest (fpArith_rounds (exec_fms o)) <| and3_rest (fpArith_rounds (exec_fmsS o)) <|
      and3_rest (fpArith_rounds (exec_fmsD o)) <| and3_rest (fpArith_rounds (exec_fpms o)) <|
      and3_rest (fpArith_rounds (exec_fnma o)) <| and3_rest (fpArith_rounds (exec_fnmaS o)) <|
      and3_rest (fpArith_rounds (exec_fnmaD o)) <| fpArith_rounds (exec_fpnma o)
  · exact and3_rest (fpArith_rounds (exec_fmin o)) <| and3_rest (fpArith_rounds (exec_fmax o)) <|
      and3_rest (fpArith_rounds (exec_famin o)) <| and3_rest (fpArith_rounds (exec_famax o)) <|
      and3_rest (fpArith_rounds (exec_fpmin o)) <| and3_rest (fpArith_rounds (exec_fpmax o)) <|
      and3_rest (fpArith_rounds (exec_fpamin o)) <| and3_rest (fpArith_rounds (exec_fpamax o)) <|
      and3_rest (fpArith_rounds (exec_fpcmpFrelCode0 o)) <| and3_rest (fpArith_rounds (exec_fpcmpFrelCode1 o)) <|
      and3_rest (fpArith_rounds (exec_fpcmpFrelCode2 o)) <| and3_rest (fpArith_rounds (exec_fpcmpFrelCode3 o)) <|
      and3_rest (fpArith_rounds (exec_fpcmpFrelCode4 o)) <| and3_rest (fpArith_rounds (exec_fpcmpFrelCode5 o)) <|
      and3_rest (fpArith_rounds (exec_fpcmpFrelCode6 o)) <| fpArith_rounds (exec_fpcmpFrelCode7 o)
  · exact and3_rest (fpArith_rounds (exec_fcvtFx o)) <| and3_rest (fpArith_rounds (exec_fpcvtFx o)) <|
      and3_rest (fpArith_rounds (exec_fcvtFxu o)) <| and3_rest (fpArith_rounds (exec_fpcvtFxu o)) <|
      and3_rest (fpArith_rounds (exec_fcvtFxTrunc o)) <| and3_rest (fpArith_rounds (exec_fpcvtFxTrunc o)) <|
      and3_rest (fpArith_rounds (exec_fcvtFxuTrunc o)) <| fpArith_rounds (exec_fpcvtFxuTrunc o)

end Sys2Proof.Machine
end

