-- ==== Sys2Proof/Proofs/FloatMoves.lean ====
section
/-!
The moves of bits between floating-point registers (43 R682, R687, R688): the model builds a register from sign, exponent and
64-bit significand, the statement from bit strings; the lemmas here take one form to the other.
-/

namespace Sys2Proof.Machine
open Sys2Proof.Config

/-! ## Registers as bit strings -/

theorem frSig_eq (x : FReg) : frSig x = significand x := BitVec.setWidth_eq_extractLsb' (by decide)

theorem sigFr_eq (w : Word) : sigFr w = integerFr w := rfl

/-- The singles of a significand are its halves. -/
theorem sigFr_append (l r : BitVec 32) : sigFr (l ++ r) = packedFr l r := by
  rw [sigFr_eq, integerFr, packedFr]
  have e := BitVec.append_assoc (x₁ := 0#1 ++ 0x1003E#17) (x₂ := l) (x₃ := r)
  rw [BitVec.cast_eq] at e
  exact e.symm

theorem shifted_or_field (l r : Word) : (l <<< 32) ||| field r 0 32 = l.setWidth 32 ++ r.setWidth 32 := by
  apply BitVec.eq_of_getLsbD_eq
  intro i hi
  rw [BitVec.getLsbD_or, BitVec.getLsbD_shiftLeft, field_bit _ _ (by decide), BitVec.getLsbD_append]
  by_cases h : i < 32
  · simp [h]
  · simp [h, hi, show i - 32 < 32 by omega]

theorem pairFr_eq (l r : Word) : pairFr l r = packedFr (l.setWidth 32) (r.setWidth 32) := by
  rw [pairFr, shifted_or_field, sigFr_append]

/-! ## Singles -/

theorem leftHalf_single (x : FReg) : (leftHalf x).setWidth 32 = leftSingle x := by
  apply BitVec.eq_of_getLsbD_eq
  intro i hi
  simp only [BitVec.getLsbD_setWidth, leftHalf, frSig, field_bit (h := show 32 ≤ 63 by decide), leftSingle, BitVec.getLsbD_extractLsb']
  simp [hi, show 32 + i < 64 by omega]

theorem rightHalf_single (x : FReg) : (rightHalf x).setWidth 32 = rightSingle x := by
  apply BitVec.eq_of_getLsbD_eq
  intro i hi
  simp only [BitVec.getLsbD_setWidth, rightHalf, frSig, field_bit (h := show 32 ≤ 63 by decide), rightSingle, BitVec.getLsbD_extractLsb']
  simp [hi, show i < 64 by omega]

theorem signMask_single (w : Word) : (signMask w).setWidth 32 = ((w.setWidth 32).extractLsb' 31 1).signExtend 32 := by
  have h : (w.setWidth 32).extractLsb' 31 1 = BitVec.ofBool (w.getLsbD 31) := by
    apply BitVec.eq_of_getLsbD_eq
    intro i hi
    obtain rfl : i = 0 := by omega
    simp
  rw [h, signMask]
  cases w.getLsbD 31 <;> decide

theorem flipSign_single (w : Word) : (flipSign w).setWidth 32 = w.setWidth 32 ^^^ 0x80000000#32 := BitVec.setWidth_xor

theorem ofNat_single (n : Nat) : (BitVec.ofNat 64 n).setWidth 32 = BitVec.ofNat 32 n := BitVec.setWidth_ofNat_of_le (by decide) n

/-! ## Merges -/

/-- The high `n` bits of one string before the low `m` bits of another. -/
theorem masked_merge {n m : Nat} (x y : BitVec (n + m)) :
    (x &&& (BitVec.allOnes n ++ 0#m)) ||| (y &&& ~~~(BitVec.allOnes n ++ 0#m)) = x.extractLsb' m n ++ y.extractLsb' 0 m := by
  apply BitVec.eq_of_getLsbD_eq
  intro i hi
  simp only [BitVec.getLsbD_or, BitVec.getLsbD_and, BitVec.getLsbD_not, BitVec.getLsbD_append, BitVec.getLsbD_extractLsb',
    BitVec.getLsbD_allOnes]
  by_cases h : i < m
  · simp [h, hi]
  · simp [h, hi, show i - m < n by omega, show m + (i - m) = i by omega]

theorem extractLsb'_not {w k n : Nat} (h : k + n ≤ w) (x : BitVec w) : (~~~x).extractLsb' k n = ~~~(x.extractLsb' k n) := by
  apply BitVec.eq_of_getLsbD_eq
  intro i hi
  simp [hi, show k + i < w by omega]

theorem single_sign_merge (x y : BitVec 32) :
    (x &&& 0x80000000#32) ||| (y &&& ~~~0x80000000#32) = x.extractLsb' 31 1 ++ y.extractLsb' 0 31 :=
  masked_merge (n := 1) (m := 31) x y

theorem single_exponent_merge (x y : BitVec 32) :
    (x &&& 0xFF800000#32) ||| (y &&& ~~~0xFF800000#32) = x.extractLsb' 23 9 ++ y.extractLsb' 0 23 :=
  masked_merge (n := 9) (m := 23) x y

/-- A merge of the singles of two significands with the same mask in both halves. -/
theorem fpmergeBits_eq (k : BitVec 32) (x y : Word) :
    fpmergeBits (k ++ k) x y
      = packedFr ((x.extractLsb' 32 32 &&& k) ||| (y.extractLsb' 32 32 &&& ~~~k))
          ((x.extractLsb' 0 32 &&& k) ||| (y.extractLsb' 0 32 &&& ~~~k)) := by
  have h : ((x &&& (k ++ k)) ||| (y &&& ~~~(k ++ k)) : Word)
      = ((x.extractLsb' 32 32 &&& k) ||| (y.extractLsb' 32 32 &&& ~~~k))
        ++ ((x.extractLsb' 0 32 &&& k) ||| (y.extractLsb' 0 32 &&& ~~~k)) := by
    apply BitVec.eq_of_getLsbD_eq
    intro i hi
    simp only [BitVec.getLsbD_or, BitVec.getLsbD_and, BitVec.getLsbD_not, BitVec.getLsbD_append, BitVec.getLsbD_extractLsb']
    by_cases h : i < 32
    · simp [h, hi]
    · simp [h, hi, show i - 32 < 32 by omega, show 32 + (i - 32) = i by omega]
  rw [← sigFr_append, fpmergeBits, h]

theorem frExp_eq (x : FReg) : frExp x = x.extractLsb' 64 17 := by
  apply BitVec.eq_of_getLsbD_eq
  intro i hi
  simp [frExp, hi]

theorem ofBool_frSign (x : FReg) : BitVec.ofBool (frSign x) = x.extractLsb' 81 1 := by
  apply BitVec.eq_of_getLsbD_eq
  intro i hi
  obtain rfl : i = 0 := by omega
  simp [frSign]

theorem mkFr_low (b : Bool) (y : FReg) : mkFr b (frExp y) (frSig y) = BitVec.ofBool b ++ y.extractLsb' 0 81 := by
  have h : y.extractLsb' 64 17 ++ y.extractLsb' 0 64 = y.extractLsb' 0 81 :=
    BitVec.extractLsb'_append_extractLsb'_eq_extractLsb' (by decide)
  rw [mkFr, frExp_eq, frSig_eq, significand, ← h]
  exact BitVec.append_assoc.trans (BitVec.cast_eq ..)

theorem fmergeS_eq (x y : FReg) : fmergeS x y = x.extractLsb' 81 1 ++ y.extractLsb' 0 81 := by
  rw [fmergeS, mkFr_low, ofBool_frSign]

theorem fmergeNs_eq (x y : FReg) : fmergeNs x y = ~~~(x.extractLsb' 81 1) ++ y.extractLsb' 0 81 := by
  rw [fmergeNs, mkFr_low, ← ofBool_frSign, BitVec.not_ofBool]

theorem fmergeSe_eq (x y : FReg) : fmergeSe x y = x.extractLsb' 64 18 ++ y.extractLsb' 0 64 := by
  have h : x.extractLsb' 81 1 ++ x.extractLsb' 64 17 = x.extractLsb' 64 18 :=
    BitVec.extractLsb'_append_extractLsb'_eq_extractLsb' (by decide)
  rw [fmergeSe, mkFr, ofBool_frSign, frExp_eq, frSig_eq, significand, h]

theorem left_of_frSig (x : FReg) : (frSig x).extractLsb' 32 32 = leftSingle x := by
  rw [frSig_eq, significand, leftSingle, BitVec.extractLsb'_extractLsb'_of_le (by decide)]

theorem right_of_frSig (x : FReg) : (frSig x).extractLsb' 0 32 = rightSingle x := by
  rw [frSig_eq, significand, rightSingle, BitVec.extractLsb'_extractLsb'_of_le (by decide)]

theorem fpmergeS_eq (x y : FReg) :
    fpmergeS x y = packedFr ((leftSingle x).extractLsb' 31 1 ++ (leftSingle y).extractLsb' 0 31)
      ((rightSingle x).extractLsb' 31 1 ++ (rightSingle y).extractLsb' 0 31) := by
  have e := fpmergeBits_eq 0x80000000#32 (frSig x) (frSig y)
  rwa [single_sign_merge, single_sign_merge, left_of_frSig, left_of_frSig, right_of_frSig, right_of_frSig] at e

theorem fpmergeNs_eq (x y : FReg) :
    fpmergeNs x y = packedFr (~~~((leftSingle x).extractLsb' 31 1) ++ (leftSingle y).extractLsb' 0 31)
      (~~~((rightSingle x).extractLsb' 31 1) ++ (rightSingle y).extractLsb' 0 31) := by
  have e := fpmergeBits_eq 0x80000000#32 (~~~frSig x) (frSig y)
  rwa [single_sign_merge, single_sign_merge, extractLsb'_not (by decide), extractLsb'_not (by decide),
    extractLsb'_not (by decide), extractLsb'_not (by decide),
    left_of_frSig, left_of_frSig, right_of_frSig, right_of_frSig] at e

theorem fpmergeSe_eq (x y : FReg) :
    fpmergeSe x y = packedFr ((leftSingle x).extractLsb' 23 9 ++ (leftSingle y).extractLsb' 0 23)
      ((rightSingle x).extractLsb' 23 9 ++ (rightSingle y).extractLsb' 0 23) := by
  have e := fpmergeBits_eq 0xFF800000#32 (frSig x) (frSig y)
  rwa [single_exponent_merge, single_exponent_merge, left_of_frSig, left_of_frSig, right_of_frSig, right_of_frSig] at e

/-! ## The significand arithmetic of xma -/

theorem xmaValue_highUnsigned_toNat (a b c : Word) :
    (xmaValue .highUnsigned a b c).toNat = (a.toNat * b.toNat + c.toNat) / 2 ^ 64 := by
  have hab : a.toNat * b.toNat ≤ (2 ^ 64 - 1) * (2 ^ 64 - 1) := Nat.mul_le_mul (by omega) (by omega)
  rw [xmaValue, BitVec.toNat_ofNat]
  exact Nat.mod_eq_of_lt (by omega)

theorem toInt_ofInt_high (a b c : Word) :
    (BitVec.ofInt 64 ((a.toInt * b.toInt + c.toInt) / 2 ^ 64)).toInt = (a.toInt * b.toInt + c.toInt) / 2 ^ 64 := by
  have ha : |a.toInt| ≤ 2 ^ 63 := abs_le.mpr ⟨by have := a.le_toInt; omega, by have := a.toInt_lt; omega⟩
  have hb : |b.toInt| ≤ 2 ^ 63 := abs_le.mpr ⟨by have := b.le_toInt; omega, by have := b.toInt_lt; omega⟩
  have hc := c.toInt_lt
  have hc' := c.le_toInt
  obtain ⟨hl, hu⟩ := abs_le.mp ((abs_mul a.toInt b.toInt).trans_le (mul_le_mul ha hb (abs_nonneg _) (by decide)))
  rw [BitVec.toInt_ofInt]
  exact Int.bmod_eq_of_le (by omega) (by omega)

theorem xmaValue_high (a b c : Word) :
    (xmaValue .high a b c).toInt = (a.toInt * b.toInt + c.toInt) / 2 ^ 64
    ∨ xmaValue .high a b c = BitVec.ofInt 64 ((a.toInt * b.toInt + (c.toNat : Int)) / 2 ^ 64) := by
  rw [xmaValue]
  cases xmaAddendSigned with
  | true => exact .inl (toInt_ofInt_high a b c)
  | false => exact .inr rfl

/-! ## The forms -/

theorem fpMove_moves {o : OpF9} {i : Instr} {f g : FReg → FReg → FReg} (he : ∀ s, exec i s = fpMove o f s)
    (hf : ∀ x y, f x y = g x y) : FpMoves i o.qp o.f1 o.f2 o.f3 0#7 (fun x y _ => g x y) :=
  fpMove3_effect he fun x y _ => hf x y

/-- A permutation, from the left and the right single that it packs. -/
theorem fpMove_packs {o : OpF9} {i : Instr} {l r : FReg → FReg → Word} {a b : FReg → FReg → BitVec 32}
    (he : ∀ s, exec i s = fpMove o (fun x y => pairFr (l x y) (r x y)) s) (hl : ∀ x y, (l x y).setWidth 32 = a x y)
    (hr : ∀ x y, (r x y).setWidth 32 = b x y) : FpMoves i o.qp o.f1 o.f2 o.f3 0#7 (fun x y _ => packedFr (a x y) (b x y)) :=
  fpMove_moves he fun x y => by rw [pairFr_eq, hl, hr]

theorem fpMove_logic {o : OpF9} {i : Instr} {g : Word → Word → Word} (he : ∀ s, exec i s = fpMove o (fpLogic g) s) :
    FpMoves i o.qp o.f1 o.f2 o.f3 0#7 (fun x y _ => integerFr (g (significand x) (significand y))) :=
  fpMove_moves he fun x y => by rw [fpLogic, sigFr_eq, frSig_eq, frSig_eq]

theorem fcvtXf_eq (x : FReg) :
    fcvtXf x = if x.getLsbD 63 then 1#1 ++ 0x1003E#17 ++ (-(significand x)) else integerFr (significand x) := by
  have h : (frSig x).getLsbD 63 = x.getLsbD 63 := by simp [frSig]
  rw [fcvtXf, h, frSig_eq]
  rfl

/-- Settles O36: each form by the bit string that its function is. -/
theorem floatMoves : Obligations.FloatMoves := by
  refine ⟨fun o => ⟨fpMove_moves (exec_fmergeS o) fmergeS_eq, fpMove_moves (exec_fmergeNs o) fmergeNs_eq,
      fpMove_moves (exec_fmergeSe o) fmergeSe_eq,
      fpMove_packs (exec_fmixLr o) (fun x _ => leftHalf_single x) (fun _ y => rightHalf_single y),
      fpMove_packs (exec_fmixR o) (fun x _ => rightHalf_single x) (fun _ y => rightHalf_single y),
      fpMove_packs (exec_fmixL o) (fun x _ => leftHalf_single x) (fun _ y => leftHalf_single y),
      fpMove_packs (exec_fsxtR o) (fun x _ => by rw [signMask_single, rightHalf_single]) (fun _ y => rightHalf_single y),
      fpMove_packs (exec_fsxtL o) (fun x _ => by rw [signMask_single, leftHalf_single]) (fun _ y => leftHalf_single y),
      fpMove_packs (exec_fpack o) (fun _ _ => ofNat_single _) (fun _ _ => ofNat_single _),
      fpMove_packs (exec_fswap o) (fun _ y => rightHalf_single y) (fun x _ => leftHalf_single x),
      fpMove_packs (exec_fswapNl o) (fun _ y => by rw [flipSign_single, rightHalf_single]) (fun x _ => leftHalf_single x),
      fpMove_packs (exec_fswapNr o) (fun _ y => rightHalf_single y) (fun x _ => by rw [flipSign_single, leftHalf_single]),
      fpMove_logic (g := fun a b => a &&& b) (exec_fand o), fpMove_logic (g := fun a b => a &&& ~~~b) (exec_fandcm o),
      fpMove_logic (g := fun a b => a ||| b) (exec_fOr o), fpMove_logic (g := fun a b => a ^^^ b) (exec_fxor o),
      fpMove_moves (exec_fpmergeS o) fpmergeS_eq, fpMove_moves (exec_fpmergeNs o) fpmergeNs_eq,
      fpMove_moves (exec_fpmergeSe o) fpmergeSe_eq⟩,
    fun o => fpMove3_effect (exec_fcvtXf o) fun x _ _ => fcvtXf_eq x,
    fun o => fpMove3_effect (exec_xma o) fun x y z => by rw [sigFr_eq, frSig_eq, frSig_eq, frSig_eq],
    fun o => fpMove3_effect (exec_fselect o) fun x y z => by rw [sigFr_eq, frSig_eq, frSig_eq, frSig_eq],
    fun a b c => ⟨rfl, xmaValue_highUnsigned_toNat a b c, xmaValue_high a b c⟩⟩

end Sys2Proof.Machine
end

