-- ==== Sys2Proof/Proofs/FloatCompares.lean ====
section
/-!
The floating-point compares, the class test and the approximations (43 R683, R684; 30 R456; 40 R520).
-/

namespace Sys2Proof.Machine
open Sys2Proof.Config

/-! ## Approximations -/

/-- An approximation ends by writing a register and a predicate of a state with the processor status it began with. -/
theorem approximation_ends {s u : State} (f1 : BitVec 7) (v : FReg) (p2 : BitVec 6) (b : Bool) (hu : Untrapped s)
    (hpsr : u.lp.psr = s.lp.psr) (hp : u.params = s.params) :
    finish s (.ok (retire s ((u.setFr f1 v).setLp ((u.setFr f1 v).lp.setPr p2 b)) {}))
      = .next (fallThrough s ((u.setFr f1 v).setLp ((u.setFr f1 v).lp.setPr p2 b))) := by
  refine finish_fall hu ?_ hp
  have h := setFr_psrBit u f1 v 36 (by decide)
  simp only [LP.psrBit, setLp_lp, setPr_psr] at h ⊢
  rw [h, hpsr]

theorem approximate_completes {op : FpOp} {n : Nat} {sf : BitVec 2} {qp p2 : BitVec 6} {f1 a b : BitVec 7} {i : Instr}
    (he : ∀ s, exec i s = approximate op n sf qp p2 f1 a b s) : ApproximationCompletes i op n sf qp p2 f1 a b := by
  intro s hq h1 ha hb hoff hu
  rw [he, approximate, if_pos hq, readFr3_ok h1 ha hb (frEnabled_zero _)]
  simp only [ok_bind, fpApproximated]
  by_cases hn : s.lp.fr? a = natVal ∨ s.lp.fr? b = natVal
  · simp only [if_pos hn, decide_eq_true hn, Bool.not_true, Bool.false_and]
    exact approximation_ends f1 natVal p2 false hu rfl rfl
  · simp only [if_neg hn, decide_eq_false hn, Bool.not_false, Bool.true_and]
    rw [recordFlags_quiet (s := s.noteFpOps n) hoff]
    exact approximation_ends f1 _ p2 _ hu rfl rfl

theorem approximate_off {op : FpOp} {n : Nat} {sf : BitVec 2} {qp p2 : BitVec 6} {f1 a b : BitVec 7} {i : Instr}
    (he : ∀ s, exec i s = approximate op n sf qp p2 f1 a b s) : ApproximationOff i qp p2 := by
  intro s hq hu
  rw [he, approximate, if_neg (by simp [hq]), setPr_of (l := s.lp) p2 false rfl rfl]
  exact ⟨_, congrArg Host.Outcome.next (retire_fall false hu rfl rfl), rfl, rfl⟩

theorem approximate_written {op : FpOp} {n : Nat} {sf : BitVec 2} {qp p2 : BitVec 6} {f1 a b : BitVec 7} {i : Instr}
    (he : ∀ s, exec i s = approximate op n sf qp p2 f1 a b s) :
    Approximates i op sf qp p2 f1 a b ∧ ApproximationOff i qp p2 :=
  ⟨approximate_plain he, approximate_off he⟩

/-! ## Compares and class tests -/

/-- A compare of type `unc` whose predicate is 1 writes as one of type `none`. -/
theorem writeCompare_typeUnc (ta : BitVec 1) (s : State) (p1 p2 : BitVec 6) (rel nat : Bool) :
    writeCompare (if typeUnc ta then .unc else .none) s p1 p2 rel nat = writeCompare .none s p1 p2 rel nat := by
  split <;> rfl

/-- The class test reads its operand and consumes one value of the free function. -/
theorem fclassM_completes {o : OpF5} {s : State} (hq : s.lp.readPr o.qp = true) (hp : o.p1 ≠ o.p2)
    (h2 : s.lp.frEnabled o.f2 = true) (hu : Untrapped s) :
    exec (.fclassM o) s = .next (fallThrough s (writeCompare .none { s with free := s.free + 1 } o.p1 o.p2
      (fclassHit s.free (s.lp.fr? o.f2)) (decide (s.lp.fr? o.f2 = natVal)))) := by
  rw [exec_fclassM, ← writeCompare_typeUnc o.ta]
  refine compare_completes hq hp ?_ rfl rfl hu
  rw [readFr_ok h2]
  rfl

theorem compare_equal_destinations {ct : CType} {qp p1 p2 : BitVec 6} {s : State} {x : Ans (Bool × Bool × State)}
    (hq : s.lp.readPr qp = true) (hp : p1 = p2) : compare ct qp p1 p2 s x = .next (faultTo s illegalOperation) := by
  obtain ⟨-, illegal, -⟩ := compare_cases (ct := ct) (qp := qp) (p1 := p1) (p2 := p2) (s := s) (x := x) (rel := false)
    (nat := false) False.elim
  exact illegal (.inl hq) hp

theorem fclassM_illegal {o : OpF5} {s : State} (hq : s.lp.readPr o.qp = true) (hp : o.p1 = o.p2) :
    exec (.fclassM o) s = .next (faultTo s illegalOperation) :=
  (exec_fclassM o s).trans (compare_equal_destinations hq hp)

/-- Settles O37: the approximations with their predicate 1 and 0, the compare, and the class test. -/
theorem floatComparesAndApproximations : Obligations.FloatComparesAndApproximations :=
  ⟨fun o => and2_rest (approximate_written (exec_frcpa o)) (approximate_written (exec_fprcpa o)),
    fun o => and2_rest (approximate_written (exec_frsqrta o)) (approximate_written (exec_fprsqrta o)),
    fun o => fpCompareOp_cases (exec_fcmp o),
    fun _ s => ⟨fun hq hp h2 hu => ⟨_, fclassM_completes hq hp h2 hu⟩, fclassM_illegal,
      fun hq hu => compare_off (s := s) _ hq hu⟩⟩

/-! ## The whole next state -/

/-- A compare ends by writing two predicates of a state with the processor status it began with. -/
theorem compare_ends {s u : State} (p1 p2 : BitVec 6) (rel nat : Bool) (hu : Untrapped s)
    (hpsr : u.lp.psrBit 36 = s.lp.psrBit 36) (hp : u.params = s.params) :
    finish s (.ok (retire s (writeCompare .none u p1 p2 rel nat) {})) = .next (fallThrough s (writeCompare .none u p1 p2 rel nat)) :=
  finish_fall hu ((writeCompare_psr36 ..).trans hpsr) ((writeCompare_params ..).trans hp)

theorem fcmp_completes {o : OpF4} {s : State} (hq : s.lp.readPr o.qp = true) (hp : o.p1 ≠ o.p2)
    (h2 : s.lp.frEnabled o.f2 = true) (h3 : s.lp.frEnabled o.f3 = true) (hoff : FpTrapsOff s) (hu : Untrapped s) :
    exec (.fcmp o) s = .next (fallThrough s (fpCompared o s)) := by
  rw [exec_fcmp, fpCompareOp, if_pos hq, decide_eq_true hp, require_true, readFr_ok h2, readFr_ok h3, fpCompared]
  simp only [ok_bind]
  by_cases hn : s.lp.fr? o.f2 = natVal ∨ s.lp.fr? o.f3 = natVal
  · rw [if_pos hn, if_pos hn]
    exact compare_ends o.p1 o.p2 false true hu rfl rfl
  · rw [if_neg hn, if_neg hn, recordFlags_quiet (s := s.noteFpOps 1) hoff]
    exact compare_ends o.p1 o.p2 _ false hu rfl rfl

/-- A class test writes as a compare whose NaT input is its NaTVal operand. -/
theorem fpClassed_eq (o : OpF5) (s : State) :
    fpClassed o s = writeCompare .none { s with free := s.free + 1 } o.p1 o.p2
      (fclassHit s.free (s.lp.fr? o.f2)) (decide (s.lp.fr? o.f2 = natVal)) := by
  by_cases hn : s.lp.fr? o.f2 = natVal
  · rw [fpClassed, if_pos hn, decide_eq_true hn]; rfl
  · rw [fpClassed, if_neg hn, decide_eq_false hn]; rfl

/-- Settles O59: the whole next state of `fcmp` by cases on NaTVal, and that of `fclass.m` as a compare. -/
theorem floatComparesComplete : Obligations.FloatComparesComplete :=
  ⟨fun _ _ => fcmp_completes, fun o s hq hp h2 hu => fpClassed_eq o s ▸ fclassM_completes hq hp h2 hu⟩

/-- Settles O60: the four forms are `approximate` with their operation. -/
theorem floatApproximationsComplete : Obligations.FloatApproximationsComplete :=
  ⟨fun o => ⟨approximate_completes (exec_frcpa o), approximate_completes (exec_fprcpa o)⟩,
    fun o => ⟨approximate_completes (exec_frsqrta o), approximate_completes (exec_fprsqrta o)⟩⟩

end Sys2Proof.Machine
end

