-- ==== Sys2Proof/Proofs/FloatStatus.lean ====
section
/-!
fsetc, fclrf and fchkf (43 R689), and the laws of the fields of the floating-point status register (10 R80).
-/

namespace Sys2Proof.Machine

/-- What stands beside a field is kept. -/
theorem setField_beside (w v : Word) {lo len k n : Nat} (h : lo + len ≤ 63) (hd : lo + len ≤ k ∨ k + n ≤ lo) :
    ((setField w lo len v) >>> k).setWidth n = (w >>> k).setWidth n := by
  apply BitVec.eq_of_getLsbD_eq
  intro i hi
  simp only [BitVec.getLsbD_setWidth, BitVec.getLsbD_ushiftRight, setField_bit w v h]
  rw [if_neg (by omega)]

/-! ## The fields of the status register -/

theorem sfControls_setSfControls (w : Word) (sf tf : BitVec 2) (c : BitVec 7) :
    sfControls (setSfControls w sf c) tf = if tf = sf then c else sfControls w tf := by
  have hs := sf.isLt
  split
  next h => rw [h]; exact setField_read w c (by omega)
  next h =>
    have hne : tf.toNat ≠ sf.toNat := fun e => h (BitVec.eq_of_toNat_eq e)
    exact setField_beside w _ (by omega) (by omega)

theorem sfFlags_setSfFlags (w : Word) (sf tf : BitVec 2) (f : BitVec 6) :
    sfFlags (setSfFlags w sf f) tf = if tf = sf then f else sfFlags w tf := by
  have hs := sf.isLt
  split
  next h => rw [h]; exact setField_read w f (by omega)
  next h =>
    have hne : tf.toNat ≠ sf.toNat := fun e => h (BitVec.eq_of_toNat_eq e)
    exact setField_beside w _ (by omega) (by omega)

theorem sfFlags_setSfControls (w : Word) (sf tf : BitVec 2) (c : BitVec 7) :
    sfFlags (setSfControls w sf c) tf = sfFlags w tf := by
  have hs := sf.isLt
  exact setField_beside w _ (by omega) (by omega)

theorem sfControls_setSfFlags (w : Word) (sf tf : BitVec 2) (f : BitVec 6) :
    sfControls (setSfFlags w sf f) tf = sfControls w tf := by
  have hs := sf.isLt
  exact setField_beside w _ (by omega) (by omega)

/-- The trap disables and the bits above the four fields belong to no field. -/
theorem setSf_outside (w : Word) (sf : BitVec 2) (c : BitVec 7) (f : BitVec 6) {i : Nat} (h : i < 6 ∨ 58 ≤ i) :
    (setSfControls w sf c).getLsbD i = w.getLsbD i ∧ (setSfFlags w sf f).getLsbD i = w.getLsbD i := by
  have hs := sf.isLt
  refine ⟨?_, ?_⟩
  · exact (setField_bit w _ (by omega) i).trans (if_neg (by omega))
  · exact (setField_bit w _ (by omega) i).trans (if_neg (by omega))

/-! ## Failing flags -/

theorem and_not_ne_zero_iff {n : Nat} (x y : BitVec n) :
    x &&& ~~~y ≠ 0#n ↔ ∃ i, x.getLsbD i = true ∧ y.getLsbD i = false := by
  have bit (i : Nat) (hi : i < n) : (x &&& ~~~y).getLsbD i = (x.getLsbD i && !y.getLsbD i) := by
    rw [BitVec.getLsbD_and, BitVec.getLsbD_not, decide_eq_true hi, Bool.true_and]
  refine ⟨fun h => ?_, fun ⟨i, hx, hy⟩ h => ?_⟩
  · by_contra hc
    refine h (BitVec.eq_of_getLsbD_eq fun i hi => ?_)
    rw [bit i hi, BitVec.getLsbD_zero, Bool.and_eq_false_imp, Bool.not_eq_false']
    exact fun hx => (Bool.not_eq_false _).mp fun hy => hc ⟨i, hx, hy⟩
  · have e := bit i (BitVec.lt_of_getLsbD hx)
    rw [h, hx, hy, BitVec.getLsbD_zero] at e
    exact absurd e nofun

theorem flagsFail_iff (w : Word) (sf : BitVec 2) :
    flagsFail w sf = true ↔ ∃ i, (sfFlags w sf).getLsbD i = true
      ∧ (w.getLsbD i = false ∨ (sfFlags w 0#2).getLsbD i = false) := by
  have low {i : Nat} (h : (sfFlags w sf).getLsbD i = true) : (w.setWidth 6).getLsbD i = w.getLsbD i := by
    simp [BitVec.lt_of_getLsbD h]
  rw [flagsFail, Bool.or_eq_true, decide_eq_true_eq, decide_eq_true_eq, and_not_ne_zero_iff, and_not_ne_zero_iff]
  refine ⟨?_, ?_⟩
  · rintro (⟨i, hi, h⟩ | ⟨i, hi, h⟩)
    · exact ⟨i, hi, .inl (low hi ▸ h)⟩
    · exact ⟨i, hi, .inr h⟩
  · rintro ⟨i, hi, h | h⟩
    · exact .inl ⟨i, hi, (low hi).trans h⟩
    · exact .inr ⟨i, hi, h⟩

/-- Settles O38: the shapes of the three instructions, and the laws of the fields they read and write. -/
theorem floatStatus : Obligations.FloatStatus :=
  ⟨fun o => effect_of (exec_fsetc o) (fun _ _ => rfl) (fun _ => rfl) (fun _ => rfl),
    fun o => effect_of (exec_fclrf o) (fun _ _ => rfl) (fun _ => rfl) (fun _ => rfl),
    fun o => checks_of (exec_fchkf o) (fun _ _ => rfl) (fun _ => ⟨rfl, rfl⟩),
    flagsFail_iff,
    fun w sf tf c f => ⟨sfControls_setSfControls w sf tf c, sfFlags_setSfControls w sf tf c, sfFlags_setSfFlags w sf tf f,
      sfControls_setSfFlags w sf tf f, fun _ h => setSf_outside w sf c f h⟩⟩

end Sys2Proof.Machine
end

