-- ==== Sys2Proof/Proofs/PerformanceCounters.lean ====
section
/-!
The counters of the performance monitor in a clock (44 R702 to R704, R792; 11 R123): what one counter does, what all of a thread do,
and how large the value of an event is.
-/

namespace Sys2Proof.Machine

/-! ## When a counter counts -/

/-- 11 R123 with its fields at their places. -/
theorem monitorEnable_iff (psr : LP) (p : PMU) (i : Nat) : monitorEnable psr p i = true ↔ (pmcAt p 0).getLsbD 0 = false
    ∧ (pmcAt p i).getLsbD psr.cpl.toNat = true ∧ ((4 ≤ i ∧ i ≤ 15) ∨ i = 40 → (pmcAt p i >>> 24) &&& 3#64 = 2#64)
    ∧ (if (pmcAt p i).getLsbD (if i = 37 then 4 else 6) then psr.psr.getLsbD 21 else psr.psr.getLsbD 2) = true := by
  have level : (pmcPlm (pmcAt p i)).getLsbD psr.cpl.toNat = (pmcAt p i).getLsbD psr.cpl.toNat := by
    rw [pmcPlm, BitVec.getLsbD_setWidth, decide_eq_true psr.cpl.isLt, Bool.true_and]
  have mode : (!hasIsm i || pmcIsm (pmcAt p i) == 2) = true
      ↔ ((4 ≤ i ∧ i ≤ 15) ∨ i = 40 → (pmcAt p i >>> 24) &&& 3#64 = 2#64) := by
    rw [hasIsm, Bool.or_eq_true, Bool.not_eq_true', decide_eq_false_iff_not, beq_iff_eq, ← imp_iff_not_or]
    exact imp_congr_right fun _ => BitVec.toNat_inj (y := 2#64)
  rw [monitorEnable, monitorOn, Bool.and_eq_true, Bool.and_eq_true, Bool.and_eq_true, level, mode, Bool.not_eq_true', and_assoc]
  rfl

theorem monitorEnable_frozen {p : PMU} (h : frozen p = true) (psr : LP) (i : Nat) : monitorEnable psr p i = false := by
  rw [monitorEnable, h]
  rfl

section
variable {f : StepFacts} {isBg : Bool} {psr : LP} {p : PMU} {i : Nat}

theorem counting_frozen (h : frozen p = true) : counting f isBg psr p i = false := by
  rw [counting, monitorEnable_frozen h]
  rfl

/-- Away from the event of the privilege changes, a counter is enabled under the status of its thread. -/
theorem counting_iff (h : pmcEs (pmcAt p i) ≠ 0x13) : counting f isBg psr p i = true ↔ monitorEnable psr p i = true
    ∧ (isBg = true → i ≤ 9) ∧ (psr.thr.halted = true → pmcEs (pmcAt p i) = 0x18) := by
  have level : countingLevel f isBg psr p i = psr := by
    rw [countingLevel, decide_eq_false h]
    rfl
  rw [counting, level, Bool.and_eq_true, Bool.and_eq_true, Bool.or_eq_true, Bool.or_eq_true, Bool.not_eq_true',
    Bool.not_eq_true', decide_eq_true_eq, beq_iff_eq, ← Bool.not_eq_true, ← Bool.not_eq_true, ← imp_iff_not_or,
    ← imp_iff_not_or, and_assoc]

end

/-! ## One counter -/

/-- The overflow bit of a counter in PMC0, and the freeze bit with it where the counter asks for it. -/
def overflowBits (p : PMU) (i : Nat) : Word := (1#64 <<< i) ||| (if pmcOi (pmcAt p i) then 1#64 else 0#64)

theorem overflowBits_own (p : PMU) {i : Nat} (hi : i ≤ 15) : (overflowBits p i).getLsbD i = true := by
  have own : (1#64 <<< i).getLsbD i = true := by
    rw [BitVec.getLsbD_shiftLeft, decide_eq_true (by omega), Nat.sub_self, decide_eq_false (Nat.lt_irrefl i)]
    rfl
  rw [overflowBits, BitVec.getLsbD_or, own, Bool.true_or]

theorem overflowBits_freeze {p : PMU} {i : Nat} (h : pmcOi (pmcAt p i) = true) : (overflowBits p i).getLsbD 0 = true := by
  rw [overflowBits, if_pos h, BitVec.getLsbD_or]
  exact Bool.or_true _

/-- What a counter that counts adds in a clock; any number where a restriction excludes its programming (93 U10). -/
def clockIncrement (f : StepFacts) (c : Captures) (bg : LP) (isBg : Bool) (p : PMU) (i : Nat) : Nat :=
  if restricted f.featMt p i then (Config.freeWord (f.n + 200 + i + (if isBg then 16 else 0))).toNat % 2 ^ 47
  else increment p i (counterValue f c bg isBg p i)

section
variable {f : StepFacts} {c : Captures} {bg psr : LP} {isBg : Bool} {p : PMU} {i : Nat}

theorem clockIncrement_unrestricted (h : restricted f.featMt p i = false) :
    clockIncrement f c bg isBg p i = increment p i (counterValue f c bg isBg p i) := by
  rw [clockIncrement, h]
  exact if_neg Bool.false_ne_true

theorem countOne_idle (h : counting f isBg psr p i = false) (acc : Vector Word 64 × Word) :
    countOne f c bg isBg psr p acc i = acc := by
  rw [countOne, h]
  exact if_neg Bool.false_ne_true

theorem countOne_counting (h : counting f isBg psr p i = true) (acc : Vector Word 64 × Word) :
    countOne f c bg isBg psr p acc i = if clockIncrement f c bg isBg p i = 0 then acc
      else (acc.1.setIfInBounds i (BitVec.ofNat 64 (((pmdAt p i).toNat + clockIncrement f c bg isBg p i) % 2 ^ 47)),
        if 2 ^ 47 ≤ (pmdAt p i).toNat + clockIncrement f c bg isBg p i then acc.2 ||| overflowBits p i else acc.2) := by
  rw [countOne, if_pos h, overflowBits, ← BitVec.or_assoc]
  rfl

/-- All one counter can do: nothing, or a new count with more bits in PMC0. -/
theorem countOne_cases (f : StepFacts) (c : Captures) (bg : LP) (isBg : Bool) (psr : LP) (p : PMU) (i : Nat)
    (acc : Vector Word 64 × Word) : countOne f c bg isBg psr p acc i = acc
      ∨ ∃ v m, countOne f c bg isBg psr p acc i = (acc.1.setIfInBounds i v, acc.2 ||| m) := by
  by_cases hc : counting f isBg psr p i = true
  · rw [countOne_counting hc]
    split
    · exact .inl rfl
    · split
      · exact .inr ⟨_, _, rfl⟩
      · exact .inr ⟨_, 0#64, congrArg _ BitVec.or_zero.symm⟩
  · exact .inl (countOne_idle (Bool.eq_false_of_not_eq_true hc) acc)

/-- A counter whose increment is 0 changes nothing, counting or not. -/
theorem countOne_still (hr : restricted f.featMt p i = false) (h0 : increment p i (counterValue f c bg isBg p i) = 0)
    (acc : Vector Word 64 × Word) : countOne f c bg isBg psr p acc i = acc := by
  by_cases hc : counting f isBg psr p i = true
  · rw [countOne_counting hc, clockIncrement_unrestricted hr, if_pos h0]
  · exact countOne_idle (Bool.eq_false_of_not_eq_true hc) acc

theorem countOne_adds {n : Nat} (hc : counting f isBg psr p i = true) (hr : restricted f.featMt p i = false)
    (hn : n = increment p i (counterValue f c bg isBg p i)) (hpos : 0 < n) (acc : Vector Word 64 × Word) :
    countOne f c bg isBg psr p acc i = (acc.1.setIfInBounds i (BitVec.ofNat 64 (((pmdAt p i).toNat + n) % 2 ^ 47)),
      if 2 ^ 47 ≤ (pmdAt p i).toNat + n then acc.2 ||| overflowBits p i else acc.2) := by
  rw [countOne_counting hc, clockIncrement_unrestricted hr, ← hn, if_neg hpos.ne']

theorem countOne_other {j : Nat} (h : i ≠ j) (acc : Vector Word 64 × Word) :
    (countOne f c bg isBg psr p acc i).1.getD j 0#64 = acc.1.getD j 0#64 := by
  obtain e | ⟨v, m, e⟩ := countOne_cases f c bg isBg psr p i acc
  · rw [e]
  · rw [e]
    exact getD_set_other _ _ _ _ _ h

theorem countOne_status {k : Nat} {acc : Vector Word 64 × Word} (h : acc.2.getLsbD k = true) :
    (countOne f c bg isBg psr p acc i).2.getLsbD k = true := by
  obtain e | ⟨v, m, e⟩ := countOne_cases f c bg isBg psr p i acc
  · rw [e]
    exact h
  · rw [e, BitVec.getLsbD_or, h, Bool.true_or]

/-! ## The counters of a thread -/

/-- A count that no counter of a list changes is kept. -/
theorem counters_keep {j : Nat} (l : List Nat) (acc : Vector Word 64 × Word)
    (h : ∀ k ∈ l, ∀ a, (countOne f c bg isBg psr p a k).1.getD j 0#64 = a.1.getD j 0#64) :
    (l.foldl (countOne f c bg isBg psr p) acc).1.getD j 0#64 = acc.1.getD j 0#64 := by
  induction l generalizing acc with
  | nil => rfl
  | cons k l ih =>
    obtain ⟨hk, hl⟩ := List.forall_mem_cons.1 h
    exact (ih _ hl).trans (hk acc)

theorem counters_status {k : Nat} (l : List Nat) {acc : Vector Word 64 × Word} (h : acc.2.getLsbD k = true) :
    (l.foldl (countOne f c bg isBg psr p) acc).2.getLsbD k = true :=
  List.foldlRecOn (motive := fun (a : Vector Word 64 × Word) => a.2.getLsbD k = true) l _ h fun _ ha _ _ => countOne_status ha

/-- A counter of a list without repetitions takes its turn once: its count is that of its turn, and the bits its turn leaves in PMC0
stay. -/
theorem counters_turn {l : List Nat} (hl : l.Nodup) (hi : i ∈ l) (acc : Vector Word 64 × Word) : ∃ a,
    (l.foldl (countOne f c bg isBg psr p) acc).1.getD i 0#64 = (countOne f c bg isBg psr p a i).1.getD i 0#64
    ∧ ∀ k, (countOne f c bg isBg psr p a i).2.getLsbD k = true →
      (l.foldl (countOne f c bg isBg psr p) acc).2.getLsbD k = true := by
  obtain ⟨before, after, rfl⟩ := List.append_of_mem hi
  have later : i ∉ after := (List.nodup_cons.1 (List.nodup_append.1 hl).2.1).1
  rw [List.foldl_append, List.foldl_cons]
  exact ⟨_, counters_keep after _ fun k hk => countOne_other (ne_of_mem_of_not_mem hk later), fun k => counters_status after⟩

theorem mem_counterList : i ∈ counterList ↔ 4 ≤ i ∧ i ≤ 15 := by
  simp only [counterList, List.mem_cons, List.not_mem_nil, or_false]
  omega

theorem pmcAt_zero_countAll : pmcAt (countAll f c bg isBg psr p) 0
    = (counterList.foldl (countOne f c bg isBg psr p) (p.pmd, pmcAt p 0)).2 :=
  getD_set_same _ _ _ _ (by decide)

theorem pmcAt_countAll (h : 0 < i) : pmcAt (countAll f c bg isBg psr p) i = pmcAt p i :=
  getD_set_other _ _ _ _ _ h.ne

/-- A counter that does nothing in its turn keeps its count. -/
theorem countAll_keeps (h : 4 ≤ i → i ≤ 15 → ∀ a, countOne f c bg isBg psr p a i = a) :
    pmdAt (countAll f c bg isBg psr p) i = pmdAt p i := by
  refine counters_keep counterList _ fun k hk a => ?_
  by_cases e : k = i
  · subst e
    obtain ⟨low, high⟩ := mem_counterList.1 hk
    rw [h low high]
  · exact countOne_other e a

theorem countAll_adds (h4 : 4 ≤ i) (h15 : i ≤ 15) (hc : counting f isBg psr p i = true)
    (hr : restricted f.featMt p i = false) {n : Nat} (hn : n = increment p i (counterValue f c bg isBg p i)) (hpos : 0 < n) :
    pmdAt (countAll f c bg isBg psr p) i = BitVec.ofNat 64 (((pmdAt p i).toNat + n) % 2 ^ 47)
    ∧ (2 ^ 47 ≤ (pmdAt p i).toNat + n → (pmcAt (countAll f c bg isBg psr p) 0).getLsbD i = true
      ∧ (pmcOi (pmcAt p i) = true → frozen (countAll f c bg isBg psr p) = true)) := by
  have nodup : counterList.Nodup := by decide
  obtain ⟨a, count, status⟩ := counters_turn (f := f) (c := c) (bg := bg) (isBg := isBg) (psr := psr) (p := p) nodup
    (mem_counterList.2 ⟨h4, h15⟩) (p.pmd, pmcAt p 0)
  rw [countOne_adds hc hr hn hpos a] at count status
  refine ⟨count.trans (getD_set_same _ _ _ _ (by omega)), fun carry => ?_⟩
  have sets {k : Nat} (hk : (overflowBits p i).getLsbD k = true) :
      (pmcAt (countAll f c bg isBg psr p) 0).getLsbD k = true := by
    rw [pmcAt_zero_countAll]
    refine status k ?_
    rw [if_pos carry, BitVec.getLsbD_or, hk, Bool.or_true]
  exact ⟨sets (overflowBits_own p h15), fun oi => sets (overflowBits_freeze oi)⟩

/-- 44 R792: a frozen monitor is as before. -/
theorem countAll_frozen (h : frozen p = true) : countAll f c bg isBg psr p = p := by
  have idle : counterList.foldl (countOne f c bg isBg psr p) (p.pmd, pmcAt p 0) = (p.pmd, pmcAt p 0) :=
    List.foldl_fixed' (fun _ => countOne_idle (counting_frozen h) _) _
  have held : pmcAt p 0 = p.pmc[0] := by simp [pmcAt, Vector.getD]
  have same : p.pmc.setIfInBounds 0 (pmcAt p 0) = p.pmc := by
    refine Vector.ext fun j hj => ?_
    rw [Vector.getElem_setIfInBounds hj]
    split
    next e =>
      subst e
      exact held
    · rfl
  rw [countAll, idle, same]

end

/-! ## The value of an event -/

theorem eventInfo_max_pos {code : Nat} {r : EventInfo} (h : eventInfo code = some r) : 1 ≤ r.max := by
  have rows : eventTable.all (fun row => decide (1 ≤ row.max)) = true := by rfl
  exact of_decide_eq_true (List.all_eq_true.1 rows r (List.mem_of_find?_eq_some h))

/-- The queue of memory reads holds at most 16 entries of both threads together. -/
theorem readOccupation_le (f : StepFacts) : readOccupation f true ≤ 2 ∧ readOccupation f false ≤ 7 := by
  have front : draw f false 0xb4 0 16 ≤ 16 := Nat.le_of_lt_succ (Nat.mod_lt _ (by decide))
  have back (m : Nat) : draw f true 0xb4 0 m ≤ m := Nat.le_of_lt_succ (Nat.mod_lt _ m.succ_pos)
  have both := back (16 - draw f false 0xb4 0 16)
  simp only [readOccupation, occupationPart, share, if_true, Bool.false_eq_true, if_false]
  split <;> omega

section
variable {f : StepFacts} {c : Captures} {code : Nat} {r : EventInfo}

theorem commonEvent_le (h : eventInfo code = some r) (u : Nat) : commonEvent f c code u ≤ r.max := by
  simp only [commonEvent, h]
  split
  · exact Nat.zero_le _
  · exact Nat.min_le_left ..

theorem foregroundEvent_le (h : eventInfo code = some r) (u mesi : Nat) : foregroundEvent f c code u mesi ≤ r.max := by
  simp only [foregroundEvent, h]
  split
  · exact Nat.zero_le _
  · split
    · exact Nat.zero_le _
    · split
      · exact Nat.min_le_left ..
      · exact Nat.zero_le _

theorem backgroundEvent_le (h : eventInfo code = some r) (bg : LP) (u mesi : Nat) :
    backgroundEvent f c bg code u mesi ≤ r.max := by
  have bit (b : Bool) : b.toNat ≤ r.max := b.toNat_le.trans (eventInfo_max_pos h)
  simp only [backgroundEvent, h]
  split
  · exact Nat.zero_le _
  split
  · exact bit _
  split
  · exact bit _
  split
  · exact bit _
  split
  · exact bit _
  split
  · split
    · exact Nat.zero_le _
    · split
      · exact Nat.min_le_left ..
      · exact Nat.zero_le _
  · exact Nat.zero_le _

/-- 44 R702, R704: with `.all` too, a counter sees at most the maximum of its event in a clock. -/
theorem counterValue_le {bg : LP} {isBg : Bool} {p : PMU} {i : Nat} (h : eventInfo (pmcEs (pmcAt p i)) = some r) :
    counterValue f c bg isBg p i ≤ r.max := by
  have front := foregroundEvent_le (f := f) (c := c) h
  have back := backgroundEvent_le (f := f) (c := c) h bg
  have own (u mesi : Nat) : (if isBg then backgroundEvent f c bg (pmcEs (pmcAt p i)) u mesi
      else foregroundEvent f c (pmcEs (pmcAt p i)) u mesi) ≤ r.max := by
    split
    · exact back u mesi
    · exact front u mesi
  have reads (hes : pmcEs (pmcAt p i) = 0xb4 ∨ pmcEs (pmcAt p i) = 0xb5) :
      readOccupation f (pmcEs (pmcAt p i) == 0xb4) ≤ r.max := by
    obtain e | e := hes
    · rw [e] at h ⊢
      obtain rfl : ⟨0xb4, false, false, false, 2, .floating⟩ = r := Option.some.inj h
      exact (readOccupation_le f).1
    · rw [e] at h ⊢
      obtain rfl : ⟨0xb5, false, false, false, 7, .floating⟩ = r := Option.some.inj h
      exact (readOccupation_le f).2
  unfold counterValue
  extract_lets w ctl es u mesi fg bk own' other
  split
  · exact commonEvent_le h _
  split
  · exact own _ _
  split
  · split
    · exact Nat.zero_le _
    · exact own _ _
  split
  · exact (Nat.min_le_left ..).trans (own _ _)
  split
  · exact own _ _
  split
  next hes => exact reads hes
  · rw [h]
    exact Nat.min_le_left ..

end

/-- Settles O44: one counter's turn, what the other turns keep of it, and the bound of the events. -/
theorem performanceCounters : Obligations.PerformanceCounters :=
  fun f c bg psr isBg p i =>
    ⟨fun h4 h15 hc hr n hn hpos => countAll_adds h4 h15 hc hr hn hpos,
      fun _ _ hr h0 => countAll_keeps fun _ _ => countOne_still hr h0,
      fun h => countAll_keeps fun h4 h15 => countOne_idle (h.resolve_right (by omega)),
      fun r => counterValue_le,
      countAll_frozen,
      pmcAt_countAll,
      fun v => rfl,
      counting_iff,
      monitorEnable_iff psr p i⟩

end Sys2Proof.Machine
end

