-- ==== Sys2Proof/Proofs/PrivilegeLevel.lean ====
section
/-!
The privilege level (60 R1330): what the named updates of the state, the accesses to memory and the register stack engine leave of it.
The level is two bits of the processor status, which few updates touch.
-/

namespace Sys2Proof.Machine

open Sys2Proof.Config

/-- The current level is no more privileged than `l`: its number is not below. -/
def Unraised (l : BitVec 2) (s : State) : Prop := l ≤ s.lp.cpl

theorem unraised_zero (s : State) : Unraised 0#2 s := Nat.zero_le _

/-! ## The named updates of the state -/

/-- The level is bits 32 and 33 of the processor status. -/
theorem cpl_eq_of_bits {s t : State} (h : ∀ i, 32 ≤ i → i < 34 → t.lp.psr.getLsbD i = s.lp.psr.getLsbD i) :
    t.lp.cpl = s.lp.cpl := by
  apply BitVec.eq_of_getLsbD_eq
  intro i hi
  rw [LP.cpl, LP.cpl, BitVec.getLsbD_setWidth, BitVec.getLsbD_setWidth, BitVec.getLsbD_ushiftRight,
    BitVec.getLsbD_ushiftRight, h (32 + i) (by omega) (by omega)]

section
variable {l : BitVec 2} {s t : State}

theorem Unraised.of_bits (h : Unraised l s) (e : ∀ i, 32 ≤ i → i < 34 → t.lp.psr.getLsbD i = s.lp.psr.getLsbD i) :
    Unraised l t := by
  unfold Unraised
  rwa [cpl_eq_of_bits e]

theorem Unraised.congr (h : Unraised l s) (e : t.lp.psr = s.lp.psr) : Unraised l t :=
  h.of_bits fun i _ _ => by rw [e]

theorem unraised_seen (h : Unraised l s) (hseen : Seen s t) : Unraised l t := h.congr (seen_psr hseen)

theorem unraised_setGr (h : Unraised l s) (r : BitVec 7) (v : Reg) : Unraised l (s.setGr r v) := h.congr (setGr_lp_psr ..)

theorem unraised_postInc (h : Unraised l s) (r : BitVec 7) (b i : Reg) (inc : Inc) : Unraised l (s.postInc r b inc i) :=
  h.congr (postInc_lp_psr ..)

/-- A write of a floating-point register is recorded in bits 4 and 5 alone. -/
theorem unraised_setFr (h : Unraised l s) (f : BitVec 7) (v : FReg) : Unraised l (s.setFr f v) :=
  h.of_bits fun i _ _ => by rw [setFr_psr_bit, if_neg (by omega)]

theorem unraised_setPr (h : Unraised l s) (p : BitVec 6) (b : Bool) : Unraised l (s.setLp (s.lp.setPr p b)) :=
  h.congr (setPr_psr ..)

theorem unraised_setPr2 (h : Unraised l s) (p q : BitVec 6) (a b : Bool) : Unraised l (s.setPr2 p q a b) :=
  h.congr ((setPr_psr ..).trans (setPr_psr ..))

theorem unraised_writeCompare (h : Unraised l s) (ct : CType) (p q : BitVec 6) (rel nat : Bool) :
    Unraised l (writeCompare ct s p q rel nat) := by
  unfold writeCompare
  cases ct with
  | none | unc => dsimp only; split <;> exact unraised_setPr2 h ..
  | and | or | orAndcm =>
    dsimp only
    split
    · exact unraised_setPr2 h ..
    · exact h

/-- The user mask is bits 5:0. -/
theorem unraised_setUserMask (h : Unraised l s) (um : Word) : Unraised l (s.setUserMask um) :=
  h.of_bits fun i _ _ => by rw [setUserMask_bit, if_neg (by omega)]

/-! ## Accesses to memory -/

theorem readAt_unraised {big : Bool} {pa n : Nat} {attr : MemAttr} (h : Unraised l s) :
    Yields (fun p => Unraised l p.2) (readAt s big pa attr n) :=
  readAt_lp.mono fun _ hlp => h.congr (by rw [hlp])

theorem writeAt_unraised {big : Bool} {pa n v : Nat} {attr : MemAttr} (h : Unraised l s) :
    Yields (Unraised l) (writeAt s big pa attr n v) := by
  have hd (u : Uncore) (k : Option Nat) : Unraised l ((s.dropAlat pa n).setUncoreOf u k) := by
    cases k <;> exact h
  exact .ite (fun _ => .skip fun _ => .skip fun _ => .ok (hd ..)) fun _ => .ite (fun _ => .ok h) fun _ => .error _

theorem load_unraised {fp wbOnly : Bool} {va : Word} {n : Nat} (h : Unraised l s) :
    Yields (fun p => Unraised l p.2.2) (load s fp va n wbOnly) :=
  .skip fun _ => .bind (readAt_unraised h) fun _ ht => .ok ht

theorem store_unraised {fp wbOnly : Bool} {va : Word} {n v : Nat} (h : Unraised l s) :
    Yields (Unraised l) (store s fp va n v wbOnly) :=
  .skip fun _ => .bind (writeAt_unraised h) fun _ ht => .ok ht

theorem atomic_unraised {va : Word} {n m : Nat} {f : Nat → Option Nat} (h : Unraised l s) :
    Yields (fun p => Unraised l p.2) (atomic s va n m f) := by
  refine .skip fun _ => .bind (readAt_unraised h) fun p hp => ?_
  dsimp only; split
  · exact .ok hp
  · exact .bind (writeAt_unraised hp) fun _ ht => .ok ht

theorem specLoad_unraised {fp wbOnly : Bool} {va : Word} {n : Nat} (h : Unraised l s) :
    Yields (fun p => Unraised l p.2) (specLoad s fp va n wbOnly) := by
  have hf (f : MemFault) : Yields (fun p => Unraised l p.2)
      (if deferred s f then .ok (none, s.noteData .load fp va n .wb (some f.natCause))
        else raise (memExc s va .read (accessBits .read ||| (1#64 <<< 36)) f) : Ans (Option (Nat × Nat) × State)) :=
    .ite (fun _ => .ok h) fun _ => .raise _
  unfold specLoad
  refine .ite (fun _ => .ok h) fun _ => ?_
  split
  · exact hf _
  · refine .ite (fun _ => .ok h) fun _ => ?_
    split
    · exact hf _
    · exact .bind (readAt_unraised h) fun _ ht => .ok ht

theorem loadForm_unraised {f : LoadForm} {fp wbOnly : Bool} {r : BitVec 7} {base : Reg} {n : Nat} (h : Unraised l s) :
    Yields (fun p => Unraised l p.2) (loadForm f fp r base n wbOnly s) := by
  have hc : Unraised l (checkAlat s fp r).2 := unraised_seen h (seen_checkAlat ..)
  have ha {t : State} (c : Bool) (pa : Nat) (ht : Unraised l t) : Unraised l (if c then t.allocAlat fp r pa n else t) := by
    split
    · exact unraised_seen ht (seen_allocAlat ..)
    · exact ht
  have hr {t : State} (c : Bool) (ht : Unraised l t) : Unraised l (if c then t.removeAlat fp r else t) := by
    split <;> exact ht
  unfold loadForm
  refine .ite (fun _ => .ite (fun _ => .ok (hr f.adv h)) fun _ => .raise _) fun _ => ?_
  refine .ite (fun _ => ?_) fun _ => .ite (fun _ => ?_) fun _ => ?_
  · generalize checkAlat s fp r = c at hc
    obtain ⟨hit, s1⟩ := c
    refine .ite (fun _ => .ok (hr (t := s1.noteCheck _ _ _ _ _) f.clr hc)) fun _ => ?_
    refine .bind (load_unraised (s := s1.noteCheck _ _ _ _ _) hc) fun p hp => .ok ?_
    dsimp only; split
    · exact hp
    · exact unraised_seen hp (seen_allocAlat ..)
  · refine .bind (specLoad_unraised h) fun p hp => ?_
    dsimp only; split
    · exact .ok (hr f.adv hp)
    · exact .ok (ha f.adv _ hp)
  · exact .bind (load_unraised h) fun p hp => .ok (ha f.adv _ hp)

/-! ## The register stack engine -/

theorem rseStore_unraised {va v : Word} (h : Unraised l s) : Yields (Unraised l) (rseStore s va v) :=
  .skip fun _ => .bind (writeAt_unraised h) fun _ ht => .ok ht

theorem rseLoad_unraised {va : Word} (h : Unraised l s) : Yields (fun p => Unraised l p.2) (rseLoad s va) :=
  .skip fun _ => .bind (readAt_unraised h) fun _ ht => .ok ht

theorem spillCollection_unraised (h : Unraised l s) : Yields (Unraised l) (spillCollection s) :=
  .ite (fun _ => .bind (rseStore_unraised h) fun _ ht => .ok ht) fun _ => .ok h

theorem spillOne_unraised (h : Unraised l s) : Yields (Unraised l) (spillOne s) :=
  .bind (spillCollection_unraised h) fun _ ht => .bind (rseStore_unraised ht) fun t hu =>
    spillCollection_unraised (s := (t.setAr _).setGrFile _) hu

theorem spillN_unraised (n : Nat) : ∀ {s : State}, Unraised l s → Yields (Unraised l) (spillN n s) := by
  induction n with
  | zero => exact fun h => .ok h
  | succ n ih => exact fun h => .bind (spillOne_unraised h) fun _ ht => ih ht

theorem fillCollection_unraised (h : Unraised l s) : Yields (Unraised l) (fillCollection s) :=
  .ite (fun _ => .bind (rseLoad_unraised h) fun _ ht => .ok ht) fun _ => .ok h

theorem fillRegister_unraised (h : Unraised l s) : Yields (Unraised l) (fillRegister s) :=
  .bind (rseLoad_unraised h) fun _ ht => .ok ht

theorem fillN_unraised (n : Nat) : ∀ {s : State}, Unraised l s → Yields (Unraised l) (fillN n s) := by
  induction n with
  | zero => exact fun h => .ok h
  | succ n ih =>
    exact fun h => .bind (.bind (fillCollection_unraised h) fun _ ht => fillRegister_unraised ht) fun _ hu => ih hu

theorem unraised_freeStack (h : Unraised l s) : Unraised l (freeStack s) := by
  unfold freeStack
  generalize Vector.ofFn _ = stk
  exact h

theorem popFrame_unraised {n sof : Nat} (h : Unraised l s) : Yields (Unraised l) (popFrame n sof s) := by
  have hm (u : State) (ht : Unraised l u) : Yields (Unraised l) (makeRoom sof u) := spillN_unraised _ ht
  exact .ite (fun _ => .bind (fillN_unraised _ h) fun t ht => hm (t.setGrFile _) ht) fun _ => .ok
    (unraised_freeStack (s := s.setGrFile _) h)

theorem dropBelow_unraised (bsp : Word) (bytes n : Nat) :
    ∀ {s : State}, Unraised l s → Unraised l (dropBelow bsp bytes n s) := by
  induction n with
  | zero => intro s h; unfold dropBelow; split <;> exact h
  | succ n ih =>
    intro s h
    unfold dropBelow
    split
    · dsimp only
      split
      · exact ih h
      · exact h
    · exact h

theorem unraised_keepBspstore (h : Unraised l t) : Unraised l (s.keepBspstore t) := by
  unfold State.keepBspstore; split <;> exact h

theorem fillDownTo_unraised (bsp : Word) (bytes n : Nat) :
    ∀ {s : State}, Unraised l s → Yields (Unraised l) (fillDownTo bsp bytes n s) := by
  induction n with
  | zero =>
    intro s h
    have hlast {t : State} (ht : Unraised l t) : Yields (Unraised l)
        (if t.lp.bytesBelow bsp < bytes then raise illegalOperation else .ok (s.keepBspstore t)) :=
      .ite (fun _ => .raise _) fun _ => .ok (unraised_keepBspstore ht)
    exact .ite (fun _ => .bind (fillCollection_unraised h) fun _ ht => hlast ht) fun _ => hlast h
  | succ n ih =>
    exact fun h => .ite (fun _ => .bind (fillCollection_unraised h) fun _ ht =>
      .ite (fun _ => .bind (fillRegister_unraised ht) fun _ hu => ih hu) fun _ =>
        .ok (unraised_keepBspstore ht)) fun _ => .ok h

end

end Sys2Proof.Machine
end

