-- ==== Sys2Proof/Proofs/InstructionEnds.lean ====
section
/-!
How an instruction ends (60 R1301, R1330): every one but `rfi` takes a fault from the state it began in, or ends from a state with its
effects made as `retire` says; and every one but `rfi` and `epc` makes its effects at a level no more privileged than before.
-/

namespace Sys2Proof.Machine

open Sys2Proof.Config

/-- An instruction that began in `s` has ended in `t`: in a fault, or from a state with its effects, at a level no more privileged than
`l`. -/
def Ends (l : BitVec 2) (s t : State) : Prop :=
  (∃ x : Exc, t = faultTo s x) ∨ ∃ (u : State) (e : Ending), Unraised l u ∧ t = retire s u e

section
variable {l : BitVec 2} {s : State}

theorem ends_retire {u : State} (hu : Unraised l u) (e : Ending) : Ends l s (retire s u e) := .inr ⟨u, e, hu, rfl⟩

theorem ends_squash (h : Unraised l s) (wide : Bool) : Ends l s (squash s wide) :=
  ends_retire (u := s.setLp { s.lp with ev := { s.lp.ev with squashed := true } }) h _

theorem finish_ends {x : Ans State} (hx : Yields (Ends l s) x) : Leads (Ends l s) (finish s x) :=
  .finish (fun e => .inl ⟨e, rfl⟩) hx

theorem predicated_ends (h : Unraised l s) {qp : BitVec 6} {body : Ans State} {wide : Bool}
    (hb : Yields (Unraised l) body) : Leads (Ends l s) (predicated qp s body wide) := by
  unfold predicated; split
  · exact finish_ends (hb.map fun _ ht => ends_retire ht _)
  · exact .next (ends_squash h _)

theorem predicatedEnd_ends (h : Unraised l s) {qp : BitVec 6} {body : Ans (State × Ending)}
    (hb : Yields (fun p => Unraised l p.1) body) : Leads (Ends l s) (predicatedEnd qp s body) := by
  unfold predicatedEnd; split
  · exact finish_ends (hb.map fun _ ht => ends_retire ht _)
  · exact .next (ends_squash h _)

theorem unpredicated_ends {body : Ans (State × Ending)} (hb : Yields (fun p => Unraised l p.1) body) :
    Leads (Ends l s) (unpredicated s body) :=
  finish_ends (hb.map fun _ ht => ends_retire ht _)

theorem always_ends {body : Ans State} (hb : Yields (Unraised l) body) : Leads (Ends l s) (always s body) :=
  unpredicated_ends (hb.map fun _ ht => ht)

theorem compare_ends_unraised (h : Unraised l s) {ct : CType} {qp p1 p2 : BitVec 6} {rel : Ans (Bool × Bool × State)}
    (hr : Yields (fun p => Unraised l p.2.2) rel) : Leads (Ends l s) (compare ct qp p1 p2 s rel) := by
  unfold compare; split
  · exact finish_ends (.skip fun _ => .bind hr fun _ ht => .ok (ends_retire (unraised_writeCompare ht ..) _))
  · split
    · refine finish_ends (.skip fun _ => .ok (ends_retire ?_ _))
      exact unraised_setPr2 h ..
    · exact .next (ends_squash h _)

theorem branchWith_ends (h : Unraised l s) {k : FlowKind} {wide : Bool} {qp : BitVec 6} {target : Word}
    {body : Ans (State × Bool)} (hb : Yields (fun p => Unraised l p.1) body) :
    Leads (Ends l s) (branchWith k wide qp target s body) := by
  unfold branchWith; split
  · refine finish_ends (hb.map fun t ht => ends_retire ?_ _)
    exact ht
  · refine .next (ends_retire ?_ _)
    exact h

theorem ends_loopEnd {t : State} (ht : Unraised l t) (taken : Bool) (target : Word) : Ends l s (loopEnd s t taken target) := by
  refine ends_retire ?_ _
  exact ht

/-! ## Loads, stores and semaphores -/

theorem loadInt_ends (h : Unraised l s) {f : LoadForm} {n : Nat} {fill : Bool} {qp : BitVec 6} {r1 r3 : BitVec 7}
    {inc : Inc} : Leads (Ends l s) (loadInt f n fill qp r1 r3 inc s) := by
  refine predicated_ends h (.skip fun _ => .skip fun _ => .skip fun _ => .skip fun _ => .skip fun _ =>
    .bind (loadForm_unraised h) ?_)
  rintro ⟨x, t⟩ ht
  refine .ok (unraised_postInc ?_ ..)
  cases x with
  | hit => exact ht
  | natted | value => exact unraised_setGr ht ..

theorem load16_ends (h : Unraised l s) {qp : BitVec 6} {r1 r3 : BitVec 7} : Leads (Ends l s) (load16 qp r1 r3 s) := by
  refine predicated_ends h (.skip fun _ => .skip fun _ => .bind (loadForm_unraised h) ?_)
  rintro ⟨x, t⟩ ht
  cases x with
  | value v =>
    refine .ok (unraised_setGr ?_ ..)
    exact ht
  | hit | natted => exact .ok ht

theorem storeInt_ends (h : Unraised l s) {n : Nat} {spill : Bool} {qp : BitVec 6} {r3 r2 : BitVec 7} {inc : Inc} :
    Leads (Ends l s) (storeInt n spill qp r3 r2 inc s) := by
  refine predicated_ends h (.skip fun _ => .skip fun _ => .skip fun _ => .skip fun _ => .skip fun _ =>
    .bind (store_unraised h) fun t ht => .ok (unraised_postInc ?_ ..))
  cases spill <;> exact ht

theorem storeFp_ends (h : Unraised l s) {m : FpFormat} {qp : BitVec 6} {r3 f2 : BitVec 7} {inc : Inc} :
    Leads (Ends l s) (storeFp m qp r3 f2 inc s) :=
  predicated_ends h (.skip fun _ => .skip fun _ => .skip fun _ => .skip fun _ => .skip fun _ =>
    .bind (store_unraised h) fun _ ht => .ok (unraised_postInc ht ..))

theorem loadFp_ends (h : Unraised l s) {f : LoadForm} {m : FpFormat} {qp : BitVec 6} {f1 r3 : BitVec 7} {inc : Inc} :
    Leads (Ends l s) (loadFp f m qp f1 r3 inc s) := by
  refine predicated_ends h (.skip fun _ => .skip fun _ => .skip fun _ => .skip fun _ => .skip fun _ =>
    .bind (loadForm_unraised h) ?_)
  rintro ⟨x, t⟩ ht
  refine .ok (unraised_postInc ?_ ..)
  cases x with
  | hit => exact ht
  | natted | value => exact unraised_setFr ht ..

theorem loadPair_ends (h : Unraised l s) {f : LoadForm} {m : FpFormat} {update : Bool} {qp : BitVec 6} {f1 f2 r3 : BitVec 7} :
    Leads (Ends l s) (loadPair f m update qp f1 f2 r3 s) := by
  refine predicated_ends h (.skip fun _ => .skip fun _ => .skip fun _ => .skip fun _ => .skip fun _ => .skip fun _ =>
    .skip fun _ => .skip fun _ => .bind (loadForm_unraised h) ?_)
  rintro ⟨x, t⟩ ht
  refine .ok (unraised_postInc ?_ ..)
  cases x with
  | hit => exact ht
  | natted | value => exact unraised_setFr (unraised_setFr ht ..) ..

theorem semaphore_ends (h : Unraised l s) {n m : Nat} {qp : BitVec 6} {r1 r3 : BitVec 7} {f : Nat → Ans (Option Nat)} :
    Leads (Ends l s) (semaphore n m qp r1 r3 s f) :=
  predicated_ends h (.skip fun _ => .skip fun _ => .skip fun _ => .skip fun _ =>
    .bind (atomic_unraised h) fun _ ht => .ok (unraised_setGr ht ..))

theorem cmpxchg_ends (h : Unraised l s) {n qp r1 r3 r2} : Leads (Ends l s) (cmpxchg n qp r1 r3 r2 s) := semaphore_ends h
theorem xchg_ends (h : Unraised l s) {n qp r1 r3 r2} : Leads (Ends l s) (xchg n qp r1 r3 r2 s) := semaphore_ends h
theorem fetchadd_ends (h : Unraised l s) {n qp r1 r3 inc} : Leads (Ends l s) (fetchadd n qp r1 r3 inc s) := semaphore_ends h
theorem cmp8xchg16_ends (h : Unraised l s) {qp r1 r3 r2} : Leads (Ends l s) (cmp8xchg16 qp r1 r3 r2 s) := semaphore_ends h

theorem lineFetch_ends (h : Unraised l s) {fault : Bool} {qp : BitVec 6} {r3 : BitVec 7} {inc : Inc} :
    Leads (Ends l s) (lineFetch fault qp r3 inc s) := by
  have hend (a : Nat × MemAttr) (base : Reg) (i : Reg) :
      Unraised l ((s.noteData .lfetch false base.val 1 a.2 none).postInc r3 base inc i) :=
    unraised_postInc (s := s.noteData ..) h ..
  unfold lineFetch
  exact predicated_ends h (.skip fun _ => .skip fun _ => .skip fun _ => .skip fun _ =>
    .ite (fun _ => .skip fun _ => .ok (hend ..)) fun _ => .skip fun _ => .ok (hend ..))

/-! ## Floating point -/

theorem recordFlags_unraised {sf : BitVec 2} {f : BitVec 6} (h : Unraised l s) :
    Yields (fun p => Unraised l p.1) (recordFlags s sf f) :=
  .skip fun _ => .ok h

theorem fpArith_ends (h : Unraised l s) {op : FpOp} {prec : FpPrec} {weight : Nat} {sf : BitVec 2} {qp : BitVec 6}
    {f1 a b c : BitVec 7} : Leads (Ends l s) (fpArith op prec weight sf qp f1 a b c s) := by
  have h0 : Unraised l (s.noteFpOps weight) := h
  exact predicatedEnd_ends h (.skip fun _ => .ite (fun _ => .ok (unraised_setFr h0 f1 natVal)) fun _ =>
    .bind (recordFlags_unraised h0) fun _ ht => .ok (unraised_setFr ht ..))

theorem fpMove3_ends (h : Unraised l s) {qp : BitVec 6} {f1 a b c : BitVec 7} {f : FReg → FReg → FReg → FReg} :
    Leads (Ends l s) (fpMove3 qp f1 a b c f s) :=
  predicated_ends h (.skip fun _ => .ok (unraised_setFr h ..))

theorem fpCompareOp_ends (h : Unraised l s) (o : OpF4) : Leads (Ends l s) (fpCompareOp o s) := by
  unfold fpCompareOp
  dsimp only
  split
  · have h0 : Unraised l (s.noteFpOps 1) := h
    exact finish_ends (.skip fun _ => .skip fun _ => .skip fun _ => .ite
      (fun _ => .ok (ends_retire (unraised_writeCompare h0 ..) _)) fun _ =>
      .bind (recordFlags_unraised h0) fun _ ht => .ok (ends_retire (unraised_writeCompare ht ..) _))
  · exact compare_ends_unraised h (.ok h)

theorem approximate_ends (h : Unraised l s) {op : FpOp} {weight : Nat} {sf : BitVec 2} {qp p2 : BitVec 6} {f1 a b : BitVec 7} :
    Leads (Ends l s) (approximate op weight sf qp p2 f1 a b s) := by
  unfold approximate
  split
  · have h0 : Unraised l (s.noteFpOps weight) := h
    exact finish_ends (.skip fun _ => .ite
      (fun _ => .ok (ends_retire (unraised_setPr (unraised_setFr h0 ..) ..) _)) fun _ =>
      .bind (recordFlags_unraised h0) fun _ ht => .ok (ends_retire (unraised_setPr (unraised_setFr ht ..) ..) _))
  · refine .next (ends_retire ?_ _)
    exact unraised_setPr h p2 false

/-! ## Registers outside the register files, and the processor status -/

theorem itcInsert_ends (h : Unraised l s) {instr : Bool} {qp : BitVec 6} {r2 : BitVec 7} :
    Leads (Ends l s) (itcInsert instr qp r2 s) := by
  refine predicated_ends h (.skip fun _ => .skip fun _ => .skip fun _ => .skip fun _ => .skip fun _ => .ok ?_)
  cases instr <;> exact h

theorem itrInsert_ends (h : Unraised l s) {instr : Bool} {qp : BitVec 6} {r3 r2 : BitVec 7} :
    Leads (Ends l s) (itrInsert instr qp r3 r2 s) := by
  refine predicated_ends h (.skip fun _ => .skip fun _ => .skip fun _ => .skip fun _ => .skip fun _ => .skip fun _ =>
    .skip fun _ => .ok ?_)
  cases instr <;> exact h

theorem purgeRegisters_ends (h : Unraised l s) {instr : Bool} {qp : BitVec 6} {r3 r2 : BitVec 7} :
    Leads (Ends l s) (purgeRegisters instr qp r3 r2 s) := by
  refine predicated_ends h (.skip fun _ => .skip fun _ => .skip fun _ => .skip fun _ => .skip fun _ => .ok ?_)
  cases instr <;> exact h

theorem writeAr_unraised (h : Unraised l s) {iUnit : Bool} {n : Nat} {source : Ans Word} :
    Yields (Unraised l) (writeAr iUnit n s source) :=
  .skip fun _ => .skip fun _ => .skip fun _ => .skip fun _ => .ok (h.congr (setArValue_status ..).1)

theorem indirectWrite_unraised (h : Unraised l s) {k : IndirectFile} {i : Nat} {v : Word} :
    Yields (Unraised l) (k.write s i v) := by
  cases k with
  | rr | dbr | ibr | pkr => exact .ok h
  | pmc =>
    intro t ht
    obtain ⟨pmd, n, rfl⟩ := writePmc_ok ht
    exact h
  | pmd => exact .ok (h.congr (writePmd_status ..).1)

theorem indirectRead_unraised (h : Unraised l s) (k : IndirectFile) (i : Nat) : Unraised l (k.read s i).2 := by
  cases k with
  | rr | dbr | ibr | pkr => exact h
  | pmc => exact h.congr (readPmc_status ..).1
  | pmd => exact h.congr (readPmd_status ..).1

/-- 42 R635, R636: an immediate of 24 bits does not reach the level. -/
theorem systemMask_ends (h : Unraised l s) {set : Bool} {qp : BitVec 6} {imm24 : BitVec 24} :
    Leads (Ends l s) (systemMask set qp imm24 s) := by
  have hm {i : Nat} (hi : 32 ≤ i) : (uimm imm24).getLsbD i = false := by
    rw [uimm, BitVec.getLsbD_setWidth, BitVec.getLsbD_of_ge imm24 i (by omega), Bool.and_false]
  refine predicated_ends h (.skip fun _ => .skip fun _ => .ok (h.of_bits fun i hi hi' => ?_))
  cases set with
  | true => exact (BitVec.getLsbD_or ..).trans (by rw [hm hi, Bool.or_false])
  | false => exact (BitVec.getLsbD_and ..).trans (by rw [BitVec.getLsbD_not, hm hi, decide_eq_true (by omega)]; simp)

/-- 42 R611: a move to the low half of the processor status does not reach the level. -/
theorem movToPsrL_ends (h : Unraised l s) {qp : BitVec 6} {r2 : BitVec 7} : Leads (Ends l s) (movToPsrL qp r2 s) :=
  predicated_ends h (.skip fun _ => .skip fun _ => .skip fun _ => .skip fun _ => .ok (h.of_bits fun i hi _ =>
    (setField_bit _ _ (by decide) i).trans (if_neg (by omega))))

theorem bankSwitch_ends (h : Unraised l s) {one : Bool} : Leads (Ends l s) (bankSwitch one s) :=
  always_ends (.skip fun _ => .ok (h.of_bits fun _ _ _ => setBit_get _ _ _ _ (by omega)))

/-! ## Checks, branches and frames -/

theorem unraised_checked (h : Unraised l s) (failed : Bool) (target : Word) : Unraised l (checked s failed target).1 := by
  unfold checked; split <;> exact h

theorem checkFlags_ends (h : Unraised l s) (o : OpF14) : Leads (Ends l s) (checkFlags o s) := by
  refine predicatedEnd_ends h (.ok ?_)
  split <;> exact h

theorem chkA_ends (h : Unraised l s) {fp clear : Bool} {qp : BitVec 6} {r : BitVec 7} {t : BitVec 21} :
    Leads (Ends l s) (chkA fp clear qp r t s) := by
  have hc : Unraised l (checkAlat s fp r).2 := h.congr (checkAlat_psr ..).1
  unfold chkA
  generalize checkAlat s fp r = c at hc
  refine predicatedEnd_ends h (.ok (unraised_checked ?_ ..))
  split <;> exact hc

theorem branchWhile_ends (h : Unraised l s) {exit : Bool} {qp : BitVec 6} {target : Word} :
    Leads (Ends l s) (branchWhile exit qp target s) := by
  have hgo : Unraised l (if s.lp.readPr qp then (s.rotated false, true) else epilog s).1 := by
    split
    · exact h.congr (rotated_psr ..).1
    · exact h.congr (epilog_psr s).1
  exact finish_ends (.skip fun _ => .ok (ends_loopEnd hgo ..))

theorem branchCounted_ends (h : Unraised l s) {exit : Bool} {qp : BitVec 6} {target : Word} :
    Leads (Ends l s) (branchCounted exit qp target s) := by
  have hgo : Unraised l
      (if s.lp.ar.lc ≠ 0#64 then ((s.setLc (s.lp.ar.lc - 1#64)).rotated true, true) else epilog s).1 := by
    split
    · exact h.congr (rotated_psr ..).1
    · exact h.congr (epilog_psr s).1
  exact finish_ends (.skip fun _ => .ok (ends_loopEnd hgo ..))

theorem branchCloop_ends (h : Unraised l s) {qp : BitVec 6} {target : Word} :
    Leads (Ends l s) (branchCloop qp target s) := by
  refine finish_ends (.skip fun _ => .ok ?_)
  split
  · exact ends_loopEnd h ..
  · exact ends_loopEnd (t := s.setLc (s.lp.ar.lc - 1#64)) h ..

/-- 43 R666: a return goes to the level of `AR.PFS` only if that is the less privileged one. -/
theorem branchRet_ends (h : Unraised l s) {qp : BitVec 6} {b2 : BitVec 3} : Leads (Ends l s) (branchRet qp b2 s) := by
  refine branchWith_ends h (.bind (popFrame_unraised (s := s.noteRse) h) fun t ht => .ok ?_)
  split
  · rename_i hlt
    unfold Unraised
    rw [atLevel_cpl]
    exact BitVec.le_trans h (BitVec.le_of_lt hlt)
  · exact ht

theorem flushStack_ends (h : Unraised l s) : Leads (Ends l s) (flushStack s) :=
  unpredicated_ends ((spillN_unraised _ (s := s.noteRse) h).map fun _ ht => ht)

theorem loadStack_ends (h : Unraised l s) : Leads (Ends l s) (loadStack s) := by
  have h1 : Unraised l s.noteRse := h
  unfold loadStack
  exact unpredicated_ends (.skip fun _ => .ite
    (fun _ => .bind (.ok (dropBelow_unraised _ _ _ h1)) fun _ ht => .ok ht) fun _ =>
      .bind (fillDownTo_unraised _ _ _ h1) fun _ ht => .ok ht)

theorem unraised_setFrame (h : Unraised l s) (cfm : BitVec 38) : Unraised l (s.setLp { s.lp with cfm := cfm }) := h

theorem allocFrame_ends (h : Unraised l s) {qp : BitVec 6} {r1 : BitVec 7} {sof sol sor : Nat} :
    Leads (Ends l s) (allocFrame qp r1 sof sol sor s) := by
  have hm : Yields (Unraised l) (makeRoom sof s.noteRse) := spillN_unraised _ h
  refine finish_ends (.skip fun _ => .skip fun _ => .skip fun _ => .bind hm fun t ht =>
    .ok (ends_retire (unraised_setGr ?_ ..) _))
  exact unraised_setFrame ht _

/-- 43 R673: `epc` may raise the level, but ends as any instruction does. -/
theorem enterPrivileged_ends : Leads (Ends 0#2 s) (enterPrivileged s) := always_ends fun t _ => unraised_zero t

end

section
variable {l : BitVec 2} {s : State} (h : Unraised l s)
include h

/-! ## The operations that are a few checks and a write -/

theorem alu2_ends {qp r1 r2 r3 f} : Leads (Ends l s) (alu2 qp r1 r2 r3 f s) :=
  predicated_ends h (.skip fun _ => .skip fun _ => .ok (unraised_setGr h ..))
theorem alu1_ends {qp r1 r3 f} : Leads (Ends l s) (alu1 qp r1 r3 f s) :=
  predicated_ends h (.skip fun _ => .skip fun _ => .ok (unraised_setGr h ..))
theorem hashQuery_ends {f qp r1 r3} : Leads (Ends l s) (hashQuery f qp r1 r3 s) :=
  predicated_ends h (.skip fun _ => .skip fun _ => .ok (unraised_setGr h ..))
theorem getfOp_ends {qp r1 f2 f} : Leads (Ends l s) (getfOp qp r1 f2 f s) :=
  predicated_ends h (.skip fun _ => .skip fun _ => .ok (unraised_setGr h ..))
theorem movFromAr_ends {iUnit qp r1 ar3} : Leads (Ends l s) (movFromAr iUnit qp r1 ar3 s) :=
  predicated_ends h (.skip fun _ => .skip fun _ => .ok (unraised_setGr h ..))
theorem movFromPsr_ends {qp r1} : Leads (Ends l s) (movFromPsr qp r1 s) :=
  predicated_ends h (.skip fun _ => .skip fun _ => .ok (unraised_setGr h ..))
theorem alu0_ends {qp r1 v wide} : Leads (Ends l s) (alu0 qp r1 v s wide) :=
  predicated_ends h (.skip fun _ => .ok (unraised_setGr h ..))
theorem movToGr_ends {qp r1 v} : Leads (Ends l s) (movToGr qp r1 v s) :=
  predicated_ends h (.skip fun _ => .ok (unraised_setGr h ..))
theorem movFromCpuid_ends {qp r1 r3} : Leads (Ends l s) (movFromCpuid qp r1 r3 s) :=
  predicated_ends h (.skip fun _ => .skip fun _ => .skip fun _ => .ok (unraised_setGr h ..))
theorem takQuery_ends {qp r1 r3} : Leads (Ends l s) (takQuery qp r1 r3 s) :=
  predicated_ends h (.skip fun _ => .skip fun _ => .skip fun _ => .skip fun _ => .ok (unraised_setGr h ..))
theorem probe_ends {write qp r1 r3 level} : Leads (Ends l s) (probe write qp r1 r3 level s) :=
  predicated_ends h (.skip fun _ => .skip fun _ => .skip fun _ => .skip fun _ => .skip fun _ => .ok (unraised_setGr h ..))
theorem tpaQuery_ends {qp r1 r3} : Leads (Ends l s) (tpaQuery qp r1 r3 s) :=
  predicated_ends h (.skip fun _ => .skip fun _ => .skip fun _ => .skip fun _ => .skip fun _ => .ok (unraised_setGr h ..))
theorem compareReg_ends {ct rel narrow o} : Leads (Ends l s) (compareReg ct rel narrow o s) :=
  compare_ends_unraised h (.skip fun _ => .ok h)
theorem compareZero_ends {ct rel narrow o} : Leads (Ends l s) (compareZero ct rel narrow o s) :=
  compare_ends_unraised h (.skip fun _ => .ok h)
theorem compareImm_ends {ct rel narrow o} : Leads (Ends l s) (compareImm ct rel narrow o s) :=
  compare_ends_unraised h (.skip fun _ => .ok h)
theorem testBit_ends {ct nz o} : Leads (Ends l s) (testBit ct nz o s) := compare_ends_unraised h (.skip fun _ => .ok h)
theorem testNat_ends {ct nz o} : Leads (Ends l s) (testNat ct nz o s) := compare_ends_unraised h (.skip fun _ => .ok h)
theorem fclassOp_ends {o} : Leads (Ends l s) (fclassOp o s) := compare_ends_unraised h (.skip fun _ => .ok h)
theorem fusedOp_ends {op prec weight o} : Leads (Ends l s) (fusedOp op prec weight o s) := fpArith_ends h
theorem fpArith2_ends {op weight o} : Leads (Ends l s) (fpArith2 op weight o s) := fpArith_ends h
theorem fpConvert_ends {op weight o} : Leads (Ends l s) (fpConvert op weight o s) := fpArith_ends h
theorem xmaOp_ends {o} : Leads (Ends l s) (xmaOp o s) := fpMove3_ends h
theorem fselectOp_ends {o} : Leads (Ends l s) (fselectOp o s) := fpMove3_ends h
theorem fpMove_ends {o f} : Leads (Ends l s) (fpMove o f s) := fpMove3_ends h
theorem setfOp_ends {qp f1 r2 f} : Leads (Ends l s) (setfOp qp f1 r2 f s) :=
  predicated_ends h (.skip fun _ => .skip fun _ => .skip fun _ => .ok (unraised_setFr h ..))
theorem store16_ends {qp r3 r2} : Leads (Ends l s) (store16 qp r3 r2 s) :=
  predicated_ends h (.skip fun _ => .skip fun _ => .skip fun _ => store_unraised h)
theorem setControls_ends {o} : Leads (Ends l s) (setControls o s) := predicated_ends h (.ok h)
theorem clearFlags_ends {o} : Leads (Ends l s) (clearFlags o s) := predicated_ends h (.ok h)
theorem noEffect_ends {qp} : Leads (Ends l s) (noEffect qp s) := predicated_ends h (.ok h)
theorem serializeInstr_ends {qp} : Leads (Ends l s) (serializeInstr qp s) := predicated_ends h (.ok h)
theorem invalidateAlat_ends {qp} : Leads (Ends l s) (invalidateAlat qp s) := predicated_ends h (.ok h)
theorem invalidateEntry_ends {fp qp r} : Leads (Ends l s) (invalidateEntry fp qp r s) := predicated_ends h (.ok h)
theorem nopOp_ends {qp wide} : Leads (Ends l s) (nopOp qp wide s) := predicated_ends h (.ok h)
theorem hintOp_ends {qp pause wide} : Leads (Ends l s) (hintOp qp pause wide s) := predicated_ends h (.ok h)
theorem movToPrRot_ends {qp v} : Leads (Ends l s) (movToPrRot qp v s) := predicated_ends h (.ok h)
theorem movToBr_ends {qp b1 r2} : Leads (Ends l s) (movToBr qp b1 r2 s) := predicated_ends h (.skip fun _ => .ok h)
theorem movToPr_ends {qp r2 mask} : Leads (Ends l s) (movToPr qp r2 mask s) := predicated_ends h (.skip fun _ => .ok h)
theorem probeFault_ends {kind qp r3 pl} : Leads (Ends l s) (probeFault kind qp r3 pl s) :=
  predicated_ends h (.skip fun _ => .skip fun _ => .ok h)
theorem flushLine_ends {qp r3} : Leads (Ends l s) (flushLine qp r3 s) :=
  predicated_ends h (.skip fun _ => .skip fun _ => .ok h)
theorem purgePartial_ends {qp r3} : Leads (Ends l s) (purgePartial qp r3 s) :=
  predicated_ends h (.skip fun _ => .skip fun _ => .skip fun _ => .ok h)
theorem purgeCaches_ends {qp r3 r2} : Leads (Ends l s) (purgeCaches qp r3 r2 s) :=
  predicated_ends h (.skip fun _ => .skip fun _ => .skip fun _ => .skip fun _ => .skip fun _ => .ok h)
theorem purgeCachesAlat_ends {qp r3 r2} : Leads (Ends l s) (purgeCachesAlat qp r3 r2 s) :=
  predicated_ends h (.skip fun _ => .skip fun _ => .skip fun _ => .skip fun _ => .skip fun _ => .ok h)
theorem userMask_ends {qp imm24 f} : Leads (Ends l s) (userMask qp imm24 s f) :=
  predicated_ends h (.skip fun _ => .ok (unraised_setUserMask h _))
theorem movToPsrUm_ends {qp r2} : Leads (Ends l s) (movToPsrUm qp r2 s) :=
  predicated_ends h (.skip fun _ => .skip fun _ => .ok (unraised_setUserMask h _))
theorem movToAr_ends {iUnit qp ar3 r2} : Leads (Ends l s) (movToAr iUnit qp ar3 r2 s) :=
  predicated_ends h (writeAr_unraised h)
theorem movToArImm_ends {iUnit qp ar3 imm8} : Leads (Ends l s) (movToArImm iUnit qp ar3 imm8 s) :=
  predicated_ends h (writeAr_unraised h)
theorem movToCr_ends {qp cr3 r2} : Leads (Ends l s) (movToCr qp cr3 r2 s) :=
  predicated_ends h (.skip fun _ => .skip fun _ => .skip fun _ => .skip fun _ => .skip fun _ =>
    .ok (h.congr (setCrValue_status ..).1))
theorem movFromCr_ends {qp r1 cr3} : Leads (Ends l s) (movFromCr qp r1 cr3 s) :=
  predicated_ends h (.skip fun _ => .skip fun _ => .skip fun _ => .ok (unraised_setGr (h.congr (readCr_status ..).1) ..))
theorem movToIndirect_ends {k qp r3 r2} : Leads (Ends l s) (movToIndirect k qp r3 r2 s) :=
  predicated_ends h (.skip fun _ => .skip fun _ => .skip fun _ => .skip fun _ => .skip fun _ => .skip fun _ =>
    indirectWrite_unraised h)
theorem movFromIndirect_ends {k qp r1 r3} : Leads (Ends l s) (movFromIndirect k qp r1 r3 s) :=
  predicated_ends h (.skip fun _ => .skip fun _ => .skip fun _ => .skip fun _ => .skip fun _ =>
    .ok (unraised_setGr (indirectRead_unraised h ..) ..))
theorem chkS_ends {qp r2 t} : Leads (Ends l s) (chkS qp r2 t s) :=
  predicatedEnd_ends h (.skip fun _ => .ok (unraised_checked (s := s.noteCheck ..) h ..))
theorem chkSFp_ends {qp f2 t} : Leads (Ends l s) (chkSFp qp f2 t s) :=
  predicatedEnd_ends h (.skip fun _ => .ok (unraised_checked (s := s.noteCheck ..) h ..))
theorem breakOp_ends {qp imm wide} : Leads (Ends l s) (breakOp qp imm wide s) := predicated_ends h (.raise _)
theorem switchVirtual_ends {qp} : Leads (Ends l s) (switchVirtual qp s) := predicated_ends h (.raise _)
theorem branchCond_ends {k wide qp target} : Leads (Ends l s) (branchCond k wide qp target s) := branchWith_ends h (.ok h)
theorem branchCall_ends {k wide qp b1 target} : Leads (Ends l s) (branchCall k wide qp b1 target s) :=
  branchWith_ends h (.ok h)
theorem branchIa_ends {qp b2} : Leads (Ends l s) (branchIa qp b2 s) := branchWith_ends h (.raise _)
theorem predict_ends : Leads (Ends l s) (always s (.ok s)) := always_ends (.ok h)
theorem cover_ends : Leads (Ends l s) (always s (.ok (coverFrame s))) := always_ends (.ok h)
theorem clearRename_ends {all} : Leads (Ends l s) (always s (.ok (clearRename all s))) := always_ends (.ok h)

/-! ## The instructions -/

/-- Every instruction but `rfi` and `epc` makes its effects at a level no more privileged than before. -/
theorem exec_ends_unraised {i : Instr} (hr : i ≠ .rfi) (he : i ≠ .epc) : Leads (Ends l s) (exec i s) := by
  cases i with dsimp only [exec]
  | add | addR1R2R31 | sub | subR1R2R31 | addp4 | and | andcm | or | xor | shladd | shladdp4 | padd1 | padd1Sss |
    padd1Uuu | padd1Uus | padd2 | padd2Sss | padd2Uuu | padd2Uus | padd4 | psub1 | psub1Sss | psub1Uuu | psub1Uus |
    psub2 | psub2Sss | psub2Uuu | psub2Uus | psub4 | pavg1 | pavg1Raz | pavgsub1 | pavg2 | pavg2Raz | pavgsub2 |
    pcmp1Eq | pcmp1Gt | pcmp2Eq | pcmp2Gt | pcmp4Eq | pcmp4Gt | pshladd2 | pshradd2 | pmpyshr2 | pmpy2 | mixPack |
    pshrVar | pshlVar | shr | shrU | shl | shrp | dep => exact alu2_ends h
  | subR1Imm8R3 | andR1Imm8R3 | andcmR1Imm8R3 | orR1Imm8R3 | xorR1Imm8R3 | adds | addp4R1Imm14R3 | addl | mux1 |
    mux2 | pshrFix | pshlFix | popcnt | extr | extrU | depZ | depR1Imm1R3 | zxt1 | zxt2 | zxt4 | sxt1 | sxt2 | sxt4 |
    czx1L | czx2L | czx1R | czx2R => exact alu1_ends h
  | depZR1Imm8 | movl => exact alu0_ends h
  | cmpLtP1P2R2R3 | cmp4LtP1P2R2R3 | cmpLtUncP1P2R2R3 | cmp4LtUncP1P2R2R3 | cmpEqAndP1P2R2R3 | cmp4EqAndP1P2R2R3 |
    cmpNeAndP1P2R2R3 | cmp4NeAndP1P2R2R3 | cmpLtuP1P2R2R3 | cmp4LtuP1P2R2R3 | cmpLtuUncP1P2R2R3 | cmp4LtuUncP1P2R2R3 |
    cmpEqOrP1P2R2R3 | cmp4EqOrP1P2R2R3 | cmpNeOrP1P2R2R3 | cmp4NeOrP1P2R2R3 | cmpEqP1P2R2R3 | cmp4EqP1P2R2R3 |
    cmpEqUncP1P2R2R3 | cmp4EqUncP1P2R2R3 | cmpEqOrAndcmP1P2R2R3 | cmp4EqOrAndcmP1P2R2R3 | cmpNeOrAndcmP1P2R2R3 |
    cmp4NeOrAndcmP1P2R2R3 => exact compareReg_ends h
  | cmpGtAndP1P2R0R3 | cmp4GtAndP1P2R0R3 | cmpLeAndP1P2R0R3 | cmp4LeAndP1P2R0R3 | cmpGeAndP1P2R0R3 |
    cmp4GeAndP1P2R0R3 | cmpLtAndP1P2R0R3 | cmp4LtAndP1P2R0R3 | cmpGtOrP1P2R0R3 | cmp4GtOrP1P2R0R3 | cmpLeOrP1P2R0R3 |
    cmp4LeOrP1P2R0R3 | cmpGeOrP1P2R0R3 | cmp4GeOrP1P2R0R3 | cmpLtOrP1P2R0R3 | cmp4LtOrP1P2R0R3 |
    cmpGtOrAndcmP1P2R0R3 | cmp4GtOrAndcmP1P2R0R3 | cmpLeOrAndcmP1P2R0R3 | cmp4LeOrAndcmP1P2R0R3 |
    cmpGeOrAndcmP1P2R0R3 | cmp4GeOrAndcmP1P2R0R3 | cmpLtOrAndcmP1P2R0R3 | cmp4LtOrAndcmP1P2R0R3 =>
    exact compareZero_ends h
  | cmpLtP1P2Imm8R3 | cmp4LtP1P2Imm8R3 | cmpLtUncP1P2Imm8R3 | cmp4LtUncP1P2Imm8R3 | cmpEqAndP1P2Imm8R3 |
    cmp4EqAndP1P2Imm8R3 | cmpNeAndP1P2Imm8R3 | cmp4NeAndP1P2Imm8R3 | cmpLtuP1P2Imm8R3 | cmp4LtuP1P2Imm8R3 |
    cmpLtuUncP1P2Imm8R3 | cmp4LtuUncP1P2Imm8R3 | cmpEqOrP1P2Imm8R3 | cmp4EqOrP1P2Imm8R3 | cmpNeOrP1P2Imm8R3 |
    cmp4NeOrP1P2Imm8R3 | cmpEqP1P2Imm8R3 | cmp4EqP1P2Imm8R3 | cmpEqUncP1P2Imm8R3 | cmp4EqUncP1P2Imm8R3 |
    cmpEqOrAndcmP1P2Imm8R3 | cmp4EqOrAndcmP1P2Imm8R3 | cmpNeOrAndcmP1P2Imm8R3 | cmp4NeOrAndcmP1P2Imm8R3 =>
    exact compareImm_ends h
  | tbitZ | tbitZUnc | tbitZAnd | tbitNzAnd | tbitZOr | tbitNzOr | tbitZOrAndcm | tbitNzOrAndcm =>
    exact testBit_ends h
  | tnatZ | tnatZUnc | tnatZAnd | tnatNzAnd | tnatZOr | tnatNzOr | tnatZOrAndcm | tnatNzOrAndcm =>
    exact testNat_ends h
  | ld1R1R3 | ld1R1R3R2 | ld1R1R3Imm9 | ld2R1R3 | ld2R1R3R2 | ld2R1R3Imm9 | ld4R1R3 | ld4R1R3R2 | ld4R1R3Imm9 |
    ld8R1R3 | ld8R1R3R2 | ld8R1R3Imm9 | ld1SR1R3 | ld1SR1R3R2 | ld1SR1R3Imm9 | ld2SR1R3 | ld2SR1R3R2 | ld2SR1R3Imm9 |
    ld4SR1R3 | ld4SR1R3R2 | ld4SR1R3Imm9 | ld8SR1R3 | ld8SR1R3R2 | ld8SR1R3Imm9 | ld1AR1R3 | ld1AR1R3R2 |
    ld1AR1R3Imm9 | ld2AR1R3 | ld2AR1R3R2 | ld2AR1R3Imm9 | ld4AR1R3 | ld4AR1R3R2 | ld4AR1R3Imm9 | ld8AR1R3 |
    ld8AR1R3R2 | ld8AR1R3Imm9 | ld1SaR1R3 | ld1SaR1R3R2 | ld1SaR1R3Imm9 | ld2SaR1R3 | ld2SaR1R3R2 | ld2SaR1R3Imm9 |
    ld4SaR1R3 | ld4SaR1R3R2 | ld4SaR1R3Imm9 | ld8SaR1R3 | ld8SaR1R3R2 | ld8SaR1R3Imm9 | ld1BiasR1R3 | ld1BiasR1R3R2 |
    ld1BiasR1R3Imm9 | ld2BiasR1R3 | ld2BiasR1R3R2 | ld2BiasR1R3Imm9 | ld4BiasR1R3 | ld4BiasR1R3R2 | ld4BiasR1R3Imm9 |
    ld8BiasR1R3 | ld8BiasR1R3R2 | ld8BiasR1R3Imm9 | ld1AcqR1R3 | ld1AcqR1R3R2 | ld1AcqR1R3Imm9 | ld2AcqR1R3 |
    ld2AcqR1R3R2 | ld2AcqR1R3Imm9 | ld4AcqR1R3 | ld4AcqR1R3R2 | ld4AcqR1R3Imm9 | ld8AcqR1R3 | ld8AcqR1R3R2 |
    ld8AcqR1R3Imm9 | ld1CClrR1R3 | ld1CClrR1R3R2 | ld1CClrR1R3Imm9 | ld2CClrR1R3 | ld2CClrR1R3R2 | ld2CClrR1R3Imm9 |
    ld4CClrR1R3 | ld4CClrR1R3R2 | ld4CClrR1R3Imm9 | ld8CClrR1R3 | ld8CClrR1R3R2 | ld8CClrR1R3Imm9 | ld1CNcR1R3 |
    ld1CNcR1R3R2 | ld1CNcR1R3Imm9 | ld2CNcR1R3 | ld2CNcR1R3R2 | ld2CNcR1R3Imm9 | ld4CNcR1R3 | ld4CNcR1R3R2 |
    ld4CNcR1R3Imm9 | ld8CNcR1R3 | ld8CNcR1R3R2 | ld8CNcR1R3Imm9 | ld1CClrAcqR1R3 | ld1CClrAcqR1R3R2 |
    ld1CClrAcqR1R3Imm9 | ld2CClrAcqR1R3 | ld2CClrAcqR1R3R2 | ld2CClrAcqR1R3Imm9 | ld4CClrAcqR1R3 | ld4CClrAcqR1R3R2 |
    ld4CClrAcqR1R3Imm9 | ld8CClrAcqR1R3 | ld8CClrAcqR1R3R2 | ld8CClrAcqR1R3Imm9 | ld8FillR1R3 | ld8FillR1R3R2 |
    ld8FillR1R3Imm9 => exact loadInt_ends h
  | ld16R1ArCsdR3 | ld16AcqR1ArCsdR3 => exact load16_ends h
  | st1R3R2 | st1R3R2Imm9 | st2R3R2 | st2R3R2Imm9 | st4R3R2 | st4R3R2Imm9 | st8R3R2 | st8R3R2Imm9 | st1RelR3R2 |
    st1RelR3R2Imm9 | st2RelR3R2 | st2RelR3R2Imm9 | st4RelR3R2 | st4RelR3R2Imm9 | st8RelR3R2 | st8RelR3R2Imm9 |
    st8SpillR3R2 | st8SpillR3R2Imm9 => exact storeInt_ends h
  | st16R3R2ArCsd | st16RelR3R2ArCsd => exact store16_ends h
  | ldfeF1R3 | ldfeF1R3R2 | ldfeF1R3Imm9 | ldf8F1R3 | ldf8F1R3R2 | ldf8F1R3Imm9 | ldfsF1R3 | ldfsF1R3R2 |
    ldfsF1R3Imm9 | ldfdF1R3 | ldfdF1R3R2 | ldfdF1R3Imm9 | ldfeSF1R3 | ldfeSF1R3R2 | ldfeSF1R3Imm9 | ldf8SF1R3 |
    ldf8SF1R3R2 | ldf8SF1R3Imm9 | ldfsSF1R3 | ldfsSF1R3R2 | ldfsSF1R3Imm9 | ldfdSF1R3 | ldfdSF1R3R2 | ldfdSF1R3Imm9 |
    ldfeAF1R3 | ldfeAF1R3R2 | ldfeAF1R3Imm9 | ldf8AF1R3 | ldf8AF1R3R2 | ldf8AF1R3Imm9 | ldfsAF1R3 | ldfsAF1R3R2 |
    ldfsAF1R3Imm9 | ldfdAF1R3 | ldfdAF1R3R2 | ldfdAF1R3Imm9 | ldfeSaF1R3 | ldfeSaF1R3R2 | ldfeSaF1R3Imm9 |
    ldf8SaF1R3 | ldf8SaF1R3R2 | ldf8SaF1R3Imm9 | ldfsSaF1R3 | ldfsSaF1R3R2 | ldfsSaF1R3Imm9 | ldfdSaF1R3 |
    ldfdSaF1R3R2 | ldfdSaF1R3Imm9 | ldfeCClrF1R3 | ldfeCClrF1R3R2 | ldfeCClrF1R3Imm9 | ldf8CClrF1R3 | ldf8CClrF1R3R2 |
    ldf8CClrF1R3Imm9 | ldfsCClrF1R3 | ldfsCClrF1R3R2 | ldfsCClrF1R3Imm9 | ldfdCClrF1R3 | ldfdCClrF1R3R2 |
    ldfdCClrF1R3Imm9 | ldfeCNcF1R3 | ldfeCNcF1R3R2 | ldfeCNcF1R3Imm9 | ldf8CNcF1R3 | ldf8CNcF1R3R2 | ldf8CNcF1R3Imm9 |
    ldfsCNcF1R3 | ldfsCNcF1R3R2 | ldfsCNcF1R3Imm9 | ldfdCNcF1R3 | ldfdCNcF1R3R2 | ldfdCNcF1R3Imm9 | ldfFillF1R3 |
    ldfFillF1R3R2 | ldfFillF1R3Imm9 => exact loadFp_ends h
  | stfeR3F2 | stfeR3F2Imm9 | stf8R3F2 | stf8R3F2Imm9 | stfsR3F2 | stfsR3F2Imm9 | stfdR3F2 | stfdR3F2Imm9 |
    stfSpillR3F2 | stfSpillR3F2Imm9 => exact storeFp_ends h
  | ldfp8F1F2R3 | ldfp8F1F2R316 | ldfpsF1F2R3 | ldfpsF1F2R38 | ldfpdF1F2R3 | ldfpdF1F2R316 | ldfp8SF1F2R3 |
    ldfp8SF1F2R316 | ldfpsSF1F2R3 | ldfpsSF1F2R38 | ldfpdSF1F2R3 | ldfpdSF1F2R316 | ldfp8AF1F2R3 | ldfp8AF1F2R316 |
    ldfpsAF1F2R3 | ldfpsAF1F2R38 | ldfpdAF1F2R3 | ldfpdAF1F2R316 | ldfp8SaF1F2R3 | ldfp8SaF1F2R316 | ldfpsSaF1F2R3 |
    ldfpsSaF1F2R38 | ldfpdSaF1F2R3 | ldfpdSaF1F2R316 | ldfp8CClrF1F2R3 | ldfp8CClrF1F2R316 | ldfpsCClrF1F2R3 |
    ldfpsCClrF1F2R38 | ldfpdCClrF1F2R3 | ldfpdCClrF1F2R316 | ldfp8CNcF1F2R3 | ldfp8CNcF1F2R316 | ldfpsCNcF1F2R3 |
    ldfpsCNcF1F2R38 | ldfpdCNcF1F2R3 | ldfpdCNcF1F2R316 => exact loadPair_ends h
  | lfetchR3 | lfetchR3R2 | lfetchR3Imm9 | lfetchExclR3 | lfetchExclR3R2 | lfetchExclR3Imm9 | lfetchFaultR3 |
    lfetchFaultR3R2 | lfetchFaultR3Imm9 | lfetchFaultExclR3 | lfetchFaultExclR3R2 | lfetchFaultExclR3Imm9 =>
    exact lineFetch_ends h
  | cmpxchg1Acq | cmpxchg1Rel | cmpxchg2Acq | cmpxchg2Rel | cmpxchg4Acq | cmpxchg4Rel | cmpxchg8Acq | cmpxchg8Rel =>
    exact cmpxchg_ends h
  | xchg1 | xchg2 | xchg4 | xchg8 => exact xchg_ends h
  | fetchadd4Acq | fetchadd8Acq | fetchadd4Rel | fetchadd8Rel => exact fetchadd_ends h
  | cmp8xchg16Acq | cmp8xchg16Rel => exact cmp8xchg16_ends h
  | fma | fmaS | fmaD | fpma | fms | fmsS | fmsD | fpms | fnma | fnmaS | fnmaD | fpnma => exact fusedOp_ends h
  | fmin | fmax | famin | famax | fpmin | fpmax | fpamin | fpamax | fpcmpFrelCode0 | fpcmpFrelCode1 | fpcmpFrelCode2 |
    fpcmpFrelCode3 | fpcmpFrelCode4 | fpcmpFrelCode5 | fpcmpFrelCode6 | fpcmpFrelCode7 => exact fpArith2_ends h
  | fcvtFx | fpcvtFx | fcvtFxu | fpcvtFxu | fcvtFxTrunc | fpcvtFxTrunc | fcvtFxuTrunc | fpcvtFxuTrunc =>
    exact fpConvert_ends h
  | xma => exact xmaOp_ends h
  | fselect => exact fselectOp_ends h
  | fmergeS | fmergeNs | fmergeSe | fmixLr | fmixR | fmixL | fsxtR | fsxtL | fpack | fswap | fswapNl | fswapNr |
    fand | fandcm | fOr | fxor | fpmergeS | fpmergeNs | fpmergeSe => exact fpMove_ends h
  | fcvtXf => exact fpMove3_ends h
  | fcmp => exact fpCompareOp_ends h _
  | fclassM => exact fclassOp_ends h
  | frcpa | fprcpa | frsqrta | fprsqrta => exact approximate_ends h
  | fsetc => exact setControls_ends h
  | fclrf => exact clearFlags_ends h
  | fchkf => exact checkFlags_ends h _
  | setfSig | setfExp | setfS | setfD => exact setfOp_ends h
  | getfSig | getfExp | getfS | getfD => exact getfOp_ends h
  | movIAr3R2 | movMAr3R2 => exact movToAr_ends h
  | movIAr3Imm8 | movMAr3Imm8 => exact movToArImm_ends h
  | movIR1Ar3 | movMR1Ar3 => exact movFromAr_ends h
  | movB1R2 => exact movToBr_ends h
  | movR1B2 | movR1Ip | movR1Pr | movR1PsrUm => exact movToGr_ends h
  | movPrR2Mask17 => exact movToPr_ends h
  | movPrRotImm44 => exact movToPrRot_ends h
  | sum => exact userMask_ends h
  | rum => exact userMask_ends h
  | ssm | rsm => exact systemMask_ends h
  | movPsrLR2 => exact movToPsrL_ends h
  | movPsrUmR2 => exact movToPsrUm_ends h
  | movR1Psr => exact movFromPsr_ends h
  | movCr3R2 => exact movToCr_ends h
  | movR1Cr3 => exact movFromCr_ends h
  | movRrR3R2 | movDbrR3R2 | movIbrR3R2 | movPkrR3R2 | movPmcR3R2 | movPmdR3R2 => exact movToIndirect_ends h
  | movR1RrR3 | movR1DbrR3 | movR1IbrR3 | movR1PkrR3 | movR1PmcR3 | movR1PmdR3 => exact movFromIndirect_ends h
  | movR1CpuidR3 => exact movFromCpuid_ends h
  | probeRR1R3Imm2 | probeWR1R3Imm2 | probeRR1R3R2 | probeWR1R3R2 => exact probe_ends h
  | probeRwFaultR3Imm2 | probeRFaultR3Imm2 | probeWFaultR3Imm2 => exact probeFault_ends h
  | thash | ttag => exact hashQuery_ends h
  | tpa => exact tpaQuery_ends h
  | tak => exact takQuery_ends h
  | itcDR2 | itcIR2 => exact itcInsert_ends h
  | itrDDtrR3R2 | itrIItrR3R2 => exact itrInsert_ends h
  | ptcLR3R2 | ptcGR3R2 => exact purgeCaches_ends h
  | ptcGaR3R2 => exact purgeCachesAlat_ends h
  | ptrDR3R2 | ptrIR3R2 => exact purgeRegisters_ends h
  | ptcER3 => exact purgePartial_ends h
  | fwb | srlzD | mf | mfA | syncI => exact noEffect_ends h
  | srlzI => exact serializeInstr_ends h
  | fcR3 | fcIR3 => exact flushLine_ends h
  | invala => exact invalidateAlat_ends h
  | invalaER1 | invalaEF1 => exact invalidateEntry_ends h
  | chkSI | chkSMR2 => exact chkS_ends h
  | chkSF2 => exact chkSFp_ends h
  | chkANcR1 | chkAClrR1 | chkANcF1 | chkAClrF1 => exact chkA_ends h
  | breakI | breakM | breakB | breakF | breakX => exact breakOp_ends h
  | nopI | nopM | nopB | hintB | nopF | nopX => exact nopOp_ends h
  | hintI | hintM | hintF | hintX => exact hintOp_ends h
  | flushrs => exact flushStack_ends h
  | loadrs => exact loadStack_ends h
  | allocR1ArPfsILOR => exact allocFrame_ends h
  | brCondTarget25 | brCondB2 | brlCondTarget64 => exact branchCond_ends h
  | brWexitTarget25 | brWtopTarget25 => exact branchWhile_ends h
  | brCexitTarget25 | brCtopTarget25 => exact branchCounted_ends h
  | brCloopTarget25 => exact branchCloop_ends h
  | brCallB1Target25 | brCallB1B2 | brlCallB1Target64 => exact branchCall_ends h
  | brRetB2 => exact branchRet_ends h
  | brIaB2 => exact branchIa_ends h
  | brpTarget25Tag13 | brpB2Tag13 | brpRetB2Tag13 => exact predict_ends h
  | cover => exact cover_ends h
  | clrrrb | clrrrbPr => exact clearRename_ends h
  | rfi => exact absurd rfl hr
  | bsw0 | bsw1 => exact bankSwitch_ends h
  | epc => exact absurd rfl he
  | vmsw0 | vmsw1 => exact switchVirtual_ends h

end

/-- Every instruction but `rfi` ends in a fault or from a state with its effects, and all but `epc` do so at a level no more
privileged than before. -/
theorem exec_ends {l : BitVec 2} {s : State} {i : Instr} (h : Unraised l s) (hr : i ≠ .rfi) (he : i = .epc → l = 0#2) :
    Leads (Ends l s) (exec i s) := by
  by_cases hepc : i = .epc
  · obtain rfl := he hepc
    rw [hepc]
    exact enterPrivileged_ends
  · exact exec_ends_unraised h hr hepc

end Sys2Proof.Machine
end

