-- ==== Sys2Proof/Proofs/Privilege.lean ====
section
/-!
Which instructions raise the privilege level (60 R1330): an instruction that ends without an interruption keeps the level of its
effects, and a return from an interruption, which may go to any level, begins at level 0.
-/

namespace Sys2Proof.Machine

open Sys2Proof.Config

/-- An instruction ends at the next place, or in the delivery of a trap there. -/
theorem retire_cases (s u : State) (e : Ending) :
    retire s u e = advance s u e ∨ ∃ x, retire s u e = deliver x s.lp.ri (advance s u e) := by
  unfold retire
  dsimp only
  split
  · exact .inl rfl
  · exact .inr ⟨_, rfl⟩

/-- A delivery is recorded in the step. -/
theorem deliver_vector (x : Exc) (ei : BitVec 2) (s : State) : (deliver x ei s).lp.ev.vector = some x.offset := rfl

/-- An instruction that ended without an interruption is at a level no more privileged than its effects. -/
theorem Ends.unraised {l : BitVec 2} {s t : State} (h : Ends l s t) (hv : t.lp.ev.vector = none) : Unraised l t := by
  obtain ⟨x, rfl⟩ | ⟨u, e, hu, rfl⟩ := h
  · cases (deliver_vector x s.lp.ri s).symm.trans hv
  · obtain ha | ⟨x, hx⟩ := retire_cases s u e
    · rw [ha, Unraised, advance_cpl]
      exact hu
    · rw [hx] at hv
      cases (deliver_vector ..).symm.trans hv

/-- 43 R671: `rfi` completes at level 0 alone. -/
theorem rfi_level {s : State} : Leads (fun t => t.lp.ev.vector = none → s.lp.cpl = 0#2) (returnFromInterruption s) :=
  .finish (fun e hv => by cases (deliver_vector e s.lp.ri s).symm.trans hv) <|
    .require fun h0 => fun _ _ _ => of_decide_eq_true h0

/-- Settles O56: `rfi` by `rfi_level`, every other instruction by the level of its effects. -/
theorem onlyEpcRaisesPrivilege : Obligations.OnlyEpcRaisesPrivilege := by
  intro i s t _ ht hv hlt
  by_contra hepc
  refine BitVec.not_le.2 hlt ?_
  by_cases hrfi : i = .rfi
  · subst hrfi
    rw [rfi_level t ht hv]
    exact unraised_zero t
  · exact (exec_ends_unraised (BitVec.le_refl s.lp.cpl) hrfi hepc t ht).unraised hv

end Sys2Proof.Machine
end

