-- ==== Sys2Proof/Proofs/InterruptionDelivery.lean ====
section
/-!
Taking an exception or an interrupt (60 R1306): the control registers, the processor status and the place of the handler.
-/

namespace Sys2Proof.Machine

open Sys2Proof.Config

/-- Clearing the most significant bit is a mask of the others. -/
theorem setBit_63_false (w : Word) : setBit w 63 false = w &&& 0x7FFFFFFFFFFFFFFF#64 := rfl

/-- 10 R70, 60 R1306: what delivery writes of the control registers while it collects. -/
theorem collect_eq (l : LP) (e : Exc) (ei : BitVec 2) : collect l e ei = { l.cr with
    ipsr := l.psr, iip := l.ip, iipa := l.lastIp, isr := e.isr ||| (ei.setWidth 64 <<< 41)
    ifs := l.cr.ifs &&& 0x7FFFFFFFFFFFFFFF#64
    ifa := e.ifa.getD l.cr.ifa, itir := e.itir.getD l.cr.itir, iha := e.iha.getD l.cr.iha
    iim := e.iim.getD l.cr.iim
    iib0 := if e.arch then l.bundle.extractLsb' 0 64 else l.cr.iib0
    iib1 := if e.arch then l.bundle.extractLsb' 64 64 else l.cr.iib1 } := by
  have hlow : l.bundle.extractLsb' 0 64 = l.bundle.setWidth 64 := by
    apply BitVec.eq_of_getLsbD_eq
    intro i hi
    rw [BitVec.getLsbD_extractLsb', BitVec.getLsbD_setWidth, Nat.zero_add]
  have hhigh : l.bundle.extractLsb' 64 64 = (l.bundle >>> 64).setWidth 64 := by
    apply BitVec.eq_of_getLsbD_eq
    intro i hi
    rw [BitVec.getLsbD_extractLsb', BitVec.getLsbD_setWidth, BitVec.getLsbD_ushiftRight]
  rw [hlow, hhigh, ← setBit_63_false]
  rfl

/-- The bits of the status that a handler keeps: `up`, `mfl`, `mfh`, `pk`, `dt`, `rt`, `mc`, `it`. -/
theorem keptStatus_bit (i : Nat) : (0x1808028034#64).getLsbD i = decide (i ∈ [2, 4, 5, 15, 17, 27, 35, 36]) := by
  by_cases hi : i < 64
  · revert i
    decide
  · rw [BitVec.getLsbD_of_ge _ i (by omega), eq_comm, decide_eq_false_iff_not]
    simp only [List.mem_cons, List.not_mem_nil, or_false]
    omega

/-- 60 R1306: the status of a handler, bit by bit. -/
theorem handlerPsr_bit (psr dcr : Word) (i : Nat) : (handlerPsr psr dcr).getLsbD i =
    if i = 1 then dcr.getLsbD 1 else if i = 21 then dcr.getLsbD 0
    else decide (i ∈ [2, 4, 5, 15, 17, 27, 35, 36]) && psr.getLsbD i := by
  unfold handlerPsr
  by_cases h21 : i = 21
  · rw [h21, setBit_same _ _ (by decide), if_neg (by decide), if_pos rfl]
  · rw [setBit_get _ _ _ _ h21]
    by_cases h1 : i = 1
    · rw [h1, setBit_same _ _ (by decide), if_pos rfl]
    · rw [setBit_get _ _ _ _ h1, if_neg h1, if_neg h21, BitVec.getLsbD_and, keptStatus_bit, Bool.and_comm]

/-- Two neighbouring bits that are 0, as a number. -/
theorem bits2_zero {w : Word} {lo : Nat} (h : ∀ i < 2, w.getLsbD (lo + i) = false) : (w >>> lo).setWidth 2 = 0#2 := by
  apply BitVec.eq_of_getLsbD_eq
  intro i hi
  rw [BitVec.getLsbD_setWidth, BitVec.getLsbD_ushiftRight, h i hi, Bool.and_false, BitVec.getLsbD_zero]

theorem handlerPsr_zero (psr dcr : Word) {i : Nat} (h : i ∈ [32, 33, 41, 42]) : (handlerPsr psr dcr).getLsbD i = false := by
  have hkept : ∀ i ∈ [32, 33, 41, 42], i ≠ 1 ∧ i ≠ 21 ∧ i ∉ [2, 4, 5, 15, 17, 27, 35, 36] := by decide
  obtain ⟨h1, h21, hk⟩ := hkept i h
  rw [handlerPsr_bit, if_neg h1, if_neg h21, decide_eq_false hk, Bool.false_and]

/-- A handler runs at level 0, from slot 0. -/
theorem deliver_place (e : Exc) (ei : BitVec 2) (s : State) :
    (deliver e ei s).lp.cpl = 0#2 ∧ (deliver e ei s).lp.ri = 0#2 := by
  refine ⟨bits2_zero fun i hi => handlerPsr_zero _ _ ?_, bits2_zero fun i hi => handlerPsr_zero _ _ ?_⟩
  · revert i; decide
  · revert i; decide

/-- 60 R1302: a vector offset is a multiple of 0x100 below 0x8000, and so keeps all its bits in the address of its handler. -/
theorem vectorOffset_and {n : Nat} (h : n % 256 = 0) (hlt : n < 0x8000) :
    BitVec.ofNat 64 n &&& 0x7F00#64 = BitVec.ofNat 64 n := by
  have hall : ∀ k < 128, BitVec.ofNat 64 (256 * k) &&& 0x7F00#64 = BitVec.ofNat 64 (256 * k) := by decide
  rw [← Nat.mul_div_cancel' (Nat.dvd_of_mod_eq_zero h)]
  exact hall (n / 256) (by omega)

/-- Settles O46: the control registers by `collect_eq`, the status by `handlerPsr_bit`, the place by `deliver_place`. -/
theorem interruptionDelivery : Obligations.InterruptionDelivery := by
  intro e ei s
  have hcr : (deliver e ei s).lp.cr = if s.lp.ic then collect s.lp e ei else s.lp.cr := rfl
  refine ⟨fun hic => ?_, fun hic => ?_, handlerPsr_bit _ _, (deliver_place e ei s).1, (deliver_place e ei s).2,
    fun h hlt => ?_, rfl, rfl, rfl⟩
  · rw [hcr, if_pos (show s.lp.ic = true from hic), collect_eq]
  · rw [hcr, if_neg (show ¬ s.lp.ic = true from Bool.eq_false_iff.1 hic)]
  · exact congrArg (_ ||| ·) (vectorOffset_and h hlt)

end Sys2Proof.Machine
end

