-- ==== Sys2Proof/Proofs/Traps.lean ====
section
/-!
The traps after an instruction (60 R1301, R1302, R1307): where an instruction ends, which trap it takes there, and the traps of a nop
and of a plain branch.
-/

namespace Sys2Proof.Machine

open Sys2Proof.Config

/-! ## The trap of highest priority -/

theorem ofBool_shiftLeft (b : Bool) (k : Nat) : ofBool b <<< k = if b = true then 1#64 <<< k else 0#64 := by
  cases b
  · exact BitVec.zero_shiftLeft _
  · rfl

/-- The code bits of the traps that are pending together (log 24). -/
def trapCode (psr : Word) (e : Ending) : Word :=
  e.fpTrap ||| (if e.fpTrap ≠ 0#64 then 1#64 else 0#64)
    ||| (if e.lowered = true ∧ psr.getLsbD 25 = true then 2#64 else 0#64)
    ||| (if e.target ≠ none ∧ psr.getLsbD 26 = true then 4#64 else 0#64)
    ||| (if psr.getLsbD 40 = true then 8#64 else 0#64)

/-- 60 R1307: the trap of highest priority. -/
theorem trapOf_eq (psr : Word) (uia : Bool) (e : Ending) : trapOf psr uia e =
    if uia = true then some { offset := 0x5E00, isr := trapCode psr e ||| 0x10#64 }
    else if e.fpTrap ≠ 0#64 then some { offset := 0x5D00, isr := trapCode psr e }
    else if e.lowered = true ∧ psr.getLsbD 25 = true then some { offset := 0x5E00, isr := trapCode psr e }
    else if e.target ≠ none ∧ psr.getLsbD 26 = true then some { offset := 0x5F00, isr := trapCode psr e }
    else if psr.getLsbD 40 = true then some { offset := 0x6000, isr := trapCode psr e }
    else none := by
  have hcode : e.fpTrap ||| ofBool (decide (e.fpTrap ≠ 0#64)) ||| (ofBool (e.lowered && psr.getLsbD 25) <<< 1)
      ||| (ofBool (e.target.isSome && psr.getLsbD 26) <<< 2) ||| (ofBool (psr.getLsbD 40) <<< 3) = trapCode psr e := by
    rw [ofBool_shiftLeft, ofBool_shiftLeft, ofBool_shiftLeft, ofBool]
    simp only [Bool.and_eq_true, decide_eq_true_eq, Option.isSome_iff_ne_none]
    rfl
  unfold trapOf
  dsimp only
  rw [hcode]
  simp only [Bool.and_eq_true, decide_eq_true_eq, Option.isSome_iff_ne_none]

/-- 60 R1301: an instruction ends at its next place, and there in the trap of highest priority. -/
theorem retire_eq (s u : State) (e : Ending) : retire s u e =
    if unimplementedIp (advance s u e) (advance s u e).lp.ip = true then
      deliver { offset := 0x5E00, isr := trapCode s.lp.psr e ||| 0x10#64 } s.lp.ri (advance s u e)
    else if e.fpTrap ≠ 0#64 then deliver { offset := 0x5D00, isr := trapCode s.lp.psr e } s.lp.ri (advance s u e)
    else if e.lowered = true ∧ s.lp.psr.getLsbD 25 = true then
      deliver { offset := 0x5E00, isr := trapCode s.lp.psr e } s.lp.ri (advance s u e)
    else if e.target ≠ none ∧ s.lp.psr.getLsbD 26 = true then
      deliver { offset := 0x5F00, isr := trapCode s.lp.psr e } s.lp.ri (advance s u e)
    else if s.lp.psr.getLsbD 40 = true then
      deliver { offset := 0x6000, isr := trapCode s.lp.psr e } s.lp.ri (advance s u e)
    else advance s u e := by
  unfold retire
  dsimp only
  rw [trapOf_eq]
  split_ifs <;> rfl

/-! ## The place an instruction ends at -/

theorem unimplementedIp_advance {s u : State} (e : Ending) (w : Word) (hit : u.lp.psrBit 36 = s.lp.psrBit 36)
    (hp : u.params = s.params) : unimplementedIp (advance s u e) w = unimplementedIp s w :=
  unimplementedIp_congr w ((advance_psr_bit s u e 36 (by omega) (by decide) (by omega)).trans hit) hp

theorem advance_ri (s u : State) (e : Ending) : (advance s u e).lp.ri = (nextPlace s.lp e).2 :=
  setField_read (lo := 41) _ _ (by decide)

/-- 10 R56: the next slot of the bundle. -/
theorem nextPlace_slot {l : LP} {e : Ending} (ht : e.target = none) (hw : e.wide = false) (hri : l.ri.toNat < 2) :
    nextPlace l e = (l.ip, l.ri + 1#2) := by
  rw [nextPlace, ht, hw]
  exact if_neg (by simpa using hri)

/-- 10 R56: the next bundle, after slot 2 or a long instruction. -/
theorem nextPlace_bundle {l : LP} {e : Ending} (ht : e.target = none) (h : e.wide = true ∨ 2 ≤ l.ri.toNat) :
    nextPlace l e = (l.ip + 16#64, 0#2) := by
  rw [nextPlace, ht]
  exact if_pos (by simpa using h)

/-- Log 26: the one-shot bits are 0 after an instruction. -/
theorem advance_oneShot (s u : State) (e : Ending) {i : Nat} (h : i ∈ [37, 38, 39, 43, 45]) :
    (advance s u e).lp.psr.getLsbD i = false := by
  have hplaces : ∀ i ∈ [37, 38, 39, 43, 45], oneShotBits.getLsbD i = true ∧ ¬ (41 ≤ i ∧ i < 43) := by decide
  obtain ⟨hone, hslot⟩ := hplaces i h
  have hbit := setField_bit (u.lp.psr &&& ~~~oneShotBits) ((nextPlace s.lp e).2.setWidth 64) (lo := 41) (len := 2)
    (by decide) i
  rw [if_neg hslot, BitVec.getLsbD_and, BitVec.getLsbD_not, hone, Bool.not_true, Bool.and_false, Bool.and_false] at hbit
  exact hbit

/-! ## A nop and a plain branch -/

section
variable {s u : State} (hit : u.lp.psrBit 36 = s.lp.psrBit 36) (hp : u.params = s.params)
include hit hp

/-- 60 R1302: single stepping after an instruction that falls through to an implemented address. -/
theorem retire_singleStep (h40 : s.lp.psrBit 40 = true) (hip : unimplementedIp s s.lp.ip = false)
    (hnext : unimplementedIp s (s.lp.ip + 16#64) = false) :
    retire s u {} = deliver { offset := 0x6000, isr := 8#64 } s.lp.ri (fallThrough s u) := by
  have huia : unimplementedIp (advance s u {}) (advance s u {}).lp.ip = false := by
    rw [unimplementedIp_advance _ _ hit hp]
    obtain h | h := nextPlace_fall s.lp false
    · exact (congrArg _ h).trans hip
    · exact (congrArg _ h).trans hnext
  have h40' : s.lp.psr.getLsbD 40 = true := h40
  have hcode : trapCode s.lp.psr {} = 8#64 := by simp [trapCode, h40', -BitVec.getLsbD_eq_getElem]
  simp [retire_eq, huia, hcode, h40', fallThrough, -BitVec.getLsbD_eq_getElem]

/-- 60 R1302: a taken branch to an implemented address, with `PSR.tb` on. -/
theorem retire_takenBranch {t : Word} (h40 : s.lp.psrBit 40 = false) (h26 : s.lp.psrBit 26 = true)
    (htarget : unimplementedIp s (alignDown t 4) = false) :
    retire s u { target := some t } = deliver { offset := 0x5F00, isr := 4#64 } s.lp.ri (branchTo s u t) := by
  have huia : unimplementedIp (advance s u { target := some t }) (advance s u { target := some t }).lp.ip = false :=
    (unimplementedIp_advance _ _ hit hp).trans htarget
  have h40' : s.lp.psr.getLsbD 40 = false := h40
  have h26' : s.lp.psr.getLsbD 26 = true := h26
  have hcode : trapCode s.lp.psr { target := some t } = 4#64 := by
    simp [trapCode, h40', h26', -BitVec.getLsbD_eq_getElem]
  simp [retire_eq, huia, hcode, h26', branchTo, -BitVec.getLsbD_eq_getElem]

/-- 60 R1302: a taken branch to an unimplemented address. -/
theorem retire_unimplemented {t : Word} (htarget : unimplementedIp s (alignDown t 4) = true) :
    ∃ x : Exc, x.offset = 0x5E00 ∧ retire s u { target := some t } = deliver x s.lp.ri (branchTo s u t) := by
  have huia : unimplementedIp (advance s u { target := some t }) (advance s u { target := some t }).lp.ip = true :=
    (unimplementedIp_advance _ _ hit hp).trans htarget
  exact ⟨_, rfl, (retire_eq ..).trans (if_pos huia)⟩

end

theorem nopOp_on {qp : BitVec 6} {s : State} (h : s.lp.readPr qp = true) : nopOp qp false s =
    .next (retire s (s.setLp { s.lp with ev := { s.lp.ev with nop := true } }) {}) := by
  rw [nopOp, predicated, if_pos h]; rfl

theorem branchCond_on {k : FlowKind} {qp : BitVec 6} {t : Word} {s : State} (h : s.lp.readPr qp = true) :
    branchCond k false qp t s = .next (retire s (s.noteFlow k true t) { target := some t }) := by
  rw [branchCond, branchWith, if_pos h]; rfl

/-- Settles O47: the end of an instruction by `exec_ends`, its trap by `retire_eq`, its place by `nextPlace_slot` and
`nextPlace_bundle`. -/
theorem trapsAfterInstructions : Obligations.TrapsAfterInstructions := by
  refine ⟨fun i s t hr ht => ?_, ?_, fun o s hq h40 hip hnext => ?_, ?_, ?_, fun s u e =>
    ⟨rfl, fun h hw hri => ?_, fun h hw => ?_, fun i hi => advance_bit s u e hi, fun i hi => advance_oneShot s u e hi⟩⟩
  · obtain hx | ⟨u, e, -, hu⟩ := exec_ends (unraised_zero s) hr (fun _ => rfl) t ht
    · exact .inl hx
    · exact .inr ⟨u, e, hu⟩
  · rintro s u v e code rfl rfl
    exact retire_eq s u e
  · rw [exec_nopM, nopOp_on hq]
    exact congrArg Host.Outcome.next (retire_singleStep rfl rfl h40 hip hnext)
  · rintro o s t rfl hq h40 h26 htarget
    rw [exec_brCondTarget25, branchCond_on hq]
    exact congrArg Host.Outcome.next (retire_takenBranch (u := s.noteFlow .ipRelative true _) rfl rfl h40 h26 htarget)
  · rintro o s t rfl hq - - htarget
    obtain ⟨x, hx, hret⟩ := retire_unimplemented (u := s.noteFlow .ipRelative true _) rfl rfl htarget
    rw [exec_brCondTarget25, branchCond_on hq]
    exact ⟨x, hx, congrArg Host.Outcome.next hret⟩
  · rw [advance_ri, nextPlace_slot h hw hri]
    exact ⟨congrArg Prod.fst (nextPlace_slot h hw hri), rfl⟩
  · rw [advance_ri, nextPlace_bundle h hw]
    exact ⟨congrArg Prod.fst (nextPlace_bundle h hw), rfl⟩

end Sys2Proof.Machine
end

