-- ==== Sys2Proof/Proofs/ExternalInterrupts.lean ====
section
/-!
External interrupts (60 R1320, R1321, R1307): the vector of highest priority of a set, which vectors are pending and let through, and
when an interrupt is taken.
-/

namespace Sys2Proof.Machine

open Sys2Proof.Config

/-! ## The vector of highest priority -/

/-- The numbers a vector can have: 2, 0, and 16 to 255. -/
def IsVector (v : Nat) : Prop := v = 2 ∨ v = 0 ∨ (16 ≤ v ∧ v < 256)

theorem highestFrom_some {m : BitVec 256} {k v : Nat} (h : highestFrom m k = some v) :
    16 ≤ v ∧ v < k + 16 ∧ m.getLsbD v = true ∧ ∀ w, v < w → w < k + 16 → m.getLsbD w = false := by
  induction k with
  | zero => cases h
  | succ k ih =>
    rw [highestFrom] at h
    split at h
    next hbit =>
      cases h
      exact ⟨by omega, by omega, hbit, fun w hw hw' => by omega⟩
    next hbit =>
      obtain ⟨h16, hlt, hv, habove⟩ := ih h
      refine ⟨h16, by omega, hv, fun w hw hw' => ?_⟩
      obtain rfl | hne := eq_or_ne w (k + 16)
      · exact Bool.eq_false_iff.2 hbit
      · exact habove w hw (by omega)

theorem highestFrom_isSome {m : BitVec 256} {k v : Nat} (h16 : 16 ≤ v) (hlt : v < k + 16) (hv : m.getLsbD v = true) :
    ∃ w, highestFrom m k = some w := by
  induction k with
  | zero => omega
  | succ k ih =>
    rw [highestFrom]
    split
    next => exact ⟨_, rfl⟩
    next hbit =>
      have hne : v ≠ k + 16 := fun e => hbit (e ▸ hv)
      exact ih (by omega)

/-- 60 R1320: 2 comes first, then 0, then 255 down to 16. -/
theorem highestVector_some {m : BitVec 256} {v : Nat} (h : highestVector m = some v) : IsVector v ∧ m.getLsbD v = true
    ∧ (m.getLsbD 2 = true → v = 2) ∧ (m.getLsbD 2 = false → m.getLsbD 0 = true → v = 0)
    ∧ (m.getLsbD 2 = false → m.getLsbD 0 = false → ∀ w, v < w → m.getLsbD w = false) := by
  unfold highestVector at h
  split_ifs at h with h0 h2 hz
  · cases h
    exact ⟨.inl rfl, h2, fun _ => rfl, fun h' => absurd (h2.symm.trans h') Bool.noConfusion,
      fun h' => absurd (h2.symm.trans h') Bool.noConfusion⟩
  · cases h
    exact ⟨.inr (.inl rfl), hz, fun h' => absurd h' h2, fun _ _ => rfl, fun _ h' => absurd (hz.symm.trans h') Bool.noConfusion⟩
  · obtain ⟨h16, hlt, hv, habove⟩ := highestFrom_some h
    refine ⟨.inr (.inr ⟨h16, by omega⟩), hv, fun h' => absurd h' h2, fun _ h' => absurd h' hz, fun _ _ w hw => ?_⟩
    by_cases h256 : w < 256
    · exact habove w hw (by omega)
    · exact BitVec.getLsbD_of_ge m w (by omega)

/-- A set with a vector in it has one of highest priority. -/
theorem highestVector_isSome {m : BitVec 256} {v : Nat} (hv : IsVector v) (hm : m.getLsbD v = true) :
    ∃ w, highestVector m = some w := by
  unfold highestVector
  split_ifs with h0 h2 hz
  · rw [h0, BitVec.getLsbD_zero] at hm; cases hm
  · exact ⟨_, rfl⟩
  · exact ⟨_, rfl⟩
  · obtain rfl | rfl | ⟨h16, h256⟩ := hv
    · exact absurd hm h2
    · exact absurd hm hz
    · exact highestFrom_isSome h16 (by omega) hm

/-- The vector of highest priority is of no lower class than any other of the set. -/
theorem highestVector_class {m : BitVec 256} {v w : Nat} (hv : IsVector v) (hm : m.getLsbD v = true)
    (h : highestVector m = some w) : (w = 2 ∨ (w = 0 ∧ v ≠ 2) ∨ (16 ≤ w ∧ v ≤ w ∧ 16 ≤ v)) := by
  obtain ⟨hw, hmw, h2, h0, habove⟩ := highestVector_some h
  cases hm2 : m.getLsbD 2 with
  | true => exact .inl (h2 hm2)
  | false =>
    have hv2 : v ≠ 2 := by rintro rfl; rw [hm2] at hm; cases hm
    cases hm0 : m.getLsbD 0 with
    | true => exact .inr (.inl ⟨h0 hm2 hm0, hv2⟩)
    | false =>
      have hv0 : v ≠ 0 := by rintro rfl; rw [hm0] at hm; cases hm
      have hle : v ≤ w := by
        by_contra hlt
        have := habove hm2 hm0 v (by omega)
        rw [hm] at this; cases this
      unfold IsVector at hv hw
      omega

/-! ## Which vectors are pending -/

theorem vectorBit_bit (v : Nat) {w : Nat} (h : w < 256) : (vectorBit v).getLsbD w = decide (v = w) := by
  rw [vectorBit, BitVec.getLsbD_shiftLeft, BitVec.getLsbD_one, decide_eq_true h, Bool.true_and, Bool.eq_iff_iff]
  simp only [Bool.and_eq_true, Bool.not_eq_true', decide_eq_true_eq, decide_eq_false_iff_not]
  omega

/-- 60 R1321: a vector is pending as `CR.IRR` says, or as that of the monitor (log 29). -/
theorem pending_iff (l : LP) {v : Nat} (h : v < 256) : l.pending.getLsbD v = true ↔ l.cr.irr.getLsbD v = true
    ∨ (l.cr.pmv.toNat % 256 = v ∧ l.cr.pmv.getLsbD 16 = false ∧ pmiPending l.pmu = true) := by
  unfold LP.pending
  split
  next hp =>
    simp only [Bool.and_eq_true, vectorMasked, Bool.not_eq_true'] at hp
    rw [BitVec.getLsbD_or, vectorBit_bit _ h, Bool.or_eq_true, decide_eq_true_eq, vectorOf, field_low8]
    tauto
  next hp =>
    simp only [Bool.and_eq_true, vectorMasked, Bool.not_eq_true'] at hp
    tauto

/-- 44 R791: the monitor requests its interrupt while it is frozen and a counter with `oi` has overflowed. -/
theorem pmiPending_iff (p : PMU) : pmiPending p = true ↔ (pmcAt p 0).getLsbD 0 = true
    ∧ ∃ i, 4 ≤ i ∧ i ≤ 15 ∧ (pmcAt p 0).getLsbD i = true ∧ (pmcAt p i).getLsbD 5 = true := by
  simp only [pmiPending, frozen, pmcOi, Bool.and_eq_true, List.any_eq_true, List.mem_range]
  refine and_congr_right fun _ => ⟨?_, ?_⟩
  · rintro ⟨k, hk, h0, h5⟩
    exact ⟨k + 4, by omega, by omega, h0, h5⟩
  · rintro ⟨i, h4, h15, h0, h5⟩
    obtain ⟨k, rfl⟩ := Nat.exists_eq_add_of_le' h4
    exact ⟨k, by omega, h0, h5⟩

/-! ## Which vectors are let through -/

/-- 60 R1320: `CR.TPR` lets a vector through. -/
def LP.tprAllows (l : LP) (v : Nat) : Prop :=
  v = 2 ∨ (l.cr.tpr.getLsbD 16 = false ∧ (v = 0 ∨ ((l.cr.tpr >>> 4) &&& 0xF#64).toNat < vectorClass v))

/-- 60 R1320: a vector is let through by `CR.TPR` and by the vectors in service. -/
theorem unmasked_iff (l : LP) (v : Nat) : l.unmasked v = true ↔
    l.tprAllows v ∧ ∀ w, highestVector l.cr.inService = some w → vectorClass w < vectorClass v := by
  have hfield : field l.cr.tpr 4 4 = (l.cr.tpr >>> 4) &&& 0xF#64 := rfl
  unfold LP.unmasked LP.tprAllows
  dsimp only
  rw [hfield, Bool.and_eq_true]
  refine and_congr ?_ ?_
  · simp only [Bool.or_eq_true, Bool.and_eq_true, decide_eq_true_eq, Bool.not_eq_true']
  · split
    next hn => simp [hn]
    next w hw => simp [hw]

theorem vectorClass_lt_17 {v : Nat} (h : IsVector v) : vectorClass v < 17 ↔ v ≠ 2 := by
  unfold vectorClass IsVector at *
  split_ifs <;> omega

theorem vectorClass_lt_16 {v : Nat} (h : IsVector v) : vectorClass v < 16 ↔ v ≠ 2 ∧ v ≠ 0 := by
  unfold vectorClass IsVector at *
  split_ifs <;> omega

theorem vectorClass_of_ge {v : Nat} (h : 16 ≤ v) : vectorClass v = v / 16 := by
  rw [vectorClass, if_neg (by omega), if_neg (by omega)]

/-- The non-maskable interrupt only waits for one of its own kind. -/
theorem unmasked_two_iff (l : LP) : l.unmasked 2 = true ↔ highestVector l.cr.inService ≠ some 2 := by
  rw [unmasked_iff, show vectorClass 2 = 17 from rfl]
  refine ⟨fun h e => absurd (h.2 2 e) (by decide), fun h => ⟨.inl rfl, fun w hw => ?_⟩⟩
  exact (vectorClass_lt_17 (highestVector_some hw).1).2 fun e => h (e ▸ hw)

/-- ExtINT waits for `TPR.mmi`, for one of its own kind and for a non-maskable interrupt (log 27). -/
theorem unmasked_zero_iff (l : LP) : l.unmasked 0 = true ↔ l.cr.tpr.getLsbD 16 = false
    ∧ highestVector l.cr.inService ≠ some 2 ∧ highestVector l.cr.inService ≠ some 0 := by
  rw [unmasked_iff, show vectorClass 0 = 16 from rfl]
  constructor
  · rintro ⟨htpr, hserv⟩
    refine ⟨(htpr.resolve_left (by decide)).1, fun e => absurd (hserv 2 e) (by decide),
      fun e => absurd (hserv 0 e) (by decide)⟩
  · rintro ⟨htpr, h2, h0⟩
    refine ⟨.inr ⟨htpr, .inl rfl⟩, fun w hw => ?_⟩
    exact (vectorClass_lt_16 (highestVector_some hw).1).2 ⟨fun e => h2 (e ▸ hw), fun e => h0 (e ▸ hw)⟩

/-- The other vectors go by classes of 16. -/
theorem unmasked_ge_iff (l : LP) {v : Nat} (h16 : 16 ≤ v) (h256 : v < 256) : l.unmasked v = true ↔
    l.cr.tpr.getLsbD 16 = false ∧ ((l.cr.tpr >>> 4) &&& 0xF#64).toNat < v / 16
    ∧ ∀ w, highestVector l.cr.inService = some w → w ≠ 0 ∧ w ≠ 2 ∧ w / 16 < v / 16 := by
  have hallows : l.tprAllows v ↔ l.cr.tpr.getLsbD 16 = false ∧ ((l.cr.tpr >>> 4) &&& 0xF#64).toNat < v / 16 := by
    rw [LP.tprAllows, vectorClass_of_ge h16, or_iff_right (by omega), or_iff_right (by omega)]
  rw [unmasked_iff, hallows, and_assoc, vectorClass_of_ge h16]
  refine and_congr_right fun _ => and_congr_right fun _ => forall₂_congr fun w hw => ?_
  have hw' := (highestVector_some hw).1
  unfold vectorClass IsVector at *
  split_ifs <;> omega

/-- What lets a vector through lets through the vector of highest priority of any set that holds it. -/
theorem unmasked_highest {l : LP} {m : BitVec 256} {v w : Nat} (hv : IsVector v) (hm : m.getLsbD v = true)
    (hw : highestVector m = some w) (hu : l.unmasked v = true) : l.unmasked w = true := by
  have horder := highestVector_class hv hm hw
  have hclass : vectorClass v ≤ vectorClass w := by
    have hw' := (highestVector_some hw).1
    unfold vectorClass IsVector at *
    split_ifs <;> omega
  rw [unmasked_iff] at hu ⊢
  obtain ⟨htpr, hserv⟩ := hu
  refine ⟨?_, fun x hx => (hserv x hx).trans_le hclass⟩
  unfold LP.tprAllows at *
  by_cases hw2 : w = 2
  · exact .inl hw2
  · obtain ⟨hmmi, hmic⟩ := htpr.resolve_left (by omega)
    refine .inr ⟨hmmi, ?_⟩
    by_cases hw0 : w = 0
    · exact .inl hw0
    · exact .inr ((hmic.resolve_left (by omega)).trans_le hclass)

/-! ## When an interrupt is taken -/

theorem candidate_some {l : LP} {m : BitVec 256} {v : Nat} (h : l.candidate m = some v) :
    highestVector m = some v ∧ l.unmasked v = true := by
  unfold LP.candidate at h
  split at h
  next w hw =>
    split_ifs at h with hu
    cases h
    exact ⟨hw, hu⟩
  next => cases h

/-- A set with a vector in it that is let through has a candidate. -/
theorem candidate_isSome {l : LP} {m : BitVec 256} {v : Nat} (hv : IsVector v) (hm : m.getLsbD v = true)
    (hu : l.unmasked v = true) : (l.candidate m).isSome = true := by
  obtain ⟨w, hw⟩ := highestVector_isSome hv hm
  simp [LP.candidate, hw, unmasked_highest hv hm hw hu]

theorem pending_of_irr {l : LP} {v : Nat} (h : l.cr.irr.getLsbD v = true) : l.pending.getLsbD v = true :=
  (pending_iff l (BitVec.lt_of_getLsbD h)).2 (.inl h)

theorem interrupted_psr_i {l : LP} (h : l.psr.getLsbD 14 = false) : l.interrupted = false := by
  rw [LP.interrupted, show l.psrBit 14 = false from h, Bool.false_and]

/-- An interrupt is of a pending vector that is let through. -/
theorem interrupted_vector {l : LP} (h : l.interrupted = true) :
    ∃ v, l.unmasked v = true ∧ l.pending.getLsbD v = true := by
  rw [LP.interrupted, Bool.and_eq_true, Option.isSome_iff_exists] at h
  obtain ⟨-, v, hv⟩ := h
  obtain ⟨hhigh, hu⟩ := candidate_some hv
  have hbit := (highestVector_some hhigh).2.1
  refine ⟨v, hu, ?_⟩
  split at hbit
  next => exact hbit
  next => exact pending_of_irr hbit

/-- A pending vector that is let through interrupts, that of the monitor while `PSR.ic` is 1. -/
theorem interrupted_of_pending {l : LP} {v : Nat} (hi : l.psr.getLsbD 14 = true) (hv : IsVector v)
    (hp : l.cr.irr.getLsbD v = true ∨ (l.psr.getLsbD 13 = true ∧ l.pending.getLsbD v = true)) (hu : l.unmasked v = true) :
    l.interrupted = true := by
  rw [LP.interrupted, show l.psrBit 14 = true from hi, Bool.true_and]
  refine candidate_isSome hv ?_ hu
  split
  next => exact hp.elim pending_of_irr And.right
  next hic => exact hp.resolve_right fun h => hic h.1

/-- 60 R1307: an interrupt comes before the next instruction, unless that one faults. -/
theorem step_interrupt {s : State} (hr : (beginStep s).lp.running = true) (hi : (beginStep s).lp.interrupted = true)
    (hf : faulted (runNext (beginStep s)) = false) :
    step s = .next (endStep (beginStep s) (interrupt (beginStep s))) := by
  refine step_next ?_
  rw [runThread, hr, hi, hf]; rfl

theorem interrupt_fetched {s : State} {b : Bundle} (h : fetch s = .ok b) :
    interrupt s = deliver externalInterrupt (atSlot s b).lp.ri (atSlot s b) := by
  rw [interrupt, atFetchedSlot, h]

theorem interrupt_unfetched {s : State} {e : Abort} (h : fetch s = .error e) :
    interrupt s = deliver externalInterrupt s.lp.ri s := by
  rw [interrupt, atFetchedSlot, h]

/-! ## The controller -/

theorem readIvr_none {s : State} (h : s.lp.candidate s.lp.pending = none) : readIvr s = (15#64, s) := by
  rw [readIvr, h]

theorem readIvr_some {s : State} {v : Nat} (h : s.lp.candidate s.lp.pending = some v) :
    readIvr s = (BitVec.ofNat 64 v, s.setLp { s.lp with cr := { s.lp.cr with
      irr := s.lp.cr.irr &&& ~~~(1#256 <<< v), inService := s.lp.cr.inService ||| (1#256 <<< v) } }) := by
  rw [readIvr, h]; rfl

theorem endOfInterrupt_some {s : State} {v : Nat} (h : highestVector s.lp.cr.inService = some v) : endOfInterrupt s =
    s.setLp { s.lp with cr := { s.lp.cr with inService := s.lp.cr.inService &&& ~~~(1#256 <<< v) } } := by
  rw [endOfInterrupt, h]; rfl

theorem endOfInterrupt_none {s : State} (h : highestVector s.lp.cr.inService = none) : endOfInterrupt s = s := by
  rw [endOfInterrupt, h]

/-- Settles O48: when an interrupt is due (`interrupted_vector`, `interrupted_of_pending`), what is pending and let through
(`pending_iff`, `unmasked_iff`), the order of the vectors (`highestVector_some`) and the controller's registers. -/
theorem externalInterrupts : Obligations.ExternalInterrupts := by
  refine ⟨?_, fun s b => interrupt_fetched, fun s e => interrupt_unfetched, fun l => interrupted_psr_i,
    fun l => interrupted_vector, fun l v => interrupted_of_pending, fun l v => pending_iff l, pmiPending_iff,
    fun l => ⟨unmasked_two_iff l, unmasked_zero_iff l⟩, fun m v => highestVector_some,
    fun l v => unmasked_ge_iff l,
    fun s => ⟨readIvr_none, fun v => readIvr_some, fun v => endOfInterrupt_some, endOfInterrupt_none⟩⟩
  rintro s _ rfl
  exact step_interrupt

end Sys2Proof.Machine
end

