-- ==== Sys2Proof/Proofs/ThreadsAndTime.lean ====
section
/-!
Threads and time (60 R1340 to R1344, R1322; 10 R67, R72, R79; 70 R1383): the timer, the clocks of both threads, the thread switch and
the threads that execute nothing.
-/

namespace Sys2Proof.Machine

open Sys2Proof.Config

/-! ## The timer -/

/-- 60 R1322: when the timer makes its vector pending. -/
theorem timerTick_cr_irr (moved : Prop) [Decidable moved] (old : Word) (n : Nat) (l : LP) :
    (timerTick (decide moved) old n l).cr.irr =
    if l.cr.itv.getLsbD 16 = false ∧ (1 ≤ (l.cr.itm - old).toNat ∨ moved) ∧ (l.cr.itm - old).toNat ≤ n then
      l.cr.irr ||| (1#256 <<< (l.cr.itv &&& 0xFF#64).toNat) else l.cr.irr := by
  unfold timerTick vectorMasked
  dsimp only
  simp only [decide_eq_true_eq]
  split
  next hmask => rw [if_neg fun h => absurd (hmask.symm.trans h.1) Bool.noConfusion]
  next hmask =>
    rw [Bool.not_eq_true] at hmask
    split
    next hedge => rw [if_pos ⟨hmask, hedge.1.symm, hedge.2⟩]; rfl
    next hedge => rw [if_neg fun h => hedge ⟨h.2.1.symm, h.2.2⟩]

/-! ## The clocks -/

/-- 10 R79: the time base advances by a multiple of its ratio, by less than a full turn. -/
theorem ticksOf_bounds {p : Params} (n : Nat) (h : p.wf = true) :
    0 < ticksOf p n ∧ ticksOf p n < 2 ^ 64 ∧ ticksOf p n % p.itcRatio = 0 := by
  have hratio : 1 ≤ p.itcRatio ∧ p.itcRatio < 2 ^ 16 := by
    rw [Params.wf, decide_eq_true_eq] at h
    obtain ⟨-, -, -, -, -, -, -, -, -, -, -, -, hlow, hhigh, -⟩ := h
    exact ⟨hlow, hhigh⟩
  have hclocks : 1 + extraClocks n % 2 ^ 32 ≤ 2 ^ 32 := by omega
  refine ⟨Nat.mul_pos hratio.1 (by omega), ?_, Nat.mul_mod_right ..⟩
  calc ticksOf p n ≤ p.itcRatio * 2 ^ 32 := Nat.mul_le_mul_left _ hclocks
    _ < 2 ^ 16 * 2 ^ 32 := Nat.mul_lt_mul_of_pos_right hratio.2 (by decide)
    _ < 2 ^ 64 := by decide

/-- 10 R67: the two utilization counters together gain on the time base what they are further ahead of it afterwards. -/
theorem rucOf_add (p : Params) (n e : Nat) : rucOf p n e + e = ticksOf p n + rucNext p n e := by
  unfold rucOf rucNext; omega

theorem rucNext_le (p : Params) (n : Nat) {e : Nat} (h : e ≤ 2) : rucNext p n e ≤ 2 := by
  unfold rucNext; omega

/-! ## The threads by themselves -/

/-- 60 R1344: a halted thread wakes when a vector has got through. -/
theorem wake_eq (l : LP) : l.wake =
    { l with thr := { l.thr with halted := l.thr.halted && !(l.candidate l.pending).isSome } } := by
  unfold LP.wake
  split
  next hwake =>
    obtain ⟨hh, hc⟩ := Bool.and_eq_true_iff.1 hwake
    rw [hh, hc]; rfl
  next hstay =>
    have hkeep : (l.thr.halted && !(l.candidate l.pending).isSome) = l.thr.halted := by
      revert hstay
      generalize l.thr.halted = a, (l.candidate l.pending).isSome = b
      revert a b; decide
    rw [hkeep]

/-- A thread that runs already, or on a model without multithreading, is not started. -/
theorem startThread_same {p : Params} {l : LP} (h : l.thr.started = true ∨ p.featMt = false) (n : Nat) :
    startThread p n l = l := by
  rw [startThread, if_pos (by obtain h | h := h <;> simp [h])]

/-- 70 R1383: a thread starts where the environment says. -/
theorem startThread_started {p : Params} {n : Nat} {l : LP} (h : (startThread p n l).thr.started = true)
    (hl : l.thr.started = false) :
    p.featMt = true ∧ ∃ a, environmentStart n = some a ∧ (startThread p n l).ip = a &&& ~~~0xF#64 := by
  have hmt : p.featMt = true := by
    by_contra hmt
    rw [startThread_same (.inr (Bool.eq_false_iff.2 hmt)), hl] at h
    cases h
  rw [startThread, if_neg (by simp [hl, hmt])] at h ⊢
  refine ⟨hmt, ?_⟩
  cases he : environmentStart n with
  | none =>
    rw [he] at h
    exact absurd (hl.symm.trans h) Bool.noConfusion
  | some a => exact ⟨a, rfl, alignDown_4 a⟩

theorem startThread_frame (p : Params) (n : Nat) (l : LP) :
    (startThread p n l).thr.halted = l.thr.halted ∧ (startThread p n l).ar = l.ar := by
  unfold startThread
  split
  · exact ⟨rfl, rfl⟩
  · split <;> exact ⟨rfl, rfl⟩

/-- The start of a thread does not look at its pending vectors. -/
theorem startThread_withCr (p : Params) (n : Nat) (l : LP) (c : CRFile) :
    startThread p n { l with cr := c } = { startThread p n l with cr := c } := by
  unfold startThread
  split
  · rfl
  · split <;> rfl

/-! ## The background thread -/

/-- What the clocks do to the background thread: it may start, it may wake, and of the rest only its monitors and its pending vectors
change. -/
theorem elapse_bg (n : Nat) (s t : State) : ∃ pmu irr thr,
    thr.started = (startThread t.params n t.bg).thr.started
    ∧ thr.halted = (t.bg.thr.halted && !((elapse n s t).bg.candidate (elapse n s t).bg.pending).isSome)
    ∧ (elapse n s t).bg =
      { startThread t.params n t.bg with pmu := pmu, cr := { t.bg.cr with irr := irr }, thr := thr } := by
  obtain ⟨irr, hirr⟩ := timerTick_irr (decide (s.itc ≠ t.itc)) t.itc (ticksOf s.params n) t.bg
  have hstart : startThread t.params n (timerTick (decide (s.itc ≠ t.itc)) t.itc (ticksOf s.params n) t.bg) =
      { startThread t.params n t.bg with cr := { t.bg.cr with irr := irr } } := by
    rw [hirr]; exact startThread_withCr t.params n t.bg _
  have hhalted : (startThread t.params n t.bg).thr.halted = t.bg.thr.halted := (startThread_frame t.params n t.bg).1
  refine ⟨(elapse n s t).bg.pmu, irr, (elapse n s t).bg.thr, ?_⟩
  unfold elapse
  dsimp only
  rw [hstart, wake_eq, ← hhalted]
  exact ⟨rfl, rfl, rfl⟩

theorem elapse_bg_halted (n : Nat) (s t : State) : (elapse n s t).bg.thr.halted =
    (t.bg.thr.halted && !((elapse n s t).bg.candidate (elapse n s t).bg.pending).isSome) := by
  obtain ⟨pmu, irr, thr, -, hhalted, hbg⟩ := elapse_bg n s t
  exact (congrArg (·.thr.halted) hbg).trans hhalted

theorem elapse_bg_started (n : Nat) (s t : State) :
    (elapse n s t).bg.thr.started = (startThread t.params n t.bg).thr.started := by
  obtain ⟨pmu, irr, thr, hstarted, -, hbg⟩ := elapse_bg n s t
  exact (congrArg (·.thr.started) hbg).trans hstarted

theorem elapse_bg_ip (n : Nat) (s t : State) : (elapse n s t).bg.ip = (startThread t.params n t.bg).ip := by
  obtain ⟨pmu, irr, thr, -, -, hbg⟩ := elapse_bg n s t
  exact congrArg (·.ip) hbg

/-- 10 R67: the utilization counter of the thread in the background stands still. -/
theorem elapse_bg_ar (n : Nat) (s t : State) : (elapse n s t).bg.ar = t.bg.ar := by
  obtain ⟨pmu, irr, thr, -, -, hbg⟩ := elapse_bg n s t
  exact (congrArg (·.ar) hbg).trans (startThread_frame t.params n t.bg).2

theorem elapse_lp_ruc (n : Nat) (s t : State) :
    (elapse n s t).lp.ar.ruc = t.lp.ar.ruc + BitVec.ofNat 64 (rucOf s.params n t.rucAhead) := by
  obtain ⟨irr, hirr⟩ :=
    timerTick_irr (decide (s.itc ≠ t.itc ∨ s.lp.cr.itm ≠ t.lp.cr.itm)) t.itc (ticksOf s.params n) t.lp
  have hruc : (elapse n s t).lp.ar.ruc = (timerTick (decide (s.itc ≠ t.itc ∨ s.lp.cr.itm ≠ t.lp.cr.itm)) t.itc
    (ticksOf s.params n) t.lp).ar.ruc + BitVec.ofNat 64 (rucOf s.params n t.rucAhead) := rfl
  rw [hruc, hirr]

/-- 60 R1322: the timer vector of the thread that ran. -/
theorem elapse_lp_irr (n : Nat) (s t : State) : (elapse n s t).lp.cr.irr =
    if t.lp.cr.itv.getLsbD 16 = false
        ∧ (1 ≤ (t.lp.cr.itm - t.itc).toNat ∨ s.itc ≠ t.itc ∨ s.lp.cr.itm ≠ t.lp.cr.itm)
        ∧ (t.lp.cr.itm - t.itc).toNat ≤ ticksOf s.params n then
      t.lp.cr.irr ||| (1#256 <<< (t.lp.cr.itv &&& 0xFF#64).toNat) else t.lp.cr.irr :=
  timerTick_cr_irr (s.itc ≠ t.itc ∨ s.lp.cr.itm ≠ t.lp.cr.itm) t.itc (ticksOf s.params n) t.lp

/-! ## The thread switch -/

/-- 60 R1340: without a second thread there is nothing to switch to. -/
theorem switchOf_notStarted (n : Nat) {s t : State} (h : t.bg.thr.started = false) : (switchOf n s t).1 = none := by
  rw [switchOf, if_pos (by simp [h])]

theorem started_of_switch {n : Nat} {s t : State} (h : (switchOf n s t).1.isSome = true) : t.bg.thr.started = true := by
  by_contra hs
  rw [switchOf_notStarted n (Bool.eq_false_iff.2 hs)] at h
  cases h

theorem endStep_switch {s t : State} (h : (switchOf t.free s t).1.isSome = true) :
    endStep s t = swapThreads (elapse t.free s t) := by
  rw [endStep, if_pos h]

/-- 60 R1343: a switch exchanges the threads, each with its registers as the clocks left them. -/
theorem endStep_switch_frame {s t : State} (h : (switchOf t.free s t).1.isSome = true) :
    ∃ pmu irr thr pmu' ruc' irr' thr' unc rem ahead, thr.armed = false
      ∧ thr.halted = (t.bg.thr.halted && !((endStep s t).lp.candidate (endStep s t).lp.pending).isSome)
      ∧ thr'.halted = t.lp.thr.halted
      ∧ endStep s t = { t with
        lp := { t.bg with pmu := pmu, cr := { t.bg.cr with irr := irr }, thr := thr },
        bg := { t.lp with pmu := pmu', ar := { t.lp.ar with ruc := ruc' }, cr := { t.lp.cr with irr := irr' }, thr := thr' },
        thread1 := !t.thread1, itc := t.itc + BitVec.ofNat 64 (ticksOf s.params t.free), uncore := unc, remote := rem
        rucAhead := ahead, free := t.free + 512 } := by
  obtain ⟨pmu', ruc', irr', thr', bg, unc, rem, ahead, hhalted', -, helapse⟩ := elapse_frame t.free s t
  obtain ⟨pmu, irr, thr, -, hhalted, hbg⟩ := elapse_bg t.free s t
  rw [startThread_same (.inl (started_of_switch h))] at hbg
  have hswap := endStep_switch h
  have hcand : (endStep s t).lp.candidate (endStep s t).lp.pending =
      (elapse t.free s t).bg.candidate (elapse t.free s t).bg.pending := by rw [hswap]; rfl
  refine ⟨pmu, irr, { thr with armed := false }, pmu', ruc', irr', thr', unc, rem, ahead, rfl, ?_, hhalted', ?_⟩
  · rw [hcand]; exact hhalted
  · rw [hswap, swapThreads, hbg, helapse]

/-! ## A thread that executes nothing -/

/-- 60 R1344: a halted thread goes on once a vector gets through, with the interrupt if it is enabled. -/
theorem idle_wakes {s : State} (hh : s.lp.thr.halted = true) (hc : (s.lp.candidate s.lp.pending).isSome = true) :
    idle s = if s.lp.interrupted then interrupt (s.setLp { s.lp with thr := { s.lp.thr with halted := false } })
      else s.setLp { s.lp with thr := { s.lp.thr with halted := false } } := by
  rw [idle, wake_eq, hh, hc]; rfl

theorem idle_stays {s : State} (h : s.lp.thr.halted = false ∨ s.lp.candidate s.lp.pending = none) : idle s = s := by
  have hwake : s.lp.wake = s.lp := by
    rw [LP.wake, if_neg (by obtain h | h := h <;> simp [h])]
  have hsame : s.setLp s.lp = s := rfl
  rw [idle, hwake, hsame, if_neg (by simp)]

/-- Settles O50: the switch by `endStep_switch_frame`, the clocks by `elapse_lp_irr`, `elapse_lp_ruc` and `ticksOf_bounds`, the
start and the waking of the background thread by `elapse_bg`, the idle thread by `idle_wakes`. -/
theorem threadsAndTime : Obligations.ThreadsAndTime := by
  refine ⟨fun n s t => switchOf_notStarted n, fun s t => endStep_switch_frame, fun s t h => ?_, fun s t h => ?_,
    fun p n e hp => ?_, fun s t h => ?_, ?_, ?_⟩
  · rw [endStep_noSwitch h]; exact elapse_lp_irr t.free s t
  · rw [endStep_noSwitch h]
    exact ⟨elapse_lp_ruc t.free s t, congrArg (·.ruc) (elapse_bg_ar t.free s t), rfl⟩
  · obtain ⟨hpos, hlt, hmul⟩ := ticksOf_bounds n hp
    exact ⟨hpos, hlt, hmul, rucOf_add p n e, rucNext_le p n⟩
  · rw [endStep_noSwitch h, elapse_bg_started, elapse_bg_ip]
    refine ⟨fun hstart => ?_, startThread_started, elapse_bg_halted t.free s t⟩
    rw [startThread_same hstart]
    exact ⟨rfl, rfl⟩
  · rintro s _ rfl hr
    refine step_next ?_
    rw [runThread, hr]; rfl
  · rintro s _ rfl
    exact ⟨idle_wakes, idle_stays⟩

end Sys2Proof.Machine
end

