-- ==== Sys2Proof/Proofs/ResetValues.lean ====
section
/-!
The values of the state after reset (70 R1381, R1382, R1384, R1385): the configuration registers of the performance monitor by
their numbers, and the frame.
-/

namespace Sys2Proof.Machine

/-! ## The performance monitor (11 R200) -/

theorem getD_ofFn {α : Type} {n i : Nat} (f : Fin n → α) (d : α) (h : i < n) : (Vector.ofFn f).getD i d = f ⟨i, h⟩ := by
  simp [Vector.getD, h]

/-- A configuration register that neither the reset nor PAL sets holds 0. -/
theorem pmcAt_reset_zero {i : Nat} (hi : i < 44) (hones : ¬ (32 ≤ i ∧ i ≤ 35)) (hpal : i ≠ 38 ∧ i ≠ 41) :
    pmcAt PMU.reset i = 0#64 := by
  rw [pmcAt, PMU.reset, getD_ofFn _ _ hi]
  split
  case h_7 => rfl
  all_goals dsimp only at *; omega

/-- PMC32 to PMC35 at reset: a mask and a match register in turn, each all ones where a write sets bits (log 38). -/
theorem pmcAt_reset_ones {i : Nat} (h : 32 ≤ i) (h' : i ≤ 35) : pmcAt PMU.reset i = pmcWritable i := by
  obtain rfl | rfl | rfl | rfl : i = 32 ∨ i = 33 ∨ i = 34 ∨ i = 35 := by omega
  all_goals rfl

/-- PAL's writes to PMC38 and PMC41 (11 R148, R155; log 6). -/
theorem pmcAt_reset_pal : pmcAt PMU.reset 38 = pmc38Default ∧ pmcAt PMU.reset 41 = pmc41Default := ⟨rfl, rfl⟩

theorem frozen_reset : frozen PMU.reset = false := by
  rw [frozen, pmcAt_reset_zero (by decide) (by decide) (by decide), BitVec.getLsbD_zero]

/-! ## The frame (10 R58) -/

/-- The frame at reset is empty. -/
theorem frame_reset (b : Bool) (p : Params) :
    (LP.reset b p).sol = 0 ∧ (LP.reset b p).sof = 0 ∧ (LP.reset b p).sor = 0 := by
  simp [LP.sol, LP.sof, LP.sor, LP.reset]

/-- Settles O51: the monitor by `pmcAt_reset_zero`, `pmcAt_reset_ones` and `pmcAt_reset_pal`, the translation registers as copies of
none, the constants by `registerFiles`, the frame by `frame_reset`; the other fields are written out in `State.reset`. -/
theorem resetState : Obligations.ResetState := by
  obtain ⟨hconst, -⟩ := registerFiles
  obtain ⟨hgr0, hfr0, hfr1, hpr0, -⟩ := hconst State.reset.lp
  obtain ⟨hpmc38, hpmc41⟩ := pmcAt_reset_pal
  obtain ⟨hsol, hsof, hsor⟩ : State.reset.lp.sol = 0 ∧ State.reset.lp.sof = 0 ∧ State.reset.lp.sor = 0 := frame_reset ..
  have hcounter (i : Fin 44) (h : 4 ≤ i.val) (h' : i.val ≤ 15) : pmcAt State.reset.lp.pmu i = 0#64 :=
    pmcAt_reset_zero (by omega) (by omega) (by omega)
  have hpmc36 : pmcAt State.reset.lp.pmu 36 = 0#64 := pmcAt_reset_zero (by decide) (by decide) (by decide)
  refine ⟨rfl, fun i h h' => ?counters, frozen_reset, ?monitorVector, fun i => pmcAt_reset_ones, hpmc38, hpmc41, ?pmc36,
    rfl, rfl, rfl, rfl, rfl, fun e => List.eq_of_mem_replicate, fun e => List.eq_of_mem_replicate, rfl, rfl, rfl, rfl,
    hgr0, hfr0, hfr1, hpr0, ?locals, ?frame, ?rotating, rfl, rfl⟩
  case counters => rw [hcounter i h h']; exact ⟨BitVec.getLsbD_zero, BitVec.getLsbD_zero⟩
  case monitorVector => exact (by decide : maskedVector.getLsbD 16 = true)
  case pmc36 => rw [hpmc36, BitVec.zero_and]
  case locals => rw [hsol, hsof]
  case frame => rw [hsof]; decide
  case rotating => rw [hsor, hsof]

end Sys2Proof.Machine
end
